-- ==== Sys2Proof/Word.lean ====
section
/-! DEFINITION. The word types of the HJ2 model (spec 00_scope.md, R7: bit 0 is least significant,
multi-byte fields little-endian). -/

namespace Sys2Proof

/-- A byte. -/
abbrev Byte := BitVec 8

/-- A 32-bit register word. -/
abbrev Word32 := BitVec 32

/-- A 64-bit scalar register. -/
abbrev Word64 := BitVec 64

/-- A BAR0 byte offset: BAR0 is 64 MiB (R26). -/
abbrev Bar0 := BitVec 26

/-- One core (R1). -/
abbrev CoreId := Fin 192

/-- One array, 4 × core + array number (R62). -/
abbrev ArrId := Fin 768

/-- One context. -/
abbrev CtxId := Fin 64

/-- One switched power domain (R62). -/
abbrev DomId := Fin 1012

/-- One Nimus link (R305). -/
abbrev LinkId := Fin 16

end Sys2Proof
end

