-- ==== Sys2Proof/Syntax.lean ====
section
/-! DEFINITION. The commands of the HJ2: one constructor per row of spec/opcode_table.json, in the
table's order. Operands are what the sender outside the model supplies: the requester and the value of
a register write, the fields of an instruction word (06_hj1_baseline.md R157), a message or frame that
arrives, a sensor reading. Nothing here has a meaning; Machine/ gives it. -/

namespace Sys2Proof

/-- The two requesters of register pages (R32). -/
inductive Requester where
  | host
  | mgmt
  deriving DecidableEq, Repr

/-- Fields of a format S word besides OP and FN (R157); `size` and `sign` are FN of LD and ST. -/
structure SOp where
  core : CoreId
  rd : Fin 32
  ra : Fin 32
  rb : Fin 32
  i : Bool
  imm : Word32
  deriving DecidableEq, Repr

/-- Fields of a format V word besides OP and FN (R157, R187: bit 44 is SR). -/
structure VOp where
  core : CoreId
  vd : Fin 32
  va : Fin 32
  vb : Fin 32
  vc : Fin 32
  pred : Fin 8
  pe : Bool
  pz : Bool
  ss : Fin 32
  bs : Bool
  sr : Bool
  imm : BitVec 18
  deriving DecidableEq, Repr

/-- Fields of a format M word besides OP (R157, R187: bits 46 and 47 are AE and BE). -/
structure MOp where
  core : CoreId
  arr : Fin 4
  tile : Fin 4
  acc : Bool
  fmt : Fin 4
  sa : Fin 32
  sb : Fin 32
  k : BitVec 11
  row : Fin 32
  half : Bool
  vr : Fin 32
  ae : Bool
  be : Bool
  deriving DecidableEq, Repr

/-- Fields of a format C word besides OP (R157). -/
structure COp where
  core : CoreId
  ch : Fin 8
  sa : Fin 32
  sd : Fin 32
  imm : Word32
  deriving DecidableEq, Repr

/-- Fields of a format Y word besides OP (R157). -/
structure YOp where
  core : CoreId
  sd : Fin 32
  sa : Fin 32
  sb : Fin 32
  id8 : Byte
  imm : Word32
  deriving DecidableEq, Repr

/-- A wake source of R72 that has no table row of its own. -/
inductive WakeSource where
  | fabric (vc : Fin 8)
  | memory (stack : Fin 8)
  | link (l : LinkId)
  | engine (e : Fin 4)
  | agent (d : DomId)
  deriving DecidableEq, Repr

/-- What the controller observes of one line's ECC (R257 to R259). -/
inductive EccObs where
  | clean
  | correctable
  | uncorrectable
  deriving DecidableEq, Repr

/-- What a hint-cache slice observes of its own codes (R276). -/
inductive HccObs where
  | clean
  | correctable
  | uncorrectable
  deriving DecidableEq, Repr

/-- An access hint (R272). -/
inductive Hint where
  | default
  | stream
  | keep
  | last
  deriving DecidableEq, Repr

/-- One access to stacked memory as its requester makes it (R271 to R277). -/
structure MemAccess where
  addr : BitVec 40
  hint : Hint
  partition : Fin 16
  mayWrite : Bool
  ecc : EccObs
  hcc : HccObs
  deriving DecidableEq, Repr

/-- A fault striking one cell of a pass: `xor` is applied to the cell's accumulator bits (row or column 32
names the checksum row or column). The environment supplies it; no fault is the usual case. -/
structure CellFault where
  row : Fin 33
  col : Fin 33
  mask : Nat
  deriving DecidableEq, Repr

/-- What the check bits of one tile word show as it is read (R127). -/
structure TileEcc where
  row : Fin 32
  col : Fin 32
  obs : EccObs
  deriving DecidableEq, Repr

/-- A frame as it arrives on a link (R318, R319). `crcOk` is the receiver's CRC comparison, `cut` says the
frame was cut short by a control block (R320). -/
structure Frame where
  typ : BitVec 4
  vc : Fin 8
  lines : BitVec 5
  seq : BitVec 16
  ack : BitVec 16
  poison : BitVec 16
  som : Bool
  eom : Bool
  sub : Byte
  arg : Byte
  route : Word32
  payload : List Byte
  credits : List Byte
  crcOk : Bool
  cut : Bool
  deriving DecidableEq, Repr

/-- A whole message as the transport delivers it (R344). `extra` is header bytes 0x24 to 0x3F; `link` the
link it arrived on (none: from this chip); `abort` says it was ended by ABORT (R364). -/
structure Message where
  src : BitVec 12
  dest : BitVec 12
  kind : Byte
  mc : Bool
  segment : Bool
  dctx : CtxId
  sctx : CtxId
  mseq : BitVec 48
  replyTo : BitVec 48
  tag : BitVec 16
  status : BitVec 16
  bootId : Word32
  extra : List Byte
  payload : List Byte
  poison : List Bool
  abort : Bool
  deriving DecidableEq, Repr

/-- What full training and the partner's INIT frame show (R310 to R314). -/
structure TrainInfo where
  lanesOk : BitVec 4
  skew : Word32
  polarity : BitVec 4
  reversed : Bool
  partnerAddr : BitVec 12
  partnerPod : BitVec 16
  partnerLink : Fin 16
  partnerStepping : BitVec 4
  partnerCredits : List Byte
  deriving DecidableEq, Repr

/-- What boot finds of one stack (R115, R251, R266). -/
structure StackInfo where
  gib : Nat
  height : Nat
  gbpsTimes10 : Nat
  vendor : BitVec 16
  temp : Nat
  trainOk : Bool
  settings : List Byte
  deriving DecidableEq, Repr

/-- What boot finds of the board: SFDP, stacks, self-tests, links and times (R100 to R118). -/
structure BootEnv where
  sfdpOk : Bool
  sfdpErase4k : Bool
  sfdpAddr4 : Bool
  tProgUs : BitVec 32
  flashBytes : Nat
  fuseCorrected : Bool
  fuseVoteFailed : Bool
  stackInfos : List StackInfo
  selfTestFails : List ArrId
  linksUp : BitVec 16
  ticksToReady : BitVec 32
  deriving DecidableEq, Repr

/-- The outcome of a fetch from host memory (R604, R402): bytes, a completer abort or unsupported request,
or a poisoned completion. -/
inductive HostRead where
  | bytes (bs : List Byte)
  | abort
  | poisoned
  deriving DecidableEq, Repr

/-- One chunk read from host memory for PUBLISH or RESTREAM_REQ (R399, R410). -/
structure HostChunk where
  index : Nat
  data : HostRead
  deriving DecidableEq, Repr

/-- One rail's PMBus reading (R617). -/
structure RailReading where
  rail : Fin 8
  linear : Bool
  nacked : Bool
  voutMv : BitVec 16
  tempC : Byte
  iout : BitVec 16
  deriving DecidableEq, Repr

/-- The PEC byte of an SMBus message as received (R611). -/
inductive Pec where
  | absent
  | good
  | bad
  deriving DecidableEq, Repr

/-- The commands of the HJ2, in the order of spec/opcode_table.json. -/
inductive Instr where
  -- register pages (02_register_pages.md)
  | registerWrite (r : Requester) (off : Bar0) (v : Word32) (ep : Bool)
  | sizeErr (r : Requester) (off : Bar0) (write : Bool)
  | unpopulatedAccess (r : Requester) (off : Bar0) (write : Bool)
  | offAccess (r : Requester) (off : Bar0) (write : Bool)
  | lowWordRead (r : Requester) (off : Bar0)
  | rcRead (r : Requester) (off : Bar0) (sameCycle : Option Word32)
  | pgStatClear (r : Requester) (page : Fin 16384) (v : Word32) (hwSet : Word32)
  | srst (r : Requester) (page : Fin 16384)
  | softResetEnd (page : Fin 16384)
  | pgLockArm (r : Requester) (page : Fin 16384)
  | pgLockLock (r : Requester) (page : Fin 16384)
  -- clocks, power domains and supply guard (03_power_clocks.md)
  | pllLock (p : Fin 26)
  | pllUnlock (p : Fin 26)
  | slowclkLost
  | refclkLost
  | slowclkSwitch
  | clockGateEntry (d : DomId)
  | deepHystExpiry (d : DomId)
  | domainSleepDone (d : DomId)
  | domainWake (src : WakeSource)
  | domainWakeDone (d : DomId) (sclk : BitVec 31)
  | pwrWakeHold (r : Requester) (v : Word32)
  | pwrHoldRelease (r : Requester) (v : Word32)
  | wsetWake (r : Requester)
  | wsetClear (r : Requester)
  | deepEntry
  | deepExit
  | timerFire (n : Fin 8)
  | timerClaim (r : Requester) (n : Fin 8) (v : Word32)
  | timerRelease (r : Requester) (n : Fin 8)
  | aonTmrAlloc (r : Requester) (v : Word32)
  | supplyWarnAssert (src : Fin 3)
  | supplyWarnClear (src : Fin 3)
  | nvOpDone (readback : Option Word32)
  -- reset, boot and grade discovery (04_reset_boot.md)
  | powerOnReset (strap : BitVec 3)
  | sagReset (rails : BitVec 2)
  | perstReset (atLeastOneUs : Bool)
  | aonRstReq (r : Requester) (v : Word32)
  | fatalReset
  | aonWdogCtl (r : Requester) (v : Word32)
  | aonWdogKick (r : Requester) (v : Word32)
  | resetRelease (env : BootEnv)
  | aonBootConfirm (r : Requester) (v : Word32)
  | aonRecoveryGo (r : Requester) (v : Word32)
  | trainingRecordWrite (stack : Fin 8)
  | fusProgCmd (r : Requester) (v : Word32)
  -- cores and matrix arrays (05_cores_arrays.md)
  | passVerdict (a : ArrId) (faults : List CellFault) (ecc : List TileEcc)
  | retryStart (cl : Fin 16)
  | retryComplete (cl : Fin 16) (faults : List CellFault) (ecc : List TileEcc) (freeze : Nat)
  | cluFence (r : Requester) (cl : Fin 16) (v : Word32)
  | cluUnfence (r : Requester) (cl : Fin 16) (v : Word32)
  | cluSelftestCmd (r : Requester) (cl : Fin 16) (v : Word32)
  | selftestSliceStart (cl : Fin 16)
  | selftestSliceDone (cl : Fin 16) (ok : Bool)
  -- instructions (06_hj1_baseline.md, 07_hj2_contract.md)
  | illegalInstr (c : CoreId) (w : Word64)
  | nop (o : SOp)
  | add (o : SOp)
  | sub (o : SOp)
  | and (o : SOp)
  | or (o : SOp)
  | xor (o : SOp)
  | sll (o : SOp)
  | srl (o : SOp)
  | sra (o : SOp)
  | mul (o : SOp)
  | mulhu (o : SOp)
  | mulh (o : SOp)
  | min (o : SOp)
  | max (o : SOp)
  | minu (o : SOp)
  | maxu (o : SOp)
  | slt (o : SOp)
  | sltu (o : SOp)
  | seq (o : SOp)
  | luih (o : SOp)
  | ld (o : SOp) (fn : BitVec 6)
  | st (o : SOp) (fn : BitVec 6)
  | beq (o : SOp)
  | bne (o : SOp)
  | blt (o : SOp)
  | bge (o : SOp)
  | bltu (o : SOp)
  | bgeu (o : SOp)
  | jal (o : SOp)
  | jr (o : SOp)
  | spr (o : SOp)
  | vadd (o : VOp)
  | vsub (o : VOp)
  | vmul (o : VOp)
  | vfma (o : VOp)
  | vfms (o : VOp)
  | vmin (o : VOp)
  | vmax (o : VOp)
  | vabs (o : VOp)
  | vneg (o : VOp)
  | vdiv (o : VOp)
  | vsqrt (o : VOp)
  | vrsqrt (o : VOp)
  | vexp2 (o : VOp)
  | vlog2 (o : VOp)
  | vintAdd (o : VOp)
  | vintSub (o : VOp)
  | vintMul (o : VOp)
  | vintAnd (o : VOp)
  | vintOr (o : VOp)
  | vintXor (o : VOp)
  | vintSll (o : VOp)
  | vintSrl (o : VOp)
  | vintSra (o : VOp)
  | vintMin (o : VOp)
  | vintMax (o : VOp)
  | vintMinu (o : VOp)
  | vintMaxu (o : VOp)
  | feq (o : VOp)
  | fne (o : VOp)
  | flt (o : VOp)
  | fle (o : VOp)
  | ieq (o : VOp)
  | ine (o : VOp)
  | ilt (o : VOp)
  | ile (o : VOp)
  | iltu (o : VOp)
  | ileu (o : VOp)
  | f2i (o : VOp)
  | i2f (o : VOp)
  | f2b (o : VOp)
  | b2f (o : VOp)
  | i2b8 (o : VOp)
  | b82i (o : VOp)
  | f2e4 (o : VOp)
  | e42f (o : VOp)
  | f2e5 (o : VOp)
  | e52f (o : VOp)
  | fsum (o : VOp)
  | fmax (o : VOp)
  | fmin (o : VOp)
  | fargmax (o : VOp)
  | isum (o : VOp)
  | imax (o : VOp)
  | imin (o : VOp)
  | mov (o : VOp)
  | bcast (o : VOp)
  | sel (o : VOp)
  | get (o : VOp)
  | put (o : VOp)
  | perm (o : VOp)
  | iota (o : VOp)
  | vpredAnd (o : VOp)
  | vpredOr (o : VOp)
  | vpredXor (o : VOp)
  | vpredAndn (o : VOp)
  | vpredSet (o : VOp)
  | vpredClr (o : VOp)
  | vpredCnt (o : VOp)
  | vpredFirst (o : VOp)
  | vld (o : VOp)
  | vst (o : VOp)
  | vmaskMask (o : VOp)
  | vmaskDraw (o : VOp)
  | cksumCmp (o : VOp)
  | cksumLog (o : VOp)
  | momqLd (o : VOp)
  | momqSt (o : VOp)
  | momqUpd (o : VOp)
  | mma (o : MOp)
  | mtrd (o : MOp) (ecc : List TileEcc)
  | mtwr (o : MOp)
  | mtzero (o : MOp)
  | gang (o : MOp)
  | ungang (o : MOp)
  | strPost (o : COp)
  | strWait (o : COp)
  | strWaitComplete (c : CoreId) (waited : Nat)
  | strAck (o : COp)
  | strStat (o : COp)
  | bar (o : YOp)
  | lockAcq (o : YOp)
  | lockRel (o : YOp)
  | fabSend (o : YOp)
  | fabRecv (o : YOp)
  | fabSendComplete (c : CoreId) (waited : Nat)
  | fabRecvComplete (c : CoreId) (waited : Nat)
  | fence (o : YOp)
  | halt (o : YOp)
  | trap (o : YOp)
  | emit (o : YOp)
  | yield (o : YOp)
  | sentinelSweep (c : CoreId)
  | programEnd (x : CtxId)
  -- streams, credits and barriers (08_streams.md)
  | descSetup (c : CoreId) (ch : Fin 8)
  | slotFilled (c : CoreId) (ch : Fin 8)
  | slotDrained (c : CoreId) (ch : Fin 8)
  | descRetire (c : CoreId) (ch : Fin 8)
  | barArrival (c : CoreId)
  | barComplete (x : CtxId) (b : Fin 64) (waits : List (CoreId × Nat))
  | barArrive (m : Message)
  | barRelease (m : Message)
  | barrierStall (x : CtxId) (b : Fin 64)
  -- stacked memory and the hint cache (09_stacked_memory.md)
  | memRead (a : MemAccess)
  | memWrite (a : MemAccess) (data : List Byte) (poison : Bool)
  | tempReading (stack : Fin 8) (t : Nat)
  | scrubLine (stack : Fin 8) (ecc : EccObs) (raced : Bool)
  | hccFlushCmd (r : Requester) (sl : Fin 16) (v : Word32)
  | flushDone (sl : Fin 16)
  -- tiers, placement and quotas (10_tiers_quotas.md)
  | heatEpochEnd
  | moveStart
  | moveDone
  | moveAbandon
  | tierAdmit (r : Requester)
  | tierRelease (r : Requester)
  | map (r : Requester)
  | share (r : Requester)
  | unmap (r : Requester)
  | move (r : Requester)
  | tierQpool (r : Requester) (v : Word32)
  | tierQstack (r : Requester) (v : Word32)
  -- Nimus links (11_link_layer.md)
  | linkSignalDetect (l : LinkId)
  | linkUp (l : LinkId) (t : TrainInfo)
  | linkTrainFail (l : LinkId)
  | linkTrainRetry (l : LinkId)
  | fastRetrainDone (l : LinkId) (ok : Bool)
  | linkDown (l : LinkId)
  | data (l : LinkId) (f : Frame)
  | nak (l : LinkId) (f : Frame)
  | ctrl (l : LinkId) (f : Frame)
  | creditCtrlSend (l : LinkId)
  | replayTimeout (l : LinkId)
  | laneDrop (l : LinkId) (lane : Fin 4)
  | widthReq (l : LinkId) (f : Frame)
  | widthAck (l : LinkId) (f : Frame)
  | widthSwitch (l : LinkId)
  | laneReaddAttempt (l : LinkId) (clean : BitVec 4)
  | recalStart (l : LinkId) (tempC : Nat)
  | recalLaneDone (l : LinkId)
  | retrain (r : Requester) (l : LinkId)
  | recal (r : Requester) (l : LinkId)
  | readd (r : Requester) (l : LinkId)
  | linkSleepHyst (l : LinkId)
  | sleepReq (l : LinkId) (f : Frame)
  | sleepAck (l : LinkId) (f : Frame)
  | sleepNak (l : LinkId) (f : Frame)
  | linkWake (l : LinkId)
  -- fabric transport and routing (12_fabric_transport.md)
  | msgRx (m : Message)
  | tack (m : Message)
  | resendTimeout (dest : BitVec 12) (mseq : BitVec 48)
  | sendTmoExpiry (dest : BitVec 12) (mseq : BitVec 48)
  | escapeSwitch (l : LinkId) (vc : Fin 8)
  | hopTimeout (l : LinkId) (vc : Fin 8)
  | fabEnable (r : Requester) (v : Word32)
  | progressWatchdog (isColl : Bool) (gid : BitVec 16) (seqOrBar : Word32)
  | opAbort (m : Message)
  | cancel (m : Message)
  -- collectives (13_collectives.md)
  | collective (q : Fin 64)
  | arrive (m : Message)
  | go (m : Message)
  | collData (m : Message)
  | relayStripe (m : Message)
  | collLocalTimeout (g : Fin 64) (cseq : Word32)
  | stragglerDeadline (g : Fin 64) (cseq : Word32)
  | lateGo (m : Message)
  -- weight publication (14_weights.md)
  | publish (r : Requester) (slot : Fin 16) (manifest : HostRead) (list : HostRead) (chunks : List HostChunk)
  | publishComplete
  | wpbRelease (r : Requester) (slot : Fin 16)
  | abandon (r : Requester) (slot : Fin 16)
  | manifest (m : Message)
  | sigVerifyDone (slot : Fin 16)
  | chunk (m : Message)
  | chunkHashDone (slot : Fin 16) (idx : Nat)
  | pubEnd (m : Message)
  | restreamRetryTimer (slot : Fin 16)
  | restreamReq (m : Message) (chunks : List HostChunk)
  | restreamRefuse (m : Message)
  | ready (m : Message)
  | withdraw (m : Message)
  | hold (m : Message)
  | pendingBuildOpen (slot : Fin 16)
  | repairOpen (slot : Fin 16)
  | restreamDeadline (slot : Fin 16)
  -- episodes, tokens and budgets (15_episodes.md)
  | start (r : Requester)
  | epsCancel (r : Requester)
  | pause (r : Requester)
  | reply (r : Requester)
  | score (r : Requester)
  | stepOpen (g : Fin 128)
  | stepOpenRx (m : Message)
  | epsStepArrive (x : CtxId)
  | emitDrain (c : CoreId)
  | stepDone (m : Message)
  | commit (m : Message)
  | husk (m : Message)
  | huskComplete (g : Fin 128) (slot : Fin 256)
  | huskDone (m : Message)
  | epsPeriod (r : Requester) (v : Word32)
  | epsGroupValid (r : Requester) (v : Word32)
  | kittyRecordSend
  | kittyRecordRx (m : Message)
  | kittyResend (id : Nat)
  | kitRingnTail (r : Requester) (n : Fin 16) (hi : Bool) (v : Word32)
  -- mask generator and annealer (16_stochastic.md)
  | anlTrigger (ch : Fin 32)
  | run (r : Requester) (v : Word32)
  | anlAbort (r : Requester) (v : Word32)
  | selftest (r : Requester) (v : Word32)
  | anlSelftestDone (ok : Bool)
  | anlChannelConfig (r : Requester) (ch : Fin 32) (v : Word32)
  | anlLoadDone (ch : Fin 32)
  | anlSweep (ch : Fin 32)
  | boundary (m : Message)
  | anlRunEnd (ch : Fin 32)
  -- learning support (17_learning.md)
  | trnJobEnable (r : Requester) (j : Fin 8) (v : Word32)
  | trnPhaseArrive (j : Fin 8)
  | bucketComplete (j : Fin 8) (b : Fin 62)
  | trnCqHead (r : Requester) (j : Fin 8) (v : Word32)
  | fwd (j : Fin 8)
  | bwd (j : Fin 8)
  | opt (j : Fin 8)
  | post (j : Fin 8)
  | stepEnd (j : Fin 8)
  | checkpointDone (j : Fin 8)
  | trnHalt (r : Requester) (v : Word32)
  | restore (r : Requester) (v : Word32)
  | resume (r : Requester) (v : Word32)
  -- contexts, pre-emption and accounting (18_sharing.md)
  | ctxValidSet (r : Requester) (x : CtxId) (v : Word32)
  | load (q : Fin 64)
  | kill (r : Requester) (x : CtxId)
  | dispatch (x : CtxId)
  | quantumExpiry (v : CtxId) (c : CtxId)
  | preemptRequest (v : CtxId) (c : CtxId)
  | corePark (c : CoreId)
  | preemptDeadline (x : CtxId)
  | contextSwitch (x : CtxId) (sclk : BitVec 31)
  | lockGrant (n : Fin 256) (waited : Nat)
  | brk (r : Requester) (v : Word32)
  | clear (r : Requester) (v : Word32)
  | acctWindowEnd
  -- receipts and result checking (19_receipts.md)
  | chkSealCmd (r : Requester) (v : Word32)
  | deferredSeal (x : CtxId)
  | chkRingTail (r : Requester) (hi : Bool) (v : Word32)
  | chkMode (r : Requester) (v : Word32)
  | journalPageWrite
  | journalPageDone
  | journalResubmit
  | nvjTail (r : Requester) (hi : Bool) (v : Word32)
  | erase (r : Requester)
  | nvProgram (r : Requester)
  -- errors, logs and long-run counters (20_errors.md)
  | logEntryWrite
  | aonLogTail (r : Requester) (hi : Bool) (v : Word32)
  | aonLogSel (r : Requester) (v : Word32)
  | telSample
  -- host and management interfaces (21_host_management.md)
  | sqDoorbell (r : Requester) (q : Fin 64) (v : Word32)
  | entryFetch (q : Fin 64) (e : HostRead)
  | nopCommand (q : Fin 64)
  | queCmdResume (r : Requester) (q : Fin 64)
  | hifBar2Win (r : Requester) (v : Word32)
  | bar2Read (off : BitVec 36) (len : Nat)
  | bar2Write (off : BitVec 36) (bytes : List Byte) (ep : Bool)
  | pcieLinkDown
  | pcieD3hot (enter : Bool)
  | regRead (off : Word32) (pec : Pec)
  | regWrite (off : Word32) (v : Word32) (pec : Pec)
  | getStatus
  | getIdent
  | getThermal
  | getPower
  | getLog (slot : BitVec 16) (pec : Pec)
  | getReset
  | smbusTimeout
  | alertResponse
  | pmbusPoll (rs : List RailReading)
  | mgtPmbTrim (r : Requester) (v : Word32)
  | pmbusArbLost (trim : Bool) (rail : Fin 8) (retries : Fin 4)
  | gpioClaim (r : Requester) (n : Fin 16) (v : Word32)
  | gpioRelease (r : Requester) (n : Fin 16)
  | mgtGpioOut (r : Requester) (v : Word32)
  | fatalOutRelease
  | jtagTestInstr (code : Byte)
  | jtagTestExit (code : Byte)
  -- electrical, thermal and package (22_electrical.md)
  | tjSample (t : Nat)
  | throttleStage2Enter
  | throttleStageExit
  -- rows at the end of the table
  | fabId (r : Requester) (v : Word32)
  | lnkCfgEn (r : Requester) (l : LinkId) (v : Word32)
  | clxGroupRewrite (r : Requester) (n : Fin 64) (v : Word32)
  | msixUnmask (vec : Fin 256)
  | busMasterEnable
  | pcieReferenceLost
  deriving DecidableEq, Repr

end Sys2Proof
end

