-- ==== Sys2Proof/Config.lean ====
section
/-! DEFINITION. What the spec leaves open: free values, one opaque constant applied to a counter that State
holds (DESIGN CHOICE, log entry 5), and the values of one implementation. Nothing here has a body that a proof could use. -/

namespace Sys2Proof

/-- A value the spec leaves open, fresh for each value of the State's counter (DESIGN CHOICE, log entry 5). -/
opaque Config.freeNat : Nat → Nat

/-- PG_VERSION.MINOR of a block type, "Per block" in 02_register_pages.md (DESIGN CHOICE, log entry 5). -/
opaque Config.pageMinor : Nat → Byte

/-- PG_CAPS (false) and PG_CAPS2 (true) of a block type where its chapter gives none (DESIGN CHOICE, log entry 5). -/
opaque Config.pageCaps : Nat → Bool → Word32

/-- PG_VERSION.STEPPING, "Per die" in 02_register_pages.md (DESIGN CHOICE, log entry 5). -/
opaque Config.stepping : BitVec 4

/-- The public part of ROM firmware key n (04_reset_boot.md R106), fixed at manufacture (DESIGN CHOICE, log entry 5). -/
opaque Config.romKey : Nat → List Byte

/-- Bytes read at a device address outside stacked memory, for which the spec gives no value (DEDUCED, log entry 6). -/
opaque Config.outsideByte : Nat → Byte

end Sys2Proof
end

