-- ==== Sys2Proof/Machine/RegMap.lean ====
section
/-! DEFINITION. The register map of every block type beyond the common header, row by row from the register
tables of the spec's chapters: first offset, number of registers, stride, access type (00_scope.md R8), reset
value, the bits a write can change (reserved bits read 0, R9), and whether the register is the low word of a
64-bit pair (02_register_pages.md R33). -/

namespace Sys2Proof.Machine

/-- Register access types (R8). -/
inductive Access where
  | rw
  | ro
  | w1c
  | rc
  | wo
  | rwl
  deriving DecidableEq, Repr

/-- One row of a register table. -/
structure RegRow where
  first : Nat
  count : Nat
  stride : Nat
  acc : Access
  reset : Nat
  mask : Nat
  wide : Bool
  deriving DecidableEq, Repr

/-- Registers of the Directory page. -/
def regRowsDirectory : List RegRow :=
  [⟨0x800, 1, 0x0, .ro, 0x484A0002, 0xFFFFFFFF, false⟩,
   ⟨0x804, 1, 0x0, .ro, 0x48E, 0xFFFFFFFF, false⟩,
   ⟨0x808, 1, 0x0, .ro, 0x1E, 0xFFFFFFFF, false⟩,
   ⟨0x80C, 1, 0x0, .ro, 0x0, 0xFFFFFFFF, false⟩,
   ⟨0x900, 60, 0x4, .ro, 0x0, 0xFFFFFFFF, false⟩,
   ⟨0xF00, 1, 0x0, .ro, 0x0, 0xFFFFFFFF, false⟩]

/-- Registers of the AON page, part 0. -/
def regRowsAON0 : List RegRow :=
  [⟨0x100, 1, 0x0, .wo, 0x0, 0xFFFF, false⟩,
   ⟨0x104, 1, 0x0, .rwl, 0x7D0, 0x1FFF, false⟩,
   ⟨0x800, 1, 0x0, .ro, 0x0, 0xFFFFFFFF, true⟩,
   ⟨0x804, 1, 0x0, .ro, 0x0, 0xFFFF, false⟩,
   ⟨0x808, 1, 0x0, .ro, 0x0, 0xFFFFFFFF, false⟩,
   ⟨0x80C, 1, 0x0, .w1c, 0x0, 0x7, false⟩,
   ⟨0x810, 1, 0x0, .ro, 0x0, 0xC3FFFFFF, false⟩,
   ⟨0x814, 1, 0x0, .ro, 0x0, 0x33, false⟩,
   ⟨0x818, 1, 0x0, .ro, 0x0, 0xFFFFFFFF, false⟩,
   ⟨0x880, 1, 0x0, .ro, 0x0, 0x3FFFF, false⟩,
   ⟨0x884, 1, 0x0, .ro, 0x0, 0xFFFFFFFF, true⟩,
   ⟨0x888, 1, 0x0, .ro, 0x0, 0xFFFFFFFF, false⟩,
   ⟨0x88C, 1, 0x0, .ro, 0x0, 0xFFFFFFFF, false⟩,
   ⟨0x890, 1, 0x0, .ro, 0x0, 0xFFFFF, false⟩,
   ⟨0x894, 1, 0x0, .ro, 0x0, 0xFFFFFFFF, false⟩,
   ⟨0x898, 1, 0x0, .ro, 0x0, 0xFFFFFFFF, false⟩,
   ⟨0x89C, 1, 0x0, .ro, 0x0, 0x7F, false⟩,
   ⟨0x8A0, 1, 0x0, .ro, 0x0, 0xFFFFFF, false⟩,
   ⟨0x8A4, 1, 0x0, .ro, 0x0, 0xFFFFFFFF, false⟩,
   ⟨0x8A8, 1, 0x0, .rw, 0x0, 0xFFFFFFFF, false⟩,
   ⟨0x8B0, 1, 0x0, .wo, 0x0, 0xFFFFFF01, false⟩,
   ⟨0x8B4, 1, 0x0, .rw, 0x0, 0xFFFFFFFF, false⟩,
   ⟨0x8B8, 1, 0x0, .ro, 0x0, 0xF, false⟩,
   ⟨0x8BC, 1, 0x0, .rw, 0x0, 0xFFFFFFFF, false⟩,
   ⟨0x8C0, 1, 0x0, .rw, 0x0, 0xFFFFFFFF, false⟩,
   ⟨0x900, 1, 0x0, .ro, 0x0, 0xFFFFFFFF, true⟩,
   ⟨0x904, 1, 0x0, .ro, 0x0, 0xFFFFFFFF, false⟩,
   ⟨0x908, 1, 0x0, .rw, 0x0, 0xFFFFFFFF, true⟩,
   ⟨0x90C, 1, 0x0, .rw, 0x0, 0xFFFFFFFF, false⟩,
   ⟨0x910, 1, 0x0, .rw, 0x0, 0x3FF, false⟩,
   ⟨0x920, 8, 0x4, .ro, 0x0, 0xFFFFFFFF, false⟩,
   ⟨0x9F0, 1, 0x0, .rw, 0x0, 0xFF, false⟩,
   ⟨0x9F4, 1, 0x0, .ro, 0x0, 0x80000307, false⟩,
   ⟨0xA00, 8, 0x20, .rw, 0x0, 0xFF, false⟩,
   ⟨0xA04, 8, 0x20, .rw, 0x0, 0xFFFFFFFF, true⟩,
   ⟨0xA08, 8, 0x20, .rw, 0x0, 0xFFFF, false⟩,
   ⟨0xA0C, 8, 0x20, .rw, 0x0, 0xFFFFFFFF, false⟩,
   ⟨0xA10, 8, 0x20, .rw, 0x0, 0x7F07, false⟩,
   ⟨0xF00, 1, 0x0, .ro, 0x0, 0xFFFFFFFF, true⟩,
   ⟨0xF04, 1, 0x0, .ro, 0x0, 0xFFFFFFFF, false⟩]

/-- Registers of the AON page, part 1. -/
def regRowsAON1 : List RegRow :=
  [⟨0xF08, 1, 0x0, .ro, 0x0, 0xFFFFFFFF, true⟩,
   ⟨0xF0C, 1, 0x0, .ro, 0x0, 0xFFFFFFFF, false⟩,
   ⟨0xF10, 1, 0x0, .ro, 0x0, 0xFFFFFFFF, true⟩,
   ⟨0xF14, 1, 0x0, .ro, 0x0, 0xFFFFFFFF, false⟩,
   ⟨0xF18, 1, 0x0, .ro, 0x0, 0xFFFFFFFF, false⟩,
   ⟨0xF1C, 1, 0x0, .ro, 0x0, 0x1, false⟩]

/-- Registers of the AON pages. -/
def regRowsAON : List RegRow :=
  regRowsAON0 ++ regRowsAON1

/-- Registers of the PWR page. -/
def regRowsPWR : List RegRow :=
  [⟨0x100, 1, 0x0, .rwl, 0x100, 0xFFFF, false⟩,
   ⟨0x104, 1, 0x0, .rwl, 0x21, 0xFFFF, false⟩,
   ⟨0x108, 1, 0x0, .rwl, 0xCCD0001, 0xFFFF0001, false⟩,
   ⟨0x10C, 1, 0x0, .rwl, 0x0, 0xFFFF, false⟩,
   ⟨0x800, 64, 0x4, .ro, 0x0, 0xFFFFFFFF, false⟩,
   ⟨0x900, 1, 0x0, .rw, 0x0, 0x103FF, false⟩,
   ⟨0x904, 1, 0x0, .rw, 0x0, 0x7F, false⟩,
   ⟨0x908, 1, 0x0, .rw, 0x0, 0x3, false⟩,
   ⟨0x980, 32, 0x4, .rw, 0x0, 0xFFFFFFFF, false⟩,
   ⟨0xA00, 1, 0x0, .ro, 0x0, 0x3, false⟩,
   ⟨0xA10, 1, 0x0, .rw, 0x0, 0xFFFFFFFF, false⟩,
   ⟨0xA14, 1, 0x0, .rw, 0x0, 0xFFFFFFFF, false⟩,
   ⟨0xF00, 1, 0x0, .ro, 0x0, 0xFFFFFFFF, true⟩,
   ⟨0xF04, 1, 0x0, .ro, 0x0, 0xFFFFFFFF, false⟩,
   ⟨0xF08, 1, 0x0, .ro, 0x0, 0xFFFFFFFF, true⟩,
   ⟨0xF0C, 1, 0x0, .ro, 0x0, 0xFFFFFFFF, false⟩,
   ⟨0xF10, 1, 0x0, .rc, 0x0, 0xFFFFFFFF, false⟩]

/-- Registers of the CLK page. -/
def regRowsCLK : List RegRow :=
  [⟨0x800, 1, 0x0, .ro, 0x0, 0x3FFFFFF, false⟩,
   ⟨0x804, 1, 0x0, .ro, 0x0, 0xFFFFFFFF, false⟩,
   ⟨0x808, 1, 0x0, .ro, 0x0, 0xF, false⟩,
   ⟨0x80C, 1, 0x0, .w1c, 0x0, 0x5, false⟩,
   ⟨0x810, 1, 0x0, .ro, 0x708, 0xFFFFFFFF, false⟩,
   ⟨0x814, 1, 0x0, .ro, 0x4B0, 0xFFFFFFFF, false⟩,
   ⟨0x818, 1, 0x0, .ro, 0x3E8, 0xFFFFFFFF, false⟩,
   ⟨0xF00, 1, 0x0, .ro, 0x0, 0xFFFFFFFF, true⟩,
   ⟨0xF04, 1, 0x0, .ro, 0x0, 0xFFFFFFFF, false⟩,
   ⟨0xF08, 1, 0x0, .ro, 0x0, 0xFFFFFFFF, true⟩,
   ⟨0xF0C, 1, 0x0, .ro, 0x0, 0xFFFFFFFF, false⟩]

/-- Registers of the FUS page. -/
def regRowsFUS : List RegRow :=
  [⟨0x100, 1, 0x0, .rwl, 0x0, 0x1, false⟩,
   ⟨0x800, 1, 0x0, .ro, 0x0, 0x3FFFFF, false⟩,
   ⟨0x804, 1, 0x0, .ro, 0x0, 0xFFFFFFFF, true⟩,
   ⟨0x808, 1, 0x0, .ro, 0x0, 0xFFFFFFFF, false⟩,
   ⟨0x80C, 1, 0x0, .ro, 0x0, 0x7F, false⟩,
   ⟨0x810, 1, 0x0, .ro, 0x0, 0xFF0F, false⟩,
   ⟨0x840, 8, 0x4, .ro, 0x0, 0xFF, false⟩,
   ⟨0x880, 24, 0x4, .ro, 0x0, 0xFFFFFFFF, false⟩,
   ⟨0x8E0, 6, 0x4, .ro, 0x0, 0xFFFFFFFF, false⟩,
   ⟨0x900, 64, 0x4, .ro, 0x0, 0xFFFFFFFF, false⟩,
   ⟨0xA00, 1, 0x0, .rw, 0x0, 0x7F, false⟩,
   ⟨0xA04, 1, 0x0, .rw, 0x0, 0xFFFFFFFF, false⟩,
   ⟨0xA08, 1, 0x0, .rw, 0x0, 0xFFFFFFFF, false⟩,
   ⟨0xA0C, 1, 0x0, .ro, 0x0, 0xF, false⟩,
   ⟨0xF00, 1, 0x0, .ro, 0x0, 0xFFFFFFFF, true⟩,
   ⟨0xF04, 1, 0x0, .ro, 0x0, 0xFFFFFFFF, false⟩]

/-- Registers of the NVJ page. -/
def regRowsNVJ : List RegRow :=
  [⟨0x100, 1, 0x0, .rwl, 0xCCD, 0xFFFF, false⟩,
   ⟨0x800, 1, 0x0, .ro, 0x0, 0xFFFFFFFF, true⟩,
   ⟨0x804, 1, 0x0, .ro, 0x0, 0xFFFFFFFF, false⟩,
   ⟨0x808, 1, 0x0, .rw, 0x0, 0xFFFFFFFF, true⟩,
   ⟨0x80C, 1, 0x0, .rw, 0x0, 0xFFFFFFFF, false⟩,
   ⟨0x810, 1, 0x0, .ro, 0x0, 0xFF, false⟩,
   ⟨0x814, 1, 0x0, .rw, 0x0, 0x3FFFFFF, false⟩,
   ⟨0x818, 1, 0x0, .ro, 0x0, 0xFFFFFFFF, false⟩,
   ⟨0x840, 16, 0x4, .ro, 0x0, 0xFFFFFFFF, false⟩,
   ⟨0x900, 1, 0x0, .rw, 0x0, 0x80000003, false⟩,
   ⟨0x904, 1, 0x0, .rw, 0x0, 0xFFFFFFFF, false⟩,
   ⟨0x908, 1, 0x0, .rw, 0x0, 0xFFFFFFFF, true⟩,
   ⟨0x90C, 1, 0x0, .rw, 0x0, 0xFF, false⟩,
   ⟨0x910, 1, 0x0, .ro, 0x0, 0xFFFF0001, false⟩,
   ⟨0xF00, 1, 0x0, .ro, 0x0, 0xFFFFFFFF, true⟩,
   ⟨0xF04, 1, 0x0, .ro, 0x0, 0xFFFFFFFF, false⟩,
   ⟨0xF08, 1, 0x0, .ro, 0x0, 0xFFFFFFFF, true⟩,
   ⟨0xF0C, 1, 0x0, .ro, 0x0, 0xFFFFFFFF, false⟩,
   ⟨0xF10, 1, 0x0, .ro, 0x0, 0xFFFFFFFF, true⟩,
   ⟨0xF14, 1, 0x0, .ro, 0x0, 0xFFFFFFFF, false⟩,
   ⟨0xF18, 1, 0x0, .ro, 0x0, 0xFFFFFFFF, true⟩,
   ⟨0xF1C, 1, 0x0, .ro, 0x0, 0xFFFFFFFF, false⟩,
   ⟨0xF20, 1, 0x0, .ro, 0x0, 0xFFFFFFFF, true⟩,
   ⟨0xF24, 1, 0x0, .ro, 0x0, 0xFFFFFFFF, false⟩,
   ⟨0xF28, 1, 0x0, .ro, 0x0, 0xFFFFFFFF, true⟩,
   ⟨0xF2C, 1, 0x0, .ro, 0x0, 0xFFFFFFFF, false⟩,
   ⟨0xF30, 1, 0x0, .ro, 0x0, 0xFFFFFFFF, true⟩,
   ⟨0xF34, 1, 0x0, .ro, 0x0, 0xFFFFFFFF, false⟩]

/-- Registers of the HIF page. -/
def regRowsHIF : List RegRow :=
  [⟨0x100, 1, 0x0, .rwl, 0x0, 0xFFFFFFFF, true⟩,
   ⟨0x104, 1, 0x0, .rwl, 0x0, 0x800000FF, false⟩,
   ⟨0x800, 1, 0x0, .ro, 0x0, 0x1FFF, false⟩,
   ⟨0x804, 1, 0x0, .rw, 0x0, 0xF, false⟩,
   ⟨0xF00, 1, 0x0, .ro, 0x0, 0xFFFFFFFF, true⟩,
   ⟨0xF04, 1, 0x0, .ro, 0x0, 0xFFFFFFFF, false⟩,
   ⟨0xF08, 1, 0x0, .ro, 0x0, 0xFFFFFFFF, true⟩,
   ⟨0xF0C, 1, 0x0, .ro, 0x0, 0xFFFFFFFF, false⟩,
   ⟨0xF10, 1, 0x0, .ro, 0x0, 0xFFFFFFFF, true⟩,
   ⟨0xF14, 1, 0x0, .ro, 0x0, 0xFFFFFFFF, false⟩,
   ⟨0xF18, 1, 0x0, .ro, 0x0, 0xFFFFFFFF, true⟩,
   ⟨0xF1C, 1, 0x0, .ro, 0x0, 0xFFFFFFFF, false⟩,
   ⟨0xF20, 1, 0x0, .ro, 0x0, 0xFFFFFFFF, true⟩,
   ⟨0xF24, 1, 0x0, .ro, 0x0, 0xFFFFFFFF, false⟩,
   ⟨0xF28, 1, 0x0, .ro, 0x0, 0xFFFFFFFF, true⟩,
   ⟨0xF2C, 1, 0x0, .ro, 0x0, 0xFFFFFFFF, false⟩,
   ⟨0xF30, 1, 0x0, .ro, 0x0, 0xFFFFFFFF, true⟩,
   ⟨0xF34, 1, 0x0, .ro, 0x0, 0xFFFFFFFF, false⟩,
   ⟨0xF38, 1, 0x0, .ro, 0x0, 0xFFFFFFFF, true⟩,
   ⟨0xF3C, 1, 0x0, .ro, 0x0, 0xFFFFFFFF, false⟩]

/-- Registers of the MGT page. -/
def regRowsMGT : List RegRow :=
  [⟨0x100, 1, 0x0, .rwl, 0x0, 0x3, false⟩,
   ⟨0x104, 1, 0x0, .rwl, 0x6401, 0xFF03, false⟩,
   ⟨0x110, 8, 0x4, .rwl, 0x0, 0x800FFF7F, false⟩,
   ⟨0x130, 8, 0x4, .rwl, 0x0, 0xFFFFFFFF, false⟩,
   ⟨0x150, 1, 0x0, .rwl, 0x64, 0xFF, false⟩,
   ⟨0x154, 1, 0x0, .rwl, 0x0, 0xFFFF, false⟩,
   ⟨0x800, 1, 0x0, .ro, 0x0, 0x7F, false⟩,
   ⟨0x804, 1, 0x0, .ro, 0x0, 0xFFFFFF, false⟩,
   ⟨0x810, 16, 0x4, .rw, 0x0, 0x7FF, false⟩,
   ⟨0x850, 1, 0x0, .ro, 0x0, 0xFFFF000F, false⟩,
   ⟨0x854, 1, 0x0, .rw, 0x0, 0xFFFF, false⟩,
   ⟨0x858, 1, 0x0, .ro, 0x0, 0xFFFF, false⟩,
   ⟨0x880, 8, 0x8, .ro, 0x0, 0xC0FFFFFF, false⟩,
   ⟨0x884, 8, 0x8, .ro, 0x0, 0xFFFF, false⟩,
   ⟨0x900, 1, 0x0, .rw, 0x0, 0xFFFF0007, false⟩,
   ⟨0x904, 1, 0x0, .ro, 0x0, 0xFFFF0001, false⟩,
   ⟨0xF00, 1, 0x0, .ro, 0x0, 0xFFFFFFFF, true⟩,
   ⟨0xF04, 1, 0x0, .ro, 0x0, 0xFFFFFFFF, false⟩,
   ⟨0xF08, 1, 0x0, .ro, 0x0, 0xFFFFFFFF, true⟩,
   ⟨0xF0C, 1, 0x0, .ro, 0x0, 0xFFFFFFFF, false⟩,
   ⟨0xF10, 1, 0x0, .ro, 0x0, 0xFFFFFFFF, true⟩,
   ⟨0xF14, 1, 0x0, .ro, 0x0, 0xFFFFFFFF, false⟩,
   ⟨0xF18, 1, 0x0, .ro, 0x0, 0xFFFFFFFF, true⟩,
   ⟨0xF1C, 1, 0x0, .ro, 0x0, 0xFFFFFFFF, false⟩,
   ⟨0xF20, 1, 0x0, .ro, 0x0, 0xFFFFFFFF, true⟩,
   ⟨0xF24, 1, 0x0, .ro, 0x0, 0xFFFFFFFF, false⟩,
   ⟨0xF28, 1, 0x0, .ro, 0x0, 0xFFFFFFFF, true⟩,
   ⟨0xF2C, 1, 0x0, .ro, 0x0, 0xFFFFFFFF, false⟩,
   ⟨0xF30, 1, 0x0, .ro, 0x0, 0xFFFFFFFF, true⟩,
   ⟨0xF34, 1, 0x0, .ro, 0x0, 0xFFFFFFFF, false⟩]

/-- Registers of the ERR page. -/
def regRowsERR : List RegRow :=
  [⟨0x100, 1, 0x0, .rwl, 0x0, 0xFFFFFFFF, false⟩,
   ⟨0x104, 1, 0x0, .rwl, 0x0, 0xF, false⟩,
   ⟨0x108, 1, 0x0, .rwl, 0xCCD, 0xFFFF, false⟩,
   ⟨0x110, 8, 0x4, .rwl, 0x0, 0xFFFFFFFF, false⟩,
   ⟨0x800, 1, 0x0, .ro, 0x0, 0x3FFFFFFF, false⟩,
   ⟨0x804, 1, 0x0, .rw, 0x0, 0x1F, false⟩,
   ⟨0x880, 24, 0x4, .ro, 0x0, 0xFFFFFFFF, false⟩,
   ⟨0x8E0, 1, 0x0, .w1c, 0x0, 0xF, false⟩,
   ⟨0xF00, 4, 0x8, .ro, 0x0, 0xFFFFFFFF, true⟩,
   ⟨0xF04, 4, 0x8, .ro, 0x0, 0xFFFFFFFF, false⟩]

/-- Registers of the TEL page. -/
def regRowsTEL : List RegRow :=
  [⟨0x100, 1, 0x0, .rwl, 0x0, 0xFFFFFFFF, false⟩,
   ⟨0x104, 1, 0x0, .rwl, 0x0, 0xFFFFFFFF, true⟩,
   ⟨0x108, 1, 0x0, .rwl, 0x0, 0xFF, false⟩,
   ⟨0x10C, 1, 0x0, .rwl, 0x0, 0xFFFFF, false⟩,
   ⟨0x110, 7, 0x4, .rwl, 0x0, 0x3FFFFFF, false⟩,
   ⟨0x130, 1, 0x0, .rwl, 0x67, 0xFF, false⟩,
   ⟨0x800, 1, 0x0, .ro, 0x0, 0xFFFFFFFF, true⟩,
   ⟨0x804, 1, 0x0, .ro, 0x0, 0xFFFFFFFF, false⟩,
   ⟨0x808, 1, 0x0, .ro, 0x0, 0xFFFF, false⟩,
   ⟨0x80C, 1, 0x0, .ro, 0x0, 0x3, false⟩,
   ⟨0xF00, 1, 0x0, .ro, 0x0, 0xFFFFFFFF, true⟩,
   ⟨0xF04, 1, 0x0, .ro, 0x0, 0xFFFFFFFF, false⟩,
   ⟨0xF08, 1, 0x0, .ro, 0x0, 0xFFFFFFFF, true⟩,
   ⟨0xF0C, 1, 0x0, .ro, 0x0, 0xFFFFFFFF, false⟩]

/-- Registers of the DBG page. -/
def regRowsDBG : List RegRow :=
  [⟨0x800, 1, 0x0, .ro, 0x0, 0xFFFFFFFF, false⟩,
   ⟨0x804, 1, 0x0, .ro, 0x0, 0x3FFFF, false⟩,
   ⟨0x808, 1, 0x0, .ro, 0x0, 0xFF, false⟩,
   ⟨0xF00, 1, 0x0, .ro, 0x0, 0xFFFFFFFF, true⟩,
   ⟨0xF04, 1, 0x0, .ro, 0x0, 0xFFFFFFFF, false⟩]

/-- Registers of the CHK page. -/
def regRowsCHK : List RegRow :=
  [⟨0x100, 1, 0x0, .rwl, 0xC09, 0x1F0F, false⟩,
   ⟨0x104, 1, 0x0, .rwl, 0x258, 0xFFFF, false⟩,
   ⟨0x108, 1, 0x0, .rwl, 0x0, 0xFFFFFFFF, true⟩,
   ⟨0x10C, 1, 0x0, .rwl, 0x0, 0xFF, false⟩,
   ⟨0x110, 1, 0x0, .rwl, 0x0, 0xFFFFFFFF, true⟩,
   ⟨0x114, 1, 0x0, .rwl, 0x0, 0xFF, false⟩,
   ⟨0x800, 1, 0x0, .rw, 0x0, 0x8000003F, false⟩,
   ⟨0x804, 1, 0x0, .ro, 0x0, 0x8001FFFF, false⟩,
   ⟨0x808, 1, 0x0, .ro, 0x0, 0xF, false⟩,
   ⟨0x80C, 1, 0x0, .ro, 0x0, 0x8000FFFF, false⟩,
   ⟨0x810, 1, 0x0, .ro, 0x0, 0xFFFFFFFF, true⟩,
   ⟨0x814, 1, 0x0, .ro, 0x0, 0xFFFFFFFF, false⟩,
   ⟨0x818, 1, 0x0, .rw, 0x0, 0xFFFFFFFF, true⟩,
   ⟨0x81C, 1, 0x0, .rw, 0x0, 0xFFFFFFFF, false⟩,
   ⟨0x820, 1, 0x0, .ro, 0x0, 0xFFFFFFFF, true⟩,
   ⟨0x824, 1, 0x0, .ro, 0x0, 0xFFFFFFFF, false⟩,
   ⟨0x830, 1, 0x0, .rw, 0x0, 0x3F, false⟩,
   ⟨0x834, 1, 0x0, .ro, 0x0, 0xFFFFFFFF, true⟩,
   ⟨0x838, 1, 0x0, .ro, 0x0, 0xFFFFFFFF, false⟩,
   ⟨0xF00, 1, 0x0, .ro, 0x0, 0xFFFFFFFF, true⟩,
   ⟨0xF04, 1, 0x0, .ro, 0x0, 0xFFFFFFFF, false⟩,
   ⟨0xF08, 1, 0x0, .ro, 0x0, 0xFFFFFFFF, true⟩,
   ⟨0xF0C, 1, 0x0, .ro, 0x0, 0xFFFFFFFF, false⟩,
   ⟨0xF10, 1, 0x0, .ro, 0x0, 0xFFFFFFFF, true⟩,
   ⟨0xF14, 1, 0x0, .ro, 0x0, 0xFFFFFFFF, false⟩,
   ⟨0xF18, 1, 0x0, .ro, 0x0, 0xFFFFFFFF, true⟩,
   ⟨0xF1C, 1, 0x0, .ro, 0x0, 0xFFFFFFFF, false⟩,
   ⟨0xF20, 1, 0x0, .ro, 0x0, 0xFFFFFFFF, true⟩,
   ⟨0xF24, 1, 0x0, .ro, 0x0, 0xFFFFFFFF, false⟩,
   ⟨0xF28, 1, 0x0, .ro, 0x0, 0xFFFFFFFF, true⟩,
   ⟨0xF2C, 1, 0x0, .ro, 0x0, 0xFFFFFFFF, false⟩]

/-- Registers of the TIER page. -/
def regRowsTIER : List RegRow :=
  [⟨0x100, 1, 0x0, .rwl, 0x1, 0x1, false⟩,
   ⟨0x104, 1, 0x0, .rwl, 0xCCD, 0xFFFF, false⟩,
   ⟨0x108, 1, 0x0, .rwl, 0x100, 0xFFFF, false⟩,
   ⟨0x10C, 1, 0x0, .rwl, 0x40, 0xFFFF, false⟩,
   ⟨0x110, 1, 0x0, .rwl, 0x3E80084, 0xFFFF0FFF, false⟩,
   ⟨0x800, 1, 0x0, .rw, 0x0, 0x800000FF, false⟩,
   ⟨0x804, 4, 0x4, .rw, 0x0, 0xFFFFFFFF, false⟩,
   ⟨0x814, 1, 0x0, .ro, 0x0, 0x8001FFFF, false⟩,
   ⟨0x818, 1, 0x0, .ro, 0x0, 0x7FFF, false⟩,
   ⟨0x820, 1, 0x0, .ro, 0x0, 0xFFFFFFFF, true⟩,
   ⟨0x824, 1, 0x0, .ro, 0x0, 0xFFFFFFFF, false⟩,
   ⟨0x828, 1, 0x0, .ro, 0x0, 0xFFFFFFFF, true⟩,
   ⟨0x82C, 1, 0x0, .ro, 0x0, 0xFFFFFFFF, false⟩,
   ⟨0x830, 1, 0x0, .ro, 0x0, 0xFFFFFFFF, false⟩,
   ⟨0x840, 1, 0x0, .rw, 0x0, 0xFF7F, false⟩,
   ⟨0x844, 1, 0x0, .rw, 0x0, 0xFFFFFF, false⟩,
   ⟨0x848, 1, 0x0, .ro, 0x0, 0xFFFFFFFF, false⟩,
   ⟨0x84C, 1, 0x0, .rw, 0x0, 0x7FFFF, false⟩,
   ⟨0x850, 1, 0x0, .ro, 0x0, 0x7FFFF, false⟩,
   ⟨0x860, 1, 0x0, .ro, 0x0, 0x80007FFF, false⟩,
   ⟨0x864, 1, 0x0, .ro, 0x0, 0x37FFF, false⟩,
   ⟨0xF00, 1, 0x0, .ro, 0x0, 0xFFFFFFFF, true⟩,
   ⟨0xF04, 1, 0x0, .ro, 0x0, 0xFFFFFFFF, false⟩,
   ⟨0xF08, 1, 0x0, .ro, 0x0, 0xFFFFFFFF, true⟩,
   ⟨0xF0C, 1, 0x0, .ro, 0x0, 0xFFFFFFFF, false⟩,
   ⟨0xF10, 1, 0x0, .ro, 0x0, 0xFFFFFFFF, true⟩,
   ⟨0xF14, 1, 0x0, .ro, 0x0, 0xFFFFFFFF, false⟩,
   ⟨0xF18, 1, 0x0, .ro, 0x0, 0xFFFFFFFF, true⟩,
   ⟨0xF1C, 1, 0x0, .ro, 0x0, 0xFFFFFFFF, false⟩,
   ⟨0xF20, 1, 0x0, .ro, 0x0, 0xFFFFFFFF, true⟩,
   ⟨0xF24, 1, 0x0, .ro, 0x0, 0xFFFFFFFF, false⟩,
   ⟨0xF28, 1, 0x0, .ro, 0x0, 0xFFFFFFFF, true⟩,
   ⟨0xF2C, 1, 0x0, .ro, 0x0, 0xFFFFFFFF, false⟩]

/-- Registers of the FAB page, part 0. -/
def regRowsFAB0 : List RegRow :=
  [⟨0x100, 1, 0x0, .wo, 0x0, 0xFFFF0FFF, false⟩,
   ⟨0x104, 1, 0x0, .wo, 0x0, 0xFFFFFFFF, false⟩,
   ⟨0x108, 1, 0x0, .rwl, 0x0, 0x1, false⟩,
   ⟨0x10C, 1, 0x0, .rwl, 0x20404004, 0xFFFFFFFF, false⟩,
   ⟨0x110, 1, 0x0, .rwl, 0x4101020, 0xFFFFFFFF, false⟩,
   ⟨0x114, 1, 0x0, .rwl, 0x1000, 0xFFFF, false⟩,
   ⟨0x118, 1, 0x0, .rwl, 0x2710, 0xFFFF, false⟩,
   ⟨0x11C, 1, 0x0, .rwl, 0x80064, 0xFFFFFF, false⟩,
   ⟨0x120, 1, 0x0, .rwl, 0x10000, 0xFFFFFFFF, false⟩,
   ⟨0x124, 1, 0x0, .rwl, 0x10000, 0xFFFFFFFF, false⟩,
   ⟨0x180, 4, 0x4, .rwl, 0x0, 0x8FFFFFFF, false⟩,
   ⟨0x200, 64, 0x4, .rwl, 0x0, 0xFFFF007F, false⟩,
   ⟨0x800, 1, 0x0, .ro, 0x0, 0xFFFF0003, false⟩,
   ⟨0x804, 1, 0x0, .ro, 0x0, 0xFFFF, false⟩,
   ⟨0x808, 1, 0x0, .ro, 0x0, 0x801FFFFF, false⟩,
   ⟨0xF00, 1, 0x0, .ro, 0x0, 0xFFFFFFFF, true⟩,
   ⟨0xF04, 1, 0x0, .ro, 0x0, 0xFFFFFFFF, false⟩,
   ⟨0xF08, 1, 0x0, .ro, 0x0, 0xFFFFFFFF, true⟩,
   ⟨0xF0C, 1, 0x0, .ro, 0x0, 0xFFFFFFFF, false⟩,
   ⟨0xF10, 1, 0x0, .ro, 0x0, 0xFFFFFFFF, true⟩,
   ⟨0xF14, 1, 0x0, .ro, 0x0, 0xFFFFFFFF, false⟩,
   ⟨0xF18, 1, 0x0, .ro, 0x0, 0xFFFFFFFF, true⟩,
   ⟨0xF1C, 1, 0x0, .ro, 0x0, 0xFFFFFFFF, false⟩,
   ⟨0xF20, 1, 0x0, .ro, 0x0, 0xFFFFFFFF, true⟩,
   ⟨0xF24, 1, 0x0, .ro, 0x0, 0xFFFFFFFF, false⟩,
   ⟨0xF28, 1, 0x0, .ro, 0x0, 0xFFFFFFFF, true⟩,
   ⟨0xF2C, 1, 0x0, .ro, 0x0, 0xFFFFFFFF, false⟩,
   ⟨0xF30, 1, 0x0, .ro, 0x0, 0xFFFFFFFF, true⟩,
   ⟨0xF34, 1, 0x0, .ro, 0x0, 0xFFFFFFFF, false⟩,
   ⟨0xF38, 1, 0x0, .ro, 0x0, 0xFFFFFFFF, true⟩,
   ⟨0xF3C, 1, 0x0, .ro, 0x0, 0xFFFFFFFF, false⟩,
   ⟨0xF40, 1, 0x0, .ro, 0x0, 0xFFFFFFFF, true⟩,
   ⟨0xF44, 1, 0x0, .ro, 0x0, 0xFFFFFFFF, false⟩,
   ⟨0xF48, 1, 0x0, .ro, 0x0, 0xFFFFFFFF, true⟩,
   ⟨0xF4C, 1, 0x0, .ro, 0x0, 0xFFFFFFFF, false⟩,
   ⟨0xF50, 1, 0x0, .ro, 0x0, 0xFFFFFFFF, true⟩,
   ⟨0xF54, 1, 0x0, .ro, 0x0, 0xFFFFFFFF, false⟩,
   ⟨0xF58, 1, 0x0, .ro, 0x0, 0xFFFFFFFF, true⟩,
   ⟨0xF5C, 1, 0x0, .ro, 0x0, 0xFFFFFFFF, false⟩,
   ⟨0xF60, 1, 0x0, .ro, 0x0, 0xFFFFFFFF, true⟩]

/-- Registers of the FAB page, part 1. -/
def regRowsFAB1 : List RegRow :=
  [⟨0xF64, 1, 0x0, .ro, 0x0, 0xFFFFFFFF, false⟩,
   ⟨0xF68, 1, 0x0, .ro, 0x0, 0xFFFFFFFF, true⟩,
   ⟨0xF6C, 1, 0x0, .ro, 0x0, 0xFFFFFFFF, false⟩,
   ⟨0xF70, 1, 0x0, .ro, 0x0, 0xFFFFFFFF, true⟩,
   ⟨0xF74, 1, 0x0, .ro, 0x0, 0xFFFFFFFF, false⟩]

/-- Registers of the FAB pages. -/
def regRowsFAB : List RegRow :=
  regRowsFAB0 ++ regRowsFAB1

/-- Registers of the CLX page. -/
def regRowsCLX : List RegRow :=
  [⟨0x100, 1, 0x0, .rwl, 0x3, 0xF, false⟩,
   ⟨0x104, 1, 0x0, .rwl, 0x0, 0xF0F0F00, false⟩,
   ⟨0x108, 1, 0x0, .rwl, 0x0, 0xFFFFFFFF, true⟩,
   ⟨0x10C, 1, 0x0, .rwl, 0x0, 0xFF, false⟩,
   ⟨0x200, 64, 0x4, .rwl, 0x0, 0x9FFFFFFF, false⟩,
   ⟨0x300, 64, 0x4, .rwl, 0x0, 0x3F0FFF, false⟩,
   ⟨0x800, 1, 0x0, .ro, 0x0, 0x10FFF, false⟩,
   ⟨0x804, 1, 0x0, .ro, 0x0, 0x8FFFFFFF, false⟩,
   ⟨0x808, 1, 0x0, .ro, 0x0, 0x3F, false⟩,
   ⟨0x80C, 1, 0x0, .ro, 0x0, 0xFFFFFFFF, false⟩,
   ⟨0x900, 64, 0x4, .ro, 0x0, 0x8FFF1FFF, false⟩,
   ⟨0xF00, 1, 0x0, .ro, 0x0, 0xFFFFFFFF, true⟩,
   ⟨0xF04, 1, 0x0, .ro, 0x0, 0xFFFFFFFF, false⟩,
   ⟨0xF08, 1, 0x0, .ro, 0x0, 0xFFFFFFFF, true⟩,
   ⟨0xF0C, 1, 0x0, .ro, 0x0, 0xFFFFFFFF, false⟩,
   ⟨0xF10, 1, 0x0, .ro, 0x0, 0xFFFFFFFF, true⟩,
   ⟨0xF14, 1, 0x0, .ro, 0x0, 0xFFFFFFFF, false⟩,
   ⟨0xF18, 1, 0x0, .ro, 0x0, 0xFFFFFFFF, true⟩,
   ⟨0xF1C, 1, 0x0, .ro, 0x0, 0xFFFFFFFF, false⟩,
   ⟨0xF20, 1, 0x0, .ro, 0x0, 0xFFFFFFFF, true⟩,
   ⟨0xF24, 1, 0x0, .ro, 0x0, 0xFFFFFFFF, false⟩,
   ⟨0xF28, 1, 0x0, .ro, 0x0, 0xFFFFFFFF, true⟩,
   ⟨0xF2C, 1, 0x0, .ro, 0x0, 0xFFFFFFFF, false⟩,
   ⟨0xF30, 1, 0x0, .ro, 0x0, 0xFFFFFFFF, true⟩,
   ⟨0xF34, 1, 0x0, .ro, 0x0, 0xFFFFFFFF, false⟩,
   ⟨0xF38, 1, 0x0, .ro, 0x0, 0xFFFFFFFF, true⟩,
   ⟨0xF3C, 1, 0x0, .ro, 0x0, 0xFFFFFFFF, false⟩,
   ⟨0xF40, 1, 0x0, .ro, 0x0, 0xFFFFFFFF, true⟩,
   ⟨0xF44, 1, 0x0, .ro, 0x0, 0xFFFFFFFF, false⟩,
   ⟨0xF48, 1, 0x0, .ro, 0x0, 0xFFFFFFFF, true⟩,
   ⟨0xF4C, 1, 0x0, .ro, 0x0, 0xFFFFFFFF, false⟩,
   ⟨0xF50, 1, 0x0, .ro, 0x0, 0xFFFFFFFF, true⟩,
   ⟨0xF54, 1, 0x0, .ro, 0x0, 0xFFFFFFFF, false⟩]

/-- Registers of the WPB page, part 0. -/
def regRowsWPB0 : List RegRow :=
  [⟨0x100, 1, 0x0, .rwl, 0xF0000, 0xFFFFFFFF, false⟩,
   ⟨0x104, 1, 0x0, .rwl, 0x1F40064, 0xFFFFFFFF, false⟩,
   ⟨0x108, 1, 0x0, .rwl, 0x0, 0xFFF, false⟩,
   ⟨0x200, 16, 0x20, .rwl, 0x0, 0x807FFFFF, false⟩,
   ⟨0x204, 16, 0x20, .rwl, 0x0, 0x7F3F3F, false⟩,
   ⟨0x208, 16, 0x20, .rwl, 0x0, 0xFFFFFFFF, true⟩,
   ⟨0x20C, 16, 0x20, .rwl, 0x0, 0xFF, false⟩,
   ⟨0x210, 16, 0x20, .rwl, 0x0, 0xFFFFFFFF, true⟩,
   ⟨0x214, 16, 0x20, .rwl, 0x0, 0xFFFFFFFF, false⟩,
   ⟨0x218, 16, 0x20, .rwl, 0x4, 0xF1F, false⟩,
   ⟨0x21C, 16, 0x20, .rwl, 0x10, 0xFFFF, false⟩,
   ⟨0x800, 1, 0x0, .rw, 0x0, 0x80000FFF, false⟩,
   ⟨0x804, 6, 0x4, .rw, 0x0, 0xFFFFFFFF, false⟩,
   ⟨0x81C, 1, 0x0, .ro, 0x0, 0x8001FFFF, false⟩,
   ⟨0x820, 1, 0x0, .ro, 0x0, 0xFFFFFFFF, false⟩,
   ⟨0x900, 16, 0x20, .ro, 0x0, 0x1F3F, false⟩,
   ⟨0x904, 16, 0x20, .ro, 0x0, 0x8000FFFF, false⟩,
   ⟨0x908, 16, 0x20, .ro, 0x0, 0xFFFFFFFF, true⟩,
   ⟨0x90C, 16, 0x20, .ro, 0x0, 0xFFFFFFFF, false⟩,
   ⟨0x910, 16, 0x20, .ro, 0x0, 0xFFFFFFFF, true⟩,
   ⟨0x914, 16, 0x20, .ro, 0x0, 0xFFFFFFFF, false⟩,
   ⟨0x918, 16, 0x20, .ro, 0x0, 0xFFFFFFFF, false⟩,
   ⟨0xB00, 1, 0x0, .ro, 0x0, 0x801F7FFF, false⟩,
   ⟨0xB10, 1, 0x0, .rw, 0x0, 0x1F, false⟩,
   ⟨0xB20, 8, 0x4, .ro, 0x0, 0xFF, false⟩,
   ⟨0xF00, 1, 0x0, .ro, 0x0, 0xFFFFFFFF, true⟩,
   ⟨0xF04, 1, 0x0, .ro, 0x0, 0xFFFFFFFF, false⟩,
   ⟨0xF08, 1, 0x0, .ro, 0x0, 0xFFFFFFFF, true⟩,
   ⟨0xF0C, 1, 0x0, .ro, 0x0, 0xFFFFFFFF, false⟩,
   ⟨0xF10, 1, 0x0, .ro, 0x0, 0xFFFFFFFF, true⟩,
   ⟨0xF14, 1, 0x0, .ro, 0x0, 0xFFFFFFFF, false⟩,
   ⟨0xF18, 1, 0x0, .ro, 0x0, 0xFFFFFFFF, true⟩,
   ⟨0xF1C, 1, 0x0, .ro, 0x0, 0xFFFFFFFF, false⟩,
   ⟨0xF20, 1, 0x0, .ro, 0x0, 0xFFFFFFFF, true⟩,
   ⟨0xF24, 1, 0x0, .ro, 0x0, 0xFFFFFFFF, false⟩,
   ⟨0xF28, 1, 0x0, .ro, 0x0, 0xFFFFFFFF, true⟩,
   ⟨0xF2C, 1, 0x0, .ro, 0x0, 0xFFFFFFFF, false⟩,
   ⟨0xF30, 1, 0x0, .ro, 0x0, 0xFFFFFFFF, true⟩,
   ⟨0xF34, 1, 0x0, .ro, 0x0, 0xFFFFFFFF, false⟩,
   ⟨0xF38, 1, 0x0, .ro, 0x0, 0xFFFFFFFF, true⟩]

/-- Registers of the WPB page, part 1. -/
def regRowsWPB1 : List RegRow :=
  [⟨0xF3C, 1, 0x0, .ro, 0x0, 0xFFFFFFFF, false⟩,
   ⟨0xF40, 1, 0x0, .ro, 0x0, 0xFFFFFFFF, true⟩,
   ⟨0xF44, 1, 0x0, .ro, 0x0, 0xFFFFFFFF, false⟩,
   ⟨0xF48, 1, 0x0, .ro, 0x0, 0xFFFFFFFF, true⟩,
   ⟨0xF4C, 1, 0x0, .ro, 0x0, 0xFFFFFFFF, false⟩,
   ⟨0xF50, 1, 0x0, .ro, 0x0, 0xFFFFFFFF, true⟩,
   ⟨0xF54, 1, 0x0, .ro, 0x0, 0xFFFFFFFF, false⟩,
   ⟨0xF58, 1, 0x0, .ro, 0x0, 0xFFFFFFFF, true⟩,
   ⟨0xF5C, 1, 0x0, .ro, 0x0, 0xFFFFFFFF, false⟩,
   ⟨0xF60, 1, 0x0, .ro, 0x0, 0xFFFFFFFF, true⟩,
   ⟨0xF64, 1, 0x0, .ro, 0x0, 0xFFFFFFFF, false⟩,
   ⟨0xF68, 1, 0x0, .ro, 0x0, 0xFFFFFFFF, true⟩,
   ⟨0xF6C, 1, 0x0, .ro, 0x0, 0xFFFFFFFF, false⟩,
   ⟨0xF70, 1, 0x0, .ro, 0x0, 0xFFFFFFFF, true⟩,
   ⟨0xF74, 1, 0x0, .ro, 0x0, 0xFFFFFFFF, false⟩]

/-- Registers of the WPB pages. -/
def regRowsWPB : List RegRow :=
  regRowsWPB0 ++ regRowsWPB1

/-- Registers of the SIG page. -/
def regRowsSIG : List RegRow :=
  [⟨0x100, 1, 0x0, .rwl, 0x40, 0xFFFF, false⟩,
   ⟨0x800, 1, 0x0, .ro, 0x0, 0x3FF, false⟩,
   ⟨0xF00, 1, 0x0, .ro, 0x0, 0xFFFFFFFF, true⟩,
   ⟨0xF04, 1, 0x0, .ro, 0x0, 0xFFFFFFFF, false⟩,
   ⟨0xF08, 1, 0x0, .ro, 0x0, 0xFFFFFFFF, true⟩,
   ⟨0xF0C, 1, 0x0, .ro, 0x0, 0xFFFFFFFF, false⟩,
   ⟨0xF10, 1, 0x0, .ro, 0x0, 0xFFFFFFFF, true⟩,
   ⟨0xF14, 1, 0x0, .ro, 0x0, 0xFFFFFFFF, false⟩,
   ⟨0xF18, 1, 0x0, .ro, 0x0, 0xFFFFFFFF, true⟩,
   ⟨0xF1C, 1, 0x0, .ro, 0x0, 0xFFFFFFFF, false⟩,
   ⟨0xF20, 1, 0x0, .ro, 0x0, 0xFFFFFFFF, true⟩,
   ⟨0xF24, 1, 0x0, .ro, 0x0, 0xFFFFFFFF, false⟩]

/-- Registers of the EPS page, part 0. -/
def regRowsEPS0 : List RegRow :=
  [⟨0x100, 1, 0x0, .rwl, 0x0, 0xFFFFFFFF, true⟩,
   ⟨0x104, 1, 0x0, .rwl, 0x0, 0xFFFFFFFF, false⟩,
   ⟨0x108, 1, 0x0, .wo, 0x0, 0xFFFF, false⟩,
   ⟨0x10C, 1, 0x0, .rwl, 0x0, 0xFFFFFFFF, false⟩,
   ⟨0x180, 16, 0x4, .rwl, 0x0, 0xBFBFBFBF, false⟩,
   ⟨0x200, 1, 0x0, .rwl, 0x0, 0x80FFFFFF, false⟩,
   ⟨0x204, 1, 0x0, .rwl, 0x0, 0xFFF0FFF, false⟩,
   ⟨0x208, 1, 0x0, .rwl, 0x0, 0xFFF0FFF, false⟩,
   ⟨0x20C, 1, 0x0, .rwl, 0x0, 0xFFFFF, false⟩,
   ⟨0x210, 1, 0x0, .rwl, 0x0, 0xFFFFFFFF, false⟩,
   ⟨0x214, 1, 0x0, .rwl, 0x0, 0xFFFFFFFF, false⟩,
   ⟨0x218, 1, 0x0, .rwl, 0x1, 0xFFFFFFFF, true⟩,
   ⟨0x21C, 1, 0x0, .rwl, 0x0, 0xFFFFFFFF, false⟩,
   ⟨0x220, 1, 0x0, .rwl, 0x0, 0x1FFFF, false⟩,
   ⟨0x800, 1, 0x0, .rw, 0x0, 0x800000FF, false⟩,
   ⟨0x804, 6, 0x4, .rw, 0x0, 0xFFFFFFFF, false⟩,
   ⟨0x81C, 1, 0x0, .ro, 0x0, 0x8001FFFF, false⟩,
   ⟨0x820, 1, 0x0, .ro, 0x0, 0xFFFFFFFF, false⟩,
   ⟨0x824, 1, 0x0, .ro, 0x0, 0xFFFF, false⟩,
   ⟨0x828, 1, 0x0, .ro, 0x0, 0x37FFF, false⟩,
   ⟨0x830, 1, 0x0, .rw, 0x0, 0x7F, false⟩,
   ⟨0x834, 1, 0x0, .ro, 0x0, 0x81FFFFFF, false⟩,
   ⟨0x838, 1, 0x0, .ro, 0x0, 0xFFFFFFFF, true⟩,
   ⟨0x83C, 1, 0x0, .ro, 0x0, 0xFFFFFFFF, false⟩,
   ⟨0x840, 1, 0x0, .rw, 0x0, 0x3F, false⟩,
   ⟨0x848, 1, 0x0, .rw, 0x0, 0xFFFFFFFF, true⟩,
   ⟨0x84C, 1, 0x0, .rw, 0x0, 0xFFFFFFFF, false⟩,
   ⟨0x850, 1, 0x0, .rw, 0x0, 0xFFFFFFFF, true⟩,
   ⟨0x854, 1, 0x0, .rw, 0x0, 0xFFFFFFFF, false⟩,
   ⟨0x858, 1, 0x0, .rw, 0x0, 0xFFFFFFFF, true⟩,
   ⟨0x85C, 1, 0x0, .rw, 0x0, 0xFFFFFFFF, false⟩,
   ⟨0x860, 1, 0x0, .ro, 0x0, 0xFFFFFFFF, true⟩,
   ⟨0x864, 1, 0x0, .ro, 0x0, 0xFFFFFFFF, false⟩,
   ⟨0x868, 1, 0x0, .ro, 0x0, 0x7FFF, false⟩,
   ⟨0x870, 1, 0x0, .ro, 0x0, 0xFFFFFFFF, true⟩,
   ⟨0x874, 1, 0x0, .ro, 0x0, 0xFFFFFFFF, false⟩,
   ⟨0x878, 1, 0x0, .rw, 0x0, 0xFFFFFFFF, true⟩,
   ⟨0x87C, 1, 0x0, .rw, 0x0, 0xFFFFFFFF, false⟩,
   ⟨0x880, 1, 0x0, .rw, 0x0, 0xFFFFFFFF, false⟩,
   ⟨0x884, 1, 0x0, .rw, 0x0, 0xFFFF, false⟩]

/-- Registers of the EPS page, part 1. -/
def regRowsEPS1 : List RegRow :=
  [⟨0x888, 1, 0x0, .ro, 0x0, 0xBFFF7FFF, false⟩,
   ⟨0x890, 1, 0x0, .ro, 0x0, 0xFFFFFFFF, true⟩,
   ⟨0x894, 1, 0x0, .ro, 0x0, 0xFFFFFFFF, false⟩,
   ⟨0xF00, 1, 0x0, .ro, 0x0, 0xFFFFFFFF, true⟩,
   ⟨0xF04, 1, 0x0, .ro, 0x0, 0xFFFFFFFF, false⟩,
   ⟨0xF08, 1, 0x0, .ro, 0x0, 0xFFFFFFFF, true⟩,
   ⟨0xF0C, 1, 0x0, .ro, 0x0, 0xFFFFFFFF, false⟩,
   ⟨0xF10, 1, 0x0, .ro, 0x0, 0xFFFFFFFF, true⟩,
   ⟨0xF14, 1, 0x0, .ro, 0x0, 0xFFFFFFFF, false⟩,
   ⟨0xF18, 1, 0x0, .ro, 0x0, 0xFFFFFFFF, true⟩,
   ⟨0xF1C, 1, 0x0, .ro, 0x0, 0xFFFFFFFF, false⟩,
   ⟨0xF20, 1, 0x0, .ro, 0x0, 0xFFFFFFFF, true⟩,
   ⟨0xF24, 1, 0x0, .ro, 0x0, 0xFFFFFFFF, false⟩,
   ⟨0xF28, 1, 0x0, .ro, 0x0, 0xFFFFFFFF, true⟩,
   ⟨0xF2C, 1, 0x0, .ro, 0x0, 0xFFFFFFFF, false⟩,
   ⟨0xF30, 1, 0x0, .ro, 0x0, 0xFFFFFFFF, true⟩,
   ⟨0xF34, 1, 0x0, .ro, 0x0, 0xFFFFFFFF, false⟩,
   ⟨0xF38, 1, 0x0, .ro, 0x0, 0xFFFFFFFF, true⟩,
   ⟨0xF3C, 1, 0x0, .ro, 0x0, 0xFFFFFFFF, false⟩,
   ⟨0xF40, 1, 0x0, .ro, 0x0, 0xFFFFFFFF, true⟩,
   ⟨0xF44, 1, 0x0, .ro, 0x0, 0xFFFFFFFF, false⟩,
   ⟨0xF48, 1, 0x0, .ro, 0x0, 0xFFFFFFFF, true⟩,
   ⟨0xF4C, 1, 0x0, .ro, 0x0, 0xFFFFFFFF, false⟩,
   ⟨0xF50, 1, 0x0, .ro, 0x0, 0xFFFFFFFF, true⟩,
   ⟨0xF54, 1, 0x0, .ro, 0x0, 0xFFFFFFFF, false⟩,
   ⟨0xF58, 1, 0x0, .ro, 0x0, 0xFFFFFFFF, true⟩,
   ⟨0xF5C, 1, 0x0, .ro, 0x0, 0xFFFFFFFF, false⟩,
   ⟨0xF60, 1, 0x0, .ro, 0x0, 0xFFFFFFFF, true⟩,
   ⟨0xF64, 1, 0x0, .ro, 0x0, 0xFFFFFFFF, false⟩]

/-- Registers of the EPS pages. -/
def regRowsEPS : List RegRow :=
  regRowsEPS0 ++ regRowsEPS1

/-- Registers of the KIT page. -/
def regRowsKIT : List RegRow :=
  [⟨0x100, 16, 0x10, .rwl, 0x0, 0x80007FFF, false⟩,
   ⟨0x800, 16, 0x20, .ro, 0x0, 0xFFFFFFFF, true⟩,
   ⟨0x804, 16, 0x20, .ro, 0x0, 0xFFFFFFFF, false⟩,
   ⟨0x808, 16, 0x20, .rw, 0x0, 0xFFFFFFFF, true⟩,
   ⟨0x80C, 16, 0x20, .rw, 0x0, 0xFFFFFFFF, false⟩,
   ⟨0x810, 16, 0x20, .ro, 0x0, 0xFFFFFFFF, false⟩,
   ⟨0xF00, 1, 0x0, .ro, 0x0, 0xFFFFFFFF, true⟩,
   ⟨0xF04, 1, 0x0, .ro, 0x0, 0xFFFFFFFF, false⟩,
   ⟨0xF08, 1, 0x0, .ro, 0x0, 0xFFFFFFFF, true⟩,
   ⟨0xF0C, 1, 0x0, .ro, 0x0, 0xFFFFFFFF, false⟩,
   ⟨0xF10, 1, 0x0, .ro, 0x0, 0xFFFFFFFF, true⟩,
   ⟨0xF14, 1, 0x0, .ro, 0x0, 0xFFFFFFFF, false⟩,
   ⟨0xF18, 1, 0x0, .ro, 0x0, 0xFFFFFFFF, true⟩,
   ⟨0xF1C, 1, 0x0, .ro, 0x0, 0xFFFFFFFF, false⟩]

/-- Registers of the ANL page. -/
def regRowsANL : List RegRow :=
  [⟨0x200, 32, 0x10, .rwl, 0x0, 0x3FFFFFF, false⟩,
   ⟨0x204, 32, 0x10, .rwl, 0x0, 0x7F7F, false⟩,
   ⟨0x208, 32, 0x10, .rwl, 0x0, 0x7FFF7FFF, false⟩,
   ⟨0x800, 1, 0x0, .rw, 0x0, 0x80011FFF, false⟩,
   ⟨0x804, 1, 0x0, .ro, 0x0, 0x8001FFFF, false⟩,
   ⟨0x808, 1, 0x0, .ro, 0x0, 0xFFFFFFFF, false⟩,
   ⟨0x80C, 1, 0x0, .ro, 0x0, 0xFFFFFFFF, false⟩,
   ⟨0x810, 1, 0x0, .ro, 0x0, 0xF, false⟩,
   ⟨0x900, 32, 0x10, .ro, 0x0, 0xFFFF0003, false⟩,
   ⟨0x904, 32, 0x10, .ro, 0x0, 0xFFFFFFFF, false⟩,
   ⟨0x908, 32, 0x10, .ro, 0x0, 0xFFFFFFFF, false⟩,
   ⟨0xF00, 1, 0x0, .ro, 0x0, 0xFFFFFFFF, true⟩,
   ⟨0xF04, 1, 0x0, .ro, 0x0, 0xFFFFFFFF, false⟩,
   ⟨0xF08, 1, 0x0, .ro, 0x0, 0xFFFFFFFF, true⟩,
   ⟨0xF0C, 1, 0x0, .ro, 0x0, 0xFFFFFFFF, false⟩,
   ⟨0xF10, 1, 0x0, .ro, 0x0, 0xFFFFFFFF, true⟩,
   ⟨0xF14, 1, 0x0, .ro, 0x0, 0xFFFFFFFF, false⟩,
   ⟨0xF18, 1, 0x0, .ro, 0x0, 0xFFFFFFFF, true⟩,
   ⟨0xF1C, 1, 0x0, .ro, 0x0, 0xFFFFFFFF, false⟩,
   ⟨0xF20, 1, 0x0, .ro, 0x0, 0xFFFFFFFF, true⟩,
   ⟨0xF24, 1, 0x0, .ro, 0x0, 0xFFFFFFFF, false⟩,
   ⟨0xF28, 1, 0x0, .ro, 0x0, 0xFFFFFFFF, true⟩,
   ⟨0xF2C, 1, 0x0, .ro, 0x0, 0xFFFFFFFF, false⟩,
   ⟨0xF30, 1, 0x0, .ro, 0x0, 0xFFFFFFFF, true⟩,
   ⟨0xF34, 1, 0x0, .ro, 0x0, 0xFFFFFFFF, false⟩,
   ⟨0xF38, 1, 0x0, .ro, 0x0, 0xFFFFFFFF, true⟩,
   ⟨0xF3C, 1, 0x0, .ro, 0x0, 0xFFFFFFFF, false⟩,
   ⟨0xF40, 1, 0x0, .ro, 0x0, 0xFFFFFFFF, true⟩,
   ⟨0xF44, 1, 0x0, .ro, 0x0, 0xFFFFFFFF, false⟩,
   ⟨0xF48, 1, 0x0, .ro, 0x0, 0xFFFFFFFF, true⟩,
   ⟨0xF4C, 1, 0x0, .ro, 0x0, 0xFFFFFFFF, false⟩,
   ⟨0xF50, 1, 0x0, .ro, 0x0, 0xFFFFFFFF, true⟩,
   ⟨0xF54, 1, 0x0, .ro, 0x0, 0xFFFFFFFF, false⟩]

/-- Registers of the TRN page, part 0. -/
def regRowsTRN0 : List RegRow :=
  [⟨0x100, 8, 0x40, .rwl, 0x0, 0xFE7FFFFF, false⟩,
   ⟨0x104, 8, 0x40, .rwl, 0x0, 0xFFF0FFF, false⟩,
   ⟨0x108, 8, 0x40, .rwl, 0x0, 0xFFFFFFFF, true⟩,
   ⟨0x10C, 8, 0x40, .rwl, 0x0, 0xFFFFFFFF, false⟩,
   ⟨0x110, 8, 0x40, .rwl, 0x0, 0xFFFFFFFF, true⟩,
   ⟨0x114, 8, 0x40, .rwl, 0x0, 0xFF, false⟩,
   ⟨0x118, 8, 0x40, .rwl, 0x1, 0xFFFFFFFF, false⟩,
   ⟨0x11C, 8, 0x40, .rwl, 0x0, 0xFFFFF, false⟩,
   ⟨0x120, 8, 0x40, .rwl, 0x0, 0xFFFF, false⟩,
   ⟨0x124, 8, 0x40, .rwl, 0x0, 0x7FFFFFFF, false⟩,
   ⟨0x128, 8, 0x40, .rwl, 0x0, 0xFFFFFFFF, true⟩,
   ⟨0x12C, 8, 0x40, .rwl, 0x0, 0xFF, false⟩,
   ⟨0x130, 8, 0x40, .rwl, 0x0, 0xFFFF7FFF, false⟩,
   ⟨0x800, 8, 0x40, .ro, 0x0, 0xFFFFF7FF, false⟩,
   ⟨0x808, 8, 0x40, .ro, 0x0, 0xFFFFFFFF, true⟩,
   ⟨0x80C, 8, 0x40, .ro, 0x0, 0xFFFFFFFF, false⟩,
   ⟨0x810, 8, 0x40, .ro, 0x0, 0xFFFFFFFF, true⟩,
   ⟨0x814, 8, 0x40, .ro, 0x0, 0xFFFFFFFF, false⟩,
   ⟨0x818, 8, 0x40, .rw, 0x0, 0xFFFF, false⟩,
   ⟨0x81C, 8, 0x40, .ro, 0x0, 0xFFFF, false⟩,
   ⟨0x820, 8, 0x40, .ro, 0x0, 0xFFFFFFFF, false⟩,
   ⟨0xA00, 1, 0x0, .rw, 0x0, 0x800007FF, false⟩,
   ⟨0xA04, 1, 0x0, .ro, 0x0, 0x8001FFFF, false⟩,
   ⟨0xF00, 1, 0x0, .ro, 0x0, 0xFFFFFFFF, true⟩,
   ⟨0xF04, 1, 0x0, .ro, 0x0, 0xFFFFFFFF, false⟩,
   ⟨0xF08, 1, 0x0, .ro, 0x0, 0xFFFFFFFF, true⟩,
   ⟨0xF0C, 1, 0x0, .ro, 0x0, 0xFFFFFFFF, false⟩,
   ⟨0xF10, 1, 0x0, .ro, 0x0, 0xFFFFFFFF, true⟩,
   ⟨0xF14, 1, 0x0, .ro, 0x0, 0xFFFFFFFF, false⟩,
   ⟨0xF18, 1, 0x0, .ro, 0x0, 0xFFFFFFFF, true⟩,
   ⟨0xF1C, 1, 0x0, .ro, 0x0, 0xFFFFFFFF, false⟩,
   ⟨0xF20, 1, 0x0, .ro, 0x0, 0xFFFFFFFF, true⟩,
   ⟨0xF24, 1, 0x0, .ro, 0x0, 0xFFFFFFFF, false⟩,
   ⟨0xF28, 1, 0x0, .ro, 0x0, 0xFFFFFFFF, true⟩,
   ⟨0xF2C, 1, 0x0, .ro, 0x0, 0xFFFFFFFF, false⟩,
   ⟨0xF30, 1, 0x0, .ro, 0x0, 0xFFFFFFFF, true⟩,
   ⟨0xF34, 1, 0x0, .ro, 0x0, 0xFFFFFFFF, false⟩,
   ⟨0xF38, 1, 0x0, .ro, 0x0, 0xFFFFFFFF, true⟩,
   ⟨0xF3C, 1, 0x0, .ro, 0x0, 0xFFFFFFFF, false⟩,
   ⟨0xF40, 1, 0x0, .ro, 0x0, 0xFFFFFFFF, true⟩]

/-- Registers of the TRN page, part 1. -/
def regRowsTRN1 : List RegRow :=
  [⟨0xF44, 1, 0x0, .ro, 0x0, 0xFFFFFFFF, false⟩,
   ⟨0xF48, 1, 0x0, .ro, 0x0, 0xFFFFFFFF, true⟩,
   ⟨0xF4C, 1, 0x0, .ro, 0x0, 0xFFFFFFFF, false⟩,
   ⟨0xF50, 1, 0x0, .ro, 0x0, 0xFFFFFFFF, true⟩,
   ⟨0xF54, 1, 0x0, .ro, 0x0, 0xFFFFFFFF, false⟩,
   ⟨0xF58, 1, 0x0, .ro, 0x0, 0xFFFFFFFF, true⟩,
   ⟨0xF5C, 1, 0x0, .ro, 0x0, 0xFFFFFFFF, false⟩]

/-- Registers of the TRN pages. -/
def regRowsTRN : List RegRow :=
  regRowsTRN0 ++ regRowsTRN1

/-- Registers of the SCH page. -/
def regRowsSCH : List RegRow :=
  [⟨0x100, 1, 0x0, .rwl, 0x0, 0x1, false⟩,
   ⟨0x104, 1, 0x0, .rwl, 0xC8, 0xFFFF, false⟩,
   ⟨0x108, 1, 0x0, .rwl, 0xCCD, 0xFFFF, false⟩,
   ⟨0x110, 1, 0x0, .rwl, 0x0, 0xFFFFFFFF, true⟩,
   ⟨0x114, 1, 0x0, .rwl, 0x0, 0xFF, false⟩,
   ⟨0x118, 1, 0x0, .rwl, 0x0, 0xF0F, false⟩,
   ⟨0x120, 8, 0x4, .rwl, 0x0, 0xFFFFFFFF, false⟩,
   ⟨0x400, 64, 0x4, .rwl, 0x0, 0xFFFFFFFF, false⟩,
   ⟨0x800, 1, 0x0, .ro, 0x0, 0x17F7F, false⟩,
   ⟨0x804, 1, 0x0, .rw, 0x0, 0xFF, false⟩,
   ⟨0x808, 1, 0x0, .ro, 0x0, 0x7FFFFFF, false⟩,
   ⟨0x80C, 1, 0x0, .ro, 0x0, 0xFFFFFFFF, true⟩,
   ⟨0x810, 1, 0x0, .ro, 0x0, 0x10000, false⟩,
   ⟨0x814, 1, 0x0, .rw, 0x0, 0x800003FF, false⟩,
   ⟨0x818, 1, 0x0, .ro, 0x0, 0x8000FFFF, false⟩,
   ⟨0x820, 8, 0x4, .ro, 0x0, 0xFFFFFFFF, false⟩,
   ⟨0x840, 8, 0x4, .ro, 0x0, 0xFFFFFFFF, false⟩,
   ⟨0xF00, 1, 0x0, .ro, 0x0, 0xFFFFFFFF, true⟩,
   ⟨0xF04, 1, 0x0, .ro, 0x0, 0xFFFFFFFF, false⟩,
   ⟨0xF08, 1, 0x0, .ro, 0x0, 0xFFFFFFFF, true⟩,
   ⟨0xF0C, 1, 0x0, .ro, 0x0, 0xFFFFFFFF, false⟩,
   ⟨0xF10, 1, 0x0, .ro, 0x0, 0xFFFFFFFF, true⟩,
   ⟨0xF14, 1, 0x0, .ro, 0x0, 0xFFFFFFFF, false⟩,
   ⟨0xF18, 1, 0x0, .ro, 0x0, 0xFFFFFFFF, true⟩,
   ⟨0xF1C, 1, 0x0, .ro, 0x0, 0xFFFFFFFF, false⟩,
   ⟨0xF20, 1, 0x0, .ro, 0x0, 0xFFFFFFFF, true⟩,
   ⟨0xF24, 1, 0x0, .ro, 0x0, 0xFFFFFFFF, false⟩,
   ⟨0xF28, 1, 0x0, .ro, 0x0, 0xFFFFFFFF, true⟩,
   ⟨0xF2C, 1, 0x0, .ro, 0x0, 0xFFFFFFFF, false⟩,
   ⟨0xF30, 1, 0x0, .ro, 0x0, 0xFFFFFFFF, true⟩,
   ⟨0xF34, 1, 0x0, .ro, 0x0, 0xFFFFFFFF, false⟩,
   ⟨0xF38, 1, 0x0, .rc, 0x0, 0xFFFFFFFF, false⟩]

/-- Registers of the QUE pages. -/
def regRowsQUE : List RegRow :=
  [⟨0x100, 1, 0x0, .rwl, 0x0, 0xFFFFFFFF, true⟩,
   ⟨0x104, 1, 0x0, .rwl, 0x0, 0xFFFFFFFF, false⟩,
   ⟨0x108, 1, 0x0, .rwl, 0x0, 0xFFFFFFFF, true⟩,
   ⟨0x10C, 1, 0x0, .rwl, 0x0, 0xFFFFFFFF, false⟩,
   ⟨0x110, 1, 0x0, .rwl, 0x0, 0x8001FF0F, false⟩,
   ⟨0x800, 1, 0x0, .rw, 0x0, 0xFFFFFFFF, false⟩,
   ⟨0x804, 1, 0x0, .ro, 0x0, 0xFFFFFFFF, false⟩,
   ⟨0x808, 1, 0x0, .ro, 0x0, 0xFFFFFFFF, false⟩,
   ⟨0x80C, 1, 0x0, .rw, 0x0, 0xFFFFFFFF, false⟩,
   ⟨0x810, 1, 0x0, .ro, 0x0, 0xFFFFFF03, false⟩,
   ⟨0x814, 1, 0x0, .rw, 0x0, 0x1, false⟩,
   ⟨0xF00, 1, 0x0, .ro, 0x0, 0xFFFFFFFF, true⟩,
   ⟨0xF04, 1, 0x0, .ro, 0x0, 0xFFFFFFFF, false⟩,
   ⟨0xF08, 1, 0x0, .ro, 0x0, 0xFFFFFFFF, true⟩,
   ⟨0xF0C, 1, 0x0, .ro, 0x0, 0xFFFFFFFF, false⟩,
   ⟨0xF10, 1, 0x0, .ro, 0x0, 0xFFFFFFFF, true⟩,
   ⟨0xF14, 1, 0x0, .ro, 0x0, 0xFFFFFFFF, false⟩,
   ⟨0xF18, 1, 0x0, .ro, 0x0, 0xFFFFFFFF, true⟩,
   ⟨0xF1C, 1, 0x0, .ro, 0x0, 0xFFFFFFFF, false⟩]

/-- Registers of the CTX pages. -/
def regRowsCTX : List RegRow :=
  [⟨0x100, 1, 0x0, .rwl, 0x0, 0x73F7F, false⟩,
   ⟨0x104, 1, 0x0, .rwl, 0xFF, 0xFF, false⟩,
   ⟨0x108, 1, 0x0, .rwl, 0x4000, 0x7F7F, false⟩,
   ⟨0x10C, 1, 0x0, .rwl, 0x7D0, 0xFFFF, false⟩,
   ⟨0x110, 1, 0x0, .rwl, 0x8000, 0xFFFFFFFF, false⟩,
   ⟨0x114, 1, 0x0, .rwl, 0x0, 0xFFFF, false⟩,
   ⟨0x800, 1, 0x0, .ro, 0x0, 0xFFFFFF3F, false⟩,
   ⟨0x804, 1, 0x0, .rw, 0x0, 0x1, false⟩,
   ⟨0x808, 1, 0x0, .ro, 0x0, 0xFFFFFFFF, true⟩,
   ⟨0x80C, 1, 0x0, .ro, 0x0, 0xFFFFFFFF, false⟩,
   ⟨0x810, 1, 0x0, .ro, 0x0, 0xFFFF, false⟩,
   ⟨0x880, 4, 0x4, .rw, 0x0, 0xFFFFFFFF, false⟩,
   ⟨0x890, 1, 0x0, .rw, 0x0, 0x3F, false⟩,
   ⟨0x894, 1, 0x0, .ro, 0x0, 0x1FF, false⟩,
   ⟨0x898, 1, 0x0, .ro, 0x0, 0xFFFFFFFF, true⟩,
   ⟨0x89C, 1, 0x0, .ro, 0x0, 0xFFFFFFFF, false⟩,
   ⟨0x8A0, 4, 0x4, .ro, 0x0, 0xFFFFFFFF, false⟩,
   ⟨0xF00, 1, 0x0, .ro, 0x0, 0xFFFFFFFF, true⟩,
   ⟨0xF04, 1, 0x0, .ro, 0x0, 0xFFFFFFFF, false⟩,
   ⟨0xF08, 1, 0x0, .ro, 0x0, 0xFFFFFFFF, true⟩,
   ⟨0xF0C, 1, 0x0, .ro, 0x0, 0xFFFFFFFF, false⟩,
   ⟨0xF10, 1, 0x0, .ro, 0x0, 0xFFFFFFFF, false⟩,
   ⟨0xF14, 1, 0x0, .ro, 0x0, 0x1FFFF, false⟩,
   ⟨0xF18, 1, 0x0, .ro, 0x0, 0xFFFFFFFF, true⟩,
   ⟨0xF1C, 1, 0x0, .ro, 0x0, 0xFFFFFFFF, false⟩,
   ⟨0xF20, 1, 0x0, .ro, 0x0, 0xFFFFFFFF, true⟩,
   ⟨0xF24, 1, 0x0, .ro, 0x0, 0xFFFFFFFF, false⟩,
   ⟨0xF80, 1, 0x0, .ro, 0x0, 0xFFFFFFFF, true⟩,
   ⟨0xF84, 1, 0x0, .ro, 0x0, 0xFFFFFFFF, false⟩]

/-- Registers of the CLU pages. -/
def regRowsCLU : List RegRow :=
  [⟨0x100, 1, 0x0, .rwl, 0x0, 0xBF, false⟩,
   ⟨0x104, 1, 0x0, .rwl, 0x3, 0xFF, false⟩,
   ⟨0x800, 1, 0x0, .ro, 0x0, 0xFFFFFFFF, true⟩,
   ⟨0x804, 1, 0x0, .ro, 0x0, 0xFFFF, false⟩,
   ⟨0x808, 1, 0x0, .ro, 0x0, 0xFFFFFFFF, true⟩,
   ⟨0x80C, 1, 0x0, .ro, 0x0, 0xFFFF, false⟩,
   ⟨0x810, 3, 0x4, .ro, 0x0, 0xFFFFFFFF, false⟩,
   ⟨0x820, 1, 0x0, .rw, 0x0, 0x33F, false⟩,
   ⟨0x824, 1, 0x0, .rw, 0x0, 0x33F, false⟩,
   ⟨0x828, 1, 0x0, .ro, 0x0, 0x1F1F3F, false⟩,
   ⟨0x82C, 1, 0x0, .ro, 0x0, 0x3FFF, false⟩,
   ⟨0xF00, 1, 0x0, .ro, 0x0, 0xFFFFFFFF, true⟩,
   ⟨0xF04, 1, 0x0, .ro, 0x0, 0xFFFFFFFF, false⟩,
   ⟨0xF08, 1, 0x0, .ro, 0x0, 0xFFFFFFFF, true⟩,
   ⟨0xF0C, 1, 0x0, .ro, 0x0, 0xFFFFFFFF, false⟩,
   ⟨0xF10, 1, 0x0, .ro, 0x0, 0xFFFFFFFF, true⟩,
   ⟨0xF14, 1, 0x0, .ro, 0x0, 0xFFFFFFFF, false⟩,
   ⟨0xF18, 1, 0x0, .ro, 0x0, 0xFFFFFFFF, true⟩,
   ⟨0xF1C, 1, 0x0, .ro, 0x0, 0xFFFFFFFF, false⟩]

/-- Registers of the MEM pages. -/
def regRowsMEM : List RegRow :=
  [⟨0x100, 1, 0x0, .wo, 0x0, 0x1, false⟩,
   ⟨0x104, 1, 0x0, .rwl, 0x32, 0x7F, false⟩,
   ⟨0x108, 1, 0x0, .rwl, 0x18, 0xFF, false⟩,
   ⟨0x800, 1, 0x0, .ro, 0x0, 0xFFFFFFFF, false⟩,
   ⟨0x804, 1, 0x0, .ro, 0x0, 0xFFFF1FFF, false⟩,
   ⟨0x808, 1, 0x0, .ro, 0x0, 0xFFFFFFFF, true⟩,
   ⟨0x80C, 1, 0x0, .ro, 0x0, 0xFFFFFFFF, false⟩,
   ⟨0x810, 1, 0x0, .ro, 0x0, 0xFFFFFFFF, true⟩,
   ⟨0x814, 1, 0x0, .ro, 0x0, 0xFFFFFFFF, false⟩,
   ⟨0xF00, 1, 0x0, .ro, 0x0, 0xFFFFFFFF, true⟩,
   ⟨0xF04, 1, 0x0, .ro, 0x0, 0xFFFFFFFF, false⟩,
   ⟨0xF08, 1, 0x0, .ro, 0x0, 0xFFFFFFFF, true⟩,
   ⟨0xF0C, 1, 0x0, .ro, 0x0, 0xFFFFFFFF, false⟩,
   ⟨0xF10, 1, 0x0, .ro, 0x0, 0xFFFFFFFF, true⟩,
   ⟨0xF14, 1, 0x0, .ro, 0x0, 0xFFFFFFFF, false⟩,
   ⟨0xF18, 1, 0x0, .ro, 0x0, 0xFFFFFFFF, true⟩,
   ⟨0xF1C, 1, 0x0, .ro, 0x0, 0xFFFFFFFF, false⟩,
   ⟨0xF20, 1, 0x0, .ro, 0x0, 0xFFFFFFFF, true⟩,
   ⟨0xF24, 1, 0x0, .ro, 0x0, 0xFFFFFFFF, false⟩,
   ⟨0xF28, 1, 0x0, .ro, 0x0, 0xFFFFFFFF, true⟩,
   ⟨0xF2C, 1, 0x0, .ro, 0x0, 0xFFFFFFFF, false⟩,
   ⟨0xF30, 1, 0x0, .ro, 0x0, 0xFFFFFFFF, true⟩,
   ⟨0xF34, 1, 0x0, .ro, 0x0, 0xFFFFFFFF, false⟩,
   ⟨0xF38, 1, 0x0, .ro, 0x0, 0xFFFFFFFF, true⟩,
   ⟨0xF3C, 1, 0x0, .ro, 0x0, 0xFFFFFFFF, false⟩,
   ⟨0xF40, 1, 0x0, .ro, 0x0, 0xFFFFFFFF, true⟩,
   ⟨0xF44, 1, 0x0, .ro, 0x0, 0xFFFFFFFF, false⟩,
   ⟨0xF48, 1, 0x0, .ro, 0x0, 0xFFFFFFFF, true⟩,
   ⟨0xF4C, 1, 0x0, .ro, 0x0, 0xFFFFFFFF, false⟩,
   ⟨0xF50, 1, 0x0, .ro, 0x0, 0xFFFFFFFF, true⟩,
   ⟨0xF54, 1, 0x0, .ro, 0x0, 0xFFFFFFFF, false⟩,
   ⟨0xF58, 1, 0x0, .ro, 0x0, 0xFFFFFFFF, true⟩,
   ⟨0xF5C, 1, 0x0, .ro, 0x0, 0xFFFFFFFF, false⟩]

/-- Registers of the HCC pages. -/
def regRowsHCC : List RegRow :=
  [⟨0x100, 8, 0x4, .rwl, 0xFFFFFFFF, 0xFFFFFFFF, false⟩,
   ⟨0x120, 1, 0x0, .rwl, 0xC, 0x1F, false⟩,
   ⟨0x800, 1, 0x0, .rw, 0x0, 0x8001FFFF, false⟩,
   ⟨0x804, 1, 0x0, .ro, 0x0, 0x7, false⟩,
   ⟨0xF00, 1, 0x0, .ro, 0x0, 0xFFFFFFFF, true⟩,
   ⟨0xF04, 1, 0x0, .ro, 0x0, 0xFFFFFFFF, false⟩,
   ⟨0xF08, 1, 0x0, .ro, 0x0, 0xFFFFFFFF, true⟩,
   ⟨0xF0C, 1, 0x0, .ro, 0x0, 0xFFFFFFFF, false⟩,
   ⟨0xF10, 1, 0x0, .ro, 0x0, 0xFFFFFFFF, true⟩,
   ⟨0xF14, 1, 0x0, .ro, 0x0, 0xFFFFFFFF, false⟩,
   ⟨0xF18, 1, 0x0, .ro, 0x0, 0xFFFFFFFF, true⟩,
   ⟨0xF1C, 1, 0x0, .ro, 0x0, 0xFFFFFFFF, false⟩,
   ⟨0xF20, 1, 0x0, .ro, 0x0, 0xFFFFFFFF, true⟩,
   ⟨0xF24, 1, 0x0, .ro, 0x0, 0xFFFFFFFF, false⟩,
   ⟨0xF28, 1, 0x0, .ro, 0x0, 0xFFFFFFFF, true⟩,
   ⟨0xF2C, 1, 0x0, .ro, 0x0, 0xFFFFFFFF, false⟩,
   ⟨0xF30, 1, 0x0, .ro, 0x0, 0xFFFFFFFF, true⟩,
   ⟨0xF34, 1, 0x0, .ro, 0x0, 0xFFFFFFFF, false⟩,
   ⟨0xF38, 1, 0x0, .ro, 0x0, 0xFFFFFFFF, true⟩,
   ⟨0xF3C, 1, 0x0, .ro, 0x0, 0xFFFFFFFF, false⟩,
   ⟨0xF40, 1, 0x0, .ro, 0x0, 0xFFFFFFFF, true⟩,
   ⟨0xF44, 1, 0x0, .ro, 0x0, 0xFFFFFFFF, false⟩]

/-- Registers of the LNK pages, part 0. -/
def regRowsLNK0 : List RegRow :=
  [⟨0x100, 1, 0x0, .rwl, 0x31, 0x3F, false⟩,
   ⟨0x104, 1, 0x0, .rwl, 0xA0258, 0xFFFFFF, false⟩,
   ⟨0x108, 1, 0x0, .rwl, 0x10, 0xFFFF, false⟩,
   ⟨0x10C, 1, 0x0, .rwl, 0x82710, 0xFFFFFF, false⟩,
   ⟨0x110, 1, 0x0, .rwl, 0x64, 0xFFFF, false⟩,
   ⟨0x114, 1, 0x0, .rwl, 0x0, 0xF01, false⟩,
   ⟨0x118, 1, 0x0, .rwl, 0x30383808, 0xFFFFFFFF, false⟩,
   ⟨0x11C, 1, 0x0, .rwl, 0x10101820, 0xFFFFFFFF, false⟩,
   ⟨0x140, 1, 0x0, .rwl, 0x0, 0x1, false⟩,
   ⟨0x800, 1, 0x0, .ro, 0x0, 0xFFFFFFFF, false⟩,
   ⟨0x804, 1, 0x0, .ro, 0x0, 0xFFFFFFFF, false⟩,
   ⟨0x808, 1, 0x0, .ro, 0x0, 0xFFFFFFFF, false⟩,
   ⟨0x80C, 1, 0x0, .ro, 0x0, 0x7, false⟩,
   ⟨0x810, 1, 0x0, .rw, 0x0, 0x7, false⟩,
   ⟨0x814, 1, 0x0, .ro, 0x0, 0x1FFFF, false⟩,
   ⟨0x818, 1, 0x0, .ro, 0x0, 0xFFFFFFFF, false⟩,
   ⟨0x81C, 1, 0x0, .ro, 0x0, 0xFFFFFFF, false⟩,
   ⟨0x820, 1, 0x0, .ro, 0x0, 0xFFFFFFFF, true⟩,
   ⟨0x824, 1, 0x0, .ro, 0x0, 0xFFFFFFFF, false⟩,
   ⟨0xF00, 1, 0x0, .ro, 0x0, 0xFFFFFFFF, true⟩,
   ⟨0xF04, 1, 0x0, .ro, 0x0, 0xFFFFFFFF, false⟩,
   ⟨0xF08, 1, 0x0, .ro, 0x0, 0xFFFFFFFF, true⟩,
   ⟨0xF0C, 1, 0x0, .ro, 0x0, 0xFFFFFFFF, false⟩,
   ⟨0xF10, 1, 0x0, .ro, 0x0, 0xFFFFFFFF, true⟩,
   ⟨0xF14, 1, 0x0, .ro, 0x0, 0xFFFFFFFF, false⟩,
   ⟨0xF18, 1, 0x0, .ro, 0x0, 0xFFFFFFFF, true⟩,
   ⟨0xF1C, 1, 0x0, .ro, 0x0, 0xFFFFFFFF, false⟩,
   ⟨0xF20, 1, 0x0, .ro, 0x0, 0xFFFFFFFF, true⟩,
   ⟨0xF24, 1, 0x0, .ro, 0x0, 0xFFFFFFFF, false⟩,
   ⟨0xF28, 1, 0x0, .ro, 0x0, 0xFFFFFFFF, true⟩,
   ⟨0xF2C, 1, 0x0, .ro, 0x0, 0xFFFFFFFF, false⟩,
   ⟨0xF30, 1, 0x0, .ro, 0x0, 0xFFFFFFFF, true⟩,
   ⟨0xF34, 1, 0x0, .ro, 0x0, 0xFFFFFFFF, false⟩,
   ⟨0xF38, 1, 0x0, .ro, 0x0, 0xFFFFFFFF, true⟩,
   ⟨0xF3C, 1, 0x0, .ro, 0x0, 0xFFFFFFFF, false⟩,
   ⟨0xF40, 1, 0x0, .ro, 0x0, 0xFFFFFFFF, true⟩,
   ⟨0xF44, 1, 0x0, .ro, 0x0, 0xFFFFFFFF, false⟩,
   ⟨0xF48, 1, 0x0, .ro, 0x0, 0xFFFFFFFF, true⟩,
   ⟨0xF4C, 1, 0x0, .ro, 0x0, 0xFFFFFFFF, false⟩,
   ⟨0xF50, 1, 0x0, .ro, 0x0, 0xFFFFFFFF, true⟩]

/-- Registers of the LNK pages, part 1. -/
def regRowsLNK1 : List RegRow :=
  [⟨0xF54, 1, 0x0, .ro, 0x0, 0xFFFFFFFF, false⟩,
   ⟨0xF58, 1, 0x0, .ro, 0x0, 0xFFFFFFFF, true⟩,
   ⟨0xF5C, 1, 0x0, .ro, 0x0, 0xFFFFFFFF, false⟩,
   ⟨0xF60, 1, 0x0, .ro, 0x0, 0xFFFFFFFF, true⟩,
   ⟨0xF64, 1, 0x0, .ro, 0x0, 0xFFFFFFFF, false⟩,
   ⟨0xF68, 1, 0x0, .ro, 0x0, 0xFFFFFFFF, true⟩,
   ⟨0xF6C, 1, 0x0, .ro, 0x0, 0xFFFFFFFF, false⟩,
   ⟨0xF70, 1, 0x0, .ro, 0x0, 0xFFFFFFFF, true⟩,
   ⟨0xF74, 1, 0x0, .ro, 0x0, 0xFFFFFFFF, false⟩,
   ⟨0xF78, 1, 0x0, .ro, 0x0, 0xFFFFFFFF, true⟩,
   ⟨0xF7C, 1, 0x0, .ro, 0x0, 0xFFFFFFFF, false⟩,
   ⟨0xF80, 1, 0x0, .ro, 0x0, 0xFFFFFFFF, true⟩,
   ⟨0xF84, 1, 0x0, .ro, 0x0, 0xFFFFFFFF, false⟩,
   ⟨0xF88, 4, 0x8, .ro, 0x0, 0xFFFFFFFF, true⟩,
   ⟨0xF8C, 4, 0x8, .ro, 0x0, 0xFFFFFFFF, false⟩,
   ⟨0xFA8, 1, 0x0, .ro, 0x0, 0xFFFFFFFF, true⟩,
   ⟨0xFAC, 1, 0x0, .ro, 0x0, 0xFFFFFFFF, false⟩]

/-- Registers of the LNK pages. -/
def regRowsLNK : List RegRow :=
  regRowsLNK0 ++ regRowsLNK1

/-- Registers of the CORE pages. -/
def regRowsCORE : List RegRow :=
  [⟨0x100, 1, 0x0, .rwl, 0x0, 0x1, false⟩,
   ⟨0x800, 1, 0x0, .ro, 0x0, 0x7FFF, false⟩,
   ⟨0x804, 1, 0x0, .ro, 0x0, 0xFFFF, false⟩,
   ⟨0x808, 1, 0x0, .ro, 0x0, 0x3FFFF, false⟩,
   ⟨0x80C, 1, 0x0, .ro, 0x0, 0x81FFFFFF, false⟩,
   ⟨0xF00, 1, 0x0, .ro, 0x0, 0xFFFFFFFF, true⟩,
   ⟨0xF04, 1, 0x0, .ro, 0x0, 0xFFFFFFFF, false⟩,
   ⟨0xF08, 1, 0x0, .ro, 0x0, 0xFFFFFFFF, true⟩,
   ⟨0xF0C, 1, 0x0, .ro, 0x0, 0xFFFFFFFF, false⟩,
   ⟨0xF10, 1, 0x0, .ro, 0x0, 0xFFFFFFFF, true⟩,
   ⟨0xF14, 1, 0x0, .ro, 0x0, 0xFFFFFFFF, false⟩,
   ⟨0xF18, 1, 0x0, .ro, 0x0, 0xFFFFFFFF, true⟩,
   ⟨0xF1C, 1, 0x0, .ro, 0x0, 0xFFFFFFFF, false⟩,
   ⟨0xF20, 1, 0x0, .ro, 0x0, 0xFFFFFFFF, true⟩,
   ⟨0xF24, 1, 0x0, .ro, 0x0, 0xFFFFFFFF, false⟩,
   ⟨0xF28, 1, 0x0, .ro, 0x0, 0xFFFFFFFF, true⟩,
   ⟨0xF2C, 1, 0x0, .ro, 0x0, 0xFFFFFFFF, false⟩,
   ⟨0xF30, 1, 0x0, .ro, 0x0, 0xFFFFFFFF, true⟩,
   ⟨0xF34, 1, 0x0, .ro, 0x0, 0xFFFFFFFF, false⟩,
   ⟨0xF38, 1, 0x0, .ro, 0x0, 0xFFFFFFFF, true⟩,
   ⟨0xF3C, 1, 0x0, .ro, 0x0, 0xFFFFFFFF, false⟩,
   ⟨0xF40, 8, 0x10, .ro, 0x0, 0xFFFFFFFF, true⟩,
   ⟨0xF44, 8, 0x10, .ro, 0x0, 0xFFFFFFFF, false⟩,
   ⟨0xF48, 8, 0x10, .ro, 0x0, 0xFFFFFFFF, true⟩,
   ⟨0xF4C, 8, 0x10, .ro, 0x0, 0xFFFFFFFF, false⟩,
   ⟨0xFC0, 1, 0x0, .ro, 0x0, 0xFFFFFFFF, true⟩,
   ⟨0xFC4, 1, 0x0, .ro, 0x0, 0xFFFFFFFF, false⟩,
   ⟨0xFC8, 1, 0x0, .ro, 0x0, 0xFFFFFFFF, true⟩,
   ⟨0xFCC, 1, 0x0, .ro, 0x0, 0xFFFFFFFF, false⟩,
   ⟨0xFD0, 1, 0x0, .ro, 0x0, 0xFFFFFFFF, true⟩,
   ⟨0xFD4, 1, 0x0, .ro, 0x0, 0xFFFFFFFF, false⟩,
   ⟨0xFD8, 1, 0x0, .ro, 0x0, 0xFFFFFFFF, true⟩,
   ⟨0xFDC, 1, 0x0, .ro, 0x0, 0xFFFFFFFF, false⟩]

/-- Registers of the ARR pages. -/
def regRowsARR : List RegRow :=
  [⟨0x800, 1, 0x0, .ro, 0x0, 0xF, false⟩,
   ⟨0x804, 1, 0x0, .ro, 0x0, 0xFFFFFFFF, false⟩,
   ⟨0x808, 1, 0x0, .ro, 0x0, 0xFFFFFFFF, true⟩,
   ⟨0x80C, 1, 0x0, .ro, 0x0, 0xFFFFFFFF, false⟩,
   ⟨0xF00, 1, 0x0, .ro, 0x0, 0xFFFFFFFF, true⟩,
   ⟨0xF04, 1, 0x0, .ro, 0x0, 0xFFFFFFFF, false⟩,
   ⟨0xF08, 1, 0x0, .ro, 0x0, 0xFFFFFFFF, true⟩,
   ⟨0xF0C, 1, 0x0, .ro, 0x0, 0xFFFFFFFF, false⟩,
   ⟨0xF10, 1, 0x0, .ro, 0x0, 0xFFFFFFFF, true⟩,
   ⟨0xF14, 1, 0x0, .ro, 0x0, 0xFFFFFFFF, false⟩,
   ⟨0xF18, 1, 0x0, .ro, 0x0, 0xFFFFFFFF, true⟩,
   ⟨0xF1C, 1, 0x0, .ro, 0x0, 0xFFFFFFFF, false⟩,
   ⟨0xF20, 1, 0x0, .ro, 0x0, 0xFFFFFFFF, true⟩,
   ⟨0xF24, 1, 0x0, .ro, 0x0, 0xFFFFFFFF, false⟩,
   ⟨0xF28, 1, 0x0, .ro, 0x0, 0xFFFFFFFF, true⟩,
   ⟨0xF2C, 1, 0x0, .ro, 0x0, 0xFFFFFFFF, false⟩]

/-- The register table of a block type code (02_register_pages.md, page index map). -/
def regRowsOf : Nat → List RegRow
  | 0 => regRowsDirectory
  | 1 => regRowsAON
  | 2 => regRowsPWR
  | 3 => regRowsCLK
  | 4 => regRowsFUS
  | 5 => regRowsNVJ
  | 6 => regRowsHIF
  | 7 => regRowsMGT
  | 8 => regRowsERR
  | 9 => regRowsTEL
  | 10 => regRowsDBG
  | 11 => regRowsCHK
  | 12 => regRowsTIER
  | 13 => regRowsFAB
  | 14 => regRowsCLX
  | 15 => regRowsWPB
  | 16 => regRowsSIG
  | 17 => regRowsEPS
  | 18 => regRowsKIT
  | 19 => regRowsANL
  | 20 => regRowsTRN
  | 21 => regRowsSCH
  | 22 => regRowsQUE
  | 23 => regRowsCTX
  | 24 => regRowsCLU
  | 25 => regRowsMEM
  | 26 => regRowsHCC
  | 27 => regRowsLNK
  | 28 => regRowsCORE
  | 29 => regRowsARR
  | _ => []

/-- Does offset `off` fall on a register of row `r`? -/
def RegRow.covers (r : RegRow) (off : Nat) : Bool :=
  if r.count = 1 then off == r.first
  else decide (r.first ≤ off) && (off - r.first) % r.stride == 0 && decide ((off - r.first) / r.stride < r.count)

/-- The row of a block type's table that holds page offset `off`. -/
def regRow (bt off : Nat) : Option RegRow := (regRowsOf bt).find? (fun r => r.covers off)

end Sys2Proof.Machine
end

