-- ==== Sys2Proof/Machine/SMap.lean ====
section
/-! DEFINITION. Sparse data by key, in one canonical form (DESIGN CHOICE, log entry 3): a list of key and value pairs, keys
strictly rising, no value equal to what an unlisted key reads as. -/

namespace Sys2Proof.Machine

/-- A sparse map from Nat keys. -/
abbrev SMap (α : Type) := List (Nat × α)

/-- The value at key `k`, `d` where none is listed. -/
def sget {α : Type} (d : α) : SMap α → Nat → α
  | [], _ => d
  | (q, v) :: m, k => if q = k then v else sget d m k

/-- The map without key `k`. -/
def serase {α : Type} : SMap α → Nat → SMap α
  | [], _ => []
  | (q, v) :: m, k => if q = k then serase m k else (q, v) :: serase m k

/-- Put `(k, v)` before the first greater key; `k` is not listed. -/
def sins {α : Type} (k : Nat) (v : α) : SMap α → SMap α
  | [] => [(k, v)]
  | (q, w) :: m => if k < q then (k, v) :: (q, w) :: m else (q, w) :: sins k v m

/-- Write `v` at key `k`; writing the default `d` removes the entry. -/
def sset {α : Type} [DecidableEq α] (d : α) (m : SMap α) (k : Nat) (v : α) : SMap α :=
  if v = d then serase m k else sins k v (serase m k)

/-- Change the value at key `k`. -/
def smod {α : Type} [DecidableEq α] (d : α) (m : SMap α) (k : Nat) (f : α → α) : SMap α :=
  sset d m k (f (sget d m k))

/-- Every key of `m` is above `lo`, keys rise strictly, and no value equals its default. -/
def swfFrom {α : Type} [DecidableEq α] (d : Nat → α) : Option Nat → SMap α → Bool
  | _, [] => true
  | lo, (k, v) :: m =>
    (match lo with | none => true | some l => decide (l < k)) && decide (v ≠ d k) && swfFrom d (some k) m

/-- The canonical form, for a default that may depend on the key. -/
def swf {α : Type} [DecidableEq α] (d : Nat → α) (m : SMap α) : Bool := swfFrom d none m

/-- Write a run of values at rising keys. -/
def ssets {α : Type} [DecidableEq α] (d : α) : SMap α → Nat → List α → SMap α
  | m, _, [] => m
  | m, k, v :: vs => ssets d (sset d m k v) (k + 1) vs

/-- Read `n` values at rising keys. -/
def sgets {α : Type} (d : α) (m : SMap α) (k : Nat) : Nat → List α
  | 0 => []
  | n + 1 => sget d m k :: sgets d m (k + 1) n

end Sys2Proof.Machine
end

