-- ==== Sys2Proof/Machine/State.lean ====
section
/-! DEFINITION. The state of the HJ2 as plain data: registers by BAR0 offset, page headers, power domains,
fuses and flash, logs, cores, arrays, memories, links, engines, and the queue of waiting commands. Every
default is the value at the release of a power-on reset (04_reset_boot.md R95); what the spec gives no value for
is zero (DESIGN CHOICE, log entry 4). -/

namespace Sys2Proof.Machine

/-- Stops with a fault. -/
inductive Fault where
  /-- Raised by MEM_READ and MEM_WRITE at a device address outside the 768 GiB of 09_stacked_memory.md (Address map), which
  the spec says does not exist. Safe: the model stops. -/
  | outsideMemory
  deriving DecidableEq, Repr

/-- Refusals. -/
inductive Refusal where
  /-- Raised by an arm of exec whose command has no meaning yet. Safe: the model stops. -/
  | notModelled (mnemonic : String)
  deriving DecidableEq, Repr

/-! ### Register pages (02_register_pages.md) -/

/-- The common header of one page, and what the page remembers about writes (R33 to R50). -/
structure Page where
  en : Bool := false
  srst : Bool := false
  woViol : Bool := false
  sizeErr : Bool := false
  offAccess : Bool := false
  evt : Word32 := 0
  evtEn : Word32 := 0
  errAddr : Word32 := 0
  violCnt : BitVec 16 := 0
  allow : BitVec 2 := 3
  locked : Bool := false
  armedHost : Bool := false
  armedMgmt : Bool := false
  /-- Offsets of the WO registers already written (R48). -/
  written : List Nat := []
  /-- The 64-bit read latch of each requester: low offset and high word (R33). -/
  latchHost : Option (Nat × Word32) := none
  latchMgmt : Option (Nat × Word32) := none
  deriving DecidableEq, Repr

/-! ### Power and clocks (03_power_clocks.md) -/

/-- Domain states (R63). -/
inductive DState where
  | on
  | cg
  | retain
  | off
  deriving DecidableEq, Repr

/-- One switched power domain. -/
structure Dom where
  state : DState := .off
  /-- A wake is under way. -/
  waking : Bool := false
  /-- A sleep to this state is under way. -/
  sleepTo : Option DState := none
  /-- A wake waits for the sleep under way to complete. -/
  wakeAfter : Bool := false
  /-- Held ON by PWR_WAKE (R76). -/
  hold : Bool := false
  /-- An access to one of its pages was dropped since it was last ON (R53). -/
  offAcc : Bool := false
  deriving DecidableEq, Repr

/-- Who holds a timer channel (R82). -/
inductive Claimant where
  | host
  | mgmt
  | hw
  deriving DecidableEq, Repr

/-- Power, clocks and timers. -/
structure Power where
  doms : SMap Dom := []
  /-- Wake set n (R71). -/
  wsets : SMap (BitVec 1012) := []
  pllRun : BitVec 26 := 0
  pllLock : BitVec 26 := 0
  slowPresent : Bool := true
  refPresent : Bool := true
  pcieRef : Bool := true
  /-- AON runs from REFCLK divided by 763 (R60, R100). -/
  fallback : Bool := true
  /-- The next return to SLOWCLK has been made (R100). -/
  switched : Bool := false
  aonTime : BitVec 48 := 0
  deep : Bool := false
  /-- A wake source has asked D-Deep to end (R79). -/
  exitDue : Bool := false
  /-- Ticks in D-Idle (R78). -/
  idleTicks : Nat := 0
  claims : SMap (Option Claimant) := []
  /-- One-shot channels that have fired since their compare value or EN was written (R80). -/
  spent : BitVec 8 := 0
  tmrResHost : Word32 := 0
  tmrResMgmt : Word32 := 0
  warn : BitVec 3 := 0
  deriving DecidableEq, Repr

/-! ### Fuses, flash and the NV-write unit (04_reset_boot.md) -/

/-- One NV operation and its requester (R89). -/
inductive NvOp where
  | fuse (word : BitVec 7) (v : Word32)
  | cmdErase (off : Nat)
  | cmdProgram (off : Nat) (bytes : List Byte)
  | journal (page : Nat) (bytes : List Byte)
  | journalErase (off : Nat)
  | train (stack : Nat) (slot : Nat) (rec : List Byte) (next : Nat)
  deriving DecidableEq, Repr

/-- Fuses, flash, and the operation under way. -/
structure Nv where
  fuses : SMap Word32 := []
  fuseCorr : Bool := false
  sensed : Bool := false
  flash : SMap Byte := []
  flashBytes : Nat := 0
  op : Option NvOp := none
  /-- Operations that wait for the unit, oldest first (R89, R114). -/
  queue : List NvOp := []
  /-- The image that runs: 0 A, 1 B (R107), none before it is chosen. -/
  image : Option (Fin 2) := none
  confirmed : Bool := false
  /-- What the boot under way, or the last one, found of the board: recovery goes on with it (R109). -/
  env : Option BootEnv := none
  /-- Stacks whose full training waits for its record to be written (R116): by stack, the temperature at training and the settings. -/
  trainDue : SMap (List Byte) := []
  deriving DecidableEq, Repr

/-! ### Errors and logs (20_errors.md) -/

/-- A log entry (R577). -/
structure LogEntry where
  seq : BitVec 64 := 0
  time : BitVec 48 := 0
  cls : BitVec 2 := 0
  ctx : Option CtxId := none
  status : BitVec 16 := 0
  block : Byte := 0
  inst : BitVec 10 := 0
  count : BitVec 16 := 0
  info : Word64 := 0
  deriving DecidableEq, Repr

/-- The error log (R578 to R583). -/
structure Log where
  ring : SMap LogEntry := []
  queue : List LogEntry := []
  latch : LogEntry := {}
  /-- A FATAL error has been detected and its reset is due (R579); the slot of its entry once written. -/
  fatal : Bool := false
  fatalIdx : BitVec 10 := 0
  /-- The entry a GET_LOG over SMBus latched (21_host_management.md R615). -/
  smbLatch : LogEntry := {}
  deriving DecidableEq, Repr

/-! ### Cores, arrays and clusters (05_cores_arrays.md to 08_streams.md) -/

/-- What an issued instruction writes when its result lands (07_hj2_contract.md R211 to R216). A vector or
predicate result carries the mask of the bits it writes, so that the bits it leaves keep the value they have when
it lands. -/
inductive LandVal where
  | sreg (r : Fin 32) (v : Word64) (poison : Bool)
  | vreg (r : Fin 32) (mask v : BitVec 2048) (poison : Bool)
  | preg (r : Fin 8) (mask v : BitVec 64) (poison : Bool)
  /-- Bytes from a scratch address; `none` leaves a byte untouched (R164 VST). -/
  | scratch (addr : Nat) (bytes : List (Option Byte)) (poison : Bool)
  /-- One tile row: array, tile, row. -/
  | trow (arr : Fin 4) (tile : Fin 4) (row : Fin 32) (v : BitVec 1024) (poison : Bool)
  | tzero (arr : Fin 4) (tile : Fin 4)
  /-- A pass commits: integer passes carry INT32 sums, the others the exact pass values as FP32 bit patterns or, in
  FP8, as exact fixed-point integers in units of 2^-32 (R126). -/
  | commit (arr : Fin 4) (tile : Fin 4) (acc : Bool) (fmt : Fin 4) (pass : List Int) (poison : BitVec 32)
  | gang (on : Bool)
  | credits (ch : Fin 8) (n : Nat)
  deriving DecidableEq, Repr

/-- A result that has not landed: unfrozen cycle, issue order, value. -/
structure Landing where
  cyc : Nat
  seq : Nat
  val : LandVal
  deriving DecidableEq, Repr

/-- The five blocking instructions while they wait (R174), and a YIELD that passed to the scheduler. -/
inductive Wait where
  /-- `fail`: a head descriptor retired with an error during the wait (R234). -/
  | strWait (sd : Fin 32) (ch : Fin 8) (n : Nat) (fail : Bool)
  /-- `arrived`: the arrival has taken effect; the barrier's status once it has completed. -/
  | bar (sd : Fin 32) (b : Fin 64) (arrived : Bool) (done : Option (BitVec 16))
  | lock (sd : Fin 32) (n : Fin 256) (lease : Word32) (queued : Bool)
  /-- A FAB.SEND: destination, sequence, outcome once known, and whether it was cancelled and is to be reissued. -/
  | fabSend (sd : Fin 32) (dest : BitVec 12) (mseq : BitVec 48) (done : Option (BitVec 16)) (reissue : Bool)
  /-- A FAB.RECV: its descriptor (R355), and its outcome once known: status, length and source. -/
  | fabRecv (sd : Fin 32) (anySrc : Bool) (src : BitVec 12) (tag : BitVec 16) (addr cap : Nat)
      (done : Option (BitVec 16 × Nat × BitVec 12))
  | yield
  deriving DecidableEq, Repr

/-- What a core holds for the context that runs on it: exactly the save record of 18_sharing.md R532, with the
results in flight and the cycle count. -/
structure Thread where
  pc : Word64 := 0
  sregs : SMap Word64 := []
  vregs : SMap (BitVec 2048) := []
  pregs : SMap Word64 := []
  spo : BitVec 32 := 0
  vpo : BitVec 32 := 0
  ppo : BitVec 8 := 0
  /-- Floating-point flags (R183): invalid, divide by zero, overflow, underflow, inexact from bit 0. -/
  fpf : BitVec 5 := 0
  ganged : Bool := false
  /-- Tile rows, key (4 * array + tile) * 32 + row. -/
  tiles : SMap (BitVec 1024) := []
  tpo : SMap Bool := []
  /-- Unfrozen CCLK since the program began on this core (SPR 0x05). -/
  cyc : Nat := 0
  lands : List Landing := []
  seqNo : Nat := 0
  sentinel : Bool := false
  sweeps : Nat := 0
  wait : Option Wait := none
  halted : Bool := false
  deriving DecidableEq, Repr

/-- A stream descriptor (08_streams.md R223). -/
structure Desc where
  dirOut : Bool := false
  xform : BitVec 2 := 0
  gang : Bool := false
  fmt8 : Bool := false
  close : Bool := false
  hint : BitVec 2 := 0
  tensor : BitVec 16 := 0
  k : BitVec 16 := 0
  offset : BitVec 64 := 0
  length : BitVec 64 := 0
  ringBase : Word32 := 0
  slotSize : BitVec 16 := 0
  slotCount : BitVec 16 := 0
  /-- Every reserved byte and bit is 0. -/
  clean : Bool := true
  deriving DecidableEq, Repr

/-- The head descriptor's state (R224, R235). -/
inductive HeadState where
  | none
  | setup
  | data
  deriving DecidableEq, Repr

/-- One physical stream channel. -/
structure Channel where
  queue : List Desc := []
  head : HeadState := .none
  /-- The next queued descriptor has passed its setup checks (R224). -/
  nextReady : Bool := false
  ctx : Option CtxId := none
  /-- Slots the program holds (R227, R228). -/
  credits : Nat := 0
  /-- Ring index of the oldest held slot, and of the next slot the engine works. -/
  headSlot : Nat := 0
  engSlot : Nat := 0
  /-- Tensor bytes moved so far. -/
  done : Nat := 0
  poisoned : Bool := false
  overAck : Bool := false
  lastStatus : BitVec 16 := 0
  /-- The bank resolved for a weight tensor (R238): 0 A, 1 B. -/
  bank : Option Bool := none
  /-- The bank resolved for the next descriptor. -/
  nextBank : Option Bool := none
  deriving DecidableEq, Repr

/-- A token in a core's emit queue (R206). -/
structure EmitEntry where
  ctx : CtxId
  slot : Byte
  token : Word32
  draft : Fin 16
  last : Bool
  poison : Bool
  deriving DecidableEq, Repr

/-- A matrix pass in flight (R124 to R137). -/
structure Pass where
  arr : Fin 4
  tile : Fin 4
  acc : Bool
  fmt : Fin 4
  ae : Bool
  be : Bool
  k : Nat
  f : Nat
  gang : Bool
  sa : Nat
  sb : Nat
  /-- Unfrozen cycle and order of issue. -/
  cyc : Nat
  seq : Nat
  ctx : CtxId
  /-- CHK_MODE.ACTION and TOL_EXP when the pass began (R134, R137). -/
  action : BitVec 2
  tol : Nat
  /-- Feed vectors read so far. -/
  capA : List (BitVec 1024)
  capB : List (BitVec 1024)
  poison : Bool
  /-- The quadrants whose verdict stands. -/
  judged : BitVec 4
  deriving DecidableEq, Repr

/-- One core. -/
structure Core where
  ctx : Option CtxId := none
  th : Thread := {}
  parked : Bool := false
  /-- An EMIT meets a full queue (R207). -/
  emitWait : Option EmitEntry := none
  /-- Passes that wait for their retry keep the core frozen (R139). -/
  retrying : Nat := 0
  /-- An UNGANG waits for the passes in flight (R204). -/
  ungangWait : Bool := false
  scratch : SMap Byte := []
  marks : SMap Bool := []
  pstore : SMap Byte := []
  chans : SMap Channel := []
  emitq : List EmitEntry := []
  passes : List Pass := []
  /-- Fixed-latency scratch accesses not yet counted for R123: cycle and bank. -/
  banks : List (Nat × Nat) := []
  deriving DecidableEq, Repr

/-- Why an array is fenced (CLU_FENCE_CAUSE). -/
inductive FenceCause where
  | selfTest
  | threshold
  | driver
  deriving DecidableEq, Repr

/-- One array outside its tiles: fence and mismatch count (R142). -/
structure Arr where
  fenced : Option FenceCause := none
  mism : Nat := 0
  deriving DecidableEq, Repr

/-- A pass that waits for the retry array (R140): core, pass, quadrant, row and column fault record. -/
structure RetryJob where
  core : CoreId
  quad : Fin 4
  pass : Pass
  deriving DecidableEq, Repr

/-- A self-test request (R147 to R149). -/
structure SelfTest where
  slot : Fin 48
  unfence : Bool
  running : Bool
  slices : Nat
  /-- Some slice has failed. -/
  bad : Bool
  deriving DecidableEq, Repr

/-- One cluster. -/
structure Clu where
  retryQ : List RetryJob := []
  serving : Option RetryJob := none
  test : Option SelfTest := none
  deriving DecidableEq, Repr

/-! ### Contexts, barriers and locks (18_sharing.md, 08_streams.md) -/

/-- Context states (R519). -/
inductive CtxState where
  | free
  | idle
  | ready
  | running
  | preempting
  | ending
  deriving DecidableEq, Repr

/-- One placement entry of an image (R520). -/
structure Place where
  core : CoreId
  arrays : BitVec 4
  gang : Bool
  codeBase : Nat
  codeBytes : Nat
  /-- Bytes of the program-store allotment there; it begins at `codeBase` (R521). -/
  allot : Nat
  entry : Nat
  deriving DecidableEq, Repr

/-- A scratch segment. -/
structure Seg where
  core : CoreId
  base : Nat
  bytes : Nat
  deriving DecidableEq, Repr

/-- An engine that takes part in barriers. -/
inductive Engine where
  | clx
  | wpb
  | eps
  | anl (ch : Fin 32)
  | trn (j : Fin 8)
  deriving DecidableEq, Repr

/-- A barrier of a context: its cores, and the instance under way (R243 to R249). Engines take part as their
registers say. -/
structure Barrier where
  cores : List CoreId := []
  /-- Pod barrier: group ID and chips of the group; 0 chips for a barrier of this chip only. -/
  group : BitVec 16 := 0
  chips : Nat := 0
  arrived : List CoreId := []
  engArrived : List Engine := []
  /-- AON time of the first arrival of the instance. -/
  first : Option (BitVec 48) := none
  /-- Pod barrier: this chip's arrival has been sent; the release has come. -/
  sent : Bool := false
  released : Bool := false
  /-- The instance ended early with a status; the participants that it has ended for. -/
  ended : Option (BitVec 16) := none
  passed : List CoreId := []
  passedE : List Engine := []
  /-- The program of a participant has ended (R248). -/
  aborted : Bool := false
  deriving DecidableEq, Repr

/-- One context. -/
structure Ctx where
  state : CtxState := .free
  endStatus : BitVec 16 := 0
  /-- Why the program is to end, once a trap or a kill has stopped it. -/
  endWith : Option (BitVec 16) := none
  /-- CTX_CFG, CTX_CHAN, CTX_QUANTUM, CTX_LOCK_LEASE and CTX_SLOW_LIMIT as they stood at program begin (R518). -/
  cfg : Word32 := 0
  chan : Word32 := 0xFF
  quantum : Word32 := 0x7D0
  lease : Word32 := 0x8000
  slow : Word32 := 0
  place : List Place := []
  segs : List Seg := []
  bars : SMap Barrier := []
  readyAt : BitVec 48 := 0
  preemptFor : Option CtxId := none
  /-- The AON time of the request for pre-emption, and that its deadline has been served (R530). -/
  preemptAt : BitVec 48 := 0
  late : Bool := false
  /-- The command whose LOAD runs: queue and command id. -/
  loadCmd : Option (Fin 64 × Word64) := none
  /-- Save records, key core (R532). -/
  saves : SMap Thread := []
  begun : Bool := false
  seed : BitVec 128 := 0
  /-- Mask streams: block counter and owner core (16_stochastic.md R466 to R469). -/
  streams : SMap (Word64 × Option CoreId) := []
  /-- STR.WAIT cycles of the window spent while another tenant ran, and the window's Q and D (R539). -/
  wWait : Nat := 0
  wQ : Nat := 0
  wD : Nat := 0
  /-- Cores of the program that ran last. -/
  wN : Nat := 0
  deriving DecidableEq, Repr

/-- One trick lock (R533 to R537). -/
structure Lock where
  owner : Option CtxId := none
  core : CoreId := 0
  expiry : Option (BitVec 48) := none
  broken : Bool := false
  lastBreak : BitVec 3 := 0
  /-- Waiting requests, oldest first: context, core, lease. -/
  waiters : List (CtxId × CoreId × Word32) := []
  deriving DecidableEq, Repr

/-! ### Links and transport (11_link_layer.md, 12_fabric_transport.md) -/

/-- Link states (LNK_STAT.STATE). -/
inductive LnkState where
  | disabled
  | down
  | training
  | up
  | sleep
  | miswired
  | test
  deriving DecidableEq, Repr

/-- A message on an output virtual channel (R346): where its frames come from, and those that wait here. -/
structure TxMsg where
  /-- Input link and channel; none for a message of this chip. -/
  src : Option (LinkId × Fin 8)
  frames : List Frame
  /-- The SOM frame has gone out. -/
  begun : Bool
  deriving DecidableEq, Repr

/-- A message that arrives on an input virtual channel: where it goes, and what has come for this chip. -/
structure RxMsg where
  /-- Output link and channel of a forwarded unicast message. -/
  hop : Option (LinkId × Fin 8)
  /-- Some of it is for this chip. -/
  mine : Bool
  /-- Dropped by a hop timeout or cancel: the rest is discarded. -/
  dead : Bool
  bytes : List Byte
  poison : List Bool
  route : Word32
  deriving DecidableEq, Repr

/-- One link beyond its registers. -/
structure Link where
  state : LnkState := .disabled
  signal : Bool := false
  lanes : BitVec 4 := 0
  /-- Lanes that training left in the link. -/
  trained : BitVec 4 := 0
  /-- A fast retrain runs. -/
  fast : Bool := false
  /-- The last training failed; it is retried (R316). -/
  failed : Bool := false
  creditBad : Bool := false
  reversed : Bool := false
  polarity : BitVec 4 := 0
  txSeq : BitVec 16 := 0
  rxSeq : BitVec 16 := 0
  /-- Outstanding DATA frames, oldest first (R322). -/
  retry : List Frame := []
  resends : Nat := 0
  nakSent : Bool := false
  /-- Credits held for sending, counts last seen in trailers, counts returned, counts owed since the last frame. -/
  txCredit : List Nat := [0, 0, 0, 0, 0, 0, 0, 0]
  seen : List Nat := [0, 0, 0, 0, 0, 0, 0, 0]
  returned : List Nat := [0, 0, 0, 0, 0, 0, 0, 0]
  owed : Bool := false
  txq : SMap (List TxMsg) := []
  rx : SMap (Option RxMsg) := []
  /-- A width change asked for, and one agreed on (R332). -/
  askMask : Option (BitVec 4) := none
  nextMask : Option (BitVec 4) := none
  recal : Option (Fin 4) := none
  recalTime : BitVec 48 := 0
  recalTemp : Nat := 0
  sleepReq : Bool := false
  /-- The command that runs: 1 RETRAIN, 2 RECAL, 3 READD. -/
  cmd : Nat := 0
  deriving DecidableEq, Repr

/-- Who sent a held message. -/
inductive Sender where
  | core (c : CoreId) (x : CtxId)
  /-- An engine: its block type, and its own name for the message. -/
  | engine (block tag : Nat)
  | kitty (id : Nat)
  deriving DecidableEq, Repr

/-- A unicast message whose outcome is pending (R351, R352). -/
structure Held where
  msg : Message
  vc : Fin 8
  sender : Sender
  /-- It has been sent at all (R351). -/
  sent : Bool
  /-- Resends since an answer last came. -/
  tries : Nat
  norecv : Bool
  /-- Refused NO_RECV at some time (R352). -/
  refused : Bool
  first : BitVec 48
  cancelled : Bool
  deriving DecidableEq, Repr

/-- A receive window (R349). -/
structure Window where
  boot : Word32
  h : Nat
  /-- Outcomes by MSEQ. -/
  outs : SMap (Option (BitVec 16))
  /-- Sequences of messages refused without a record. -/
  seen : List Nat
  deriving DecidableEq, Repr

/-- A pod barrier at its root: chips arrived, first arrival (R246). -/
structure Pod where
  arrived : List (BitVec 12) := []
  first : Option (BitVec 48) := none
  deriving DecidableEq, Repr

/-- Transport. -/
structure Fab where
  /-- MSEQ last taken, by destination, and by 4096 + tree (R347). -/
  mseq : SMap Nat := []
  held : List Held := []
  windows : SMap (Option Window) := []
  /-- Multicast frames that wait for credits on every child link: input link and frame (R366). -/
  mcWait : List (Option LinkId × Frame) := []
  /-- Messages that frames have completed and that the transport has not taken yet. -/
  inbox : List Message := []
  /-- Pod barriers rooted here, key 64 * group ID + barrier. -/
  pods : SMap Pod := []
  deriving DecidableEq, Repr

/-! ### Receipts and the journal (19_receipts.md) -/

/-- The ten counts of the checksum summary (R547), in order. -/
structure Counts where
  arrOk : Nat := 0
  arrMismatch : Nat := 0
  arrRetryOk : Nat := 0
  arrUnchecked : Nat := 0
  swChecks : Nat := 0
  swMismatch : Nat := 0
  clxBlocks : Nat := 0
  clxMismatch : Nat := 0
  poisonRetires : Nat := 0
  tokens : Nat := 0
  deriving DecidableEq, Repr

/-- A span of steps (R549). -/
structure Span where
  slot : Fin 16
  poison : Bool
  model : BitVec 16
  version : Word64
  first : Word64
  steps : Word64
  manifest : List Byte
  deriving DecidableEq, Repr

/-- A declared region (R554). -/
structure Binding where
  out : Bool
  tensor : BitVec 16
  offset : Nat
  length : Nat
  deriving DecidableEq, Repr

/-- The job of a context (R542 to R554). -/
structure Job where
  live : Bool := false
  jobId : Word64 := 0
  rseq : Word64 := 0
  prev : List Byte := []
  began : BitVec 48 := 0
  image : List Byte := []
  inDigest : List Byte := []
  binds : List Binding := []
  counts : Counts := {}
  spans : List Span := []
  chain : List Byte := []
  anlLogs : List Byte := []
  anlRuns : Nat := 0
  /-- Blocks consumed by the context in the interval. -/
  blocks : Nat := 0
  /-- Flags that hold "in the interval" or "throughout the interval" (R551): bits 2, 9, 10, 11, 12, 14, 16, 17. -/
  det : Bool := false
  modeChanged : Bool := false
  fast : Bool := false
  sentinel : Bool := false
  partd : Bool := false
  cfgLocked : Bool := false
  split : Bool := false
  late : Bool := false
  /-- A seal that fell due while the ring was low under STRICT (R559). -/
  sealHeld : Bool := false
  /-- Steps made current whose COMMIT has not come (R550): group, slot, version, step, manifest digest. -/
  spanDue : List (Fin 128 × Fin 16 × Word64 × Word64 × List Byte) := []
  deriving DecidableEq, Repr

/-- CHK and NVJ beyond their registers. -/
structure Chk where
  jobs : SMap Job := []
  /-- The device key was compared with FUS_DEVKEY_PUB since reset, with this answer (R556). -/
  devkey : Option Bool := none
  /-- Accounting windows ended, and the AON time at which the present one began (R539, R543). -/
  windows : Nat := 0
  winAt : BitVec 48 := 0
  /-- Staged journal entries: 64 bytes each, and the receipt's ring slot of a RECEIPT (R564). -/
  staged : List (List Byte × Option Nat) := []
  nextJseq : Word64 := 1
  /-- The journal page that the next program writes, by index from 0x0085_0000. -/
  nextPage : Nat := 0
  /-- Receipts that wait to be staged, oldest first: ring slot, context, digest. -/
  jwait : List (Nat × Byte × List Byte) := []
  /-- A page was refused by the guard and waits to be resubmitted (R565). -/
  refused : Bool := false
  /-- Unjournaled drops not yet reported by a DROP entry (R561). -/
  drops : Nat := 0
  /-- JSEQ ranges held by journal pages: page, lowest, highest. -/
  pages : List (Nat × Nat × Nat) := []
  deriving DecidableEq, Repr

/-! ### Stacked memory, hint cache and pool (09_stacked_memory.md, 10_tiers_quotas.md) -/

/-- One line held by a hint-cache slice (R271 to R277). -/
structure HccLine where
  /-- Device address divided by 64. -/
  line : Nat
  data : List Byte
  dirty : Bool
  keep : Bool
  poison : Bool
  /-- Recency: the greater, the more recent. -/
  used : Nat
  deriving DecidableEq, Repr

/-- One stack and its controller (MEM_STAT, MEM_DEVICE_ID, MEM_SCRUB_POS). -/
structure Hbm where
  ready : Bool := false
  selfRefresh : Bool := false
  throttled : Bool := false
  /-- All access stopped by R265. -/
  stopped : Bool := false
  mult : Nat := 0
  temp : Nat := 0
  tempMax : Nat := 0
  gib : Nat := 0
  height : Nat := 0
  vendor : BitVec 16 := 0
  scrubPos : Nat := 0
  deriving DecidableEq, Repr

/-- Device memory with its hint cache, and the on-chip pools. -/
structure Mem where
  bytes : SMap Byte := []
  /-- Lines that hold the poison code. -/
  poison : SMap Bool := []
  /-- Key (slice * 8192 + set) * 16 + way. -/
  hcc : SMap (Option HccLine) := []
  clock : Nat := 0
  hbms : SMap Hbm := []
  /-- Slices whose flush runs. -/
  flushing : BitVec 16 := 0
  /-- Heat counters (10_tiers_quotas.md R293), key slice * 393216 + page. -/
  heat : SMap Nat := []
  /-- Pool bytes, key cluster * 12 MiB + offset, and marks by line. -/
  pool : SMap Byte := []
  poolMarks : SMap Bool := []
  deriving DecidableEq, Repr

/-- A tensor record (10_tiers_quotas.md R280 to R289). -/
structure Rec where
  /-- Tenant 0 to 63, or 64 for SYSTEM. -/
  owner : Nat
  size : Nat
  pool : Bool
  /-- Home cluster, or window under GROUPED. -/
  home : Nat
  auto : Bool
  /-- Granules (cluster * 192 + n) or pages. -/
  units : List Nat
  poison : Bool
  banked : Bool
  unitsB : List Nat
  /-- Consecutive epochs below DEMOTE_MAX, and epochs left to dwell (R295, R296). -/
  cool : Nat
  dwell : Nat
  /-- Line accesses to a pool record in the epoch (R293). -/
  hits : Nat
  deriving DecidableEq, Repr

/-- A mapping of a tensor ID (R286, R287). -/
structure Mapping where
  recN : Nat
  rw : Bool
  deriving DecidableEq, Repr

/-- An open admission (R302): granules by cluster, pages by window. -/
structure Handle where
  owner : Nat
  pool : SMap Nat
  stack : SMap Nat
  deriving DecidableEq, Repr

/-- A move asked for (R289 to R292), when, and its destination units. -/
structure Move where
  recN : Nat
  pool : Bool
  home : Nat
  hw : Bool
  dst : List Nat
  dstB : List Nat
  since : BitVec 48
  deriving DecidableEq, Repr

/-- TIER beyond its registers. -/
structure Tier where
  recs : SMap (Option Rec) := []
  /-- Key context * 4096 + tensor ID. -/
  maps : SMap (Option Mapping) := []
  /-- Pool quotas, key (owner * 16 + cluster) * 3 + class; stack quotas, key owner * 16 + window. -/
  qpool : SMap Nat := []
  qstack : SMap Nat := []
  /-- Claims by engines in classes SPEC (1) and STAGE (2), same key, and their granules. -/
  claims : SMap (List Nat) := []
  handles : SMap (Option Handle) := []
  moves : List Move := []
  moving : Option Move := none
  /-- Owner that last freed a unit, plus one: granules, then pages from 3072 on (R284). -/
  freed : SMap Nat := []
  deriving DecidableEq, Repr
/-! ### Weight publication (14_weights.md) -/

/-- Bank states (R411). -/
inductive BankState where
  | free
  | building
  | ready
  | live
  | draining
  | repair
  deriving DecidableEq, Repr

/-- A manifest in a buffer of its slot (R405). -/
structure Manif where
  buf : Nat
  bytes : List Byte
  deriving DecidableEq, Repr

/-- One bank of a model slot. -/
structure Bank where
  state : BankState := .free
  version : Word64 := 0
  mfst : Option Manif := none
  /-- Chunks verified, ascending. -/
  got : List Nat := []
  /-- A request for missing chunks has gone out (R409). -/
  asked : Bool := false
  /-- AON time of the last chunk or request of its build. -/
  since : BitVec 48 := 0
  deriving DecidableEq, Repr

/-- A manifest that arrives: length, and the parts so far by byte offset (R405). -/
structure Arriving where
  version : Word64
  len : Nat
  buf : Nat
  parts : SMap (List Byte)
  deriving DecidableEq, Repr

/-- A chunk in a staging buffer, or under copy for a repair (R407, R421). -/
structure Staged where
  version : Word64
  idx : Nat
  bytes : List Byte
  poison : Bool
  units : List Nat
  copy : Bool
  deriving DecidableEq, Repr

/-- A publication retained at the source: its version, and its list of chunk index and host address (R402). -/
structure Pub where
  version : Word64
  list : List (Nat × Nat)
  deriving DecidableEq, Repr

/-- A tensor-map entry: layer, index, record. -/
structure TmapEntry where
  layer : Nat
  index : Nat
  recN : Nat
  deriving DecidableEq, Repr

/-- One model slot. -/
structure Mdl where
  pipe : List (BitVec 12) := []
  tmap : List TmapEntry := []
  /-- Stage map of the source: first and last layer, tree. -/
  stages : List (Nat × Nat × Nat) := []
  a : Bank := {}
  b : Bank := {}
  /-- The LIVE bank is B. -/
  liveB : Bool := false
  arriving : Option Arriving := none
  /-- Manifests that wait for their signature, oldest first. -/
  checking : List Manif := []
  pend : Option Manif := none
  /-- H of R406. -/
  top : Nat := 0
  staged : List Staged := []
  /-- First stage: chips that have reported READY, by version (R415); versions withdrawn; the version last assigned. -/
  reports : SMap (List (BitVec 12)) := []
  gone : List Nat := []
  assigned : Word64 := 0
  /-- First stage: chips that hold the model (R420). -/
  holders : List (BitVec 12) := []
  /-- This chip holds the model, since when; it is OFFLINE. -/
  hold : Bool := false
  holdAt : BitVec 48 := 0
  offline : Bool := false
  /-- Poisoned records of the LIVE bank, and the time of the first report (R419, R423). -/
  bad : List Nat := []
  poisonAt : BitVec 48 := 0
  /-- A newer build abandoned for a repair, which reopens (R421, R422). -/
  shelved : Option Manif := none
  pubs : List Pub := []
  deriving DecidableEq, Repr

/-- WPB beyond its registers. -/
structure Wpb where
  mdls : SMap Mdl := []
  /-- The slot whose PUBLISH has sent everything and waits for PUB_END to leave (R401). -/
  publishing : Option (Fin 16) := none
  /-- The slot whose PUBLISH a write of WPB_CMD has started, while what it reads from host memory has not come. -/
  asked : Option (Fin 16) := none
  deriving DecidableEq, Repr

/-! ### Episodes (15_episodes.md) -/

/-- Episode states (R427). -/
inductive EpState where
  | ready
  | active
  | pausing
  | paused
  | ended
  deriving DecidableEq, Repr

/-- One episode of this home chip; its key is its table index. -/
structure Episode where
  id : Word32
  epoch : BitVec 16
  ctx : CtxId
  group : Fin 128
  state : EpState
  /-- Causes OUTSIDE, HOST, BUDGET from bit 0. -/
  causes : BitVec 3
  /-- 0 live, 1 COMPLETE, 2 CANCELLED, 3 FAILED. -/
  fin : BitVec 2
  slot : Option (Fin 256)
  tensor : BitVec 12
  off : Nat
  len : Nat
  maxLen : Nat
  last : Word32
  /-- A summary exists (R431). -/
  summary : Bool
  /-- A PAUSE waits for the next commit (R445). -/
  pauseAsk : Bool
  /-- End of the last record queued, and records not yet accepted (R458, R459). -/
  recFrom : Nat
  recs : Nat
  /-- Stages whose HUSK_DONE has not come (R447). -/
  husks : List (BitVec 12)
  deriving DecidableEq, Repr

/-- A slot of a step in flight on the home chip. -/
structure StepSlot where
  slot : Fin 256
  /-- Its episode; none once it has been cancelled. -/
  ep : Option Nat
  id : Word32
  epoch : BitVec 16
  reserve : Nat
  deriving DecidableEq, Repr

/-- A kept emission (R436). -/
structure EmitRec where
  slot : Byte
  draft : Fin 16
  token : Word32
  last : Bool
  poison : Bool
  deriving DecidableEq, Repr

/-- A step on this chip (R431 to R437). -/
structure EStep where
  group : Fin 128
  num : Word64
  version : Word64
  /-- Step block and slot table, 0x40 + 32 * 256 bytes. -/
  block : List Byte
  home : BitVec 12
  emits : List EmitRec
  poison : Bool
  deriving DecidableEq, Repr

/-- What a stage chip knows of a slot of a group: identity, LENGTH, and VERSION of its last generated token. -/
structure SlotInfo where
  id : Word32
  epoch : BitVec 16
  len : Nat
  ver : Word64
  deriving DecidableEq, Repr

/-- A Husk under way on this stage (R446): home, slot, table index. -/
structure Husk where
  home : BitVec 12
  slot : Fin 256
  index : Nat
  deriving DecidableEq, Repr

/-- One batch group. -/
structure EGroup where
  /-- Home: episodes by slot. -/
  slots : SMap (Option Nat) := []
  /-- Home: the step in flight: its number, version and slots. -/
  flight : Option (Word64 × Word64) := none
  stepSlots : List StepSlot := []
  /-- Home: stages whose STEP_DONE has come, POISON, and the kept emissions. -/
  dones : List (BitVec 12) := []
  poison : Bool := false
  emits : List EmitRec := []
  /-- Stage: slots as last seen. -/
  info : SMap (Option SlotInfo) := []
  husks : List Husk := []
  /-- Home: HUSK_DONE still to come for a Husk that a CANCEL abandoned: stage and slot. -/
  gaveUp : List (BitVec 12 × Fin 256) := []
  /-- The record mapped as tensor SPEC, and its granules (R429). -/
  spec : Option Nat := none
  specUnits : List Nat := []
  deriving DecidableEq, Repr

/-- A context's steps on this chip: the current one, and those that wait (R433, R434). -/
structure EpsCtx where
  cur : Option EStep := none
  queue : List EStep := []
  /-- EPS has arrived at the step barrier for the head of the queue. -/
  arrived : Bool := false
  deriving DecidableEq, Repr

/-- A Kitty record in the queue or outstanding (R458 to R460). -/
structure KRec where
  num : Nat
  ep : Nat
  first : Nat
  count : Nat
  reward : Word32
  final : Bool
  /-- Sent; refused KITTY_FULL and to be sent again. -/
  sent : Bool
  full : Bool
  deriving DecidableEq, Repr

/-- EPS and KIT beyond their registers. -/
structure Eps where
  eps : SMap (Option Episode) := []
  nextId : Word32 := 0
  epoch : Option (BitVec 16) := none
  groups : SMap EGroup := []
  ctxs : SMap EpsCtx := []
  recq : List KRec := []
  nextRec : Nat := 0
  /-- EPS messages that wait for a missing one (R432). -/
  held : List Message := []
  /-- The group that opened a step last (R430), and the groups with a step in flight, in the order opened (R438). -/
  lastOpen : Nat := 127
  opened : List (Fin 128) := []
  deriving DecidableEq, Repr

/-! ### Annealer (16_stochastic.md) -/

/-- A peer of a split problem. -/
structure Peer where
  chip : BitVec 12
  part : Byte
  exports : List Nat
  imports : List Nat
  deriving DecidableEq, Repr

/-- A problem in the annealer's SRAM (R476). -/
structure Prob where
  blocks : Nat
  ghosts : Nat
  part : Nat
  curve : Nat
  sweeps : Nat
  k : Nat
  beta0 : Nat
  ratio : Nat
  seed : BitVec 128
  runId : Word32
  points : List (Nat × Nat)
  fields : List Int
  dense : List Int
  sparse : List (Nat × Nat × Int)
  peers : List Peer
  deriving DecidableEq, Repr

/-- Channel states (ANL_CHn_STAT). -/
inductive AnlState where
  | idle
  | loading
  | running
  | finishing
  deriving DecidableEq, Repr

/-- One annealer channel. -/
structure AnlCh where
  state : AnlState := .idle
  /-- A run waits behind the running one (R473). -/
  waiting : Bool := false
  prob : Option Prob := none
  /-- Spins and ghosts: true is +1. -/
  spins : List Bool := []
  beta : Nat := 0
  /-- Log entries: applied sweep, source sweep, peer. -/
  log : List (Nat × Nat × Nat) := []
  /-- BOUNDARY values received and not applied: peer, source sweep, bits. -/
  inbox : List (Nat × Nat × List Bool) := []
  /-- Completions of START not yet answered by a trigger, and arrivals at DONE that wait for its next instance. -/
  trig : Nat := 0
  owed : Nat := 0
  deriving DecidableEq, Repr

/-- ANL beyond its registers. -/
structure Anl where
  chs : SMap AnlCh := []
  testPending : Bool := false
  testRunning : Bool := false
  /-- The channel that had the last turn (R482). -/
  turn : Nat := 31
  deriving DecidableEq, Repr

/-! ### Learner jobs (17_learning.md) -/

/-- Phase kinds. -/
inductive PhaseKind where
  | fwd
  | bwd
  | opt
  deriving DecidableEq, Repr

/-- A bucket of a learner job. -/
structure Bucket where
  /-- Completions of BAR in the step (R497). -/
  bars : Nat := 0
  armed : Bool := false
  /-- Its collective has not completed; a completion that TRN has not handled: status and PRESENT. -/
  running : Bool := false
  report : Option (BitVec 16 × Nat) := none
  status : BitVec 16 := 0
  present : Nat := 0
  late : Bool := false
  /-- CARRY and the oldest step it holds (R504), and what it was when the bucket was posted. -/
  carry : Option Word64 := none
  was : Option Word64 := none
  deriving DecidableEq, Repr

/-- One learner job. -/
structure TrnJob where
  /-- The bucket entries as they stood when the job was enabled, 128 bytes each (R496). -/
  entries : List (List Byte) := []
  /-- The phase that runs, and the next one: taken, and presented with TRN arrived at the phase barrier. -/
  cur : Option (PhaseKind × Nat) := none
  next : Option (PhaseKind × Nat) := none
  arrived : Bool := false
  halted : Bool := false
  haltAsk : Bool := false
  buckets : SMap Bucket := []
  kitBegin : Nat := 0
  kitEnd : Nat := 0
  kitRecs : Nat := 0
  /-- A window has been taken for the step; a FWD of the step has been presented. -/
  kitTaken : Bool := false
  stepBegun : Bool := false
  /-- A checkpoint is being written (R508). -/
  ckpt : Bool := false
  deriving DecidableEq, Repr

/-! ### Collectives (13_collectives.md) -/

/-- Who posted a collective (R374). -/
inductive Poster where
  | queue (q : Fin 64) (cid : Word64)
  | job (j : Fin 8) (b : Fin 62)
  deriving DecidableEq, Repr

/-- An arrival at the coordinator (R381): the carried fields that must agree stand in their ARRIVE bytes. -/
structure Arrival where
  rank : Nat
  fields : List Byte
  cap : Nat
  status : BitVec 16
  counts : List Nat
  deriving DecidableEq, Repr

/-- A coordinator's arrival phase. -/
structure Round where
  grp : Fin 64
  cseq : Word32
  first : BitVec 48
  arrivals : List Arrival
  /-- DEADLINE has passed (R502). -/
  expired : Bool
  /-- Ranks that GO named; none while it has not been sent. -/
  gone : Option (List Nat)
  /-- It was aborted: status and named rank. -/
  aborted : Option (BitVec 16 × Nat)
  deriving DecidableEq, Repr

/-- One exchange with a rank: blocks sent and received; received blocks are combined with this rank's, or stored;
blocks of the destination rather than of the work area; and the pieces received, by byte offset. -/
structure Exch where
  peer : Nat
  send : List Nat
  recv : List Nat
  combine : Bool
  gather : Bool
  got : SMap (List Byte × List Bool) := []
  deriving DecidableEq, Repr

/-- A stage of a data phase: finished blocks that this rank owns and compares first, then exchanges at once. -/
structure CollStage where
  own : List Nat
  exs : List Exch
  started : Bool := false
  deriving DecidableEq, Repr

/-- Phases of a collective on this chip. -/
inductive CollPhase where
  | arriving
  | gone
  | data
  deriving DecidableEq, Repr

/-- A collective posted on this chip. -/
structure Coll where
  grp : Fin 64
  cseq : Word32
  desc : List Byte
  /-- Straggler mode and DEADLINE (R501). -/
  mode : Nat
  deadline : Nat
  by_ : Poster
  at_ : BitVec 48
  rank : Nat
  n : Nat
  phase : CollPhase := .arriving
  /-- Counts of a variable form: its own, and those it is to receive. -/
  counts : List Nat := []
  rcounts : List Nat := []
  /-- Ranks that take part in the data phase. -/
  present : List Nat := []
  /-- Blocks in the source and in the destination: first element and elements. -/
  blocks : List (Nat × Nat) := []
  dblocks : List (Nat × Nat) := []
  plan : List CollStage := []
  /-- Bytes sent to and received from each rank so far. -/
  txAt : SMap Nat := []
  rxAt : SMap Nat := []
  /-- Checksums of this rank's partials: block, chunk of 1,024 elements, sum, magnitude (R389). -/
  cks : List (Nat × Nat × Nat × Nat) := []
  /-- A poisoned line of the destination has been written (R388). -/
  poison : Bool := false
  /-- LATE_GO has come (R503). -/
  late : Bool := false
  /-- Late ranks that this rank is to serve at its end. -/
  serve : List Nat := []
  deriving DecidableEq, Repr

/-- CLX beyond its registers. -/
structure Clx where
  colls : List Coll := []
  rounds : List Round := []
  /-- Highest CSEQ posted plus one, by group. -/
  hist : SMap Nat := []
  /-- LOST ranks by group, ascending (R506). -/
  lost : SMap (List Nat) := []
  /-- The last straggler-mode collective that has ended here, by group: its destination serves late ranks. -/
  done : SMap (Option Coll) := []
  deriving DecidableEq, Repr
/-! ### Command queues and management (21_host_management.md, 22_electrical.md) -/

/-- A fetched queue entry (R599 to R603). -/
structure QEntry where
  cid : Word64
  op : Byte
  irq : Bool
  idx : Word32
  /-- IMAGE_ADDR of a LOAD. -/
  image : Word64
  /-- The descriptor of a COLLECTIVE. -/
  desc : List Byte
  deriving DecidableEq, Repr

/-- A completion as the window keeps it: status, OP, RESULT (R606). -/
structure QDone where
  status : BitVec 16
  op : Byte
  result : List Byte
  deriving DecidableEq, Repr

/-- One command queue. -/
structure Que where
  /-- Entries fetched and not begun, oldest first. -/
  fetched : List QEntry := []
  /-- Entries begun and not completed. -/
  running : List QEntry := []
  /-- Duplicates that wait for a running original (R607). -/
  dups : List QEntry := []
  /-- CMD_ID and completion of the last 4,096 entries that were no duplicates, oldest first (R606). -/
  window : List (Word64 × Option QDone) := []
  deriving DecidableEq, Repr

/-- Management, pins and the die's thermal state. -/
structure Mgt where
  d3 : Bool := false
  /-- A test instruction is in the JTAG instruction register (R625). -/
  jtag : Bool := false
  gpioHost : Word32 := 0
  gpioMgmt : Word32 := 0
  /-- FATAL_OUT is held low after a FATAL reset (R620). -/
  fatalPin : Bool := false
  /-- The rail whose trim is under way (R618). -/
  trim : Option (Fin 8) := none
  /-- Rails whose VOUT_MODE is not linear (R617). -/
  badRails : BitVec 8 := 0
  /-- The last sample of TEL_TJ was 115 or more; THERMTRIP# is driven (R637). -/
  hot : Bool := false
  tripped : Bool := false
  deriving DecidableEq, Repr


/-- What the block sends out, oldest first: the model's own record of its outputs (DESIGN CHOICE, log entry 7). -/
inductive Output where
  | msix (vec : Byte)
  | msg (m : Message) (vc : Fin 8)
  | frame (l : LinkId) (f : Frame)
  | hostWrite (addr : Nat) (bytes : List Byte)
  | read (poisoned : Bool) (bytes : List Byte)
  | smbus (bytes : List Byte)
  | smbusNack
  | thermtrip
  | podSync
  | timerOut (ch : Fin 8)
  | fatalOut (on : Bool)
  | pmbusWrite (rail : Fin 8) (mv : BitVec 16)
  | link (l : LinkId) (what : String)
  deriving DecidableEq, Repr

/-- The HJ2. -/
structure State where
  /-- Commands that wait, first in, first out. -/
  pending : List Instr := []
  out : List Output := []
  /-- Outputs by DMA that wait for Bus Master Enable (21_host_management.md R597). -/
  dmaWait : List Output := []
  /-- The counter of free values (DESIGN CHOICE, log entry 5). -/
  free : Nat := 0
  /-- What the last register read of each requester returned. -/
  rdHost : Word32 := 0
  rdMgmt : Word32 := 0
  /-- Messages for sleeping engines (R73), oldest first, with the engine's domain. -/
  deferred : List (Nat × Message) := []
  /-- Registers beyond the headers, by BAR0 offset; the window of selection n of a banked register at
  0x400_0000 * (n + 1) above. -/
  regs : SMap Word32 := []
  pages : SMap Page := []
  pw : Power := {}
  nv : Nv := {}
  log : Log := {}
  msixMask : BitVec 256 := BitVec.allOnes 256
  msixPend : BitVec 256 := 0
  cores : SMap Core := []
  arrs : SMap Arr := []
  clus : SMap Clu := []
  ctxs : SMap Ctx := []
  locks : SMap Lock := []
  chk : Chk := {}
  links : SMap Link := []
  fab : Fab := {}
  mem : Mem := {}
  tier : Tier := {}
  wpb : Wpb := {}
  eps : Eps := {}
  anl : Anl := {}
  trn : SMap TrnJob := []
  clx : Clx := {}
  ques : SMap Que := []
  mgt : Mgt := {}
  deriving DecidableEq, Repr

/-- The machine right after the release of a power-on reset, before boot (R95, R100). -/
def State.reset : State := {}

end Sys2Proof.Machine
end

