-- ==== Sys2Proof/Machine/Ops.lean ====
section
/-! DEFINITION. The named operations that every family shares: registers and page headers
(02_register_pages.md), events and MSI-X and the error log (20_errors.md), free values, outputs, power domains
(03_power_clocks.md), cores and contexts. -/

namespace Sys2Proof.Machine

/-! ### Pages of BAR0 (R27) -/

/-- Page indexes of the single pages. -/
abbrev pDIR : Nat := 0x00
abbrev pAON : Nat := 0x01
abbrev pPWR : Nat := 0x02
abbrev pCLK : Nat := 0x03
abbrev pFUS : Nat := 0x04
abbrev pNVJ : Nat := 0x05
abbrev pHIF : Nat := 0x06
abbrev pMGT : Nat := 0x07
abbrev pERR : Nat := 0x08
abbrev pTEL : Nat := 0x09
abbrev pDBG : Nat := 0x0A
abbrev pCHK : Nat := 0x0B
abbrev pTIER : Nat := 0x0C
abbrev pFAB : Nat := 0x0D
abbrev pCLX : Nat := 0x0E
abbrev pWPB : Nat := 0x0F
abbrev pSIG : Nat := 0x10
abbrev pEPS : Nat := 0x11
abbrev pKIT : Nat := 0x12
abbrev pANL : Nat := 0x13
abbrev pTRN : Nat := 0x14
abbrev pSCH : Nat := 0x15
/-- Page indexes of the instance pages. -/
abbrev pQUE (q : Nat) : Nat := 0x40 + q
abbrev pCTX (x : Nat) : Nat := 0x80 + x
abbrev pCLU (c : Nat) : Nat := 0xC0 + c
abbrev pMEM (k : Nat) : Nat := 0xD0 + k
abbrev pHCC (h : Nat) : Nat := 0xE0 + h
abbrev pLNK (l : Nat) : Nat := 0xF0 + l
abbrev pCORE (c : Nat) : Nat := 0x100 + c
abbrev pARR (a : Nat) : Nat := 0x400 + a

/-- Block type code and instance of a populated page (R27); none for an unpopulated index. -/
def pageInfo (p : Nat) : Option (Nat × Nat) :=
  if p ≤ 0x15 then some (p, 0)
  else if 0x40 ≤ p ∧ p ≤ 0x7F then some (0x16, p - 0x40)
  else if 0x80 ≤ p ∧ p ≤ 0xBF then some (0x17, p - 0x80)
  else if 0xC0 ≤ p ∧ p ≤ 0xCF then some (0x18, p - 0xC0)
  else if 0xD0 ≤ p ∧ p ≤ 0xD7 then some (0x19, p - 0xD0)
  else if 0xE0 ≤ p ∧ p ≤ 0xEF then some (0x1A, p - 0xE0)
  else if 0xF0 ≤ p ∧ p ≤ 0xFF then some (0x1B, p - 0xF0)
  else if 0x100 ≤ p ∧ p ≤ 0x1BF then some (0x1C, p - 0x100)
  else if 0x400 ≤ p ∧ p ≤ 0x6FF then some (0x1D, p - 0x400)
  else none

/-- Block type code of page `p`; 0 at an unpopulated index. -/
def blockType (p : Nat) : Nat := match pageInfo p with | some (t, _) => t | none => 0

/-- Domain numbers of R62. -/
abbrev dCore (c : Nat) : Nat := 768 + c
abbrev dClu (k : Nat) : Nat := 960 + k
abbrev dMem (k : Nat) : Nat := 976 + k
abbrev dPhy (k : Nat) : Nat := 984 + k
abbrev dLnk (l : Nat) : Nat := 992 + l
abbrev dANL : Nat := 1008
abbrev dCLX : Nat := 1009
abbrev dWPB : Nat := 1010
abbrev dEPS : Nat := 1011

/-- The switched domain of a page; none for a control-plane page (R27). -/
def pageDomain (p : Nat) : Option Nat :=
  if p = pCLX then some dCLX
  else if p = pWPB ∨ p = pSIG then some dWPB
  else if p = pEPS then some dEPS
  else if p = pANL then some dANL
  else if 0xC0 ≤ p ∧ p ≤ 0xCF then some (dClu (p - 0xC0))
  else if 0xD0 ≤ p ∧ p ≤ 0xD7 then some (dMem (p - 0xD0))
  else if 0xE0 ≤ p ∧ p ≤ 0xEF then some (dMem ((p - 0xE0) / 2))
  else if 0xF0 ≤ p ∧ p ≤ 0xFF then some (dLnk (p - 0xF0))
  else if 0x100 ≤ p ∧ p ≤ 0x1BF then some (dCore (p - 0x100))
  else if 0x400 ≤ p ∧ p ≤ 0x6FF then some (p - 0x400)
  else none

/-- The pages of a switched domain. -/
def domainPages (d : Nat) : List Nat :=
  if d < 768 then [pARR d]
  else if d < 960 then [pCORE (d - 768)]
  else if d < 976 then [pCLU (d - 960)]
  else if d < 984 then [pMEM (d - 976), pHCC (2 * (d - 976)), pHCC (2 * (d - 976) + 1)]
  else if d < 992 then []
  else if d < 1008 then [pLNK (d - 992)]
  else if d = dANL then [pANL]
  else if d = dCLX then [pCLX]
  else if d = dWPB then [pWPB, pSIG]
  else if d = dEPS then [pEPS]
  else []

/-! ### Registers -/

/-- The reset value of the register at page `p`, offset `o`. -/
def regReset (p o : Nat) : Word32 :=
  match pageInfo p with
  | none => 0
  | some (bt, _) => match regRow bt o with
    | none => 0
    | some r => BitVec.ofNat 32 r.reset

/-- The stored value of the register at page `p`, offset `o`. -/
def State.reg (s : State) (p o : Nat) : Word32 := sget (regReset p o) s.regs (p * 4096 + o)

/-- Store a register's value. -/
def State.setReg (s : State) (p o : Nat) (v : Word32) : State :=
  { s with regs := sset (regReset p o) s.regs (p * 4096 + o) v }

/-- The key of the window of selection `n` of a banked register (EPS_GSEL, EPS_TSEL). -/
def bankKey (n p o : Nat) : Nat := (16384 * (n + 1) + p) * 4096 + o

/-- The value in the window of selection `n` of a banked register. -/
def State.breg (s : State) (n p o : Nat) : Word32 := sget (regReset p o) s.regs (bankKey n p o)

/-- Store a banked register's value. -/
def State.setBreg (s : State) (n p o : Nat) (v : Word32) : State :=
  { s with regs := sset (regReset p o) s.regs (bankKey n p o) v }

/-- A 64-bit pair, low word at `o` (R33). -/
def State.reg64 (s : State) (p o : Nat) : Word64 := s.reg p (o + 4) ++ s.reg p o

/-- Store a 64-bit pair. -/
def State.setReg64 (s : State) (p o : Nat) (v : Word64) : State :=
  (s.setReg p o (v.setWidth 32)).setReg p (o + 4) (v.extractLsb' 32 32)

/-- Add `n` to a 64-bit counter, modulo 2^64 (R589). -/
def State.inc (s : State) (p o : Nat) (n : Nat := 1) : State :=
  s.setReg64 p o (s.reg64 p o + BitVec.ofNat 64 n)

/-- A bit field of a word. -/
def fld {n : Nat} (w : BitVec n) (lo len : Nat) : Nat := w.toNat / 2 ^ lo % 2 ^ len

/-- One bit of a word. -/
def bit {n : Nat} (w : BitVec n) (i : Nat) : Bool := w.getLsbD i

/-- A word with the given field replaced. -/
def putFld (w : Word32) (lo len v : Nat) : Word32 :=
  let m : Word32 := BitVec.ofNat 32 ((2 ^ len - 1) * 2 ^ lo)
  (w &&& ~~~m) ||| (BitVec.ofNat 32 (v % 2 ^ len * 2 ^ lo))

/-- A word with one bit set or cleared. -/
def setBit {n : Nat} (w : BitVec n) (i : Nat) (b : Bool) : BitVec n :=
  if b then w ||| (1#n <<< i) else w &&& ~~~(1#n <<< i)

/-- A bit as a number. -/
def bnat (b : Bool) : Nat := if b then 1 else 0

/-- A 32-bit counter that saturates at `max`. -/
def satAdd (w : Word32) (n max : Nat) : Word32 := BitVec.ofNat 32 (min (w.toNat + n) max)

/-! ### Bytes -/

/-- The little-endian number of some bytes (R7). -/
def leNat : List Byte → Nat
  | [] => 0
  | b :: bs => b.toNat + 256 * leNat bs

/-- The `n` little-endian bytes of a number. -/
def leBytes : Nat → Nat → List Byte
  | 0, _ => []
  | n + 1, v => BitVec.ofNat 8 v :: leBytes n (v / 256)

/-- A field of a byte string, little-endian. -/
def lef (bs : List Byte) (off n : Nat) : Nat := leNat ((bs.drop off).take n)

/-- Some bytes, 0 where the list is short. -/
def slice (bs : List Byte) (off n : Nat) : List Byte :=
  let t := (bs.drop off).take n
  t ++ List.replicate (n - t.length) 0

/-! ### Free values and outputs -/

/-- The next free value (DESIGN CHOICE, log entry 5). -/
def State.freeVal (s : State) : Nat := Config.freeNat s.free

/-- The next free value has been used. -/
def State.usedFree (s : State) : State := { s with free := s.free + 1 }

/-- Send an output. -/
def State.emitOut (s : State) (o : Output) : State := { s with out := s.out ++ [o] }

/-- Is Bus Master Enable set (HIF_LINK_STAT bit 12)? -/
def State.busMaster (s : State) : Bool := bit (s.reg pHIF 0x800) 12

/-- May the HJ2 send by DMA: Bus Master Enable set, and not in D3hot (R597, R598)? -/
def State.dmaOn (s : State) : Bool := s.busMaster && !s.mgt.d3

/-- Send an output by DMA: it waits while it may not go (R597). -/
def State.dmaOut (s : State) (o : Output) : State :=
  if s.dmaOn then s.emitOut o else { s with dmaWait := s.dmaWait ++ [o] }

/-- Signal an MSI-X vector: its message is sent, or its pending bit set while it is masked (R586). -/
def State.signalVec (s : State) (v : Byte) : State :=
  if s.msixMask.getLsbD v.toNat then { s with msixPend := s.msixPend ||| (1 <<< v.toNat) }
  else (s.inc pHIF 0xF38).dmaOut (.msix v)

/-! ### Page headers and events (R34 to R38, R584) -/

/-- The header of a page. -/
def State.page (s : State) (p : Nat) : Page := sget {} s.pages p

/-- Change a page's header; a page whose event rises to pending signals its block type's vector (R38, R584). -/
def State.modPage (s : State) (p : Nat) (f : Page → Page) : State :=
  let a := s.page p
  let b := f a
  let s' := { s with pages := sset {} s.pages p b }
  if (a.evt &&& a.evtEn) = 0 ∧ (b.evt &&& b.evtEn) ≠ 0 then
    let t := blockType p
    s'.signalVec (BitVec.ofNat 8 (fld (s'.reg pERR (0x110 + 4 * (t / 4))) (8 * (t % 4)) 8))
  else s'

/-- Raise event bit `b` of a page (DESIGN CHOICE, log entry 79). -/
def State.raise (s : State) (p b : Nat) : State :=
  s.modPage p (fun g => { g with evt := g.evt ||| (1 <<< b) })

/-- PG_CTL.EN as it reads: fixed at 1 on some pages. -/
def State.pgEn (s : State) (p : Nat) : Bool :=
  if p = pDIR ∨ p = pAON ∨ p = pPWR ∨ p = pCLK ∨ p = pFUS ∨ p = pHIF ∨ p = pMGT ∨ p = pERR then true
  else (s.page p).en

/-- Record a register violation in its page (R34, R39, R40). -/
def State.violation (s : State) (r : Requester) (p o : Nat) (size write : Bool) : State :=
  s.modPage p (fun g => { g with
    woViol := g.woViol || !size
    sizeErr := g.sizeErr || size
    evt := g.evt ||| (if size then 2 else 1)
    errAddr := if bit g.errAddr 31 then g.errAddr
      else BitVec.ofNat 32 (o % 4096 + bnat size * 2 ^ 12 + (if r = .mgmt then 2 ^ 13 else 0)
        + bnat write * 2 ^ 14 + 2 ^ 31)
    violCnt := if g.violCnt = 0xFFFF then g.violCnt else g.violCnt + 1 })

/-! ### The error log (R570 to R581) -/

/-- Error classes (R570). -/
abbrev cCORRECTED : BitVec 2 := 0
abbrev cCONTAINED : BitVec 2 := 1
abbrev cPOISONED : BitVec 2 := 2
abbrev cFATAL : BitVec 2 := 3

/-- A block detects an error: it is counted, and its entry queued, a FATAL one ahead of every other (R571, R579). -/
def State.detect (s : State) (cls : BitVec 2) (status : BitVec 16) (block inst : Nat) (ctx : Option CtxId)
    (info : Nat) : State :=
  let s := s.inc pERR (0xF00 + 8 * cls.toNat)
  let e : LogEntry := { time := s.pw.aonTime, cls := cls, ctx := ctx, status := status,
                        block := BitVec.ofNat 8 block, inst := BitVec.ofNat 10 inst, count := 1,
                        info := BitVec.ofNat 64 info }
  if cls = cFATAL then
    { s with log := { s.log with
        queue := s.log.queue.takeWhile (fun x => x.cls == cFATAL) ++ e ::
          s.log.queue.dropWhile (fun x => x.cls == cFATAL)
        fatal := true } }
  else if s.log.queue.length < 64 then { s with log := { s.log with queue := s.log.queue ++ [e] } }
  else
    let v := s.reg pAON 0xF18
    if v = 0xFFFFFFFF then s.setReg pAON 0xF1C 1
    else let s := s.setReg pAON 0xF18 (v + 1)
         if v + 1 = 0xFFFFFFFF then s.setReg pAON 0xF1C 1 else s

/-- An error whose INFO the spec leaves open: the value is free (DESIGN CHOICE, log entry 5)
(DEDUCED, log entry 84). -/
def State.detectOpen (s : State) (cls : BitVec 2) (status : BitVec 16) (block inst : Nat) (ctx : Option CtxId) :
    State :=
  let v := s.freeVal; let s := s.usedFree
  s.detect cls status block inst ctx v

/-! ### Power domains (R62 to R76) -/

/-- The state of a domain. -/
def State.dom (s : State) (d : Nat) : Dom := sget {} s.pw.doms d

/-- Change a domain. -/
def State.modDom (s : State) (d : Nat) (f : Dom → Dom) : State :=
  { s with pw := { s.pw with doms := smod {} s.pw.doms d f } }

/-- Does the domain answer accesses: ON or CLOCK-GATED (R51)? -/
def State.domLive (s : State) (d : Nat) : Bool :=
  match (s.dom d).state with
  | .on => true
  | .cg => true
  | _ => false

/-- Is the domain ON? -/
def State.domOn (s : State) (d : Nat) : Bool := (s.dom d).state == .on

/-- Is a page's block powered: control plane, or its domain answers? -/
def State.pageLive (s : State) (p : Nat) : Bool :=
  match pageDomain p with
  | none => true
  | some d => s.domLive d

/-- The parents of a domain, outermost first (R66). -/
def domParents (d : Nat) : List Nat :=
  if d < 768 then [dClu (d / 48), dCore (d / 4)]
  else if d < 960 then [dClu ((d - 768) / 12)]
  else if 976 ≤ d ∧ d < 984 then [dPhy (d - 976)]
  else []

/-- The children of a domain (R66). -/
def domChildren (d : Nat) : List Nat :=
  if 768 ≤ d ∧ d < 960 then (List.range 4).map (fun i => 4 * (d - 768) + i)
  else if 960 ≤ d ∧ d < 976 then (List.range 12).map (fun i => dCore (12 * (d - 960) + i))
  else if 984 ≤ d ∧ d < 992 then [dMem (d - 984)]
  else []

/-- The voted value of a fuse word (R117). -/
def State.fuse (s : State) (w : Nat) : Word32 := sget 0 s.nv.fuses w

/-- Is an array fused off (R117)? -/
def State.fusedOff (s : State) (a : Nat) : Bool := (s.fuse (a / 32)).getLsbD (a % 32)

/-- An array's fence and mismatch count. -/
def State.arr (s : State) (a : Nat) : Arr := sget {} s.arrs a

/-- Is an array fenced (R142)? -/
def State.isFenced (s : State) (a : Nat) : Bool := (s.arr a).fenced.isSome

/-- A wake request for one domain: a sleep under way is abandoned before isolation and completed after it, which
of the two being free (03_power_clocks.md, When things collide; DESIGN CHOICE, log entry 8). -/
def State.wakeOne (s : State) (d : Nat) : State :=
  if 1012 ≤ d then s
  else if d < 768 ∧ s.fusedOff d then s
  else
    let g := s.dom d
    if g.sleepTo.isSome then
      let v := s.freeVal; let s := s.usedFree
      if v % 2 = 0 then s.modDom d (fun g => { g with sleepTo := none, state := .on })
      else s.modDom d (fun g => { g with wakeAfter := true })
    else if g.state = .on ∨ g.waking then s
    else
      let s := { (s.modDom d (fun g => { g with waking := true })) with }
      let s := { s with pw := { s.pw with exitDue := s.pw.deep } }
      if 768 ≤ d ∧ d < 960 ∧ g.state = .off ∧ !s.pw.pllRun.getLsbD ((d - 768) / 12) then
        ({ s with pw := { s.pw with pllRun := s.pw.pllRun ||| (1 <<< ((d - 768) / 12)) } }).inc pCLK 0xF08
      else s

/-- A wake request: parents first (R66, R72); nothing for a fused-off or fenced array (R75, R143). -/
def State.wakeDom (s : State) (d : Nat) : State :=
  if d < 768 ∧ (s.fusedOff d ∨ s.isFenced d) then s
  else (domParents d ++ [d]).foldl (fun s e => s.wakeOne e) s

/-- A wake by an internal agent (R72, last row): a fenced array may be powered for its self-test (R145). -/
def State.wakeAgent (s : State) (d : Nat) : State :=
  if d < 768 ∧ s.fusedOff d then s
  else (domParents d ++ [d]).foldl (fun s e => s.wakeOne e) s

/-- The domains of a mask, in ascending order. -/
def maskList (n : Nat) (m : BitVec n) : List Nat := (List.range n).filter (fun i => m.getLsbD i)

/-- Wake every domain of a wake set (R71, R72). -/
def State.wakeSet (s : State) (n : Nat) : State :=
  (maskList 1012 (sget 0 s.pw.wsets n)).foldl (fun s d => s.wakeDom d) s

/-- An event for an engine: it is served while its domain is ON; otherwise the domain wakes, and the event is served
when it comes again with the domain ON (R72, R73) (DEDUCED, log entry 126). -/
def State.engineEvent (s : State) (d : Nat) (f : State → State) : State := if s.domOn d then f s else s.wakeDom d

/-- A message for an engine: it is taken while its domain is ON; otherwise the domain wakes, and the message waits for
it (R72, R73). -/
def State.engineMsg (s : State) (d : Nat) (m : Message) (f : State → State) : State :=
  if s.domOn d then f s
  else let s := s.wakeDom d
       { s with deferred := s.deferred ++ [(d, m)] }

/-! ### Cores and contexts -/

/-- A core. -/
def State.core (s : State) (c : Nat) : Core := sget {} s.cores c

/-- Replace a core. -/
def State.setCore (s : State) (c : Nat) (k : Core) : State := { s with cores := sset {} s.cores c k }

/-- Change a core. -/
def State.modCore (s : State) (c : Nat) (f : Core → Core) : State := s.setCore c (f (s.core c))

/-- A context. -/
def State.ctx (s : State) (x : Nat) : Ctx := sget {} s.ctxs x

/-- Replace a context. -/
def State.setCtx (s : State) (x : Nat) (k : Ctx) : State := { s with ctxs := sset {} s.ctxs x k }

/-- Change a context. -/
def State.modCtx (s : State) (x : Nat) (f : Ctx → Ctx) : State := s.setCtx x (f (s.ctx x))

/-- A cluster. -/
def State.clu (s : State) (k : Nat) : Clu := sget {} s.clus k

/-- Change a cluster. -/
def State.modClu (s : State) (k : Nat) (f : Clu → Clu) : State := { s with clus := smod {} s.clus k f }

/-- A channel of a core. -/
def Core.chan (k : Core) (ch : Nat) : Channel := sget {} k.chans ch

/-- Change a channel. -/
def Core.modChan (k : Core) (ch : Nat) (f : Channel → Channel) : Core :=
  { k with chans := smod {} k.chans ch f }

/-- The job of a context. -/
def State.job (s : State) (x : Nat) : Job := sget {} s.chk.jobs x

/-- Change the job of a context. -/
def State.modJob (s : State) (x : Nat) (f : Job → Job) : State :=
  { s with chk := { s.chk with jobs := smod {} s.chk.jobs x f } }

/-- Change the counts of a context's job (R544, R548). -/
def State.modCounts (s : State) (x : Nat) (f : Counts → Counts) : State :=
  s.modJob x (fun j => if j.live then { j with counts := f j.counts } else j)

/-- The tenant of a context as its running program has it (R518). -/
def Ctx.tenant (x : Ctx) : Nat := fld x.cfg 0 6

/-- CHK_MODE.ACTION: 0 LOG, 1 RETRY, 2 HALT. -/
def State.action (s : State) : BitVec 2 := BitVec.ofNat 2 (fld (s.reg pCHK 0x100) 0 2)

/-- CHK_MODE.TOL_EXP clamped to 6 to 23 (R134). -/
def State.tolExp (s : State) : Nat := min 23 (max 6 (fld (s.reg pCHK 0x100) 8 5))

/-- The outcome of an effect that always happens. -/
abbrev ok (s : State) : Host.Outcome State Fault Refusal := .next s

end Sys2Proof.Machine
end

