-- ==== Sys2Proof/Machine/Hash.lean ====
section
/-! DEFINITION. The digests, codes and signatures that the spec names by their standards: SHA-256, the CRC-32 of
04_reset_boot.md R113, and Ed25519 (19_receipts.md R555, 14_weights.md, 04_reset_boot.md R106) with its SHA-512. -/

namespace Sys2Proof.Machine

/-! ### SHA-2 -/

/-- Round constants of SHA-256. -/
def sha256K : List Nat :=
    [0x428A2F98, 0x71374491, 0xB5C0FBCF, 0xE9B5DBA5, 0x3956C25B, 0x59F111F1, 0x923F82A4, 0xAB1C5ED5]
    ++ [0xD807AA98, 0x12835B01, 0x243185BE, 0x550C7DC3, 0x72BE5D74, 0x80DEB1FE, 0x9BDC06A7, 0xC19BF174]
    ++ [0xE49B69C1, 0xEFBE4786, 0xFC19DC6, 0x240CA1CC, 0x2DE92C6F, 0x4A7484AA, 0x5CB0A9DC, 0x76F988DA]
    ++ [0x983E5152, 0xA831C66D, 0xB00327C8, 0xBF597FC7, 0xC6E00BF3, 0xD5A79147, 0x6CA6351, 0x14292967]
    ++ [0x27B70A85, 0x2E1B2138, 0x4D2C6DFC, 0x53380D13, 0x650A7354, 0x766A0ABB, 0x81C2C92E, 0x92722C85]
    ++ [0xA2BFE8A1, 0xA81A664B, 0xC24B8B70, 0xC76C51A3, 0xD192E819, 0xD6990624, 0xF40E3585, 0x106AA070]
    ++ [0x19A4C116, 0x1E376C08, 0x2748774C, 0x34B0BCB5, 0x391C0CB3, 0x4ED8AA4A, 0x5B9CCA4F, 0x682E6FF3]
    ++ [0x748F82EE, 0x78A5636F, 0x84C87814, 0x8CC70208, 0x90BEFFFA, 0xA4506CEB, 0xBEF9A3F7, 0xC67178F2]

/-- Initial hash value of SHA-256. -/
def sha256H : List Nat :=
    [0x6A09E667, 0xBB67AE85, 0x3C6EF372, 0xA54FF53A, 0x510E527F, 0x9B05688C, 0x1F83D9AB, 0x5BE0CD19]

/-- Round constants of SHA-512. -/
def sha512K : List Nat :=
    [0x428A2F98D728AE22, 0x7137449123EF65CD, 0xB5C0FBCFEC4D3B2F, 0xE9B5DBA58189DBBC, 0x3956C25BF348B538, 0x59F111F1B605D019, 0x923F82A4AF194F9B, 0xAB1C5ED5DA6D8118]
    ++ [0xD807AA98A3030242, 0x12835B0145706FBE, 0x243185BE4EE4B28C, 0x550C7DC3D5FFB4E2, 0x72BE5D74F27B896F, 0x80DEB1FE3B1696B1, 0x9BDC06A725C71235, 0xC19BF174CF692694]
    ++ [0xE49B69C19EF14AD2, 0xEFBE4786384F25E3, 0xFC19DC68B8CD5B5, 0x240CA1CC77AC9C65, 0x2DE92C6F592B0275, 0x4A7484AA6EA6E483, 0x5CB0A9DCBD41FBD4, 0x76F988DA831153B5]
    ++ [0x983E5152EE66DFAB, 0xA831C66D2DB43210, 0xB00327C898FB213F, 0xBF597FC7BEEF0EE4, 0xC6E00BF33DA88FC2, 0xD5A79147930AA725, 0x6CA6351E003826F, 0x142929670A0E6E70]
    ++ [0x27B70A8546D22FFC, 0x2E1B21385C26C926, 0x4D2C6DFC5AC42AED, 0x53380D139D95B3DF, 0x650A73548BAF63DE, 0x766A0ABB3C77B2A8, 0x81C2C92E47EDAEE6, 0x92722C851482353B]
    ++ [0xA2BFE8A14CF10364, 0xA81A664BBC423001, 0xC24B8B70D0F89791, 0xC76C51A30654BE30, 0xD192E819D6EF5218, 0xD69906245565A910, 0xF40E35855771202A, 0x106AA07032BBD1B8]
    ++ [0x19A4C116B8D2D0C8, 0x1E376C085141AB53, 0x2748774CDF8EEB99, 0x34B0BCB5E19B48A8, 0x391C0CB3C5C95A63, 0x4ED8AA4AE3418ACB, 0x5B9CCA4F7763E373, 0x682E6FF3D6B2B8A3]
    ++ [0x748F82EE5DEFB2FC, 0x78A5636F43172F60, 0x84C87814A1F0AB72, 0x8CC702081A6439EC, 0x90BEFFFA23631E28, 0xA4506CEBDE82BDE9, 0xBEF9A3F7B2C67915, 0xC67178F2E372532B]
    ++ [0xCA273ECEEA26619C, 0xD186B8C721C0C207, 0xEADA7DD6CDE0EB1E, 0xF57D4F7FEE6ED178, 0x6F067AA72176FBA, 0xA637DC5A2C898A6, 0x113F9804BEF90DAE, 0x1B710B35131C471B]
    ++ [0x28DB77F523047D84, 0x32CAAB7B40C72493, 0x3C9EBE0A15C9BEBC, 0x431D67C49C100D4C, 0x4CC5D4BECB3E42B6, 0x597F299CFC657E2A, 0x5FCB6FAB3AD6FAEC, 0x6C44198C4A475817]

/-- Initial hash value of SHA-512. -/
def sha512H : List Nat :=
    [0x6A09E667F3BCC908, 0xBB67AE8584CAA73B, 0x3C6EF372FE94F82B, 0xA54FF53A5F1D36F1, 0x510E527FADE682D1, 0x9B05688C2B3E6C1F, 0x1F83D9ABFB41BD6B, 0x5BE0CD19137E2179]

/-- The parameters by which SHA-256 and SHA-512 differ: word size, block bytes, length bytes and rotations. -/
structure Sha where
  w : Nat
  block : Nat
  lenBytes : Nat
  k : List Nat
  h0 : List Nat
  s0 : Nat × Nat × Nat
  s1 : Nat × Nat × Nat
  e0 : Nat × Nat × Nat
  e1 : Nat × Nat × Nat

/-- SHA-256. -/
def sha256P : Sha :=
  { w := 32, block := 64, lenBytes := 8, k := sha256K, h0 := sha256H, s0 := (7, 18, 3), s1 := (17, 19, 10),
    e0 := (2, 13, 22), e1 := (6, 11, 25) }

/-- SHA-512. -/
def sha512P : Sha :=
  { w := 64, block := 128, lenBytes := 16, k := sha512K, h0 := sha512H, s0 := (1, 8, 7), s1 := (19, 61, 6),
    e0 := (28, 34, 39), e1 := (14, 18, 41) }

/-- Rotate a `w`-bit number right by `n`. -/
def rotr (w x n : Nat) : Nat := x / 2 ^ n + x % 2 ^ n * 2 ^ (w - n)

/-- Exclusive or of three rotations. -/
def big (w : Nat) (r : Nat × Nat × Nat) (x : Nat) : Nat := rotr w x r.1 ^^^ rotr w x r.2.1 ^^^ rotr w x r.2.2

/-- Exclusive or of two rotations and a shift. -/
def small (w : Nat) (r : Nat × Nat × Nat) (x : Nat) : Nat := rotr w x r.1 ^^^ rotr w x r.2.1 ^^^ x / 2 ^ r.2.2

/-- The big-endian number of some bytes. -/
def beNat : List Byte → Nat := List.foldl (fun n b => n * 256 + b.toNat) 0

/-- The `n` big-endian bytes of a number. -/
def beBytes (n v : Nat) : List Byte := (leBytes n v).reverse

/-- Words of a block, newest first, from a message of `n` words. -/
def shaWords (h : Sha) : Nat → List Byte → List Nat
  | 0, _ => []
  | n + 1, bs => beNat (bs.take (h.w / 8)) :: shaWords h n (bs.drop (h.w / 8))

/-- The message schedule, from the sixteen newest words (newest first). -/
def shaSchedule (h : Sha) : Nat → List Nat → List Nat
  | 0, _ => []
  | n + 1, ws =>
    let old := ws.getD 15 0
    let t := (small h.w h.s1 (ws.getD 1 0) + ws.getD 6 0 + small h.w h.s0 (ws.getD 14 0) + old) % 2 ^ h.w
    old :: shaSchedule h n ((t :: ws).take 16)

/-- One round on the eight working words. -/
def shaRound (h : Sha) (v : List Nat) (kw : Nat × Nat) : List Nat :=
  match v with
  | [a, b, c, d, e, f, g, x] =>
    let m := 2 ^ h.w
    let ch := (e &&& f) ^^^ ((m - 1 - e) &&& g)
    let maj := (a &&& b) ^^^ (a &&& c) ^^^ (b &&& c)
    let t1 := x + big h.w h.e1 e + ch + kw.1 + kw.2
    [(t1 + big h.w h.e0 a + maj) % m, a, b, c, (d + t1) % m, e, f, g]
  | v => v

/-- Compress one block. -/
def shaBlock (h : Sha) (v : List Nat) (bs : List Byte) : List Nat :=
  let ws := shaSchedule h h.k.length (shaWords h 16 bs).reverse
  List.zipWith (fun a b => (a + b) % 2 ^ h.w) v ((h.k.zip ws).foldl (shaRound h) v)

/-- Compress `n` blocks. -/
def shaBlocks (h : Sha) : Nat → List Nat → List Byte → List Nat
  | 0, v, _ => v
  | n + 1, v, bs => shaBlocks h n (shaBlock h v (bs.take h.block)) (bs.drop h.block)

/-- The digest of a byte string. -/
def sha (h : Sha) (bs : List Byte) : List Byte :=
  let n := bs.length
  let z := (h.block - (n + 1 + h.lenBytes) % h.block) % h.block
  let p := bs ++ 0x80#8 :: (List.replicate z 0#8 ++ beBytes h.lenBytes (8 * n))
  (shaBlocks h (p.length / h.block) h.h0 p).flatMap (beBytes (h.w / 8))

/-- SHA-256. -/
def sha256 (bs : List Byte) : List Byte := sha sha256P bs

/-- A digest of zeros. -/
def zeroDigest : List Byte := List.replicate 32 0

/-! ### Cyclic redundancy codes -/

/-- Reflected CRC-32 of R113: one bit. -/
def crc32Bit (c : Nat) : Nat := if c % 2 = 1 then (c / 2) ^^^ 0xEDB88320 else c / 2

/-- CRC-32 (R113). -/
def crc32 (bs : List Byte) : Nat :=
  (bs.foldl (fun c b => (List.range 8).foldl (fun c _ => crc32Bit c) (c ^^^ b.toNat)) 0xFFFFFFFF) ^^^ 0xFFFFFFFF

/-! ### Ed25519 -/

/-- The field prime. -/
def edP : Nat := 2 ^ 255 - 19
/-- The group order. -/
def edL : Nat := 2 ^ 252 + 27742317777372353535851937790883648493

/-- `b ^ e mod m`, with `n` bits of `e`. -/
def powMod (m : Nat) : Nat → Nat → Nat → Nat
  | 0, _, _ => 1
  | n + 1, b, e =>
    let r := powMod m n (b * b % m) (e / 2)
    if e % 2 = 1 then r * b % m else r

/-- Inverse in the field. -/
def edInv (x : Nat) : Nat := powMod edP 255 x (edP - 2)
/-- The curve constant. -/
def edD : Nat := (edP - 121665) * edInv 121666 % edP
/-- A square root of -1. -/
def edI : Nat := powMod edP 255 2 ((edP - 1) / 4)

/-- A point in extended coordinates (X, Y, Z, T). -/
abbrev EdPt := Nat × Nat × Nat × Nat

/-- The neutral element. -/
def edZero : EdPt := (0, 1, 1, 0)

/-- Addition of points. -/
def edAdd (p q : EdPt) : EdPt :=
  let (x1, y1, z1, t1) := p
  let (x2, y2, z2, t2) := q
  let a := (y1 + edP - x1) * (y2 + edP - x2) % edP
  let b := (y1 + x1) * (y2 + x2) % edP
  let c := t1 * 2 % edP * edD % edP * t2 % edP
  let d := z1 * 2 * z2 % edP
  let e := b + edP - a
  let f := d + edP - c
  let g := d + c
  let h := b + a
  (e * f % edP, g * h % edP, f * g % edP, e * h % edP)

/-- `e` times a point, with `n` bits of `e`. -/
def edMul : Nat → Nat → EdPt → EdPt
  | 0, _, _ => edZero
  | n + 1, e, p =>
    let r := edMul n (e / 2) (edAdd p p)
    if e % 2 = 1 then edAdd r p else r

/-- The x of a y with the given sign bit; none off the curve. -/
def edX (y sign : Nat) : Option Nat :=
  if edP ≤ y then none
  else
    let x2 := (y * y + edP - 1) % edP * edInv ((edD * (y * y % edP) + 1) % edP) % edP
    if x2 = 0 then (if sign = 1 then none else some 0)
    else
      let x := powMod edP 255 x2 ((edP + 3) / 8)
      let x := if x * x % edP = x2 then x else x * edI % edP
      if x * x % edP ≠ x2 then none
      else some (if x % 2 = sign then x else edP - x)

/-- The base point. -/
def edB : EdPt :=
  let y := 4 * edInv 5 % edP
  match edX y 0 with
  | none => edZero
  | some x => (x, y, 1, x * y % edP)

/-- The 32-byte encoding of a point. -/
def edEnc (p : EdPt) : List Byte :=
  let (x, y, z, _) := p
  let zi := edInv z
  leBytes 32 (y * zi % edP + x * zi % edP % 2 * 2 ^ 255)

/-- The point of an encoding. -/
def edDec (bs : List Byte) : Option EdPt :=
  let n := leNat bs
  let y := n % 2 ^ 255
  (edX y (n / 2 ^ 255 % 2)).map (fun x => (x, y, 1, x * y % edP))

/-- The secret scalar and prefix of a seed. -/
def edExpand (seed : List Byte) : Nat × List Byte :=
  let h := sha sha512P seed
  let a := leNat (h.take 32)
  (a % 2 ^ 254 / 8 * 8 + 2 ^ 254, h.drop 32)

/-- The public key of a seed. -/
def edPublic (seed : List Byte) : List Byte := edEnc (edMul 255 (edExpand seed).1 edB)

/-- The signature of a message under a seed. -/
def edSign (seed msg : List Byte) : List Byte :=
  let (a, pre) := edExpand seed
  let pub := edPublic seed
  let r := leNat (sha sha512P (pre ++ msg)) % edL
  let rp := edEnc (edMul 253 r edB)
  let h := leNat (sha sha512P (rp ++ pub ++ msg)) % edL
  rp ++ leBytes 32 ((r + h * a) % edL)

/-- Does a signature verify under a public key? -/
def edVerify (pub msg sig : List Byte) : Bool :=
  if pub.length ≠ 32 ∨ sig.length ≠ 64 then false
  else match edDec pub, edDec (sig.take 32) with
    | some a, some r =>
      let n := leNat (sig.drop 32)
      if edL ≤ n then false
      else
        let h := leNat (sha sha512P (sig.take 32 ++ pub ++ msg)) % edL
        edEnc (edMul 253 n edB) == edEnc (edAdd r (edMul 253 h a))
    | _, _ => false

end Sys2Proof.Machine
end

