-- ==== Sys2Proof/Machine/Pages.lean ====
section
/-! DEFINITION. Register pages (02_register_pages.md R26 to R56): what stands before a register write, the stored
effect of a write by access type, the common header, locking, and the accesses that are dropped. -/

namespace Sys2Proof.Machine

/-- What a requester's last read returned. -/
def State.setRd (s : State) (r : Requester) (v : Word32) : State :=
  if r = .host then { s with rdHost := v } else { s with rdMgmt := v }

/-- An access to an index that holds no page: dropped, recorded in DIR_UNPOP_ADDR and DIR_UNPOP_CNT; a read returns
0 (R28). -/
def State.unpop (s : State) (r : Requester) (off : Nat) (write : Bool) : State :=
  let s := if write then s else s.setRd r 0
  let s := s.setReg pDIR 0x80C (BitVec.ofNat 32 (off + (if r = .mgmt then 2 ^ 30 else 0) + 2 ^ 31))
  let n := min 0xFFFF (fld (s.reg pDIR 0xF00) 0 16 + 1)
  s.setReg pDIR 0xF00 (BitVec.ofNat 32 (n + bnat (n == 0xFFFF) * 2 ^ 16))

/-- An access to a page whose domain is RETAIN or OFF: dropped, recorded on the AON page and remembered for
PG_STAT.OFF_ACCESS; a read returns all ones (R52, R53). -/
def State.offDrop (s : State) (r : Requester) (off : Nat) (write : Bool) : State :=
  let s := if write then s else s.setRd r 0xFFFFFFFF
  let s := s.setReg pAON 0x810 (BitVec.ofNat 32 (off + (if r = .mgmt then 2 ^ 30 else 0) + 2 ^ 31))
  let s := s.inc pAON 0xF00
  match pageDomain (off / 4096) with
  | none => s
  | some d => s.modDom d (fun g => { g with offAcc := true })

/-- An access that reaches its page, or the record of why it does not (R28, R52). In D3hot the host's accesses are
not answered (21_host_management.md R598). -/
def State.reach (s : State) (r : Requester) (off : Nat) (write : Bool) (f : State → State) : State :=
  if r = .host ∧ s.mgt.d3 then s
  else match pageInfo (off / 4096) with
  | none => s.unpop r off write
  | some _ => if s.pageLive (off / 4096) then f s else s.offDrop r off write

/-- Is a requester's key sequence armed on a page (R44)? -/
def Page.armed (g : Page) (r : Requester) : Bool := if r = .host then g.armedHost else g.armedMgmt

/-- Arm or disarm a requester's key sequence in a header. -/
def Page.arm (g : Page) (r : Requester) (b : Bool) : Page :=
  if r = .host then { g with armedHost := b } else { g with armedMgmt := b }

/-- Arm or disarm a requester's key sequence on a page (R44 to R46). -/
def State.setArmed (s : State) (r : Requester) (p : Nat) (b : Bool) : State := s.modPage p (fun g => g.arm r b)

/-- A register write that has reached its page: it disarms the key sequence (R45), is dropped in 0x800–0xEFF during
a soft reset (R37), is a violation on a written WO or locked RWL register (R47, R48), and takes effect otherwise. -/
def State.regGate (s : State) (r : Requester) (p o : Nat) (f : State → State) : State :=
  let s := s.setArmed r p false
  if 0x800 ≤ o ∧ o < 0xF00 ∧ (s.page p).srst then s
  else
    let bt := blockType p
    match regRow bt o with
    | none => f s
    | some row =>
      if row.acc = .wo then
        if (s.page p).written.contains o then s.violation r p o false true
        else f (s.modPage p (fun g => { g with written := o :: g.written }))
      else if row.acc = .rwl ∧ (s.page p).locked then s.violation r p o false true
      else f s

/-- A write command to one register: through the reach and gate of every write (R28 to R52). -/
def State.write (s : State) (r : Requester) (p o : Nat) (f : State → State) : State :=
  s.reach r (p * 4096 + o) true (fun s => s.regGate r p o f)

/-- The stored effect of a write, by the register's access type (R8, R9). -/
def State.store (s : State) (p o : Nat) (v : Word32) : State :=
  let bt := blockType p
  match regRow bt o with
  | none => s
  | some row =>
    let m : Word32 := BitVec.ofNat 32 row.mask
    match row.acc with
    | .rw => s.setReg p o (v &&& m)
    | .rwl => s.setReg p o (v &&& m)
    | .wo => s.setReg p o (v &&& m)
    | .w1c => s.setReg p o (s.reg p o &&& ~~~(v &&& m))
    | .ro => s
    | .rc => s

/-- Return registers `lo` to `hi - 1` of a page to their reset values. -/
def State.resetArea (s : State) (p lo hi : Nat) : State :=
  { s with regs := s.regs.filter (fun e =>
      !(e.1 / 4096 % 16384 == p && decide (lo ≤ e.1 % 4096) && decide (e.1 % 4096 < hi))) }

/-- Clear bits of PG_STAT; a bit that the hardware sets in the same cycle ends set; PG_ERR_ADDR.VALID falls when
both violation bits end at 0 (R39, R55) (DEDUCED, log entry 61). -/
def State.statClear (s : State) (p : Nat) (v hw : Word32) : State :=
  s.modPage p (fun g =>
    let wo := (g.woViol && !bit v 8) || bit hw 8
    let sz := (g.sizeErr && !bit v 9) || bit hw 9
    { g with
      woViol := wo
      sizeErr := sz
      offAccess := (g.offAccess && !bit v 10) || bit hw 10
      errAddr := if wo || sz then g.errAddr else g.errAddr &&& 0x7FFFFFFF })

/-- A write of the first key arms; on a locked page it is a violation (R34, R44). -/
def State.lockArm (s : State) (r : Requester) (p : Nat) : State :=
  if (s.page p).locked then (s.setArmed r p false).violation r p 0x2C false true
  else s.setArmed r p true

/-- A write of the second key: it locks the page when the requester's first key was its last write there (R44,
R45); on a locked page it is a violation. -/
def State.lockLock (s : State) (r : Requester) (p : Nat) : State :=
  let g := s.page p
  let s := s.setArmed r p false
  if g.locked then s.violation r p 0x2C false true
  else if g.armed r then s.modPage p (fun g => { g with locked := true, evt := g.evt ||| 8 })
  else s

/-- SIZE_ERR (R29, R30). -/
def execSizeErr (r : Requester) (off : Bar0) (write : Bool) (s : State) : Host.Outcome State Fault Refusal :=
  ok (s.reach r off.toNat write (fun s =>
    (if write then s else s.setRd r 0xFFFFFFFF).violation r (off.toNat / 4096) off.toNat true write))

/-- UNPOPULATED_ACCESS (R28). -/
def execUnpopulatedAccess (r : Requester) (off : Bar0) (write : Bool) (s : State) :
    Host.Outcome State Fault Refusal :=
  ok (match pageInfo (off.toNat / 4096) with
    | none => s.unpop r off.toNat write
    | some _ => s)

/-- OFF_ACCESS (R52). -/
def execOffAccess (r : Requester) (off : Bar0) (write : Bool) (s : State) : Host.Outcome State Fault Refusal :=
  ok (if (pageInfo (off.toNat / 4096)).isSome ∧ !s.pageLive (off.toNat / 4096) then s.offDrop r off.toNat write
      else s)

/-- PG_STAT_CLEAR (R39, R55). -/
def execPgStatClear (r : Requester) (page : Fin 16384) (v hwSet : Word32) (s : State) :
    Host.Outcome State Fault Refusal :=
  ok (s.write r page 0x14 (fun s => s.statClear page v hwSet))

/-- SOFT_RESET_END (R35). -/
def execSoftResetEnd (page : Fin 16384) (s : State) : Host.Outcome State Fault Refusal :=
  ok (if (s.page page).srst then s.modPage page (fun g => { g with srst := false }) else s)

/-- PG_LOCK_ARM (R44). -/
def execPgLockArm (r : Requester) (page : Fin 16384) (s : State) : Host.Outcome State Fault Refusal :=
  ok (s.reach r (page.val * 4096 + 0x2C) true (fun s => s.lockArm r page))

/-- PG_LOCK_LOCK (R44). -/
def execPgLockLock (r : Requester) (page : Fin 16384) (s : State) : Host.Outcome State Fault Refusal :=
  ok (s.reach r (page.val * 4096 + 0x2C) true (fun s => s.lockLock r page))

end Sys2Proof.Machine
end

