-- ==== Sys2Proof/Machine/Status.lean ====
section
/-! DEFINITION. The 16-bit status codes of 20_errors.md R587: within each row of its table, names take consecutive
codes. -/

namespace Sys2Proof.Machine

/-- OK (R587). -/
abbrev stOK : BitVec 16 := 0x0000
/-- BUSY (R587). -/
abbrev stBUSY : BitVec 16 := 0x0101
/-- BOUND (R587). -/
abbrev stBOUND : BitVec 16 := 0x0102
/-- ZERO_LEN (R587). -/
abbrev stZERO_LEN : BitVec 16 := 0x0103
/-- DESC_INVALID (R587). -/
abbrev stDESC_INVALID : BitVec 16 := 0x0104
/-- TENSOR_DENIED (R587). -/
abbrev stTENSOR_DENIED : BitVec 16 := 0x0105
/-- TABLE_FULL (R587). -/
abbrev stTABLE_FULL : BitVec 16 := 0x0106
/-- NO_CHANNEL (R587). -/
abbrev stNO_CHANNEL : BitVec 16 := 0x0107
/-- CLAIM_CONFLICT (R587). -/
abbrev stCLAIM_CONFLICT : BitVec 16 := 0x0108
/-- DENIED (R587). -/
abbrev stDENIED : BitVec 16 := 0x0109
/-- ABORTED (R587). -/
abbrev stABORTED : BitVec 16 := 0x010A
/-- MODE_DENIED (R587). -/
abbrev stMODE_DENIED : BitVec 16 := 0x010B
/-- GROUP_DENIED (R587). -/
abbrev stGROUP_DENIED : BitVec 16 := 0x010C
/-- ILLEGAL_INSTR (R587). -/
abbrev stILLEGAL_INSTR : BitVec 16 := 0x0201
/-- FETCH_BOUND (R587). -/
abbrev stFETCH_BOUND : BitVec 16 := 0x0202
/-- SCRATCH_BOUND (R587). -/
abbrev stSCRATCH_BOUND : BitVec 16 := 0x0203
/-- MISALIGNED (R587). -/
abbrev stMISALIGNED : BitVec 16 := 0x0204
/-- BARRIER_UNDEF (R587). -/
abbrev stBARRIER_UNDEF : BitVec 16 := 0x0205
/-- LOCK_NOT_OWNER (R587). -/
abbrev stLOCK_NOT_OWNER : BitVec 16 := 0x0206
/-- SW_TRAP (R587). -/
abbrev stSW_TRAP : BitVec 16 := 0x0207
/-- HAZARD (R587). -/
abbrev stHAZARD : BitVec 16 := 0x0208
/-- EMIT_NO_STEP (R587). -/
abbrev stEMIT_NO_STEP : BitVec 16 := 0x0209
/-- GANG_DENIED (R587). -/
abbrev stGANG_DENIED : BitVec 16 := 0x020A
/-- ARRAY_FENCED (R587). -/
abbrev stARRAY_FENCED : BitVec 16 := 0x020B
/-- CKSUM_HALT (R587). -/
abbrev stCKSUM_HALT : BitVec 16 := 0x020C
/-- MASK_STREAM_OWNER (R587). -/
abbrev stMASK_STREAM_OWNER : BitVec 16 := 0x020D
/-- CHANNEL_DENIED (R587). -/
abbrev stCHANNEL_DENIED : BitVec 16 := 0x020E
/-- CHANNEL_BUSY (R587). -/
abbrev stCHANNEL_BUSY : BitVec 16 := 0x020F
/-- POISON_CONSUMED (R587). -/
abbrev stPOISON_CONSUMED : BitVec 16 := 0x0210
/-- IMAGE_SIG (R587). -/
abbrev stIMAGE_SIG : BitVec 16 := 0x0301
/-- CONTEXT_MISMATCH (R587). -/
abbrev stCONTEXT_MISMATCH : BitVec 16 := 0x0302
/-- ARRAY_DISABLED (R587). -/
abbrev stARRAY_DISABLED : BitVec 16 := 0x0303
/-- ARRAY_RESERVED (R587). -/
abbrev stARRAY_RESERVED : BitVec 16 := 0x0304
/-- PSTORE_BOUND (R587). -/
abbrev stPSTORE_BOUND : BitVec 16 := 0x0305
/-- SCRATCH_OVERLAP (R587). -/
abbrev stSCRATCH_OVERLAP : BitVec 16 := 0x0306
/-- QUEUE_IN_USE (R587). -/
abbrev stQUEUE_IN_USE : BitVec 16 := 0x0307
/-- CTX_INVALID (R587). -/
abbrev stCTX_INVALID : BitVec 16 := 0x0308
/-- CTX_BUSY (R587). -/
abbrev stCTX_BUSY : BitVec 16 := 0x0309
/-- KILLED (R587). -/
abbrev stKILLED : BitVec 16 := 0x030A
/-- DEVKEY_BAD (R587). -/
abbrev stDEVKEY_BAD : BitVec 16 := 0x030B
/-- ACQUIRED_BROKEN (R587). -/
abbrev stACQUIRED_BROKEN : BitVec 16 := 0x0401
/-- ORDER (R587). -/
abbrev stORDER : BitVec 16 := 0x0402
/-- LOCK_DENIED (R587). -/
abbrev stLOCK_DENIED : BitVec 16 := 0x0403
/-- STALLED (R587). -/
abbrev stSTALLED : BitVec 16 := 0x0404
/-- BARRIER_ABORT (R587). -/
abbrev stBARRIER_ABORT : BitVec 16 := 0x0405
/-- NO_RECV (R587). -/
abbrev stNO_RECV : BitVec 16 := 0x0406
/-- UNREACHABLE (R587). -/
abbrev stUNREACHABLE : BitVec 16 := 0x0407
/-- STALE (R587). -/
abbrev stSTALE : BitVec 16 := 0x0408
/-- LINK_DOWN (R587). -/
abbrev stLINK_DOWN : BitVec 16 := 0x0409
/-- LINK_CRC (R587). -/
abbrev stLINK_CRC : BitVec 16 := 0x040A
/-- LANE_DROP (R587). -/
abbrev stLANE_DROP : BitVec 16 := 0x040B
/-- HOP_DROP (R587). -/
abbrev stHOP_DROP : BitVec 16 := 0x040C
/-- COUNT_OVF (R587). -/
abbrev stCOUNT_OVF : BitVec 16 := 0x0501
/-- COLL_SEQ (R587). -/
abbrev stCOLL_SEQ : BitVec 16 := 0x0502
/-- COLL_MISMATCH (R587). -/
abbrev stCOLL_MISMATCH : BitVec 16 := 0x0503
/-- COLL_CKSUM (R587). -/
abbrev stCOLL_CKSUM : BitVec 16 := 0x0504
/-- COLL_ABORT (R587). -/
abbrev stCOLL_ABORT : BitVec 16 := 0x0505
/-- LATE (R587). -/
abbrev stLATE : BitVec 16 := 0x0506
/-- DATA_POISON (R587). -/
abbrev stDATA_POISON : BitVec 16 := 0x0601
/-- ECC_CORRECTED (R587). -/
abbrev stECC_CORRECTED : BitVec 16 := 0x0602
/-- ECC_UNCORRECTABLE (R587). -/
abbrev stECC_UNCORRECTABLE : BitVec 16 := 0x0603
/-- CKSUM_MISMATCH (R587). -/
abbrev stCKSUM_MISMATCH : BitVec 16 := 0x0604
/-- MEM_CONFIG (R587). -/
abbrev stMEM_CONFIG : BitVec 16 := 0x0605
/-- MEM_TRAIN_FAIL (R587). -/
abbrev stMEM_TRAIN_FAIL : BitVec 16 := 0x0606
/-- MEM_OVERTEMP (R587). -/
abbrev stMEM_OVERTEMP : BitVec 16 := 0x0607
/-- QUOTA_OVERCOMMIT (R587). -/
abbrev stQUOTA_OVERCOMMIT : BitVec 16 := 0x0608
/-- QUOTA_IN_USE (R587). -/
abbrev stQUOTA_IN_USE : BitVec 16 := 0x0609
/-- QUOTA_EXCEEDED (R587). -/
abbrev stQUOTA_EXCEEDED : BitVec 16 := 0x060A
/-- SIZE_EXCEEDS (R587). -/
abbrev stSIZE_EXCEEDS : BitVec 16 := 0x060B
/-- TENSOR_IN_USE (R587). -/
abbrev stTENSOR_IN_USE : BitVec 16 := 0x060C
/-- NOT_SOURCE (R587). -/
abbrev stNOT_SOURCE : BitVec 16 := 0x0701
/-- MANIFEST_SIZE (R587). -/
abbrev stMANIFEST_SIZE : BitVec 16 := 0x0702
/-- MANIFEST_FORMAT (R587). -/
abbrev stMANIFEST_FORMAT : BitVec 16 := 0x0703
/-- KEY_REVOKED (R587). -/
abbrev stKEY_REVOKED : BitVec 16 := 0x0704
/-- MANIFEST_SIG (R587). -/
abbrev stMANIFEST_SIG : BitVec 16 := 0x0705
/-- MANIFEST_SHAPE (R587). -/
abbrev stMANIFEST_SHAPE : BitVec 16 := 0x0706
/-- VERSION_CONFLICT (R587). -/
abbrev stVERSION_CONFLICT : BitVec 16 := 0x0707
/-- VERSION_OLD (R587). -/
abbrev stVERSION_OLD : BitVec 16 := 0x0708
/-- CHUNK_DIGEST (R587). -/
abbrev stCHUNK_DIGEST : BitVec 16 := 0x0709
/-- RESTREAM_UNAVAIL (R587). -/
abbrev stRESTREAM_UNAVAIL : BitVec 16 := 0x070A
/-- MODEL_OFFLINE (R587). -/
abbrev stMODEL_OFFLINE : BitVec 16 := 0x070B
/-- ALREADY_COMPLETE (R587). -/
abbrev stALREADY_COMPLETE : BitVec 16 := 0x0801
/-- NO_EPISODE (R587). -/
abbrev stNO_EPISODE : BitVec 16 := 0x0802
/-- NOT_PAUSED (R587). -/
abbrev stNOT_PAUSED : BitVec 16 := 0x0803
/-- KITTY_FULL (R587). -/
abbrev stKITTY_FULL : BitVec 16 := 0x0804
/-- INVALIDATED_POISON (R587). -/
abbrev stINVALIDATED_POISON : BitVec 16 := 0x0805
/-- PROBLEM_INVALID (R587). -/
abbrev stPROBLEM_INVALID : BitVec 16 := 0x0901
/-- NOT_HALTED (R587). -/
abbrev stNOT_HALTED : BitVec 16 := 0x0902
/-- CKPT_INVALID (R587). -/
abbrev stCKPT_INVALID : BitVec 16 := 0x0903
/-- CKPT_DIGEST (R587). -/
abbrev stCKPT_DIGEST : BitVec 16 := 0x0904
/-- NV_SAG (R587). -/
abbrev stNV_SAG : BitVec 16 := 0x0A01
/-- NV_HOLDUP (R587). -/
abbrev stNV_HOLDUP : BitVec 16 := 0x0A02
/-- PROG_FAIL (R587). -/
abbrev stPROG_FAIL : BitVec 16 := 0x0A03
/-- BOOT_FUSE_BAD (R587). -/
abbrev stBOOT_FUSE_BAD : BitVec 16 := 0x0A04
/-- BOOT_FLASH_BAD (R587). -/
abbrev stBOOT_FLASH_BAD : BitVec 16 := 0x0A05
/-- BOOT_NO_IMAGE (R587). -/
abbrev stBOOT_NO_IMAGE : BitVec 16 := 0x0A06
/-- JOURNAL_FULL (R587). -/
abbrev stJOURNAL_FULL : BitVec 16 := 0x0A07
/-- NOT_BLANK (R587). -/
abbrev stNOT_BLANK : BitVec 16 := 0x0A08
/-- PMBUS_ARB_LOST (R587). -/
abbrev stPMBUS_ARB_LOST : BitVec 16 := 0x0B01
/-- SLOWCLK_LOST (R587). -/
abbrev stSLOWCLK_LOST : BitVec 16 := 0x0C01
/-- PLL_UNLOCK (R587). -/
abbrev stPLL_UNLOCK : BitVec 16 := 0x0C02
/-- REFCLK_LOST (R587). -/
abbrev stREFCLK_LOST : BitVec 16 := 0x0C03
/-- CTRL_UE (R587). -/
abbrev stCTRL_UE : BitVec 16 := 0x0C04

end Sys2Proof.Machine
end

