-- ==== Sys2Proof/Machine/Power.lean ====
section
/-! DEFINITION. Clocks, wakes, timer claims and the supply monitors (03_power_clocks.md R57 to R82, R84, R85). Sleep
entry and the completion of a wake stand in Sleep.lean, a timer's fire in Wake.lean, the NV-write unit in Journal.lean. -/

namespace Sys2Proof.Machine

/-! ### Time -/

/-- Is a core domain ON (R77)? -/
def State.coreOn (s : State) : Bool := s.pw.doms.any (fun e =>
  decide (768 ≤ e.1) && decide (e.1 < 960) && e.2.state == .on)

/-- Does any command queue hold an entry (R78)? -/
def State.queueHolds (s : State) : Bool :=
  (List.range 64).any (fun q => s.reg (pQUE q) 0x800 != s.reg (pQUE q) 0x804)

/-- One AON cycle passes (R59, R78; DESIGN CHOICE, log entry 2). -/
def State.tick (s : State) : State :=
  { s with pw := { s.pw with
      aonTime := s.pw.aonTime + 1
      idleTicks := if s.coreOn then 0 else s.pw.idleTicks + 1 } }

/-! ### Clocks -/

/-- PLL_LOCK (R58). -/
def execPllLock (p : Fin 26) (s : State) : Host.Outcome State Fault Refusal :=
  ok (if s.pw.pllRun.getLsbD p then { s with pw := { s.pw with pllLock := s.pw.pllLock ||| (1 <<< p.val) } } else s)

/-- PLL_UNLOCK: a running PLL that was locked loses lock (R58; 20_errors.md R587). -/
def execPllUnlock (p : Fin 26) (s : State) : Host.Outcome State Fault Refusal :=
  ok (if s.pw.pllRun.getLsbD p ∧ s.pw.pllLock.getLsbD p then
      let s := { s with pw := { s.pw with pllLock := s.pw.pllLock &&& ~~~(1#26 <<< p.val) } }
      ((s.inc pCLK 0xF00).raise pCLK 16).detectOpen cFATAL stPLL_UNLOCK 0x03 0 none
    else s)

/-- SLOWCLK_LOST (R60). -/
def execSlowclkLost (s : State) : Host.Outcome State Fault Refusal :=
  ok (if s.pw.slowPresent then
      let s := { s with pw := { s.pw with slowPresent := false, fallback := true } }
      let s := s.setReg pCLK 0x80C (setBit (s.reg pCLK 0x80C) 0 true)
      (s.raise pCLK 17).detectOpen cCORRECTED stSLOWCLK_LOST 0x03 0 none
    else s)

/-- SLOWCLK_SWITCH (04_reset_boot.md R100): once, after 1,024 stable ticks. -/
def execSlowclkSwitch (s : State) : Host.Outcome State Fault Refusal :=
  ok (if s.pw.slowPresent ∧ s.pw.fallback ∧ !s.pw.switched then
      { s with pw := { s.pw with fallback := false, switched := true } }
    else s)

/-- PCIE_REFERENCE_LOST (CLK_SRC_LOSS bit 2). -/
def execPcieReferenceLost (s : State) : Host.Outcome State Fault Refusal :=
  ok (let s := { s with pw := { s.pw with pcieRef := false } }
      s.setReg pCLK 0x80C (setBit (s.reg pCLK 0x80C) 2 true))

/-! ### Wakes (R71, R72, R76) -/

/-- PWR_VC_WSET of a virtual channel: wake set and enable. -/
def State.vcWset (s : State) (vc : Nat) : Nat := fld (s.reg pPWR (0xA10 + 4 * (vc / 4))) (8 * (vc % 4)) 8

/-- A wake source without a row of its own (R72). -/
def State.wakeBy (s : State) : WakeSource → State
  | .fabric vc => if 128 ≤ s.vcWset vc then s.wakeSet (s.vcWset vc % 128) else s
  | .memory k => s.wakeDom (dMem k)
  | .link l => s.wakeDom (dLnk l)
  | .engine e => s.wakeDom (1008 + e.val)
  | .agent d => s.wakeAgent d

/-- DOMAIN_WAKE (R66, R72). -/
def execDomainWake (src : WakeSource) (s : State) : Host.Outcome State Fault Refusal := ok (s.wakeBy src)

/-- A write of PWR_WAKE: with HOLD it wakes the domain and holds it ON; without, it releases the hold, and no wake
follows (R76). Numbers from 1,012 on name no domain. -/
def State.pwrWake (s : State) (v : Word32) : State :=
  let s := s.store pPWR 0x900 v
  let d := fld v 0 10
  if 1012 ≤ d then s
  else if bit v 16 then
    if d < 768 ∧ (s.fusedOff d ∨ s.isFenced d) then s
    else (s.wakeDom d).modDom d (fun g => { g with hold := true })
  else
    let s := s.modDom d (fun g => { g with hold := false })
    { s with pw := { s.pw with idleTicks := 0 } }

/-- PWR_WAKE_HOLD (R76). -/
def execPwrWakeHold (r : Requester) (v : Word32) (s : State) : Host.Outcome State Fault Refusal :=
  ok (s.write r pPWR 0x900 (fun s => s.pwrWake (setBit v 16 true)))

/-- PWR_HOLD_RELEASE (R76). -/
def execPwrHoldRelease (r : Requester) (v : Word32) (s : State) : Host.Outcome State Fault Refusal :=
  ok (s.write r pPWR 0x900 (fun s => s.pwrWake (setBit v 16 false)))

/-- The selected wake set (PWR_WSET_SEL). -/
def State.wsetSel (s : State) : Nat := fld (s.reg pPWR 0x904) 0 7

/-- Zero the selected wake set. -/
def State.wsetZero (s : State) : State := { s with pw := { s.pw with wsets := sset 0 s.pw.wsets s.wsetSel 0 } }

/-- A write of PWR_WSET_CMD: WAKE, then CLEAR. -/
def State.wsetCmd (s : State) (v : Word32) : State :=
  let s := if bit v 0 then s.wakeSet s.wsetSel else s
  if bit v 1 then s.wsetZero else s

/-- A write of a word of the wake-set window (PWR_WSET_DATA). -/
def State.wsetData (s : State) (i : Nat) (v : Word32) : State :=
  let old : BitVec 1012 := sget 0 s.pw.wsets s.wsetSel
  let m : BitVec 1012 := BitVec.ofNat 1012 (0xFFFFFFFF * 2 ^ (32 * i))
  let new := (old &&& ~~~m) ||| BitVec.ofNat 1012 (v.toNat * 2 ^ (32 * i))
  { s with pw := { s.pw with wsets := sset 0 s.pw.wsets s.wsetSel new } }

/-- WSET_WAKE (R72). -/
def execWsetWake (r : Requester) (s : State) : Host.Outcome State Fault Refusal :=
  ok (s.write r pPWR 0x908 (fun s => s.wsetCmd 1))

/-- WSET_CLEAR (R71). -/
def execWsetClear (r : Requester) (s : State) : Host.Outcome State Fault Refusal :=
  ok (s.write r pPWR 0x908 (fun s => s.wsetCmd 2))

/-! ### Device states (R77 to R79) -/

/-- The SCLK, FCLK and MCLK PLLs. -/
abbrev chipPlls : BitVec 26 := 0x3FF0000

/-- May the part enter D-Deep (R78)? PCI Express L1.2 is the command's own condition: the model holds no link
power-state machine (DEDUCED, log entry 63). -/
def State.deepReady (s : State) : Bool :=
  bit (s.reg pPWR 0x108) 0 && !s.pw.deep && decide (fld (s.reg pPWR 0x108) 16 16 ≤ s.pw.idleTicks)
    && !s.queueHolds
    && s.pw.doms.all (fun e => !e.2.hold && !e.2.waking && e.2.sleepTo.isNone
        && (e.2.state == .retain || e.2.state == .off))

/-- DEEP_ENTRY (R77, R78). -/
def execDeepEntry (s : State) : Host.Outcome State Fault Refusal :=
  ok (if s.deepReady then
      let s := { s with pw := { s.pw with deep := true, exitDue := false, pllRun := s.pw.pllRun &&& ~~~chipPlls
                                          pllLock := s.pw.pllLock &&& ~~~chipPlls } }
      let s := s.setReg pHIF 0x800 (putFld (s.reg pHIF 0x800) 10 2 3)
      (s.inc pPWR 0xF08).raise pPWR 16
    else s)

/-- DEEP_EXIT (R79): the exit that a wake source asked for completes, with the PLLs locked. -/
def execDeepExit (s : State) : Host.Outcome State Fault Refusal :=
  ok (if s.pw.deep ∧ s.pw.exitDue then
      let s := { s with pw := { s.pw with deep := false, exitDue := false, idleTicks := 0
                                          pllRun := s.pw.pllRun ||| chipPlls, pllLock := s.pw.pllLock ||| chipPlls } }
      let s := s.setReg pHIF 0x800 (putFld (s.reg pHIF 0x800) 10 2 0)
      (s.inc pCLK 0xF08 10).raise pPWR 17
    else s)

/-! ### AON timer channels (R80 to R83) -/

/-- A register of timer channel `n`. -/
def State.tmr (s : State) (n o : Nat) : Word32 := s.reg pAON (0xA00 + 0x20 * n + o)

/-- Set a register of timer channel `n`. -/
def State.setTmr (s : State) (n o : Nat) (v : Word32) : State := s.setReg pAON (0xA00 + 0x20 * n + o) v

/-- Who holds channel `n`. -/
def State.claimOf (s : State) (n : Nat) : Option Claimant := sget none s.pw.claims n

/-- The claimant that a requester is. -/
def claimantOf : Requester → Claimant
  | .host => .host
  | .mgmt => .mgmt

/-- Set AON_TMR_RESULT of a requester: channel and result (0 granted, 1 CLAIM_CONFLICT, 2 NO_CHANNEL). -/
def State.tmrResult (s : State) (r : Requester) (ch res : Nat) : State :=
  let v : Word32 := BitVec.ofNat 32 (ch + res * 2 ^ 8 + 2 ^ 31)
  { s with pw := if r = .host then { s.pw with tmrResHost := v } else { s.pw with tmrResMgmt := v } }

/-- Is an owner code one that the requester may claim with (R82's table)? -/
def ownerCodeOk (r : Requester) (c : Nat) : Bool :=
  if r = .host then decide (1 ≤ c) && decide (c ≤ 0x3F) else decide (0x40 ≤ c) && decide (c ≤ 0x7F)

/-- Give channel `n` to a claimant under an owner code. -/
def State.takeTmr (s : State) (n : Nat) (c : Claimant) (code : Nat) : State :=
  ({ s with pw := { s.pw with claims := sset none s.pw.claims n (some c) } }).setTmr n 0 (BitVec.ofNat 32 code)

/-- The lowest free channel. -/
def State.freeTmr (s : State) : Option Nat := (List.range 8).find? (fun n => (s.claimOf n).isNone)

/-- A hardware owner claims the lowest free channel (R82); none when all eight are claimed (R83). -/
def State.claimHw (s : State) (code : Nat) : Option (Nat × State) :=
  s.freeTmr.map (fun n => (n, s.takeTmr n .hw code))

/-- The channel a hardware owner holds. -/
def State.hwTmr (s : State) (code : Nat) : Option Nat :=
  (List.range 8).find? (fun n => s.claimOf n == some .hw && (s.tmr n 0).toNat == code)

/-- Set a channel's compare value; the channel may fire again. -/
def State.setCmp (s : State) (n : Nat) (t : BitVec 48) : State :=
  let s := (s.setTmr n 4 (t.setWidth 32)).setTmr n 8 (BitVec.ofNat 32 (t.toNat / 2 ^ 32))
  { s with pw := { s.pw with spent := setBit s.pw.spent n false } }

/-- A channel's compare value. -/
def State.cmp (s : State) (n : Nat) : BitVec 48 :=
  BitVec.ofNat 48 ((s.tmr n 4).toNat + fld (s.tmr n 8) 0 16 * 2 ^ 32)

/-- A channel is released: its registers are cleared, so that a free channel never fires (R82; DEDUCED, log entry 24). -/
def State.freeChannel (s : State) (n : Nat) : State :=
  let s := [0, 4, 8, 0xC, 0x10].foldl (fun s o => s.setTmr n o 0) s
  { s with pw := { s.pw with claims := sset none s.pw.claims n none, spent := setBit s.pw.spent n false } }

/-- A write of AON_TMRn_OWNER: a claim of a free channel, a release by its claimant, or a refusal (R81, R82)
(DEDUCED, log entry 65). -/
def State.tmrOwner (s : State) (r : Requester) (n : Nat) (v : Word32) : State :=
  let c := fld v 0 8
  if c = 0 then
    if s.claimOf n = some (claimantOf r) then s.freeChannel n else s
  else if !ownerCodeOk r c then s
  else match s.claimOf n with
    | some _ => s.tmrResult r n 1
    | none => (s.takeTmr n (claimantOf r) c).tmrResult r n 0

/-- A write of AON_TMR_ALLOC (R81). -/
def State.tmrAlloc (s : State) (r : Requester) (v : Word32) : State :=
  let s := s.store pAON 0x9F0 v
  let c := fld v 0 8
  if !ownerCodeOk r c then s
  else match s.freeTmr with
    | none => s.tmrResult r 0 2
    | some n => (s.takeTmr n (claimantOf r) c).tmrResult r n 0

/-- A write of another register of a channel, by its owner only (R82): offset 4, 8, 0xC or 0x10. -/
def State.tmrWrite (s : State) (r : Requester) (n o : Nat) (v : Word32) : State :=
  if s.claimOf n ≠ some (claimantOf r) then s
  else if o = 0x10 then
    let old := s.tmr n 0x10
    let s := s.setTmr n 0x10 (putFld (v &&& 0x7F03) 2 1 (bnat (bit old 2 && !bit v 2)))
    if bit v 0 ∧ !bit old 0 then { s with pw := { s.pw with spent := setBit s.pw.spent n false } } else s
  else
    let s := s.store pAON (0xA00 + 0x20 * n + o) v
    if o = 4 ∨ o = 8 then { s with pw := { s.pw with spent := setBit s.pw.spent n false } } else s

/-- TIMER_CLAIM (R81). -/
def execTimerClaim (r : Requester) (n : Fin 8) (v : Word32) (s : State) : Host.Outcome State Fault Refusal :=
  ok (s.write r pAON (0xA00 + 0x20 * n.val) (fun s => s.tmrOwner r n v))

/-- TIMER_RELEASE (R82). -/
def execTimerRelease (r : Requester) (n : Fin 8) (s : State) : Host.Outcome State Fault Refusal :=
  ok (s.write r pAON (0xA00 + 0x20 * n.val) (fun s => s.tmrOwner r n 0))

/-- AON_TMR_ALLOC (R81). -/
def execAonTmrAlloc (r : Requester) (v : Word32) (s : State) : Host.Outcome State Fault Refusal :=
  ok (s.write r pAON 0x9F0 (fun s => s.tmrAlloc r v))

/-- Does channel `n` reach its compare value (R80)? A one-shot channel fires once until it is set again
(DEDUCED, log entry 64). -/
def State.tmrDue (s : State) (n : Nat) : Bool :=
  bit (s.tmr n 0x10) 0 && !s.pw.spent.getLsbD n && decide ((s.cmp n).toNat ≤ s.pw.aonTime.toNat)

/-- The fire of channel `n` on the AON page: FIRED, event, wake set, PERIOD (R80). -/
def State.tmrFire (s : State) (n : Nat) : State :=
  let s := s.setTmr n 0x10 (setBit (s.tmr n 0x10) 2 true)
  let s := s.raise pAON (16 + n)
  let s := if bit (s.tmr n 0x10) 1 then s.wakeSet (fld (s.tmr n 0x10) 8 7) else s
  let per := s.tmr n 0xC
  if per = 0 then { s with pw := { s.pw with spent := setBit s.pw.spent n true } }
  else s.setCmp n (s.cmp n + per.setWidth 48)

/-! ### Device watchdog (04_reset_boot.md R98, R99) -/

/-- A write of AON_WDOG_CTL: with EN it claims a channel for owner 0x83 and arms it; with no channel free EN reads 0
and the refusal shows in AON_TMR_RESULT (R98, R83) (DEDUCED, log entry 68). -/
def State.wdogCtl (s : State) (r : Requester) (v : Word32) : State :=
  if !bit v 0 then s.store pAON 0x8B0 v
  else match s.claimHw 0x83 with
    | none => (s.setReg pAON 0x8B0 (setBit (v &&& 0xFFFFFF00) 0 false)).tmrResult r 0 2
    | some (n, s) =>
      let s := s.store pAON 0x8B0 v
      (s.setCmp n (s.pw.aonTime + BitVec.ofNat 48 (fld v 8 24))).setTmr n 0x10 1

/-- A write of AON_WDOG_KICK (R99). -/
def State.wdogKick (s : State) (v : Word32) : State :=
  if v = 0x4B49434B then
    match s.hwTmr 0x83 with
    | none => s
    | some n => s.setCmp n (s.pw.aonTime + BitVec.ofNat 48 (fld (s.reg pAON 0x8B0) 8 24))
  else s

/-- AON_WDOG_CTL (R98). -/
def execAonWdogCtl (r : Requester) (v : Word32) (s : State) : Host.Outcome State Fault Refusal :=
  ok (s.write r pAON 0x8B0 (fun s => s.wdogCtl r v))

/-- AON_WDOG_KICK (R99). -/
def execAonWdogKick (r : Requester) (v : Word32) (s : State) : Host.Outcome State Fault Refusal :=
  ok (s.write r pAON 0x8B4 (fun s => s.wdogKick v))

/-! ### Supply monitors (R84, R85) -/

/-- Is GPIO3 claimed as SAG_WARN (21_host_management.md R622)? -/
def State.gpioSag (s : State) : Bool :=
  fld (s.reg pMGT 0x81C) 0 8 != 0 && fld (s.reg pMGT 0x81C) 8 3 == 5

/-- SUPPLY_WARN_ASSERT (R85). -/
def execSupplyWarnAssert (src : Fin 3) (s : State) : Host.Outcome State Fault Refusal :=
  ok (if s.pw.warn.getLsbD src ∨ (src = 2 ∧ !s.gpioSag) then s
    else
      let s := { s with pw := { s.pw with warn := setBit s.pw.warn src true } }
      let s := s.setReg pAON 0x80C (setBit (s.reg pAON 0x80C) src true)
      (s.inc pAON 0xF08).raise pAON 24)

/-- SUPPLY_WARN_CLEAR (R85). -/
def execSupplyWarnClear (src : Fin 3) (s : State) : Host.Outcome State Fault Refusal :=
  ok { s with pw := { s.pw with warn := setBit s.pw.warn src false } }

end Sys2Proof.Machine
end

