-- ==== Sys2Proof/Machine/Memory.lean ====
section
/-! DEFINITION. Stacked memory, its ECC and poison, and the hint cache (09_stacked_memory.md R250 to R279): every
access of every block passes through `lineRead` and `lineWrite`. -/

namespace Sys2Proof.Machine

/-! ### Partitions (18_sharing.md R540) -/

/-- Is SCH_MODE PARTITIONED? -/
def State.parted (s : State) : Bool := bit (s.reg pSCH 0x100) 0

/-- The partition of system accesses. -/
def State.sysPart (s : State) : Nat := if s.parted then fld (s.reg pSCH 0x118) 0 4 else 0

/-- The partition of BAR2 accesses. -/
def State.bar2Part (s : State) : Nat := if s.parted then fld (s.reg pSCH 0x118) 8 4 else 0

/-- The partition of a tenant; SYSTEM has the system's. -/
def State.tenantPart (s : State) (t : Nat) : Nat :=
  if !s.parted then 0
  else if t < 64 then fld (s.reg pSCH (0x120 + 4 * (t / 8))) (4 * (t % 8)) 4 else s.sysPart

/-! ### Address map (R253 to R256) -/

/-- Bytes of device memory (09_stacked_memory.md, Address map). -/
abbrev memBytes : Nat := 0xC000000000

/-- Is the map GROUPED (MEM_MAP_CFG)? -/
def State.grouped (s : State) : Bool := bit (s.reg (pMEM 0) 0x100) 0

/-- Stack, channel and offset in channel of a device address (R254, R255). -/
def locate (grouped : Bool) (pa : Nat) : Nat × Nat × Nat :=
  if grouped then
    let g := pa / 0xC00000000
    let o := pa % 0xC00000000
    let k := o / 256
    (k % 8, g, k / 8 * 256 + o % 256)
  else
    let k := pa / 256
    let q := k % 128
    (q % 8, q / 8, k / 128 * 256 + pa % 256)

/-- The device address of a stack, channel and offset. -/
def unlocate (grouped : Bool) (stack ch off : Nat) : Nat :=
  if grouped then ch * 0xC00000000 + (off / 256 * 8 + stack) * 256 + off % 256
  else (off / 256 * 128 + ch * 8 + stack) * 256 + off % 256

/-- Slice and set of a line (R256). -/
def sliceSet (grouped : Bool) (pa : Nat) : Nat × Nat :=
  let (st, ch, off) := locate grouped pa
  (2 * st + ch / 8, (off / 64 * 8 + ch % 8) % 8192)

/-! ### State of a stack and of a set -/

/-- One stack. -/
def State.stack (s : State) (k : Nat) : Hbm := sget {} s.mem.hbms k

/-- Change a stack. -/
def State.modStack (s : State) (k : Nat) (f : Hbm → Hbm) : State :=
  { s with mem := { s.mem with hbms := smod {} s.mem.hbms k f } }

/-- The line in a way. -/
def State.way (s : State) (sl set w : Nat) : Option HccLine := sget none s.mem.hcc ((sl * 8192 + set) * 16 + w)

/-- Change a way. -/
def State.setWay (s : State) (sl set w : Nat) (l : Option HccLine) : State :=
  { s with mem := { s.mem with hcc := sset none s.mem.hcc ((sl * 8192 + set) * 16 + w) l } }

/-- The way that holds a line. -/
def State.findWay (s : State) (sl set line : Nat) : Option (Nat × HccLine) :=
  (List.range 16).findSome? (fun w => match s.way sl set w with
    | some l => if l.line = line then some (w, l) else none
    | none => none)

/-- The bytes of a line as stacked memory holds them. -/
def State.stored (s : State) (line : Nat) : List Byte := sgets 0 s.mem.bytes (64 * line) 64

/-- Store a line's bytes and poison code (R260). -/
def State.storeLine (s : State) (line : Nat) (bs : List Byte) (poison : Bool) : State :=
  { s with mem := { s.mem with bytes := ssets 0 s.mem.bytes (64 * line) (bs.take 64)
                               poison := sset false s.mem.poison line poison } }

/-- Store a line with the stack's byte count. -/
def State.writeBack (s : State) (line : Nat) (bs : List Byte) (poison : Bool) : State :=
  (s.storeLine line bs poison).inc (pMEM (locate s.grouped (64 * line)).1) 0xF08 64

/-- Record an uncorrectable line in MEM_LAST_UE (sources 0 demand, 1 scrub, 2 dirty hint-cache line), raise the event
and log it POISONED with the address (R258, R276). -/
def State.recordUe (s : State) (line src : Nat) (count : Bool) : State :=
  let pa := 64 * line
  let k := (locate s.grouped pa).1
  let s := if count then s.inc (pMEM k) 0xF18 else s
  let s := s.setReg (pMEM k) 0x808 (BitVec.ofNat 32 pa)
  let s := s.setReg (pMEM k) 0x80C (BitVec.ofNat 32 (pa / 2 ^ 32 % 256 + src * 2 ^ 28 + 2 ^ 31))
  (s.raise (pMEM k) 16).detect cPOISONED stECC_UNCORRECTABLE 0x19 k none pa

/-- A line read from stacked memory as the controller finds it (R257 to R259): its bytes and mark. -/
def State.fetchLine (s : State) (line : Nat) (ecc : EccObs) (src : Nat) : List Byte × Bool × State :=
  let k := (locate s.grouped (64 * line)).1
  let s := s.inc (pMEM k) 0xF00 64
  let bs := s.stored line
  if sget false s.mem.poison line then (bs, true, s.inc (pMEM k) 0xF20)
  else match ecc with
    | .clean => (bs, false, s)
    | .correctable => (bs, false, (s.inc (pMEM k) 0xF10).detect cCORRECTED stECC_CORRECTED 0x19 k none (64 * line))
    | .uncorrectable => (bs, true, (s.storeLine line bs true).recordUe line src true)

/-- The way mask of a partition in a slice (R277). -/
def State.wayMask (s : State) (sl part : Nat) : Nat :=
  fld (s.reg (pHCC sl) (0x100 + 4 * (part / 2))) (16 * (part % 2)) 16

/-- The way of `ws` least recently used. -/
def lruOf : List (Nat × HccLine) → Option Nat
  | [] => none
  | e :: es => some (es.foldl (fun m x => if x.2.used < m.2.used then x else m) e).1

/-- The way that an allocation takes (R273): an empty way of the mask, which one being free (DESIGN CHOICE, log entry 5), else the
least recently used line that is not KEEP, else the least recently used KEEP line. -/
def State.victim (s : State) (sl set mask : Nat) : Option Nat × State :=
  let ws := (List.range 16).filter (fun w => mask.testBit w)
  let empty := ws.filter (fun w => (s.way sl set w).isNone)
  if empty.isEmpty then
    let full := ws.filterMap (fun w => (s.way sl set w).map (fun l => (w, l)))
    match lruOf (full.filter (fun e => !e.2.keep)) with
    | some w => (some w, s)
    | none => (lruOf full, s)
  else
    let v := s.freeVal; let s := s.usedFree
    (empty[v % empty.length]?, s)

/-- KEEP lines of a set. -/
def State.keeps (s : State) (sl set : Nat) : Nat :=
  ((List.range 16).filter (fun w => match s.way sl set w with | some l => l.keep | none => false)).length

/-- Put a line into its slice; a dirty victim is written back. With no way allowed it answers none (R277). -/
def State.allocate (s : State) (line part : Nat) (bs : List Byte) (dirty keep poison : Bool) : Option State :=
  let (sl, set) := sliceSet s.grouped (64 * line)
  match s.victim sl set (s.wayMask sl part) with
  | (none, _) => none
  | (some w, s) =>
    let s := match s.way sl set w with
      | some l => if l.dirty then (s.writeBack l.line l.data l.poison).inc (pHCC sl) 0xF20 else s
      | none => s
    let s := s.setWay sl set w none
    let keep := keep && decide (s.keeps sl set < min 16 (fld (s.reg (pHCC sl) 0x120) 0 5))
    let s := { s with mem := { s.mem with clock := s.mem.clock + 1 } }
    some (s.setWay sl set w (some { line := line, data := bs, dirty := dirty, keep := keep, poison := poison
                                    used := s.mem.clock }))

/-- One access counted for heat (10_tiers_quotas.md R293). -/
def State.heatUp (s : State) (sl line : Nat) : State :=
  let k := sl * 393216 + line / 32768
  { s with mem := { s.mem with heat := smod 0 s.mem.heat k (fun n => min 0xFFFF (n + 1)) } }

/-- The hint that an access acts by: LAST from a requester that may not write the tensor, and LAST on a write, act
as STREAM and count (R274). -/
def State.effHint (s : State) (sl : Nat) (h : Hint) (write mayWrite : Bool) : Hint × State :=
  if h = .last ∧ (write ∨ !mayWrite) then (.stream, s.inc (pHCC sl) 0xF30) else (h, s)

/-- What the slice's own codes find on a hit (R276): the line to serve, none when a clean line was lost. -/
def State.hccCheck (s : State) (sl set w : Nat) (l : HccLine) (obs : HccObs) : Option HccLine × State :=
  match obs with
  | .clean => (some l, s)
  | .correctable => (some l, s.inc (pHCC sl) 0xF38)
  | .uncorrectable =>
    let s := s.inc (pHCC sl) 0xF40
    if l.dirty then
      let l := { l with poison := true }
      (some l, (s.setWay sl set w (some l)).recordUe l.line 2 false)
    else (none, (s.setWay sl set w none).detect cCORRECTED stECC_UNCORRECTABLE 0x1A sl none (64 * l.line))

/-- Make a line of a way most recent, and KEEP if asked. -/
def State.touch (s : State) (sl set w : Nat) (l : HccLine) (keep : Bool) : State :=
  let s := { s with mem := { s.mem with clock := s.mem.clock + 1 } }
  s.setWay sl set w (some { l with used := s.mem.clock, keep := l.keep || keep })

/-- A read of one line (R271 to R276): its bytes and mark. -/
def State.lineRead (s : State) (line : Nat) (hint : Hint) (part : Nat) (mayWrite : Bool) (ecc : EccObs)
    (obs : HccObs) : List Byte × Bool × State :=
  let (sl, set) := sliceSet s.grouped (64 * line)
  let s := s.heatUp sl line
  let (h, s) := s.effHint sl hint false mayWrite
  let hit : Option (Nat × HccLine) × State := match s.findWay sl set line with
    | none => (none, s)
    | some (w, l) => match s.hccCheck sl set w l obs with
      | (some l, s) => (some (w, l), s)
      | (none, s) => (none, s)
  match hit with
  | (some (w, l), s) =>
    let s := s.inc (pHCC sl) 0xF00
    let s := match h with
      | .default => s.touch sl set w l false
      | .stream => s
      | .keep => s.touch sl set w l true
      | .last => (if l.dirty then s.inc (pHCC sl) 0xF28 else s).setWay sl set w none
    (l.data, l.poison, s)
  | (none, s) =>
    let s := s.inc (pHCC sl) 0xF08
    let (bs, po, s) := s.fetchLine line ecc 0
    let s := if h = .default ∨ h = .keep then
        match s.allocate line part bs false (h == .keep) po with
        | some t => t
        | none => s
      else s
    (bs, po, s)

/-- Bytes `bs` written over a line from byte `lo`. -/
def overlay (old : List Byte) (lo : Nat) (bs : List Byte) : List Byte :=
  old.take lo ++ bs ++ old.drop (lo + bs.length)

/-- The mark of a line after a write (R261): a whole-line write stores its own mark, a partial one keeps a mark. -/
def markAfter (old whole poison : Bool) : Bool := if whole then poison else old || poison

/-- A write of bytes within one line, from byte `lo` of it (R261, R271 to R274). -/
def State.lineWrite (s : State) (line lo : Nat) (bs : List Byte) (poison : Bool) (hint : Hint) (part : Nat)
    (mayWrite : Bool) (ecc : EccObs) (obs : HccObs) : State :=
  let (sl, set) := sliceSet s.grouped (64 * line)
  let whole := bs.length == 64
  let s := s.heatUp sl line
  let (h, s) := s.effHint sl hint true mayWrite
  let hit : Option (Nat × HccLine) × State := match s.findWay sl set line with
    | none => (none, s)
    | some (w, l) => match s.hccCheck sl set w l obs with
      | (some l, s) => (some (w, l), s)
      | (none, s) => (none, s)
  match hit with
  | (some (w, l), s) =>
    let s := s.inc (pHCC sl) 0xF10
    let l := { l with data := overlay l.data lo bs, dirty := true, poison := markAfter l.poison whole poison }
    match h with
    | .default => s.touch sl set w l false
    | .keep => s.touch sl set w l true
    | .stream => s.setWay sl set w (some l)
    | .last => s.setWay sl set w (some l)
  | (none, s) =>
    let s := s.inc (pHCC sl) 0xF18
    let (old, po, s) := if whole then (bs, false, s) else s.fetchLine line ecc 0
    let new := overlay old lo bs
    let mark := markAfter po whole poison
    let alloc := if h = .default ∨ h = .keep then s.allocate line part new true (h == .keep) mark else none
    match alloc with
    | some t => t
    | none => s.writeBack line new mark

/-! ### Accesses by blocks -/

/-- The controller and PHY that serve an address are woken (R72). The time an access waits for them is not
modelled (DESIGN CHOICE, log entry 25). -/
def State.wakeFor (s : State) (pa : Nat) : State :=
  let k := (locate s.grouped pa).1
  if s.domOn (dMem k) then s else s.wakeDom (dMem k)

/-- Read `n` bytes at device address `a`, line by line, by a block: bytes, and whether any line is poisoned. -/
def State.memRd (s : State) (hint : Hint) (part : Nat) (mayWrite : Bool) : Nat → Nat → Nat → List Byte × Bool × State
  | 0, _, _ => ([], false, s)
  | fuel + 1, a, n =>
    if n = 0 then ([], false, s)
    else if memBytes ≤ a then
      ((List.range n).map (fun i => Config.outsideByte (a + i)), false, s)
    else
      let lo := a % 64
      let m := min n (64 - lo)
      let s := s.wakeFor a
      let (bs, po, s) := s.lineRead (a / 64) hint part mayWrite .clean .clean
      let (rest, po2, s) := s.memRd hint part mayWrite fuel (a + m) (n - m)
      ((bs.drop lo).take m ++ rest, po || po2, s)

/-- Read `n` bytes at device address `a` with the default hint. -/
def State.devRead (s : State) (part a n : Nat) : List Byte × Bool × State :=
  s.memRd .default part true (n / 64 + 2) a n

/-- Write bytes at device address `a`, line by line, by a block. -/
def State.memWr (s : State) (hint : Hint) (part : Nat) (mayWrite poison : Bool) : Nat → Nat → List Byte → State
  | 0, _, _ => s
  | fuel + 1, a, bs =>
    if bs.isEmpty ∨ memBytes ≤ a then s
    else
      let lo := a % 64
      let m := min bs.length (64 - lo)
      let s := s.wakeFor a
      let s := s.lineWrite (a / 64) lo (bs.take m) poison hint part mayWrite .clean .clean
      s.memWr hint part mayWrite poison fuel (a + m) (bs.drop m)

/-- Write bytes at device address `a` with the default hint. -/
def State.devWrite (s : State) (part a : Nat) (bs : List Byte) (poison : Bool := false) : State :=
  s.memWr .default part true poison (bs.length / 64 + 2) a bs

/-- The byte that a read of device address `a` gives now: the cached copy, else the stored byte. -/
def State.devByte (s : State) (a : Nat) : Byte :=
  let (sl, set) := sliceSet s.grouped a
  match s.findWay sl set (a / 64) with
  | some (_, l) => l.data.getD (a % 64) 0
  | none => sget 0 s.mem.bytes a

/-- Is the line at device address `a` poisoned now? -/
def State.devMark (s : State) (a : Nat) : Bool :=
  let (sl, set) := sliceSet s.grouped a
  match s.findWay sl set (a / 64) with
  | some (_, l) => l.poison
  | none => sget false s.mem.poison (a / 64)

/-- Zero the lines from device address `a` on, outside the counters (10_tiers_quotas.md R284, R96). -/
def State.zeroRange (s : State) (a n : Nat) : State :=
  { s with mem := { s.mem with
      bytes := s.mem.bytes.filter (fun e => !(decide (a ≤ e.1) && decide (e.1 < a + n)))
      poison := s.mem.poison.filter (fun e => !(decide (a ≤ 64 * e.1) && decide (64 * e.1 < a + n)))
      hcc := s.mem.hcc.filter (fun e => match e.2 with
        | some l => !(decide (a ≤ 64 * l.line) && decide (64 * l.line < a + n))
        | none => true) } }

/-- Write back every dirty line of a slice's selected ways, and drop them if asked (R279). -/
def State.flushSlice (s : State) (sl ways : Nat) (inval : Bool) : State :=
  s.mem.hcc.foldl (fun s e => match e.2 with
    | some l =>
      if e.1 / 131072 = sl ∧ ways.testBit (e.1 % 16) then
        let s := if l.dirty then (s.writeBack l.line l.data l.poison).inc (pHCC sl) 0xF20 else s
        let keep : Option HccLine := if inval then none else some { l with dirty := false }
        { s with mem := { s.mem with hcc := sset none s.mem.hcc e.1 keep } }
      else s
    | none => s) s

/-! ### Temperature and scrub (R263 to R270) -/

/-- The refresh multiplier after a reading (R263). -/
def multAfter (m t : Nat) : Nat :=
  if 95 < t then 2
  else if 85 < t then (if m = 2 ∧ 93 < t then 2 else 1)
  else if m = 0 then 0
  else if t ≤ 83 then 0 else 1

/-- TEMP_READING (R263 to R265). -/
def execTempReading (stack : Fin 8) (t : Nat) (s : State) : Host.Outcome State Fault Refusal :=
  ok (if !s.domLive (dMem stack) then s
    else
      let g := s.stack stack
      let m := multAfter g.mult t
      let th := (decide (105 < t) && decide (t < 110)) || (g.throttled && decide (103 < t))
      let s := s.modStack stack (fun g => { g with temp := t, tempMax := max g.tempMax t, mult := m, throttled := th })
      let s := if m ≠ g.mult then s.raise (pMEM stack) 17 else s
      let s := if th ∧ !g.throttled then s.raise (pMEM stack) 18 else s
      if 110 ≤ t ∧ !g.stopped then
        (s.modStack stack (fun g => { g with stopped := true, selfRefresh := true })).detectOpen cFATAL stMEM_OVERTEMP
          0x19 stack none
      else s)

/-- Lines of a stack. -/
abbrev stackLines : Nat := 1610612736

/-- The device line that a stack's scrub reads at a position: ascending channel and offset (R267). -/
def scrubAt (grouped : Bool) (stack pos : Nat) : Nat :=
  unlocate grouped stack (pos / 100663296) (pos % 100663296 * 64) / 64

/-- Does the hint cache hold a line dirty? -/
def State.heldDirty (s : State) (line : Nat) : Bool :=
  let (sl, set) := sliceSet s.grouped (64 * line)
  match s.findWay sl set line with
  | some (_, l) => l.dirty
  | none => false

/-- Scrub reads its next line (R267 to R269); the second value is the line if it was found uncorrectable. -/
def State.scrub (s : State) (k : Nat) (ecc : EccObs) (raced : Bool) : State × Option Nat :=
  let g := s.stack k
  let line := scrubAt s.grouped k g.scrubPos
  let s := s.inc (pMEM k) 0xF30
  let fresh := !sget false s.mem.poison line
  let (s, bad) :=
    if ecc = .uncorrectable ∧ fresh ∧ s.heldDirty line then
      ((s.inc (pMEM k) 0xF00 64).detect cCORRECTED stECC_UNCORRECTABLE 0x19 k none (64 * line), none)
    else
      let (bs, _, s) := s.fetchLine line ecc 1
      if fresh ∧ ecc = .correctable then
        (if raced then s.inc (pMEM k) 0xF58 else s.writeBack line bs false, none)
      else (s, if fresh ∧ ecc = .uncorrectable then some line else none)
  let pos := g.scrubPos + 1
  if pos = stackLines then
    (((s.modStack k (fun g => { g with scrubPos := 0 })).inc (pMEM k) 0xF38).raise (pMEM k) 19, bad)
  else (s.modStack k (fun g => { g with scrubPos := pos }), bad)

/-! ### Flush (R279) -/

/-- A write of HCC_FLUSH_CMD (R279): the scan passes every set as the flush begins (DESIGN CHOICE, log entry 26). -/
def State.hccFlush (s : State) (sl : Nat) (v : Word32) : State :=
  if !bit v 31 then s
  else if s.mem.flushing.getLsbD sl then s.setReg (pHCC sl) 0x804 (setBit (s.reg (pHCC sl) 0x804) 2 true)
  else if !s.pgEn (pHCC sl) then s
  else
    let s := s.flushSlice sl (fld v 0 16) (bit v 16)
    let s := { s with mem := { s.mem with flushing := setBit s.mem.flushing sl true } }
    s.setReg (pHCC sl) 0x804 1

/-- HCC_FLUSH_CMD (R279). -/
def execHccFlushCmd (r : Requester) (sl : Fin 16) (v : Word32) (s : State) : Host.Outcome State Fault Refusal :=
  ok (s.write r (pHCC sl) 0x800 (fun s => s.hccFlush sl v))

/-- FLUSH_DONE (R279). -/
def execFlushDone (sl : Fin 16) (s : State) : Host.Outcome State Fault Refusal :=
  ok (if s.mem.flushing.getLsbD sl then
      let s := { s with mem := { s.mem with flushing := setBit s.mem.flushing sl false } }
      (s.setReg (pHCC sl) 0x804 (putFld (s.reg (pHCC sl) 0x804) 0 2 2)).raise (pHCC sl) 16
    else s)

end Sys2Proof.Machine
end

