-- ==== Sys2Proof/Machine/Queue.lean ====
section
/-! DEFINITION. Command queues (21_host_management.md R599 to R608): doorbells, entry fetch and checks, duplicates,
completions. The commands themselves stand in the files of their engines. -/

namespace Sys2Proof.Machine

/-- A queue. -/
def State.que (s : State) (q : Nat) : Que := sget {} s.ques q

/-- Change a queue. -/
def State.modQue (s : State) (q : Nat) (f : Que → Que) : State := { s with ques := smod {} s.ques q f }

/-- Entries of a ring (QUE_CFG.LOG2_SIZE: 6 to 12, others act as 6). -/
def State.queSize (s : State) (q : Nat) : Nat :=
  let n := fld (s.reg (pQUE q) 0x110) 0 4
  if 6 ≤ n ∧ n ≤ 12 then 2 ^ n else 64

/-- Is a context VALID (CTX_CFG)? -/
def State.ctxValid (s : State) (x : Nat) : Bool := bit (s.reg (pCTX x) 0x100) 6

/-- The VALID context bound to a queue (R517). -/
def State.queCtx (s : State) (q : Nat) : Option CtxId :=
  (List.finRange 64).find? (fun x => s.ctxValid x && fld (s.reg (pCTX x) 0x100) 8 6 == q)

/-- The driver's window area is VALID (HIF_WIN_BASE). -/
def State.winValid (s : State) : Bool := bit (s.reg pHIF 0x104) 31

/-! ### Completions (R603 to R607) -/

/-- Write one completion (R605). -/
def State.putCompletion (s : State) (q : Nat) (e : QEntry) (d : QDone) (dup : Bool) : State :=
  let i := (s.reg (pQUE q) 0x808).toNat
  let size := s.queSize q
  let base := (s.reg64 (pQUE q) 0x108).toNat / 4096 * 4096
  let phase := bnat (i / size % 2 == 0)
  let bs := leBytes 8 e.cid.toNat ++ leBytes 2 d.status.toNat ++ [d.op, BitVec.ofNat 8 (phase + 2 * bnat dup)]
    ++ leBytes 4 e.idx.toNat ++ slice d.result 0 16
  let s := (s.dmaOut (.hostWrite (base + 32 * (i % size)) bs)).inc pHIF 0xF18 32
  let s := s.setReg (pQUE q) 0x808 (BitVec.ofNat 32 (i + 1))
  let cfg := s.reg (pQUE q) 0x110
  if bit cfg 16 ∧ e.irq then s.signalVec (BitVec.ofNat 8 (fld cfg 8 8)) else s

/-- An entry completes; the duplicates that waited for it follow (R605, R607). -/
def State.completeEntry (s : State) (q : Nat) (e : QEntry) (st : BitVec 16) (result : List Byte) : State :=
  let d : QDone := { status := st, op := e.op, result := slice result 0 16 }
  let dups := (s.que q).dups.filter (fun f => f.cid == e.cid)
  let s := s.modQue q (fun k => { k with
    dups := k.dups.filter (fun f => f.cid != e.cid)
    window := k.window.map (fun w => if w.1 = e.cid then (w.1, some d) else w) })
  dups.foldl (fun s f => s.putCompletion q f d true) (s.putCompletion q e d false)

/-- A command that has begun completes. -/
def State.completeRunning (s : State) (q : Nat) (cid : Word64) (st : BitVec 16) (result : List Byte) : State :=
  match (s.que q).running.find? (fun e => e.cid == cid) with
  | none => s
  | some e =>
    (s.modQue q (fun k => { k with running := k.running.filter (fun f => f.cid != cid) })).completeEntry q e st result

/-- The oldest entry not begun begins (R603): it is counted and runs. -/
def State.beginEntry (s : State) (q : Nat) (e : QEntry) : State :=
  (s.modQue q (fun k => { k with fetched := k.fetched.tail, running := k.running ++ [e] })).inc (pQUE q) 0xF00

/-! ### Doorbells and fetching (R600 to R602) -/

/-- A write of QUE_SQ_TAIL (R600, R72). -/
def State.doorbell (s : State) (q : Nat) (t : Word32) : State :=
  let tail := s.reg (pQUE q) 0x800
  let head := s.reg (pQUE q) 0x804
  if (t - tail).toNat ≤ s.queSize q - (tail - head).toNat then
    let s := s.setReg (pQUE q) 0x800 t
    let s := { s with pw := { s.pw with exitDue := s.pw.exitDue || s.pw.deep } }
    match s.queCtx q with
    | some x => s.wakeSet x
    | none => s
  else s.inc (pQUE q) 0xF10

/-- SQ_DOORBELL (R600). -/
def execSqDoorbell (r : Requester) (q : Fin 64) (v : Word32) (s : State) : Host.Outcome State Fault Refusal :=
  ok (s.write r (pQUE q) 0x800 (fun s => s.doorbell q v))

/-- May HIF fetch the entry at HEAD (R601)? -/
def State.mayFetch (s : State) (q : Nat) : Bool :=
  let head := s.reg (pQUE q) 0x804
  bit (s.reg (pQUE q) 0x110) 31 && s.dmaOn && s.winValid && !bit (s.reg (pQUE q) 0x810) 0
    && !(s.page (pQUE q)).srst && head != s.reg (pQUE q) 0x800
    && decide ((head - s.reg (pQUE q) 0x80C).toNat < s.queSize q)

/-- A queue halts (R604). -/
def State.queHalt (s : State) (q : Nat) (st : BitVec 16) : State :=
  let x := s.queCtx q
  let s := s.setReg (pQUE q) 0x810 (BitVec.ofNat 32 (1 + st.toNat * 2 ^ 16))
  (s.raise (pQUE q) 16).detectOpen cCONTAINED st 0x16 q x

/-- Are all bytes of a range zero? -/
def zeroAt (bs : List Byte) (lo n : Nat) : Bool := (slice bs lo n).all (fun b => b == 0)

/-- Checks 1 to 4 of a fetched entry (R602) (DEDUCED, log entry 122). -/
def State.entryFails (s : State) (q : Nat) (bs : List Byte) : Option (BitVec 16) :=
  let op := lef bs 8 1
  let clean := decide (1 ≤ op) && decide (op ≤ 3) && decide (lef bs 9 1 < 2) && zeroAt bs 0x0A 6 && zeroAt bs 0x18 40
    && (op == 1 || zeroAt bs 0x10 8) && (op == 2 || zeroAt bs 0x40 64)
  if !clean then some stDESC_INVALID
  else match s.queCtx q with
    | none => some stCTX_INVALID
    | some x =>
      if op = 2 ∧ lef bs 0x45 1 % 64 ≠ x.val then some stGROUP_DENIED
      else if op = 1 ∧ (lef bs 0x10 8 % 64 ≠ 0 ∨ memBytes < lef bs 0x10 8 + 64) then some stBOUND
      else none

/-- The entry that 128 bytes hold. -/
def parseEntry (bs : List Byte) (idx : Word32) : QEntry :=
  { cid := BitVec.ofNat 64 (lef bs 0 8), op := bs.getD 8 0, irq := bit (bs.getD 9 0) 0, idx := idx
    image := BitVec.ofNat 64 (lef bs 0x10 8), desc := slice bs 0x40 64 }

/-- A fetched entry: a duplicate, a failure, or one that waits to begin (R602, R606, R607). -/
def State.takeEntry (s : State) (q : Nat) (bs : List Byte) : State :=
  let head := s.reg (pQUE q) 0x804
  let e := parseEntry bs head
  let s := (s.setReg (pQUE q) 0x804 (head + 1)).inc pHIF 0xF10 128
  match (s.que q).window.find? (fun w => w.1 == e.cid) with
  | some (_, some d) => (s.inc (pQUE q) 0xF08).putCompletion q e d true
  | some (_, none) => (s.inc (pQUE q) 0xF08).modQue q (fun k => { k with dups := k.dups ++ [e] })
  | none =>
    let s := s.modQue q (fun k =>
      { k with window := (k.window ++ [(e.cid, none)]).drop (k.window.length + 1 - 4096) })
    match s.entryFails q bs with
    | some st => s.completeEntry q e st []
    | none => s.modQue q (fun k => { k with fetched := k.fetched ++ [e] })

/-- ENTRY_FETCH (R601, R604). -/
def execEntryFetch (q : Fin 64) (e : HostRead) (s : State) : Host.Outcome State Fault Refusal :=
  ok (if !s.mayFetch q then s
    else match e with
      | .abort => s.queHalt q stABORTED
      | .poisoned => s.queHalt q stDATA_POISON
      | .bytes bs => s.takeEntry q (slice bs 0 128))

/-- The oldest entry not begun, if it is of an operation and may begin (R603): a LOAD waits for every earlier LOAD. -/
def State.mayBegin (s : State) (q : Nat) (op : Byte) : Option QEntry :=
  match (s.que q).fetched with
  | [] => none
  | e :: _ =>
    if e.op ≠ op then none
    else if op = 1 ∧ (s.que q).running.any (fun f => f.op == 1) then none
    else some e

/-- NOP_COMMAND (R603). -/
def execNopCommand (q : Fin 64) (s : State) : Host.Outcome State Fault Refusal :=
  ok (match s.mayBegin q 3 with
    | none => s
    | some e => (s.beginEntry q e).completeRunning q e.cid stOK [])

/-- A write of QUE_CMD with RESUME: the halt is cleared, and HEAD still names the entry (R604). -/
def State.queResume (s : State) (q : Nat) : State := s.setReg (pQUE q) 0x810 0

/-- QUE_CMD_RESUME (R604). -/
def execQueCmdResume (r : Requester) (q : Fin 64) (s : State) : Host.Outcome State Fault Refusal :=
  ok (s.write r (pQUE q) 0x814 (fun s => s.queResume q))

/-- The soft reset of a QUE page (R608): entries not begun are dropped, and the window keeps only running commands. -/
def State.queReset (s : State) (q : Nat) : State :=
  s.modQue q (fun k => { k with
    fetched := [], dups := []
    window := k.window.filter (fun w => k.running.any (fun e => e.cid == w.1)) })

end Sys2Proof.Machine
end

