-- ==== Sys2Proof/Machine/Fp.lean ====
section
/-! DEFINITION. Floating-point arithmetic of the vector unit and the arrays (06_hj1_baseline.md R178 to R183,
05_cores_arrays.md R126, 07_hj2_contract.md R191 to R194): exact values, one rounding, IEEE 754 flags.
Tininess is judged before rounding (DEDUCED, log entry 20). -/

namespace Sys2Proof.Machine

/-- The value of a floating-point pattern: a number is (-1)^s * m * 2^e. -/
inductive FVal where
  | nan (signalling : Bool)
  | inf (s : Bool)
  | num (s : Bool) (m : Nat) (e : Int)
  deriving DecidableEq, Repr

/-- The five flags of R183 in their bit order. -/
abbrev FFlags := BitVec 5

/-- Invalid. -/
def fNV : FFlags := 1
/-- Divide by zero. -/
def fDZ : FFlags := 2
/-- Overflow. -/
def fOF : FFlags := 4
/-- Underflow. -/
def fUF : FFlags := 8
/-- Inexact. -/
def fNX : FFlags := 16

/-- A binary format: precision with the hidden bit, exponent of the least subnormal, and exponent-field width. -/
structure FFmt where
  p : Nat
  emin : Int
  ew : Nat
  deriving DecidableEq, Repr

/-- FP32. -/
def fmtF32 : FFmt := ⟨24, -149, 8⟩
/-- BF16. -/
def fmtBF16 : FFmt := ⟨8, -133, 8⟩
/-- FP8-E4M3. -/
def fmtE4M3 : FFmt := ⟨4, -9, 4⟩
/-- FP8-E5M2. -/
def fmtE5M2 : FFmt := ⟨3, -16, 5⟩

/-- The canonical NaN of FP32 (R179). -/
def qnan32 : Word32 := 0x7FC00000

/-- The value of an IEEE-style pattern (all-ones exponent: infinity or NaN). -/
def decodeIeee (f : FFmt) (x : Nat) : FVal :=
  let mb := f.p - 1
  let frac := x % 2 ^ mb
  let ex := x / 2 ^ mb % 2 ^ f.ew
  let s := x / 2 ^ (mb + f.ew) % 2 = 1
  if ex = 2 ^ f.ew - 1 then
    if frac = 0 then .inf s else .nan (decide (frac < 2 ^ (mb - 1)))
  else if ex = 0 then .num s frac f.emin
  else .num s (frac + 2 ^ mb) (f.emin + (ex : Int) - 1)

/-- The value of an FP32 pattern. -/
def f32val (x : Word32) : FVal := decodeIeee fmtF32 x.toNat

/-- The value of a BF16 pattern. -/
def bf16val (x : BitVec 16) : FVal := decodeIeee fmtBF16 x.toNat

/-- The value of an FP8-E4M3 pattern: 0x7F and 0xFF are NaN, there is no infinity. -/
def e4m3val (x : Byte) : FVal :=
  let n := x.toNat
  if n % 128 = 127 then .nan false
  else
    let frac := n % 8
    let ex := n / 8 % 16
    let s := n / 128 = 1
    if ex = 0 then .num s frac (-9) else .num s (frac + 8) (ex - 10)

/-- The value of an FP8-E5M2 pattern. -/
def e5m2val (x : Byte) : FVal :=
  match decodeIeee fmtE5M2 x.toNat with
  | .nan _ => .nan false
  | v => v

/-- A magnitude m * 2^e rounded to a format with unbounded exponent above: significand, exponent, inexact.
`draw` is the 16-bit draw of a stochastic rounding (R194); without it the nearest, ties to even. -/
def roundMag (f : FFmt) (draw : Option Nat) (m : Nat) (e : Int) : Nat × Int × Bool :=
  if m = 0 then (0, f.emin, false)
  else
    let top : Int := (Nat.log2 m : Int) + e
    let q : Int := max (top - (f.p - 1 : Nat)) f.emin
    if q ≤ e then (m * 2 ^ (e - q).toNat, q, false)
    else
      let sh := (q - e).toNat
      let lo := m / 2 ^ sh
      let rem := m % 2 ^ sh
      let up : Bool := match draw with
        | none => decide (2 ^ sh < 2 * rem) || (decide (2 * rem = 2 ^ sh) && lo % 2 == 1)
        | some r => decide (r * 2 ^ sh < 65536 * rem)
      let r := if up then lo + 1 else lo
      if r = 2 ^ f.p then (2 ^ (f.p - 1), q + 1, decide (rem ≠ 0)) else (r, q, decide (rem ≠ 0))

/-- Is the magnitude m * 2^e below the least normal of the format? -/
def isTiny (f : FFmt) (m : Nat) (e : Int) : Bool :=
  decide (m ≠ 0) && decide ((Nat.log2 m : Int) + e < f.emin + (f.p - 1 : Nat))

/-- The fields of a rounded finite magnitude below the format's overflow: exponent field and fraction. -/
def encodeMag (f : FFmt) (m : Nat) (q : Int) : Nat :=
  if m < 2 ^ (f.p - 1) then m
  else (q - f.emin + 1).toNat * 2 ^ (f.p - 1) + (m - 2 ^ (f.p - 1))

/-- Round to an IEEE-style format: pattern (sign in the top bit) and flags. -/
def roundIeee (f : FFmt) (draw : Option Nat) (s : Bool) (m : Nat) (e : Int) : Nat × FFlags :=
  let sg := if s then 2 ^ (f.p - 1 + f.ew) else 0
  let (r, q, nx) := roundMag f draw m e
  let code := encodeMag f r q
  let infCode := (2 ^ f.ew - 1) * 2 ^ (f.p - 1)
  if infCode ≤ code then (sg + infCode, fOF ||| fNX)
  else (sg + code, if nx then (if isTiny f m e then fUF ||| fNX else fNX) else 0)

/-- Round to FP32, nearest, ties to even (R178). -/
def round32 (s : Bool) (m : Nat) (e : Int) : Word32 × FFlags :=
  let r := roundIeee fmtF32 none s m e
  (BitVec.ofNat 32 r.1, r.2)

/-- The NaN result of R179, invalid when an operand signals. -/
def nanOf (sig : Bool) : Word32 × FFlags := (qnan32, if sig then fNV else 0)

/-- Does a value signal? -/
def FVal.signals : FVal → Bool
  | .nan s => s
  | _ => false

/-- Is a value a NaN? -/
def FVal.isNan : FVal → Bool
  | .nan _ => true
  | _ => false

/-- FP32 infinity. -/
def inf32 (s : Bool) : Word32 := if s then 0xFF800000 else 0x7F800000

/-- FP32 zero. -/
def zero32 (s : Bool) : Word32 := if s then 0x80000000 else 0

/-- The exact signed integer of a number scaled to exponent `e0`, not above its own. -/
def scaled (s : Bool) (m : Nat) (e e0 : Int) : Int :=
  let v : Int := (m * 2 ^ (e - e0).toNat : Nat)
  if s then -v else v

/-- The exact sum of two numbers, rounded once; an exact zero of unlike signs is +0. -/
def addNum (s1 : Bool) (m1 : Nat) (e1 : Int) (s2 : Bool) (m2 : Nat) (e2 : Int) : Word32 × FFlags :=
  let e0 := min e1 e2
  let v := scaled s1 m1 e1 e0 + scaled s2 m2 e2 e0
  if v = 0 then (zero32 (s1 && s2), 0)
  else round32 (decide (v < 0)) v.natAbs e0

/-- IEEE sum of two values. -/
def addVal : FVal → FVal → Word32 × FFlags
  | .nan a, y => nanOf (a || y.signals)
  | x, .nan b => nanOf (b || x.signals)
  | .inf a, .inf b => if a = b then (inf32 a, 0) else (qnan32, fNV)
  | .inf a, _ => (inf32 a, 0)
  | _, .inf b => (inf32 b, 0)
  | .num s1 m1 e1, .num s2 m2 e2 => addNum s1 m1 e1 s2 m2 e2

/-- The value with its sign inverted. -/
def FVal.neg : FVal → FVal
  | .nan s => .nan s
  | .inf s => .inf (!s)
  | .num s m e => .num (!s) m e

/-- The exact product, before any rounding; `none` for zero times infinity. -/
def mulExact : FVal → FVal → Option FVal
  | .nan a, y => some (.nan (a || y.signals))
  | x, .nan b => some (.nan (b || x.signals))
  | .inf a, .inf b => some (.inf (a != b))
  | .inf a, .num s m _ => if m = 0 then none else some (.inf (a != s))
  | .num s m _, .inf b => if m = 0 then none else some (.inf (s != b))
  | .num s1 m1 e1, .num s2 m2 e2 => some (.num (s1 != s2) (m1 * m2) (e1 + e2))

/-- Round an exact value to FP32. -/
def roundVal : FVal → Word32 × FFlags
  | .nan s => nanOf s
  | .inf s => (inf32 s, 0)
  | .num s m e => if m = 0 then (zero32 s, 0) else round32 s m e

/-- VADD. -/
def fadd (a b : Word32) : Word32 × FFlags := addVal (f32val a) (f32val b)

/-- VSUB. -/
def fsub (a b : Word32) : Word32 × FFlags := addVal (f32val a) (f32val b).neg

/-- VMUL. -/
def fmul (a b : Word32) : Word32 × FFlags :=
  match mulExact (f32val a) (f32val b) with
  | none => (qnan32, fNV)
  | some v => roundVal v

/-- A fused product and sum, rounded once; zero times infinity is invalid whatever is added (DEDUCED, log entry 20). -/
def fmaVal (x y z : FVal) : Word32 × FFlags :=
  match mulExact x y with
  | none => (qnan32, fNV)
  | some p => addVal p z

/-- VFMA. -/
def ffma (a b c : Word32) : Word32 × FFlags := fmaVal (f32val a) (f32val b) (f32val c)

/-- VFMS. -/
def ffms (a b c : Word32) : Word32 × FFlags := fmaVal (f32val a) (f32val b) (f32val c).neg

/-- The order of two values that are not NaN, −0 below +0: is the first strictly below? -/
def ltTotal : FVal → FVal → Bool
  | .inf a, .inf b => a && !b
  | .inf a, .num _ _ _ => a
  | .num _ _ _, .inf b => !b
  | .num s1 m1 e1, .num s2 m2 e2 =>
    let e0 := min e1 e2
    let u := scaled s1 m1 e1 e0
    let v := scaled s2 m2 e2 e0
    decide (u < v) || (decide (u = v) && s1 && !s2)
  | _, _ => false

/-- VMIN and VMAX: −0 orders below +0, a NaN operand gives NaN (R164). -/
def fminmax (isMax : Bool) (a b : Word32) : Word32 × FFlags :=
  let x := f32val a
  let y := f32val b
  if x.isNan || y.isNan then nanOf (x.signals || y.signals)
  else if ltTotal y x = isMax then (a, 0) else (b, 0)

/-- Numeric order of two values that are not NaN: −0 equals +0. -/
def cmpNum : FVal → FVal → Ordering
  | .inf a, .inf b => if a = b then .eq else if a then .lt else .gt
  | .inf a, .num _ _ _ => if a then .lt else .gt
  | .num _ _ _, .inf b => if b then .gt else .lt
  | .num s1 m1 e1, .num s2 m2 e2 =>
    let e0 := min e1 e2
    let u := scaled s1 m1 e1 e0
    let v := scaled s2 m2 e2 e0
    if u < v then .lt else if u = v then .eq else .gt
  | _, _ => .eq

/-- FP comparisons (R164): every comparison with a NaN is false except FNE. FEQ and FNE raise invalid on a
signalling NaN, FLT and FLE on any NaN (DEDUCED, log entry 20). -/
def fcmp (fn : Nat) (a b : Word32) : Bool × FFlags :=
  let x := f32val a
  let y := f32val b
  if x.isNan || y.isNan then
    (fn == 1, if x.signals || y.signals || fn == 2 || fn == 3 then fNV else 0)
  else
    let o := cmpNum x y
    (match fn with
     | 0 => o == .eq
     | 1 => o != .eq
     | 2 => o == .lt
     | _ => o != .gt, 0)

/-- VDIV (R180). -/
def fdiv (a b : Word32) : Word32 × FFlags :=
  match f32val a, f32val b with
  | .nan p, y => nanOf (p || y.signals)
  | x, .nan q => nanOf (q || x.signals)
  | .inf _, .inf _ => (qnan32, fNV)
  | .inf p, .num s _ _ => (inf32 (p != s), 0)
  | .num s _ _, .inf q => (zero32 (s != q), 0)
  | .num s1 m1 e1, .num s2 m2 e2 =>
    if m2 = 0 then (if m1 = 0 then (qnan32, fNV) else (inf32 (s1 != s2), fDZ))
    else if m1 = 0 then (zero32 (s1 != s2), 0)
    else
      let n := m1 * 2 ^ 60
      round32 (s1 != s2) (2 * (n / m2) + (if n % m2 = 0 then 0 else 1)) (e1 - e2 - 61)

/-- The integer square root, bit by bit from bit `b - 1` down. -/
def isqrtFrom (n : Nat) : Nat → Nat → Nat
  | 0, r => r
  | b + 1, r => let t := r + 2 ^ b
                isqrtFrom n b (if t * t ≤ n then t else r)

/-- The integer square root of a number below 2^128. -/
def isqrt (n : Nat) : Nat := isqrtFrom n 64 0

/-- A number with an even exponent: the same value. -/
def evenExp (m : Nat) (e : Int) : Nat × Int := if e % 2 = 0 then (m, e) else (2 * m, e - 1)

/-- VSQRT (R180). -/
def fsqrt (a : Word32) : Word32 × FFlags :=
  match f32val a with
  | .nan s => nanOf s
  | .inf s => if s then (qnan32, fNV) else (inf32 false, 0)
  | .num s m e =>
    if m = 0 then (zero32 s, 0)
    else if s then (qnan32, fNV)
    else
      let (m', e') := evenExp m e
      let n := m' * 2 ^ 60
      let r := isqrt n
      round32 false (2 * r + (if r * r = n then 0 else 1)) (e' / 2 - 31)

/-- VRSQRT (R180). -/
def frsqrt (a : Word32) : Word32 × FFlags :=
  match f32val a with
  | .nan s => nanOf s
  | .inf s => if s then (qnan32, fNV) else (zero32 false, 0)
  | .num s m e =>
    if m = 0 then (inf32 s, fDZ)
    else if s then (qnan32, fNV)
    else
      let (m', e') := evenExp m e
      let r := isqrt (2 ^ 120 / m')
      round32 false (2 * r + (if r * r * m' = 2 ^ 120 then 0 else 1)) (-(e' / 2) - 61)

/-- ln 2 in units of 2^-200, rounded down. -/
def ln2c : Nat := 1113844574712631719546256151097547306333272293549090750737802

/-- The terms y^k / k! of e^y in units of 2^-200, from term `t` = y^k / k! on. -/
def expSeries (y : Nat) : Nat → Nat → Nat → Nat
  | 0, _, _ => 0
  | n + 1, k, t => t + expSeries y n (k + 1) (t * y / 2 ^ 200 / (k + 1))

/-- VEXP2 (R180): the exponent is split into its floor and fraction; 2 to a fraction other than 0 is irrational, so
the series value below it with a sticky bit rounds as the exact value does. -/
def fexp2 (a : Word32) : Word32 × FFlags :=
  match f32val a with
  | .nan s => nanOf s
  | .inf s => if s then (zero32 false, 0) else (inf32 false, fOF ||| fNX)
  | .num s m e =>
    let v := scaled s m e (min e 0)
    let den : Nat := 2 ^ (-(min e 0)).toNat
    if 128 * (den : Int) ≤ v then (inf32 false, fOF ||| fNX)
    else if v < -(200 * (den : Int)) then (zero32 false, fUF ||| fNX)
    else
      let n := v / (den : Int)
      let fr := (v % (den : Int)).toNat
      if fr = 0 then round32 false 1 n
      else
        let y := fr * 2 ^ 200 / den * ln2c / 2 ^ 200
        round32 false (2 * expSeries y 60 0 (2 ^ 200) + 1) (n - 201)

/-- The terms z^(2k+1) / (2k+1) of atanh z in units of 2^-200. -/
def atanhSeries (z2 : Nat) : Nat → Nat → Nat → Nat
  | 0, _, _ => 0
  | n + 1, k, t => t / (2 * k + 1) + atanhSeries z2 n (k + 1) (t * z2 / 2 ^ 200)

/-- VLOG2 (R180): a power of two is exact, any other result irrational. -/
def flog2 (a : Word32) : Word32 × FFlags :=
  match f32val a with
  | .nan s => nanOf s
  | .inf s => if s then (qnan32, fNV) else (inf32 false, 0)
  | .num s m e =>
    if m = 0 then (inf32 true, fDZ)
    else if s then (qnan32, fNV)
    else
      let l := Nat.log2 m
      let ex : Int := (l : Int) + e
      if m = 2 ^ l then
        if ex = 0 then (0, 0) else round32 (decide (ex < 0)) ex.natAbs 0
      else
        let z := (m - 2 ^ l) * 2 ^ 200 / (m + 2 ^ l)
        let ln := 2 * atanhSeries (z * z / 2 ^ 200) 70 0 z
        let v : Int := ex * 2 ^ 200 + ((ln * 2 ^ 200 / ln2c : Nat) : Int)
        round32 (decide (v < 0)) (2 * v.natAbs + 1) (-201)

/-- The integer nearest a number, ties to even. -/
def nearestInt (s : Bool) (m : Nat) (e : Int) : Int :=
  if 0 ≤ e then scaled s m e 0
  else
    let sh := (-e).toNat
    let lo := m / 2 ^ sh
    let rem := m % 2 ^ sh
    let r := if 2 ^ sh < 2 * rem ∨ (2 * rem = 2 ^ sh ∧ lo % 2 = 1) then lo + 1 else lo
    if s then -(r : Int) else (r : Int)

/-- F2I (R181): no inexact flag is named (DEDUCED, log entry 20). -/
def f2int (a : Word32) : Word32 × FFlags :=
  match f32val a with
  | .nan _ => (0, fNV)
  | .inf s => (if s then 0x80000000 else 0x7FFFFFFF, fNV)
  | .num s m e =>
    let v := nearestInt s m e
    if 2 ^ 31 ≤ v then (0x7FFFFFFF, fNV)
    else if v < -(2 ^ 31) then (0x80000000, fNV)
    else (BitVec.ofInt 32 v, 0)

/-- I2F (R181). -/
def int2f (a : Word32) : Word32 × FFlags :=
  let v := a.toInt
  if v = 0 then (0, 0) else round32 (decide (v < 0)) v.natAbs 0

/-- F2B (R181, R193, R194): nearest, or with the draw of a stochastic rounding. -/
def f2bf (draw : Option Nat) (a : Word32) : BitVec 16 × FFlags :=
  match f32val a with
  | .nan s => (0x7FC0, if s then fNV else 0)
  | .inf s => (if s then 0xFF80 else 0x7F80, 0)
  | .num s m e =>
    let r := roundIeee fmtBF16 draw s m e
    (BitVec.ofNat 16 r.1, r.2)

/-- B2F (R181): exact; a NaN is quieted. -/
def bf2f (a : BitVec 16) : Word32 :=
  match bf16val a with
  | .nan _ => qnan32
  | _ => a ++ (0 : BitVec 16)

/-- F2E4 (R192, R194). -/
def f2e4m3 (draw : Option Nat) (sat : Bool) (a : Word32) : Byte × FFlags :=
  match f32val a with
  | .nan s => (0x7F, if s then fNV else 0)
  | .inf s => if sat then (if s then 0xFE else 0x7E, 0) else (0x7F, fNV)
  | .num s m e =>
    let (r, q, nx) := roundMag fmtE4M3 draw m e
    let code := encodeMag fmtE4M3 r q
    let sg : Nat := if s then 128 else 0
    if 127 ≤ code then (if sat then BitVec.ofNat 8 (sg + 0x7E) else 0x7F, fOF ||| fNX)
    else (BitVec.ofNat 8 (sg + code), if nx then (if isTiny fmtE4M3 m e then fUF ||| fNX else fNX) else 0)

/-- F2E5 (R192, R194). -/
def f2e5m2 (draw : Option Nat) (sat : Bool) (a : Word32) : Byte × FFlags :=
  match f32val a with
  | .nan s => (0x7F, if s then fNV else 0)
  | .inf s => if sat then (if s then 0xFB else 0x7B, 0) else (if s then 0xFC else 0x7C, 0)
  | .num s m e =>
    let (r, q, nx) := roundMag fmtE5M2 draw m e
    let code := encodeMag fmtE5M2 r q
    let sg : Nat := if s then 128 else 0
    if 0x7C ≤ code then (BitVec.ofNat 8 (sg + if sat then 0x7B else 0x7C), fOF ||| fNX)
    else (BitVec.ofNat 8 (sg + code), if nx then (if isTiny fmtE5M2 m e then fUF ||| fNX else fNX) else 0)

/-- E42F: exact, every NaN the canonical one (R192). -/
def e4m32f (a : Byte) : Word32 := (roundVal (e4m3val a)).1

/-- E52F: exact, every NaN the canonical one (R192). -/
def e5m22f (a : Byte) : Word32 := (roundVal (e5m2val a)).1

end Sys2Proof.Machine
end

