-- ==== Sys2Proof/Machine/Operands.lean ====
section
/-! DEFINITION. Instruction words and operands: the five formats (06_hj1_baseline.md R156, R157), the words that the
HJ2 permits (R158 to R169, 07_hj2_contract.md R187 to R209), and the operand forms of the vector unit
(R163 to R166). A field that an instruction does not use must be 0 (R157; DEDUCED, log entry 21 lists how that is read). -/

namespace Sys2Proof.Machine

/-! ### Encoding -/

/-- The word of a format S instruction. -/
def encS (op fn : Nat) (o : SOp) : Nat :=
  op + o.rd.val * 2 ^ 7 + o.ra.val * 2 ^ 12 + o.rb.val * 2 ^ 17 + fn * 2 ^ 22 + bnat o.i * 2 ^ 28 + o.imm.toNat * 2 ^ 32

/-- The word of a format V instruction. -/
def encV (op fn : Nat) (o : VOp) : Nat :=
  op + o.vd.val * 2 ^ 7 + o.va.val * 2 ^ 12 + o.vb.val * 2 ^ 17 + o.vc.val * 2 ^ 22 + o.pred.val * 2 ^ 27
    + bnat o.pe * 2 ^ 30 + bnat o.pz * 2 ^ 31 + fn * 2 ^ 32 + o.ss.val * 2 ^ 38 + bnat o.bs * 2 ^ 43
    + bnat o.sr * 2 ^ 44 + o.imm.toNat * 2 ^ 46

/-- The word of a format M instruction. -/
def encM (op : Nat) (o : MOp) : Nat :=
  op + o.arr.val * 2 ^ 7 + o.tile.val * 2 ^ 9 + bnat o.acc * 2 ^ 11 + o.fmt.val * 2 ^ 12 + o.sa.val * 2 ^ 14
    + o.sb.val * 2 ^ 19 + o.k.toNat * 2 ^ 24 + o.row.val * 2 ^ 35 + bnat o.half * 2 ^ 40 + o.vr.val * 2 ^ 41
    + bnat o.ae * 2 ^ 46 + bnat o.be * 2 ^ 47

/-- The word of a format C instruction. -/
def encC (op : Nat) (o : COp) : Nat :=
  op + o.ch.val * 2 ^ 7 + o.sa.val * 2 ^ 10 + o.sd.val * 2 ^ 15 + o.imm.toNat * 2 ^ 32

/-- The word of a format Y instruction. -/
def encY (op : Nat) (o : YOp) : Nat :=
  op + o.sd.val * 2 ^ 7 + o.sa.val * 2 ^ 12 + o.sb.val * 2 ^ 17 + o.id8.toNat * 2 ^ 22 + o.imm.toNat * 2 ^ 32

/-! ### Permitted words -/

/-- A field of a word. -/
def nf (w lo len : Nat) : Nat := w / 2 ^ lo % 2 ^ len

/-- Every bit of `w` outside the listed fields (low bit, length) is 0. -/
def only (w : Nat) : List (Nat × Nat) → Bool
  | [] => w == 0
  | (lo, len) :: fs => only (w - nf w lo len * 2 ^ lo) fs

/-- The lane-governing fields PRED, PE and PZ: unused, hence 0, when PE is 0 (R157, R163). -/
def predOk (w : Nat) : Bool := nf w 30 1 == 1 || (nf w 27 3 == 0 && nf w 31 1 == 0)

/-- OP, FN, PRED, PE and PZ of format V. -/
def vBase : List (Nat × Nat) := [(0, 7), (32, 6), (27, 3), (30, 1), (31, 1)]

/-- Operand B of VFP, VINT and VCMP: VB, or SS when BS is 1 (R164). -/
def bForm (w : Nat) : List (Nat × Nat) := if nf w 43 1 = 1 then [(43, 1), (38, 5)] else [(17, 5)]

/-- The third source of a stochastic rounding: VC when SR is 1 (R193, R194). -/
def srForm (w : Nat) : List (Nat × Nat) := if nf w 44 1 = 1 then [(44, 1), (22, 5)] else []

/-- Permitted format S words (R158, R160). -/
def legalS (w : Nat) : Bool :=
  let fn := nf w 22 6
  match nf w 0 7 with
  | 0x01 => only w [(0, 7)]
  | 0x02 => decide (fn ≤ 0x11) &&
      (if nf w 28 1 = 1 then only w [(0, 7), (7, 5), (12, 5), (22, 6), (28, 1), (32, 32)]
       else only w [(0, 7), (7, 5), (12, 5), (17, 5), (22, 6)])
  | 0x03 => fn == 0 && only w [(0, 7), (7, 5), (12, 5), (32, 32)]
  | 0x04 => decide (fn < 8) && fn != 7 && only w [(0, 7), (7, 5), (12, 5), (22, 6), (32, 32)]
  | 0x05 => decide (fn < 4) && only w [(0, 7), (12, 5), (17, 5), (22, 6), (32, 32)]
  | 0x08 => decide (fn ≤ 5) && only w [(0, 7), (12, 5), (17, 5), (22, 6), (32, 32)]
  | 0x09 => only w [(0, 7), (7, 5), (32, 32)]
  | 0x0A => only w [(0, 7), (7, 5), (12, 5), (32, 32)]
  | 0x0B => only w [(0, 7), (7, 5), (32, 32)] && decide (nf w 32 32 ≤ 8)
  | _ => false

/-- Permitted VCVT words (R164, R166, R191, R193). -/
def legalCvt (w : Nat) : Bool :=
  let u := vBase ++ [(7, 5), (12, 5)]
  predOk w &&
  match nf w 32 6 with
  | 0 => only w u
  | 1 => only w u
  | 2 => only w (u ++ srForm w ++ [(46, 1)])
  | 3 => only w (u ++ [(46, 1)])
  | 4 => only w (u ++ [(46, 2)])
  | 5 => only w (u ++ [(46, 2)])
  | 6 => only w (u ++ srForm w ++ [(46, 3)])
  | 7 => only w (u ++ [(46, 2)])
  | 8 => only w (u ++ srForm w ++ [(46, 3)])
  | 9 => only w (u ++ [(46, 2)])
  | _ => false

/-- Permitted VMOV words (R164). -/
def legalMov (w : Nat) : Bool :=
  match nf w 32 6 with
  | 0 => predOk w && only w (vBase ++ [(7, 5), (12, 5)])
  | 1 => predOk w && only w (vBase ++ [(7, 5), (38, 5)])
  | 2 => nf w 30 1 == 1 && only w (vBase ++ [(7, 5), (12, 5), (17, 5)])
  | 3 => only w [(0, 7), (32, 6), (12, 5), (38, 5), (46, 6)]
  | 4 => only w [(0, 7), (32, 6), (7, 5), (38, 5), (46, 6)]
  | 5 => predOk w && only w (vBase ++ [(7, 5), (12, 5), (17, 5)])
  | 6 => predOk w && only w (vBase ++ [(7, 5)])
  | _ => false

/-- Permitted VPRED words (R164). -/
def legalPred (w : Nat) : Bool :=
  let fn := nf w 32 6
  if fn ≤ 3 then only w [(0, 7), (32, 6), (7, 3), (12, 3), (17, 3)]
  else if fn ≤ 5 then only w [(0, 7), (32, 6), (7, 3)]
  else if fn ≤ 7 then only w [(0, 7), (32, 6), (12, 3), (38, 5)]
  else false

/-- Permitted format V words. -/
def legalV (w : Nat) : Bool :=
  let fn := nf w 32 6
  match nf w 0 7 with
  | 0x20 => predOk w &&
      (if fn = 3 ∨ fn = 4 then only w (vBase ++ [(7, 5), (12, 5), (22, 5)] ++ bForm w)
       else if fn ≤ 6 ∨ fn = 9 then only w (vBase ++ [(7, 5), (12, 5)] ++ bForm w)
       else decide (fn ≤ 0x0D) && only w (vBase ++ [(7, 5), (12, 5)]))
  | 0x21 => predOk w && decide (fn ≤ 0x0C) && only w (vBase ++ [(7, 5), (12, 5)] ++ bForm w)
  | 0x22 => predOk w && decide (fn ≤ 9) && only w (vBase ++ [(7, 3), (12, 5)] ++ bForm w)
  | 0x23 => legalCvt w
  | 0x24 => predOk w && decide (fn ≤ 6) && only w (vBase ++ [(7, 5), (12, 5), (38, 5)])
  | 0x25 => legalMov w
  | 0x26 => legalPred w
  | 0x27 => predOk w &&
      (match fn with
       | 0 => only w (vBase ++ [(7, 3), (46, 6)] ++ bForm w)
       | 1 => only w (vBase ++ [(7, 5), (46, 6)])
       | _ => false)
  | 0x28 => predOk w && fn == 0 && only w (vBase ++ [(7, 5), (38, 5), (46, 18)])
  | 0x29 => predOk w && fn == 0 && nf w 31 1 == 0 && only w (vBase ++ [(12, 5), (38, 5), (46, 18)])
  | 0x2A =>
      (match fn with
       | 0 => predOk w && only w (vBase ++ [(7, 3), (12, 5), (17, 5), (38, 5), (46, 1)]
                ++ (if nf w 46 1 = 1 then [(22, 5)] else []))
       | 1 => only w [(0, 7), (32, 6), (38, 5)]
       | _ => false)
  | 0x2B =>
      (match fn with
       | 0 => predOk w && nf w 7 1 == 0 && only w (vBase ++ [(7, 5), (38, 5), (46, 18)])
       | 1 => nf w 12 1 == 0 && only w ([(0, 7), (32, 6), (12, 5), (38, 5), (46, 18)] ++ srForm w)
       | 2 => predOk w && nf w 7 1 == 0 && only w (vBase ++ [(7, 5), (12, 5), (38, 5)])
       | _ => false)
  | _ => false

/-- Is K permitted for the format (R169, R189)? -/
def legalK (fmt k : Nat) : Bool :=
  if fmt = 0 then decide (1 ≤ k) && decide (k ≤ 512)
  else decide (2 ≤ k) && decide (k ≤ 1024) && k % 2 == 0

/-- Permitted format M words (R168, R169, R189, R190). -/
def legalM (w : Nat) : Bool :=
  match nf w 0 7 with
  | 0x40 => nf w 12 2 != 3 && legalK (nf w 12 2) (nf w 24 11) &&
      only w ([(0, 7), (7, 2), (9, 2), (11, 1), (12, 2), (14, 5), (19, 5), (24, 11)]
        ++ (if nf w 12 2 = 2 then [(46, 1), (47, 1)] else []))
  | 0x41 => only w [(0, 7), (7, 2), (9, 2), (35, 5), (40, 1), (41, 5)]
  | 0x42 => only w [(0, 7), (7, 2), (9, 2), (35, 5), (40, 1), (41, 5)]
  | 0x43 => only w [(0, 7), (7, 2), (9, 2)]
  | 0x44 => only w [(0, 7)]
  | 0x45 => only w [(0, 7)]
  | _ => false

/-- Permitted format C words (R171). -/
def legalC (w : Nat) : Bool :=
  match nf w 0 7 with
  | 0x50 => only w [(0, 7), (7, 3), (10, 5), (15, 5)]
  | 0x51 => only w [(0, 7), (7, 3), (15, 5), (32, 32)]
  | 0x52 => only w [(0, 7), (7, 3), (32, 32)]
  | 0x53 => only w [(0, 7), (7, 3), (15, 5)]
  | _ => false

/-- Permitted format Y words (R173, R206, R209). -/
def legalY (w : Nat) : Bool :=
  match nf w 0 7 with
  | 0x60 => only w [(0, 7), (7, 5), (22, 8)]
  | 0x61 => only w [(0, 7), (7, 5), (22, 8), (32, 32)]
  | 0x62 => only w [(0, 7), (7, 5), (22, 8)]
  | 0x64 => only w [(0, 7), (7, 5), (12, 5)]
  | 0x65 => only w [(0, 7), (7, 5), (12, 5)]
  | 0x66 => only w [(0, 7)]
  | 0x67 => only w [(0, 7)]
  | 0x68 => only w [(0, 7), (32, 16)]
  | 0x69 => only w [(0, 7), (12, 5), (17, 5), (32, 5)] && decide (nf w 32 4 ≤ 8)
  | 0x6A => only w [(0, 7)]
  | _ => false

/-- Is the instruction word permitted on the HJ2 (R159)? -/
def legalWord (w : Nat) : Bool :=
  let op := nf w 0 7
  if op < 0x20 then legalS w
  else if op < 0x40 then legalV w
  else if op < 0x50 then legalM w
  else if op < 0x60 then legalC w
  else legalY w

/-! ### Lanes -/

/-- Lane `l` of a vector register. -/
def vlane (v : BitVec 2048) (l : Nat) : Word32 := v.extractLsb' (32 * l) 32

/-- Lanes 0 to n - 1 packed at `w` bits each. -/
def packLanes (w : Nat) (f : Nat → Nat) : Nat → Nat
  | 0 => 0
  | n + 1 => packLanes w f n + f n % 2 ^ w * 2 ^ (w * n)

/-- A vector register from its lanes. -/
def vecOf (f : Nat → Word32) : BitVec 2048 := BitVec.ofNat 2048 (packLanes 32 (fun l => (f l).toNat) 64)

/-- A predicate from its bits. -/
def predOf (f : Nat → Bool) : BitVec 64 := BitVec.ofNat 64 (packLanes 1 (fun l => bnat (f l)) 64)

/-- The mask of the lanes a function selects. -/
def laneMask (f : Nat → Bool) : BitVec 2048 :=
  BitVec.ofNat 2048 (packLanes 32 (fun l => if f l then 0xFFFFFFFF else 0) 64)

/-! ### Registers and poison of a thread (R153, R573) -/

/-- A scalar register; s0 reads 0. -/
def Thread.s (t : Thread) (r : Fin 32) : Word64 := if r = 0 then 0 else sget 0 t.sregs r

/-- A vector register. -/
def Thread.v (t : Thread) (r : Fin 32) : BitVec 2048 := sget 0 t.vregs r

/-- A predicate register. -/
def Thread.p (t : Thread) (r : Fin 8) : BitVec 64 := sget 0 t.pregs r

/-- Is a scalar register poisoned? -/
def Thread.sp (t : Thread) (r : Fin 32) : Bool := r != 0 && t.spo.getLsbD r

/-- Is a vector register poisoned? -/
def Thread.vp (t : Thread) (r : Fin 32) : Bool := t.vpo.getLsbD r

/-- Is a predicate register poisoned? -/
def Thread.pp (t : Thread) (r : Fin 8) : Bool := t.ppo.getLsbD r

/-- The second operand of a format S instruction: IMM32 sign-extended, or RB (R160). -/
def Thread.b (t : Thread) (o : SOp) : Word64 := if o.i then o.imm.signExtend 64 else t.s o.rb

/-- Does operand b carry poison? -/
def Thread.bp (t : Thread) (o : SOp) : Bool := !o.i && t.sp o.rb

/-- The active lanes: PE is 0 or the bit of PRED is 1 (R163). -/
def Thread.active (t : Thread) (o : VOp) (l : Nat) : Bool := !o.pe || (t.p o.pred).getLsbD l

/-- Does the governing predicate carry poison? -/
def Thread.ap (t : Thread) (o : VOp) : Bool := o.pe && t.pp o.pred

/-- Lane `l` of operand B: VB, or SS[31:0] when BS is 1 (R164). -/
def Thread.vb (t : Thread) (o : VOp) (l : Nat) : Word32 :=
  if o.bs then (t.s o.ss).setWidth 32 else vlane (t.v o.vb) l

/-- Does operand B carry poison? -/
def Thread.vbp (t : Thread) (o : VOp) : Bool := if o.bs then t.sp o.ss else t.vp o.vb

/-- Predicate register of a VD or VA field's low bits. -/
def pfld (r : Fin 32) : Fin 8 := ⟨r.val % 8, Nat.mod_lt _ (by decide)⟩

/-- A register field from a number. -/
def rfld (n : Nat) : Fin 32 := ⟨n % 32, Nat.mod_lt _ (by decide)⟩

end Sys2Proof.Machine
end

