-- ==== Sys2Proof/Machine/Flags.lean ====
section
/-! DEFINITION. The floating-point flags of a core (06_hj1_baseline.md R183): five sticky bits, set by any active
lane, read and cleared by SPR 0x07. -/

namespace Sys2Proof.Machine

/-- The flags that the active lanes raise. -/
def laneFlags (act : Nat → Bool) (f : Nat → FFlags) : Nat → FFlags
  | 0 => 0
  | n + 1 => laneFlags act f n ||| (if act n then f n else 0)

/-- Raise flags on a thread. -/
def Thread.raiseFlags (t : Thread) (f : FFlags) : Thread := { t with fpf := t.fpf ||| f }

end Sys2Proof.Machine
end

