-- ==== Sys2Proof/Machine/Issue.lean ====
section
/-! DEFINITION. How a core issues an instruction (06_hj1_baseline.md R150 to R155, R184, R185; 07_hj2_contract.md
R211 to R218): the results in flight and when they land, scratch and its poison marks, traps, and the hazard
sentinel. -/

namespace Sys2Proof.Machine

/-! ### Scratch (05_cores_arrays.md R121 to R123) -/

/-- Scratch ends here. -/
abbrev scratchEnd : Nat := 0x300000

/-- The bank of a scratch address (R121). -/
def scratchBank (a : Nat) : Nat := 16 * (a / 2 ^ 20 % 4) + a / 64 % 16

/-- `n` bytes of scratch as they stand. -/
def Core.rd (k : Core) (a n : Nat) : List Byte := sgets 0 k.scratch a n

/-- The 64-byte lines that `n` bytes at `a` touch. -/
def linesOf (a n : Nat) : List Nat :=
  if n = 0 then [] else (List.range ((a + n - 1) / 64 - a / 64 + 1)).map (fun i => a / 64 + i)

/-- Does any touched line carry a poison mark? -/
def Core.marked (k : Core) (a n : Nat) : Bool := (linesOf a n).any (fun l => sget false k.marks l)

/-- Write the bytes that are given from address `a` on. -/
def putBytes (m : SMap Byte) : Nat → List (Option Byte) → SMap Byte
  | _, [] => m
  | a, none :: bs => putBytes m (a + 1) bs
  | a, some b :: bs => putBytes (sset 0 m a b) (a + 1) bs

/-- The line marks after a write: poisoned data marks each line it writes in; clean data that covers a whole line
clears its mark (R575). -/
def Core.markWrite (k : Core) (a : Nat) (bs : List (Option Byte)) (poison : Bool) : SMap Bool :=
  (linesOf a bs.length).foldl (fun m l =>
    let lo := max a (64 * l)
    let part := (bs.drop (lo - a)).take (min (64 * l + 64) (a + bs.length) - lo)
    if part.all (fun b => b.isNone) then m
    else if poison then sset false m l true
    else if part.length = 64 ∧ part.all (fun b => b.isSome) then sset false m l false
    else m) k.marks

/-! ### Passes in flight: feed vectors (R124, R128, R216) -/

/-- Cycles from issue to landing of a pass (R216). -/
def Pass.lat (p : Pass) : Nat := if p.gang then p.f + 140 else p.f + 76

/-- One feed vector of an operand as scratch stands: its bits, and whether its line is marked. -/
def Core.feed (k : Core) (p : Pass) (base u : Nat) : BitVec 1024 × Bool :=
  let w := if p.gang then 128 else 64
  (BitVec.ofNat 1024 (leNat (k.rd (base + w * u) w)), k.marked (base + w * u) w)

/-- Read feed vectors until `n` of each operand have been read. -/
def Core.capture (k : Core) (n : Nat) : Nat → Pass → Pass
  | 0, p => p
  | fuel + 1, p =>
    if p.capA.length < min n p.f then
      let u := p.capA.length
      let (a, ma) := k.feed p p.sa u
      let (b, mb) := k.feed p p.sb u
      k.capture n fuel { p with capA := p.capA ++ [a], capB := p.capB ++ [b], poison := p.poison || ma || mb }
    else p

/-- Before scratch changes in cycle `t`, every pass reads the vectors that it reads before `t`: vector u in cycle
issue + 1 + u (R216). -/
def Core.captureAll (k : Core) (t : Nat) : Core :=
  { k with passes := k.passes.map (fun p => k.capture (t - 1 - p.cyc) p.f p) }

/-- Write scratch in cycle `t`: the program's stores and the stream engines. -/
def Core.wrScratch (k : Core) (t a : Nat) (bs : List (Option Byte)) (poison : Bool) : Core :=
  let k := k.captureAll t
  { k with scratch := putBytes k.scratch a bs, marks := k.markWrite a bs poison }

/-! ### Landing (R211 to R213, R155) -/

/-- The key of a tile row. -/
def tkey (arr tile row : Nat) : Nat := (4 * arr + tile) * 32 + row

/-- An accumulated value of a pass: FP32 patterns in BF16, sums in units of 2^-32 in FP8, INT32 sums in INT8;
`nanMark`, `pinfMark` and `ninfMark` stand for NaN and the infinities in FP8. -/
abbrev nanMark : Int := 2 ^ 200
abbrev pinfMark : Int := 2 ^ 200 + 1
abbrev ninfMark : Int := 2 ^ 200 + 2

/-- The value of one FP8 pass element. -/
def fixVal (v : Int) : FVal :=
  if v = nanMark then .nan false
  else if v = pinfMark then .inf false
  else if v = ninfMark then .inf true
  else .num (decide (v < 0)) v.natAbs (-32)

/-- One tile word after a commit: the tile plus the pass, or the pass alone, rounded once (R126). -/
def commitWord (fmt : Fin 4) (acc : Bool) (old : Word32) (p : Int) : Word32 :=
  if fmt = 1 then (if acc then old + BitVec.ofInt 32 p else BitVec.ofInt 32 p)
  else
    let v := if fmt = 0 then f32val (BitVec.ofInt 32 p) else fixVal p
    if acc then (addVal (f32val old) v).1 else (roundVal v).1

/-- Word `j` of a tile row. -/
def trowWord (v : BitVec 1024) (j : Nat) : Word32 := v.extractLsb' (32 * j) 32

/-- A tile row from its words. -/
def trowOf (f : Nat → Word32) : BitVec 1024 := BitVec.ofNat 1024 (packLanes 32 (fun j => (f j).toNat) 32)

/-- Write one tile row. -/
def Thread.setTrow (t : Thread) (arr tile row : Nat) (v : BitVec 1024) (poison : Bool) : Thread :=
  { t with tiles := sset 0 t.tiles (tkey arr tile row) v, tpo := sset false t.tpo (tkey arr tile row) poison }

/-- A tile row as it stands. -/
def Thread.trow (t : Thread) (arr tile row : Nat) : BitVec 1024 := sget 0 t.tiles (tkey arr tile row)

/-- Commit a pass into a tile, row by row from row `32 - n`. -/
def Thread.commit (t : Thread) (arr tile : Nat) (fmt : Fin 4) (acc : Bool) (pass : List Int)
    (poison : BitVec 32) : Nat → Thread
  | 0 => t
  | n + 1 =>
    let row := 31 - n
    let old := t.trow arr tile row
    let po := poison.getLsbD row || (acc && sget false t.tpo (tkey arr tile row))
    (t.setTrow arr tile row
      (trowOf (fun j => commitWord fmt acc (trowWord old j) (pass.getD (32 * row + j) 0))) po).commit
      arr tile fmt acc pass poison n

/-- Hand back credits to the head descriptor's engine; an excess sets OVER_ACK (08_streams.md R232). -/
def Channel.ack (ch : Channel) (n : Nat) : Channel :=
  match ch.queue with
  | [] => { ch with overAck := ch.overAck || decide (0 < n) }
  | d :: _ =>
    let m := min n ch.credits
    { ch with credits := ch.credits - m
              headSlot := (ch.headSlot + m) % (max 1 d.slotCount.toNat)
              overAck := ch.overAck || decide (ch.credits < n) }

/-- One result lands. -/
def Core.land (k : Core) (l : Landing) : Core :=
  match l.val with
  | .sreg r v po =>
    if r = 0 then k
    else { k with th := { k.th with sregs := sset 0 k.th.sregs r v, spo := setBit k.th.spo r po } }
  | .vreg r m v po =>
    { k with th := { k.th with vregs := sset 0 k.th.vregs r ((k.th.v r &&& ~~~m) ||| (v &&& m))
                               vpo := setBit k.th.vpo r po } }
  | .preg r m v po =>
    { k with th := { k.th with pregs := sset 0 k.th.pregs r ((k.th.p r &&& ~~~m) ||| (v &&& m))
                               ppo := setBit k.th.ppo r po } }
  | .scratch a bs po => k.wrScratch l.cyc a bs po
  | .trow arr tile row v po => { k with th := k.th.setTrow arr tile row v po }
  | .tzero arr tile =>
    { k with th := (List.range 32).foldl (fun t r => t.setTrow arr tile r 0 false) k.th }
  | .commit arr tile acc fmt pass po => { k with th := k.th.commit arr tile fmt acc pass po 32 }
  | .gang on => { k with th := { k.th with ganged := on } }
  | .credits ch n => k.modChan ch (fun c => c.ack n)

/-- Insert a landing in landing order: by cycle, then by order of issue (R155, R213). -/
def insLand (l : Landing) : List Landing → List Landing
  | [] => [l]
  | q :: qs =>
    if l.cyc < q.cyc ∨ (l.cyc = q.cyc ∧ l.seq < q.seq) then l :: q :: qs else q :: insLand l qs

/-- Land every result whose cycle is at most `n`, in order. -/
def Core.landUpTo (n : Nat) : Nat → Core → Core
  | 0, k => k
  | fuel + 1, k =>
    match k.th.lands with
    | [] => k
    | l :: ls =>
      if l.cyc ≤ n then ({ k with th := { k.th with lands := ls } }.land l).landUpTo n fuel else k

/-- Land every result due by the thread's present cycle (DEDUCED, log entry 100). -/
def Core.settle (k : Core) : Core := k.landUpTo k.th.cyc k.th.lands.length

/-- Land every result in flight, for a core that no longer issues. -/
def Core.drain (k : Core) : Core :=
  let n := k.th.lands.foldl (fun m l => max m l.cyc) k.th.cyc
  ({ k with th := { k.th with cyc := n } }).landUpTo n k.th.lands.length

/-- Add results with their latencies, all of one instruction issued in the present cycle. -/
def Thread.push (t : Thread) (ls : List (Nat × LandVal)) : Thread :=
  { t with lands := ls.foldl (fun q l => insLand ⟨t.cyc + l.1, t.seqNo, l.2⟩ q) t.lands, seqNo := t.seqNo + 1 }

/-! ### The effect of an instruction -/

/-- A location that the sentinel checks (R218); a whole tile when `row` is none. -/
inductive Loc where
  | s (r : Nat)
  | v (r : Nat)
  | p (r : Nat)
  | t (arr tile : Nat) (row : Option Nat)
  deriving DecidableEq, Repr

/-- Do two locations meet? -/
def Loc.meets : Loc → Loc → Bool
  | .s a, .s b => a == b && a != 0
  | .v a, .v b => a == b
  | .p a, .p b => a == b
  | .t a i r, .t b j q => a == b && i == j && (r.isNone || q.isNone || r == q)
  | _, _ => false

/-- The location a result lands in; none for scratch and other effects, which R218 does not check. -/
def LandVal.loc : LandVal → Option Loc
  | .sreg r _ _ => some (.s r)
  | .vreg r _ _ _ => some (.v r)
  | .preg r _ _ _ => some (.p r)
  | .trow a t r _ _ => some (.t a t (some r))
  | .tzero a t => some (.t a t none)
  | .commit a t _ _ _ _ => some (.t a t none)
  | _ => none

/-- What an instruction does that does not trap. -/
structure Eff where
  /-- Results with their latencies. -/
  lands : List (Nat × LandVal) := []
  /-- Target of a taken branch or jump. -/
  target : Option Word64 := none
  /-- Cycles until the next instruction issues. -/
  busy : Nat := 1
  flags : FFlags := 0
  /-- Locations read, with the cycle of the read from issue. -/
  reads : List (Loc × Nat) := []
  /-- Locations that a pass is to write, with its latency. -/
  later : List (Loc × Nat) := []
  /-- Fixed-latency scratch accesses: cycle from issue, bank (R123). -/
  banks : List (Nat × Nat) := []
  /-- Cycles the core freezes before the instruction takes effect. -/
  freeze : Nat := 0
  /-- Further changes to the core and to the machine. -/
  onCore : Core → Core := id
  onState : State → State := id

/-- The result of an instruction: a trap with its status and what INFO holds above the PC, or its effect. -/
inductive IRes where
  | trap (st : BitVec 16) (info : Nat)
  | go (e : Eff)

/-! ### Issue and traps -/

/-- The placement of a context on a core. -/
def Ctx.placeOn (x : Ctx) (c : Nat) : Option Place := x.place.find? (fun p => p.core.val == c)

/-- Is the byte address inside the context's loaded code on the core (R522)? -/
def Ctx.inCode (x : Ctx) (c : Nat) (pc : Word64) : Bool :=
  match x.placeOn c with
  | none => false
  | some p => decide (p.codeBase ≤ pc.toNat) && decide (pc.toNat + 8 ≤ p.codeBase + p.codeBytes)

/-- Can the core issue its next instruction? Its context runs on it, nothing stops or freezes it, and the verdict of
every pass is in before an instruction can see its tile (R136; DESIGN CHOICE, log entry 9)
(DESIGN CHOICE, log entry 88). -/
def State.canIssue (s : State) (c : Nat) : Bool :=
  let k := s.core c
  match k.ctx with
  | none => false
  | some x =>
    ((s.ctx x).state == .running || (s.ctx x).state == .preempting) && !k.parked && k.th.wait.isNone
      && !k.th.halted && k.retrying == 0 && !k.ungangWait && k.emitWait.isNone && s.domOn (dCore c)
      && k.passes.all (fun p => decide (k.th.cyc + 2 < p.cyc + p.lat))

/-- Every core of a context stops issue, and the context ends with a status (R185). -/
def State.stopContext (s : State) (x : CtxId) (st : BitVec 16) : State :=
  let s := (s.ctx x).place.foldl (fun s p =>
    (s.setReg (pCORE p.core) 0x804 (st.setWidth 32)).modCore p.core (fun k => if k.ctx = some x then k.drain else k)) s
  s.modCtx x (fun g => { g with state := .ending, endWith := some (g.endWith.getD st) })

/-- A trap on a core: every earlier result lands, the status and PC are recorded and logged, the context ends
(R184, R185, R571) (DEDUCED, log entry 83). -/
def State.trap (s : State) (c : CoreId) (x : CtxId) (st : BitVec 16) (info : Nat) : State :=
  let pc := (s.core c).th.pc
  let s := s.setReg (pCORE c) 0x808 (BitVec.ofNat 32 (pc.toNat % 2 ^ 18))
  let s := s.detect cCONTAINED st 0x1C c (some x) (pc.toNat + info)
  s.stopContext x st

/-- The pending results a thread's core still has: location and landing cycle. -/
def Core.pendingLocs (k : Core) : List (Loc × Nat) :=
  (k.th.lands.filterMap (fun l => l.val.loc.map (fun q => (q, l.cyc))))
    ++ k.passes.flatMap (fun p =>
        (if p.gang then [0, 1, 2, 3] else [p.arr.val]).map (fun a => (Loc.t a p.tile none, p.cyc + p.lat)))

/-- The first hazard of R218: location, is it an out-of-order landing, cycles short. -/
def Core.hazard (k : Core) (e : Eff) : Option (Loc × Bool × Nat) :=
  if !k.th.sentinel then none
  else
    let pend := k.pendingLocs
    let early (l : Loc) (t : Nat) : Option Nat :=
      pend.foldl (fun m q => if q.1.meets l ∧ t < q.2 then some (max (m.getD 0) (q.2 - t)) else m) none
    match e.reads.findSome? (fun r => (early r.1 (k.th.cyc + r.2)).map (fun n => (r.1, false, n))) with
    | some h => some h
    | none => (e.lands.filterMap (fun l => l.2.loc.map (fun q => (q, l.1))) ++ e.later).findSome? (fun l =>
        (early l.1 (k.th.cyc + l.2)).map (fun n => (l.1, true, n)))

/-- A HAZARD trap and its record on the DBG page (R218). -/
def State.trapHazard (s : State) (c : CoreId) (x : CtxId) (h : Loc × Bool × Nat) : State :=
  let (kind, reg) := match h.1 with
    | .s r => (0, r)
    | .v r => (1, r)
    | .p r => (2, r)
    | .t a t _ => (3, t + 4 * a)
  let s := s.setReg pDBG 0x800 (BitVec.ofNat 32 (c.val + kind * 2 ^ 8 + reg % 32 * 2 ^ 10 + bnat h.2.1 * 2 ^ 15
    + x.val * 2 ^ 16 + 2 ^ 31))
  let s := s.setReg pDBG 0x804 (BitVec.ofNat 32 ((s.core c).th.pc.toNat % 2 ^ 18))
  let s := s.setReg pDBG 0x808 (BitVec.ofNat 32 (min 255 h.2.2))
  ((s.inc pDBG 0xF00).raise pDBG 16).trap c x stHAZARD 0

/-- Accesses beyond the first to one bank in one cycle (R123). -/
def bankStalls : List (Nat × Nat) → Nat
  | [] => 0
  | b :: bs => (if bs.contains b then 1 else 0) + bankStalls bs

/-- Freeze a core for some cycles: they do not count under the latency contract (R122) (DEDUCED, log entry 89). -/
def State.frozen (s : State) (c n : Nat) : State := if n = 0 then s else s.inc (pCORE c) 0xF08 n

/-- Let `n` unfrozen cycles pass on a core: count them, and the bank conflicts they met. -/
def State.coreCycles (s : State) (c n : Nat) : State :=
  let k := s.core c
  let t := k.th.cyc + n
  let st := bankStalls (k.banks.filter (fun b => decide (b.1 < t)))
  let s := s.setCore c { k with th := { k.th with cyc := t }, banks := k.banks.filter (fun b => decide (t ≤ b.1)) }
  let s := s.inc (pCORE c) 0xF00 n
  if st = 0 then s else (s.inc (pCORE c) 0xF10 st).inc (pCORE c) 0xF08 st

/-- Apply the effect of an instruction: its results are in flight, its cycles pass, the PC advances; a target
outside the code traps FETCH_BOUND (R216, R522). -/
def State.finish (s : State) (c : CoreId) (x : CtxId) (e : Eff) : State :=
  let s := s.frozen c e.freeze
  let s := s.modCore c (fun k => e.onCore { k with
    th := { (k.th.push e.lands).raiseFlags e.flags with
              pc := match e.target with | some t => t | none => k.th.pc + 8 }
    banks := k.banks ++ e.banks.map (fun b => (k.th.cyc + b.1, b.2)) })
  let s := s.coreCycles c (if e.target.isSome then 3 else e.busy)
  let s := e.onState s
  match e.target with
  | some t => if (s.ctx x).inCode c t then s else s.trap c x stFETCH_BOUND 0
  | none => s

/-- Issue one instruction: results due have landed; a fetch outside the code traps FETCH_BOUND, a word that is not
permitted ILLEGAL_INSTR (R159), a hazard HAZARD. When the core cannot issue, nothing happens (DESIGN CHOICE, log entry 9). -/
def issue (c : CoreId) (w : Nat) (f : State → CtxId → Core → IRes) (s : State) : State :=
  if s.canIssue c then
    let s := s.modCore c Core.settle
    let k := s.core c
    match k.ctx with
    | none => s
    | some x =>
      if !(s.ctx x).inCode c k.th.pc then s.trap c x stFETCH_BOUND 0
      else if !legalWord w then s.trap c x stILLEGAL_INSTR 0
      else match f s x k with
        | .trap st info => s.trap c x st info
        | .go e => match k.hazard e with
          | some h => s.trapHazard c x h
          | none => s.finish c x e
  else s

end Sys2Proof.Machine
end

