-- ==== Sys2Proof/Machine/Links.lean ====
section
/-! DEFINITION. Nimus links (11_link_layer.md R305 to R340): training, frames with their sequence, acknowledgement,
replay and credits, width changes, recalibration and sleep; and the hop of the fabric that frames take
(12_fabric_transport.md R343, R345, R346, R359 to R367). -/

namespace Sys2Proof.Machine

/-! ### Links and their registers -/

/-- A link. -/
def State.link (s : State) (l : Nat) : Link := sget {} s.links l

/-- Change a link. -/
def State.modLink (s : State) (l : Nat) (f : Link → Link) : State := { s with links := smod {} s.links l f }

/-- LNK_CFG.EN. -/
def State.lnkEn (s : State) (l : Nat) : Bool := bit (s.reg (pLNK l) 0x100) 0

/-- This chip's address and pod (FAB_ID), once written (R342). -/
def State.fabId (s : State) : Option (Nat × Nat) :=
  if (s.page pFAB).written.contains 0x100 then
    some (fld (s.reg pFAB 0x100) 0 12, fld (s.reg pFAB 0x100) 16 16)
  else none

/-- This chip's address. -/
def State.myAddr (s : State) : Nat := fld (s.reg pFAB 0x100) 0 12

/-- Does a link carry frames: UP, not in a fast retrain, and its neighbour is the right one (R343)? -/
def State.linkRuns (s : State) (l : Nat) : Bool :=
  (s.link l).state == .up && !(s.link l).fast && !bit (s.reg pFAB 0x804) l

/-- Lanes in a mask. -/
def lanesIn (m : BitVec 4) : Nat := ((List.range 4).filter (fun i => m.getLsbD i)).length

/-- Minimum lane count (LNK_CFG.MIN_WIDTH + 1). -/
def State.minLanes (s : State) (l : Nat) : Nat := fld (s.reg (pLNK l) 0x100) 2 2 + 1

/-- The credit allocation in use (R328): the registers', or the defaults where they are bad. -/
def State.creditAlloc (s : State) (l : Nat) : List Nat × Bool :=
  let c := (List.range 8).map (fun v => fld (s.reg (pLNK l) (0x118 + 4 * (v / 4))) (8 * (v % 4)) 8)
  if c.any (fun n => decide (n < 5)) ∨ 256 < c.sum then ([8, 56, 56, 48, 32, 24, 16, 16], true) else (c, false)

/-! ### Frames out -/

/-- Credits that a frame of L lines needs (R329). -/
def creditsFor (lines : Nat) : Nat := (32 + 64 * lines + 255) / 256

/-- A frame as it is sent now: ACK and credit bytes rebuilt (R325), its CRC good. -/
def Link.stamp (k : Link) (f : Frame) : Frame :=
  { f with ack := k.rxSeq, credits := k.returned.map (fun n => BitVec.ofNat 8 n), crcOk := true, cut := false }

/-- A frame without payload (R318). -/
def plainFrame (typ : BitVec 4) : Frame :=
  { typ := typ, vc := 0, lines := 0, seq := 0, ack := 0, poison := 0, som := false, eom := false, sub := 0, arg := 0,
    route := 0, payload := [], credits := [], crcOk := true, cut := false }

/-- Put a frame on a link; its trailer reports every credit returned. -/
def State.putFrame (s : State) (l : LinkId) (f : Frame) : State :=
  (s.emitOut (.frame l ((s.link l).stamp f))).modLink l (fun k => { k with owed := false })

/-- A PM frame (R318): 1 SLEEP_REQ, 2 SLEEP_ACK, 3 SLEEP_NAK, 4 WIDTH_REQ, 5 WIDTH_ACK. -/
def State.putPm (s : State) (l : LinkId) (sub arg : Nat) : State :=
  s.putFrame l { plainFrame 4 with sub := BitVec.ofNat 8 sub, arg := BitVec.ofNat 8 arg }

/-- Credits go back to the partner of an input link as a frame leaves its buffer (R330). -/
def State.creditBack (s : State) (src : Option (LinkId × Fin 8)) (lines : Nat) : State :=
  match src with
  | none => s
  | some (l, v) => s.modLink l (fun k =>
      { k with returned := k.returned.modify v.val (fun n => (n + creditsFor lines) % 256), owed := true })

/-- Messages queued on an output channel. -/
def Link.queue (k : Link) (v : Nat) : List TxMsg := sget [] k.txq v

/-- Change the queue of an output channel. -/
def State.modQueue (s : State) (l v : Nat) (f : List TxMsg → List TxMsg) : State :=
  s.modLink l (fun k => { k with txq := smod [] k.txq v f })

/-- Send the next frame of the message at the head of a channel, if the link runs, the credits are held and the retry
buffer has room (R322, R329, R346): the credits it took. The buffer of a multicast frame is given back by `mcPump`. -/
def State.sendHead (s : State) (l : LinkId) (v : Fin 8) : Option (Nat × State) :=
  let k := s.link l
  match k.queue v with
  | [] => none
  | t :: ts => match t.frames with
    | [] => none
    | f :: fs =>
      let n := creditsFor f.lines.toNat
      let bytes := (k.retry.map (fun g => 32 + 64 * g.lines.toNat)).sum
      if !s.linkRuns l ∨ k.txCredit.getD v 0 < n ∨ 1024 ≤ k.retry.length ∨ 65536 < bytes + 32 + 64 * f.lines.toNat then
        none
      else
        let g := { f with typ := 1, vc := v, seq := k.txSeq }
        let s := s.modLink l (fun k => { k with
          txCredit := k.txCredit.modify v.val (fun c => c - n), txSeq := k.txSeq + 1, retry := k.retry ++ [g]
          txq := sset [] k.txq v (if f.eom then ts else { t with frames := fs, begun := true } :: ts) })
        let s := s.putFrame l g
        let s := (s.inc (pLNK l) 0xF00).inc (pLNK l) 0xF10 (64 * f.lines.toNat)
        some (n, if bit f.route 12 then s else s.creditBack t.src f.lines.toNat)

/-- The weight of a channel (R359). -/
def State.vcWeight (s : State) (v : Nat) : Nat :=
  max 1 (fld (s.reg pFAB (0x10C + 4 * (v / 4))) (8 * (v % 4)) 8)

/-- Frames of one channel in one round, until its weight is spent (R359). -/
def State.sendVc (s : State) (l : LinkId) (v : Fin 8) : Nat → Nat → State
  | 0, _ => s
  | fuel + 1, spent =>
    if s.vcWeight v ≤ spent then s
    else match s.sendHead l v with
      | none => s
      | some (n, s) => s.sendVc l v fuel (spent + n)

/-- Rounds of the eight channels (R359). -/
def State.sendRounds (s : State) (l : LinkId) : Nat → State
  | 0 => s
  | fuel + 1 => ((List.finRange 8).foldl (fun s v => s.sendVc l v 256 0) s).sendRounds l fuel

/-- Frames that wait on a link. -/
def Link.waiting (k : Link) : Nat := (k.txq.map (fun e => (e.2.map (fun t => t.frames.length)).sum)).sum

/-- Send everything that a link can send now (DEDUCED, log entry 113). -/
def State.pump (s : State) (l : LinkId) : State := s.sendRounds l (s.link l).waiting

/-- Queue a frame on an output channel: a SOM frame opens a message, a later one joins its own (R346). -/
def State.pushFrame (s : State) (l v : Nat) (src : Option (LinkId × Fin 8)) (f : Frame) : State :=
  s.modQueue l v (fun q =>
    if f.som then q ++ [{ src := src, frames := [f], begun := false }]
    else (q.reverse.foldl (fun (a : List TxMsg × Bool) t =>
      if !a.2 && t.src == src then ({ t with frames := t.frames ++ [f] } :: a.1, true) else (t :: a.1, a.2)) ([], false)).1)

/-! ### Routes (12_fabric_transport.md R360 to R365) -/

/-- Coordinate `d` of an address. -/
def coord (a d : Nat) : Nat := a / 8 ^ d % 8

/-- The class route's next link in dimension `d` at distance δ (R360), going the other way round where that link does
not run (R363), and not back the way it came (DEDUCED, log entry 28). -/
def State.classStep (s : State) (d delta : Nat) (inl : Option LinkId) : Nat :=
  let plus := 2 * d
  let minus := 2 * d + 1
  let first := if delta = 3 ∨ delta = 4 ∨ delta = 5 then 8 + d else if delta ≤ 2 then plus else minus
  let other := if delta = 3 ∨ delta = 4 then plus else if delta = 5 then minus else if delta ≤ 2 then minus else plus
  match inl with
  | some i => if i.val = first then (if first = plus then minus else plus)
              else if s.linkRuns first then first else other
  | none => if s.linkRuns first then first else other

/-- The first dimension in which two addresses differ. -/
def firstDim (a b : Nat) : Option Nat := (List.range 4).find? (fun d => coord a d != coord b d)

/-- The spare entry of an address (R365): attach chip and auxiliary link. -/
def State.spare (s : State) (a : Nat) : Option (Nat × Nat) :=
  (List.range 4).findSome? (fun n =>
    let v := s.reg pFAB (0x180 + 4 * n)
    if bit v 31 ∧ fld v 0 12 = a then some (fld v 12 12, fld v 24 4) else none)

/-- The link on which a unicast message for `dest` leaves by its class route; none when it is for this chip. -/
def State.classLink (s : State) (dest : Nat) (inl : Option LinkId) : Option Nat :=
  let me := s.myAddr
  if dest = me then none
  else match s.spare me with
    | some (_, aux) => some aux
    | none =>
      let to_ := match s.spare dest with | some (at_, _) => at_ | none => dest
      match firstDim me to_ with
      | some d => some (s.classStep d ((coord to_ d + 8 - coord me d) % 8) inl)
      | none => (s.spare dest).map (fun e => e.2)

/-- The link of the escape route (R361). -/
def State.escapeLink (s : State) (dest : Nat) : Option Nat :=
  let me := s.myAddr
  let to_ := match s.spare dest with | some (at_, _) => at_ | none => dest
  match firstDim me to_ with
  | some d => some (if coord me d < coord to_ d then 2 * d else 2 * d + 1)
  | none => none

/-- A tree entry (R366): arrival link, ROOT, DELIVER, VALID, child links. -/
def State.tree (s : State) (t : Nat) : Word32 := s.reg pFAB (0x200 + 4 * (t % 64))

/-- The child links of a tree entry. -/
def childLinks (e : Word32) : List LinkId := (List.finRange 16).filter (fun l => bit e (16 + l.val))

/-! ### Messages and frames -/

/-- The 64 header bytes of a message (R344). -/
def msgHeader (m : Message) : List Byte :=
  leBytes 2 m.src.toNat ++ leBytes 2 m.dest.toNat ++ [m.kind, BitVec.ofNat 8 (bnat m.mc + 2 * bnat m.segment),
    BitVec.ofNat 8 m.dctx.val, BitVec.ofNat 8 m.sctx.val]
    ++ leBytes 8 m.mseq.toNat ++ leBytes 8 m.replyTo.toNat ++ leBytes 4 m.payload.length ++ leBytes 2 m.tag.toNat
    ++ leBytes 2 m.status.toNat ++ leBytes 4 m.bootId.toNat ++ slice m.extra 0 28

/-- Cut lines of 64 bytes, with their marks, into frames of at most 16 lines. -/
def framesOf (vc : Fin 8) (route : Word32) : Nat → Bool → List Byte → List Bool → List Frame
  | 0, _, _, _ => []
  | n + 1, som, bs, po =>
    let lines := min 16 ((bs.length + 63) / 64)
    let f : Frame := { plainFrame 1 with
      vc := vc, lines := BitVec.ofNat 5 lines, som := som, eom := decide (bs.length ≤ 1024), route := route
      poison := BitVec.ofNat 16 (((List.range lines).map (fun i => bnat (po.getD i false) * 2 ^ i)).sum)
      payload := slice bs 0 (64 * lines) }
    if bs.length ≤ 1024 then [f] else f :: framesOf vc route n false (bs.drop 1024) (po.drop 16)

/-- The frames of a message (R344, R345). -/
def msgFrames (m : Message) (vc : Fin 8) : List Frame :=
  let bs := msgHeader m ++ m.payload
  framesOf vc (BitVec.ofNat 32 (m.dest.toNat + bnat m.mc * 2 ^ 12)) (bs.length / 1024 + 1) true bs (false :: m.poison)

/-- The message of the bytes that its frames carried. -/
def parseMsg (bs : List Byte) (po : List Bool) (abort : Bool) : Message :=
  { src := BitVec.ofNat 12 (lef bs 0 2), dest := BitVec.ofNat 12 (lef bs 2 2), kind := bs.getD 4 0
    mc := bit (bs.getD 5 0) 0, segment := bit (bs.getD 5 0) 1
    dctx := Fin.ofNat 64 (lef bs 6 1), sctx := Fin.ofNat 64 (lef bs 7 1)
    mseq := BitVec.ofNat 48 (lef bs 8 8), replyTo := BitVec.ofNat 48 (lef bs 0x10 8)
    tag := BitVec.ofNat 16 (lef bs 0x1C 2), status := BitVec.ofNat 16 (lef bs 0x1E 2)
    bootId := BitVec.ofNat 32 (lef bs 0x20 4), extra := slice bs 0x24 28
    payload := (bs.drop 64).take (lef bs 0x18 4), poison := po.drop 1, abort := abort }

/-- Try to forward the multicast frames that wait, in order, each only when every child link holds its credits
(R366). -/
def State.mcPump (s : State) : List (Option LinkId × Frame) → List (Option LinkId × Frame) → State
  | [], keep => { s with fab := { s.fab with mcWait := keep.reverse } }
  | (i, f) :: rest, keep =>
    let kids := childLinks (s.tree (fld f.route 0 12))
    if kids.all (fun l => s.linkRuns l && decide (creditsFor f.lines.toNat ≤ (s.link l).txCredit.getD 3 0))
        ∧ !keep.any (fun e => e.1 == i) then
      let s := kids.foldl (fun s (l : LinkId) => ((s.pushFrame l 3 (i.map (fun x => (x, 3))) f).pump l)) s
      let s := if i.isSome then s.inc pFAB 0xF10 else s
      (s.creditBack (i.map (fun x => (x, 3))) f.lines.toNat).mcPump rest keep
    else s.mcPump rest ((i, f) :: keep)

/-- Queue a message of this chip on its way: the class link's channel, the child links of a tree that it roots with
this chip's own copy if the tree delivers here (R366, R367), or straight into this chip's own transport. -/
def State.launch (s : State) (m : Message) (vc : Fin 8) : State :=
  let s := s.emitOut (.msg m vc)
  if m.mc then
    let e := s.tree m.dest.toNat
    if !bit e 6 ∨ !bit e 4 then s
    else
      let s := if bit e 5 then { s with fab := { s.fab with inbox := s.fab.inbox ++ [m] } } else s
      if (childLinks e).isEmpty then s
      else
        let own : List (Option LinkId × Frame) := (msgFrames m 3).map (fun f => (none, f))
        s.mcPump (s.fab.mcWait ++ own) []
  else match s.classLink m.dest.toNat none with
    | none => { s with fab := { s.fab with inbox := s.fab.inbox ++ [m] } }
    | some l =>
      let t : TxMsg := { src := none, frames := msgFrames m vc, begun := false }
      (s.modQueue l vc (fun q => q ++ [t])).pump (Fin.ofNat 16 l)

/-- Do multicast frames of this chip wait to leave (R368)? -/
def State.ownMcWaits (s : State) : Bool :=
  s.fab.mcWait.any (fun e => e.1.isNone)
    || s.links.any (fun e => (e.2.queue 3).any (fun t => t.src.isNone && t.frames.any (fun f => bit f.route 12)))

/-! ### Frames in -/

/-- Marks of a frame's payload lines. -/
def frameMarks (f : Frame) : List Bool := (List.range f.lines.toNat).map (fun i => f.poison.getLsbD i)

/-- A message has been received whole, or was ended by ABORT (R364). -/
def State.rxDone (s : State) (r : RxMsg) (abort : Bool) : State :=
  if abort then (s.inc pFAB 0xF50).detectOpen cCORRECTED stHOP_DROP 0x0D 0 none
  else { s with fab := { s.fab with inbox := s.fab.inbox ++ [parseMsg r.bytes r.poison false] } }

/-- Where an arriving message goes, judged at its SOM frame (R343, R345, R360 to R366). -/
def State.routeIn (s : State) (l : LinkId) (f : Frame) : RxMsg × State :=
  let dest := fld f.route 0 12
  let r : RxMsg := { hop := none, mine := false, dead := false, bytes := [], poison := [], route := f.route }
  if bit f.route 12 then
    let e := s.tree dest
    if !bit e 6 ∨ bit e 4 ∨ fld e 0 4 ≠ l.val then ({ r with dead := true }, s.inc pFAB 0xF58)
    else ({ r with mine := bit e 5 }, s)
  else if 12 ≤ l.val ∧ bit (f.payload.getD 5 0) 1 then ({ r with mine := true }, s)
  else
    let esc := bit f.route 13
    match (if esc then s.escapeLink dest else s.classLink dest (some l)) with
    | none => ({ r with mine := true }, s)
    | some o => ({ r with hop := some (Fin.ofNat 16 o, if esc then 6 else f.vc) }, s)

/-- An accepted DATA frame goes on: kept for this chip, forwarded, or dropped with its message. -/
def State.carry (s : State) (l : LinkId) (f : Frame) : State :=
  let (r, s) : RxMsg × State := if f.som then s.routeIn l f
    else (match sget none (s.link l).rx f.vc with
      | some r => r
      | none => { hop := none, mine := false, dead := true, bytes := [], poison := [], route := f.route }, s)
  let mc := bit f.route 12 && !r.dead
  let r := if r.mine && !r.dead then { r with bytes := r.bytes ++ f.payload, poison := r.poison ++ frameMarks f } else r
  let s := s.modLink l (fun k => { k with rx := sset none k.rx f.vc (if f.eom then none else some r) })
  let s := if f.eom && r.mine && !r.dead then s.rxDone r (bit f.route 14) else s
  match r.hop with
  | some (o, v) =>
    if r.dead then s.creditBack (some (l, f.vc)) f.lines.toNat
    else ((s.pushFrame o v (some (l, f.vc)) f).inc pFAB 0xF10).pump o
  | none =>
    if mc ∧ !(childLinks (s.tree (fld f.route 0 12))).isEmpty then
      { s with fab := { s.fab with mcWait := s.fab.mcWait ++ [(some l, f)] } }
    else s.creditBack (some (l, f.vc)) f.lines.toNat

/-- Is a frame discarded whole (R320)? -/
def frameBad (f : Frame) : Bool :=
  !f.crcOk || f.cut || decide (f.typ.toNat = 0) || decide (5 < f.typ.toNat) || decide (16 < f.lines.toNat)

/-- The first discard after an accepted frame sends a NAK (R324). -/
def State.nak (s : State) (l : LinkId) : State :=
  if (s.link l).nakSent then s
  else
    let s := s.modLink l (fun k => { k with nakSent := true })
    (s.putFrame l { plainFrame 3 with seq := (s.link l).rxSeq }).inc (pLNK l) 0xF28

/-- A frame discarded under R320 (DEDUCED, log entry 85). -/
def State.discard (s : State) (l : LinkId) : State :=
  ((s.inc (pLNK l) 0xF20).detectOpen cCORRECTED stLINK_CRC 0x1B l none).nak l

/-- An ACK and a trailer's credit counts take effect (R322, R330). -/
def State.takeAck (s : State) (l : LinkId) (f : Frame) : State :=
  s.modLink l (fun k =>
    let kept := k.retry.filter (fun g => !decide ((f.ack - g.seq - 1).toNat < 1024))
    { k with
      retry := kept
      resends := if kept.length < k.retry.length then 0 else k.resends
      txCredit := (List.range 8).map (fun v =>
        k.txCredit.getD v 0 + ((f.credits.getD v 0).toNat + 256 - k.seen.getD v 0) % 256)
      seen := (List.range 8).map (fun v => (f.credits.getD v 0).toNat) })

/-- Every link sends what it can, and waiting multicast frames go on. -/
def State.pumpAll (s : State) : State :=
  let s := (List.finRange 16).foldl (fun s l => s.pump l) s
  s.mcPump s.fab.mcWait []

/-- A frame that reaches a link that runs: discarded, or its header taken and handed on. -/
def State.onFrame (s : State) (l : LinkId) (f : Frame) (g : State → State) : State :=
  if (s.link l).state ≠ .up then s
  else if frameBad f then s.discard l
  else g s

/-- DATA (R320, R323, R324, R327). -/
def execData (l : LinkId) (f : Frame) (s : State) : Host.Outcome State Fault Refusal :=
  ok (s.onFrame l f (fun s =>
    let e := (s.link l).rxSeq
    if f.seq = e then
      let s := s.modLink l (fun k => { k with rxSeq := e + 1, nakSent := false })
      let s := (s.inc (pLNK l) 0xF08).inc (pLNK l) 0xF18 (64 * f.lines.toNat)
      ((s.takeAck l f).carry l f).pumpAll
    else if (e - f.seq).toNat ≤ 32768 then s.inc (pLNK l) 0xF40
    else s.nak l))

/-- Resend outstanding frames from the first that satisfies `p` (R325, R326). -/
def State.resend (s : State) (l : LinkId) (fs : List Frame) : State :=
  if fs.isEmpty then s
  else
    let s := (s.inc (pLNK l) 0xF30).inc (pLNK l) 0xF38 fs.length
    let s := s.detectOpen cCORRECTED stLINK_CRC 0x1B l none
    fs.foldl (fun s f => s.putFrame l f) s

/-- NAK (R325). -/
def execNak (l : LinkId) (f : Frame) (s : State) : Host.Outcome State Fault Refusal :=
  ok (s.onFrame l f (fun s =>
    let s := s.takeAck l f
    (s.resend l ((s.link l).retry.dropWhile (fun g => g.seq != f.seq))).pumpAll))

/-- CTRL (R330). -/
def execCtrl (l : LinkId) (f : Frame) (s : State) : Host.Outcome State Fault Refusal :=
  ok (s.onFrame l f (fun s => (s.takeAck l f).pumpAll))

/-- CREDIT_CTRL_SEND (R330). -/
def execCreditCtrlSend (l : LinkId) (s : State) : Host.Outcome State Fault Refusal :=
  ok (if s.linkRuns l ∧ (s.link l).owed then s.putFrame l (plainFrame 2) else s)

/-! ### Training (R312 to R317) -/

/-- May a link train (R316, R342)? Boot has started the links (04_reset_boot.md R100). -/
def State.mayTrain (s : State) (l : Nat) : Bool :=
  s.lnkEn l && !s.mgt.jtag && s.fabId.isSome && decide (6 ≤ fld (s.reg pAON 0x890) 0 8)

/-- Start full training, waking the link's domain. -/
def State.startTrain (s : State) (l : Nat) : State :=
  (s.modLink l (fun k => { k with state := .training, fast := false, failed := false })).wakeDom (dLnk l)

/-- Start training if the link may train and has signal. -/
def State.tryTrain (s : State) (l : Nat) : State :=
  let k := s.link l
  if s.mayTrain l ∧ k.signal ∧ (k.state = .disabled ∨ k.state = .down) then s.startTrain l
  else if s.lnkEn l ∧ k.state = .disabled then s.modLink l (fun k => { k with state := .down })
  else s

/-- Every message partly sent or received over a link ends (R364), its outstanding frames go back to the transport,
which drops them for the end-to-end resend (R327, R352) (DEDUCED, log entry 114). -/
def State.cutLink (s : State) (l : LinkId) : State :=
  let k := s.link l
  let s := k.txq.foldl (fun s e => e.2.foldl (fun s t =>
    if t.begun then
      let s := t.frames.foldl (fun s f => if bit f.route 12 then s else s.creditBack t.src f.lines.toNat) s
      match t.src with
      | none => s
      | some (i, v) => s.modLink i (fun k => { k with
          rx := smod none k.rx v (fun r => r.map (fun r => { r with dead := true })) })
    else s) s) s
  let s := s.modLink l (fun k => { k with
    retry := [], resends := 0, nakSent := false, txq := k.txq.map (fun e => (e.1, e.2.filter (fun t => !t.begun)))
    rx := [], askMask := none, nextMask := none, recal := none, sleepReq := false, owed := false })
  let s := s.modLink l (fun k => { k with txq := k.txq.filter (fun e => !e.2.isEmpty) })
  k.rx.foldl (fun s e => match e.2 with
    | none => s
    | some r =>
      if r.dead then s
      else
        let v : Fin 8 := Fin.ofNat 8 e.1
        let fin : Frame := { plainFrame 1 with vc := v, eom := true, route := setBit r.route 14 true }
        let s := if r.mine then s.rxDone r true else s
        match r.hop with
        | some (o, w) => (s.pushFrame o w (some (l, v)) fin).pump o
        | none => if bit r.route 12 then
            (childLinks (s.tree (fld r.route 0 12))).foldl (fun s (c : LinkId) => (s.pushFrame c 3 (some (l, 3)) fin).pump c) s
          else s) s

/-- A link leaves UP other than into sleep (R327). -/
def State.leaveUp (s : State) (l : LinkId) (to_ : LnkState) : State :=
  let was := (s.link l).state
  let s := s.cutLink l
  let s := s.modLink l (fun k => { k with state := to_, fast := false, lanes := 0 })
  if was = .up then (s.inc (pLNK l) 0xF58).raise (pLNK l) 17 else s

/-- LINK_SIGNAL_DETECT (R316): on a sleeping link it is the partner's wake (R338, R72). -/
def execLinkSignalDetect (l : LinkId) (s : State) : Host.Outcome State Fault Refusal :=
  ok (let s := s.modLink l (fun k => { k with signal := true })
      if (s.link l).state = .sleep then s.wakeDom (dLnk l) else s.tryTrain l)

/-- LINK_TRAIN_FAIL (R313, R316). -/
def execLinkTrainFail (l : LinkId) (s : State) : Host.Outcome State Fault Refusal :=
  ok (if (s.link l).state = .training then
      (s.modLink l (fun k => { k with state := .down, failed := true, fast := false, cmd := 0 })).inc (pLNK l) 0xFA8
    else s)

/-- LINK_TRAIN_RETRY (R316). -/
def execLinkTrainRetry (l : LinkId) (s : State) : Host.Outcome State Fault Refusal :=
  ok (if (s.link l).failed ∧ (s.link l).state = .down then s.tryTrain l else s)

/-- The lanes that stay after full training: a lane skewed by more than 16 blocks is excluded (R310, R313). -/
def lanesAfter (t : TrainInfo) : BitVec 4 :=
  BitVec.ofNat 4 (((List.range 4).map (fun i =>
    bnat (t.lanesOk.getLsbD i && decide (fld t.skew (8 * i) 8 ≤ 16)) * 2 ^ i)).sum)

/-- What the INIT check finds (R314): 0 good, 1 pairing, 2 pod, 3 own address. -/
def State.miswire (s : State) (l : LinkId) (t : TrainInfo) : Nat :=
  let n := l.val
  let pair := if n < 8 then t.partnerLink.val == (if n % 2 = 0 then n + 1 else n - 1)
    else if n < 12 then t.partnerLink.val == n else decide (12 ≤ t.partnerLink.val)
  let pod := (12 ≤ n && bit (s.reg (pLNK n) 0x100) 1) || fld (s.reg pFAB 0x100) 16 16 == t.partnerPod.toNat
  if !pair then 1 else if !pod then 2 else if t.partnerAddr.toNat = s.myAddr then 3 else 0

/-- Does the partner stand where the link must reach (R343)? -/
def State.neighbourOk (s : State) (l : LinkId) (addr : Nat) : Bool :=
  let n := l.val
  let me := s.myAddr
  if 12 ≤ n then true
  else
    let d := if n < 8 then n / 2 else n - 8
    let step := if 8 ≤ n then 4 else if n % 2 = 0 then 1 else 7
    (List.range 4).all (fun i => coord addr i == (if i = d then (coord me d + step) % 8 else coord me i))

/-- Full training completes (R312 to R315, R343). -/
def State.linkUp (s : State) (l : LinkId) (t : TrainInfo) : State :=
  let lanes := lanesAfter t
  if lanesIn lanes < s.minLanes l then
    (s.modLink l (fun k => { k with state := .down, failed := true, cmd := 0 })).inc (pLNK l) 0xFA8
  else
    let p := pLNK l
    let s := s.inc p 0xF50
    let s := s.setReg p 0x804 (BitVec.ofNat 32 (t.partnerAddr.toNat + t.partnerLink.val * 2 ^ 12
      + t.partnerPod.toNat * 2 ^ 16))
    let s := s.setReg p 0x808 t.skew
    let w := s.miswire l t
    let s := s.setReg p 0x80C (BitVec.ofNat 32 w)
    if w ≠ 0 then (s.modLink l (fun k => { k with state := .miswired, cmd := 0 })).raise p 19
    else
      let bad := (s.creditAlloc l).2
      let s := s.modLink l (fun k => { k with
        state := if bit (s.reg p 0x140) 0 then .training else .up, fast := false, failed := false, cmd := 0
        lanes := lanes, trained := lanes, creditBad := bad, reversed := t.reversed, polarity := t.polarity
        txSeq := 0, rxSeq := 0, retry := [], resends := 0, nakSent := false
        txCredit := (List.range 8).map (fun v => (t.partnerCredits.getD v 0).toNat)
        seen := List.replicate 8 0, returned := List.replicate 8 0, owed := false })
      let s := s.raise p 16
      let nb := !s.neighbourOk l t.partnerAddr.toNat
      let s := s.setReg pFAB 0x804 (setBit (s.reg pFAB 0x804) l nb)
      (if nb then s.raise pFAB 17 else s).pumpAll

/-- LINK_UP (R312): full training was under way, and its domain is ON. -/
def execLinkUp (l : LinkId) (t : TrainInfo) (s : State) : Host.Outcome State Fault Refusal :=
  ok (if (s.link l).state = .training ∧ !(s.link l).fast ∧ s.domLive (dLnk l) then s.linkUp l t else s)

/-- FAST_RETRAIN_DONE (R317, R326, R338), the link's domain being awake: back UP with everything kept, resending what is outstanding; a failure falls
back to full training. -/
def execFastRetrainDone (l : LinkId) (good : Bool) (s : State) : Host.Outcome State Fault Refusal :=
  ok (if !(s.link l).fast ∨ !s.domLive (dLnk l) then s
    else if good then
      let s := s.modLink l (fun k => { k with fast := false, state := .up, resends := 0 })
      (s.resend l (s.link l).retry).pumpAll
    else (s.leaveUp l .down).startTrain l)

/-- LINK_DOWN (R316, R327). -/
def execLinkDown (l : LinkId) (s : State) : Host.Outcome State Fault Refusal :=
  ok (if (s.link l).state = .up ∨ (s.link l).state = .sleep then
      ((s.modLink l (fun k => { k with signal := false })).leaveUp l .down).pumpAll
    else s)

/-- Start a fast retrain (R317). -/
def State.fastRetrain (s : State) (l : Nat) : State :=
  (s.modLink l (fun k => { k with fast := true })).inc (pLNK l) 0xF48

/-- REPLAY_TIMEOUT (R326). -/
def execReplayTimeout (l : LinkId) (s : State) : Host.Outcome State Fault Refusal :=
  ok (let k := s.link l
      if !s.linkRuns l ∨ k.retry.isEmpty then s
      else if fld (s.reg (pLNK l) 0x10C) 16 8 ≤ k.resends then (s.fastRetrain l).raise (pLNK l) 20
      else
        let s := s.modLink l (fun k => { k with resends := k.resends + 1 })
        (s.resend l k.retry).pumpAll)

/-- A write of LNK_CFG (R316): EN starts training where signal is present, or takes the link out of use. -/
def State.lnkCfg (s : State) (l : LinkId) (v : Word32) : State :=
  let s := s.store (pLNK l) 0x100 v
  if bit v 0 then s.tryTrain l
  else if (s.link l).state = .disabled then s
  else (s.leaveUp l .disabled).pumpAll

/-- LNK_CFG_EN (R316). -/
def execLnkCfgEn (r : Requester) (l : LinkId) (v : Word32) (s : State) : Host.Outcome State Fault Refusal :=
  ok (s.write r (pLNK l) 0x100 (fun s => s.lnkCfg l v))

/-- A write of FAB_ID: links whose lane 0 has signal begin training (R342). -/
def State.setFabId (s : State) (v : Word32) : State :=
  let s := s.store pFAB 0x100 v
  (List.finRange 16).foldl (fun s l => s.tryTrain l) s

/-- FAB_ID (R341, R342). -/
def execFabId (r : Requester) (v : Word32) (s : State) : Host.Outcome State Fault Refusal :=
  ok (s.write r pFAB 0x100 (fun s => s.setFabId v))

/-! ### Width (R331 to R335) -/

/-- Ask the partner for a new lane mask, or go DOWN below the minimum (R332). -/
def State.askWidth (s : State) (l : LinkId) (m : BitVec 4) : State :=
  if lanesIn m < s.minLanes l then (s.leaveUp l .down).pumpAll
  else (s.modLink l (fun k => { k with askMask := some m })).putPm l 4 m.toNat

/-- LANE_DROP (R331): a lane out for recalibration returns at once. -/
def execLaneDrop (l : LinkId) (lane : Fin 4) (s : State) : Host.Outcome State Fault Refusal :=
  ok (let k := s.link l
      if !s.linkRuns l ∨ !k.lanes.getLsbD lane then s
      else
        let back := match k.recal with | some r => setBit k.lanes r true | none => k.lanes
        let s := s.modLink l (fun k => { k with recal := none, cmd := if k.cmd = 2 then 0 else k.cmd })
        (s.detectOpen cCORRECTED stLANE_DROP 0x1B l none).askWidth l (setBit back lane false))

/-- WIDTH_REQ (R332). -/
def execWidthReq (l : LinkId) (f : Frame) (s : State) : Host.Outcome State Fault Refusal :=
  ok (s.onFrame l f (fun s =>
    let s := s.takeAck l f
    let m := f.arg.setWidth 4
    if lanesIn m < s.minLanes l then (s.leaveUp l .down).pumpAll
    else ((s.modLink l (fun k => { k with nextMask := some m, askMask := none })).putPm l 5 m.toNat).pumpAll))

/-- WIDTH_ACK (R332). -/
def execWidthAck (l : LinkId) (f : Frame) (s : State) : Host.Outcome State Fault Refusal :=
  ok (s.onFrame l f (fun s =>
    let s := s.takeAck l f
    ((s.modLink l (fun k => match k.askMask with
      | some m => if m = f.arg.setWidth 4 then { k with nextMask := some m, askMask := none } else k
      | none => k))).pumpAll))

/-- WIDTH_SWITCH (R332, R334): after a recalibrated lane has returned, the next one goes out; after lane 3 the
recalibration ends. -/
def execWidthSwitch (l : LinkId) (s : State) : Host.Outcome State Fault Refusal :=
  ok (match (s.link l).nextMask with
    | none => s
    | some m =>
      let s := s.modLink l (fun k => { k with lanes := m, nextMask := none })
      let s := (s.inc (pLNK l) 0xF60).raise (pLNK l) 18
      match (s.link l).recal with
      | none => s
      | some r =>
        if !m.getLsbD r then s
        else if r.val = 3 then
          s.modLink l (fun k => { k with recal := none, recalTime := s.pw.aonTime, cmd := if k.cmd = 2 then 0 else k.cmd })
        else
          let r' : Fin 4 := r + 1
          (s.modLink l (fun k => { k with recal := some r' })).askWidth l (setBit m r' false))

/-- LANE_READD_ATTEMPT (R333): lanes that the attempt leaves clean rejoin. -/
def execLaneReaddAttempt (l : LinkId) (clean : BitVec 4) (s : State) : Host.Outcome State Fault Refusal :=
  ok (let k := s.link l
      let gone := k.trained &&& ~~~k.lanes
      if !s.linkRuns l ∨ gone = 0 ∨ k.recal.isSome then s
      else
        let s := s.modLink l (fun k => { k with cmd := if k.cmd = 3 then 0 else k.cmd })
        if gone &&& clean = 0 then s else s.askWidth l (k.lanes ||| (gone &&& clean)))

/-- Is a recalibration due (R334)? -/
def State.recalDue (s : State) (l : Nat) (tempC : Nat) : Bool :=
  let k := s.link l
  let cfg := s.reg (pLNK l) 0x104
  k.cmd == 2 || (bit (s.reg (pLNK l) 0x100) 4
    && (decide (fld cfg 0 16 * 32768 ≤ (s.pw.aonTime - k.recalTime).toNat)
      || decide (fld cfg 16 8 ≤ (tempC - k.recalTemp) + (k.recalTemp - tempC))))

/-- RECAL_START (R334, R335). -/
def execRecalStart (l : LinkId) (tempC : Nat) (s : State) : Host.Outcome State Fault Refusal :=
  ok (if s.linkRuns l ∧ (s.link l).lanes = 15 ∧ (s.link l).recal.isNone ∧ s.recalDue l tempC then
      (s.modLink l (fun k => { k with recal := some 0, recalTemp := tempC })).askWidth l 14
    else s)

/-- RECAL_LANE_DONE (R334). -/
def execRecalLaneDone (l : LinkId) (s : State) : Host.Outcome State Fault Refusal :=
  ok (match (s.link l).recal with
    | none => s
    | some r =>
      if (s.link l).lanes.getLsbD r ∨ (s.link l).nextMask.isSome ∨ (s.link l).askMask.isSome then s
      else (s.inc (pLNK l) 0xF68).askWidth l (setBit (s.link l).lanes r true))

/-! ### Commands (LNK_CMD) -/

/-- A write of LNK_CMD: BUSY while one runs; RETRAIN needs signal, RECAL and READD a link that is UP. -/
def State.lnkCmd (s : State) (l : LinkId) (op : Nat) : State :=
  let p := pLNK l
  let k := s.link l
  let stat (s : State) (st : BitVec 16) : State := s.setReg p 0x814 (st.setWidth 32)
  if op = 0 ∨ 3 < op then s
  else if k.cmd ≠ 0 then stat s stBUSY
  else if op = 1 then
    if !k.signal ∨ !s.mayTrain l then stat s stLINK_DOWN
    else (stat ((s.leaveUp l .down).startTrain l) stOK).modLink l (fun k => { k with cmd := 1 })
  else if k.state ≠ .up then stat s stLINK_DOWN
  else if op = 2 then (stat s stOK).modLink l (fun k => { k with cmd := 2 })
  else if k.trained &&& ~~~k.lanes = 0 then stat s stOK
  else (stat s stOK).modLink l (fun k => { k with cmd := 3 })

/-- RETRAIN (R317). -/
def execRetrain (r : Requester) (l : LinkId) (s : State) : Host.Outcome State Fault Refusal :=
  ok (s.write r (pLNK l) 0x810 (fun s => s.lnkCmd l 1))

/-- RECAL (R334). -/
def execRecal (r : Requester) (l : LinkId) (s : State) : Host.Outcome State Fault Refusal :=
  ok (s.write r (pLNK l) 0x810 (fun s => s.lnkCmd l 2))

/-- READD (R333). -/
def execReadd (r : Requester) (l : LinkId) (s : State) : Host.Outcome State Fault Refusal :=
  ok (s.write r (pLNK l) 0x810 (fun s => s.lnkCmd l 3))

/-! ### Sleep (R336 to R339) -/

/-- Has a link nothing to carry: nothing waits, nothing is outstanding, no message is half way? -/
def Link.quiet (k : Link) : Bool := k.waiting == 0 && k.retry.isEmpty && k.rx.isEmpty

/-- Both sides go to sleep: electrical idle, signal detect on, the domain to RETAIN (R337). -/
def State.linkSleep (s : State) (l : LinkId) : State :=
  let s := s.modLink l (fun k => { k with state := .sleep, sleepReq := false })
  (s.inc (pLNK l) 0xF78).modDom (dLnk l) (fun g => { g with sleepTo := some .retain })

/-- LINK_SLEEP_HYST (R336). -/
def execLinkSleepHyst (l : LinkId) (s : State) : Host.Outcome State Fault Refusal :=
  ok (if s.linkRuns l ∧ (s.link l).quiet ∧ bit (s.reg (pLNK l) 0x100) 5 ∧ 2 ≤ (s.page (pLNK l)).allow.toNat
        ∧ !(s.dom (dLnk l)).hold ∧ !(s.link l).sleepReq then
      (s.modLink l (fun k => { k with sleepReq := true })).putPm l 1 0
    else s)

/-- SLEEP_REQ (R337): requests from both sides in one unit acknowledge each other. -/
def execSleepReq (l : LinkId) (f : Frame) (s : State) : Host.Outcome State Fault Refusal :=
  ok (s.onFrame l f (fun s =>
    let s := s.takeAck l f
    let k := s.link l
    if k.sleepReq ∧ k.quiet then s.linkSleep l
    else if k.quiet ∧ !k.owed then (s.putPm l 2 0).linkSleep l
    else (s.putPm l 3 0).pumpAll))

/-- SLEEP_ACK (R337): a requester that has traffic by now has withdrawn. -/
def execSleepAck (l : LinkId) (f : Frame) (s : State) : Host.Outcome State Fault Refusal :=
  ok (s.onFrame l f (fun s =>
    let s := s.takeAck l f
    if (s.link l).sleepReq ∧ (s.link l).quiet then s.linkSleep l else s.pumpAll))

/-- SLEEP_NAK (R337). -/
def execSleepNak (l : LinkId) (f : Frame) (s : State) : Host.Outcome State Fault Refusal :=
  ok (s.onFrame l f (fun s =>
    ((s.takeAck l f).modLink l (fun k => { k with sleepReq := false })).pumpAll))

/-- LINK_WAKE (R338). -/
def execLinkWake (l : LinkId) (s : State) : Host.Outcome State Fault Refusal :=
  ok (if (s.link l).state = .sleep ∧ !(s.link l).fast then (s.wakeDom (dLnk l)).fastRetrain l else s)

/-! ### Waits at a hop (12_fabric_transport.md R362 to R364) -/

/-- Has the SOM frame at the head of an output channel not gone out? -/
def State.headWaits (s : State) (l : Nat) (v : Nat) : Option TxMsg :=
  match (s.link l).queue v with
  | t :: _ => if t.begun ∨ t.frames.isEmpty then none else some t
  | [] => none

/-- ESCAPE_SWITCH (R362, R363): the waiting unicast message goes on by its escape route on VC6, with its later frames,
unless that route's link is down or it is on VC6 already. -/
def execEscapeSwitch (l : LinkId) (vc : Fin 8) (s : State) : Host.Outcome State Fault Refusal :=
  ok (match s.headWaits l vc with
    | none => s
    | some t =>
      match t.frames.head? with
      | none => s
      | some f =>
        if bit f.route 12 ∨ vc = 6 then s
        else match s.escapeLink (fld f.route 0 12) with
          | none => s
          | some o =>
            if !s.linkRuns o then s
            else
              let s := s.modQueue l vc (fun q => q.drop 1)
              let fs := t.frames.map (fun g => { g with vc := 6, route := setBit g.route 13 true })
              let s := s.modQueue o 6 (fun q => q ++ [{ t with frames := fs }])
              let s := match t.src with
                | none => s
                | some (i, v) =>
                  let turn (r : RxMsg) : RxMsg := { r with hop := some (Fin.ofNat 16 o, 6) }
                  s.modLink i (fun k => { k with rx := smod none k.rx v (fun r => r.map turn) })
              (s.inc pFAB 0xF40).pumpAll)

/-- HOP_TIMEOUT (R364): the waiting message is discarded; on VC3 also a multicast that waits for this link. -/
def execHopTimeout (l : LinkId) (vc : Fin 8) (s : State) : Host.Outcome State Fault Refusal :=
  ok (
    let drop (s : State) : State :=
      ((s.inc pFAB 0xF48).raise pFAB 18).detectOpen cCORRECTED stHOP_DROP 0x0D 0 none
    match s.headWaits l vc with
    | some t =>
      let s := s.modQueue l vc (fun q => q.drop 1)
      let s := t.frames.foldl (fun s f => if bit f.route 12 then s else s.creditBack t.src f.lines.toNat) s
      let s := match t.src with
        | none => s
        | some (i, v) => s.modLink i (fun k => { k with
            rx := smod none k.rx v (fun r => r.map (fun r => { r with dead := true })) })
      (drop s).pumpAll
    | none =>
      match s.fab.mcWait.find? (fun e => vc == 3 && e.2.som && bit (s.tree (fld e.2.route 0 12)) (16 + l.val)) with
      | none => s
      | some (i, _) =>
        let gone := s.fab.mcWait.filter (fun e => e.1 == i)
        let s := { s with fab := { s.fab with mcWait := s.fab.mcWait.filter (fun e => e.1 != i) } }
        let s := gone.foldl (fun s e => s.creditBack (i.map (fun x => (x, (3 : Fin 8)))) e.2.lines.toNat) s
        let s := match i with
          | none => s
          | some x => s.modLink x (fun k => { k with
              rx := smod none k.rx 3 (fun r => r.map (fun r => { r with dead := true })) })
        (drop s).pumpAll)

end Sys2Proof.Machine
end

