-- ==== Sys2Proof/Machine/Fabric.lean ====
section
/-! DEFINITION. Fabric transport (12_fabric_transport.md R344 to R358, R368, R369, R371, R372): message sequences, held
messages, receive windows, acknowledgement and resend. What an engine does with a message stands in its own file,
and the commands that reach engines in Messages.lean. -/

namespace Sys2Proof.Machine

/-! ### Sending -/

/-- A message of this chip before the transport numbers it: kind, destination and what its chapter puts in. -/
def newMsg (s : State) (kind dest : Nat) : Message :=
  { src := BitVec.ofNat 12 s.myAddr, dest := BitVec.ofNat 12 dest, kind := BitVec.ofNat 8 kind, mc := false
    segment := false, dctx := 0, sctx := 0, mseq := 0, replyTo := 0, tag := 0, status := 0
    bootId := s.reg pFAB 0x104, extra := List.replicate 28 0, payload := [0], poison := [false], abort := false }

/-- The length of the circle of message sequences (R347). -/
abbrev mseqCircle : Nat := 2 ^ 48 - 1

/-- Take the next message sequence of a destination, or of a tree (R347). -/
def State.nextMseq (s : State) (key : Nat) : Nat × State :=
  let n := sget 0 s.fab.mseq key % mseqCircle + 1
  (n, { s with fab := { s.fab with mseq := sset 0 s.fab.mseq key n } })

/-- Messages held for a destination that have been sent. -/
def State.heldSent (s : State) (dest : BitVec 12) : Nat :=
  (s.fab.held.filter (fun h => h.msg.dest == dest && h.sent && !h.cancelled)).length

/-- Put a message on the fabric, if the transport is enabled (R369). -/
def State.transmit (s : State) (m : Message) (vc : Fin 8) : State :=
  if bit (s.reg pFAB 0x800) 0 then s.launch m vc else s

/-- Send every message of a destination that waited for room (R351). -/
def State.sendWaiting (s : State) (dest : BitVec 12) : State :=
  s.fab.held.foldl (fun s h =>
    if h.msg.dest = dest ∧ !h.sent ∧ !h.cancelled ∧ s.heldSent dest < 1024 then
      let mark (g : Held) : Held :=
        if g.msg.dest = dest ∧ g.msg.mseq = h.msg.mseq then { g with sent := true, first := s.pw.aonTime } else g
      let s := { s with fab := { s.fab with held := s.fab.held.map mark } }
      (s.inc pFAB 0xF00).transmit h.msg h.vc
    else s) s

/-- Send a windowed message (R347, R351): its sequence, and the state after. Multicast is not held (R368). -/
def State.sendMsg (s : State) (m : Message) (vc : Fin 8) (by_ : Sender) : Nat × State :=
  let key := if m.mc then 4096 + m.dest.toNat % 64 else m.dest.toNat
  let (n, s) := s.nextMseq key
  let m := { m with mseq := BitVec.ofNat 48 n }
  if m.mc then (n, (s.inc pFAB 0xF00).transmit m vc)
  else
    let h : Held := { msg := m, vc := vc, sender := by_, sent := false, tries := 0, norecv := false, refused := false,
                      first := s.pw.aonTime, cancelled := false }
    (n, ({ s with fab := { s.fab with held := s.fab.held ++ [h] } }).sendWaiting m.dest)

/-- Send a message that is neither windowed nor acknowledged: TACK, CANCEL, OP_ABORT (R347). -/
def State.sendPlain (s : State) (m : Message) (vc : Fin 8) : State :=
  (s.inc pFAB 0xF00).transmit { m with mseq := 0 } vc

/-- Acknowledge a message (R350). -/
def State.tackTo (s : State) (m : Message) (st : BitVec 16) : State :=
  let s := if st = stNO_RECV then s.inc pFAB 0xF30 else s
  s.sendPlain { newMsg s 0x02 m.src.toNat with replyTo := m.mseq, status := st, dctx := m.sctx, sctx := m.dctx } 0

/-! ### Receive windows (R347, R349, R350) -/

/-- Does `a` follow `h` by 1 to 2^47 steps (R347)? -/
def mseqAbove (a h : Nat) : Bool :=
  let d := (a + mseqCircle - h) % mseqCircle
  decide (1 ≤ d) && decide (d ≤ 2 ^ 47)

/-- Steps that `a` lies below `h`. -/
def mseqBelow (a h : Nat) : Nat := (h + mseqCircle - a) % mseqCircle

/-- What a receiver makes of a windowed message: take it with an outcome, or refuse it without a record. -/
inductive Taken where
  | accept (st : BitVec 16) (s : State)
  | refuse (st : BitVec 16) (s : State)

/-- The window of a message's source or tree, emptied by a new BOOT_ID (R349). -/
def State.windowOf (s : State) (m : Message) : Nat × Window :=
  let key := if m.mc then 4096 + m.dest.toNat % 64 else m.src.toNat
  let fresh : Window := { boot := m.bootId, h := 0, outs := [], seen := [] }
  (key, match sget none s.fab.windows key with
    | some w => if w.boot = m.bootId then w else fresh
    | none => fresh)

/-- Set a window. -/
def State.setWindow (s : State) (key : Nat) (w : Window) : State :=
  { s with fab := { s.fab with windows := sset none s.fab.windows key (some w) } }

/-- A windowed message arrives (R350, R353, R368): duplicate, stale, or taken or refused by `take`. With the transport
disabled the chip carries no traffic (R369). -/
def State.windowed (s : State) (m : Message) (take : State → Taken) : State :=
  let s := { s with fab := { s.fab with inbox := s.fab.inbox.erase m } }
  if m.abort ∨ !bit (s.reg pFAB 0x800) 0 then s
  else
    let (key, w) := s.windowOf m
    let s := s.setWindow key w
    let n := m.mseq.toNat
    let ack (s : State) (st : BitVec 16) : State := if m.mc then s else s.tackTo m st
    let fresh := w.h = 0 ∨ mseqAbove n w.h
    match (if fresh then none else sget none w.outs n) with
    | some st => ack (s.inc pFAB 0xF20) st
    | none =>
      if ¬ fresh ∧ 1024 ≤ mseqBelow n w.h then ack (s.inc pFAB 0xF28) stSTALE
      else match take s with
        | .accept st s =>
          let h := if fresh then n else w.h
          let outs := (sset none w.outs n (some st)).filter (fun e => decide (mseqBelow e.1 h < 1024))
          ack ((s.setWindow key { w with h := h, outs := outs }).inc pFAB 0xF08) st
        | .refuse st s => ack (s.setWindow key { w with seen := (n :: w.seen).take 1024 }) st

/-- An engine takes a message of its kind whenever its page is enabled (R353). -/
def State.engineTake (s : State) (m : Message) (page : Nat) (f : State → State) : State :=
  s.windowed m (fun s => if s.pgEn page then .accept stOK (f s) else .refuse stDENIED s)

/-! ### Outcomes of held messages (R351, R352, R358) -/

/-- Change the thread of a context on a core, where it runs or as it is saved. -/
def State.modThread (s : State) (c : CoreId) (x : CtxId) (f : Thread → Thread) : State :=
  if (s.core c).ctx = some x then s.modCore c (fun k => { k with th := f k.th })
  else s.modCtx x (fun g => { g with saves := smod {} g.saves c f })

/-- The outcome of a core's send is known. -/
def State.sendOutcome (s : State) (c : CoreId) (x : CtxId) (dest : BitVec 12) (mseq : BitVec 48) (st : BitVec 16) :
    State :=
  s.modThread c x (fun t => match t.wait with
    | some (.fabSend sd d q none re) =>
      if d = dest ∧ q = mseq then { t with wait := some (.fabSend sd d q (some st) re) } else t
    | _ => t)

/-- A held message's outcome is known: it is held no longer, its sender learns it, and failures are counted and
logged against the sending context. -/
def State.complete (s : State) (h : Held) (st : BitVec 16) : State :=
  let s := { s with fab := { s.fab with held := s.fab.held.filter (fun g =>
    !(g.msg.dest == h.msg.dest && g.msg.mseq == h.msg.mseq)) } }
  let x := match h.sender with | .core _ x => some x | _ => none
  let s := if st = stUNREACHABLE then (s.inc pFAB 0xF38).raise pFAB 19 else s
  let s := if st = stUNREACHABLE ∨ st = stNO_RECV then s.detectOpen cCONTAINED st 0x0D 0 x else s
  let s := match h.sender with
    | .core c x => s.sendOutcome c x h.msg.dest h.msg.mseq st
    | .engine _ _ => s
    | .kitty _ => s
  s.sendWaiting h.msg.dest

/-- The held message of a destination and sequence. -/
def State.heldOf (s : State) (dest : BitVec 12) (mseq : BitVec 48) : Option Held :=
  s.fab.held.find? (fun h => h.msg.dest == dest && h.msg.mseq == mseq && !h.cancelled)

/-- Change a held message. -/
def State.modHeld (s : State) (dest : BitVec 12) (mseq : BitVec 48) (f : Held → Held) : State :=
  { s with fab := { s.fab with held := s.fab.held.map (fun h =>
      if h.msg.dest = dest ∧ h.msg.mseq = mseq then f h else h) } }

/-- Send a held message again, in full (R352). -/
def State.resendMsg (s : State) (h : Held) (f : Held → Held) : State :=
  ((s.modHeld h.msg.dest h.msg.mseq f).inc pFAB 0xF18).transmit h.msg h.vc

/-- RESEND_TIMEOUT's effect (R352): a silent message is resent up to LIMIT times, one refused NO_RECV without limit. -/
def State.resendTmo (s : State) (dest : BitVec 12) (mseq : BitVec 48) : State :=
  match s.heldOf dest mseq with
  | none => s
  | some h =>
    if !h.sent then s
    else if h.norecv then s.resendMsg h (fun h => { h with norecv := false })
    else if h.tries < fld (s.reg pFAB 0x11C) 16 8 then s.resendMsg h (fun h => { h with tries := h.tries + 1 })
    else s.complete h stUNREACHABLE

/-- SEND_TMO_EXPIRY's effect (R352). -/
def State.sendTmo (s : State) (dest : BitVec 12) (mseq : BitVec 48) : State :=
  match s.heldOf dest mseq with
  | none => s
  | some h =>
    if h.refused ∧ (s.reg pFAB 0x120).toNat ≤ (s.pw.aonTime - h.first).toNat then s.complete h stNO_RECV else s

/-- TACK's effect on the transport (R351, R352): the message it completes with an outcome other than NO_RECV. -/
def State.onTack (s : State) (m : Message) : Option Held × State :=
  let s := { s with fab := { s.fab with inbox := s.fab.inbox.erase m } }
  match s.heldOf m.src m.replyTo with
  | none => (none, s.inc pFAB 0xF60)
  | some h =>
    if m.status = stNO_RECV then
      (none, s.modHeld m.src m.replyTo (fun h => { h with norecv := true, refused := true, tries := 0 }))
    else (some h, s)

/-! ### Receives (R350, R357, R358) -/

/-- Does a posted receive of a thread match a message (R357)? -/
def Thread.matchRecv (t : Thread) (m : Message) : Option (Nat × Nat) :=
  match t.wait with
  | some (.fabRecv _ anySrc src tag addr cap none) =>
    if tag = m.tag ∧ (anySrc ∨ src = m.src) then some (addr, cap) else none
  | _ => none

/-- The matching receive on the lowest core of the destination context. -/
def State.findRecv (s : State) (m : Message) : Option (CoreId × Nat × Nat) :=
  (List.finRange 192).findSome? (fun (c : CoreId) =>
    let t := if (s.core c).ctx = some m.dctx then some (s.core c).th
      else if (s.ctx m.dctx).saves.any (fun e => e.1 == c.val) then some (sget {} (s.ctx m.dctx).saves c.val)
      else none
    (t.bind (fun t => t.matchRecv m)).map (fun e => (c, e.1, e.2)))

/-- Write a payload into scratch, each 64 bytes with their mark. -/
def Core.recvBytes (k : Core) : Nat → Nat → List Byte → List Bool → Core
  | 0, _, _, _ => k
  | n + 1, a, bs, po =>
    if bs.isEmpty then k
    else
      let part := (bs.take 64).map some
      (k.wrScratch k.th.cyc a part (po.headD false)).recvBytes n (a + 64) (bs.drop 64) po.tail

/-- A DATA message meets the receives of its context (R350, R357). -/
def State.takeData (s : State) (m : Message) : Taken :=
  match s.findRecv m with
  | none => .refuse stNO_RECV s
  | some (c, addr, cap) =>
    let fin (st : BitVec 16) (n : Nat) (s : State) : State := s.modThread c m.dctx (fun t => match t.wait with
      | some (.fabRecv sd a src tag ad cp none) => { t with wait := some (.fabRecv sd a src tag ad cp (some (st, n, m.src))) }
      | _ => t)
    if cap < m.payload.length then .accept stBOUND (fin stBOUND 0 s)
    else
      let s := s.modCore c (fun k => k.recvBytes (m.payload.length / 64 + 1) addr m.payload m.poison)
      .accept stOK (fin stOK m.payload.length s)

/-! ### Cancel (R371, R372) -/

/-- Cancel an outstanding send of this chip (R371): it is resent no more, no answer to it counts, and a CANCEL names
it. One that is to be sent again is kept. -/
def State.cancelSend (s : State) (dest : BitVec 12) (mseq : BitVec 48) (keep : Bool) : State :=
  let s := s.modHeld dest mseq (fun h => { h with cancelled := true })
  let s := if keep then s else { s with fab := { s.fab with held := s.fab.held.filter (fun h =>
    !(h.msg.dest == dest && h.msg.mseq == mseq)) } }
  let s := (s.inc pFAB 0xF68).sendPlain { newMsg s 0x03 dest.toNat with replyTo := mseq } 0
  s.sendWaiting dest

/-- Send a cancelled message again with the same sequence (R372). -/
def State.reissue (s : State) (dest : BitVec 12) (mseq : BitVec 48) : State :=
  (s.modHeld dest mseq (fun h => { h with
    cancelled := false, sent := false, tries := 0, norecv := false, refused := false, first := s.pw.aonTime })).sendWaiting dest

/-- CANCEL (R371): the partial reassembly of the named message is discarded. -/
def execCancel (m : Message) (s : State) : Host.Outcome State Fault Refusal :=
  ok (
    let s := { s with fab := { s.fab with inbox := s.fab.inbox.erase m } }
    { s with links := s.links.map (fun e => (e.1, { e.2 with rx := e.2.rx.map (fun r => (r.1, r.2.map (fun r =>
        let h := parseMsg r.bytes [] false
        if r.mine ∧ 64 ≤ r.bytes.length ∧ h.src = m.src ∧ h.mseq = m.replyTo ∧ !h.mc then { r with dead := true }
        else r))) })) })

/-! ### Enabling (R369) -/

/-- A write of FAB_CFG (R369): EN claims the watchdog channel or fails NO_CHANNEL; clearing EN releases it and stops
traffic. -/
def State.fabCfg (s : State) (v : Word32) : State :=
  let on := bit (s.reg pFAB 0x800) 0
  if bit v 0 then
    if on then s.store pFAB 0x108 v
    else match s.claimHw 0x81 with
      | none => s.setReg pFAB 0x800 (BitVec.ofNat 32 (stNO_CHANNEL.toNat * 2 ^ 16))
      | some (_, s) => (s.store pFAB 0x108 v).setReg pFAB 0x800 3
  else
    let s := s.store pFAB 0x108 v
    match s.hwTmr 0x81 with
    | none => s
    | some n => (s.freeChannel n).setReg pFAB 0x800 (putFld (s.reg pFAB 0x800) 0 2 0)

/-- FAB_ENABLE (R369). -/
def execFabEnable (r : Requester) (v : Word32) (s : State) : Host.Outcome State Fault Refusal :=
  ok (s.write r pFAB 0x108 (fun s => s.fabCfg v))

end Sys2Proof.Machine
end

