-- ==== Sys2Proof/Machine/Scalar.lean ====
section
/-! DEFINITION. Scalar instructions (06_hj1_baseline.md R160 to R162), with the latencies of
07_hj2_contract.md R216 and the poison of 20_errors.md R573 to R576. -/

namespace Sys2Proof.Machine

/-- NOP (R160): no effect but its issue cycle. -/
def execNop (o : SOp) (s : State) : Host.Outcome State Fault Refusal :=
  ok (issue o.core (encS 0x01 0 o) (fun _ _ _ => .go {}) s)

/-- A scalar operation on RA and b (R160): the result lands in RD, poisoned if a source is. -/
def aluRes (lat : Nat) (o : SOp) (f : Word64 → Word64 → Word64) (k : Core) : IRes :=
  .go { lands := [(lat, .sreg o.rd (f (k.th.s o.ra) (k.th.b o)) (k.th.sp o.ra || k.th.bp o))]
        reads := (Loc.s o.ra, 0) :: (if o.i then [] else [(Loc.s o.rb, 0)]) }

/-- ADD: RD = RA + b (R160). -/
def execAdd (o : SOp) (s : State) : Host.Outcome State Fault Refusal :=
  ok (issue o.core (encS 0x02 0x00 o) (fun _ _ k => aluRes 1 o (fun a b => a + b) k) s)

/-- SUB: RD = RA - b (R160). -/
def execSub (o : SOp) (s : State) : Host.Outcome State Fault Refusal :=
  ok (issue o.core (encS 0x02 0x01 o) (fun _ _ k => aluRes 1 o (fun a b => a - b) k) s)

/-- AND (R160). -/
def execAnd (o : SOp) (s : State) : Host.Outcome State Fault Refusal :=
  ok (issue o.core (encS 0x02 0x02 o) (fun _ _ k => aluRes 1 o (fun a b => a &&& b) k) s)

/-- OR (R160). -/
def execOr (o : SOp) (s : State) : Host.Outcome State Fault Refusal :=
  ok (issue o.core (encS 0x02 0x03 o) (fun _ _ k => aluRes 1 o (fun a b => a ||| b) k) s)

/-- XOR (R160). -/
def execXor (o : SOp) (s : State) : Host.Outcome State Fault Refusal :=
  ok (issue o.core (encS 0x02 0x04 o) (fun _ _ k => aluRes 1 o (fun a b => a ^^^ b) k) s)

/-- SLL: RA shifted left by b[5:0] (R160). -/
def execSll (o : SOp) (s : State) : Host.Outcome State Fault Refusal :=
  ok (issue o.core (encS 0x02 0x05 o) (fun _ _ k => aluRes 1 o (fun a b => a <<< (b.toNat % 64)) k) s)

/-- SRL (R160). -/
def execSrl (o : SOp) (s : State) : Host.Outcome State Fault Refusal :=
  ok (issue o.core (encS 0x02 0x06 o) (fun _ _ k => aluRes 1 o (fun a b => a >>> (b.toNat % 64)) k) s)

/-- SRA fills with the sign bit (R160). -/
def execSra (o : SOp) (s : State) : Host.Outcome State Fault Refusal :=
  ok (issue o.core (encS 0x02 0x07 o) (fun _ _ k => aluRes 1 o (fun a b => a.sshiftRight (b.toNat % 64)) k) s)

/-- MUL: low 64 bits (R160). -/
def execMul (o : SOp) (s : State) : Host.Outcome State Fault Refusal :=
  ok (issue o.core (encS 0x02 0x08 o) (fun _ _ k => aluRes 4 o (fun a b => a * b) k) s)

/-- MULHU: high 64 bits of the unsigned product (R160). -/
def execMulhu (o : SOp) (s : State) : Host.Outcome State Fault Refusal :=
  ok (issue o.core (encS 0x02 0x09 o) (fun _ _ k => aluRes 4 o (fun a b => BitVec.ofNat 64 (a.toNat * b.toNat / 2 ^ 64)) k) s)

/-- MULH: high 64 bits of the signed product (R160). -/
def execMulh (o : SOp) (s : State) : Host.Outcome State Fault Refusal :=
  ok (issue o.core (encS 0x02 0x0A o) (fun _ _ k => aluRes 4 o (fun a b => BitVec.ofInt 64 (a.toInt * b.toInt / 2 ^ 64)) k) s)

/-- MIN, signed (R160). -/
def execMin (o : SOp) (s : State) : Host.Outcome State Fault Refusal :=
  ok (issue o.core (encS 0x02 0x0B o) (fun _ _ k => aluRes 1 o (fun a b => if a.slt b then a else b) k) s)

/-- MAX, signed (R160). -/
def execMax (o : SOp) (s : State) : Host.Outcome State Fault Refusal :=
  ok (issue o.core (encS 0x02 0x0C o) (fun _ _ k => aluRes 1 o (fun a b => if a.slt b then b else a) k) s)

/-- MINU (R160). -/
def execMinu (o : SOp) (s : State) : Host.Outcome State Fault Refusal :=
  ok (issue o.core (encS 0x02 0x0D o) (fun _ _ k => aluRes 1 o (fun a b => if a.ult b then a else b) k) s)

/-- MAXU (R160). -/
def execMaxu (o : SOp) (s : State) : Host.Outcome State Fault Refusal :=
  ok (issue o.core (encS 0x02 0x0E o) (fun _ _ k => aluRes 1 o (fun a b => if a.ult b then b else a) k) s)

/-- SLT: 1 if RA is below b signed (R160). -/
def execSlt (o : SOp) (s : State) : Host.Outcome State Fault Refusal :=
  ok (issue o.core (encS 0x02 0x0F o) (fun _ _ k => aluRes 1 o (fun a b => if a.slt b then 1 else 0) k) s)

/-- SLTU (R160). -/
def execSltu (o : SOp) (s : State) : Host.Outcome State Fault Refusal :=
  ok (issue o.core (encS 0x02 0x10 o) (fun _ _ k => aluRes 1 o (fun a b => if a.ult b then 1 else 0) k) s)

/-- SEQ: 1 if RA equals b (R160). -/
def execSeq (o : SOp) (s : State) : Host.Outcome State Fault Refusal :=
  ok (issue o.core (encS 0x02 0x11 o) (fun _ _ k => aluRes 1 o (fun a b => if a = b then 1 else 0) k) s)

/-- LUIH: RD = (IMM32 << 32) OR RA[31:0] (R160). -/
def execLuih (o : SOp) (s : State) : Host.Outcome State Fault Refusal :=
  ok (issue o.core (encS 0x03 0 o) (fun _ _ k =>
    .go { lands := [(1, .sreg o.rd (o.imm ++ (k.th.s o.ra).setWidth 32) (k.th.sp o.ra))]
          reads := [(Loc.s o.ra, 0)] }) s)

/-- Scratch and its marks as a read in cycle `t` sees them (R162, R212). -/
def Core.viewAt (k : Core) (t : Nat) : Core :=
  k.th.lands.foldl (fun q l => match l.val with
    | .scratch a bs po =>
      if l.cyc ≤ t then { q with scratch := putBytes q.scratch a bs, marks := q.markWrite a bs po } else q
    | _ => q) k

/-- The scratch address RA + IMM32 of LD, ST (R160). -/
def saddr (t : Thread) (o : SOp) : Word64 := t.s o.ra + o.imm.signExtend 64

/-- The trap of a scalar access of `n` bytes, if any: a poisoned address, then SCRATCH_BOUND, then MISALIGNED
(R161, R576) (DEDUCED, log entry 82). -/
def scalarTrap (t : Thread) (o : SOp) (n : Nat) : Option (BitVec 16) :=
  let a := (saddr t o).toNat
  if t.sp o.ra then some stPOISON_CONSUMED
  else if scratchEnd < a + n then some stSCRATCH_BOUND
  else if a % n ≠ 0 then some stMISALIGNED
  else none

/-- LD: 1 to 8 bytes of scratch, as they stand 2 CCLK after issue, zero- or sign-extended (R160 to R162, R216). -/
def execLd (o : SOp) (fn : BitVec 6) (s : State) : Host.Outcome State Fault Refusal :=
  ok (issue o.core (encS 0x04 fn.toNat o) (fun _ _ k =>
    let n := 2 ^ (fn.toNat % 4)
    match scalarTrap k.th o n with
    | some st => .trap st 0
    | none =>
      let a := (saddr k.th o).toNat
      let q := k.viewAt (k.th.cyc + 2)
      let v := leNat (q.rd a n)
      let v := if bit fn 2 ∧ 2 ^ (8 * n - 1) ≤ v then v + (2 ^ 64 - 2 ^ (8 * n)) else v
      .go { lands := [(4, .sreg o.rd (BitVec.ofNat 64 v) (q.marked a n))]
            reads := [(Loc.s o.ra, 0)]
            banks := [(2, scratchBank a)] }) s)

/-- ST: the low bytes of RB go to scratch, seen 3 CCLK after issue (R160, R161, R216, R575). -/
def execSt (o : SOp) (fn : BitVec 6) (s : State) : Host.Outcome State Fault Refusal :=
  ok (issue o.core (encS 0x05 fn.toNat o) (fun _ _ k =>
    let n := 2 ^ (fn.toNat % 4)
    match scalarTrap k.th o n with
    | some st => .trap st 0
    | none =>
      let a := (saddr k.th o).toNat
      .go { lands := [(3, .scratch a ((leBytes n (k.th.s o.rb).toNat).map some) (k.th.sp o.rb))]
            reads := [(Loc.s o.ra, 0), (Loc.s o.rb, 0)]
            banks := [(2, scratchBank a)] }) s)

/-- PC + 8 × IMM32 (R160). -/
def relTarget (t : Thread) (o : SOp) : Word64 := t.pc + o.imm.signExtend 64 * 8

/-- A conditional branch (R160, R216); a poisoned operand traps (R576). -/
def brRes (o : SOp) (f : Word64 → Word64 → Bool) (k : Core) : IRes :=
  if k.th.sp o.ra || k.th.sp o.rb then .trap stPOISON_CONSUMED 0
  else .go { target := if f (k.th.s o.ra) (k.th.s o.rb) then some (relTarget k.th o) else none
             reads := [(Loc.s o.ra, 0), (Loc.s o.rb, 0)] }

/-- BEQ (R160). -/
def execBeq (o : SOp) (s : State) : Host.Outcome State Fault Refusal :=
  ok (issue o.core (encS 0x08 0 o) (fun _ _ k => brRes o (fun a b => a == b) k) s)

/-- BNE (R160). -/
def execBne (o : SOp) (s : State) : Host.Outcome State Fault Refusal :=
  ok (issue o.core (encS 0x08 1 o) (fun _ _ k => brRes o (fun a b => a != b) k) s)

/-- BLT (R160). -/
def execBlt (o : SOp) (s : State) : Host.Outcome State Fault Refusal :=
  ok (issue o.core (encS 0x08 2 o) (fun _ _ k => brRes o (fun a b => a.slt b) k) s)

/-- BGE (R160). -/
def execBge (o : SOp) (s : State) : Host.Outcome State Fault Refusal :=
  ok (issue o.core (encS 0x08 3 o) (fun _ _ k => brRes o (fun a b => !a.slt b) k) s)

/-- BLTU (R160). -/
def execBltu (o : SOp) (s : State) : Host.Outcome State Fault Refusal :=
  ok (issue o.core (encS 0x08 4 o) (fun _ _ k => brRes o (fun a b => a.ult b) k) s)

/-- BGEU (R160). -/
def execBgeu (o : SOp) (s : State) : Host.Outcome State Fault Refusal :=
  ok (issue o.core (encS 0x08 5 o) (fun _ _ k => brRes o (fun a b => !a.ult b) k) s)

/-- JAL: RD = PC + 8; PC = PC + 8 × IMM32 (R160). -/
def execJal (o : SOp) (s : State) : Host.Outcome State Fault Refusal :=
  ok (issue o.core (encS 0x09 0 o) (fun _ _ k =>
    .go { lands := [(1, .sreg o.rd (k.th.pc + 8) false)], target := some (relTarget k.th o) }) s)

/-- JR: RD = PC + 8; PC = RA + IMM32; a target that is no multiple of 8 traps MISALIGNED (R160, R161). -/
def execJr (o : SOp) (s : State) : Host.Outcome State Fault Refusal :=
  ok (issue o.core (encS 0x0A 0 o) (fun _ _ k =>
    if k.th.sp o.ra then .trap stPOISON_CONSUMED 0
    else if (saddr k.th o).toNat % 8 ≠ 0 then .trap stMISALIGNED 0
    else .go { lands := [(1, .sreg o.rd (k.th.pc + 8) false)], target := some (saddr k.th o)
               reads := [(Loc.s o.ra, 0)] }) s)

/-- The retry array of a cluster, if one is named (R138); a slot of 48 or more names none (DEDUCED, log entry 22). -/
def State.retryArr (s : State) (cl : Nat) : Option Nat :=
  let w := s.reg (pCLU cl) 0x100
  if bit w 7 ∧ fld w 0 6 < 48 then some (48 * cl + fld w 0 6) else none

/-- Is an array usable by programs: enabled, not fenced, not its cluster's retry array (CLU_ARR_AVAIL)? -/
def State.usable (s : State) (a : Nat) : Bool :=
  !s.fusedOff a && !s.isFenced a && s.retryArr (a / 48) != some a

/-- Bit a is 1 when array a of the core is usable (SPR 0x08, CORE_STAT[14:11]). -/
def State.usableBits (s : State) (c : Nat) : Nat :=
  (List.range 4).foldl (fun m a => m + bnat (s.usable (4 * c + a)) * 2 ^ a) 0

/-- The special value of a selector (R160, table of special values). -/
def sprValue (s : State) (c : CoreId) (x : CtxId) (k : Core) (sel : Nat) : Nat :=
  match sel with
  | 0 => c
  | 1 => c / 12
  | 2 => c % 12
  | 3 => x
  | 4 => (s.ctx x).tenant
  | 5 => k.th.cyc
  | 6 => s.pw.aonTime.toNat
  | 7 => k.th.fpf.toNat
  | _ => s.usableBits c

/-- SPR: RD = the special value; reading FPFLAGS clears the flags (R160, R183). -/
def execSpr (o : SOp) (s : State) : Host.Outcome State Fault Refusal :=
  ok (issue o.core (encS 0x0B 0 o) (fun s x k =>
    .go { lands := [(2, .sreg o.rd (BitVec.ofNat 64 (sprValue s o.core x k o.imm.toNat)) false)]
          onCore := fun k => if o.imm = 7 then { k with th := { k.th with fpf := 0 } } else k }) s)

/-- An instruction word that is not permitted traps ILLEGAL_INSTR (R159); a permitted word has a row of its own, and
nothing happens (DESIGN CHOICE, log entry 9). -/
def execIllegalInstr (c : CoreId) (w : Word64) (s : State) : Host.Outcome State Fault Refusal :=
  ok (if legalWord w.toNat then s else issue c w.toNat (fun _ _ _ => .trap stILLEGAL_INSTR 0) s)

end Sys2Proof.Machine
end

