-- ==== Sys2Proof/Machine/Matrix.lean ====
section
/-! DEFINITION. Matrix instructions and the passes of the arrays (05_cores_arrays.md R124 to R137,
06_hj1_baseline.md R168 to R170, 07_hj2_contract.md R189, R190, R204, R205): what a pass computes from its feed
vectors, its checksums and verdict. The commands of the clusters stand in Arrays.lean. -/

namespace Sys2Proof.Machine

/-! ### Array values -/

/-- Is a value of an 8-bit pass NaN or infinite? -/
def special8 (v : Int) : Bool := decide (nanMark ≤ v)

/-- A sum of 8-bit pass values: exact, infinities and NaN after IEEE 754 (R126). -/
def add8 (a b : Int) : Int :=
  if !special8 a && !special8 b then a + b
  else if a = nanMark ∨ b = nanMark then nanMark
  else if special8 a && special8 b then (if a = b then a else nanMark)
  else if special8 a then a else b

/-- A product of 8-bit operand values. -/
def mul8 (a b : Int) : Int :=
  if !special8 a && !special8 b then a * b
  else if a = nanMark ∨ b = nanMark ∨ a = 0 ∨ b = 0 then nanMark
  else
    let neg (v : Int) : Bool := v == ninfMark || decide (v < 0)
    if neg a == neg b then pinfMark else ninfMark

/-- An FP8 operand in units of 2^-16. -/
def fp8Int : FVal → Int
  | .nan _ => nanMark
  | .inf s => if s then ninfMark else pinfMark
  | .num s m e =>
    let n : Nat := m * 2 ^ (e + 16).toNat
    if s then -(n : Int) else n

/-- An FP32 pattern held as a number. -/
def pat (v : Int) : Word32 := BitVec.ofInt 32 v

/-- Is a value of a pass NaN or infinite? -/
def specialOf (fmt : Fin 4) (v : Int) : Bool :=
  if fmt = 0 then (pat v).extractLsb' 23 8 == 0xFF else special8 v

/-- A sum of two values of a pass, rounded to FP32 in BF16 (R126). -/
def addOf (fmt : Fin 4) (a b : Int) : Int :=
  if fmt = 0 then ((fadd (pat a) (pat b)).1.toNat : Int) else add8 a b

/-- One cell: its products in ascending k, each added to the accumulator (R126). -/
def dot (fmt : Fin 4) (x y : List Int) : Int :=
  if fmt = 0 then
    (((x.zip y).foldl (fun (acc : Word32) e =>
      match mulExact (f32val (pat e.1)) (f32val (pat e.2)) with
      | none => qnan32
      | some v => (addVal (f32val acc) v).1) 0).toNat : Int)
  else (x.zip y).foldl (fun acc e => add8 acc (mul8 e.1 e.2)) 0

/-! ### From feed vectors to operands (R124, R125, R128, R130) -/

/-- The values that one feed vector holds for a lane: one in BF16, two in 8-bit formats (R128). -/
def laneVals (fmt : Fin 4) (e5 : Bool) (lane : Nat) (v : BitVec 1024) : List Int :=
  if fmt = 0 then [((v.extractLsb' (16 * lane) 16).toNat * 65536 : Nat)]
  else
    let b (i : Nat) : Byte := v.extractLsb' (16 * lane + 8 * i) 8
    let f (x : Byte) : Int := if fmt = 1 then x.toInt else fp8Int (if e5 then e5m2val x else e4m3val x)
    [f (b 0), f (b 1)]

/-- A lane's values by diagonal: what it meets in a cell as time goes, with the +0 that the feeders inject before the
first vector and after the last (R124, R125). -/
def laneRow (fmt : Fin 4) (e5 : Bool) (width : Nat) (vecs : List (BitVec 1024)) (lane : Nat) : List Int :=
  let per := if fmt = 0 then 1 else 2
  List.replicate (per * (width - 1 - lane)) 0 ++ vecs.flatMap (laneVals fmt e5 lane) ++ List.replicate (per * lane) 0

/-- A checksum feeder: for each k the sum of the operand values, in ascending lane (R132) (DEDUCED, log entry 91). -/
def feedSum (fmt : Fin 4) : List (List Int) → List Int
  | [] => []
  | r :: rs => rs.foldl (fun acc x => (acc.zip x).map (fun e => addOf fmt e.1 e.2)) r

/-- Magnitudes of BF16 operands. -/
def absRow (r : List Int) : List Int := r.map (fun v => ((pat v &&& 0x7FFFFFFF).toNat : Int))

/-- What the 33×33 cells of an array hold at the end of a pass, and the magnitude sums of its checksum cells. -/
structure Block where
  cells : List (List Int)
  row : List Int
  col : List Int
  corner : Int
  rowMag : List Int
  colMag : List Int
  cornerMag : Int
  /-- An operand is NaN or infinite. -/
  special : Bool

/-- Flip bits of an accumulator of `w` bits (DEDUCED, log entry 90). -/
def flipInt (w : Nat) (v : Int) (mask : Nat) : Int :=
  if special8 v then v
  else
    let x := (v % (2 ^ w : Nat)).toNat ^^^ (mask % 2 ^ w)
    if 2 ^ (w - 1) ≤ x then (x : Int) - (2 ^ w : Nat) else x

/-- Flip bits of one value of a pass. -/
def flipOf (fmt : Fin 4) (wide : Bool) (v : Int) (mask : Nat) : Int :=
  if fmt = 0 then ((pat v ^^^ BitVec.ofNat 32 mask).toNat : Int)
  else flipInt (if wide then 128 else if fmt = 1 then 32 else 76) v mask

/-- Apply the faults that struck the array (a CellFault's docstring). -/
def Block.strike (fmt : Fin 4) (b : Block) (f : CellFault) : Block :=
  if f.row.val < 32 ∧ f.col.val < 32 then
    { b with cells := b.cells.modify f.row.val (fun r => r.modify f.col.val (fun v => flipOf fmt false v f.mask)) }
  else if f.row.val = 32 ∧ f.col.val = 32 then { b with corner := flipOf fmt true b.corner f.mask }
  else if f.row.val = 32 then { b with row := b.row.modify f.col.val (fun v => flipOf fmt true v f.mask) }
  else { b with col := b.col.modify f.row.val (fun v => flipOf fmt true v f.mask) }

/-- Compute the block of quadrant `q` of a pass (R125, R126, R130, R132). -/
def Pass.block (p : Pass) (q : Nat) (faults : List CellFault) : Block :=
  let w := if p.gang then 64 else 32
  let ra := if p.gang then 32 * (q / 2) else 0
  let rb := if p.gang then 32 * (q % 2) else 0
  let a := (List.range 32).map (fun i => laneRow p.fmt p.ae w p.capA (ra + i))
  let b := (List.range 32).map (fun j => laneRow p.fmt p.be w p.capB (rb + j))
  let sa := feedSum p.fmt a
  let sb := feedSum p.fmt b
  let mags := decide (p.fmt = 0)
  let aa := if mags then a.map absRow else []
  let bb := if mags then b.map absRow else []
  let ma := feedSum p.fmt aa
  let mb := feedSum p.fmt bb
  let blk : Block :=
    { cells := a.map (fun x => b.map (fun y => dot p.fmt x y))
      row := b.map (fun y => dot p.fmt sa y)
      col := a.map (fun x => dot p.fmt x sb)
      corner := dot p.fmt sa sb
      rowMag := bb.map (fun y => dot p.fmt ma y)
      colMag := aa.map (fun x => dot p.fmt x mb)
      cornerMag := if mags then dot p.fmt ma mb else 0
      special := (a ++ b).any (fun r => r.any (specialOf p.fmt)) }
  faults.foldl (Block.strike p.fmt) blk

/-! ### The comparisons (R132 to R135) -/

/-- The pattern of 2^-n. -/
def pow2neg (n : Nat) : Word32 := BitVec.ofNat 32 ((127 - n) * 2 ^ 23)

/-- Does a comparison of sum `x` with checksum `c` of magnitude `m` fail (R133, R134)? -/
def cmpFails (fmt : Fin 4) (tol : Nat) (x c m : Int) : Bool :=
  if fmt = 0 then
    let d := (fsub (pat x) (pat c)).1 &&& 0x7FFFFFFF
    cmpNum (f32val d) (f32val (fmul (pow2neg tol) (pat m)).1) == .gt
  else x != c

/-- What the checks of a pass found: rows and columns that failed, and the corner; none when it is not compared. -/
structure Checks where
  rows : List Nat
  cols : List Nat
  corner : Bool

/-- Is every check held? -/
def Checks.clean (k : Checks) : Bool := k.rows.isEmpty && k.cols.isEmpty && !k.corner

/-- A sum in ascending index. -/
def sumOf (fmt : Fin 4) (l : List Int) : Int := l.foldl (addOf fmt) 0

/-- Compare a block with its checksums (R132 to R135; 20_errors.md R574). -/
def Pass.check (p : Pass) (b : Block) : Option Checks :=
  let vals := b.cells.flatten ++ b.row ++ b.col ++ [b.corner] ++ b.rowMag ++ b.colMag ++ [b.cornerMag]
  if p.poison || b.special || vals.any (specialOf p.fmt) then none
  else
    let at_ (l : List Int) (i : Nat) : Int := l.getD i 0
    let cmp (x c m : Int) : Bool := cmpFails p.fmt p.tol x c m
    some {
      rows := (List.range 32).filter (fun i => cmp (sumOf p.fmt (b.cells.getD i [])) (at_ b.col i) (at_ b.colMag i))
      cols := (List.range 32).filter (fun j =>
        cmp (sumOf p.fmt (b.cells.map (fun r => at_ r j))) (at_ b.row j) (at_ b.rowMag j))
      corner := cmp (sumOf p.fmt b.row) b.corner b.cornerMag || cmp (sumOf p.fmt b.col) b.corner b.cornerMag }

/-! ### Fences, retries and self-test as passes meet them -/

/-- Is a pass of array `a` in flight: its verdict or its commit is to come? -/
def State.inFlight (s : State) (a : Nat) : Bool :=
  let k := s.core (a / 4)
  let q := a % 4
  k.passes.any (fun p => (p.gang || p.arr.val == q) && !p.judged.getLsbD q)
    || k.th.lands.any (fun l => match l.val with | .commit b _ _ _ _ _ => b.val == q | _ => false)
    || (let c := s.clu (a / 48)
        (c.retryQ ++ c.serving.toList).any (fun j => j.core.val == a / 4 && j.quad.val == q)
          || (c.serving.isSome && s.retryArr (a / 48) == some a))

/-- Is the cluster's retry array there: named, enabled and not fenced (R141)? (DEDUCED, log entry 94) -/
def State.retryAvail (s : State) (cl : Nat) : Bool :=
  match s.retryArr cl with
  | none => false
  | some a => !s.fusedOff a && !s.isFenced a

/-- Change an array. -/
def State.modArr (s : State) (a : Nat) (f : Arr → Arr) : State := { s with arrs := smod {} s.arrs a f }

/-- A fenced array's domain goes OFF once no pass is in flight on it and no test is powered on it (R143). -/
def State.fencedOff (s : State) (a : Nat) : State :=
  let testing := match (s.clu (a / 48)).test with | some t => t.slot.val == a % 48 | none => false
  if s.isFenced a ∧ !s.inFlight a ∧ !testing then
    s.modDom a (fun d => { d with waking := false, wakeAfter := false
                                  sleepTo := if d.state = .off then none else some .off })
  else s

/-- Fence an array (R142, R143); a fused-off array is not fenced (DEDUCED, log entry 95). -/
def State.fence (s : State) (a : Nat) (cause : FenceCause) : State :=
  if s.fusedOff a then s
  else
    let fresh := !s.isFenced a
    let s := s.modArr a (fun r => { r with fenced := some cause })
    let s := if fresh then s.raise (pCLU (a / 48)) 16 else s
    s.fencedOff a

/-- One more mismatch of an array, which fences it at the threshold (R142). -/
def State.mismatch (s : State) (a : Nat) : State :=
  let s := s.modArr a (fun r => { r with mism := r.mism + 1 })
  let th := fld (s.reg (pCLU (a / 48)) 0x104) 0 8
  if th ≠ 0 ∧ th ≤ (s.arr a).mism ∧ !s.isFenced a then s.fence a .threshold else s

/-- A matrix instruction issued to an array abandons its running self-test slice (R148). -/
def State.abandon (s : State) (a : Nat) : State :=
  match (s.clu (a / 48)).test with
  | some t =>
    if t.running ∧ t.slot.val = a % 48 then
      (s.modClu (a / 48) (fun c => { c with test := some { t with running := false } })).inc (pCLU (a / 48)) 0xF18
    else s
  | none => s

/-- What the check bits of some tile words show as they are read: the rows found uncorrectable (R127). -/
def State.tileEcc (s : State) (a : Nat) (ecc : List TileEcc) : State × BitVec 32 :=
  ecc.foldl (fun (e : State × BitVec 32) w => match w.obs with
    | .clean => e
    | .correctable =>
      (((e.1.inc (pARR a) 0xF28).raise (pARR a) 17).detectOpen cCORRECTED stECC_CORRECTED 0x1D a none, e.2)
    | .uncorrectable =>
      ((e.1.raise (pARR a) 17).detectOpen cPOISONED stECC_UNCORRECTABLE 0x1D a none, e.2 ||| (1 <<< w.row.val))) (s, 0)

/-! ### Verdicts (R135 to R141) -/

/-- The commit of a block is to land at the pass's fixed latency (R136). -/
def State.commitBlock (s : State) (c : CoreId) (p : Pass) (q : Fin 4) (b : Block) (bad : BitVec 32) : State :=
  let rows := if p.poison then BitVec.allOnes 32 else bad
  let l : Landing := ⟨p.cyc + p.lat, p.seq, .commit q p.tile p.acc p.fmt b.cells.flatten rows⟩
  s.modCore c (fun k => { k with th := { k.th with lands := insLand l k.th.lands } })

/-- FORMAT of ARR_LAST_MISMATCH. -/
def fmtCode (fmt : Fin 4) : Nat := if fmt = 1 then 2 else if fmt = 2 then 1 else 0

/-- Record a mismatch in ARR_LAST_MISMATCH and its time (ARR_LAST_MISMATCH). -/
def State.lastMismatch (s : State) (a : Nat) (p : Pass) (k : Checks) (action : Nat) : State :=
  let v := k.rows.headD 0 + bnat (!k.rows.isEmpty) * 2 ^ 5 + k.cols.headD 0 * 2 ^ 6
    + bnat (!k.cols.isEmpty) * 2 ^ 11 + fmtCode p.fmt * 2 ^ 12 + action * 2 ^ 14 + bnat k.corner * 2 ^ 17
    + p.tile.val * 2 ^ 18 + p.ctx.val * 2 ^ 20 + 2 ^ 31
  (s.setReg (pARR a) 0x804 (BitVec.ofNat 32 v)).setReg64 (pARR a) 0x808 (s.pw.aonTime.setWidth 64)

/-- A mismatch handled as under HALT: logged CONTAINED, and the context ends (R137, R141). -/
def State.mismatchHalt (s : State) (a : Nat) (x : CtxId) : State :=
  (s.detectOpen cCONTAINED stCKSUM_MISMATCH 0x1D a (some x)).stopContext x stCKSUM_HALT

/-- After a verdict or a retry: an UNGANG that waited for the last commit goes on (R204), and a fenced array's domain
may go OFF (R143). -/
def State.passOver (s : State) (c : CoreId) (a : Nat) : State :=
  let k := s.core c
  let s :=
    if k.ungangWait ∧ k.passes.isEmpty ∧ k.retrying = 0 then
      let cs := k.th.lands.filter (fun l => match l.val with | .commit .. => true | _ => false)
      let n := cs.foldl (fun m l => max m (l.cyc - k.th.cyc)) 0
      let k := cs.foldl (fun k l => ({ k with th := { k.th with lands := k.th.lands.erase l } } : Core).land l) k
      (s.frozen c n).setCore c { k with ungangWait := false }
    else s
  s.fencedOff a

/-- The verdict of quadrant `q` of a pass whose feed vectors have been read (R132 to R137). -/
def State.judge (s : State) (a : ArrId) (c : CoreId) (q : Fin 4) (p : Pass) (faults : List CellFault)
    (ecc : List TileEcc) : State :=
  let b := p.block q faults
  let s := s.inc (pARR a) 0xF00
  let commit (s : State) : State :=
    let (s, bad) := if p.acc then s.tileEcc a ecc else (s, 0)
    s.commitBlock c p q b bad
  match p.check b with
  | none => commit ((s.inc (pARR a) 0xF18).modCounts p.ctx (fun n => { n with arrUnchecked := n.arrUnchecked + 1 }))
  | some k =>
    if k.clean then commit ((s.inc (pARR a) 0xF08).modCounts p.ctx (fun n => { n with arrOk := n.arrOk + 1 }))
    else
      let s := ((s.inc (pARR a) 0xF10).raise (pARR a) 16).modCounts p.ctx
        (fun n => { n with arrMismatch := n.arrMismatch + 1 })
      let cl := a.val / 48
      let act := if p.action = 0 then 0 else if p.action = 1 ∧ s.retryAvail cl then 1 else 2
      let s := s.lastMismatch a p k act
      let s :=
        if act = 0 then commit (s.detectOpen cCONTAINED stCKSUM_MISMATCH 0x1D a (some p.ctx))
        else if act = 1 then
          let s := s.modClu cl (fun u => { u with retryQ := u.retryQ ++ [{ core := c, quad := q, pass := p }] })
          (s.inc (pCORE c) 0xF18).modCore c (fun k => { k with retrying := k.retrying + 1 })
        else s.mismatchHalt a p.ctx
      s.mismatch a

/-- Is a pass's verdict due: its last product has been formed, or the core does not issue meanwhile (R125)? -/
def Core.verdictDue (k : Core) (p : Pass) : Bool :=
  decide (p.cyc + p.f + 31 ≤ k.th.cyc) || k.th.wait.isSome || k.th.halted || k.ungangWait || k.parked

/-- The core of an array. -/
def coreOf (a : ArrId) : CoreId := ⟨a.val / 4, by omega⟩

/-- The array's number in its core. -/
def quadOf (a : ArrId) : Fin 4 := ⟨a.val % 4, by omega⟩

/-- PASS_VERDICT: the oldest pass of the array whose verdict is due (R132, R136). -/
def execPassVerdict (a : ArrId) (faults : List CellFault) (ecc : List TileEcc) (s : State) :
    Host.Outcome State Fault Refusal :=
  ok (
    let c := coreOf a
    let q := quadOf a
    let k := s.core c
    let ending := match k.ctx with | some x => (s.ctx x).state == .ending | none => true
    match k.passes.find? (fun p => (p.gang || p.arr == q) && !p.judged.getLsbD q && (k.verdictDue p || ending)) with
    | none => s
    | some p0 =>
      let p := k.capture p0.f p0.f p0
      let judged := setBit p.judged q true
      let rest := if judged = BitVec.allOnes 4 ∨ !p.gang then k.passes.erase p0
        else k.passes.map (fun r => if r = p0 then { p with judged := judged } else r)
      ((s.setCore c { k with passes := rest }).judge a c q p faults ecc).passOver c a)

/-! ### The instructions -/

/-- A gang change on its way takes effect at once, the core frozen for what is left of it (R204). -/
def Core.gangNow (k : Core) : Core × Nat :=
  match k.th.lands.find? (fun l => match l.val with | .gang _ => true | _ => false) with
  | none => (k, 0)
  | some l => (({ k with th := { k.th with lands := k.th.lands.erase l } } : Core).land l, l.cyc - k.th.cyc)

/-- The arrays of a core that an instruction reaches. -/
def quads (gang : Bool) (q : Fin 4) : List Nat := if gang then [0, 1, 2, 3] else [q.val]

/-- The trap of a matrix instruction on arrays that are not to be used: fenced ones (R144), and, as at load, disabled
ones and the retry array (DEDUCED, log entry 96). -/
def State.arrTrap (s : State) (c : Nat) (qs : List Nat) : Option (BitVec 16) :=
  qs.findSome? (fun q =>
    let a := 4 * c + q
    if s.fusedOff a then some stARRAY_DISABLED
    else if s.retryArr (a / 48) = some a then some stARRAY_RESERVED
    else if s.isFenced a then some stARRAY_FENCED
    else none)

/-- What every matrix instruction does beside its own effect: it counts and abandons self-test slices (R148)
(DEDUCED, log entry 98). -/
def matEffect (c : Nat) (qs : List Nat) (s : State) : State :=
  qs.foldl (fun s q => s.abandon (4 * c + q)) (s.inc (pCORE c) 0xF20)

/-- Feed vectors of a pass: F (R124, R130) (DEDUCED, log entry 92). -/
def passF (gang : Bool) (fmt : Fin 4) (k : Nat) : Nat :=
  (if fmt = 0 then k else k / 2) + (if gang then 63 else 31)

/-- The trap of an operand address: SCRATCH_BOUND before MISALIGNED (R169) (DEDUCED, log entry 97). -/
def operandTrap (a : Word64) (bytes : Nat) : Option (BitVec 16) :=
  if scratchEnd < a.toNat + bytes then some stSCRATCH_BOUND
  else if a.toNat % 64 ≠ 0 then some stMISALIGNED
  else none

/-- The bank accesses of one operand's feeders (R123, R216). -/
def feedBanks (gang : Bool) (base f : Nat) : List (Nat × Nat) :=
  (List.range f).flatMap (fun u =>
    if gang then [(1 + u, scratchBank (base + 128 * u)), (1 + u, scratchBank (base + 128 * u + 64))]
    else [(1 + u, scratchBank (base + 64 * u))])

/-- MMA (R168 to R170, R189, R205, R216). -/
def execMma (o : MOp) (s : State) : Host.Outcome State Fault Refusal :=
  ok (issue o.core (encM 0x40 o) (fun s x k =>
    let (k, fz) := k.gangNow
    let g := k.th.ganged
    let qs := quads g o.arr
    let f := passF g o.fmt o.k.toNat
    let n := (if g then 128 else 64) * f
    let sa := k.th.s o.sa
    let sb := k.th.s o.sb
    let bound := [operandTrap sa n, operandTrap sb n].filterMap id
    if g ∧ o.arr ≠ 0 then .trap stILLEGAL_INSTR 0
    else match s.arrTrap o.core qs with
      | some st => .trap st 0
      | none =>
        if k.th.sp o.sa || k.th.sp o.sb then .trap stPOISON_CONSUMED 0
        else if bound.contains stSCRATCH_BOUND then .trap stSCRATCH_BOUND 0
        else if bound.contains stMISALIGNED then .trap stMISALIGNED 0
        else
          let mine (p : Pass) : Bool := p.gang || g || p.arr == o.arr
          let wait := k.passes.foldl (fun m p => if mine p then max m (p.cyc + p.f - k.th.cyc) else m) 0
          let p : Pass :=
            { arr := o.arr, tile := o.tile, acc := o.acc, fmt := o.fmt, ae := o.ae, be := o.be, k := o.k.toNat
              f := f, gang := g, sa := sa.toNat, sb := sb.toNat, cyc := k.th.cyc, seq := k.th.seqNo, ctx := x
              action := s.action, tol := s.tolExp, capA := [], capB := [], poison := false, judged := 0 }
          .go { freeze := fz + wait
                reads := [(Loc.s o.sa, 0), (Loc.s o.sb, 0)]
                later := qs.map (fun q => (Loc.t q o.tile none, p.lat))
                banks := feedBanks g sa.toNat f ++ feedBanks g sb.toNat f
                onCore := fun k =>
                  let k := k.gangNow.1
                  { k with passes := k.passes.map (fun r => if mine r then k.capture r.f r.f r else r) ++ [p] }
                onState := matEffect o.core qs }) s)

/-- The row of a tile as a read in cycle `t` finds it (R170, R212), and its poison. -/
def Core.rowAt (k : Core) (t arr tile row : Nat) : BitVec 1024 × Bool :=
  let q := k.th.lands.foldl (fun (q : Core) l =>
    if l.cyc ≤ t then
      match l.val with
      | .trow .. => q.land l
      | .tzero .. => q.land l
      | .commit .. => q.land l
      | _ => q
    else q) k
  (q.th.trow arr tile row, sget false q.th.tpo (tkey arr tile row))

/-- MTRD (R168, R170, R205); uncorrectable words read as poisoned (R127). -/
def execMtrd (o : MOp) (ecc : List TileEcc) (s : State) : Host.Outcome State Fault Refusal :=
  ok (issue o.core (encM 0x41 o) (fun s _ k =>
    let (k, fz) := k.gangNow
    match s.arrTrap o.core [o.arr.val] with
    | some st => .trap st 0
    | none =>
      let (v, po) := k.rowAt (k.th.cyc + 2) o.arr o.tile o.row
      let sh := if o.half then 1024 else 0
      let mine := ecc.filter (fun e => e.row == o.row)
      let bad := mine.any (fun e => e.obs == .uncorrectable)
      let mask : BitVec 2048 := (BitVec.allOnes 1024).setWidth 2048 <<< sh
      .go { lands := [(4, .vreg o.vr mask (v.setWidth 2048 <<< sh) (po || bad || k.th.vp o.vr))]
            freeze := fz
            reads := [(Loc.t o.arr o.tile (some o.row.val), 2)]
            onCore := fun k => k.gangNow.1
            onState := fun s => (matEffect o.core [o.arr.val] s).tileEcc (4 * o.core.val + o.arr.val) mine |>.1 }) s)

/-- MTWR (R168, R205). -/
def execMtwr (o : MOp) (s : State) : Host.Outcome State Fault Refusal :=
  ok (issue o.core (encM 0x42 o) (fun s _ k =>
    let (k, fz) := k.gangNow
    match s.arrTrap o.core [o.arr.val] with
    | some st => .trap st 0
    | none =>
      .go { lands := [(3, .trow o.arr o.tile o.row ((k.th.v o.vr).extractLsb' (if o.half then 1024 else 0) 1024)
                        (k.th.vp o.vr))]
            freeze := fz
            reads := [(Loc.v o.vr, 0)]
            onCore := fun k => k.gangNow.1
            onState := matEffect o.core [o.arr.val] }) s)

/-- MTZERO (R168, R205). -/
def execMtzero (o : MOp) (s : State) : Host.Outcome State Fault Refusal :=
  ok (issue o.core (encM 0x43 o) (fun s _ k =>
    let (_, fz) := k.gangNow
    match s.arrTrap o.core [o.arr.val] with
    | some st => .trap st 0
    | none => .go { lands := [(2, .tzero o.arr o.tile)], freeze := fz, onCore := fun k => k.gangNow.1
                    onState := matEffect o.core [o.arr.val] }) s)

/-- Is a core gang-capable: none of its four arrays disabled (FUS_GANG_OK, R120)? -/
def State.gangOk (s : State) (c : Nat) : Bool := [0, 1, 2, 3].all (fun q => !s.fusedOff (4 * c + q))

/-- GANG (R131, R204): on a ganged core it does nothing. -/
def execGang (o : MOp) (s : State) : Host.Outcome State Fault Refusal :=
  ok (issue o.core (encM 0x44 o) (fun s _ k =>
    let (k, fz) := k.gangNow
    let c := o.core.val
    if k.th.ganged then
      .go { freeze := fz, onCore := fun k => k.gangNow.1, onState := matEffect c [] }
    else if [0, 1, 2, 3].all (fun q => s.usable (4 * c + q) && !s.inFlight (4 * c + q)) then
      .go { lands := [(8, .gang true)], freeze := fz, onState := matEffect c [0, 1, 2, 3]
            onCore := fun k => { k with th := { k.th with
              ganged := false
              lands := k.th.lands.filter (fun l => match l.val with | .gang b => b | _ => true) } } }
    else .trap stGANG_DENIED 0) s)

/-- UNGANG (R204): it waits for a pass in flight to commit. -/
def execUngang (o : MOp) (s : State) : Host.Outcome State Fault Refusal :=
  ok (issue o.core (encM 0x45 o) (fun _ _ k =>
    let (k, fz) := k.gangNow
    let c := o.core
    if k.th.ganged then
      .go { lands := [(8, .gang false)], freeze := fz
            onCore := fun k =>
              let k : Core := { k with th := { k.th with ganged := true, lands := k.th.lands.filter (fun l => match l.val with
                | .gang b => !b | _ => true) } }
              { k with ungangWait := k.passes.any (fun _ => true) || k.th.lands.any (fun l => match l.val with
                  | .commit .. => true | _ => false) }
            onState := fun s => (matEffect c [] s).passOver c (4 * c.val) }
    else .go { freeze := fz, onCore := fun k => k.gangNow.1, onState := matEffect c [] }) s)

end Sys2Proof.Machine
end

