-- ==== Sys2Proof/Machine/Tiers.lean ====
section
/-! DEFINITION. Tiers, tensor records and their translation, quotas, admission, heat and moves
(10_tiers_quotas.md R280 to R304). -/

namespace Sys2Proof.Machine

/-! ### Units -/

/-- Bytes of a unit: a granule or a page (R282). -/
def unitBytes (pool : Bool) : Nat := if pool then 65536 else 2097152

/-- Units that `n` bytes take. -/
def unitsFor (pool : Bool) (n : Nat) : Nat := (n + unitBytes pool - 1) / unitBytes pool

/-- First unit and number of units of a place: a cluster's granules, or the pages of a window or the chip (R281,
R283). -/
def State.place (s : State) (pool : Bool) (home : Nat) : Nat × Nat :=
  if pool then (home % 16 * 192, 192)
  else if s.grouped then (home % 16 * 24576, 24576) else (0, 393216)

/-- Every listed value of a map of options. -/
def somes {α : Type} (m : SMap (Option α)) : List α := m.filterMap (fun e => e.2)

/-- Every unit of a tier that is in use: records, destinations of moves, and claims. -/
def State.unitsUsed (s : State) (pool : Bool) : List Nat :=
  (somes s.tier.recs).flatMap (fun r => if r.pool = pool then r.units ++ r.unitsB else [])
    ++ (s.tier.moves ++ s.tier.moving.toList).flatMap (fun m => if m.pool = pool then m.dst ++ m.dstB else [])
    ++ (if pool then s.tier.claims.flatMap (fun e => e.2) else [])

/-- The first unit outside `used` at or after `base + i`, going round within `n` units. -/
def nextFree (used : List Nat) (base n : Nat) : Nat → Nat → Option Nat
  | 0, _ => none
  | fuel + 1, i =>
    let u := base + i % n
    if used.contains u then nextFree used base n fuel (i + 1) else some u

/-- Index of a unit in the map of freed units. -/
def freedKey (pool : Bool) (u : Nat) : Nat := if pool then u else 3072 + u

/-- Zero a unit (R284). -/
def State.zeroUnit (s : State) (pool : Bool) (u : Nat) : State :=
  if pool then
    { s with mem := { s.mem with
        pool := s.mem.pool.filter (fun e => !(e.1 / 65536 == u))
        poolMarks := s.mem.poolMarks.filter (fun e => !(e.1 / 1024 == u)) } }
  else s.zeroRange (u * 2097152) 2097152

/-- Does a unit hold a poisoned line? -/
def State.unitMarked (s : State) (pool : Bool) (u : Nat) : Bool :=
  if pool then s.mem.poolMarks.any (fun e => e.2 && e.1 / 1024 == u)
  else s.mem.poison.any (fun e => e.2 && e.1 / 32768 == u) ||
    s.mem.hcc.any (fun e => match e.2 with | some l => l.poison && l.line / 32768 == u | none => false)

/-- Allocate `n` units for an owner, none of them in use; which of the free units is free (DESIGN CHOICE, log entry 5). A unit
that another owner freed is zeroed first (R284). -/
def State.allocUnits (s : State) (pool : Bool) (home owner : Nat) : Nat → List Nat → Option (List Nat × State)
  | 0, got => some (got.reverse, s)
  | n + 1, got =>
    let (base, len) := s.place pool home
    let v := s.freeVal; let s := s.usedFree
    match nextFree (s.unitsUsed pool ++ got) base len len (v % len) with
    | none => none
    | some u =>
      let before := sget 0 s.tier.freed (freedKey pool u)
      let s := if before ≠ 0 ∧ (before ≠ owner + 1 ∨ s.unitMarked pool u) then s.zeroUnit pool u else s
      let s := { s with tier := { s.tier with freed := sset 0 s.tier.freed (freedKey pool u) 0 } }
      s.allocUnits pool home owner n (u :: got)

/-- Note that an owner freed some units. -/
def State.freeUnits (s : State) (pool : Bool) (owner : Nat) (us : List Nat) : State :=
  { s with tier := { s.tier with
      freed := us.foldl (fun m u => sset 0 m (freedKey pool u) (owner + 1)) s.tier.freed } }

/-! ### Records and mappings (R286, R287) -/

/-- A tensor record. -/
def State.trec (s : State) (n : Nat) : Option Rec := sget none s.tier.recs n

/-- Set a tensor record. -/
def State.setRec (s : State) (n : Nat) (r : Option Rec) : State :=
  { s with tier := { s.tier with recs := sset none s.tier.recs n r } }

/-- Change a tensor record. -/
def State.modRec (s : State) (n : Nat) (f : Rec → Rec) : State := s.setRec n ((s.trec n).map f)

/-- A context's mapping of a tensor ID. -/
def State.mapping (s : State) (x tid : Nat) : Option Mapping :=
  if 4096 ≤ tid then none else sget none s.tier.maps (x * 4096 + tid)

/-- The record number, record and write right of a tensor that a context names (R286). -/
def State.tensor (s : State) (x tid : Nat) : Option (Nat × Rec × Bool) :=
  match s.mapping x tid with
  | none => none
  | some m => (s.trec m.recN).map (fun r => (m.recN, r, m.rw))

/-- Where byte `off` of a record lies: unit and offset in it. -/
def Rec.unitAt (r : Rec) (bankB : Bool) (off : Nat) : Nat × Nat :=
  ((if bankB then r.unitsB else r.units).getD (off / unitBytes r.pool) 0, off % unitBytes r.pool)

/-- One access to a pool line is counted (R293). -/
def State.poolHit (s : State) (n : Nat) : State :=
  s.modRec n (fun r => { r with hits := min 0xFFFFFFFF (r.hits + 1) })

/-- Write bytes of pool at a key, with the marks of R261. -/
def State.poolWr (s : State) (key : Nat) (bs : List Byte) (poison : Bool) : State :=
  let line := key / 64
  let old := sget false s.mem.poolMarks line
  { s with mem := { s.mem with pool := ssets 0 s.mem.pool key bs
                               poolMarks := sset false s.mem.poolMarks line (markAfter old (bs.length == 64) poison) } }

/-- Read `n` bytes of record `rn` from offset `off`, line by line: bytes and whether any line is poisoned. -/
def State.recRd (s : State) (rn : Nat) (bankB : Bool) (hint : Hint) (part : Nat) (mayWrite : Bool) :
    Nat → Nat → Nat → List Byte × Bool × State
  | 0, _, _ => ([], false, s)
  | fuel + 1, off, n =>
    match s.trec rn with
    | none => (List.replicate n 0, false, s)
    | some r =>
      if n = 0 then ([], false, s)
      else
        let m := min n (64 - off % 64)
        let (u, o) := r.unitAt bankB off
        let (bs, po, s) :=
          if r.pool then
            let key := u * 65536 + o
            (sgets 0 s.mem.pool key m, sget false s.mem.poolMarks (key / 64), s.poolHit rn)
          else s.memRd hint part mayWrite 2 (u * 2097152 + o) m
        let (rest, po2, s) := s.recRd rn bankB hint part mayWrite fuel (off + m) (n - m)
        (bs ++ rest, po || po2, s)

/-- Read bytes of a record. -/
def State.recRead (s : State) (rn : Nat) (bankB : Bool) (hint : Hint) (part : Nat) (mayWrite : Bool) (off n : Nat) :
    List Byte × Bool × State := s.recRd rn bankB hint part mayWrite (n / 64 + 2) off n

/-- Write bytes of record `rn` from offset `off`, line by line. -/
def State.recWr (s : State) (rn : Nat) (bankB : Bool) (hint : Hint) (part : Nat) (poison : Bool) :
    Nat → Nat → List Byte → State
  | 0, _, _ => s
  | fuel + 1, off, bs =>
    match s.trec rn with
    | none => s
    | some r =>
      if bs.isEmpty then s
      else
        let m := min bs.length (64 - off % 64)
        let (u, o) := r.unitAt bankB off
        let s :=
          if r.pool then (s.poolWr (u * 65536 + o) (bs.take m) poison).poolHit rn
          else s.memWr hint part true poison 2 (u * 2097152 + o) (bs.take m)
        s.recWr rn bankB hint part poison fuel (off + m) (bs.drop m)

/-- Write bytes of a record. -/
def State.recWrite (s : State) (rn : Nat) (bankB : Bool) (hint : Hint) (part : Nat) (poison : Bool) (off : Nat)
    (bs : List Byte) : State := s.recWr rn bankB hint part poison (bs.length / 64 + 2) off bs

/-- Read bytes of a context's tensor with the default hint, in the partition of its tenant. -/
def State.tensorRead (s : State) (x tid off n : Nat) : Option (List Byte × Bool × State) :=
  match s.tensor x tid with
  | none => none
  | some (rn, r, rw) =>
    if off + n ≤ r.size then some (s.recRead rn false .default (s.tenantPart (fld (s.reg (pCTX x) 0x100) 0 6)) rw off n)
    else none

/-- Write bytes of a context's tensor with the default hint; none without the right or the room. -/
def State.tensorWrite (s : State) (x tid off : Nat) (bs : List Byte) (poison : Bool) : Option State :=
  match s.tensor x tid with
  | none => none
  | some (rn, r, rw) =>
    if rw ∧ off + bs.length ≤ r.size then
      some (s.recWrite rn false .default (s.tenantPart (fld (s.reg (pCTX x) 0x100) 0 6)) poison off bs)
    else none

/-- The record that holds a stacked-memory line. -/
def State.recOfLine (s : State) (line : Nat) : Option Nat :=
  (s.tier.recs.find? (fun e => match e.2 with
    | some r => !r.pool && (r.units ++ r.unitsB).contains (line / 32768)
    | none => false)).map (fun e => e.1)

/-- TIER is told of a poisoned line: the record's flag, TIER_LAST_POISON and the event (R269; chapter 10, When
things collide). -/
def State.tierPoison (s : State) (line : Nat) : State :=
  match s.recOfLine line with
  | none => s
  | some n =>
    let s := s.modRec n (fun r => { r with poison := true })
    (s.setReg pTIER 0x860 (BitVec.ofNat 32 (n + 2 ^ 31))).raise pTIER 17

/-! ### Quotas (R297 to R301) -/

/-- Pool quota in granules of an owner, cluster and class (0 TENSOR, 1 SPEC, 2 STAGE). -/
def State.qpool (s : State) (o c k : Nat) : Nat := sget 0 s.tier.qpool ((o * 16 + c) * 3 + k)

/-- The window under which stack pages count: the chip counts under window 0 when INTERLEAVED. -/
def State.qwin (s : State) (w : Nat) : Nat := if s.grouped then w % 16 else 0

/-- Stack quota in pages. -/
def State.qstack (s : State) (o w : Nat) : Nat := sget 0 s.tier.qstack (o * 16 + s.qwin w)

/-- Units of an owner in a place by records and moves. -/
def State.placed (s : State) (pool : Bool) (o home : Nat) : Nat :=
  let h := if pool then home else s.qwin home
  let at_ (p : Bool) (q : Nat) : Bool := p == pool && (if pool then q == h else s.qwin q == h)
  ((somes s.tier.recs).map (fun r =>
      if r.owner = o ∧ at_ r.pool r.home then r.units.length + r.unitsB.length else 0)).sum
    + ((s.tier.moves ++ s.tier.moving.toList).map (fun m =>
      if at_ m.pool m.home ∧ (match s.trec m.recN with | some r => r.owner == o | none => false) = true then
        m.dst.length + m.dstB.length else 0)).sum

/-- Units of an owner reserved in a place by open admissions. -/
def State.reserved (s : State) (pool : Bool) (o home : Nat) : Nat :=
  ((somes s.tier.handles).map (fun h =>
    if h.owner = o then (if pool then sget 0 h.pool home else sget 0 h.stack (s.qwin home)) else 0)).sum

/-- Granules used and reserved in a class of a cluster (TIER_QPOOL_USED). -/
def State.poolUsed (s : State) (o c k : Nat) : Nat :=
  if k = 0 then s.placed true o c + s.reserved true o c
  else (sget [] s.tier.claims ((o * 16 + c) * 3 + k)).length

/-- Pages used and reserved (TIER_QSTACK_USED). -/
def State.stackUsed (s : State) (o w : Nat) : Nat := s.placed false o w + s.reserved false o w

/-- Units an owner may still allocate in a place from unreserved quota. -/
def State.room (s : State) (pool : Bool) (o home : Nat) : Nat :=
  if pool then s.qpool o home 0 - s.poolUsed o home 0 else s.qstack o home - s.stackUsed o home

/-- An engine's claim of granules in class SPEC or STAGE (R301); none is QUOTA_EXCEEDED. -/
def State.claimPool (s : State) (o c k n : Nat) : Option (List Nat × State) :=
  if s.qpool o c k < s.poolUsed o c k + n then none
  else match s.allocUnits true c o n [] with
    | none => none
    | some (us, s) =>
      let key := (o * 16 + c) * 3 + k
      some (us, { s with tier := { s.tier with claims := smod [] s.tier.claims key (fun l => l ++ us) } })

/-- An engine gives claimed granules back. -/
def State.unclaimPool (s : State) (o c k : Nat) (us : List Nat) : State :=
  let key := (o * 16 + c) * 3 + k
  let s := { s with tier := { s.tier with
              claims := smod [] s.tier.claims key (fun l => l.filter (fun u => !us.contains u)) } }
  s.freeUnits true o us

/-! ### The command interface (R289, R302 to R304) -/

/-- An argument register of TIER. -/
def State.tierArg (s : State) (n : Nat) : Word32 := s.reg pTIER (0x804 + 4 * n)

/-- A status that the spec does not state: a free value (DESIGN CHOICE, log entry 27). -/
def State.openStatus (s : State) : BitVec 16 × State :=
  let v := s.freeVal; let s := s.usedFree
  (BitVec.ofNat 16 v, s)

/-- A TIER command completes with a status. -/
def State.tierDone (s : State) (st : BitVec 16) : State :=
  (s.setReg pTIER 0x814 (BitVec.ofNat 32 (st.toNat + 2 ^ 31))).raise pTIER 16

/-- A TIER command that names what does not exist. -/
def State.tierOpen (s : State) : State :=
  let (st, s) := s.openStatus
  s.tierDone st

/-- A refusal QUOTA_EXCEEDED, counted (R300). -/
def State.tierQuota (s : State) : State := (s.inc pTIER 0xF20).tierDone stQUOTA_EXCEEDED

/-- The number for a new entry among `n` from `lo` on: any that is not taken, which one being free. -/
def State.newNumber (s : State) (taken : List Nat) (lo n : Nat) : Option Nat × State :=
  let v := s.freeVal; let s := s.usedFree
  (nextFree taken lo n n (v % n), s)

/-- ADMIT (R302, R303). -/
def State.tierAdmit (s : State) : State :=
  let o := fld (s.tierArg 0) 0 7
  let a := (s.tierArg 1).toNat + fld (s.tierArg 2) 0 8 * 2 ^ 32
  if 64 < o ∨ memBytes < a + 256 then s.tierOpen
  else
    let (bs, _, s) := s.devRead s.sysPart (a / 64 * 64) 256
    let need (i : Nat) : Nat := unitsFor (decide (i < 16)) (lef bs (8 * i) 8)
    let short (i : Nat) : Nat := need i - s.room (decide (i < 16)) o (i % 16)
    let is := (List.range 32).filter (fun i => decide (i < 16) || s.grouped || i == 16)
    if is.all (fun i => short i == 0) then
      match s.newNumber (s.tier.handles.map (fun e => e.1)) 1 255 with
      | (none, s) => s.tierDone stTABLE_FULL
      | (some h, s) =>
        let pl : SMap Nat := (List.range 16).foldl (fun m c => sset 0 m c (need c)) []
        let sk : SMap Nat := (is.filter (fun i => decide (16 ≤ i))).foldl (fun m i => sset 0 m (i - 16) (need i)) []
        let s := { s with tier := { s.tier with
                    handles := sset none s.tier.handles h (some { owner := o, pool := pl, stack := sk }) } }
        (s.setReg pTIER 0x818 (BitVec.ofNat 32 h)).tierDone stOK
    else
      let sum (pool : Bool) : Nat :=
        ((is.filter (fun i => decide (i < 16) == pool)).map (fun i => short i * unitBytes pool)).sum
      let s' := s.setReg64 pTIER 0x820 (BitVec.ofNat 64 (sum true))
      let s' := s'.setReg64 pTIER 0x828 (BitVec.ofNat 64 (sum false))
      let mask := (is.map (fun i => if short i = 0 then 0 else 2 ^ i)).sum
      ((s'.setReg pTIER 0x830 (BitVec.ofNat 32 mask)).inc pTIER 0xF28).tierDone stSIZE_EXCEEDS

/-- RELEASE (R304). -/
def State.tierRelease (s : State) : State :=
  let h := fld (s.tierArg 0) 0 8
  match sget none s.tier.handles h with
  | none => s.tierOpen
  | some _ => ({ s with tier := { s.tier with handles := sset none s.tier.handles h none } }).tierDone stOK

/-- MAP (R286, R287, R300, R304) (DEDUCED, log entry 111). -/
def State.tierMap (s : State) : State :=
  let a0 := s.tierArg 0
  let tid := fld a0 0 12
  let x := fld a0 16 6
  let pool := bit a0 26
  let home := fld a0 28 4
  let size := (s.tierArg 1).toNat + fld (s.tierArg 2) 0 16 * 2 ^ 32
  let hn := fld (s.tierArg 3) 0 8
  let cfg := s.reg (pCTX x) 0x100
  let bound := bit cfg 6
  let owner := if bound then fld cfg 0 6 else 64
  let h := sget none s.tier.handles hn
  if size = 0 then s.tierDone stZERO_LEN
  else if (bound ∧ (s.mapping x tid).isSome) ∨ (hn ≠ 0 ∧ !(match h with | some q => q.owner == owner | none => false))
  then s.tierOpen
  else
    let n := unitsFor pool size
    let res := match h with
      | some q => if hn = 0 then 0 else if pool then sget 0 q.pool home else sget 0 q.stack (s.qwin home)
      | none => 0
    let draw := min n res
    if s.room pool owner home < n - draw then s.tierQuota
    else match s.newNumber (s.tier.recs.map (fun e => e.1)) 0 32768 with
      | (none, s) => s.tierDone stTABLE_FULL
      | (some rn, s) => match s.allocUnits pool home owner n [] with
        | none => s.tierQuota
        | some (us, s) =>
          let h' := h.map (fun q => if pool then { q with pool := sset 0 q.pool home (res - draw) }
            else { q with stack := sset 0 q.stack (s.qwin home) (res - draw) })
          let s := if hn = 0 then s else { s with tier := { s.tier with handles := sset none s.tier.handles hn h' } }
          let s := s.setRec rn (some { owner := owner, size := size, pool := pool, home := home, auto := bit a0 25,
                                       units := us, poison := false, banked := false, unitsB := [], cool := 0,
                                       dwell := 0, hits := 0 })
          let s := if bound then { s with tier := { s.tier with
              maps := sset none s.tier.maps (x * 4096 + tid) (some { recN := rn, rw := bit a0 24 }) } } else s
          (s.setReg pTIER 0x818 (BitVec.ofNat 32 rn)).tierDone stOK

/-- SHARE (R287). -/
def State.tierShare (s : State) : State :=
  let tid := fld (s.tierArg 0) 0 12
  let x := fld (s.tierArg 0) 16 6
  let rn := fld (s.tierArg 3) 0 15
  if (s.trec rn).isNone ∨ (s.mapping x tid).isSome ∨ !bit (s.reg (pCTX x) 0x100) 6 then s.tierOpen
  else
    let s := { s with tier := { s.tier with
                maps := sset none s.tier.maps (x * 4096 + tid) (some { recN := rn, rw := false }) } }
    (s.setReg pTIER 0x818 (BitVec.ofNat 32 rn)).tierDone stOK

/-- Does a collective in its data phase use a record (13_collectives.md, When things collide)? -/
def State.collBusy (s : State) (rn : Nat) : Bool :=
  s.clx.colls.any (fun c => c.phase == .data && [0x10, 0x12, 0x14].any (fun o =>
    match s.mapping (lef c.desc 5 1 % 64) (lef c.desc o 2) with | some m => m.recN == rn | none => false))

/-- Does a stream's data phase, or a collective, use a record (R290)? -/
def State.recBusy (s : State) (rn : Nat) : Bool :=
  s.collBusy rn || s.cores.any (fun e => e.2.chans.any (fun c => c.2.head == .data && (match c.2.ctx, c.2.queue with
    | some x, d :: _ => (match s.mapping x d.tensor.toNat with | some m => m.recN == rn | none => false)
    | _, _ => false)))

/-- Does a channel of a context run a data phase on a record? -/
def State.ctxRecBusy (s : State) (x rn : Nat) : Bool :=
  s.cores.any (fun e => e.2.chans.any (fun c => c.2.head == .data && (match c.2.ctx, c.2.queue with
    | some y, d :: _ => y.val == x && (match s.mapping x d.tensor.toNat with | some m => m.recN == rn | none => false)
    | _, _ => false)))

/-- Free a record: its units go back under its owner's name (R284). A record that only names granules which an
engine has claimed (owner 65) leaves them claimed. -/
def State.freeRec (s : State) (rn : Nat) : State :=
  match s.trec rn with
  | none => s
  | some r =>
    let s := s.setRec rn none
    let s := if r.owner = 65 then s else s.freeUnits r.pool r.owner (r.units ++ r.unitsB)
    { s with tier := { s.tier with moves := s.tier.moves.filter (fun m => m.recN != rn) } }

/-- UNMAP (chapter 10, When things collide). -/
def State.tierUnmap (s : State) : State :=
  let tid := fld (s.tierArg 0) 0 12
  let x := fld (s.tierArg 0) 16 6
  match s.mapping x tid with
  | none => s.tierOpen
  | some m =>
    if s.ctxRecBusy x m.recN then s.tierDone stTENSOR_IN_USE
    else
      let s := { s with tier := { s.tier with maps := sset none s.tier.maps (x * 4096 + tid) none } }
      let s := if (somes s.tier.maps).any (fun q => q.recN == m.recN) then s else s.freeRec m.recN
      s.tierDone stOK

/-- Is a move of a record pending or running (R290)? -/
def State.moveOf (s : State) (rn : Nat) : Bool := (s.tier.moves ++ s.tier.moving.toList).any (fun m => m.recN == rn)

/-- Ask for a move: destination space is taken from the owner's TENSOR quota or stack quota now (R301); none when it
does not fit. -/
def State.askMove (s : State) (rn : Nat) (pool : Bool) (home : Nat) (hw : Bool) : Option State :=
  match s.trec rn with
  | none => none
  | some r =>
    let n := r.units.length * unitBytes r.pool
    let na := unitsFor pool (min r.size n)
    let nb := if r.unitsB.isEmpty then 0 else na
    if s.room pool r.owner home < na + nb then none
    else match s.allocUnits pool home r.owner (na + nb) [] with
      | none => none
      | some (us, s) =>
        some { s with tier := { s.tier with moves := s.tier.moves ++
          [{ recN := rn, pool := pool, home := home, hw := hw, since := s.pw.aonTime, dst := us.take na, dstB := us.drop na }] } }

/-- MOVE (R289): the command completes once the move is asked for; it is never abandoned (R291)
(DEDUCED, log entry 112). -/
def State.tierMove (s : State) : State :=
  let a0 := s.tierArg 0
  let rn := fld a0 0 15
  match s.trec rn with
  | none => s.tierOpen
  | some r =>
    if s.moveOf rn then s.tierOpen
    else
      let s1 := if bit a0 17 then s.modRec rn (fun r => { r with auto := false }) else s
      let home := fld a0 20 4
      if r.pool = bit a0 16 ∧ (if r.pool then r.home = home else s.qwin r.home = s.qwin home) then s1.tierDone stOK
      else match s.askMove rn (bit a0 16) home false with
        | none => s.tierQuota
        | some s =>
          (if bit a0 17 then s.modRec rn (fun r => { r with auto := false }) else s).tierDone stOK

/-- Begin a TIER command: its OP is in the register and it starts only while the page is enabled (PG_CTL.EN). -/
def State.tierStart (s : State) (op : Nat) (f : State → State) : State :=
  let s := s.setReg pTIER 0x800 (BitVec.ofNat 32 op)
  if s.pgEn pTIER then f s else s

/-- A write of TIER_CMD. -/
def State.tierCmd (s : State) (v : Word32) : State :=
  let op := fld v 0 8
  if !bit v 31 then s.setReg pTIER 0x800 (BitVec.ofNat 32 op)
  else s.tierStart op (fun s =>
    if op = 1 then s.tierAdmit
    else if op = 2 then s.tierRelease
    else if op = 3 then s.tierMap
    else if op = 4 then s.tierShare
    else if op = 5 then s.tierUnmap
    else if op = 6 then s.tierMove
    else s.tierOpen)

/-- ADMIT (R302). -/
def execTierAdmit (r : Requester) (s : State) : Host.Outcome State Fault Refusal :=
  ok (s.write r pTIER 0x800 (fun s => s.tierStart 1 State.tierAdmit))

/-- RELEASE (R304). -/
def execTierRelease (r : Requester) (s : State) : Host.Outcome State Fault Refusal :=
  ok (s.write r pTIER 0x800 (fun s => s.tierStart 2 State.tierRelease))

/-- MAP (R304). -/
def execMap (r : Requester) (s : State) : Host.Outcome State Fault Refusal :=
  ok (s.write r pTIER 0x800 (fun s => s.tierStart 3 State.tierMap))

/-- SHARE (R287). -/
def execShare (r : Requester) (s : State) : Host.Outcome State Fault Refusal :=
  ok (s.write r pTIER 0x800 (fun s => s.tierStart 4 State.tierShare))

/-- UNMAP (R284). -/
def execUnmap (r : Requester) (s : State) : Host.Outcome State Fault Refusal :=
  ok (s.write r pTIER 0x800 (fun s => s.tierStart 5 State.tierUnmap))

/-- MOVE (R289). -/
def execMove (r : Requester) (s : State) : Host.Outcome State Fault Refusal :=
  ok (s.write r pTIER 0x800 (fun s => s.tierStart 6 State.tierMove))

/-! ### Quota writes (R298, R299) -/

/-- Owners 0 to 64. -/
def allOwners : List Nat := List.range 65

/-- A write of TIER_QPOOL: overcommit first, then use. -/
def State.setQpool (s : State) (v : Word32) : State :=
  let sel := s.reg pTIER 0x840
  let o := fld sel 0 7
  let c := fld sel 8 4
  let f (k : Nat) : Nat := fld v (8 * k) 8
  let others := (allOwners.map (fun q => if q = o then 0 else s.qpool q c 0 + s.qpool q c 1 + s.qpool q c 2)).sum
  if 64 < o then s
  else if 192 < others + f 0 + f 1 + f 2 then s.tierDone stQUOTA_OVERCOMMIT
  else if [0, 1, 2].any (fun k => decide (f k < s.poolUsed o c k)) then s.tierDone stQUOTA_IN_USE
  else
    let q := [0, 1, 2].foldl (fun m k => sset 0 m ((o * 16 + c) * 3 + k) (f k)) s.tier.qpool
    { s with tier := { s.tier with qpool := q } }

/-- A write of TIER_QSTACK. -/
def State.setQstack (s : State) (v : Word32) : State :=
  let sel := s.reg pTIER 0x840
  let o := fld sel 0 7
  let w := s.qwin (fld sel 12 4)
  let n := fld v 0 19
  let others := (allOwners.map (fun q => if q = o then 0 else s.qstack q w)).sum
  if 64 < o then s
  else if (if s.grouped then 24576 else 393216) < others + n then s.tierDone stQUOTA_OVERCOMMIT
  else if n < s.stackUsed o w then s.tierDone stQUOTA_IN_USE
  else { s with tier := { s.tier with qstack := sset 0 s.tier.qstack (o * 16 + w) n } }

/-- TIER_QPOOL (R298, R299). -/
def execTierQpool (r : Requester) (v : Word32) (s : State) : Host.Outcome State Fault Refusal :=
  ok (s.write r pTIER 0x844 (fun s => s.setQpool v))

/-- TIER_QSTACK (R298, R299). -/
def execTierQstack (r : Requester) (v : Word32) (s : State) : Host.Outcome State Fault Refusal :=
  ok (s.write r pTIER 0x84C (fun s => s.setQstack v))

/-! ### Moves (R288 to R292) -/

/-- Copy a unit list onto another, lines and marks unchanged (R288). -/
def State.copyRec (s : State) (rn : Nat) (r : Rec) (dst : Rec) (bankB : Bool) : State :=
  let n := (if bankB then r.unitsB else r.units).length * unitBytes r.pool / 64
  (List.range n).foldl (fun s i =>
    if r.size ≤ 64 * i then s
    else
      let (u, o) := r.unitAt bankB (64 * i)
      let (v, p) := dst.unitAt bankB (64 * i)
      let (bs, po, s) :=
        if r.pool then (sgets 0 s.mem.pool (u * 65536 + o) 64, sget false s.mem.poolMarks ((u * 65536 + o) / 64),
                        s.poolHit rn)
        else s.memRd .stream s.sysPart true 2 (u * 2097152 + o) 64
      if dst.pool then s.poolWr (v * 65536 + p) bs po
      else s.memWr .stream s.sysPart true po 2 (v * 2097152 + p) bs) s

/-- MOVE_START (R290, R292): one move at a time; the oldest whose record has no descriptor in its data phase. A
promotion that waits for demotions takes its space now (R295). -/
def execMoveStart (s : State) : Host.Outcome State Fault Refusal :=
  ok (match s.tier.moving with
    | some _ => s
    | none => match s.tier.moves.find? (fun m => !s.recBusy m.recN) with
      | none => s
      | some m =>
        let rest := s.tier.moves.erase m
        if m.dst.isEmpty then
          match s.trec m.recN with
          | none => { s with tier := { s.tier with moves := rest } }
          | some r =>
            let n := unitsFor m.pool r.size
            if s.room m.pool r.owner m.home < n then s
            else match s.allocUnits m.pool m.home r.owner n [] with
              | none => s
              | some (us, s) => { s with tier := { s.tier with moving := some { m with dst := us }, moves := rest } }
        else { s with tier := { s.tier with moving := some m, moves := rest } })

/-- MOVE_DONE (R292). -/
def execMoveDone (s : State) : Host.Outcome State Fault Refusal :=
  ok (match s.tier.moving with
    | none => s
    | some m =>
      let s := { s with tier := { s.tier with moving := none } }
      match s.trec m.recN with
      | none => s
      | some r =>
        let dst := { r with pool := m.pool, home := m.home, units := m.dst, unitsB := m.dstB, hits := 0, cool := 0,
                            dwell := if m.hw then fld (s.reg pTIER 0x110) 0 4 else r.dwell }
        let s := (s.copyRec m.recN r dst false).copyRec m.recN r dst true
        let s := s.setRec m.recN (some dst)
        let s := s.freeUnits r.pool r.owner (r.units ++ r.unitsB)
        let s := s.inc pTIER 0xF10 (r.size * (if r.unitsB.isEmpty then 1 else 2))
        if m.hw ∧ m.pool ≠ r.pool then s.inc pTIER (if m.pool then 0xF00 else 0xF08) else s)

/-- MOVE_ABANDON (R291): the oldest hardware move that has waited for WAIT µs. -/
def execMoveAbandon (s : State) : Host.Outcome State Fault Refusal :=
  ok (match s.tier.moves.find? (fun m => m.hw
      && decide (fld (s.reg pTIER 0x110) 16 16 * 32768 ≤ (s.pw.aonTime - m.since).toNat * 1000000)) with
    | none => s
    | some m =>
      let o := match s.trec m.recN with | some r => r.owner | none => 64
      let s := { s with tier := { s.tier with moves := s.tier.moves.erase m } }
      (s.freeUnits m.pool o (m.dst ++ m.dstB)).inc pTIER 0xF18)

/-! ### Heat (R293 to R296) -/

/-- Accesses of a record in the epoch (R294). -/
def State.accesses (s : State) (r : Rec) : Nat :=
  if r.pool then r.hits
  else min 0xFFFFFFFF ((s.mem.heat.map (fun e => if r.units.contains (e.1 % 393216) then e.2 else 0)).sum)

/-- Density of a record (R294). -/
def State.density (s : State) (r : Rec) : Nat := s.accesses r * 256 / max 1 ((r.size + 63) / 64)

/-- Does the hardware move a record (R289, R296)? -/
def Rec.movable (r : Rec) : Bool := r.auto && !r.banked && r.dwell == 0

/-- Insert by a key, greater first, lower record number on a tie. -/
def insDesc (e : Nat × Nat) : List (Nat × Nat) → List (Nat × Nat)
  | [] => [e]
  | q :: qs => if q.1 < e.1 ∨ (q.1 = e.1 ∧ e.2 < q.2) then e :: q :: qs else q :: insDesc e qs

/-- Order pairs of density and record number, hottest first. -/
def hottest (l : List (Nat × Nat)) : List (Nat × Nat) := l.foldl (fun m e => insDesc e m) []

/-- Demote records one by one while moves are left. -/
def State.demoteAll (s : State) : List Nat → Nat → State × Nat
  | [], n => (s, n)
  | rn :: rs, n =>
    if n = 0 then (s, 0)
    else match s.trec rn with
      | none => s.demoteAll rs n
      | some r => match s.askMove rn false r.home true with
        | none => s.demoteAll rs n
        | some s => s.demoteAll rs (n - 1)

/-- Promote one record into its home cluster, first demoting the owner's colder records there if they free enough
(R295). -/
def State.promote (s : State) (dens : List (Nat × Nat)) (d rn n : Nat) : State × Nat :=
  match s.trec rn with
  | none => (s, n)
  | some r =>
    let need := unitsFor true r.size
    let room := s.room true r.owner r.home
    if need ≤ room then
      match s.askMove rn true r.home true with
      | none => (s, n)
      | some s => (s, n - 1)
    else
      let cold := (dens.filter (fun e => decide (e.1 < d) && (match s.trec e.2 with
        | some q => q.pool && q.owner == r.owner && q.home == r.home && q.movable && !s.moveOf e.2
        | none => false))).reverse
      let freed := (cold.map (fun e => match s.trec e.2 with | some q => q.units.length | none => 0)).sum
      if room + freed < need then (s, n)
      else
        let pick := (cold.foldl (fun (a : List Nat × Nat) e =>
          if need ≤ a.2 then a
          else (a.1 ++ [e.2], a.2 + (match s.trec e.2 with | some q => q.units.length | none => 0))) ([], room)).1
        let (s, n) := s.demoteAll pick n
        if n = 0 then (s, 0)
        else
          ({ s with tier := { s.tier with moves := s.tier.moves ++
              [{ recN := rn, pool := true, home := r.home, hw := true, since := s.pw.aonTime, dst := [], dstB := [] }] } }, n - 1)

/-- Promote records in order while moves are left. -/
def State.promoteAll (s : State) (dens : List (Nat × Nat)) : List (Nat × Nat) → Nat → State
  | [], _ => s
  | e :: es, n =>
    if n = 0 then s
    else
      let (s, n) := s.promote dens e.1 e.2 n
      s.promoteAll dens es n

/-- HEAT_EPOCH_END (R294 to R296): a record that a promotion and a software MOVE both name dwells (chapter 10, When
things collide). -/
def execHeatEpochEnd (s : State) : Host.Outcome State Fault Refusal :=
  ok (
    let dens := hottest (s.tier.recs.filterMap (fun e => e.2.bind (fun r =>
      if r.auto ∧ !r.banked then some (s.density r, e.1) else none)))
    let cool := (s.reg pTIER 0x10C).toNat
    let hot := (s.reg pTIER 0x108).toNat
    let s1 := dens.foldl (fun s e => s.modRec e.2 (fun r =>
      { r with cool := if r.pool ∧ e.1 < cool then r.cool + 1 else 0 })) s
    let moves := fld (s.reg pTIER 0x110) 4 8
    let s2 := if bit (s.reg pTIER 0x100) 0 ∧ s.pgEn pTIER then
        let down := (dens.filter (fun e => match s1.trec e.2 with
          | some r => r.pool && decide (2 ≤ r.cool) && r.movable && !s1.moveOf e.2
          | none => false)).map (fun e => e.2)
        let (t, n) := s1.demoteAll down moves
        let clash := dens.filter (fun e => decide (hot ≤ e.1) && (match t.trec e.2 with
          | some r => !r.pool && decide (r.size ≤ 12 * 2 ^ 20) && r.movable
              && (t.tier.moves ++ t.tier.moving.toList).any (fun m => m.recN == e.2 && !m.hw)
          | none => false))
        let t := clash.foldl (fun s e => s.modRec e.2 (fun r => { r with dwell := fld (s.reg pTIER 0x110) 0 4 + 1 })) t
        let up := dens.filter (fun e => decide (hot ≤ e.1) && (match t.trec e.2 with
          | some r => !r.pool && decide (r.size ≤ 12 * 2 ^ 20) && r.movable && !t.moveOf e.2
          | none => false))
        t.promoteAll dens up n
      else s1
    let s3 := s2.tier.recs.foldl (fun s e => s.modRec e.1 (fun r => { r with hits := 0, dwell := r.dwell - 1 })) s2
    { s3 with mem := { s3.mem with heat := [] } })

end Sys2Proof.Machine
end

