-- ==== Sys2Proof/Machine/Streams.lean ====
section
/-! DEFINITION. Stream channels (08_streams.md R223 to R241; 06_hj1_baseline.md R171, R172): descriptors, their setup
checks, credits, the skew transform, and the five commands of an engine's work. -/

namespace Sys2Proof.Machine

/-! ### Descriptors (R223) -/

/-- The descriptor that 64 bytes hold. -/
def parseDesc (bs : List Byte) : Desc :=
  let c := bs.getD 0 0
  { dirOut := bit c 0, xform := BitVec.ofNat 2 (fld c 1 2), gang := bit c 3, fmt8 := bit c 4, close := bit c 5
    hint := BitVec.ofNat 2 (fld c 6 2), tensor := BitVec.ofNat 16 (lef bs 2 2), k := BitVec.ofNat 16 (lef bs 4 2)
    offset := BitVec.ofNat 64 (lef bs 8 8), length := BitVec.ofNat 64 (lef bs 0x10 8)
    ringBase := BitVec.ofNat 32 (lef bs 0x18 4), slotSize := BitVec.ofNat 16 (lef bs 0x1C 2)
    slotCount := BitVec.ofNat 16 (lef bs 0x1E 2)
    clean := lef bs 1 1 == 0 && lef bs 6 2 == 0 && lef bs 0x0E 2 == 0 && lef bs 0x16 2 == 0
      && decide (lef bs 0x18 4 < 2 ^ 22) && lef bs 0x20 32 == 0 }

/-- Is a skew asked for? -/
def Desc.skew (d : Desc) : Bool := d.xform == 1 || d.xform == 2

/-- The format that K and F follow: 8-bit or BF16. -/
def Desc.fmt (d : Desc) : Fin 4 := if d.fmt8 then 1 else 0

/-- Rows or columns of a skew block (R236). -/
def Desc.lanes (d : Desc) : Nat := if d.gang then 64 else 32

/-- Bytes of the tensor that one slot takes: a block's source bytes under skew, else the slot (R236, R237). -/
def Desc.take (d : Desc) : Nat :=
  if d.skew then d.lanes * d.k.toNat * (if d.fmt8 then 1 else 2) else 64 * d.slotSize.toNat

/-- Bytes that a skewed block fills in its slot (R237). -/
def Desc.feedBytes (d : Desc) : Nat := 2 * d.lanes * passF d.gang d.fmt d.k.toNat

/-- The credit capacity of a descriptor (R172): the slots of its ring, of an inbound one no more than it fills
(DEDUCED, log entry 131). -/
def Desc.capacity (d : Desc) : Nat :=
  if d.dirOut then d.slotCount.toNat
  else min d.slotCount.toNat ((d.length.toNat + d.take - 1) / max 1 d.take)

/-- The hint of a descriptor. -/
def Desc.hintOf (d : Desc) : Hint :=
  match d.hint.toNat with
  | 0 => .default
  | 1 => .stream
  | 2 => .keep
  | _ => .last

/-! ### Setup checks (R225, R226, R237) -/

/-- Do a context's segments on a core cover a range? Adjoining segments together may. -/
def coveredFrom (segs : List Seg) (hi : Nat) : Nat → Nat → Bool
  | 0, p => decide (hi ≤ p)
  | n + 1, p =>
    if hi ≤ p then true
    else match segs.find? (fun g => decide (g.base ≤ p) && decide (p < g.base + g.bytes)) with
      | some g => coveredFrom segs hi n (g.base + g.bytes)
      | none => false

/-- Does a range of scratch lie inside a context's segments on a core? -/
def Ctx.holds (x : Ctx) (c lo n : Nat) : Bool :=
  let segs := x.segs.filter (fun g => g.core.val == c)
  coveredFrom segs (lo + n) segs.length lo

/-- Check 1 of R225, with the ring's alignment. -/
def Desc.fieldsOk (d : Desc) : Bool :=
  d.clean && d.slotSize != 0 && d.slotCount != 0 && d.ringBase.toNat % 64 == 0
    && d.xform != 3
    && (if d.skew then !d.dirOut && legalK d.fmt d.k.toNat && 64 * d.slotSize.toNat == d.feedBytes else d.k == 0)

/-- The first setup check that fails (R225); the length rule of R237 comes last (DEDUCED, log entry 29). -/
def State.setupFails (s : State) (x : CtxId) (c : Nat) (d : Desc) : Option (BitVec 16) :=
  if !d.fieldsOk then some stDESC_INVALID
  else if d.length = 0 then some stZERO_LEN
  else match s.tensor x d.tensor.toNat with
    | none => some stTENSOR_DENIED
    | some (_, r, rw) =>
      if d.dirOut ∧ !rw then some stTENSOR_DENIED
      else if r.size < d.offset.toNat + d.length.toNat
          ∨ !(s.ctx x).holds c d.ringBase.toNat (64 * d.slotSize.toNat * d.slotCount.toNat) then some stBOUND
      else if d.skew ∧ d.length.toNat % d.take ≠ 0 then some stDESC_INVALID
      else none

/-! ### Banks (R238) -/

/-- A model slot of WPB. -/
def State.mdl (s : State) (m : Nat) : Mdl := sget {} s.wpb.mdls m

/-- The steps of a context on this chip (15_episodes.md R433). -/
def State.epsCtx (s : State) (x : Nat) : EpsCtx := sget {} s.eps.ctxs x

/-- The model slot of a group (EPS_G_CFG). -/
def State.groupMdl (s : State) (g : Nat) : Nat := fld (s.breg g pEPS 0x200) 11 4

/-- The bank of a version in a model slot: true is B. -/
def Mdl.bankOf (m : Mdl) (v : Word64) : Option Bool :=
  let holds (b : Bank) : Bool := b.version == v && (b.state == .live || b.state == .draining || b.state == .ready)
  if holds m.a then some false else if holds m.b then some true else none

/-- The bank that a descriptor on a record reads (R238): that of the version of the context's current step. Without a
current step the spec names none, and the bank is free (DESIGN CHOICE, log entry 30). -/
def State.bankFor (s : State) (x : CtxId) (r : Rec) : Option Bool × State :=
  if !r.banked then (none, s)
  else
    let cur := (s.epsCtx x).cur.bind (fun st => (s.mdl (s.groupMdl st.group)).bankOf st.version)
    match cur with
    | some b => (some b, s)
    | none => (some (s.freeVal % 2 == 1), s.usedFree)

/-- Resolve the bank of a descriptor. -/
def State.resolve (s : State) (x : CtxId) (d : Desc) : Option Bool × State :=
  match s.tensor x d.tensor.toNat with
  | some (_, r, _) => s.bankFor x r
  | none => (none, s)

/-! ### Channels (R224 to R235, R526) -/

/-- The physical channel of a logical one: the c-th set bit of CTX_CHAN as the running program has it (R526)
(DEDUCED, log entry 101). -/
def Ctx.phys (x : Ctx) (c : Nat) : Option (Fin 8) := ((List.finRange 8).filter (fun i => x.chan.getLsbD i.val))[c]?

/-- A descriptor becomes the head (R227, R228). -/
def Channel.lead (h : Channel) (d : Desc) (st : HeadState) (bank : Option Bool) : Channel :=
  { h with head := st, nextReady := false, credits := if d.dirOut then d.slotCount.toNat else 0
           headSlot := 0, engSlot := 0, done := 0, poisoned := false, bank := bank, nextBank := none }

/-- Post a descriptor: into an idle channel it becomes the head, in setup (R224). -/
def Channel.post (h : Channel) (x : CtxId) (d : Desc) : Channel :=
  if h.queue.isEmpty then { (h.lead d .setup none) with queue := [d], ctx := some x }
  else { h with queue := h.queue ++ [d] }

/-- The status word (R235). -/
def Channel.word (h : Channel) : Word64 :=
  BitVec.ofNat 64 ((match h.head with | .none => 0 | .setup => 1 | .data => 2) + h.queue.length * 2 ^ 2
    + bnat h.overAck * 2 ^ 5 + h.lastStatus.toNat * 2 ^ 16 + h.credits * 2 ^ 32 + h.headSlot * 2 ^ 48)

/-- All ones: the value of a STR.WAIT that can never be met (R172). -/
abbrev waitFails : Word64 := BitVec.allOnes 64

/-- What a STR.WAIT for `n` credits gives now; none while it must wait (R171, R172, R234). -/
def Channel.waitGives (h : Channel) (n : Nat) (fail : Bool) : Option Word64 :=
  match h.queue with
  | [] => some waitFails
  | d :: _ =>
    if fail ∨ d.capacity < n then some waitFails
    else if n ≤ h.credits then some (BitVec.ofNat 64 h.credits)
    else none

/-- STR.POST (R171, R526, R576). -/
def execStrPost (o : COp) (s : State) : Host.Outcome State Fault Refusal :=
  ok (issue o.core (encC 0x50 o) (fun s x k =>
    let a := (k.th.s o.sa).toNat
    match (s.ctx x).phys o.ch with
    | none => .trap stCHANNEL_DENIED 0
    | some ch =>
      if k.th.sp o.sa then .trap stPOISON_CONSUMED 0
      else if scratchEnd < a + 64 then .trap stSCRATCH_BOUND 0
      else if a % 64 ≠ 0 then .trap stMISALIGNED 0
      else
        let q := k.viewAt (k.th.cyc + 1)
        let h := k.chan ch
        if q.marked a 64 then .trap stPOISON_CONSUMED 0
        else if !h.queue.isEmpty ∧ h.ctx ≠ some x then .trap stCHANNEL_BUSY 0
        else
          let taken := decide (h.queue.length < 4)
          let d := parseDesc (q.rd a 64)
          .go { lands := [(3, .sreg o.sd (if taken then 1 else 0) false)]
                reads := [(Loc.s o.sa, 0)]
                onCore := fun k => if taken then k.modChan ch (fun h => h.post x d) else k }) s)

/-- STR.WAIT (R171, R172): it completes at once or begins to wait. -/
def execStrWait (o : COp) (s : State) : Host.Outcome State Fault Refusal :=
  ok (issue o.core (encC 0x51 o) (fun s x k =>
    match (s.ctx x).phys o.ch with
    | none => .trap stCHANNEL_DENIED 0
    | some ch =>
      match (k.chan ch).waitGives o.imm.toNat false with
      | some v => .go { lands := [(2, .sreg o.sd v false)] }
      | none => .go { onCore := fun k =>
          { k with th := { k.th with wait := some (.strWait o.sd ch o.imm.toNat false) } } }) s)

/-- STR.ACK (R232): the credits go back 2 CCLK after issue (R216). -/
def execStrAck (o : COp) (s : State) : Host.Outcome State Fault Refusal :=
  ok (issue o.core (encC 0x52 o) (fun s x _ =>
    match (s.ctx x).phys o.ch with
    | none => .trap stCHANNEL_DENIED 0
    | some ch => .go { lands := [(2, .credits ch o.imm.toNat)] }) s)

/-- STR.STAT (R235). -/
def execStrStat (o : COp) (s : State) : Host.Outcome State Fault Refusal :=
  ok (issue o.core (encC 0x53 o) (fun s x k =>
    match (s.ctx x).phys o.ch with
    | none => .trap stCHANNEL_DENIED 0
    | some ch => .go { lands := [(3, .sreg o.sd (k.chan ch).word false)]
                       onCore := fun k => k.modChan ch (fun h => { h with overAck := false }) }) s)

/-! ### Completion of blocking waits (R174, R214) -/

/-- May a wait of a core complete: its context runs on it and it is not parked? -/
def State.waitLive (s : State) (c : Nat) : Bool :=
  let k := s.core c
  match k.ctx with
  | none => false
  | some x => ((s.ctx x).state == .running || (s.ctx x).state == .preempting) && !k.parked && s.domOn (dCore c)

/-- A wait of `waited` CCLK after issue completes; its results land by their latencies from completion, the cycle
before the next instruction's (R174, R216). -/
def State.endWait (s : State) (c waited : Nat) (ls : List (Nat × LandVal)) : State :=
  (s.coreCycles c waited).modCore c (fun k =>
    { k with th := { (k.th.push (ls.map (fun l => (l.1 - 1, l.2)))) with wait := none } })

/-- A context of another tenant is RUNNING on the chip (R539). -/
def State.otherRuns (s : State) (x : CtxId) : Bool :=
  s.ctxs.any (fun e => e.1 != x.val && e.2.state == .running && e.2.tenant != (s.ctx x).tenant)

/-- STR_WAIT_COMPLETE (R172, R230, R234); a wait that ends while another tenant runs counts for R539 (DEDUCED, log entry 49). -/
def execStrWaitComplete (c : CoreId) (waited : Nat) (s : State) : Host.Outcome State Fault Refusal :=
  ok (if !s.waitLive c then s
    else match (s.core c).th.wait with
      | some (.strWait sd ch n fail) =>
        match ((s.core c).chan ch).waitGives n fail with
        | some v =>
          let s := match (s.core c).ctx with
            | some x => if s.otherRuns x then s.modCtx x (fun g => { g with wWait := g.wWait + waited }) else s
            | none => s
          (s.endWait c waited [(2, .sreg sd v false)]).inc (pCORE c) (0xF40 + 0x10 * ch.val) waited
        | none => s
      | _ => s)

/-! ### The engine's work -/

/-- Credits under way reach the channels: the engines run on while the core waits (R122). -/
def Core.landCredits (k : Core) : Core :=
  let w (l : Landing) : Bool := match l.val with | .credits .. => true | _ => false
  (k.th.lands.filter w).foldl Core.land { k with th := { k.th with lands := k.th.lands.filter (fun l => !w l) } }

/-- A descriptor retires: the head, or the second one when its setup fails (R225, R233 to R235, R239). -/
def State.retire (s : State) (c : CoreId) (ch : Fin 8) (second : Bool) (st : BitVec 16) : State :=
  let h := (s.core c).chan ch
  match h.ctx with
  | none => s
  | some x =>
    let s := s.modCore c (fun k => k.modChan ch (fun h =>
      let h := { h with lastStatus := st }
      if second then { h with queue := h.queue.take 1 ++ h.queue.drop 2 }
      else match h.queue.tail with
        | [] => { h with queue := [], head := .none, ctx := none, nextReady := false, credits := 0, nextBank := none
                         bank := none, done := 0, headSlot := 0, engSlot := 0, poisoned := false }
        | d :: ds => { (h.lead d (if h.nextReady then .data else .setup) h.nextBank) with queue := d :: ds }))
    let s := if st ≠ stOK ∧ !second then s.modThread c x (fun t => match t.wait with
        | some (.strWait sd q n _) => if q = ch then { t with wait := some (.strWait sd q n true) } else t
        | _ => t) else s
    let s := if st = stDATA_POISON then
        let s := s.modCounts x (fun n => { n with poisonRetires := n.poisonRetires + 1 })
        { s with eps := { s.eps with ctxs := smod {} s.eps.ctxs x (fun e =>
            { e with cur := e.cur.map (fun t => { t with poison := true }) }) } }
      else s
    if st = stOK then s.inc (pCORE c) 0xFC0
    else ((s.inc (pCORE c) 0xFC8).setReg (pCORE c) 0x80C
      (BitVec.ofNat 32 (ch.val + st.toNat * 2 ^ 3 + x.val * 2 ^ 19 + 2 ^ 31))).raise (pCORE c) 18

/-- Every descriptor of a context on a core retires ABORTED (R240). -/
def State.abortChan (s : State) (c : CoreId) (ch : Fin 8) : Nat → State
  | 0 => s
  | n + 1 => (s.retire c ch false stABORTED).abortChan c ch n

/-- Retire ABORTED what a context has on a core. -/
def State.abortChans (s : State) (c : CoreId) (x : CtxId) : State :=
  (List.finRange 8).foldl (fun s (ch : Fin 8) =>
    if ((s.core c).chan ch).ctx = some x then s.abortChan c ch ((s.core c).chan ch).queue.length else s) s

/-- Does a descriptor that has come to check 4 of R225 wait in setup for a move of its tensor (R290)? -/
def State.moveHolds (s : State) (x : CtxId) (d : Desc) : Bool :=
  d.fieldsOk && d.length != 0 && (match s.tensor x d.tensor.toNat with
    | some (rn, _, rw) => (!d.dirOut || rw) && s.moveOf rn
    | none => false)

/-- DESC_SETUP (R224, R225, R238, R290). -/
def execDescSetup (c : CoreId) (ch : Fin 8) (s : State) : Host.Outcome State Fault Refusal :=
  ok (
    let h := (s.core c).chan ch
    match h.ctx with
    | none => s
    | some x =>
      match h.head, h.queue with
      | .setup, d :: _ =>
        if s.moveHolds x d then s
        else match s.setupFails x c d with
        | some st => s.retire c ch false st
        | none =>
          let (b, s) := s.resolve x d
          s.modCore c (fun k => k.modChan ch (fun h => { h with head := .data, bank := b }))
      | .data, _ :: d :: _ =>
        if h.nextReady ∨ s.moveHolds x d then s
        else match s.setupFails x c d with
          | some st => s.retire c ch true st
          | none =>
            let (b, s) := s.resolve x d
            s.modCore c (fun k => k.modChan ch (fun h => { h with nextReady := true, nextBank := b }))
      | _, _ => s)

/-- The skewed block of a source block: feed vector by feed vector, lane by lane, +0 as padding (R128 to R130,
R236). -/
def Desc.skewed (d : Desc) (src : List Byte) : List Byte :=
  let arr := src.toArray
  let w := d.lanes
  let k := d.k.toNat
  let at_ (lane e : Nat) : Nat := if d.xform = 1 then lane * k + e else e * w + lane
  (List.range (passF d.gang d.fmt k)).flatMap (fun u => (List.range w).flatMap (fun i =>
    if d.fmt8 then
      (List.range 2).map (fun b => if i ≤ u ∧ 2 * (u - i) + b < k then arr.getD (at_ i (2 * (u - i) + b)) 0 else 0)
    else
      (List.range 2).map (fun b => if i ≤ u ∧ u - i < k then arr.getD (2 * at_ i (u - i) + b) 0 else 0)))

/-- Copy bytes of a record into scratch, 64 at a time, each line with its mark (R239). -/
def State.fillLines (s : State) (c : CoreId) (rn : Nat) (bankB : Bool) (h : Hint) (part : Nat) (rw : Bool) :
    Nat → Nat → Nat → Nat → Bool → Bool × State
  | 0, _, _, _, po => (po, s)
  | fuel + 1, off, a, n, po =>
    if n = 0 then (po, s)
    else
      let m := min 64 n
      let (bs, p, s) := s.recRead rn bankB h part rw off m
      let s := s.modCore c (fun k => k.wrScratch k.th.cyc a (bs.map some) p)
      s.fillLines c rn bankB h part rw fuel (off + m) (a + m) (n - m) (po || p)

/-- Copy scratch into a record, 64 bytes at a time. -/
def State.drainLines (s : State) (c : CoreId) (rn : Nat) (bankB : Bool) (h : Hint) (part : Nat) :
    Nat → Nat → Nat → Nat → State
  | 0, _, _, _ => s
  | fuel + 1, off, a, n =>
    if n = 0 then s
    else
      let m := min 64 n
      let k := s.core c
      let s := s.recWrite rn bankB h part (k.marked a m) off (k.rd a m)
      s.drainLines c rn bankB h part fuel (off + m) (a + m) (n - m)

/-- A slot is done: bytes of the tensor moved, the slot counted to the program (R227, R228). -/
def State.slotDone (s : State) (c : CoreId) (ch : Fin 8) (d : Desc) (n written : Nat) (po : Bool) : State :=
  (s.modCore c (fun k => k.modChan ch (fun h =>
    { h with credits := h.credits + 1, engSlot := (h.engSlot + 1) % max 1 d.slotCount.toNat, done := h.done + n
             poisoned := h.poisoned || po }))).inc (pCORE c) (0xF48 + 0x10 * ch.val) written

/-- The head of a channel in its data phase: context, descriptor, record number, write right. -/
def State.running (s : State) (c : CoreId) (ch : Fin 8) : Option (CtxId × Desc × Nat × Bool) :=
  let h := (s.core c).chan ch
  match h.head, h.ctx, h.queue with
  | .data, some x, d :: _ => (s.tensor x d.tensor.toNat).map (fun e => (x, d, e.1, e.2.2))
  | _, _, _ => none

/-- SLOT_FILLED (R227, R229, R236, R239). -/
def execSlotFilled (c : CoreId) (ch : Fin 8) (s : State) : Host.Outcome State Fault Refusal :=
  ok (
    let s := s.modCore c Core.landCredits
    let h := (s.core c).chan ch
    match s.running c ch with
    | none => s
    | some (x, d, rn, rw) =>
      if d.dirOut ∨ d.length.toNat ≤ h.done ∨ d.slotCount.toNat ≤ h.credits then s
      else
        let part := s.tenantPart (s.ctx x).tenant
        let off := d.offset.toNat + h.done
        let n := min d.take (d.length.toNat - h.done)
        let a := d.ringBase.toNat + h.engSlot * (64 * d.slotSize.toNat)
        let bank := h.bank.getD false
        if d.skew then
          let (bs, po, s) := s.recRead rn bank d.hintOf part rw off n
          let out := d.skewed bs
          let s := s.modCore c (fun k => k.wrScratch k.th.cyc a (out.map some) po)
          s.slotDone c ch d n out.length po
        else
          let (po, s) := s.fillLines c rn bank d.hintOf part rw (n / 64 + 1) off a n false
          s.slotDone c ch d n n po)

/-- SLOT_DRAINED (R228, R231). -/
def execSlotDrained (c : CoreId) (ch : Fin 8) (s : State) : Host.Outcome State Fault Refusal :=
  ok (
    let s := s.modCore c Core.landCredits
    let h := (s.core c).chan ch
    match s.running c ch with
    | none => s
    | some (x, d, rn, _) =>
      if !d.dirOut ∨ d.length.toNat ≤ h.done ∨ d.slotCount.toNat ≤ h.credits then s
      else
        let n := min d.take (d.length.toNat - h.done)
        let a := d.ringBase.toNat + h.engSlot * (64 * d.slotSize.toNat)
        let s := s.drainLines c rn (h.bank.getD false) d.hintOf (s.tenantPart (s.ctx x).tenant) (n / 64 + 1)
          (d.offset.toNat + h.done) a n
        s.slotDone c ch d n n false)

/-- DESC_RETIRE (R233, R239). -/
def execDescRetire (c : CoreId) (ch : Fin 8) (s : State) : Host.Outcome State Fault Refusal :=
  ok (
    let s := s.modCore c Core.landCredits
    let h := (s.core c).chan ch
    match h.head, h.queue with
    | .data, d :: _ =>
      if d.length.toNat ≤ h.done ∧ (d.dirOut ∨ h.credits = 0) then
        s.retire c ch false (if h.poisoned then stDATA_POISON else stOK)
      else s
    | _, _ => s)

end Sys2Proof.Machine
end

