-- ==== Sys2Proof/Machine/Banks.lean ====
section
/-! DEFINITION. Manifests, banks and versions (14_weights.md R394 to R398, R405 to R423): what WPB holds for a model
slot, how a build opens and completes, the assignment of versions, the flip, and poison recovery. The commands and
messages of WPB stand in Weights.lean. -/

namespace Sys2Proof.Machine

/-! ### Model slots -/

/-- Change a model slot. -/
def State.modMdl (s : State) (m : Nat) (f : Mdl → Mdl) : State :=
  { s with wpb := { s.wpb with mdls := smod {} s.wpb.mdls m f } }

/-- A register of model slot `m` in 0x200 + 0x20 m. -/
def State.mdlReg (s : State) (m o : Nat) : Word32 := s.reg pWPB (0x200 + 0x20 * m + o)

/-- Is a model slot VALID? -/
def State.mdlValid (s : State) (m : Nat) : Bool := bit (s.mdlReg m 0) 31

/-- The owner of a model slot: a tenant, or 64 for SYSTEM. -/
def State.mdlOwner (s : State) (m : Nat) : Nat := fld (s.mdlReg m 0) 16 7

/-- The map area of a model slot. -/
def State.mdlMap (s : State) (m : Nat) : Nat := (s.mdlReg m 8).toNat + fld (s.mdlReg m 0xC) 0 8 * 2 ^ 32

/-- Bytes of a manifest buffer. -/
def State.mfstMax (s : State) (m : Nat) : Nat := fld (s.mdlReg m 0x1C) 0 16 * 2 ^ 20

/-- A bank: false is A. -/
def Mdl.bank (d : Mdl) (b : Bool) : Bank := if b then d.b else d.a

/-- Set a bank. -/
def Mdl.setBank (d : Mdl) (b : Bool) (k : Bank) : Mdl := if b then { d with b := k } else { d with a := k }

/-- Change a bank of a slot. -/
def State.modBank (s : State) (m : Nat) (b : Bool) (f : Bank → Bank) : State :=
  s.modMdl m (fun d => d.setBank b (f (d.bank b)))

/-- The bank in a state, A before B. -/
def Mdl.inState (d : Mdl) (st : BankState) : Option Bool :=
  if d.a.state = st then some false else if d.b.state = st then some true else none

/-! ### Manifests (R394 to R397) -/

/-- VERSION. -/
def mfVersion (bs : List Byte) : Word64 := BitVec.ofNat 64 (lef bs 0x10 8)
/-- TENSOR_COUNT. -/
def mfTensors (bs : List Byte) : Nat := lef bs 0x18 4
/-- CHUNK_COUNT. -/
def mfChunks (bs : List Byte) : Nat := lef bs 0x1C 4
/-- KEY_SLOT. -/
def mfKey (bs : List Byte) : Nat := lef bs 6 1
/-- The manifest digest (R397). -/
def mfDigest (bs : List Byte) : List Byte := sha256 (bs.take (bs.length - 64))
/-- The signature. -/
def mfSig (bs : List Byte) : List Byte := bs.drop (bs.length - 64)

/-- One entry of a tensor table. -/
structure MfTensor where
  layer : Nat
  index : Nat
  first : Nat
  chunks : Nat
  bytes : Nat
  /-- Its reserved bytes are 0. -/
  clean : Bool

/-- The tensor table. -/
def mfTable (bs : List Byte) : List MfTensor :=
  (List.range (mfTensors bs)).map (fun i =>
    let e := slice bs (0x40 + 32 * i) 32
    { layer := lef e 0 2, index := lef e 2 2, first := lef e 8 4, chunks := lef e 0xC 4, bytes := lef e 0x10 8
      clean := zeroAt e 5 3 && zeroAt e 0x18 8 })

/-- The digest of a chunk. -/
def mfChunkDigest (bs : List Byte) (c : Nat) : List Byte := slice bs (0x40 + 32 * mfTensors bs + 32 * c) 32

/-- Check 2 of R405: MAGIC, FORMAT, reserved bytes, length and MODEL. -/
def mfFormatOk (bs : List Byte) (model : Nat) : Bool :=
  lef bs 0 4 == 0x4D465748 && lef bs 4 2 == 1 && zeroAt bs 7 1 && zeroAt bs 0x0A 6 && zeroAt bs 0x28 24
    && decide (1 ≤ mfTensors bs) && decide (mfTensors bs ≤ 65536) && decide (1 ≤ mfChunks bs)
    && decide (mfChunks bs ≤ 4194304) && bs.length == 128 + 32 * (mfTensors bs + mfChunks bs)
    && (mfTable bs).all (fun t => t.clean) && lef bs 8 2 == model

/-- Each tensor follows the one before it (R395). -/
def tableFollows : List MfTensor → Bool
  | a :: b :: rest =>
    (decide (a.layer < b.layer) || (a.layer == b.layer && decide (a.index < b.index)))
      && b.first == a.first + a.chunks && tableFollows (b :: rest)
  | _ => true

/-- A well-formed tensor table (R395). -/
def tableOk (bs : List Byte) : Bool :=
  let t := mfTable bs
  (match t.head? with | some e => e.first == 0 | none => false) && tableFollows t
    && (match t.getLast? with | some e => e.first + e.chunks == mfChunks bs | none => false)
    && t.all (fun e => decide (1 ≤ e.bytes) && e.chunks == (e.bytes + 1048575) / 1048576)
    && (t.map (fun e => e.bytes)).sum == lef bs 0x20 8

/-- The tensor of a chunk. -/
def mfTensorOf (bs : List Byte) (c : Nat) : Option MfTensor :=
  (mfTable bs).find? (fun t => decide (t.first ≤ c) && decide (c < t.first + t.chunks))

/-- The record that a slot maps a tensor to. -/
def Mdl.recOf (d : Mdl) (t : MfTensor) : Option Nat :=
  (d.tmap.find? (fun e => e.layer == t.layer && e.index == t.index)).map (fun e => e.recN)

/-- The record and byte range of a chunk of a manifest: record, offset, bytes (R396, R408). -/
def Mdl.chunkAt (d : Mdl) (bs : List Byte) (c : Nat) : Option (Nat × Nat × Nat) :=
  (mfTensorOf bs c).bind (fun t => (d.recOf t).map (fun r =>
    let off := (c - t.first) * 1048576
    (r, off, min 1048576 (t.bytes - off))))

/-- Every chunk of the mapped tensors of a manifest. -/
def Mdl.needed (d : Mdl) (bs : List Byte) : List Nat :=
  (mfTable bs).flatMap (fun t => if (d.recOf t).isSome then (List.range t.chunks).map (fun i => t.first + i) else [])

/-- The chunks of a bank's build that are missing (R409). -/
def Mdl.missing (d : Mdl) (k : Bank) : List Nat :=
  match k.mfst with
  | none => []
  | some m => (d.needed m.bytes).filter (fun c => !k.got.contains c)

/-- Does a bank take chunks: BUILDING, REPAIR, or READY with chunks missing after poison (R419)? -/
def Mdl.takes (d : Mdl) (b : Bool) : Bool :=
  let k := d.bank b
  k.state == .building || k.state == .repair || (k.state == .ready && !(d.missing k).isEmpty)

/-- Manifests that a slot holds: those of its banks in use, and the pending one (R405, R406). -/
def Mdl.heldMfsts (d : Mdl) : List Manif :=
  ([d.a, d.b].filterMap (fun k => if k.state = .free then none else k.mfst)) ++ d.pend.toList

/-- Every manifest that keeps a buffer. -/
def Mdl.buffers (d : Mdl) : List Nat :=
  (d.heldMfsts ++ d.checking ++ d.shelved.toList).map (fun m => m.buf) ++ (d.arriving.map (fun a => a.buf)).toList

/-! ### Messages of WPB (R403) -/

/-- A WPB message: kind, destination and the header fields of chapter 14. -/
def State.wpbMsg (s : State) (kind dest model flags index count : Nat) (version : Word64) (payload : List Byte) :
    Message :=
  { newMsg s kind dest with
    extra := leBytes 2 model ++ leBytes 2 flags ++ leBytes 4 index ++ leBytes 4 count ++ leBytes 8 version.toNat
      ++ List.replicate 8 0
    payload := payload
    poison := List.replicate ((payload.length + 63) / 64) false }

/-- A field of header bytes 0x24 to 0x3F. -/
def hdr (m : Message) (off n : Nat) : Nat := lef m.extra (off - 0x24) n

/-- Send a message of WPB on VC3. -/
def State.wpbSend (s : State) (m : Message) : State := (s.sendMsg m 3 (.engine 0x0F 0)).2

/-- The MODEL of a slot. -/
def State.mdlId (s : State) (m : Nat) : Nat := fld (s.mdlReg m 0) 0 16

/-- The first stage's chip. -/
def Mdl.firstStage (d : Mdl) : Option (BitVec 12) := d.pipe.head?

/-- Is this chip the first stage of a slot's pipeline? -/
def State.isFirst (s : State) (m : Nat) : Bool :=
  match (s.mdl m).firstStage with
  | some a => a.toNat == s.myAddr
  | none => false

/-- Ask the source for chunks, at most 262,144 a message (R409). -/
def State.askChunks (s : State) (m : Nat) (v : Word64) (repair : Bool) : Nat → List Nat → State
  | 0, _ => s
  | fuel + 1, cs =>
    if cs.isEmpty then s
    else
      let part := cs.take 262144
      let src := fld (s.reg pWPB 0x108) 0 12
      let s := (s.inc pWPB 0xF30 part.length).wpbSend
        (s.wpbMsg 0x23 src (s.mdlId m) (bnat repair) 0 part.length v (part.flatMap (leBytes 4)))
      s.askChunks m v repair fuel (cs.drop 262144)

/-- Ask for every missing chunk of a bank. -/
def State.askMissing (s : State) (m : Nat) (b : Bool) : State :=
  let d := s.mdl m
  let k := d.bank b
  let cs := (d.missing k).filter (fun c => !d.staged.any (fun g => g.copy && g.idx == c && g.version == k.version))
  let s := s.modBank m b (fun k => { k with asked := true, since := s.pw.aonTime })
  s.askChunks m k.version (k.state == .repair) (cs.length / 262144 + 1) cs

/-! ### Holds (R420, R423) -/

/-- The first stage notes that a chip holds a model: op 1 HOLD, 2 RELEASE, 3 OFFLINE. -/
def State.noteHold (s : State) (m : Nat) (chip : BitVec 12) (op : Nat) : State :=
  s.modMdl m (fun d => { d with
    holders := if op = 2 then d.holders.filter (fun c => c != chip)
      else if d.holders.contains chip then d.holders else d.holders ++ [chip] })

/-- Tell the first stage of a hold; without the fabric when it is this chip. -/
def State.sendHold (s : State) (m : Nat) (op : Nat) : State :=
  match (s.mdl m).firstStage with
  | none => s
  | some f =>
    if f.toNat = s.myAddr then s.noteHold m f op
    else s.wpbSend (s.wpbMsg 0x25 f.toNat (s.mdlId m) (op * 2) 0 0 0 [0])

/-- This chip begins to hold a model. -/
def State.beginHold (s : State) (m : Nat) : State :=
  if (s.mdl m).hold then s
  else (s.modMdl m (fun d => { d with hold := true, holdAt := s.pw.aonTime })).sendHold m 1

/-- This chip's hold of a model ends: its ticks are counted; `tell` sends RELEASE. -/
def State.endHold (s : State) (m : Nat) (tell : Bool) : State :=
  let d := s.mdl m
  if !d.hold then s
  else
    let s := s.inc pWPB 0xF68 (s.pw.aonTime - d.holdAt).toNat
    let s := s.modMdl m (fun d => { d with hold := false })
    if tell then s.sendHold m 2 else s

/-! ### Reports and assignment (R414 to R416) -/

/-- The first stage notes READY for a version from a chip; its READY serves as the release of an OFFLINE chip (R415,
R423). -/
def State.noteReady (s : State) (m : Nat) (chip : BitVec 12) (v : Word64) : State :=
  let d := s.mdl m
  if d.gone.contains v.toNat then s
  else
    let old := sget [] d.reports v.toNat
    let s := s.modMdl m (fun d => { d with
      reports := sset [] d.reports v.toNat (if old.contains chip then old else old ++ [chip]) })
    s.noteHold m chip 2

/-- This chip reports READY for a version (R414). -/
def State.sendReady (s : State) (m : Nat) (v : Word64) : State :=
  match (s.mdl m).firstStage with
  | none => s
  | some f =>
    if f.toNat = s.myAddr then s.noteReady m f v
    else s.wpbSend (s.wpbMsg 0x24 f.toNat (s.mdlId m) 0 0 0 v [0])

/-- Versions that READY has come for from every chip of the pipeline list. -/
def Mdl.reported (d : Mdl) : List Nat :=
  d.reports.filterMap (fun e => if d.pipe.all (fun c => e.2.contains c) && !d.pipe.isEmpty then some e.1 else none)

/-- The highest assignable version (R415). -/
def State.assignable (s : State) (m : Nat) : Option Word64 :=
  let d := s.mdl m
  if !s.mdlValid m ∨ !d.holders.isEmpty then none
  else (d.reported.foldl (fun (b : Option Nat) v => some (max v (b.getD 0))) none).map (BitVec.ofNat 64)

/-- A version withdrawn by the first stage frees the bank that is READY with it (R416). -/
def State.freeReady (s : State) (m : Nat) (v : Word64) : State :=
  let d := s.mdl m
  [false, true].foldl (fun s b =>
    if (d.bank b).state = .ready ∧ (d.bank b).version = v then s.modBank m b (fun k => { k with state := .free }) else s) s

/-- The first stage verifies a manifest newer than a version reported and not assigned: it withdraws that version
(R416). -/
def State.withdrawOlder (s : State) (m : Nat) (v : Word64) : State :=
  let d := s.mdl m
  let old := (d.reports.map (fun e => e.1)).filter (fun u => decide (u < v.toNat) && decide (d.assigned.toNat < u))
  old.foldl (fun s u =>
    let s := s.modMdl m (fun d => { d with reports := sset [] d.reports u [], gone := d.gone ++ [u] })
    let s := (s.inc pWPB 0xF50).freeReady m (BitVec.ofNat 64 u)
    d.pipe.foldl (fun s c =>
      if c.toNat = s.myAddr then s
      else s.wpbSend (s.wpbMsg 0x27 c.toNat (s.mdlId m) 0 0 0 (BitVec.ofNat 64 u) [0])) s) s

/-! ### Builds (R405 to R408, R412) -/

/-- A build with every chunk verified becomes READY and is reported; a model that was OFFLINE here leaves that state
(R414, R423). -/
def State.becomeReady (s : State) (m : Nat) (b : Bool) (v : Word64) : State :=
  let s := (s.modBank m b (fun k => { k with state := .ready })).raise pWPB 17
  let s := if (s.mdl m).offline then (s.modMdl m (fun d => { d with offline := false, bad := [] })).endHold m false else s
  s.sendReady m v

/-- Open a build in a bank (R412); one that needs no chunk on this chip is READY at once (R414). -/
def State.openBuild (s : State) (m : Nat) (b : Bool) (mf : Manif) : State :=
  let v := mfVersion mf.bytes
  let s := s.modBank m b (fun _ => { state := .building, version := v, mfst := some mf, since := s.pw.aonTime })
  if ((s.mdl m).needed mf.bytes).isEmpty then s.becomeReady m b v else s

/-- An accepted manifest opens a build, supersedes one, or becomes pending (R412). -/
def State.acceptBuild (s : State) (m : Nat) (mf : Manif) : State :=
  let d := s.mdl m
  match d.inState .free with
  | some b => s.openBuild m b mf
  | none => match d.inState .building with
    | some b => (s.inc pWPB 0xF48).openBuild m b mf
    | none => s.modMdl m (fun d => { d with pend := some mf })

/-- The status of a slot's last refusal or failed build. -/
def State.mdlErr (s : State) (m : Nat) (st : BitVec 16) : State :=
  s.setReg pWPB (0x904 + 0x20 * m) (BitVec.ofNat 32 (st.toNat + 2 ^ 31))

/-- A manifest is refused (R406). -/
def State.refuseMfst (s : State) (m : Nat) (st : BitVec 16) : State :=
  let s := (s.inc pWPB 0xF08).mdlErr m st
  (s.raise pWPB (if st = stVERSION_CONFLICT then 21 else 16)).detectOpen cCORRECTED st 0x0F m none

/-- The public key of a publisher slot (R117). -/
def State.pubKey (s : State) (n : Nat) : List Byte := (List.range 8).flatMap (fun i => leBytes 4 (s.fuse (48 + 8 * n + i)).toNat)

/-- May a publisher slot sign: below 8, not revoked, not all-zero (check 4 of R405)? -/
def State.keyUsable (s : State) (n : Nat) : Bool :=
  decide (n < 8) && !bit (s.fuse 46) n && (s.pubKey n).any (fun b => b != 0)

/-- Bytes hashed are counted. -/
def State.hashed (s : State) (n : Nat) : State := s.inc pSIG 0xF00 n

/-- Checks 2 to 4 of a whole manifest (R405): the status that refuses it, `none` for a duplicate, or the manifest goes
on to its signature. -/
def State.earlyChecks (s : State) (m : Nat) (mf : Manif) : State :=
  let d := s.mdl m
  if !mfFormatOk mf.bytes (s.mdlId m) then s.refuseMfst m stMANIFEST_FORMAT
  else
    let s := s.hashed (mf.bytes.length - 64)
    if d.heldMfsts.any (fun h => mfDigest h.bytes == mfDigest mf.bytes) then s.inc pWPB 0xF10
    else if !s.keyUsable (mfKey mf.bytes) then s.refuseMfst m stKEY_REVOKED
    else s.modMdl m (fun d => { d with checking := d.checking ++ [mf] })

/-- Check 7: every tensor-map entry has its tensor, of its record's bank size. -/
def State.shapeOk (s : State) (m : Nat) (bs : List Byte) : Bool :=
  (s.mdl m).tmap.all (fun e => match (mfTable bs).find? (fun t => t.layer == e.layer && t.index == e.index) with
    | some t => (match s.trec e.recN with | some r => r.banked && r.size == t.bytes | none => false)
    | none => false)

/-- Checks 5 to 7 and the version rule (R405, R406). -/
def State.lateChecks (s : State) (m : Nat) (mf : Manif) : State :=
  let d := s.mdl m
  let v := mfVersion mf.bytes
  let minver := s.reg64 pWPB (0x210 + 0x20 * m)
  let s := s.inc pSIG 0xF08
  if !edVerify (s.pubKey (mfKey mf.bytes)) (mf.bytes.take (mf.bytes.length - 64)) (mfSig mf.bytes) then
    (s.inc pSIG 0xF10).refuseMfst m stMANIFEST_SIG
  else if !tableOk mf.bytes then s.refuseMfst m stMANIFEST_FORMAT
  else if !s.shapeOk m mf.bytes then s.refuseMfst m stMANIFEST_SHAPE
  else if d.heldMfsts.any (fun h => mfVersion h.bytes == v) then s.refuseMfst m stVERSION_CONFLICT
  else if v.toNat < minver.toNat ∨ v.toNat ≤ d.top then s.refuseMfst m stVERSION_OLD
  else
    let s := (s.inc pWPB 0xF00).modMdl m (fun d => { d with top := v.toNat })
    let s := if s.isFirst m then s.withdrawOlder m v else s
    s.acceptBuild m mf

/-! ### A bank completes (R414, R422) -/

/-- A REPAIR bank is whole: it goes LIVE, the poisoned bank is FREE, the shelved build reopens (R422)
(DEDUCED, log entry 117). -/
def State.repairDone (s : State) (m : Nat) (b : Bool) : State :=
  let s := s.modBank m b (fun k => { k with state := .live })
  let s := s.modBank m (!b) (fun k => { k with state := .free })
  let s := s.modMdl m (fun d => { d with liveB := b, bad := [] })
  let s := ((s.inc pWPB 0xF40).raise pWPB 18).endHold m true
  match (s.mdl m).shelved with
  | none => s
  | some mf =>
    let s := s.modMdl m (fun d => { d with shelved := none })
    if (s.mdl m).pend.isSome then s.inc pWPB 0xF48 else s.openBuild m (!b) mf

/-- A bank that has every chunk: a build becomes READY and is reported, a READY bank rebuilt in place is released, a
REPAIR goes LIVE. -/
def State.bankWhole (s : State) (m : Nat) (b : Bool) : State :=
  let d := s.mdl m
  let k := d.bank b
  if !(d.missing k).isEmpty then s
  else match k.state with
    | .building => s.becomeReady m b k.version
    | .ready => if d.hold ∧ !d.offline ∧ d.bad.isEmpty then s.endHold m true else s
    | .repair => s.repairDone m b
    | _ => s

/-- A verified chunk enters its bank (R408). -/
def State.enterChunk (s : State) (m : Nat) (b : Bool) (c : Nat) (bs : List Byte) : State :=
  let d := s.mdl m
  let k := d.bank b
  match k.mfst.bind (fun mf => d.chunkAt mf.bytes c) with
  | none => s
  | some (r, off, _) =>
    let s := s.recWrite r b .stream s.sysPart false off bs
    let s := s.modBank m b (fun k => { k with got := insNat c k.got })
    (s.inc pWPB 0xF18).bankWhole m b
where
  /-- Insert a number in ascending order. -/
  insNat (c : Nat) : List Nat → List Nat
    | [] => [c]
    | x :: xs => if c < x then c :: x :: xs else if c = x then x :: xs else x :: insNat c xs

/-! ### The flip (R417, R418) -/

/-- Versions of the batches of a model slot on the chip: the current steps of contexts whose group uses it (R434). -/
def State.onChip (s : State) (m : Nat) : List Word64 :=
  s.eps.ctxs.filterMap (fun e => e.2.cur.bind (fun t => if s.groupMdl t.group = m then some t.version else none))

/-- A DRAINING bank becomes FREE when no batch of its version is left (R418). -/
def State.settleBanks (s : State) (m : Nat) : State :=
  let d := s.mdl m
  [false, true].foldl (fun s b =>
    if (d.bank b).state = .draining ∧ !(s.onChip m).contains (d.bank b).version then
      s.modBank m b (fun k => { k with state := .free })
    else s) s

/-- A batch of a version enters the chip (R417): the first one flips the banks. -/
def State.batchEnter (s : State) (m : Nat) (v : Word64) : State :=
  let d := s.mdl m
  match d.inState .ready with
  | none => s
  | some b0 =>
    let b := if (d.bank b0).version = v then b0 else !b0
    if (d.bank b).state = .ready ∧ (d.bank b).version = v then
      let s := if (d.bank (!b)).state = .live then s.modBank m (!b) (fun k => { k with state := .draining }) else s
      let s := (s.modBank m b (fun k => { k with state := .live })).modMdl m (fun d => { d with liveB := b })
      ((s.inc pWPB 0xF40).raise pWPB 18).settleBanks m
    else s

/-! ### Poison (R419 to R423) -/

/-- The chunk of a bank's manifest that holds a byte of a record. -/
def Mdl.chunkOf (d : Mdl) (k : Bank) (rn off : Nat) : Option Nat :=
  k.mfst.bind (fun mf => (mfTable mf.bytes).findSome? (fun t =>
    if d.recOf t = some rn then some (t.first + off / 1048576) else none))

/-- Every chunk of a record's tensor in a manifest. -/
def Mdl.chunksOfRec (d : Mdl) (bs : List Byte) (rn : Nat) : List Nat :=
  (mfTable bs).flatMap (fun t => if d.recOf t = some rn then (List.range t.chunks).map (fun i => t.first + i) else [])

/-- A bank loses chunks. -/
def State.loseChunks (s : State) (m : Nat) (b : Bool) (cs : List Nat) : State :=
  s.modBank m b (fun k => { k with got := k.got.filter (fun c => !cs.contains c) })

/-- TIER reports a poisoned line at a byte of a bank of a record: WPB acts by the state of the bank (R419). -/
def State.wpbPoison (s : State) (m rn : Nat) (b : Bool) (off : Nat) : State :=
  let s := s.setReg pWPB 0xB00 (BitVec.ofNat 32 (rn + m * 2 ^ 16 + bnat b * 2 ^ 20 + 2 ^ 31))
  let d := s.mdl m
  let k := d.bank b
  let here := (d.chunkOf k rn off).toList
  match k.state with
  | .live =>
    let s := if d.bad.isEmpty then
        (((s.modMdl m (fun d => { d with poisonAt := s.pw.aonTime })).inc pWPB 0xF58).raise pWPB 19).beginHold m
      else s
    let s := s.modMdl m (fun d => { d with bad := if d.bad.contains rn then d.bad else d.bad ++ [rn] })
    if (d.bank (!b)).state = .repair then
      match (d.bank (!b)).mfst with
      | some mf =>
        let cs := (d.chunksOfRec mf.bytes rn).filter (fun c => !(d.staged.any (fun g => !g.copy && g.idx == c)))
        let s := s.loseChunks m (!b) cs
        let s := s.modMdl m (fun d => { d with staged := d.staged.filter (fun g => !(g.copy && cs.contains g.idx)) })
        s.askChunks m k.version true (cs.length / 262144 + 1) cs
      | none => s
    else s
  | .ready => ((s.loseChunks m b here).beginHold m).askMissing m b
  | .building => s.loseChunks m b here
  | .repair => s.loseChunks m b here
  | _ => s

/-- Open a repair of the LIVE bank in the other bank: the clean tensors' chunks are copied, the others asked for
(R421). -/
def State.openRepair (s : State) (m : Nat) (live : Bool) : State :=
  let d := s.mdl m
  match (d.bank live).mfst with
  | none => s
  | some mf =>
    let b := !live
    let v := (d.bank live).version
    let s := if (d.bank b).state = .building then s.modMdl m (fun d => { d with shelved := (d.bank b).mfst }) else s
    let s := s.modBank m b (fun _ => { state := .repair, version := v, mfst := some mf, since := s.pw.aonTime })
    let ill := d.bad.flatMap (d.chunksOfRec mf.bytes)
    let copies : List Staged := ((d.needed mf.bytes).filter (fun c => !ill.contains c)).map (fun c =>
      { version := v, idx := c, bytes := [], poison := false, units := [], copy := true })
    let s := s.modMdl m (fun d => { d with staged := d.staged ++ copies })
    s.askMissing m b

/-- Contexts that use a model slot: those of its VALID groups. -/
def State.mdlContexts (s : State) (m : Nat) : List Nat :=
  ((List.range 128).filterMap (fun g =>
    let c := s.breg g pEPS 0x200
    if bit c 31 ∧ fld c 11 4 = m then some (fld c 0 6) else none)).eraseDups

/-- The model goes OFFLINE on this chip (R423): its repair is given up. -/
def State.goOffline (s : State) (m : Nat) : State :=
  let d := s.mdl m
  if d.offline then s
  else
    let s := match d.inState .repair with
      | some b => s.modBank m b (fun k => { k with state := .free })
      | none => s
    let s := s.modMdl m (fun d => { d with offline := true, staged := d.staged.filter (fun g => !g.copy) })
    let s := ((s.inc pWPB 0xF60).raise pWPB 20).sendHold m 3
    (s.mdlContexts m).foldl (fun s x => s.detectOpen cCONTAINED stMODEL_OFFLINE 0x0F m
      (if h : x < 64 then some ⟨x, h⟩ else none)) s

end Sys2Proof.Machine
end

