-- ==== Sys2Proof/Machine/Locks.lean ====
section
/-! DEFINITION. Trick locks (18_sharing.md R533 to R537; 06_hj1_baseline.md R175; 07_hj2_contract.md R210). -/

namespace Sys2Proof.Machine

/-- A lock. -/
def State.lock (s : State) (n : Nat) : Lock := sget {} s.locks n

/-- Change a lock. -/
def State.modLock (s : State) (n : Nat) (f : Lock → Lock) : State := { s with locks := smod {} s.locks n f }

/-- The byte of SCH_LOCK_CFG of a lock. -/
def State.lockCfg (s : State) (n : Nat) : Nat := fld (s.reg pSCH (0x400 + 4 * (n / 4))) (8 * (n % 4)) 8

/-- May a tenant's context ask for a lock (R533)? (DEDUCED, log entry 102) -/
def State.lockMay (s : State) (n tenant : Nat) : Bool :=
  let c := s.lockCfg n
  c.testBit 7 && (c.testBit 6 || c % 64 == tenant)

/-- Does a context hold a lock? -/
def State.holdsLock (s : State) (x : CtxId) (n : Nat) : Bool := (s.lock n).owner == some x

/-- The lease in ticks that a request asks for: its own, or the context's default (R534). -/
def State.leaseOf (s : State) (x : CtxId) (lease : Word32) : Nat :=
  if lease = 0 then (s.ctx x).lease.toNat else lease.toNat

/-- The expiry of a lease that begins now; none without a lease. -/
def State.expiryOf (s : State) (ticks : Nat) : Option (BitVec 48) :=
  if ticks = 0 then none else some (s.pw.aonTime + BitVec.ofNat 48 ticks)

/-- The lease channel follows the earliest expiry of the held locks (R535, R536). -/
def State.armLease (s : State) : State :=
  match s.hwTmr 0x80 with
  | none => s
  | some n =>
    let es := s.locks.filterMap (fun e => e.2.expiry)
    match es with
    | [] => s.setTmr n 0x10 0
    | e :: rest => (s.setCmp n (rest.foldl (fun m x => if x.toNat < m.toNat then x else m) e)).setTmr n 0x10 1

/-- Set the lease of a held lock. -/
def State.setLease (s : State) (n ticks : Nat) : State :=
  let e := s.expiryOf ticks
  (s.modLock n (fun l => { l with expiry := e })).armLease

/-- A held lock is released with BROKEN set; why: 1 owner ended, 2 lease, 3 host (R536). -/
def State.breakLock (s : State) (n : Nat) (why : BitVec 3) : State :=
  if (s.lock n).owner.isNone then s
  else ((s.modLock n (fun l => { l with owner := none, expiry := none, broken := true, lastBreak := why })).inc
    pSCH 0xF28).raise pSCH 16 |>.armLease

/-- Every lease that has lapsed releases its lock (R536). -/
def State.lapseLeases (s : State) : State :=
  s.locks.foldl (fun s e => match e.2.expiry with
    | some t => if t.toNat ≤ s.pw.aonTime.toNat then s.breakLock e.1 2 else s
    | none => s) s

/-- Every lock of a context is released with BROKEN set, and its requests withdrawn (R523). -/
def State.breakLocksOf (s : State) (x : CtxId) : State :=
  let drop (l : Lock) : Lock := { l with waiters := l.waiters.filter (fun w => w.1 != x) }
  let s : State := s.locks.foldl (fun s e => s.modLock e.1 drop) s
  s.locks.foldl (fun s e => if e.2.owner = some x then s.breakLock e.1 1 else s) s

/-- LOCK.ACQ (R175, R210, R533) (DEDUCED, log entry 103). -/
def execLockAcq (o : YOp) (s : State) : Host.Outcome State Fault Refusal :=
  ok (issue o.core (encY 0x61 o) (fun s x _ =>
    let n := o.id8.toNat
    let done (st : BitVec 16) (f : State → State) : IRes :=
      .go { lands := [(1, .sreg o.sd (st.setWidth 64) false)], onState := f }
    if !s.lockMay n (s.ctx x).tenant then done stLOCK_DENIED id
    else if s.holdsLock x n then done stOK (fun s => s.setLease n (s.leaseOf x o.imm))
    else if s.locks.any (fun e => decide (n < e.1) && e.2.owner == some x) then
      done stORDER (fun s => s.inc pSCH 0xF30)
    else
      .go { onCore := fun k => { k with th := { k.th with
              wait := some (.lock o.sd ⟨o.id8.toNat, o.id8.isLt⟩ o.imm true) } }
            onState := fun s => s.modLock n (fun l => { l with waiters := l.waiters ++ [(x, o.core, o.imm)] }) }) s)

/-- LOCK.REL (R175, R537). -/
def execLockRel (o : YOp) (s : State) : Host.Outcome State Fault Refusal :=
  ok (issue o.core (encY 0x62 o) (fun s x _ =>
    let n := o.id8.toNat
    if s.holdsLock x n then
      .go { lands := [(1, .sreg o.sd 0 false)]
            onState := fun s => (s.modLock n (fun l =>
              { l with owner := none, expiry := none, broken := false })).armLease }
    else .trap stLOCK_NOT_OWNER 0) s)

/-- The oldest request, the lower context first among those that came together. -/
def Lock.next (l : Lock) : Option (CtxId × CoreId × Word32) := l.waiters.head?

/-- A request of the context that owns the lock by now, from another of its cores: it completes at once and restarts
the lease (R175; When things collide). -/
def State.ownerAgain (s : State) (n : Fin 256) (y : CtxId) (waited : Nat) : State :=
  match (s.lock n).waiters.find? (fun w => w.1 == y) with
  | none => s
  | some (x, c, lease) =>
    if !s.waitLive c ∨ (s.core c).ctx ≠ some x then s
    else
      match (s.core c).th.wait with
      | some (.lock sd _ _ _) =>
        let s := s.modLock n (fun l => { l with waiters := l.waiters.filter (fun w => !(w.1 == x && w.2.1 == c)) })
        (s.setLease n (s.leaseOf x lease)).endWait c waited [(1, .sreg sd 0 false)]
      | _ => s

/-- LOCK_GRANT (R534, R535; R175 for a second request of the owner's): the requester has waited `waited` CCLK. -/
def execLockGrant (n : Fin 256) (waited : Nat) (s : State) : Host.Outcome State Fault Refusal :=
  ok (
    let l := s.lock n
    match l.owner, l.next with
    | none, some (x, c, lease) =>
      if !s.waitLive c ∨ (s.core c).ctx ≠ some x then s
      else
        match (s.core c).th.wait with
        | some (.lock sd _ _ _) =>
          let s := s.modLock n (fun l => { l with waiters := l.waiters.tail })
          let ticks := s.leaseOf x lease
          let claimed : Option State :=
            if ticks = 0 ∨ (s.hwTmr 0x80).isSome then some s else (s.claimHw 0x80).map (fun e => e.2)
          match claimed with
          | none => s.endWait c waited [(1, .sreg sd (stNO_CHANNEL.setWidth 64) false)]
          | some s =>
            let s := s.modLock n (fun l => { l with owner := some x, core := c })
            let s := (s.setLease n ticks).inc pSCH 0xF20
            s.endWait c waited [(1, .sreg sd (if l.broken then stACQUIRED_BROKEN.setWidth 64 else 0) false)]
        | _ => s
    | none, none => s
    | some y, _ => s.ownerAgain n y waited)

/-- A lock command completes with a status (SCH_LOCK_CMD_STAT). -/
def State.lockDone (s : State) (st : BitVec 16) : State :=
  s.setReg pSCH 0x818 (BitVec.ofNat 32 (st.toNat + 2 ^ 31))

/-- A write of SCH_LOCK_CMD (R536, R537). What the spec gives no status for completes with a free one (log
entry 27). -/
def State.lockCmd (s : State) (v : Word32) : State :=
  let n := fld v 0 8
  if !bit v 31 ∨ !s.pgEn pSCH then s
  else if fld v 8 2 = 1 then (s.breakLock n 3).lockDone stOK
  else if fld v 8 2 = 2 ∧ (s.lock n).owner.isNone then (s.modLock n (fun l => { l with broken := false })).lockDone stOK
  else
    let (st, s) := s.openStatus
    s.lockDone st

/-- BREAK (R536). -/
def execBrk (r : Requester) (v : Word32) (s : State) : Host.Outcome State Fault Refusal :=
  ok (s.write r pSCH 0x814 (fun s => s.lockCmd (setBit (putFld v 8 2 1) 31 true)))

/-- CLEAR (R537). -/
def execClear (r : Requester) (v : Word32) (s : State) : Host.Outcome State Fault Refusal :=
  ok (s.write r pSCH 0x814 (fun s => s.lockCmd (setBit (putFld v 8 2 2) 31 true)))

end Sys2Proof.Machine
end

