-- ==== Sys2Proof/Machine/Errors.lean ====
section
/-! DEFINITION. The error log, its MSI-X signals and the telemetry ring (20_errors.md R577 to R590). -/

namespace Sys2Proof.Machine

/-- The 32 bytes of a log entry (R577). -/
def LogEntry.bytes (e : LogEntry) : List Byte :=
  leBytes 8 e.seq.toNat ++ leBytes 6 e.time.toNat
    ++ [BitVec.ofNat 8 (e.cls.toNat + bnat e.ctx.isSome * 128),
        match e.ctx with | some x => BitVec.ofNat 8 x.val | none => 0]
    ++ leBytes 2 e.status.toNat ++ [e.block, 0] ++ leBytes 2 e.inst.toNat ++ leBytes 2 e.count.toNat
    ++ leBytes 8 e.info.toNat

/-- AON_LOG_HEAD. -/
def State.logHead (s : State) : Word64 := s.reg64 pAON 0x900

/-- The newest entry, if any has been written. -/
def State.newest (s : State) : Option LogEntry :=
  if s.logHead = 0 then none else some (sget {} s.log.ring ((s.logHead.toNat - 1) % 1024))

/-- A written or merged entry sets its class's pending bit, and signals the class's vector as the bit rises
(R585, R586). -/
def State.classPend (s : State) (c : BitVec 2) : State :=
  let old := s.reg pERR 0x8E0
  let s := s.setReg pERR 0x8E0 (setBit old c.toNat true)
  if !bit old c.toNat ∧ bit (s.reg pERR 0x104) c.toNat then
    s.signalVec (BitVec.ofNat 8 (fld (s.reg pERR 0x100) (8 * c.toNat) 8))
  else s

/-- Does a detection merge into the newest entry (R581)? -/
def State.merges (s : State) (e : LogEntry) : Bool :=
  match s.newest with
  | none => false
  | some n =>
    e.cls == cCORRECTED && n.cls == cCORRECTED && n.status == e.status && n.block == e.block && n.inst == e.inst
      && n.ctx == e.ctx && fld (s.reg pERR 0x108) 0 16 != 0
      && decide (e.time.toNat ≤ n.time.toNat + fld (s.reg pERR 0x108) 0 16)

/-- Count an entry lost to AON_LOG_OVF (R580). -/
def State.logOvf (s : State) : State :=
  let v := satAdd (s.reg pAON 0xF18) 1 0xFFFFFFFF
  let s := s.setReg pAON 0xF18 v
  if v = 0xFFFFFFFF then s.setReg pAON 0xF1C 1 else s

/-- A FATAL entry drives GPIO1 low where the pin is claimed as FATAL_OUT (21_host_management.md R621). -/
def State.fatalOut (s : State) : State :=
  let v := s.reg pMGT 0x814
  if fld v 0 8 ≠ 0 ∧ fld v 8 3 = 3 ∧ !s.mgt.fatalPin then
    ({ s with mgt := { s.mgt with fatalPin := true } }).emitOut (.fatalOut true)
  else s

/-- Write the oldest queued entry, or merge it (R578 to R581, R585). -/
def State.writeLog (s : State) : State :=
  match s.log.queue with
  | [] => s
  | e :: rest =>
    let s := { s with log := { s.log with queue := rest } }
    if s.merges e then
      let slot := (s.logHead.toNat - 1) % 1024
      let n := sget ({} : LogEntry) s.log.ring slot
      let n := { n with count := if n.count = 0xFFFF then n.count else n.count + 1 }
      ({ s with log := { s.log with ring := sset {} s.log.ring slot n } }).classPend e.cls
    else
      let h := s.logHead
      let slot := h.toNat % 1024
      let s := if 1024 ≤ h.toNat ∧ (s.reg64 pAON 0x908).toNat ≤ h.toNat - 1024 then s.logOvf else s
      let s := { s with log := { s.log with
                  ring := sset {} s.log.ring slot { e with seq := h }
                  fatalIdx := if e.cls = cFATAL then BitVec.ofNat 10 slot else s.log.fatalIdx } }
      let s := (s.setReg64 pAON 0x900 (h + 1)).classPend e.cls
      if e.cls = cFATAL then s.fatalOut else s

/-- LOG_ENTRY_WRITE (R579). -/
def execLogEntryWrite (s : State) : Host.Outcome State Fault Refusal := ok s.writeLog

/-- A 64-bit value with one word replaced. -/
def putWord (old : Word64) (hi : Bool) (v : Word32) : Word64 :=
  if hi then v ++ old.extractLsb' 0 32 else old.extractLsb' 32 32 ++ v

/-- A write of one word of a 64-bit acknowledgement register at `o`: discarded below its value or above `top`. -/
def State.ackWrite (s : State) (p o : Nat) (top : Word64) (hi : Bool) (v : Word32) (bad : State → State) : State :=
  let old := s.reg64 p o
  let new := putWord old hi v
  if new.toNat < old.toNat ∨ top.toNat < new.toNat then bad s else s.setReg64 p o new

/-- AON_LOG_TAIL (R582). -/
def execAonLogTail (r : Requester) (hi : Bool) (v : Word32) (s : State) : Host.Outcome State Fault Refusal :=
  ok (s.write r pAON (if hi then 0x90C else 0x908) (fun s => s.ackWrite pAON 0x908 s.logHead hi v id))

/-- A write of AON_LOG_SEL latches a slot's entry (R583). -/
def State.logSel (s : State) (v : Word32) : State :=
  let s := s.store pAON 0x910 v
  { s with log := { s.log with latch := sget {} s.log.ring (fld v 0 10) } }

/-- AON_LOG_SEL (R583). -/
def execAonLogSel (r : Requester) (v : Word32) (s : State) : Host.Outcome State Fault Refusal :=
  ok (s.write r pAON 0x910 (fun s => s.logSel v))

/-- The value of a telemetry selector (R590): 0 for none; a counter kept under 05_cores_arrays.md R146, or all ones,
on a page whose domain is not ON (DEDUCED, log entry 86). -/
def State.telValue (s : State) (sel : Nat) : Word64 :=
  if sel = 0 then 0
  else
    let p := sel / 4096
    match pageInfo p with
    | none => 0
    | some (bt, _) =>
      if s.pageLive p ∨ bt = 0x18 ∨ bt = 0x1C ∨ bt = 0x1D then s.reg64 p (sel % 4096)
      else BitVec.allOnes 64

/-- TEL_SAMPLE (R590). -/
def execTelSample (s : State) : Host.Outcome State Fault Refusal :=
  ok (if s.reg pTEL 0x100 = 0 ∨ !s.pgEn pTEL then s
    else
      let h := s.reg64 pTEL 0x800
      let n := fld (s.reg pTEL 0x10C) 0 20
      let bs := leBytes 8 s.pw.aonTime.toNat ++ (List.range 7).flatMap (fun i =>
        leBytes 8 (s.telValue (s.reg pTEL (0x110 + 4 * i)).toNat).toNat)
      let base := (s.reg pTEL 0x104).toNat + fld (s.reg pTEL 0x108) 0 8 * 2 ^ 32
      let s := if n = 0 then s else s.devWrite s.sysPart (base + 64 * (h.toNat % n)) bs
      s.setReg64 pTEL 0x800 (h + 1))

/-- MSIX_UNMASK (R586): a message that waited for the mask is sent. -/
def execMsixUnmask (vec : Fin 256) (s : State) : Host.Outcome State Fault Refusal :=
  ok (if s.mgt.d3 then s
      else
      let s := { s with msixMask := setBit s.msixMask vec false }
      if s.msixPend.getLsbD vec then
        ({ s with msixPend := setBit s.msixPend vec false }).signalVec (BitVec.ofNat 8 vec.val)
      else s)

end Sys2Proof.Machine
end

