-- ==== Sys2Proof/Machine/Journal.lean ====
section
/-! DEFINITION. The NV-write unit with its guard (03_power_clocks.md R88 to R92), the flash and fuse operations
(04_reset_boot.md R114, R116, R119), and the receipt journal (19_receipts.md R563 to R567). -/

namespace Sys2Proof.Machine

/-! ### Flash -/

/-- A byte of the flash. -/
def State.flash (s : State) (a : Nat) : Byte := sget 0xFF s.nv.flash a

/-- Bytes of the flash. -/
def State.flashRd (s : State) (a n : Nat) : List Byte := sgets 0xFF s.nv.flash a n

/-- Set bytes of the flash. -/
def State.flashWr (s : State) (a : Nat) (bs : List Byte) : State :=
  { s with nv := { s.nv with flash := ssets 0xFF s.nv.flash a bs } }

/-- Erase a 4 KiB sector. -/
def State.flashErase (s : State) (a : Nat) : State :=
  { s with nv := { s.nv with flash := s.nv.flash.filter (fun e => e.1 / 4096 != a / 4096) } }

/-- Is the 256-byte page at an offset blank (R91)? -/
def State.flashBlank (s : State) (a : Nat) : Bool := !s.nv.flash.any (fun e => e.1 / 256 == a / 256)

/-! ### The journal's place in the flash (R563, R567) -/

/-- Where the journal region begins. -/
abbrev journalBase : Nat := 0x850000

/-- Pages in the journal region (NVJ_PAGES). -/
def State.journalPages (s : State) : Nat := (s.nv.flashBytes - journalBase) / 256

/-- The flash offset of a journal page. -/
def journalOff (page : Nat) : Nat := journalBase + 256 * page

/-- Does a sector hold an entry at or above TAIL? -/
def State.sectorHeld (s : State) (sector : Nat) : Bool :=
  s.chk.pages.any (fun p => p.1 / 16 == sector && decide ((s.reg64 pNVJ 0x808).toNat ≤ p.2.2))

/-- The journal is full (R567): the next page is not erased, and its sector holds an entry at or above TAIL
(DEDUCED, log entry 87). -/
def State.journalFull (s : State) : Bool :=
  s.journalPages == 0
    || (s.chk.pages.any (fun p => p.1 == s.chk.nextPage) && s.sectorHeld (s.chk.nextPage / 16))

/-- The receipt ring's free slots are 64 or fewer (R559). -/
def State.ringLow (s : State) : Bool :=
  decide (32768 ≤ (s.reg64 pCHK 0x810).toNat - (s.reg64 pCHK 0x818).toNat + 64)

/-- CHK_MODE.STRICT. -/
def State.strict (s : State) : Bool := bit (s.reg pCHK 0x100) 3

/-- Generation is halted (R560). -/
def State.genHalted (s : State) : Bool := s.ringLow && s.strict

/-- Make a change, and raise the events of the conditions that it brings: JOURNAL_FULL, RING_LOW, generation halted. -/
def State.chkWatch (s : State) (f : State → State) : State :=
  let t := f s
  let t := if t.journalFull ∧ !s.journalFull then (t.raise pCHK 16).raise pNVJ 16 else t
  let t := if t.ringLow ∧ !s.ringLow then t.raise pCHK 17 else t
  if t.genHalted ∧ !s.genHalted then t.raise pCHK 19 else t

/-! ### NV operations -/

/-- The kind that AON_NV_LAST records: 0 page program, 1 fuse word, 2 erase. -/
def NvOp.kind : NvOp → Nat
  | .fuse .. => 1
  | .cmdErase _ => 2
  | .cmdProgram .. => 0
  | .journal .. => 0
  | .journalErase _ => 2
  | .train _ _ _ next => if next < 2 then 2 else 0

/-- The page that an operation programs, with its bytes. -/
def NvOp.page : NvOp → Option (Nat × List Byte)
  | .cmdProgram off bs => some (off, bs)
  | .journal p bs => some (journalOff p, bs)
  | .train st sl r next =>
    if 2 ≤ next then some (0x800000 + 0x4000 * st + 0x2000 * sl + 256 * (next - 2), (r.drop (256 * (next - 2))).take 256)
    else none
  | _ => none

/-- What the guard decides for an operation now: the status that refuses it (R88, R89) (DEDUCED, log entry 66). -/
def State.nvGuard (s : State) (op : NvOp) : Option (BitVec 16) :=
  let hold := fld (s.reg pAON 0x100) 0 16
  if hold = 0 then some stNV_HOLDUP
  else if s.pw.warn ≠ 0 then some stNV_SAG
  else if op.kind = 0 ∧ hold < (s.reg pAON 0x818).toNat + 50 then some stNV_HOLDUP
  else if op.kind = 1 ∧ hold < 450 then some stNV_HOLDUP
  else none

/-- AON_SUPPLY_STAT.NV_BLOCKED: a warn is asserted, or no hold-up time is set. -/
def State.nvBlocked (s : State) : Bool := s.pw.warn != 0 || fld (s.reg pAON 0x100) 0 16 == 0

/-- Put an operation at the front of the unit's queue. -/
def State.nvFront (s : State) (op : NvOp) : State := { s with nv := { s.nv with queue := op :: s.nv.queue } }

/-- The outcome of an NV write command (R114). A completed erase or program of an image partition clears its tries
(R108). -/
def State.nvCmdDone (s : State) (off : Nat) (st : BitVec 16) : State :=
  let s := s.setReg pNVJ 0x910 (BitVec.ofNat 32 (st.toNat * 2 ^ 16))
  if st = stOK then
    let s := s.inc pNVJ 0xF30
    if off < 0x400000 then s.setReg pAON 0x8B8 (putFld (s.reg pAON 0x8B8) 0 2 0)
    else if off < 0x800000 then s.setReg pAON 0x8B8 (putFld (s.reg pAON 0x8B8) 2 2 0)
    else s
  else s

/-- The requester of an operation that did not start learns why (R91, R92, R116, R565). -/
def State.nvRefused (s : State) (op : NvOp) (st : BitVec 16) : State :=
  match op with
  | .fuse .. => s.setReg pFUS 0xA0C (if st = stNV_SAG then 2 else 4)
  | .cmdErase off => s.nvCmdDone off st
  | .cmdProgram off _ => s.nvCmdDone off st
  | .journal p bs =>
    let s := (s.inc pNVJ 0xF18).raise pNVJ 17
    if st = stNOT_BLANK then
      let q := (p + 1) % max 1 s.journalPages
      ({ s with chk := { s.chk with nextPage := q } }).nvFront (.journal q bs)
    else { s with chk := { s.chk with refused := true } }
  | .journalErase _ => { (s.inc pNVJ 0xF18).raise pNVJ 17 with chk := { s.chk with refused := true } }
  | .train .. => s

/-- The unit takes its next operation, and starts it or refuses it, until one runs (R89 to R91). -/
def State.nvRun : Nat → State → State
  | 0, s => s
  | fuel + 1, s =>
    match s.nv.op, s.nv.queue with
    | none, op :: rest =>
      let s := { s with nv := { s.nv with queue := rest } }
      let last (s : State) (d : Nat) : State := s.setReg pAON 0x814 (BitVec.ofNat 32 (d + op.kind * 16))
      match s.nvGuard op with
      | some st =>
        let s := ((last s (if st = stNV_SAG then 1 else 2)).inc pAON 0xF10).raise pAON 25
        (s.nvRefused op st).nvRun fuel
      | none =>
        match op.page with
        | some (off, _) =>
          if s.flashBlank off then { last s 0 with nv := { s.nv with op := some op } }
          else ((last s 3).nvRefused op stNOT_BLANK).nvRun fuel
        | none => { last s 0 with nv := { s.nv with op := some op } }
    | _, _ => s

/-- Let the unit run on. -/
def State.nvGo (s : State) : State := s.nvRun (s.nv.queue.length + s.journalPages + 1)

/-- Submit an operation: it waits for the one under way (R89). -/
def State.nvSubmit (s : State) (op : NvOp) : State :=
  ({ s with nv := { s.nv with queue := s.nv.queue ++ [op] } }).nvGo

/-! ### Journal entries (R563, R564) -/

/-- The 64 bytes of a journal entry. -/
def journalEntry (kind : Nat) (ctx : Byte) (jseq time rst : Nat) (body : List Byte) : List Byte :=
  let head := leBytes 4 0x4C4E524A ++ [BitVec.ofNat 8 kind, ctx, 0, 0] ++ leBytes 8 jseq ++ leBytes 8 time ++ leBytes 4 rst
  let body := slice body 0 32
  head ++ leBytes 4 (crc32 (head ++ body)) ++ body

/-- Does a stored entry hold: its magic and CRC? -/
def journalValid (e : List Byte) : Bool := lef e 0 4 == 0x4C4E524A && lef e 0x1C 4 == crc32 (e.take 28 ++ e.drop 32)

/-- Stage one entry under the next JSEQ. -/
def State.stageEntry (s : State) (kind : Nat) (ctx : Byte) (body : List Byte) (slot : Option Nat) : State :=
  let e := journalEntry kind ctx s.chk.nextJseq.toNat s.pw.aonTime.toNat (s.reg pAON 0x88C).toNat body
  { s with chk := { s.chk with staged := s.chk.staged ++ [(e, slot)], nextJseq := s.chk.nextJseq + 1 } }

/-- Is a journal page handed to the NV-write unit? -/
def State.journalBusy (s : State) : Bool :=
  (s.nv.op.toList ++ s.nv.queue).any (fun o => match o with | .journal .. => true | _ => false)

/-- Stage what waits, up to four entries (R561, R564): a DROP entry goes ahead of the next receipt. -/
def State.stageAll (s : State) : Nat → State
  | 0 => s
  | fuel + 1 =>
    if s.journalBusy ∨ 4 ≤ s.chk.staged.length ∨ s.journalFull then s
    else if 0 < s.chk.drops then
      (({ s with chk := { s.chk with drops := 0 } }).stageEntry 2 0 (leBytes 8 s.chk.drops) none).stageAll fuel
    else match s.chk.jwait with
      | [] => s
      | (slot, x, d) :: rest =>
        (({ s with chk := { s.chk with jwait := rest } }).stageEntry 1 x d (some slot)).stageAll fuel

/-- Stage what waits. -/
def State.stage (s : State) : State := s.stageAll 4

/-- Program the staged entries into the next page. -/
def State.journalWrite (s : State) : State :=
  let s := { s with chk := { s.chk with refused := false } }
  let bs := s.chk.staged.flatMap (fun e => e.1)
  s.nvSubmit (.journal s.chk.nextPage (bs ++ List.replicate (256 - bs.length) 0xFF))

/-- Is a page due: four entries staged, or NVJ_FLUSH_TICKS since the first was (R564)? -/
def State.journalDue (s : State) : Bool :=
  match s.chk.staged with
  | [] => false
  | (e, _) :: _ => s.chk.staged.length == 4
      || decide (lef e 0x10 8 + fld (s.reg pNVJ 0x100) 0 16 ≤ s.pw.aonTime.toNat)

/-- JOURNAL_PAGE_WRITE (R564, R565). -/
def execJournalPageWrite (s : State) : Host.Outcome State Fault Refusal :=
  ok (if s.pgEn pNVJ ∧ s.journalDue ∧ !s.chk.refused ∧ !s.journalBusy ∧ !s.journalFull then s.journalWrite else s)

/-- Sectors whose entries all lie below TAIL are erased (R566). -/
def State.journalErases (s : State) : State :=
  let secs := (s.chk.pages.map (fun p => p.1 / 16)).eraseDups.filter (fun k => !s.sectorHeld k)
  secs.foldl (fun s k =>
    let op : NvOp := .journalErase (journalOff (16 * k))
    if (s.nv.op.toList ++ s.nv.queue).contains op then s else s.nvSubmit op) s

/-- Write JSTATE and JSEQ of a journaled receipt into its slot, and advance JPTR (R564). -/
def State.journaled (s : State) (e : List Byte) (slot : Nat) : State :=
  if slot < (s.reg64 pCHK 0x818).toNat then s
  else
    let base := (s.reg64 pCHK 0x110).toNat % 2 ^ 40 / 0x200000 * 0x200000
    let s := s.devWrite s.sysPart (base + 0x2000 * (slot % 32768) + 0x1FF0) (leBytes 8 1 ++ slice e 8 8)
    if (s.reg64 pCHK 0x820).toNat ≤ slot then s.setReg64 pCHK 0x820 (BitVec.ofNat 64 (slot + 1)) else s

/-- A journal page has been programmed (R564). -/
def State.journalDone (s : State) (page : Nat) (bs : List Byte) : State :=
  let es := s.chk.staged
  let lo := (es.head?.map (fun e => lef e.1 8 8)).getD 0
  let hi := (es.getLast?.map (fun e => lef e.1 8 8)).getD 0
  let s := s.flashWr (journalOff page) bs
  let s := (s.inc pNVJ 0xF08).inc pNVJ 0xF00 es.length
  let s := { s with chk := { s.chk with
              staged := [], nextPage := (page + 1) % max 1 s.journalPages
              pages := (s.chk.pages.filter (fun (q : Nat × Nat × Nat) => q.1 != page)) ++ [(page, lo, hi)] } }
  let s := s.setReg64 pNVJ 0x800 (BitVec.ofNat 64 (hi + 1))
  let s : State := es.foldl (fun s e => match e.2 with | some k => s.journaled e.1 k | none => s) s
  s.stage

/-! ### Completion of an operation (R90) -/

/-- A fuse word after programming (R119): the OR, or, where the read-back differs from it, what the read-back shows
beside the bits that were programmed before, which no programming takes back (R111) (DEDUCED, log entry 73). -/
def State.fuseDone (s : State) (w : BitVec 7) (v : Word32) (rb : Option Word32) : State :=
  let want := s.fuse w.toNat ||| v
  let got := rb.getD want
  let s := { s with nv := { s.nv with fuses := sset 0 s.nv.fuses w.toNat (s.fuse w.toNat ||| got) } }
  if got = want then (s.inc pFUS 0xF00).setReg pFUS 0xA0C 0 else s.setReg pFUS 0xA0C 8

/-- The operation under way completes, and the unit goes on. -/
def State.nvDone (s : State) (rb : Option Word32) : State :=
  match s.nv.op with
  | none => s
  | some op =>
    let s := { s with nv := { s.nv with op := none } }
    let s := match op with
      | .fuse w v => s.fuseDone w v rb
      | .cmdErase off => (s.flashErase off).nvCmdDone off stOK
      | .cmdProgram off bs => (s.flashWr off bs).nvCmdDone off stOK
      | .journal p bs => s.chkWatch (fun s => s.journalDone p bs)
      | .journalErase off =>
        s.chkWatch (fun s =>
          let k := (off - journalBase) / 4096
          let s := (s.flashErase off).inc pNVJ 0xF10
          ({ s with chk := { s.chk with pages := s.chk.pages.filter (fun p => p.1 / 16 != k) } }).stage)
      | .train st sl r next =>
        let s := match op.page with
          | some (off, bs) => s.flashWr off bs
          | none => s.flashErase (0x800000 + 0x4000 * st + 0x2000 * sl + 4096 * next)
        if next < 1 + (r.length + 255) / 256 then s.nvFront (.train st sl r (next + 1)) else s
    s.nvGo

/-- NV_OP_DONE (R90, R119): an operation of the NV-write unit completes; `readback` is a fuse word's. -/
def execNvOpDone (readback : Option Word32) (s : State) : Host.Outcome State Fault Refusal := ok (s.nvDone readback)

/-- JOURNAL_PAGE_DONE (R564). -/
def execJournalPageDone (s : State) : Host.Outcome State Fault Refusal :=
  ok (match s.nv.op with
    | some (.journal ..) => s.nvDone none
    | _ => s)

/-- JOURNAL_RESUBMIT (R565): what the guard refused is submitted again once NV_BLOCKED reads 0. -/
def execJournalResubmit (s : State) : Host.Outcome State Fault Refusal :=
  ok (if s.chk.refused ∧ !s.nvBlocked then
      let s := ({ s with chk := { s.chk with refused := false } }).journalErases
      if s.chk.staged.isEmpty ∨ s.journalBusy ∨ s.journalFull then s else s.journalWrite
    else s)

/-- A write of one word of NVJ_TAIL (R566). -/
def State.nvjTail (s : State) (hi : Bool) (v : Word32) : State :=
  s.chkWatch (fun s =>
    (s.ackWrite pNVJ 0x808 (s.reg64 pNVJ 0x800) hi v (fun s => s.inc pNVJ 0xF20)).journalErases.stage)

/-- NVJ_TAIL (R566). -/
def execNvjTail (r : Requester) (hi : Bool) (v : Word32) (s : State) : Host.Outcome State Fault Refusal :=
  ok (s.write r pNVJ (if hi then 0x80C else 0x808) (fun s => s.nvjTail hi v))

/-! ### Flash and fuse commands (R114, R119) -/

/-- Is an NV write command under way? -/
def State.nvCmdBusy (s : State) : Bool :=
  (s.nv.op.toList ++ s.nv.queue).any (fun o => match o with
    | .cmdErase _ => true
    | .cmdProgram .. => true
    | _ => false)

/-- The first check of R114 that fails (DEDUCED, log entry 75). -/
def State.nvCmdCheck (s : State) (program : Bool) : Option (BitVec 16) :=
  let off := (s.reg pNVJ 0x904).toNat
  let src := (s.reg64 pNVJ 0x908).toNat
  let n := if program then 256 else 4096
  let image := off / 0x400000
  if off % n ≠ 0 ∨ (program ∧ (src % 64 ≠ 0 ∨ memBytes < src + 256)) ∨ s.nv.flashBytes < off + n then some stBOUND
  else if 0x840000 ≤ off then some stDENIED
  else if (match s.nv.image with | some i => i.val == image | none => false) = true ∧ !bit (s.reg pAON 0x890) 19 then
    some stDENIED
  else if s.nvCmdBusy then some stBUSY
  else none

/-- A START of NVJ_NV_CMD (R114). -/
def State.nvCmd (s : State) (program : Bool) : State :=
  if !s.pgEn pNVJ then s
  else match s.nvCmdCheck program with
    | some st => s.setReg pNVJ 0x910 (BitVec.ofNat 32 (bnat s.nvCmdBusy + st.toNat * 2 ^ 16))
    | none =>
      let off := (s.reg pNVJ 0x904).toNat
      let s := s.setReg pNVJ 0x910 1
      if program then
        let (bs, _, s) := s.devRead s.sysPart (s.reg64 pNVJ 0x908).toNat 256
        s.nvSubmit (.cmdProgram off bs)
      else s.nvSubmit (.cmdErase off)

/-- ERASE (R114). -/
def execErase (r : Requester) (s : State) : Host.Outcome State Fault Refusal :=
  ok (s.write r pNVJ 0x900 (fun s => s.nvCmd false))

/-- NV_PROGRAM (R114). -/
def execNvProgram (r : Requester) (s : State) : Host.Outcome State Fault Refusal :=
  ok (s.write r pNVJ 0x900 (fun s => s.nvCmd true))

/-- Is a fuse word field-programmable (R117)? -/
def fuseField (w : Nat) : Bool := w == 44 || w == 45 || w == 46 || (decide (48 ≤ w) && decide (w ≤ 111))

/-- A write of FUS_PROG_CMD (R119) (DEDUCED, log entry 74). -/
def State.fusProg (s : State) (v : Word32) : State :=
  let w := fld (s.reg pFUS 0xA00) 0 7
  if v ≠ 0x46555345 ∨ bit (s.reg pFUS 0xA0C) 0 then s
  else if !bit (s.reg pFUS 0x100) 0 ∨ !fuseField w then s.setReg pFUS 0xA0C 6
  else (s.setReg pFUS 0xA0C 1).nvSubmit (.fuse (BitVec.ofNat 7 w) (s.reg pFUS 0xA04))

/-- FUS_PROG_CMD (R119). -/
def execFusProgCmd (r : Requester) (v : Word32) (s : State) : Host.Outcome State Fault Refusal :=
  ok (s.write r pFUS 0xA08 (fun s => s.fusProg v))

/-! ### Training records (R115, R116) -/

/-- A stack's two record slots in the flash. -/
def trainOff (stack slot : Nat) : Nat := 0x800000 + 0x4000 * stack + 0x2000 * slot

/-- The bytes of a training record: sequence, identity, temperature, settings and their CRC-32 (DEDUCED, log entry 31). -/
def trainRecord (seq vendor temp : Nat) (settings : List Byte) : List Byte :=
  let bs := leBytes 4 seq ++ leBytes 2 vendor ++ leBytes 2 temp ++ leBytes 2 settings.length ++ settings
  bs ++ leBytes 4 (crc32 bs)

/-- The record in a slot, if its CRC holds: sequence, identity, temperature, settings. -/
def State.trainRead (s : State) (stack slot : Nat) : Option (Nat × Nat × Nat × List Byte) :=
  let bs := s.flashRd (trainOff stack slot) 10
  let n := lef bs 8 2
  let all := s.flashRd (trainOff stack slot) (14 + n)
  if 14 + n ≤ 0x2000 ∧ lef all (10 + n) 4 = crc32 (all.take (10 + n)) then
    some (lef bs 0 4, lef bs 4 2, lef bs 6 2, (all.drop 10).take n)
  else none

/-- The slot that holds the newer valid record of a stack, with that record. -/
def State.trainNewest (s : State) (stack : Nat) : Option (Nat × Nat × Nat × Nat × List Byte) :=
  match s.trainRead stack 0, s.trainRead stack 1 with
  | some a, some b => if a.1 < b.1 then some (1, b) else some (0, a)
  | some a, none => some (0, a)
  | none, some b => some (1, b)
  | none, none => none

/-- TRAINING_RECORD_WRITE (R116): after READY, the record of a full training goes into the older or invalid slot. -/
def execTrainingRecordWrite (stack : Fin 8) (s : State) : Host.Outcome State Fault Refusal :=
  ok (if !bit (s.reg pAON 0x890) 16 then s
    else match s.nv.trainDue.find? (fun e => e.1 == stack.val) with
      | none => s
      | some (_, due) =>
        let g := s.stack stack
        let (slot, seq) := match s.trainNewest stack with
          | some (k, r) => (1 - k, r.1 + 1)
          | none => (0, 1)
        let s := { s with nv := { s.nv with trainDue := s.nv.trainDue.filter (fun e => e.1 != stack.val) } }
        s.nvSubmit (.train stack slot (trainRecord seq g.vendor.toNat (lef due 0 2) (due.drop 2)) 0))

end Sys2Proof.Machine
end

