-- ==== Sys2Proof/Machine/Receipts.lean ====
section
/-! DEFINITION. Jobs and receipts (19_receipts.md R542 to R554, R558 to R562, R568): intervals, spans, the commit
chain, seals and the receipt ring. -/

namespace Sys2Proof.Machine

/-! ### The ring (R558 to R561) -/

/-- The device address of a ring slot. -/
def State.ringSlot (s : State) (k : Nat) : Nat :=
  (s.reg64 pCHK 0x110).toNat % 2 ^ 40 / 0x200000 * 0x200000 + 0x2000 * (k % 32768)

/-- Is the receipt of a slot in a page handed to the NV-write unit? -/
def State.inPage (s : State) (k : Nat) : Bool := s.journalBusy && s.chk.staged.any (fun e => e.2 == some k)

/-- Drop the slot at TAIL (R561). -/
def State.ringDrop (s : State) : State :=
  let t := s.reg64 pCHK 0x818
  let j := s.reg64 pCHK 0x820
  let k := t.toNat
  let s := (s.setReg64 pCHK 0x818 (t + 1)).raise pCHK 18 |>.inc pCHK 0xF10
  if t ≠ j then s
  else
    let s := s.setReg64 pCHK 0x820 (j + 1)
    if s.inPage k then s
    else
      let s := s.inc pCHK 0xF18
      { s with chk := { s.chk with
          drops := s.chk.drops + 1
          jwait := s.chk.jwait.filter (fun e => e.1 != k)
          staged := if s.journalBusy then s.chk.staged else s.chk.staged.filter (fun e => e.2 != some k) } }

/-! ### Mode flags and digests (R551, R552, R554) -/

/-- Is a page locked? -/
def State.isLocked (s : State) (p : Nat) : Bool := (s.page p).locked

/-- Are the pages that CONFIG_LOCKED names locked for a context? -/
def State.configLocked (s : State) (x : CtxId) : Bool :=
  [pCHK, pFUS, pFAB, pCLX, pWPB, pTIER, pSCH, pCTX x].all s.isLocked
    && (s.ctx x).place.all (fun p => s.isLocked (pCORE p.core))

/-- The MODE flags of a receipt (R551). -/
def State.modeFlags (s : State) (x : CtxId) (j : Job) : Nat :=
  let poison := j.counts.poisonRetires != 0 || j.spans.any (fun p => p.poison)
  s.action.toNat + bnat (j.det && bit (s.reg pCHK 0x100) 2) * 2 ^ 2 + bnat s.strict * 2 ^ 3 + s.tolExp * 2 ^ 4
    + bnat j.modeChanged * 2 ^ 9 + bnat j.fast * 2 ^ 10 + bnat j.sentinel * 2 ^ 11
    + bnat (j.partd && s.parted) * 2 ^ 12 + bnat s.grouped * 2 ^ 13
    + bnat (j.cfgLocked && s.configLocked x) * 2 ^ 14 + bnat poison * 2 ^ 15 + bnat j.split * 2 ^ 16
    + bnat j.late * 2 ^ 17 + fld (s.fuse 24) 0 2 * 2 ^ 18 + Config.stepping.toNat * 2 ^ 20
    + fld (s.reg pAON 0x89C) 0 7 * 2 ^ 24 + (s.reg pAON 0x898).toNat * 2 ^ 32

/-- The SHA-256 of a declared region; of a region whose tensor is gone the spec gives none, and it is free. -/
def State.regionDigest (s : State) (x : CtxId) (b : Binding) : List Byte × State :=
  match s.tensor x b.tensor.toNat with
  | some (rn, r, rw) =>
    if b.offset + b.length ≤ r.size then
      let (bank, s) := s.bankFor x r
      let (bs, _, s) := s.recRead rn (bank.getD false) .default (s.tenantPart (s.ctx x).tenant) rw b.offset b.length
      (sha256 bs, s.hashed b.length)
    else (leBytes 32 s.freeVal, s.usedFree)
  | none => (leBytes 32 s.freeVal, s.usedFree)

/-- The digest over the regions of a role: zero with none (R554). -/
def State.roleDigest (s : State) (x : CtxId) (bs : List Binding) (out : Bool) : List Byte × State :=
  let mine := bs.filter (fun b => b.out == out)
  if mine.isEmpty then (zeroDigest, s)
  else
    let (ds, s) := mine.foldl (fun (a : List Byte × State) b =>
      let (d, t) := a.2.regionDigest x b
      (a.1 ++ d, t)) ([], s)
    (sha256 ds, s)

/-! ### The receipt (R546 to R549) -/

/-- The 64 bytes of a span entry. -/
def Span.bytes (p : Span) : List Byte :=
  [BitVec.ofNat 8 p.slot.val, BitVec.ofNat 8 (bnat p.poison)] ++ leBytes 2 p.model.toNat ++ leBytes 4 0
    ++ leBytes 8 p.version.toNat ++ leBytes 8 p.first.toNat ++ leBytes 8 p.steps.toNat ++ slice p.manifest 0 32

/-- The 80 bytes of the checksum summary (R547). -/
def Counts.bytes (n : Counts) : List Byte :=
  [n.arrOk, n.arrMismatch, n.arrRetryOk, n.arrUnchecked, n.swChecks, n.swMismatch, n.clxBlocks, n.clxMismatch,
    n.poisonRetires, n.tokens].flatMap (leBytes 8)

/-- The device key seed: fuse words 28 to 35 (R555). -/
def State.deviceSeed (s : State) : List Byte := (List.range 8).flatMap (fun i => leBytes 4 (s.fuse (28 + i)).toNat)

/-- The bytes of a receipt that its signature covers. The span entries begin at 0x180, the only place that fits L
(DEDUCED, log entry 32). -/
def State.receiptBody (s : State) (x : CtxId) (final : Bool) (st : BitVec 16) (j : Job) (out : List Byte) :
    List Byte :=
  let ins := (j.binds.filter (fun b => !b.out)).length
  let outs := if final then (j.binds.filter (fun b => b.out)).length else 0
  leBytes 4 0x54435052 ++ leBytes 2 1
    ++ [if final then 2 else 1, BitVec.ofNat 8 x.val, BitVec.ofNat 8 (s.ctx x).tenant, BitVec.ofNat 8 j.spans.length]
    ++ leBytes 2 (if final then st.toNat else 0) ++ leBytes 4 (0x1C0 + 64 * j.spans.length)
    ++ leBytes 4 (s.fuse 25).toNat ++ leBytes 4 (s.fuse 26).toNat ++ leBytes 8 j.jobId.toNat ++ leBytes 8 j.rseq.toNat
    ++ leBytes 4 (s.reg pFAB 0x104).toNat ++ leBytes 4 (s.reg pAON 0x88C).toNat ++ leBytes 8 j.began.toNat
    ++ leBytes 8 s.pw.aonTime.toNat ++ slice j.prev 0 32 ++ slice j.image 0 32 ++ slice j.inDigest 0 32 ++ slice out 0 32
    ++ leBytes 2 ins ++ leBytes 2 outs ++ leBytes 4 j.anlRuns ++ leBytes 8 (s.modeFlags x j)
    ++ leBytes 16 (s.ctx x).seed.toNat ++ leBytes 8 j.blocks ++ leBytes 8 0
    ++ (if j.anlRuns = 0 then zeroDigest else sha256 j.anlLogs) ++ j.counts.bytes ++ slice j.chain 0 32
    ++ j.spans.flatMap Span.bytes

/-- A new interval of a job begins now (R544): its counts and flags start again. -/
def State.newInterval (s : State) (x : CtxId) : State :=
  let locked := s.configLocked x
  s.modJob x (fun j => { j with
    began := s.pw.aonTime, counts := {}, spans := [], anlLogs := [], anlRuns := 0, blocks := 0
    det := bit (s.reg pCHK 0x100) 2, modeChanged := false, fast := false
    sentinel := (s.ctx x).place.any (fun p => (s.core p.core).ctx == some x && (s.core p.core).th.sentinel
      || (sget ({} : Thread) (s.ctx x).saves p.core.val).sentinel)
    partd := s.parted, cfgLocked := locked, split := false, late := false, sealHeld := false })

/-- Seal one receipt (R543 to R547): a slot is dropped first while the ring is low without STRICT (R561). -/
def State.sealOne (s : State) (x : CtxId) (final : Bool) (st : BitVec 16) : State :=
  if !(s.job x).live then s
  else s.chkWatch (fun s =>
    let s := if s.ringLow ∧ !s.strict then s.ringDrop else s
    let j := s.job x
    let (out, s) := if final then s.roleDigest x j.binds true else (zeroDigest, s)
    let body := s.receiptBody x final st j out
    let dig := sha256 body
    let sig := edSign s.deviceSeed body
    let s := (s.inc pSIG 0xF00 body.length).inc pSIG 0xF18
    let h := s.reg64 pCHK 0x810
    let a := s.ringSlot h.toNat
    let s := (s.devWrite s.sysPart a (body ++ sig)).devWrite s.sysPart (a + 0x1FF0) (List.replicate 16 0)
    let s := (s.setReg64 pCHK 0x810 (h + 1)).inc pCHK 0xF00
    let s := if final then s else s.inc pCHK 0xF08
    let s := { s with chk := { s.chk with jwait := s.chk.jwait ++ [(h.toNat, BitVec.ofNat 8 x.val, dig)] } }
    let s := s.modJob x (fun j => { j with prev := dig, rseq := j.rseq + 1 })
    let s := if bit (s.reg pCHK 0x804) 16 ∧ fld (s.reg pCHK 0x800) 0 6 = x.val then
        s.setReg pCHK 0x804 (BitVec.ofNat 32 (2 ^ 31)) else s
    (s.newInterval x).stage)

/-- An interim seal falls due: it is made at once, or held back while the ring is low under STRICT (R559). -/
def State.sealDue (s : State) (x : CtxId) : State :=
  if s.genHalted then s.modJob x (fun j => if j.live then { j with sealHeld := true } else j)
  else s.sealOne x false 0

/-- DEFERRED_SEAL (R559). -/
def execDeferredSeal (x : CtxId) (s : State) : Host.Outcome State Fault Refusal :=
  ok (if (s.job x).sealHeld ∧ !s.genHalted then s.sealOne x false 0 else s)

/-- A START of CHK_SEAL_CMD (R543). Without a job the spec names no status, and it is free (DESIGN CHOICE, log entry 27). -/
def State.sealCmd (s : State) (v : Word32) : State :=
  if !bit v 31 ∨ !s.pgEn pCHK then s
  else if bit (s.reg pCHK 0x804) 16 then s.setReg pCHK 0x804 (BitVec.ofNat 32 (stBUSY.toNat + 2 ^ 16 + 2 ^ 31))
  else
    let x : CtxId := ⟨fld v 0 6, Nat.mod_lt _ (by decide)⟩
    if !(s.job x).live then
      let (st, s) := s.openStatus
      s.setReg pCHK 0x804 (BitVec.ofNat 32 (st.toNat + 2 ^ 31))
    else ((s.setReg pCHK 0x800 (BitVec.ofNat 32 x.val)).setReg pCHK 0x804 (BitVec.ofNat 32 (2 ^ 16))).sealDue x

/-- CHK_SEAL_CMD (R543). -/
def execChkSealCmd (r : Requester) (v : Word32) (s : State) : Host.Outcome State Fault Refusal :=
  ok (s.write r pCHK 0x800 (fun s => s.sealCmd v))

/-- A write of one word of CHK_RING_TAIL (R558). -/
def State.ringTail (s : State) (hi : Bool) (v : Word32) : State :=
  s.chkWatch (fun s => s.ackWrite pCHK 0x818 (s.reg64 pCHK 0x820) hi v (fun s => s.inc pCHK 0xF20))

/-- CHK_RING_TAIL (R558). -/
def execChkRingTail (r : Requester) (hi : Bool) (v : Word32) (s : State) : Host.Outcome State Fault Refusal :=
  ok (s.write r pCHK (if hi then 0x81C else 0x818) (fun s => s.ringTail hi v))

/-- A write of CHK_MODE (R568). -/
def State.setMode (s : State) (v : Word32) : State :=
  let old := bit (s.reg pCHK 0x100) 2
  let err (st : BitVec 16) : State := s.setReg pCHK 0x80C (BitVec.ofNat 32 (st.toNat + 2 ^ 31))
  if bit v 2 ≠ old ∧ s.ctxs.any (fun e => e.2.state != .free && e.2.state != .idle) then err stCTX_BUSY
  else if bit v 2 ∧ fld v 0 2 = 0 then err stMODE_DENIED
  else
    let s := s.chkWatch (fun s => s.store pCHK 0x100 v)
    (List.finRange 64).foldl (fun s (x : CtxId) => s.modJob x (fun j =>
      if j.live then { j with modeChanged := true, det := j.det && bit v 2 } else j)) s

/-- CHK_MODE (R568). -/
def execChkMode (r : Requester) (v : Word32) (s : State) : Host.Outcome State Fault Refusal :=
  ok (s.write r pCHK 0x100 (fun s => s.setMode v))

/-! ### Spans (R549, R550, R562) -/

/-- The job's spans as they will stand once every step made current is recorded OK: how many, and slot and version of
the last one where it is OK (R549, R550). -/
def Job.spansAhead (j : Job) : Nat × Option (Fin 16 × Word64) :=
  let last := j.spans.getLast?.bind (fun p => if p.poison then none else some (p.slot, p.version))
  j.spanDue.foldl (fun a e => if a.2 = some (e.2.1, e.2.2.1) then a else (a.1 + 1, some (e.2.1, e.2.2.1))) (j.spans.length, last)

/-- Would a step of a version open a 65th span of the job (R562)? (DEDUCED, log entry 121) -/
def Job.opens65 (j : Job) (slot : Fin 16) (v : Word64) : Bool :=
  decide (64 ≤ j.spansAhead.1) && j.spansAhead.2 != some (slot, v)

/-- A step that is made current waits for its COMMIT to be recorded. -/
def State.spanBegin (s : State) (x : CtxId) (g : Fin 128) (slot : Fin 16) (v num : Word64) (dig : List Byte) : State :=
  s.modJob x (fun j => if j.live then { j with spanDue := j.spanDue ++ [(g, slot, v, num, dig)] } else j)

/-- A step is recorded in a span (R549); at 64 spans an interim seal falls due (R543). -/
def State.spanAdd (s : State) (x : CtxId) (slot : Fin 16) (v num : Word64) (dig : List Byte) (poison : Bool) : State :=
  let j := s.job x
  let same := match j.spans.getLast? with
    | some p => p.slot == slot && p.version == v && p.poison == poison
    | none => false
  if same then
    s.modJob x (fun j => { j with spans := match j.spans.getLast? with
      | some p => j.spans.dropLast ++ [{ p with steps := p.steps + 1 }]
      | none => j.spans })
  else
    let s := if 64 ≤ j.spans.length then s.sealOne x false 0 else s
    let p : Span := { slot := slot, poison := poison, model := BitVec.ofNat 16 (s.mdlId slot), version := v, first := num
                      steps := 1, manifest := dig }
    let s := s.modJob x (fun j => { j with spans := j.spans ++ [p] })
    if (s.job x).spans.length = 64 then s.sealDue x else s

/-- The COMMIT of a step gives its status, and the step is recorded (R550). -/
def State.spanEnd (s : State) (x : CtxId) (g : Fin 128) (num : Word64) (poison : Bool) : State :=
  match (s.job x).spanDue.find? (fun e => e.1 == g && e.2.2.2.1 == num) with
  | none => s
  | some (h, slot, v, n, dig) =>
    let s := s.modJob x (fun j => { j with spanDue := j.spanDue.erase (h, slot, v, n, dig) })
    s.spanAdd x slot v n dig poison

/-- The digest of the manifest of the bank that holds a version of a model slot (WPB_DIGEST). -/
def State.bankDigest (s : State) (m : Nat) (v : Word64) : List Byte :=
  let d := s.mdl m
  match d.bankOf v with
  | some b => ((d.bank b).mfst.map (fun f => mfDigest f.bytes)).getD zeroDigest
  | none => zeroDigest

/-- Seal the FINAL receipt of a job, its last steps recorded first (R543) (DEDUCED, log entry 121). -/
def State.sealFinal (s : State) (x : CtxId) (st : BitVec 16) : State :=
  let due := (s.job x).spanDue
  let s := s.modJob x (fun j => { j with spanDue := [] })
  let s : State := due.foldl (fun s e => s.spanAdd x e.2.1 e.2.2.1 e.2.2.2.1 e.2.2.2.2 false) s
  (s.sealOne x true st).modJob x (fun j => { j with live := false })

/-- A group commit of the context updates its chain value (R553). -/
def State.chainAdd (s : State) (x : CtxId) (r : List Byte) (tokens : Nat) : State :=
  s.modJob x (fun j => if j.live then
    { j with chain := sha256 (slice j.chain 0 32 ++ r), counts := { j.counts with tokens := j.counts.tokens + tokens } }
    else j)

end Sys2Proof.Machine
end

