-- ==== Sys2Proof/Machine/Barriers.lean ====
section
/-! DEFINITION. Barriers (08_streams.md R243 to R249; 12_fabric_transport.md R370): participants, arrivals, pod
barriers and their messages, stalls and aborts. The completion of a barrier, with what the engines tie to it, stands
in Phases.lean. -/

namespace Sys2Proof.Machine

/-! ### Groups of chips (R373) -/

/-- CLX_GROUPn. -/
def State.clxGroup (s : State) (n : Nat) : Word32 := s.reg pCLX (0x200 + 4 * n)

/-- The members of a group: N entries of its list, as device memory holds them now. -/
def State.members (s : State) (n : Nat) : List (BitVec 12) :=
  let base := (s.reg64 pCLX 0x108).toNat % 2 ^ 40 / 8192 * 8192 + 0x2000 * n
  (List.range (fld (s.clxGroup n) 16 13)).map (fun r =>
    BitVec.ofNat 12 ((s.devByte (base + 2 * r)).toNat + 256 * (s.devByte (base + 2 * r + 1)).toNat))

/-- The VALID group with a group ID. -/
def State.groupOf (s : State) (gid : Nat) : Option Nat :=
  (List.range 64).find? (fun n => bit (s.clxGroup n) 31 && fld (s.clxGroup n) 0 16 == gid)

/-- The chips of a group ID, of a VALID group with 1 to 4,096 members. -/
def State.podChips (s : State) (gid : Nat) : List (BitVec 12) :=
  match s.groupOf gid with
  | some n => s.members n
  | none => []

/-- The root of a group: its lowest address (R246). -/
def podRoot (cs : List (BitVec 12)) : Option (BitVec 12) :=
  cs.foldl (fun m c => match m with
    | none => some c
    | some a => if c.toNat < a.toNat then some c else some a) none

/-! ### Participants (R243, R433, R472, R490, R497) -/

/-- A barrier of a context. -/
def State.bar (s : State) (x b : Nat) : Barrier := sget {} (s.ctx x).bars b

/-- Change a barrier. -/
def State.modBar (s : State) (x b : Nat) (f : Barrier → Barrier) : State :=
  s.modCtx x (fun g => { g with bars := smod {} g.bars b f })

/-- The byte of EPS_CTX_BAR of a context. -/
def State.epsBar (s : State) (x : Nat) : Nat := fld (s.reg pEPS (0x180 + 4 * (x / 4))) (8 * (x % 4)) 8

/-- Is a barrier the step barrier of its context (R433)? -/
def State.isStepBar (s : State) (x b : Nat) : Bool := (s.epsBar x).testBit 7 && s.epsBar x % 64 == b

/-- TRN_Jj_CFG. -/
def State.trnCfg (s : State) (j : Nat) : Word32 := s.reg pTRN (0x100 + 0x40 * j)

/-- Is a learner job VALID on a context? -/
def State.trnOn (s : State) (j x : Nat) : Bool := bit (s.trnCfg j) 31 && fld (s.trnCfg j) 0 6 == x

/-- A learner job. -/
def State.trnJob (s : State) (j : Nat) : TrnJob := sget {} s.trn j

/-- ANL_CHn_CFG. -/
def State.anlCfg (s : State) (c : Nat) : Word32 := s.reg pANL (0x200 + 0x10 * c)

/-- ANL_CHn_BAR. -/
def State.anlBar (s : State) (c : Nat) : Word32 := s.reg pANL (0x204 + 0x10 * c)

/-- Is an annealer channel VALID and a context's? -/
def State.anlOn (s : State) (c x : Nat) : Bool :=
  bit (s.anlCfg c) 7 && !bit (s.anlCfg c) 6 && fld (s.anlCfg c) 0 6 == x

/-- The engines that take part in a barrier. -/
def State.barEngines (s : State) (x b : Nat) : List Engine :=
  (if s.isStepBar x b then [.eps] else [])
    ++ ((List.finRange 8).filter (fun (j : Fin 8) => s.trnOn j x && fld (s.trnCfg j) 25 6 == b)).map (fun j => Engine.trn j)
    ++ ((List.finRange 32).filter (fun (c : Fin 32) => s.anlOn c x && bit (s.anlBar c) 14 && fld (s.anlBar c) 8 6 == b)).map (fun c => Engine.anl c)

/-- BAR of a bucket entry (R496). -/
def bucketBar (e : List Byte) : Nat := lef e 0x40 1

/-- Does TRN hold its arrival at a bucket's barrier: a collective of that bucket has not completed (R499)? -/
def State.barHeld (s : State) (x b : Nat) : Bool :=
  (List.range 8).any (fun j => s.trnOn j x && (List.range (s.trnJob j).entries.length).any (fun k =>
    bucketBar ((s.trnJob j).entries.getD k []) == b && (sget ({} : Bucket) (s.trnJob j).buckets k).running))

/-- Have all participants of this chip arrived (R245)? -/
def State.barWhole (s : State) (x b : Nat) : Bool :=
  let k := s.bar x b
  !k.cores.isEmpty && k.cores.all (fun c => k.arrived.contains c)
    && (s.barEngines x b).all (fun e => k.engArrived.contains e) && !s.barHeld x b

/-! ### Instances -/

/-- A new instance: participants and the abort stand. -/
def Barrier.fresh (k : Barrier) : Barrier :=
  { k with arrived := [], engArrived := [], first := none, sent := false, released := false, ended := none
           passed := [], passedE := [] }

/-- The barrier's status reaches the BAR of a core. -/
def State.barTell (s : State) (x : CtxId) (b : Nat) (st : BitVec 16) (c : CoreId) : State :=
  s.modThread c x (fun t => match t.wait with
    | some (.bar sd q true none) => if q.val = b then { t with wait := some (.bar sd q true (some st)) } else t
    | _ => t)

/-- An ended instance gives way to a new one when it has ended for every participant. -/
def State.barTurn (s : State) (x b : Nat) : State :=
  let k := s.bar x b
  if k.ended.isSome ∧ k.cores.all (fun c => k.passed.contains c)
      ∧ (s.barEngines x b).all (fun e => k.passedE.contains e) then s.modBar x b Barrier.fresh
  else s

/-- An engine that has arrived at a barrier that moves no step arrives again for the next instance. -/
def State.engAgain (s : State) (x : CtxId) (b : Nat) : State :=
  let s := if s.isStepBar x b then
      { s with eps := { s.eps with ctxs := smod {} s.eps.ctxs x (fun e => { e with arrived := false }) } } else s
  (List.finRange 8).foldl (fun s (j : Fin 8) =>
    if s.trnOn j x ∧ fld (s.trnCfg j) 25 6 = b then
      { s with trn := smod {} s.trn j (fun t => { t with arrived := false }) } else s) s

/-- The instance under way ends early for those who have arrived (R247). -/
def State.barEnd (s : State) (x : CtxId) (b : Nat) (st : BitVec 16) : State :=
  let k := s.bar x b
  let s := k.arrived.foldl (fun s c => s.barTell x b st c) s
  let s := s.modBar x b (fun k => { k with ended := some st, passed := k.arrived, passedE := k.engArrived })
  (s.engAgain x b).barTurn x b

/-- Time of the first arrival; a step barrier counts from the arrival of EPS (R433). -/
def State.barFirst (s : State) (x b : Nat) (eps : Bool) : State :=
  if s.isStepBar x b ∧ !eps then s
  else s.modBar x b (fun k => if k.first.isSome then k else { k with first := some s.pw.aonTime })

/-! ### Pod barriers (R246) -/

/-- The header bytes that name a barrier or a collective (DEDUCED, log entry 33): GID, chip or rank, number, what it is. -/
def opExtra (gid who num kind : Nat) : List Byte :=
  leBytes 2 gid ++ leBytes 2 who ++ leBytes 4 num ++ leBytes 4 kind ++ List.replicate 16 0

/-- A message about a barrier. -/
def State.barMsg (s : State) (kind dest gid b : Nat) : Message :=
  { newMsg s kind dest with extra := opExtra gid 0 b 0 }

/-- The context whose barrier `b` is the pod barrier of a group ID (DEDUCED, log entry 109). -/
def State.podCtx (s : State) (gid b : Nat) : Option CtxId :=
  (List.finRange 64).find? (fun x => (s.bar x b).chips != 0 && (s.bar x b).group.toNat == gid)

/-- A pod barrier at its root. -/
def State.pod (s : State) (gid b : Nat) : Pod := sget {} s.fab.pods (64 * gid + b)

/-- Set a pod barrier. -/
def State.setPod (s : State) (gid b : Nat) (p : Pod) : State :=
  { s with fab := { s.fab with pods := sset {} s.fab.pods (64 * gid + b) p } }

/-- The release reaches this chip. -/
def State.podReleased (s : State) (gid b : Nat) : State :=
  match s.podCtx gid b with
  | some x => s.modBar x b (fun k => { k with released := k.sent && k.ended.isNone })
  | none => s

/-- A chip's arrival at the root: the last one releases every chip. -/
def State.podArrive (s : State) (gid b : Nat) (chip : BitVec 12) : State :=
  let cs := s.podChips gid
  let p := s.pod gid b
  let p : Pod := { arrived := if p.arrived.contains chip then p.arrived else p.arrived ++ [chip]
                   first := some (p.first.getD s.pw.aonTime) }
  if !cs.isEmpty ∧ cs.all (fun c => p.arrived.contains c) then
    let s := s.setPod gid b {}
    cs.foldl (fun s c =>
      if c.toNat = s.myAddr then s.podReleased gid b
      else (s.sendMsg (s.barMsg 0x05 c.toNat gid b) 0 (.engine 0x0D 0)).2) s
  else s.setPod gid b p

/-- Send this chip's arrival once its own participants have arrived. -/
def State.podCheck (s : State) (x : CtxId) (b : Nat) : State :=
  let k := s.bar x b
  if k.chips = 0 ∨ k.sent ∨ k.ended.isSome ∨ !s.barWhole x b then s
  else
    let gid := k.group.toNat
    match podRoot (s.podChips gid) with
    | none => s
    | some r =>
      let s := s.modBar x b (fun k => { k with sent := true })
      if r.toNat = s.myAddr then s.podArrive gid b r
      else (s.sendMsg (s.barMsg 0x04 r.toNat gid b) 0 (.engine 0x0D 0)).2

/-! ### Arrivals -/

/-- A core arrives (R244, R247, R248) (DEDUCED, log entry 107). -/
def State.coreArrive (s : State) (x : CtxId) (b : Nat) (c : CoreId) : State :=
  let k := s.bar x b
  if k.aborted then s.barTell x b stBARRIER_ABORT c
  else match k.ended with
    | some st =>
      if k.passed.contains c then s.modBar x b (fun k => { k with arrived := k.arrived ++ [c] })
      else ((s.barTell x b st c).modBar x b (fun k => { k with passed := k.passed ++ [c] })).barTurn x b
    | none =>
      ((s.modBar x b (fun k => { k with arrived := if k.arrived.contains c then k.arrived else k.arrived ++ [c] })).barFirst
        x b false).podCheck x b

/-- An engine arrives. -/
def State.engArrive (s : State) (x : CtxId) (b : Nat) (e : Engine) : State :=
  let k := s.bar x b
  match k.ended with
  | some _ => (s.modBar x b (fun k => { k with
      passedE := if k.passedE.contains e then k.passedE else k.passedE ++ [e] })).barTurn x b
  | none =>
    ((s.modBar x b (fun k => { k with
      engArrived := if k.engArrived.contains e then k.engArrived else k.engArrived ++ [e] })).barFirst x b
        (decide (e = .eps))).podCheck x b

/-- May a core use barrier `n` (R175, R243)? -/
def State.barDefined (s : State) (x : CtxId) (c : CoreId) (n : Nat) : Bool :=
  let k := s.bar x n
  decide (n < 64) && k.cores.contains c
    && (k.chips == 0 || (match s.groupOf k.group.toNat with
        | some g => fld (s.clxGroup g) 16 13 == k.chips
        | none => false))

/-- BAR (R173, R175, R243). -/
def execBar (o : YOp) (s : State) : Host.Outcome State Fault Refusal :=
  ok (issue o.core (encY 0x60 o) (fun s x _ =>
    if h : o.id8.toNat < 64 then
      if s.barDefined x o.core o.id8.toNat then
        .go { onCore := fun k => { k with th := { k.th with
                wait := some (.bar o.sd ⟨o.id8.toNat, h⟩ false none) } } }
      else .trap stBARRIER_UNDEF 0
    else .trap stBARRIER_UNDEF 0) s)

/-- Has every closing descriptor of a context retired on a core (R244)? -/
def Core.closed (k : Core) (x : CtxId) : Bool :=
  k.chans.all (fun h => h.2.ctx != some x || h.2.queue.all (fun d => !d.close))

/-! ### Stalls and aborts (R247, R248, R370) -/

/-- FAB_WDOG_PERIOD has passed since a time, with the watchdog's channel claimed (R369, R370). -/
def State.wdogOver (s : State) (first : Option (BitVec 48)) : Bool :=
  match first with
  | none => false
  | some t => (s.hwTmr 0x81).isSome && decide ((s.reg pFAB 0x124).toNat ≤ (s.pw.aonTime - t).toNat)

/-- A barrier of this chip stalls: the missing chip and core are recorded and logged (R247, R370)
(DEDUCED, log entry 108). -/
def State.barStalled (s : State) (x : CtxId) (b : Nat) (chip core : Nat) : State :=
  let s := s.setReg pFAB 0x808 (BitVec.ofNat 32 (chip + core * 2 ^ 12 + 2 ^ 31))
  ((s.inc pFAB 0xF70).detect cCONTAINED stSTALLED 0x0D 0 (some x) (chip + core * 2 ^ 12)).barEnd x b stSTALLED

/-- The lowest core of a barrier that has not arrived; 0xFF with none. -/
def State.lateCore (s : State) (x b : Nat) : Nat :=
  let k := s.bar x b
  let late := k.cores.filter (fun c => !k.arrived.contains c)
  late.foldl (fun m c => min m c.val) 0xFF

/-- BARRIER_STALL (R247): a barrier of this chip alone. -/
def execBarrierStall (x : CtxId) (b : Fin 64) (s : State) : Host.Outcome State Fault Refusal :=
  ok (
    let k := s.bar x b
    if k.chips = 0 ∧ k.ended.isNone ∧ s.wdogOver k.first ∧ !s.barWhole x b then
      s.barStalled x b s.myAddr (s.lateCore x b)
    else s)

/-- A pod barrier ends STALLED on this chip, naming a chip; the late core is known only on that chip. -/
def State.podStalled (s : State) (gid b : Nat) (chip : Nat) : State :=
  match s.podCtx gid b with
  | none => s
  | some x =>
    if (s.bar x b).ended.isSome then s
    else if chip = s.myAddr then s.barStalled x b chip (s.lateCore x b)
    else
      let v := s.freeVal; let s := s.usedFree
      s.barStalled x b chip (v % 256)

/-- An OP_ABORT about a barrier. -/
def State.sendBarAbort (s : State) (dest : BitVec 12) (gid chip b : Nat) (st : BitVec 16) : State :=
  s.sendPlain { newMsg s 0x06 dest.toNat with status := st, extra := opExtra gid chip b 0 } 0

/-- The root's watchdog over a pod barrier (R247, R370). -/
def State.podWatch (s : State) (gid b : Nat) : State :=
  let cs := s.podChips gid
  let p := s.pod gid b
  if !s.wdogOver p.first then s
  else match podRoot (cs.filter (fun c => !p.arrived.contains c)) with
    | none => s
    | some late =>
      let s := s.setPod gid b {}
      cs.foldl (fun s c =>
        if c.toNat = s.myAddr then s.podStalled gid b late.toNat
        else s.sendBarAbort c gid late.toNat b stSTALLED) s

/-- A barrier is aborted on this chip: pending and later BARs complete BARRIER_ABORT (R248). -/
def State.barAbort (s : State) (x : CtxId) (b : Nat) : State :=
  let k := s.bar x b
  let s := k.arrived.foldl (fun s c => s.barTell x b stBARRIER_ABORT c) s
  (s.modBar x b (fun k => { k.fresh with aborted := true })).engAgain x b

/-- An OP_ABORT about a barrier arrives (R248, R370). -/
def State.onBarAbort (s : State) (m : Message) : State :=
  let gid := hdr m 0x24 2
  let b := hdr m 0x28 4 % 64
  if m.status = stSTALLED then s.podStalled gid b (hdr m 0x26 2)
  else
    let s := s.setPod gid b {}
    match s.podCtx gid b with
    | some x => s.barAbort x b
    | none => s

/-- The program of a context ends: every pod barrier that it takes part in is aborted on the other chips (R248). -/
def State.barsEnd (s : State) (x : CtxId) : State :=
  let s : State := (s.ctx x).bars.foldl (fun s e =>
    if e.2.chips = 0 then s
    else
      let gid := e.2.group.toNat
      let s := s.setPod gid e.1 {}
      (s.podChips gid).foldl (fun s c =>
        if c.toNat = s.myAddr then s else s.sendBarAbort c gid s.myAddr e.1 stBARRIER_ABORT) s) s
  s.modCtx x (fun g => { g with bars := [] })

end Sys2Proof.Machine
end

