-- ==== Sys2Proof/Machine/Episodes.lean ====
section
/-! DEFINITION. Episodes (15_episodes.md R424 to R462): the episode table, events, records queued for Kitty, budgets,
and the commands of the EPS page. Steps stand in Steps.lean, Kitty in Kitty.lean. -/

namespace Sys2Proof.Machine

/-! ### Registers of groups and tenants -/

/-- A 64-bit banked register. -/
def State.breg64 (s : State) (n p o : Nat) : Word64 := s.breg n p (o + 4) ++ s.breg n p o

/-- Store a 64-bit banked register. -/
def State.setBreg64 (s : State) (n p o : Nat) (v : Word64) : State :=
  (s.setBreg n p o (v.setWidth 32)).setBreg n p (o + 4) (v.extractLsb' 32 32)

/-- EPS_G_CFG of a group. -/
def State.gCfg (s : State) (g : Nat) : Word32 := s.breg g pEPS 0x200
/-- CONTEXT of a group. -/
def State.gCtx (s : State) (g : Nat) : CtxId := ⟨fld (s.gCfg g) 0 6, Nat.mod_lt _ (by decide)⟩
/-- Is a group VALID? -/
def State.gOn (s : State) (g : Nat) : Bool := bit (s.gCfg g) 31
/-- HOME of a group. -/
def State.gHome (s : State) (g : Nat) : Bool := bit (s.gCfg g) 6
/-- DRAFTS of a group. -/
def State.gDrafts (s : State) (g : Nat) : Nat := fld (s.gCfg g) 7 4
/-- SLOTS of a group. -/
def State.gSlots (s : State) (g : Nat) : Nat := fld (s.gCfg g) 15 9
/-- Tensor IDs of a group. -/
def State.gCache (s : State) (g : Nat) : Nat := fld (s.breg g pEPS 0x204) 0 12
/-- SPEC tensor of a group. -/
def State.gSpec (s : State) (g : Nat) : Nat := fld (s.breg g pEPS 0x204) 16 12
/-- STEP tensor of a group. -/
def State.gStepT (s : State) (g : Nat) : Nat := fld (s.breg g pEPS 0x208) 0 12
/-- ENTRY_BYTES. -/
def State.gEntry (s : State) (g : Nat) : Nat := 64 * fld (s.breg g pEPS 0x20C) 0 16
/-- CAP. -/
def State.gCap (s : State) (g : Nat) : Nat := (s.breg g pEPS 0x210).toNat
/-- TAIL. -/
def State.gTail (s : State) (g : Nat) : Nat := fld (s.breg g pEPS 0x214) 0 16
/-- STATE_BYTES. -/
def State.gState (s : State) (g : Nat) : Nat := 64 * fld (s.breg g pEPS 0x214) 16 16
/-- SLOT_BYTES. -/
def State.slotBytes (s : State) (g : Nat) : Nat := s.gCap g * s.gEntry g + s.gState g
/-- Pipeline list of a group's model slot. -/
def State.gPipe (s : State) (g : Nat) : List (BitVec 12) := (s.mdl (s.groupMdl g)).pipe
/-- Does a group send Kitty records? -/
def State.gKit (s : State) (g : Nat) : Bool := bit (s.breg g pEPS 0x220) 16

/-- A group beyond its registers. -/
def State.egroup (s : State) (g : Nat) : EGroup := sget {} s.eps.groups g

/-- Change a group. -/
def State.modGroup (s : State) (g : Nat) (f : EGroup → EGroup) : State :=
  { s with eps := { s.eps with groups := smod {} s.eps.groups g f } }

/-- Change the steps of a context. -/
def State.modEpsCtx (s : State) (x : Nat) (f : EpsCtx → EpsCtx) : State :=
  { s with eps := { s.eps with ctxs := smod {} s.eps.ctxs x f } }

/-- The tenant of a context: of its program, or as it is configured before one begins (R518). -/
def State.epsTenant (s : State) (x : Nat) : Nat :=
  if (s.ctx x).begun then (s.ctx x).tenant else fld (s.reg (pCTX x) 0x100) 0 6

/-! ### Accesses by the engine -/

/-- Bytes of a context's tensor as EPS reads them: zeros where the tensor does not hold them. -/
def State.engRead (s : State) (x tid off n : Nat) : List Byte × Bool × State :=
  match s.tensor x tid with
  | some (rn, r, rw) =>
    if off + n ≤ r.size then s.recRead rn false .default (s.tenantPart (s.epsTenant x)) rw off n
    else (List.replicate n 0, false, s)
  | none => (List.replicate n 0, false, s)

/-- Bytes that EPS writes into a context's tensor; nothing where the tensor does not hold them. -/
def State.engWrite (s : State) (h : Hint) (x tid off : Nat) (bs : List Byte) (poison : Bool) : State :=
  match s.tensor x tid with
  | some (rn, r, _) =>
    if off + bs.length ≤ r.size then s.recWrite rn false h (s.tenantPart (s.epsTenant x)) poison off bs else s
  | none => s

/-- Copy 64-byte pieces between tensors of a context, each with its poison. -/
def State.engCopy (s : State) (h : Hint) (x src dst : Nat) : Nat → Nat → Nat → State
  | 0, _, _ => s
  | n + 1, a, b =>
    let (bs, po, s) := s.engRead x src a 64
    (s.engWrite h x dst b bs po).engCopy h x src dst n (a + 64) (b + 64)

/-- Copy 64-byte pieces of a tensor out to device memory, each with its poison. -/
def State.engOut (s : State) (x src : Nat) : Nat → Nat → Nat → State
  | 0, _, _ => s
  | n + 1, a, b =>
    let (bs, po, s) := s.engRead x src a 64
    (s.devWrite s.sysPart b bs po).engOut x src n (a + 64) (b + 64)

/-- EPS_AREA. -/
def State.epsArea (s : State) : Nat := (s.reg64 pEPS 0x100).toNat % 2 ^ 40 / 0x200000 * 0x200000

/-! ### Episodes and events -/

/-- An entry of the episode table. -/
def State.episode (s : State) (i : Nat) : Option Episode := sget none s.eps.eps i

/-- Set an entry of the episode table. -/
def State.setEpisode (s : State) (i : Nat) (e : Option Episode) : State :=
  { s with eps := { s.eps with eps := sset none s.eps.eps i e } }

/-- Change an episode. -/
def State.modEpisode (s : State) (i : Nat) (f : Episode → Episode) : State := s.setEpisode i ((s.episode i).map f)

/-- The live episode with an identity. -/
def State.findEpisode (s : State) (id : Word32) (epoch : BitVec 16) : Option (Nat × Episode) :=
  s.eps.eps.findSome? (fun e => match e.2 with
    | some p => if p.id = id ∧ p.epoch = epoch then some (e.1, p) else none
    | none => none)

/-- Write an event, or count it lost (Event record) (DEDUCED, log entry 124). -/
def State.epsEvent (s : State) (kind cause : Nat) (st : BitVec 16) (e : Episode) : State :=
  let h := s.reg64 pEPS 0x870
  if 32768 ≤ (h - s.reg64 pEPS 0x878).toNat then s.inc pEPS 0xF60
  else
    let bs : List Byte := leBytes 1 kind ++ leBytes 1 cause ++ leBytes 2 st.toNat ++ leBytes 4 e.id.toNat
      ++ leBytes 2 e.epoch.toNat ++ leBytes 1 e.ctx.val ++ leBytes 5 0 ++ leBytes 8 e.len ++ leBytes 8 s.pw.aonTime.toNat
    ((s.devWrite s.sysPart (s.epsArea + 0x100000 + 32 * (h.toNat % 32768)) bs).setReg64 pEPS 0x870 (h + 1)).raise pEPS 16

/-- An event of an episode as it stands. -/
def State.eventOf (s : State) (i kind : Nat) (st : BitVec 16) : State :=
  match s.episode i with
  | some e => s.epsEvent kind e.causes.toNat st e
  | none => s

/-! ### Records (R458) -/

/-- Queue a record of an episode's new history, in pieces of at most 65,532 tokens; reward and end go with the last
piece (DEDUCED, log entry 34). -/
def State.queueRec (s : State) (i : Nat) (reward : Word32) (final : Bool) : State :=
  match s.episode i with
  | none => s
  | some e =>
    if !s.gKit e.group then s
    else
      let n := e.len - e.recFrom
      let k := max 1 ((n + 65531) / 65532)
      let recs : List KRec := (List.range k).map (fun j =>
        { num := s.eps.nextRec + j, ep := i, first := e.recFrom + 65532 * j, count := min 65532 (n - 65532 * j)
          reward := if j + 1 = k then reward else 0, final := final && j + 1 == k, sent := false, full := false })
      let full := decide (65536 ≤ s.eps.recq.length)
      let s : State := { s with eps := { s.eps with recq := s.eps.recq ++ recs, nextRec := s.eps.nextRec + k } }
      let s := s.modEpisode i (fun e => { e with recFrom := e.len, recs := e.recs + k })
      if !full ∧ 65536 ≤ s.eps.recq.length then s.raise pEPS 17 else s

/-- An ended episode is freed once no record of it waits (R427, R459). -/
def State.freeEpisode (s : State) (i : Nat) : State :=
  match s.episode i with
  | some e => if e.state = .ended ∧ e.recs = 0 then s.setEpisode i none else s
  | none => s

/-- An episode ends: 1 COMPLETE, 2 CANCELLED, 3 FAILED. Its slot is free; a step in flight keeps the reservation and
commits nothing for it. -/
def State.endEpisode (s : State) (i : Nat) (fin : BitVec 2) (st : BitVec 16) : State :=
  match s.episode i with
  | none => s
  | some e =>
    let s := s.modGroup e.group (fun g => { g with
      slots := match e.slot with | some k => sset none g.slots k none | none => g.slots
      stepSlots := g.stepSlots.map (fun t => if t.ep = some i then { t with ep := none } else t) })
    let s := s.modEpisode i (fun e => { e with state := .ended, fin := fin, slot := none, husks := [], pauseAsk := false })
    let s := s.eventOf i 4 st
    let s := if fin = 2 then s.inc pEPS 0xF38 else s
    (s.queueRec i 0 true).freeEpisode i

/-! ### Budgets (R450, R451) -/

/-- A tenant's credit. -/
def State.credit (s : State) (t : Nat) : Nat := (s.breg64 t pEPS 0x848).toNat

/-- Set a tenant's credit. -/
def State.setCredit (s : State) (t n : Nat) : State := s.setBreg64 t pEPS 0x848 (BitVec.ofNat 64 n)

/-! ### Messages of EPS -/

/-- A message of EPS: GROUP, FLAGS, STEP and VERSION in its header. -/
def State.epsSend (s : State) (kind dest g flags : Nat) (num ver : Word64) (payload : List Byte) : State :=
  let m := newMsg s kind dest
  let m : Message := { m with
    extra := leBytes 2 g ++ leBytes 2 flags ++ leBytes 8 num.toNat ++ leBytes 8 ver.toNat ++ List.replicate 8 0
    payload := payload, poison := List.replicate ((payload.length + 63) / 64) false }
  (s.sendMsg m 0 (.engine 0x11 0)).2

/-! ### Pausing (R445 to R447) -/

/-- Start Husk for an episode on every stage: this chip's own at once, the others by HUSK. -/
def State.startHusk (s : State) (i : Nat) (e : Episode) (slot : Fin 256) : State :=
  (s.gPipe e.group).foldl (fun s c =>
    if c.toNat = s.myAddr then
      s.modGroup e.group (fun g => { g with
        husks := g.husks ++ [{ home := c, slot := slot, index := i }]
        info := match sget none g.info slot with
          | some q => if q.id = e.id ∧ q.epoch = e.epoch then sset none g.info slot (some { q with len := e.len }) else g.info
          | none => g.info })
    else s.epsSend 0x53 c.toNat e.group 0 0 0 (leBytes 2 slot.val ++ leBytes 2 i)) s

/-- An ACTIVE episode moves to PAUSING with causes (R445, R446): a record for OUTSIDE or HOST, and HUSK. -/
def State.pauseEpisode (s : State) (i : Nat) (causes : BitVec 3) : State :=
  match s.episode i with
  | none => s
  | some e => match e.slot with
    | none => s
    | some slot =>
      let s := s.modEpisode i (fun e => { e with
        state := .pausing, causes := e.causes ||| causes, pauseAsk := false, husks := s.gPipe e.group })
      let s := s.inc pEPS 0xF30
      let s := if causes &&& 3 = 0 then s else s.queueRec i 0 false
      s.startHusk i e slot

/-- A PAUSED episode without causes is READY. -/
def State.unpause (s : State) (i : Nat) : State :=
  match s.episode i with
  | some e =>
    if e.state = .paused ∧ e.causes = 0 then (s.modEpisode i (fun e => { e with state := .ready })).eventOf i 3 stOK
    else s
  | none => s

/-- A stage's HUSK_DONE reaches the home (R447): after the last one the slot is free and the episode PAUSED. -/
def State.huskDoneAt (s : State) (g : Fin 128) (stage : BitVec 12) (slot : Fin 256) : State :=
  let k := s.egroup g
  if k.gaveUp.contains (stage, slot) then s.modGroup g (fun k => { k with gaveUp := k.gaveUp.erase (stage, slot) })
  else match sget none k.slots slot with
    | none => s
    | some i => match s.episode i with
      | none => s
      | some e =>
        if e.state ≠ .pausing then s
        else
          let left := e.husks.filter (fun c => c != stage)
          let s := s.modEpisode i (fun e => { e with husks := left })
          if !left.isEmpty then s
          else
            let s := s.modGroup g (fun k => { k with slots := sset none k.slots slot none })
            if e.causes = 0 then
              (s.modEpisode i (fun e => { e with state := .ready, slot := none, summary := true })).eventOf i 3 stOK
            else (s.modEpisode i (fun e => { e with state := .paused, slot := none, summary := true })).eventOf i 2 stOK

/-! ### Commands of the EPS page -/

/-- EPS_ARGn. -/
def State.epsArg (s : State) (n : Nat) : Word32 := s.reg pEPS (0x804 + 4 * n)

/-- A command completes with a status. -/
def State.epsCmdDone (s : State) (st : BitVec 16) : State := s.setReg pEPS 0x81C (BitVec.ofNat 32 (st.toNat + 2 ^ 31))

/-- A status that the spec does not give is free (DESIGN CHOICE, log entry 27). -/
def State.epsOpen (s : State) : State :=
  let (st, s) := s.openStatus
  s.epsCmdDone st

/-- The lowest table index that holds no episode. -/
def State.freeIndex (s : State) : Option Nat := (List.range 16384).find? (fun i => (s.episode i).isNone)

/-- The identity of the next episode (R424) (DEDUCED, log entry 123). -/
def State.newIdentity (s : State) : Word32 × BitVec 16 × State :=
  let ep := s.eps.epoch.getD (BitVec.ofNat 16 (fld (s.reg pEPS 0x108) 0 16))
  let id := s.eps.nextId
  (id, ep, { s with eps := { s.eps with nextId := id + 1, epoch := some (if id = 0xFFFFFFFF then ep + 1 else ep) } })

/-- Mark history entries as EXTERNAL with VERSION 0 (R448). -/
def State.markExternal (s : State) (x tid : Nat) : Nat → Nat → State
  | 0, _ => s
  | n + 1, a =>
    ((s.engWrite .default x tid (a + 4) (leBytes 2 1) false).engWrite .default x tid (a + 8) (leBytes 8 0) false).markExternal
      x tid n (a + 16)

/-- START (R426). -/
def State.epsStart (s : State) : State :=
  let x := fld (s.epsArg 0) 0 6
  let g : Fin 128 := ⟨fld (s.epsArg 0) 8 7, Nat.mod_lt _ (by decide)⟩
  let tid := fld (s.epsArg 1) 0 12
  let off := (s.epsArg 2).toNat + (s.epsArg 3).toNat * 2 ^ 32
  let init := (s.epsArg 4).toNat
  let mx := (s.epsArg 5).toNat
  match s.freeIndex with
  | none => s.epsCmdDone stTABLE_FULL
  | some i =>
    if !s.gOn g ∨ !s.gHome g ∨ (s.gCtx g).val ≠ x ∨ !s.ctxValid x then s.epsCmdDone stGROUP_DENIED
    else
      let fits := match s.tensor x tid with
        | some (_, r, _) => decide (off + 16 * mx ≤ r.size)
        | none => false
      if !fits ∨ init = 0 ∨ mx < init then s.epsCmdDone stBOUND
      else
        let s := s.markExternal x tid init off
        let (last, _, s) := s.engRead x tid (off + 16 * (init - 1)) 4
        let (id, ep, s) := s.newIdentity
        let s := s.setEpisode i (some {
          id := id, epoch := ep, ctx := s.gCtx g, group := g, state := .ready, causes := 0, fin := 0, slot := none
          tensor := BitVec.ofNat 12 tid, off := off, len := init, maxLen := mx, last := BitVec.ofNat 32 (leNat last)
          summary := false, pauseAsk := false, recFrom := 0, recs := 0, husks := [] })
        let s := (s.setReg pEPS 0x820 id).setReg pEPS 0x824 (ep.setWidth 32)
        (s.eventOf i 1 stOK).epsCmdDone stOK

/-- The episode that ARG0 and ARG1 name. -/
def State.argEpisode (s : State) : Option (Nat × Episode) :=
  s.findEpisode (s.epsArg 0) (BitVec.ofNat 16 (fld (s.epsArg 1) 0 16))

/-- CANCEL (R453 to R456). -/
def State.epsCancel (s : State) : State :=
  match s.argEpisode with
  | none => s.epsCmdDone stNO_EPISODE
  | some (i, e) =>
    let fin (s : State) : State :=
      let (st, s) := s.openStatus
      (s.endEpisode i 2 st).epsCmdDone stOK
    match e.state with
    | .ended => s.epsCmdDone (if e.fin = 1 then stALREADY_COMPLETE else stNO_EPISODE)
    | .pausing =>
      fin (match e.slot with
        | some k => s.modGroup e.group (fun g => { g with gaveUp := g.gaveUp ++ e.husks.map (fun c => (c, k)) })
        | none => s)
    | .ready => fin s
    | .paused => fin s
    | .active => fin s

/-- PAUSE (R445). -/
def State.epsPause (s : State) : State :=
  match s.argEpisode with
  | none => s.epsCmdDone stNO_EPISODE
  | some (i, e) => match e.state with
    | .ended => s.epsCmdDone (if e.fin = 1 then stALREADY_COMPLETE else stNO_EPISODE)
    | .active => (s.modEpisode i (fun e => { e with pauseAsk := true })).epsCmdDone stOK
    | .ready =>
      (((s.modEpisode i (fun e => { e with state := .paused, causes := e.causes ||| 2 })).inc pEPS 0xF30).eventOf i 2
        stOK).epsCmdDone stOK
    | .pausing => (s.modEpisode i (fun e => { e with causes := e.causes ||| 2 })).epsCmdDone stOK
    | .paused => (s.modEpisode i (fun e => { e with causes := e.causes ||| 2 })).epsCmdDone stOK

/-- REPLY (R448). -/
def State.epsReply (s : State) : State :=
  match s.argEpisode with
  | none => s.epsCmdDone stNO_EPISODE
  | some (i, e) =>
    let n := (s.epsArg 2).toNat
    if e.state = .ended then s.epsCmdDone stNO_EPISODE
    else if !bit e.causes 0 then s.epsCmdDone stNOT_PAUSED
    else if e.maxLen < e.len + n then s.epsCmdDone stBOUND
    else
      let s := s.markExternal e.ctx e.tensor.toNat n (e.off + 16 * e.len)
      let (last, _, s) := s.engRead e.ctx e.tensor.toNat (e.off + 16 * (e.len + n - 1)) 4
      let s := s.modEpisode i (fun e => { e with
        len := e.len + n, causes := e.causes &&& 6, last := if n = 0 then e.last else BitVec.ofNat 32 (leNat last) })
      (s.unpause i).epsCmdDone stOK

/-- SCORE (R458). -/
def State.epsScore (s : State) : State :=
  match s.argEpisode with
  | none => s.epsCmdDone stNO_EPISODE
  | some (i, e) =>
    if e.state = .ended then s.epsCmdDone stNO_EPISODE else (s.queueRec i (s.epsArg 2) false).epsCmdDone stOK

/-- A write of EPS_CMD starts nothing while the page is disabled (DEDUCED, log entry 35). -/
def State.epsGo (s : State) (f : State → State) : State := if s.pgEn pEPS then f s else s

/-- A write of EPS_CMD. -/
def State.epsCmd (s : State) (v : Word32) : State :=
  let op := fld v 0 8
  if !bit v 31 then s
  else s.epsGo (fun s =>
    if op = 1 then s.epsStart
    else if op = 2 then s.epsCancel
    else if op = 3 then s.epsPause
    else if op = 4 then s.epsReply
    else if op = 5 then s.epsScore
    else s.epsOpen)

/-- START (R424, R426). -/
def execStart (r : Requester) (s : State) : Host.Outcome State Fault Refusal :=
  ok (s.write r pEPS 0x800 (fun s => s.epsGo State.epsStart))

/-- EPS CANCEL (R453 to R456). -/
def execEpsCancel (r : Requester) (s : State) : Host.Outcome State Fault Refusal :=
  ok (s.write r pEPS 0x800 (fun s => s.epsGo State.epsCancel))

/-- PAUSE (R445). -/
def execPause (r : Requester) (s : State) : Host.Outcome State Fault Refusal :=
  ok (s.write r pEPS 0x800 (fun s => s.epsGo State.epsPause))

/-- REPLY (R448). -/
def execReply (r : Requester) (s : State) : Host.Outcome State Fault Refusal :=
  ok (s.write r pEPS 0x800 (fun s => s.epsGo State.epsReply))

/-- SCORE (R458). -/
def execScore (r : Requester) (s : State) : Host.Outcome State Fault Refusal :=
  ok (s.write r pEPS 0x800 (fun s => s.epsGo State.epsScore))

/-! ### Configuration (R428, R429, R452) -/

/-- Does a context's tensor hold `n` bytes? -/
def State.holdsBytes (s : State) (x tid n : Nat) : Bool :=
  match s.tensor x tid with
  | some (_, r, _) => decide (n ≤ r.size)
  | none => false

/-- Give back the speculative region of a group. -/
def State.dropSpec (s : State) (g : Nat) : State :=
  let k := s.egroup g
  match k.spec with
  | none => s
  | some rn =>
    let s : State := { s with tier := { s.tier with
      maps := s.tier.maps.filter (fun (e : Nat × Option Mapping) => !(e.2.any (fun (m : Mapping) => m.recN == rn))) } }
    let c := fld (s.breg g pEPS 0x20C) 16 4
    let s := (s.freeRec rn).unclaimPool (s.epsTenant (s.gCtx g)) c 1 k.specUnits
    s.modGroup g (fun k => { k with spec := none, specUnits := [] })

/-- Claim the speculative region of a group and map it as its tensor SPEC (R301, R429). -/
def State.takeSpec (s : State) (g : Nat) (x : CtxId) : Option State :=
  let n := 2048 * s.gEntry g
  let c := fld (s.breg g pEPS 0x20C) 16 4
  match s.claimPool (s.epsTenant x) c 1 (unitsFor true n) with
  | none => none
  | some (us, s) => match s.newNumber (s.tier.recs.map (fun e => e.1)) 0 32768 with
    | (none, _) => none
    | (some rn, s) =>
      let s := s.setRec rn (some { owner := 65, size := n, pool := true, home := c, auto := false, units := us
                                   poison := false, banked := false, unitsB := [], cool := 0, dwell := 0, hits := 0 })
      let s : State := { s with tier := { s.tier with
        maps := sset none s.tier.maps (x.val * 4096 + s.gSpec g) (some { recN := rn, rw := true }) } }
      some (s.modGroup g (fun k => { k with spec := some rn, specUnits := us }))

/-- What the check of a group finds, before the claim (R428, R429; DEDUCED, log entry 36). -/
def State.groupFails (s : State) (g : Nat) (v : Word32) : Option (BitVec 16) :=
  let x := fld v 0 6
  let other (h : Nat) : Bool := h != g && s.gOn h && s.groupMdl h == fld v 11 4 && (s.gCtx h).val != x
  if 8 < fld v 7 4 ∨ fld v 15 9 = 0 ∨ 256 < fld v 15 9 ∨ (List.range 128).any other then some stDESC_INVALID
  else if s.gEntry g = 0 ∨ s.gCap g = 0 ∨ 65536 < 64 + s.gState g + s.gTail g * s.gEntry g
      ∨ !s.holdsBytes x (s.gCache g) (fld v 15 9 * s.slotBytes g)
      ∨ !s.holdsBytes x (s.gStepT g) (0x4000 * g + 0x2040) then some stBOUND
  else none

/-- A write of EPS_G_CFG of a group. -/
def State.groupCfg (s : State) (g : Nat) (w : Word32) : State :=
  let v := w &&& 0x80FFFFFF
  let off := v &&& 0x7FFFFFFF
  if !bit v 31 then (s.dropSpec g).setBreg g pEPS 0x200 off
  else if s.gOn g then s.setBreg g pEPS 0x200 v
  else
    let fail (st : BitVec 16) : State := (s.setBreg g pEPS 0x200 off).setBreg g pEPS 0x834 (st.setWidth 32)
    match s.groupFails g v with
    | some st => fail st
    | none =>
      let x : CtxId := ⟨fld v 0 6, Nat.mod_lt _ (by decide)⟩
      let good (s : State) : State := (s.setBreg g pEPS 0x200 v).setBreg g pEPS 0x834 0
      if fld v 7 4 = 0 then good s
      else match s.takeSpec g x with
        | some s => good s
        | none => fail stQUOTA_EXCEEDED

/-- EPS_GSEL. -/
def State.gSel (s : State) : Nat := fld (s.reg pEPS 0x830) 0 7

/-- EPS_GROUP_VALID (R429). -/
def execEpsGroupValid (r : Requester) (v : Word32) (s : State) : Host.Outcome State Fault Refusal :=
  ok (s.write r pEPS 0x200 (fun s => s.groupCfg s.gSel v))

/-- A write of EPS_PERIOD (R452): a channel is claimed for a period, and released with none. -/
def State.epsPeriod (s : State) (v : Word32) : State :=
  let s := s.setReg pEPS 0x10C v
  let due (s : State) (n : Nat) : State :=
    ((s.setTmr n 0xC v).setCmp n (s.pw.aonTime + v.setWidth 48)).setTmr n 0x10 1
  match s.hwTmr 0x82 with
  | some n => if v = 0 then s.freeChannel n else due s n
  | none =>
    if v = 0 then s.setReg pEPS 0x828 (setBit (s.reg pEPS 0x828) 16 false)
    else match s.claimHw 0x82 with
      | none => s.setReg pEPS 0x828 (setBit (s.reg pEPS 0x828) 16 true)
      | some (n, s) => due (s.setReg pEPS 0x828 (setBit (s.reg pEPS 0x828) 16 false)) n

/-- EPS_PERIOD (R452). -/
def execEpsPeriod (r : Requester) (v : Word32) (s : State) : Host.Outcome State Fault Refusal :=
  ok (s.write r pEPS 0x10C (fun s => s.epsPeriod v))

/-- A firing of the refill channel (R452). -/
def State.refill (s : State) : State :=
  let s : State := (List.range 64).foldl (fun (s : State) t =>
    let c := min (s.credit t + (s.breg64 t pEPS 0x850).toNat) (s.breg64 t pEPS 0x858).toNat
    s.setCredit t c) s
  s.eps.eps.foldl (fun s e =>
    (s.modEpisode e.1 (fun p => { p with causes := p.causes &&& 3 })).unpause e.1) s

end Sys2Proof.Machine
end

