-- ==== Sys2Proof/Machine/Steps.lean ====
section
/-! DEFINITION. Steps of batch groups (15_episodes.md R430 to R447, R457; 07_hj2_contract.md R206 to R208): opening,
the step barrier, emission, commit and Husk, and the order of EPS messages on a stage. -/

namespace Sys2Proof.Machine

/-! ### A step on a stage -/

/-- Entry `k` of the slot table in a step block. -/
def blockSlot (block : List Byte) (k : Nat) : List Byte := slice block (0x40 + 32 * k) 32

/-- Bytes of device memory as they stand. -/
def State.devBytes (s : State) (a n : Nat) : List Byte := (List.range n).map (fun i => s.devByte (a + i))

/-- The address of a summary (R446). -/
def State.summaryAt (s : State) (i : Nat) : Nat := s.epsArea + 0x400000 + 0x10000 * i

/-- What the stage knows of a slot once a step names it. VERSION of the last generated token goes on, or comes from
the summary that a resumed episode left here; none generated gives 0 (R446). -/
def State.seeSlot (s : State) (g k : Nat) (e : List Byte) : State :=
  let fl := e.getD 0 0
  if !bit fl 0 then s
  else
    let id := BitVec.ofNat 32 (lef e 4 4)
    let ep := BitVec.ofNat 16 (lef e 8 2)
    let sum := s.devBytes (s.summaryAt (lef e 12 2)) 64
    let ver := match sget none (s.egroup g).info k with
      | some q => if q.id = id ∧ q.epoch = ep then some q.ver else none
      | none => none
    let ver := ver.getD (if bit fl 2 ∧ lef sum 8 4 = id.toNat ∧ lef sum 12 2 = ep.toNat then BitVec.ofNat 64 (lef sum 0x18 8)
      else 0)
    s.modGroup g (fun q => { q with info := sset none q.info k (some { id := id, epoch := ep, len := lef e 0x10 8, ver := ver }) })

/-- A step joins the queue of its context on this chip, its block written into the step tensor (R431 to R433). -/
def State.takeStep (s : State) (g : Fin 128) (num ver : Word64) (block : List Byte) (home : BitVec 12) : State :=
  let x := s.gCtx g
  let s := s.engWrite .default x (s.gStepT g) (0x4000 * g.val) block false
  let s : State := (List.range 256).foldl (fun (s : State) k => s.seeSlot g k (blockSlot block k)) s
  s.modEpsCtx x (fun e => { e with queue := e.queue ++ [{ group := g, num := num, version := ver, block := block
                                                          home := home, emits := [], poison := false }] })

/-- Is a slot ACTIVE in a step (R436)? -/
def EStep.hasSlot (t : EStep) (k : Nat) : Bool := bit ((blockSlot t.block k).getD 0 0) 0

/-! ### Opening a step (R430, R431) -/

/-- Episodes of a group, with their table index. -/
def State.groupEpisodes (s : State) (g : Nat) : List (Nat × Episode) :=
  s.eps.eps.filterMap (fun e => match e.2 with
    | some p => if p.group.val = g then some (e.1, p) else none
    | none => none)

/-- May a step of a group open now, its turn apart (R430; 19_receipts.md R560)? -/
def State.openDue (s : State) (g : Nat) : Bool :=
  s.gOn g && s.gHome g && (s.egroup g).flight.isNone
    && (s.groupEpisodes g).any (fun e => e.2.state == .ready || e.2.state == .active)
    && decide (s.eps.recq.length < 65536) && (s.assignable (s.groupMdl g)).isSome && !s.genHalted

/-- Is it a group's turn: the first due group in ascending order after the last one served? -/
def State.openTurn (s : State) (g : Nat) : Bool :=
  s.openDue g && (List.range ((g + 127 - s.eps.lastOpen) % 128)).all (fun i => !s.openDue ((s.eps.lastOpen + 1 + i) % 128))

/-- The oldest READY episode of a group. -/
def State.oldestReady (s : State) (g : Nat) : Option Nat :=
  ((s.groupEpisodes g).foldl (fun (m : Option (Nat × Nat)) e =>
    let key := e.2.epoch.toNat * 2 ^ 32 + e.2.id.toNat
    if e.2.state ≠ .ready then m
    else match m with
      | none => some (key, e.1)
      | some b => if key < b.1 then some (key, e.1) else m) none).map (fun e => e.2)

/-- Fill the empty slots: the episodes placed now. -/
def State.fillSlots (s : State) (g : Nat) : Nat → List Nat → State × List Nat
  | 0, new => (s, new)
  | n + 1, new =>
    let k := s.gSlots g - (n + 1)
    if (sget none (s.egroup g).slots k).isSome then s.fillSlots g n new
    else match s.oldestReady g with
      | none => (s, new)
      | some i =>
        let s := s.modGroup g (fun q => { q with slots := sset none q.slots k (some i) })
        (s.modEpisode i (fun e => { e with state := .active, slot := some (Fin.ofNat 256 k) })).fillSlots g n (i :: new)

/-- Reserve budget slot by slot (R450): the step's slots, and the episodes whose reservation fails. -/
def State.reserveSlots (s : State) (g : Nat) : Nat → List StepSlot → List Nat → State × List StepSlot × List Nat
  | 0, got, short => (s, got.reverse, short.reverse)
  | n + 1, got, short =>
    let k := s.gSlots g - (n + 1)
    match sget none (s.egroup g).slots k with
    | none => s.reserveSlots g n got short
    | some i => match s.episode i with
      | none => s.reserveSlots g n got short
      | some e =>
        if e.state ≠ .active then s.reserveSlots g n got short
        else
          let t := s.epsTenant e.ctx
          let need := min (1 + s.gDrafts g) (e.maxLen - e.len)
          if s.credit t < need then s.reserveSlots g n got (i :: short)
          else (s.setCredit t (s.credit t - need)).reserveSlots g n
                 ({ slot := Fin.ofNat 256 k, ep := some i, id := e.id, epoch := e.epoch, reserve := need } :: got) short

/-- A slot table entry. -/
def slotEntry (e : Episode) (i : Nat) (isNew : Bool) : List Byte :=
  leBytes 1 (1 + 2 * bnat isNew + 4 * bnat e.summary) ++ leBytes 3 0 ++ leBytes 4 e.id.toNat ++ leBytes 2 e.epoch.toNat
    ++ leBytes 2 i ++ leBytes 4 0 ++ leBytes 8 e.len ++ leBytes 4 e.last.toNat ++ leBytes 4 0

/-- The step block and slot table. -/
def State.stepBlock (s : State) (g : Nat) (num ver : Word64) (ss : List StepSlot) (new : List Nat) : List Byte :=
  leBytes 8 num.toNat ++ leBytes 8 ver.toNat ++ leBytes 1 g ++ leBytes 1 (s.gDrafts g) ++ leBytes 2 ss.length ++ leBytes 44 0
    ++ (List.range 256).flatMap (fun k =>
      match (ss.find? (fun t => t.slot.val == k)).bind (fun t => t.ep) with
      | some i => match s.episode i with
        | some e => slotEntry e i (new.contains i)
        | none => leBytes 32 0
      | none => leBytes 32 0)

/-- Open a step of a group (R431). -/
def State.openStep (s : State) (g : Fin 128) : State :=
  let m := s.groupMdl g
  match s.assignable m with
  | none => s
  | some ver =>
    let s := s.modMdl m (fun d => { d with assigned := ver })
    let (s, new) := s.fillSlots g (s.gSlots g) []
    let (s, ss, short) := s.reserveSlots g (s.gSlots g) [] []
    let s : State := short.foldl (fun s i => s.pauseEpisode i 4) s
    let num := s.breg64 g pEPS 0x838
    let block := s.stepBlock g num ver ss new
    let s := s.setBreg64 g pEPS 0x838 (num + 1)
    let s := s.modGroup g (fun q => { q with flight := some (num, ver), stepSlots := ss, dones := [], poison := false, emits := [] })
    let s : State := { s with eps := { s.eps with lastOpen := g.val, opened := s.eps.opened ++ [g] } }
    let s : State := (s.gPipe g).foldl (fun s c =>
      if c.toNat = s.myAddr then s else s.epsSend 0x50 c.toNat g 0 num ver block) s
    s.takeStep g num ver block (BitVec.ofNat 12 s.myAddr)

/-- STEP_OPEN (R430, R431). -/
def execStepOpen (g : Fin 128) (s : State) : Host.Outcome State Fault Refusal :=
  ok (if s.pgEn pEPS ∧ s.openTurn g then s.engineEvent dEPS (fun s => s.openStep g) else s)

/-! ### Commit (R438 to R442, R457) -/

/-- The tokens that a slot commits: positions from 0 while they were emitted, to the first that ends, pauses or fills
the history (R439). -/
def State.takeTokens (s : State) (g : Nat) (e : Episode) (emits : List EmitRec) : Nat → List EmitRec → List EmitRec
  | 0, got => got.reverse
  | n + 1, got =>
    let p := got.length
    match emits.find? (fun r => r.draft.val == p) with
    | none => got.reverse
    | some r =>
      if e.maxLen < e.len + p + 1 then got.reverse
      else
        let stops := r.last || (decide (s.breg g pEPS 0x218 ≤ r.token) && decide (r.token ≤ s.breg g pEPS 0x21C))
          || e.len + p + 1 == e.maxLen
        if stops then (r :: got).reverse else s.takeTokens g e emits n (r :: got)

/-- A history entry (R440). -/
def historyEntry (r : EmitRec) (ver : Word64) : List Byte :=
  leBytes 4 r.token.toNat ++ leBytes 2 (2 * bnat (r.draft != 0) + 4 * bnat r.last) ++ leBytes 2 0 ++ leBytes 8 ver.toNat

/-- What the commit of one slot gives: its COMMIT byte, its part of the chain record, its tokens, and what follows
for its episode: end, or causes of a pause. -/
structure SlotCommit where
  slot : Fin 256
  byte : Nat
  entry : List Byte
  tokens : Nat
  ends : Option Nat
  pauses : Option (Nat × BitVec 3)

/-- Commit one slot (R439, R440, R451, R454, R457). -/
def State.commitSlot (s : State) (g : Nat) (ver : Word64) (poison : Bool) (emits : List EmitRec) (t : StepSlot) :
    SlotCommit × State :=
  let ten := s.epsTenant (s.gCtx g)
  let head (n : Nat) : List Byte := leBytes 4 t.id.toNat ++ leBytes 2 t.epoch.toNat ++ leBytes 1 n ++ leBytes 1 0
  let drafts := s.gDrafts g
  let nothing : SlotCommit := { slot := t.slot, byte := 0xFF, entry := head 0, tokens := 0, ends := none, pauses := none }
  let back (s : State) : State := (s.setCredit ten (s.credit ten + t.reserve)).inc pEPS 0xF18 drafts
  match t.ep.bind (fun i => (s.episode i).map (fun e => (i, e))) with
  | none => (nothing, back s)
  | some (i, e) =>
    let host : BitVec 3 := if e.pauseAsk then 2 else 0
    let still : SlotCommit := { nothing with pauses := if host = 0 then none else some (i, host) }
    if poison then (still, s.epsEvent 5 e.causes.toNat stINVALIDATED_POISON e |> back)
    else
      let mine := emits.filter (fun r => r.slot.toNat == t.slot.val)
      let toks := s.takeTokens g e mine (drafts + 1) []
      let n := toks.length
      if n = 0 then
        (still, back (if mine.any (fun r => r.draft == 0) then s else s.inc pEPS 0xF20))
      else
        let bytes := toks.flatMap (fun r => historyEntry r ver)
        let s := s.engWrite .default e.ctx e.tensor.toNat (e.off + 16 * e.len) bytes (toks.any (fun r => r.poison))
        let lastR := toks.getLast?.getD { slot := 0, draft := 0, token := 0, last := false, poison := false }
        let len := e.len + n
        let s := s.modEpisode i (fun e => { e with len := len, last := lastR.token })
        let s := s.setCredit ten (s.credit ten + (t.reserve - n))
        let s := s.setBreg64 ten pEPS 0x860 (s.breg64 ten pEPS 0x860 + BitVec.ofNat 64 n)
        let s := ((s.inc pEPS 0xF08 n).inc pEPS 0xF10 (n - 1)).inc pEPS 0xF18 (drafts - (n - 1))
        let done := lastR.last || len == e.maxLen
        let out : BitVec 3 := if s.breg g pEPS 0x218 ≤ lastR.token ∧ lastR.token ≤ s.breg g pEPS 0x21C then 1 else 0
        ({ slot := t.slot, byte := n - 1, entry := head n ++ bytes, tokens := n
           ends := if done then some i else none
           pauses := if done ∨ (out ||| host) = 0 then none else some (i, out ||| host) }, s)

/-- Commit the slots in ascending order. -/
def State.commitSlots (s : State) (g : Nat) (ver : Word64) (poison : Bool) (emits : List EmitRec) :
    List StepSlot → List SlotCommit × State
  | [] => ([], s)
  | t :: ts =>
    let (c, s) := s.commitSlot g ver poison emits t
    let (cs, s) := s.commitSlots g ver poison emits ts
    (c :: cs, s)

/-- A stage applies the COMMIT of a slot: accepted drafts are copied into the cache (R442), and what it knows of the
slot goes on. -/
def State.applySlot (s : State) (g : Nat) (ver : Word64) (slot k : Nat) : State :=
  match sget none (s.egroup g).info slot with
  | none => s
  | some q =>
    let x := s.gCtx g
    let s : State := (List.range k).foldl (fun (s : State) j =>
      s.engCopy .stream x (s.gSpec g) (s.gCache g) (s.gEntry g / 64) ((8 * slot + j) * s.gEntry g)
        (slot * s.slotBytes g + (q.len + j + 1) % max 1 (s.gCap g) * s.gEntry g)) s
    s.modGroup g (fun e => { e with info := sset none e.info slot (some { q with len := q.len + k + 1, ver := ver }) })

/-- A stage applies a COMMIT (R442; 19_receipts.md R550). -/
def State.applyCommit (s : State) (g : Fin 128) (num ver : Word64) (poison : Bool) (bytes : List Byte) : State :=
  let s : State := (List.range 256).foldl (fun (s : State) k =>
    let b := (bytes.getD k 0xFF).toNat
    if b ≤ 8 then s.applySlot g ver k b else s) s
  s.spanEnd (s.gCtx g) g num poison

/-- The home commits the step in flight of a group (R438 to R441, R451, R457; 19_receipts.md R553). -/
def State.commitStep (s : State) (g : Fin 128) : State :=
  let q := s.egroup g
  match q.flight with
  | none => s
  | some (num, ver) =>
    let (cs, s) := s.commitSlots g ver q.poison q.emits q.stepSlots
    let s := s.inc pEPS 0xF00
    let s := if q.poison then (s.inc pEPS 0xF40).raise pEPS 18 else s
    let bytes : List Byte := (List.range (max 1 (s.gSlots g))).map (fun k =>
      BitVec.ofNat 8 ((cs.find? (fun c => c.slot.val == k)).map (fun c => c.byte) |>.getD 0xFF))
    let record : List Byte := leBytes 8 num.toNat ++ leBytes 8 ver.toNat ++ leBytes 1 g.val ++ leBytes 1 (bnat q.poison)
      ++ leBytes 2 cs.length ++ cs.flatMap (fun c => c.entry)
    let s := s.chainAdd (s.gCtx g) record (cs.map (fun c => c.tokens)).sum
    let s : State := (s.gPipe g).foldl (fun s c =>
      if c.toNat = s.myAddr then s else s.epsSend 0x52 c.toNat g (bnat q.poison) num ver bytes) s
    let s := s.modGroup g (fun q => { q with flight := none, stepSlots := [], dones := [], poison := false, emits := [] })
    let s := s.applyCommit g num ver q.poison bytes
    let s : State := cs.foldl (fun (s : State) c => match (sget none (s.egroup g).slots c.slot).bind s.episode with
      | some e =>
        let a := 0x4000 * g.val + 0x40 + 32 * c.slot.val
        (s.engWrite .default (s.gCtx g) (s.gStepT g) (a + 0x10) (leBytes 8 e.len) false).engWrite .default (s.gCtx g)
          (s.gStepT g) (a + 0x18) (leBytes 4 e.last.toNat) false
      | none => s) s
    cs.foldl (fun (s : State) c =>
      let s := match c.ends with | some i => s.endEpisode i 1 stOK | none => s
      match c.pauses with | some (i, cause) => s.pauseEpisode i cause | none => s) s

/-- Commit every step whose turn it is: the oldest opened one, while STEP_DONE has come from every stage (R438). -/
def State.commitDue (s : State) : Nat → State
  | 0 => s
  | n + 1 => match s.eps.opened with
    | [] => s
    | g :: rest =>
      if (s.gPipe g).all (fun c => (s.egroup g).dones.contains c) then
        let s : State := { s with eps := { s.eps with opened := rest } }
        (s.commitStep g).commitDue n
      else s

/-- STEP_DONE of a stage reaches the home (R437, R438). -/
def State.stepDoneAt (s : State) (g : Fin 128) (num : Word64) (stage : BitVec 12) (poison : Bool) (emits : List EmitRec) :
    State :=
  match (s.egroup g).flight with
  | none => s
  | some (n, _) =>
    if n ≠ num then s
    else
      let s := s.modGroup g (fun q => { q with
        dones := if q.dones.contains stage then q.dones else q.dones ++ [stage]
        poison := q.poison || poison
        emits := if (s.gPipe g).getLast? = some stage then emits else q.emits })
      s.commitDue 128

/-! ### The step barrier (R433, R434, R437) -/

/-- Emit records as STEP_DONE carries them. -/
def emitBytes (es : List EmitRec) : List Byte :=
  es.flatMap (fun r => [r.slot, BitVec.ofNat 8 r.draft.val, BitVec.ofNat 8 (bnat r.last), 0] ++ leBytes 4 r.token.toNat)

/-- Emit records of a payload. -/
def parseEmits : Nat → List Byte → List EmitRec
  | 0, _ => []
  | n + 1, bs =>
    if bs.length < 8 then []
    else { slot := bs.getD 0 0, draft := Fin.ofNat 16 (lef bs 1 1), token := BitVec.ofNat 32 (lef bs 4 4)
           last := bit (bs.getD 2 0) 0, poison := false } :: parseEmits n (bs.drop 8)

/-- The current step of a context closes on this chip (R437). -/
def State.closeStep (s : State) (x : CtxId) : State :=
  match (s.epsCtx x).cur with
  | none => s
  | some t =>
    let s := s.modEpsCtx x (fun e => { e with cur := none })
    let poison := t.poison || t.emits.any (fun r => r.poison)
    let me := BitVec.ofNat 12 s.myAddr
    let s := s.settleBanks (s.groupMdl t.group)
    let emits := if (s.gPipe t.group).getLast? = some me then t.emits else []
    if t.home = me then s.stepDoneAt t.group t.num me poison emits
    else s.epsSend 0x51 t.home.toNat t.group (bnat poison) t.num t.version (if emits.isEmpty then [0] else emitBytes emits)

/-- The next queued step of a context becomes current (R434; 19_receipts.md R550). -/
def State.nextStep (s : State) (x : CtxId) : State :=
  let e := s.epsCtx x
  match e.queue with
  | [] => s.modEpsCtx x (fun e => { e with arrived := false })
  | t :: ts =>
    let m := s.groupMdl t.group
    let s := s.modEpsCtx x (fun e => { e with cur := some t, queue := ts, arrived := false })
    let s := (s.batchEnter m t.version).settleBanks m
    s.spanBegin x t.group (Fin.ofNat 16 m) t.version t.num (s.bankDigest m t.version)

/-- The step barrier of a context has completed (R434). -/
def State.stepTurn (s : State) (x : CtxId) : State := (s.closeStep x).nextStep x

/-- May EPS arrive at a context's step barrier (R433; 14_weights.md R420; 19_receipts.md R562)? -/
def State.epsReady (s : State) (x : CtxId) : Bool :=
  let e := s.epsCtx x
  let b := s.epsBar x % 64
  match e.queue.head? with
  | none => false
  | some t =>
    let m := s.groupMdl t.group
    let j := s.job x
    (s.epsBar x).testBit 7 && !e.arrived && (s.ctx x).begun && (s.ctx x).state != .ending
      && !((s.bar x b).ended.isSome && (s.bar x b).passedE.contains .eps)
      && s.cores.all (fun k => k.2.emitq.all (fun q => q.ctx != x)
          && (match k.2.emitWait with | some q => q.ctx != x | none => true))
      && !(s.mdl m).hold
      && !(j.sealHeld && j.opens65 (Fin.ofNat 16 m) t.version)

/-- EPS_STEP_ARRIVE (R433). -/
def execEpsStepArrive (x : CtxId) (s : State) : Host.Outcome State Fault Refusal :=
  ok (if s.epsReady x then
        s.engineEvent dEPS (fun s =>
          (s.modEpsCtx x (fun e => { e with arrived := true })).engArrive x (s.epsBar x % 64) .eps)
      else s)

/-! ### Emission (R206 to R208, R436) -/

/-- EMIT (R206 to R208). -/
def execEmit (o : YOp) (s : State) : Host.Outcome State Fault Refusal :=
  ok (issue o.core (encY 0x69 o) (fun s x k =>
    if (s.epsCtx x).cur.isNone then .trap stEMIT_NO_STEP 0
    else
      let q : EmitEntry := { ctx := x, slot := (k.th.s o.sa).setWidth 8, token := (k.th.s o.sb).setWidth 32
                             draft := Fin.ofNat 16 (fld o.imm 0 4), last := bit o.imm 4
                             poison := k.th.sp o.sa || k.th.sp o.sb }
      .go { reads := [(.s o.sa, 0), (.s o.sb, 0)]
            onCore := fun k => if k.emitq.length < 16 then { k with emitq := k.emitq ++ [q] }
              else { k with emitWait := some q } }) s)

/-- EPS keeps an emission of the current step, or counts it dropped (R436). -/
def State.keepEmit (s : State) (q : EmitEntry) : State :=
  match (s.epsCtx q.ctx).cur with
  | none => s.inc pEPS 0xF28
  | some t =>
    if !t.hasSlot q.slot.toNat ∨ t.emits.any (fun r => r.slot == q.slot && r.draft == q.draft) then s.inc pEPS 0xF28
    else
      let r : EmitRec := { slot := q.slot, draft := q.draft, token := q.token, last := q.last, poison := q.poison }
      s.modEpsCtx q.ctx (fun e => { e with cur := some { t with emits := t.emits ++ [r] } })

/-- EMIT_DRAIN (R207, R436): the oldest entry of a core's emit queue is taken, and an EMIT that waited enters. The
cycles of its freeze are not stated, and they are free. -/
def execEmitDrain (c : CoreId) (s : State) : Host.Outcome State Fault Refusal :=
  ok (match (s.core c).emitq with
    | [] => s
    | q :: rest =>
      s.engineEvent dEPS (fun s =>
        let s := match (s.core c).emitWait with
          | some w =>
            let n := s.freeVal; let s := s.usedFree
            ((s.modCore c (fun k => { k with emitq := rest ++ [w], emitWait := none })).inc (pCORE c) 0xF28 n).inc (pCORE c)
              0xF08 n
          | none => s.modCore c (fun k => { k with emitq := rest })
        s.keepEmit q))

/-! ### Messages in order (R432) -/

/-- Has every message of a source before `n` come, as far as the window tells (R432; DEDUCED, log entry 37)? -/
def Window.whole (w : Window) (n : Nat) : Bool :=
  let known (k : Nat) : Bool := (sget none w.outs k).isSome || w.seen.contains k
  let lo := if w.h ≤ 1024 then 1
    else (w.outs.map (fun e => e.1) ++ w.seen).foldl (fun m k => if w.h < k + 1024 then min m k else m) n
  (List.range (n - lo)).all (fun i => known (lo + i))

/-- HUSK on a stage (R446). -/
def State.takeHusk (s : State) (g : Fin 128) (home : BitVec 12) (slot : Fin 256) (i : Nat) : State :=
  s.modGroup g (fun q => { q with husks := q.husks ++ [{ home := home, slot := slot, index := i }] })

/-- A stage applies a message of its home. A group that is not VALID here takes nothing. -/
def State.epsApply (s : State) (m : Message) : State :=
  let g : Fin 128 := Fin.ofNat 128 (hdr m 0x24 2)
  let num := BitVec.ofNat 64 (hdr m 0x28 8)
  let ver := BitVec.ofNat 64 (hdr m 0x30 8)
  if !s.gOn g then s
  else if m.kind = 0x50 then s.takeStep g num ver (slice m.payload 0 0x2040) m.src
  else if m.kind = 0x52 then s.applyCommit g num ver (bit (hdr m 0x26 1 |> BitVec.ofNat 8) 0) m.payload
  else s.takeHusk g m.src (Fin.ofNat 256 (lef m.payload 0 2)) (lef m.payload 2 2)

/-- Apply the held EPS messages whose turn has come. -/
def State.epsRelease (s : State) : Nat → State
  | 0 => s
  | n + 1 =>
    match s.eps.held.find? (fun m => match sget none s.fab.windows m.src.toNat with
      | some w => w.boot != m.bootId || w.whole m.mseq.toNat
      | none => true) with
    | none => s
    | some m =>
      let s : State := { s with eps := { s.eps with held := s.eps.held.erase m } }
      (s.epsApply m).epsRelease n

/-- A windowed message, after which held EPS messages may go on. -/
def State.windowedE (s : State) (m : Message) (take : State → Taken) : State :=
  let s := s.windowed m take
  s.epsRelease s.eps.held.length

/-- An engine takes a message of its kind whenever its page is enabled (R353). -/
def State.engineTakeE (s : State) (m : Message) (page : Nat) (f : State → State) : State :=
  s.windowedE m (fun s => if s.pgEn page then .accept stOK (f s) else .refuse stDENIED s)

/-- A message of the home to this stage: it is applied in MSEQ order (R432). -/
def State.epsOrdered (s : State) (m : Message) : State :=
  s.engineMsg dEPS m (fun s => s.engineTakeE m pEPS (fun s => { s with eps := { s.eps with held := s.eps.held ++ [m] } }))

/-- STEP_OPEN_RX (R431, R432). -/
def execStepOpenRx (m : Message) (s : State) : Host.Outcome State Fault Refusal := ok (s.epsOrdered m)

/-- COMMIT (R442). -/
def execCommit (m : Message) (s : State) : Host.Outcome State Fault Refusal := ok (s.epsOrdered m)

/-- HUSK (R446). -/
def execHusk (m : Message) (s : State) : Host.Outcome State Fault Refusal := ok (s.epsOrdered m)

/-- STEP_DONE (R437, R438). -/
def execStepDone (m : Message) (s : State) : Host.Outcome State Fault Refusal :=
  ok (s.engineMsg dEPS m (fun s => s.engineTakeE m pEPS (fun s =>
    s.stepDoneAt (Fin.ofNat 128 (hdr m 0x24 2)) (BitVec.ofNat 64 (hdr m 0x28 8)) m.src
      (bit (hdr m 0x26 1 |> BitVec.ofNat 8) 0) (parseEmits m.payload.length m.payload))))

/-- HUSK_DONE (R447). -/
def execHuskDone (m : Message) (s : State) : Host.Outcome State Fault Refusal :=
  ok (s.engineMsg dEPS m (fun s => s.engineTakeE m pEPS (fun s =>
    s.huskDoneAt (Fin.ofNat 128 (hdr m 0x24 2)) m.src (Fin.ofNat 256 (lef m.payload 0 2)))))

/-! ### Husk (R446) -/

/-- What the stage knows of the slot: of a slot that no step has shown it, the values are free (DESIGN CHOICE, log entry 38). -/
def State.slotKnown (s : State) (g slot : Nat) : SlotInfo × State :=
  match sget none (s.egroup g).info slot with
  | some q => (q, s)
  | none =>
    let a := s.freeVal; let s := s.usedFree
    let b := s.freeVal; let s := s.usedFree
    let c := s.freeVal; let s := s.usedFree
    let d := s.freeVal; let s := s.usedFree
    ({ id := BitVec.ofNat 32 a, epoch := BitVec.ofNat 16 b, len := c, ver := BitVec.ofNat 64 d }, s)

/-- Copy a slot's state block and last entries into the summary, and answer HUSK_DONE (R446). -/
def State.runHusk (s : State) (g : Fin 128) (h : Husk) : State :=
  let x := s.gCtx g
  let (q, s) := s.slotKnown g h.slot
  let a := s.summaryAt h.index
  let base := h.slot.val * s.slotBytes g
  let n := min (s.gTail g) q.len
  let bytes := 64 + s.gState g + n * s.gEntry g
  let head : List Byte := leBytes 4 0x4B535548 ++ leBytes 4 bytes ++ leBytes 4 q.id.toNat ++ leBytes 2 q.epoch.toNat
    ++ leBytes 1 g.val ++ leBytes 1 0 ++ leBytes 8 q.len ++ leBytes 8 q.ver.toNat ++ leBytes 4 (s.gState g) ++ leBytes 4 n
    ++ leBytes 24 0
  let s := s.devWrite s.sysPart a head
  let s := s.engOut x (s.gCache g) (s.gState g / 64) (base + s.gCap g * s.gEntry g) (a + 64)
  let s : State := (List.range n).foldl (fun (s : State) i =>
    s.engOut x (s.gCache g) (s.gEntry g / 64) (base + (q.len - n + i) % max 1 (s.gCap g) * s.gEntry g)
      (a + 64 + s.gState g + i * s.gEntry g)) s
  let s := s.inc pEPS 0xF48 bytes
  let s := s.modGroup g (fun e => { e with husks := e.husks.erase h, info := sset none e.info h.slot none })
  if h.home.toNat = s.myAddr then s.huskDoneAt g h.home h.slot
  else s.epsSend 0x54 h.home.toNat g 0 0 0 (leBytes 2 h.slot.val)

/-- HUSK_COMPLETE (R446). -/
def execHuskComplete (g : Fin 128) (slot : Fin 256) (s : State) : Host.Outcome State Fault Refusal :=
  ok (match (s.egroup g).husks.find? (fun h => h.slot == slot) with
    | some h => s.engineEvent dEPS (fun s => s.runHusk g h)
    | none => s)

/-! ### The end of a context (R427) -/

/-- A context's program ends: its live episodes end FAILED, and its steps leave the chip. -/
def State.epsCtxEnd (s : State) (x : CtxId) (st : BitVec 16) : State :=
  let ms := ((s.epsCtx x).cur.toList ++ (s.epsCtx x).queue).map (fun t => s.groupMdl t.group)
  let gone : List (Fin 128) := (List.finRange 128).filter (fun (g : Fin 128) => (s.egroup g).flight.isSome && s.gCtx g == x)
  let s : State := gone.foldl (fun (s : State) (g : Fin 128) =>
    let ten := s.epsTenant x
    let n := ((s.egroup g).stepSlots.map (fun t => t.reserve)).sum
    (s.setCredit ten (s.credit ten + n)).modGroup g (fun q => { q with
      flight := none, stepSlots := [], dones := [], poison := false, emits := [] })) s
  let s : State := { s with eps := { s.eps with opened := s.eps.opened.filter (fun g => !gone.contains g) } }
  let s := s.modEpsCtx x (fun _ => {})
  let s : State := s.eps.eps.foldl (fun (s : State) e => match e.2 with
    | some p => if p.ctx = x ∧ p.state ≠ .ended then s.endEpisode e.1 3 st else s
    | none => s) s
  let s : State := ms.foldl (fun (s : State) m => s.settleBanks m) s
  s.commitDue 128

end Sys2Proof.Machine
end

