-- ==== Sys2Proof/Machine/Weights.lean ====
section
/-! DEFINITION. The commands and messages of weight publication (14_weights.md R394 to R423) over Banks.lean: PUBLISH,
RELEASE and ABANDON, the messages of WPB, verification of manifests and chunks, and the events of its clocks. -/

namespace Sys2Proof.Machine

/-! ### Model slots (The manifest; R398, R403) -/

/-- A little-endian field of device memory as it stands, outside the counters. -/
def State.devField (s : State) (a n : Nat) : Nat := leNat ((List.range n).map (fun i => s.devByte (a + i)))

/-- WPB makes a record of a model slot hold two banks, the second from its owner's quota (R398; DEDUCED, log entry 43). -/
def State.makeBanked (s : State) (rn : Nat) : State :=
  match s.trec rn with
  | none => s
  | some r =>
    if r.banked then s
    else
      let n := r.units.length
      if s.room r.pool r.owner r.home < n then s
      else match s.allocUnits r.pool r.home r.owner n [] with
        | none => s
        | some (us, s) => s.modRec rn (fun r => { r with banked := true, unitsB := us })

/-- A model slot becomes VALID: its map area is read (DEDUCED, log entry 43). -/
def State.mdlOpen (s : State) (m : Nat) : State :=
  let base := s.mdlMap m
  let n := fld (s.mdlReg m 4) 16 7
  let pipe := (List.range n).map (fun i => BitVec.ofNat 12 (s.devField (base + 2 * i) 2))
  let tmap : List TmapEntry := (List.range (min 1024 (s.devField (base + 0x100) 4))).map (fun i =>
    { layer := s.devField (base + 0x108 + 8 * i) 2, index := s.devField (base + 0x10A + 8 * i) 2
      recN := s.devField (base + 0x10C + 8 * i) 2 % 32768 })
  let stages := (List.range n).map (fun i =>
    (s.devField (base + 0x2200 + 8 * i) 2, s.devField (base + 0x2202 + 8 * i) 2, s.devField (base + 0x2204 + 8 * i) 1 % 64))
  let s := s.modMdl m (fun d => { top := d.top, pipe := pipe, tmap := tmap, stages := stages })
  tmap.foldl (fun (s : State) e => s.makeBanked e.recN) s

/-- The cluster of a slot's staging buffers. -/
def State.stageCluster (s : State) (m : Nat) : Nat := fld (s.mdlReg m 0x18) 8 4

/-- A slot that is VALID no longer keeps nothing but the highest version it has verified since reset (R406). -/
def State.mdlClose (s : State) (m : Nat) : State :=
  let s := s.endHold m false
  let s : State := (s.mdl m).staged.foldl (fun (s : State) g =>
    s.unclaimPool (s.mdlOwner m) (s.stageCluster m) 2 g.units) s
  s.modMdl m (fun d => { top := d.top })

/-- A write of WPB_MDLm_ID. -/
def State.mdlIdWrite (s : State) (m : Nat) (v : Word32) : State :=
  let was := s.mdlValid m
  let s := if was ∧ !bit v 31 then s.mdlClose m else s
  let s := s.store pWPB (0x200 + 0x20 * m) v
  if !was ∧ bit v 31 then s.mdlOpen m else s

/-- The VALID slot of a MODEL. -/
def State.slotOfModel (s : State) (model : Nat) : Option Nat :=
  (List.range 16).find? (fun m => s.mdlValid m && s.mdlId m == model)

/-! ### Commands (R399 to R402, R412) -/

/-- WPB_ARGn. -/
def State.wpbArg (s : State) (n : Nat) : Word32 := s.reg pWPB (0x804 + 4 * n)

/-- A WPB command completes. -/
def State.wpbDone (s : State) (st : BitVec 16) : State := s.setReg pWPB 0x81C (BitVec.ofNat 32 (st.toNat + 2 ^ 31))

/-- A WPB command completes with a status that the spec does not give: it is free (DESIGN CHOICE, log entry 27). -/
def State.wpbOpen (s : State) : State :=
  let (st, s) := s.openStatus
  s.wpbDone st

/-- A command starts while the page is enabled and none runs; a START while one runs reads BUSY. -/
def State.wpbStart (s : State) (f : State → State) : State :=
  if !s.pgEn pWPB then s
  else if s.wpb.publishing.isSome ∨ s.wpb.asked.isSome then
    s.setReg pWPB 0x81C (BitVec.ofNat 32 (stBUSY.toNat + 2 ^ 16 + 2 ^ 31))
  else f s

/-- The tree of the stage that holds a layer. -/
def Mdl.treeOf (d : Mdl) (layer : Nat) : Option Nat :=
  (d.stages.find? (fun e => decide (e.1 ≤ layer) && decide (layer ≤ e.2.1))).map (fun e => e.2.2)

/-- The bytes that a host read gave of a chunk. -/
def chunkBytes (cs : List HostChunk) (c : Nat) : Option (List Byte) :=
  match cs.find? (fun h => h.index == c) with
  | some h => (match h.data with | .bytes bs => if bs.isEmpty then none else some (bs.take 1048576) | _ => none)
  | none => none

/-- Send the manifest in parts of at most 1 MiB (R401). -/
def State.sendParts (s : State) (tree model len : Nat) (v : Word64) : Nat → Nat → List Byte → State
  | 0, _, _ => s
  | n + 1, off, bs =>
    if bs.isEmpty then s
    else
      let m := { s.wpbMsg 0x20 tree model 0 off len v (bs.take 1048576) with mc := true }
      (s.wpbSend m).sendParts tree model len v n (off + 1048576) (bs.drop 1048576)

/-- Send a publication (R401, R402). -/
def State.sendPub (s : State) (m : Fin 16) (mb : List Byte) (list : List (Nat × Nat)) (cs : List HostChunk) : State :=
  let d := s.mdl m
  let tree := fld (s.mdlReg m 4) 0 6
  let v := mfVersion mb
  let s := s.sendParts tree (s.mdlId m) mb.length v (mb.length / 1048576 + 1) 0 mb
  let s : State := list.foldl (fun (s : State) (e : Nat × Nat) =>
    match chunkBytes cs e.1, (mfTensorOf mb e.1).bind (fun t => d.treeOf t.layer) with
    | some bs, some t =>
      (s.inc pHIF 0xF10 bs.length).wpbSend { s.wpbMsg 0x21 t (s.mdlId m) 0 e.1 0 v bs with mc := true }
    | _, _ => s) s
  let s := s.wpbSend { s.wpbMsg 0x22 tree (s.mdlId m) 0 0 list.length v [0] with mc := true }
  let p : Pub := { version := v, list := list }
  let s := s.modMdl m (fun d => { d with pubs := (d.pubs ++ [p]).drop (d.pubs.length - 1) })
  { s.setReg pWPB 0x81C (BitVec.ofNat 32 (2 ^ 16)) with wpb := { s.wpb with publishing := some m } }

/-- PUBLISH with what it reads from host memory (R399, R400); what it cannot read leaves its status open (DESIGN CHOICE, log entry
27). -/
def State.publish (s : State) (m : Fin 16) (manifest list : HostRead) (cs : List HostChunk) : State :=
  let s := { s with wpb := { s.wpb with asked := none } }
  if s.myAddr ≠ fld (s.reg pWPB 0x108) 0 12 then s.wpbDone stNOT_SOURCE
  else if !s.mdlValid m then s.wpbOpen
  else match manifest, list with
    | .bytes mb, .bytes lb =>
      let len := (s.wpbArg 2).toNat
      let n := (s.wpbArg 5).toNat
      let mb := slice mb 0 len
      let lb := slice lb 0 (16 * n)
      let s := s.inc pHIF 0xF10 (len + 16 * n)
      let es := (List.range n).map (fun i => (lef lb (16 * i) 4, lef lb (16 * i + 8) 8))
      let d := s.mdl m
      if s.mfstMax m < len ∨ es.any (fun e => decide (mfChunks mb ≤ e.1)
          || ((mfTensorOf mb e.1).bind (fun t => d.treeOf t.layer)).isNone) then s.wpbDone stBOUND
      else s.sendPub m mb es cs
    | _, _ => s.wpbOpen

/-- PUBLISH (R399 to R402): the command and what its reads of host memory bring; after a write of WPB_CMD that has
started it, the reads alone (DESIGN CHOICE, log entry 44). -/
def execPublish (r : Requester) (slot : Fin 16) (manifest list : HostRead) (chunks : List HostChunk) (s : State) :
    Host.Outcome State Fault Refusal :=
  ok (if s.wpb.asked = some slot then s.publish slot manifest list chunks
    else s.write r pWPB 0x800 (fun s => s.wpbStart (fun s => s.publish slot manifest list chunks)))

/-- PUBLISH_COMPLETE (R401). -/
def execPublishComplete (s : State) : Host.Outcome State Fault Refusal :=
  ok (if s.wpb.publishing.isSome ∧ !s.ownMcWaits then
      ({ s with wpb := { s.wpb with publishing := none } }).wpbDone stOK
    else s)

/-- RELEASE of a retained publication (R402). -/
def State.pubRelease (s : State) (m : Nat) : State :=
  let v := s.reg64 pWPB 0x804
  if !(s.mdl m).pubs.any (fun p => p.version == v) then s.wpbOpen
  else (s.modMdl m (fun d => { d with pubs := d.pubs.filter (fun p => p.version != v) })).wpbDone stOK

/-- WPB_RELEASE (R402). -/
def execWpbRelease (r : Requester) (slot : Fin 16) (s : State) : Host.Outcome State Fault Refusal :=
  ok (s.write r pWPB 0x800 (fun s => s.wpbStart (fun s => s.pubRelease slot)))

/-- ABANDON of a BUILDING or pending version (R412; When things collide). -/
def State.wpbAbandon (s : State) (m : Nat) : State :=
  let s : State := [false, true].foldl (fun (s : State) b =>
    if ((s.mdl m).bank b).state = .building then s.modBank m b (fun k => { k with state := .free }) else s) s
  (s.modMdl m (fun d => { d with pend := none })).wpbDone stOK

/-- ABANDON (R412). -/
def execAbandon (r : Requester) (slot : Fin 16) (s : State) : Host.Outcome State Fault Refusal :=
  ok (s.write r pWPB 0x800 (fun s => s.wpbStart (fun s => s.wpbAbandon slot)))

/-- A write of WPB_CMD: PUBLISH then waits for what it reads from host memory. -/
def State.wpbCmd (s : State) (v : Word32) : State :=
  let m : Fin 16 := Fin.ofNat 16 (fld v 8 4)
  let op := fld v 0 8
  if !bit v 31 then s
  else s.wpbStart (fun s =>
    if op = 1 then
      if s.myAddr ≠ fld (s.reg pWPB 0x108) 0 12 then s.wpbDone stNOT_SOURCE
      else { s.setReg pWPB 0x81C (BitVec.ofNat 32 (2 ^ 16)) with wpb := { s.wpb with asked := some m } }
    else if op = 2 then s.pubRelease m
    else if op = 3 then s.wpbAbandon m
    else s.wpbOpen)

/-! ### Manifests arrive (R405) -/

/-- A WPB message reaches its engine; one whose MODEL matches no VALID slot is discarded and counted (R353, R403). -/
def State.wpbTake (s : State) (m : Message) (f : Nat → State → State) : State :=
  s.engineMsg dWPB m (fun s => s.engineTakeE m pWPB (fun s => match s.slotOfModel (hdr m 0x24 2) with
    | none => s.inc pWPB 0xF70
    | some n => f n s))

/-- A manifest buffer for a new manifest: a free one, or that of the pending manifest, which is discarded. -/
def Mdl.takeBuffer (d : Mdl) : Option (Nat × Mdl) :=
  match (List.range 3).find? (fun b => !d.buffers.contains b) with
  | some b => some (b, d)
  | none => d.pend.map (fun p => (p.buf, { d with pend := none }))

/-- The bytes of a manifest that has arrived whole. -/
def Arriving.whole (a : Arriving) : Option (List Byte) :=
  match a.parts.foldl (fun (m : Option (List Byte)) p => match m with
      | some bs => if bs.length = p.1 then some (bs ++ p.2) else none
      | none => none) (some []) with
  | some bs => if bs.length = a.len then some bs else none
  | none => none

/-- A part of a manifest (DEDUCED, log entry 116). -/
def State.onManifest (s : State) (m : Nat) (msg : Message) : State :=
  let off := hdr msg 0x28 4
  let len := hdr msg 0x2C 4
  let v : Word64 := BitVec.ofNat 64 (hdr msg 0x30 8)
  let s : State :=
    if off ≠ 0 then s
    else
      let s := s.modMdl m (fun d => { d with arriving := none })
      if s.mfstMax m < len then s.refuseMfst m stMANIFEST_SIZE
      else match (s.mdl m).takeBuffer with
        | none => s
        | some (b, d) => s.modMdl m (fun _ => { d with arriving := some { version := v, len := len, buf := b, parts := [] } })
  match (s.mdl m).arriving with
  | none => s
  | some a =>
    if a.version ≠ v ∨ a.len ≠ len ∨ len < off + msg.payload.length then s
    else
      let s := s.devWrite s.sysPart (s.mdlMap m + 0x10000 + a.buf * s.mfstMax m + off) msg.payload
      let a := { a with parts := sset [] a.parts off msg.payload }
      match a.whole with
      | none => s.modMdl m (fun d => { d with arriving := some a })
      | some bs => (s.modMdl m (fun d => { d with arriving := none })).earlyChecks m { buf := a.buf, bytes := bs }

/-- MANIFEST (R405). -/
def execManifest (m : Message) (s : State) : Host.Outcome State Fault Refusal :=
  ok (s.wpbTake m (fun n s => s.onManifest n m))

/-- SIG_VERIFY_DONE (R404 to R406): the oldest verification of a slot. -/
def execSigVerifyDone (slot : Fin 16) (s : State) : Host.Outcome State Fault Refusal :=
  ok (match (s.mdl slot).checking with
    | [] => s
    | mf :: rest => s.engineEvent dWPB (fun s =>
        (s.modMdl slot (fun d => { d with checking := rest })).lateChecks slot mf))

/-! ### Chunks arrive (R407, R408) -/

/-- The bank that takes chunks of a version. -/
def Mdl.bankFor (d : Mdl) (v : Word64) : Option Bool := [false, true].find? (fun b => d.takes b && (d.bank b).version == v)

/-- Is a version's manifest under check? -/
def Mdl.underCheck (d : Mdl) (v : Word64) : Bool :=
  d.checking.any (fun f => mfVersion f.bytes == v) || d.arriving.any (fun a => a.version == v)

/-- Bytes land in the granules of a staging buffer. -/
def State.stageBytes (s : State) (us : List Nat) : Nat → Nat → List Byte → List Bool → State
  | 0, _, _, _ => s
  | n + 1, off, bs, po =>
    if bs.isEmpty then s
    else (s.poolWr (us.getD (off / 65536) 0 * 65536 + off % 65536) (bs.take 64) (po.headD false)).stageBytes us n
      (off + 64) (bs.drop 64) po.tail

/-- A chunk that is discarded as it arrives. -/
def State.dropChunk (s : State) : State := s.inc pWPB 0xF28

/-- A chunk arrives (R407). -/
def State.onChunk (s : State) (m : Nat) (msg : Message) : State :=
  let v : Word64 := BitVec.ofNat 64 (hdr msg 0x30 8)
  let c := hdr msg 0x28 4
  let d := s.mdl m
  let mf : Option Manif := match d.bankFor v with
    | some b => (d.bank b).mfst
    | none => d.checking.find? (fun f => mfVersion f.bytes == v)
  let unmapped := match mf with | some f => (d.chunkAt f.bytes c).isNone | none => false
  let held := match d.bankFor v with | some b => (d.bank b).got.contains c | none => false
  if ((d.bankFor v).isNone && !d.underCheck v) || unmapped || held then s.dropChunk
  else
    let s : State := match d.bankFor v with
      | some b => s.modBank m b (fun k => if k.asked then k else { k with since := s.pw.aonTime })
      | none => s
    if fld (s.mdlReg m 0x18) 0 5 ≤ (d.staged.filter (fun g => !g.copy)).length then s.dropChunk
    else match s.claimPool (s.mdlOwner m) (s.stageCluster m) 2 16 with
      | none => s.dropChunk.mdlErr m stQUOTA_EXCEEDED
      | some (us, s) =>
        let s := s.stageBytes us (msg.payload.length / 64 + 1) 0 msg.payload msg.poison
        s.modMdl m (fun d => { d with staged := d.staged ++ [{
          version := v, idx := c, bytes := msg.payload, poison := msg.poison.any id, units := us, copy := false }] })

/-- CHUNK (R407). -/
def execChunk (m : Message) (s : State) : Host.Outcome State Fault Refusal :=
  ok (s.wpbTake m (fun n s => s.onChunk n m))

/-- A chunk whose digest or marks fail (R408); one that a repair copies is asked for (R421). -/
def State.badChunk (s : State) (m : Nat) (g : Staged) : State :=
  let s := (s.inc pWPB 0xF20).detectOpen cCORRECTED stCHUNK_DIGEST 0x0F m none
  if g.copy then s.askChunks m g.version true 1 [g.idx] else s

/-- The digest of a staged chunk is complete (R408, R421). -/
def State.chunkHashed (s : State) (m : Nat) (g : Staged) : State :=
  let d := s.mdl m
  let s := s.modMdl m (fun d => { d with staged := d.staged.erase g })
  let s := if g.copy then s else s.unclaimPool (s.mdlOwner m) (s.stageCluster m) 2 g.units
  match d.bankFor g.version with
  | none => (s.hashed g.bytes.length).badChunk m { g with copy := false }
  | some b => match (d.bank b).mfst.bind (fun f => (d.chunkAt f.bytes g.idx).map (fun a => (f, a))) with
    | none => (s.hashed g.bytes.length).badChunk m g
    | some (f, rn, off, n) =>
      let (bs, po, s) : List Byte × Bool × State :=
        if g.copy then s.recRead rn (!b) .stream s.sysPart false off n else (g.bytes, g.poison, s)
      let s := s.hashed bs.length
      if (d.bank b).got.contains g.idx then s.dropChunk
      else if bs.length = n ∧ sha256 bs = mfChunkDigest f.bytes g.idx ∧ !po then s.enterChunk m b g.idx bs
      else s.badChunk m g

/-- CHUNK_HASH_DONE (R408): a chunk of a manifest under check waits for the outcome of the check. -/
def execChunkHashDone (slot : Fin 16) (idx : Nat) (s : State) : Host.Outcome State Fault Refusal :=
  ok (match (s.mdl slot).staged.find? (fun g => g.idx == idx && !(s.mdl slot).underCheck g.version) with
    | none => s
    | some g => s.engineEvent dWPB (fun s => s.chunkHashed slot g))

/-! ### Missing chunks (R409, R410) -/

/-- PUB_END (R409). -/
def State.onPubEnd (s : State) (m : Nat) (v : Word64) : State :=
  match (s.mdl m).bankFor v with
  | none => s
  | some b =>
    if ((s.mdl m).missing ((s.mdl m).bank b)).isEmpty then s else s.askMissing m b

/-- PUB_END (R409). -/
def execPubEnd (m : Message) (s : State) : Host.Outcome State Fault Refusal :=
  ok (s.wpbTake m (fun n s => s.onPubEnd n (BitVec.ofNat 64 (hdr m 0x30 8))))

/-- Have `ms` milliseconds passed since an AON time? -/
def State.msPassed (s : State) (since : BitVec 48) (ms : Nat) : Bool :=
  decide (ms * 32768 ≤ (s.pw.aonTime - since).toNat * 1000)

/-- RESTREAM_RETRY_TIMER (R409): RETRY ms after a request, IDLE ms after the last chunk before the first one. -/
def execRestreamRetryTimer (slot : Fin 16) (s : State) : Host.Outcome State Fault Refusal :=
  ok (
    let cfg := s.reg pWPB 0x104
    [false, true].foldl (fun (s : State) b =>
      let d := s.mdl slot
      let k := d.bank b
      if d.takes b ∧ !(d.missing k).isEmpty ∧ s.msPassed k.since (if k.asked then fld cfg 0 16 else fld cfg 16 16) then
        s.engineEvent dWPB (fun s => s.askMissing slot b)
      else s) s)

/-- Send one requested chunk (R410). -/
def State.serveChunk (s : State) (m : Nat) (msg : Message) (p : Pub) (cs : List HostChunk) (c : Nat) : State :=
  match p.list.find? (fun e => e.1 == c), chunkBytes cs c with
  | some _, some bs =>
    ((s.inc pHIF 0xF10 bs.length).inc pWPB 0xF38).wpbSend
      (s.wpbMsg 0x21 msg.src.toNat (s.mdlId m) (hdr msg 0x26 2 % 2) c 0 p.version bs)
  | _, _ => s

/-- RESTREAM_REQ (R410). -/
def execRestreamReq (m : Message) (chunks : List HostChunk) (s : State) : Host.Outcome State Fault Refusal :=
  ok (s.wpbTake m (fun n s =>
    let v : Word64 := BitVec.ofNat 64 (hdr m 0x30 8)
    match (s.mdl n).pubs.find? (fun p => p.version == v) with
    | none => s.wpbSend { s.wpbMsg 0x26 m.src.toNat (s.mdlId n) (hdr m 0x26 2 % 2) 0 0 v [0] with
                            status := stRESTREAM_UNAVAIL }
    | some p => (List.range (m.payload.length / 4)).foldl (fun (s : State) i =>
        s.serveChunk n m p chunks (lef m.payload (4 * i) 4)) s))

/-- A request is refused (R410, R423): an ordinary build is abandoned, a repair takes the model OFFLINE. -/
def State.onRefuse (s : State) (m : Nat) (v : Word64) : State :=
  match (s.mdl m).bankFor v with
  | none => s
  | some b =>
    if ((s.mdl m).bank b).state = .repair then s.goOffline m
    else ((s.modBank m b (fun k => { k with state := .free })).mdlErr m stRESTREAM_UNAVAIL).endHold m true

/-- RESTREAM_REFUSE (R410). -/
def execRestreamRefuse (m : Message) (s : State) : Host.Outcome State Fault Refusal :=
  ok (s.wpbTake m (fun n s => s.onRefuse n (BitVec.ofNat 64 (hdr m 0x30 8))))

/-! ### The first stage and its chips (R414 to R416, R420) -/

/-- READY (R415). -/
def execReady (m : Message) (s : State) : Host.Outcome State Fault Refusal :=
  ok (s.wpbTake m (fun n s => if s.isFirst n then s.noteReady n m.src (BitVec.ofNat 64 (hdr m 0x30 8)) else s))

/-- WITHDRAW (R416). -/
def execWithdraw (m : Message) (s : State) : Host.Outcome State Fault Refusal :=
  ok (s.wpbTake m (fun n s => s.freeReady n (BitVec.ofNat 64 (hdr m 0x30 8))))

/-- HOLD, RELEASE or OFFLINE of a chip (R420, R422, R423). -/
def execHold (m : Message) (s : State) : Host.Outcome State Fault Refusal :=
  ok (s.wpbTake m (fun n s => if s.isFirst n then s.noteHold n m.src (hdr m 0x26 2 / 2 % 4) else s))

/-! ### Events of banks (R412, R421, R423) -/

/-- PENDING_BUILD_OPEN (R412). -/
def execPendingBuildOpen (slot : Fin 16) (s : State) : Host.Outcome State Fault Refusal :=
  ok (match (s.mdl slot).pend, (s.mdl slot).inState .free with
    | some mf, some b => s.engineEvent dWPB (fun s => (s.modMdl slot (fun d => { d with pend := none })).openBuild slot b mf)
    | _, _ => s)

/-- REPAIR_OPEN (R421). -/
def execRepairOpen (slot : Fin 16) (s : State) : Host.Outcome State Fault Refusal :=
  ok (
    let d := s.mdl slot
    match d.inState .live with
    | none => s
    | some b =>
      if d.bad.isEmpty ∨ d.offline ∨ ((d.bank (!b)).state ≠ .free ∧ (d.bank (!b)).state ≠ .building) then s
      else s.engineEvent dWPB (fun s => s.openRepair slot b))

/-- RESTREAM_DEADLINE (R423). -/
def execRestreamDeadline (slot : Fin 16) (s : State) : Host.Outcome State Fault Refusal :=
  ok (
    let d := s.mdl slot
    if !d.bad.isEmpty ∧ !d.offline ∧ (s.reg pWPB 0x100).toNat ≤ (s.pw.aonTime - d.poisonAt).toNat then
      s.engineEvent dWPB (fun s => s.goOffline slot)
    else s)

/-! ### Registers (WPB page) -/

/-- The code of a bank's state (R411). -/
def BankState.code : BankState → Nat
  | .free => 0
  | .building => 1
  | .ready => 2
  | .live => 3
  | .draining => 4
  | .repair => 5

/-- WPB_MDLm_STAT. -/
def State.mdlStat (s : State) (m : Nat) : Word32 :=
  let d := s.mdl m
  BitVec.ofNat 32 (d.a.state.code + 8 * d.b.state.code + 2 ^ 8 * bnat d.hold + 2 ^ 9 * bnat d.offline
    + 2 ^ 10 * bnat (!d.bad.isEmpty) + 2 ^ 11 * bnat d.pend.isSome
    + 2 ^ 12 * bnat (s.isFirst m && (s.assignable m).isSome))

/-- WPB_LIVE_BANK. -/
def State.liveBanks (s : State) : Word32 :=
  BitVec.ofNat 32 (((List.range 16).map (fun m => 2 ^ m * bnat (s.mdl m).liveB)).sum)

/-- WPB_MDLm_MISSING. -/
def State.mdlMissing (s : State) (m : Nat) : Word32 :=
  let d := s.mdl m
  BitVec.ofNat 32 (([d.a, d.b].map (fun k =>
    if k.state = .building ∨ k.state = .repair then (d.missing k).length else 0)).sum)

/-- The manifest digest that WPB_DIGEST_SEL selects. -/
def State.wpbDigest (s : State) : List Byte :=
  let sel := s.reg pWPB 0xB10
  match ((s.mdl (fld sel 0 4)).bank (bit sel 4)).mfst with
  | some f => mfDigest f.bytes
  | none => zeroDigest

end Sys2Proof.Machine
end

