-- ==== Sys2Proof/Machine/Access.lean ====
section
/-! DEFINITION. The access commands of stacked memory and the scrub (09_stacked_memory.md R257 to R277), with what TIER
and WPB make of a line found uncorrectable (R269; 14_weights.md R419). -/

namespace Sys2Proof.Machine

/-- The model slot whose tensor map names a record. -/
def State.mdlOfRec (s : State) (rn : Nat) : Option Nat :=
  (List.range 16).find? (fun m => (s.mdl m).tmap.any (fun t => t.recN == rn))

/-- A line has been found uncorrectable: TIER marks its record, and WPB acts on a banked one (R269, R419)
(DEDUCED, log entry 110). -/
def State.poisonFound (s : State) (line : Nat) : State :=
  match s.recOfLine line with
  | none => s
  | some rn =>
    let s := s.tierPoison line
    match s.trec rn, s.mdlOfRec rn with
    | some r, some m =>
      if r.banked ∧ s.pgEn pWPB then
        let u := line / 32768
        let b := r.unitsB.contains u
        let i := (if b then r.unitsB else r.units).idxOf u
        (s.wakeDom dWPB).wpbPoison m rn b (i * 2097152 + line % 32768 * 64)
      else s
    | _, _ => s

/-- An access to one line: at an address that the spec says does not exist it stops with a fault; a controller that an
overtemperature has stopped serves nothing until the reset (R265). -/
def State.memAccess (s : State) (a : MemAccess) (f : State → State) : Host.Outcome State Fault Refusal :=
  let pa := a.addr.toNat
  if memBytes ≤ pa then .fault .outsideMemory
  else if (s.stack (locate s.grouped pa).1).stopped then ok s
  else
    let line := pa / 64
    let t := f (s.wakeFor pa)
    ok (if a.ecc = .uncorrectable ∧ !sget false s.mem.poison line ∧ sget false t.mem.poison line then t.poisonFound line
        else t)

/-- MEM_READ (R257 to R261, R271 to R277): the line and its mark are returned. -/
def execMemRead (a : MemAccess) (s : State) : Host.Outcome State Fault Refusal :=
  s.memAccess a (fun s =>
    let (bs, po, s) := s.lineRead (a.addr.toNat / 64) a.hint a.partition a.mayWrite a.ecc a.hcc
    s.emitOut (.read po bs))

/-- MEM_WRITE (R261, R271 to R277). -/
def execMemWrite (a : MemAccess) (data : List Byte) (poison : Bool) (s : State) : Host.Outcome State Fault Refusal :=
  s.memAccess a (fun s =>
    let lo := a.addr.toNat % 64
    s.lineWrite (a.addr.toNat / 64) lo (data.take (64 - lo)) poison a.hint a.partition a.mayWrite a.ecc a.hcc)

/-- SCRUB_LINE (R266 to R269): a READY stack whose controller is ON, with scrub enabled. -/
def execScrubLine (stack : Fin 8) (ecc : EccObs) (raced : Bool) (s : State) : Host.Outcome State Fault Refusal :=
  ok (if s.domOn (dMem stack) ∧ (s.stack stack).ready ∧ !(s.stack stack).stopped ∧ s.pgEn (pMEM stack) then
      let (s, bad) := s.scrub stack ecc raced
      match bad with
      | some line => s.poisonFound line
      | none => s
    else s)

end Sys2Proof.Machine
end

