-- ==== Sys2Proof/Machine/Vector.lean ====
section
/-! DEFINITION. Vector instructions (06_hj1_baseline.md R163 to R167, R178 to R183) with the functions that the HJ2
adds (07_hj2_contract.md R191 to R203): FP8 conversions, stochastic rounding, VMASK, CKSUM and MOMQ; latencies of
R216, poison of 20_errors.md R573 to R576. -/

namespace Sys2Proof.Machine

/-- The bits of VD that a lane function writes: its active lanes, and with PZ the inactive ones too (R163). -/
def vmaskOf (o : VOp) (act : Nat → Bool) : BitVec 2048 :=
  if o.pz then BitVec.allOnes 2048 else laneMask act

/-- Does a merging write keep old lanes, so that the destination counts as a source of poison (DEDUCED, log entry 23)? -/
def merges (o : VOp) : Bool := o.pe && !o.pz

/-- The governing predicate as a location read. -/
def predRead (o : VOp) : List (Loc × Nat) := if o.pe then [(Loc.p o.pred, 0)] else []

/-- Operand B as a location read. -/
def bRead (o : VOp) : List (Loc × Nat) := if o.bs then [(Loc.s o.ss, 0)] else [(Loc.v o.vb, 0)]

/-- A lane function into VD: value and flags per lane, poison of the sources, locations read. -/
def vres (lat : Nat) (o : VOp) (k : Core) (f : Nat → Word32 × FFlags) (po : Bool) (reads : List (Loc × Nat)) : IRes :=
  let act := k.th.active o
  .go { lands := [(lat, .vreg o.vd (vmaskOf o act) (vecOf (fun l => if act l then (f l).1 else 0))
                    (po || k.th.ap o || (merges o && k.th.vp o.vd)))]
        flags := laneFlags act (fun l => (f l).2) 64
        reads := predRead o ++ reads }

/-- A function of VA and B. -/
def vbin (lat : Nat) (o : VOp) (k : Core) (f : Word32 → Word32 → Word32 × FFlags) : IRes :=
  vres lat o k (fun l => f (vlane (k.th.v o.va) l) (k.th.vb o l)) (k.th.vp o.va || k.th.vbp o)
    ((Loc.v o.va, 0) :: bRead o)

/-- A function of VA, B and VC. -/
def vtri (lat : Nat) (o : VOp) (k : Core) (f : Word32 → Word32 → Word32 → Word32 × FFlags) : IRes :=
  vres lat o k (fun l => f (vlane (k.th.v o.va) l) (k.th.vb o l) (vlane (k.th.v o.vc) l))
    (k.th.vp o.va || k.th.vbp o || k.th.vp o.vc) ((Loc.v o.va, 0) :: (Loc.v o.vc, 0) :: bRead o)

/-- A function of VA. -/
def vun (lat : Nat) (o : VOp) (k : Core) (f : Word32 → Word32 × FFlags) : IRes :=
  vres lat o k (fun l => f (vlane (k.th.v o.va) l)) (k.th.vp o.va) [(Loc.v o.va, 0)]

/-- An integer function of VA and B: no flag. -/
def vint (lat : Nat) (o : VOp) (k : Core) (f : Word32 → Word32 → Word32) : IRes :=
  vbin lat o k (fun a b => (f a b, 0))

/-- A comparison into predicate VD[2:0] (R164). -/
def vcmp (lat : Nat) (o : VOp) (k : Core) (f : Word32 → Word32 → Bool × FFlags) : IRes :=
  let act := k.th.active o
  let r := fun l => f (vlane (k.th.v o.va) l) (k.th.vb o l)
  .go { lands := [(lat, .preg (pfld o.vd) (if o.pz then BitVec.allOnes 64 else predOf act)
                    (predOf (fun l => act l && (r l).1))
                    (k.th.vp o.va || k.th.vbp o || k.th.ap o || (merges o && k.th.pp (pfld o.vd))))]
        flags := laneFlags act (fun l => (r l).2) 64
        reads := predRead o ++ (Loc.v o.va, 0) :: bRead o }

/-- VADD (R164, R178). -/
def execVadd (o : VOp) (s : State) : Host.Outcome State Fault Refusal :=
  ok (issue o.core (encV 0x20 0 o) (fun _ _ k => vbin 4 o k fadd) s)

/-- VSUB (R164, R178). -/
def execVsub (o : VOp) (s : State) : Host.Outcome State Fault Refusal :=
  ok (issue o.core (encV 0x20 1 o) (fun _ _ k => vbin 4 o k fsub) s)

/-- VMUL (R164, R178). -/
def execVmul (o : VOp) (s : State) : Host.Outcome State Fault Refusal :=
  ok (issue o.core (encV 0x20 2 o) (fun _ _ k => vbin 4 o k fmul) s)

/-- VFMA: VA × B + VC, rounded once (R164). -/
def execVfma (o : VOp) (s : State) : Host.Outcome State Fault Refusal :=
  ok (issue o.core (encV 0x20 3 o) (fun _ _ k => vtri 5 o k ffma) s)

/-- VFMS: VA × B − VC, rounded once (R164). -/
def execVfms (o : VOp) (s : State) : Host.Outcome State Fault Refusal :=
  ok (issue o.core (encV 0x20 4 o) (fun _ _ k => vtri 5 o k ffms) s)

/-- VMIN (R164). -/
def execVmin (o : VOp) (s : State) : Host.Outcome State Fault Refusal :=
  ok (issue o.core (encV 0x20 5 o) (fun _ _ k => vbin 4 o k (fminmax false)) s)

/-- VMAX (R164). -/
def execVmax (o : VOp) (s : State) : Host.Outcome State Fault Refusal :=
  ok (issue o.core (encV 0x20 6 o) (fun _ _ k => vbin 4 o k (fminmax true)) s)

/-- VABS: clear the sign bit (R164). -/
def execVabs (o : VOp) (s : State) : Host.Outcome State Fault Refusal :=
  ok (issue o.core (encV 0x20 7 o) (fun _ _ k => vun 2 o k (fun a => (a &&& 0x7FFFFFFF, 0))) s)

/-- VNEG: invert the sign bit (R164). -/
def execVneg (o : VOp) (s : State) : Host.Outcome State Fault Refusal :=
  ok (issue o.core (encV 0x20 8 o) (fun _ _ k => vun 2 o k (fun a => (a ^^^ 0x80000000, 0))) s)

/-- VDIV (R164, R180). -/
def execVdiv (o : VOp) (s : State) : Host.Outcome State Fault Refusal :=
  ok (issue o.core (encV 0x20 9 o) (fun _ _ k => vbin 14 o k fdiv) s)

/-- VSQRT (R164, R180). -/
def execVsqrt (o : VOp) (s : State) : Host.Outcome State Fault Refusal :=
  ok (issue o.core (encV 0x20 0x0A o) (fun _ _ k => vun 12 o k fsqrt) s)

/-- VRSQRT (R164, R180). -/
def execVrsqrt (o : VOp) (s : State) : Host.Outcome State Fault Refusal :=
  ok (issue o.core (encV 0x20 0x0B o) (fun _ _ k => vun 12 o k frsqrt) s)

/-- VEXP2 (R164, R180). -/
def execVexp2 (o : VOp) (s : State) : Host.Outcome State Fault Refusal :=
  ok (issue o.core (encV 0x20 0x0C o) (fun _ _ k => vun 10 o k fexp2) s)

/-- VLOG2 (R164, R180). -/
def execVlog2 (o : VOp) (s : State) : Host.Outcome State Fault Refusal :=
  ok (issue o.core (encV 0x20 0x0D o) (fun _ _ k => vun 10 o k flog2) s)

/-- VINT ADD (R164, R182). -/
def execVintAdd (o : VOp) (s : State) : Host.Outcome State Fault Refusal :=
  ok (issue o.core (encV 0x21 0 o) (fun _ _ k => vint 2 o k (fun a b => a + b)) s)

/-- VINT SUB (R164, R182). -/
def execVintSub (o : VOp) (s : State) : Host.Outcome State Fault Refusal :=
  ok (issue o.core (encV 0x21 1 o) (fun _ _ k => vint 2 o k (fun a b => a - b)) s)

/-- VINT MUL (R164, R182). -/
def execVintMul (o : VOp) (s : State) : Host.Outcome State Fault Refusal :=
  ok (issue o.core (encV 0x21 2 o) (fun _ _ k => vint 4 o k (fun a b => a * b)) s)

/-- VINT AND (R164, R182). -/
def execVintAnd (o : VOp) (s : State) : Host.Outcome State Fault Refusal :=
  ok (issue o.core (encV 0x21 3 o) (fun _ _ k => vint 2 o k (fun a b => a &&& b)) s)

/-- VINT OR (R164, R182). -/
def execVintOr (o : VOp) (s : State) : Host.Outcome State Fault Refusal :=
  ok (issue o.core (encV 0x21 4 o) (fun _ _ k => vint 2 o k (fun a b => a ||| b)) s)

/-- VINT XOR (R164, R182). -/
def execVintXor (o : VOp) (s : State) : Host.Outcome State Fault Refusal :=
  ok (issue o.core (encV 0x21 5 o) (fun _ _ k => vint 2 o k (fun a b => a ^^^ b)) s)

/-- VINT SLL (R164, R182). -/
def execVintSll (o : VOp) (s : State) : Host.Outcome State Fault Refusal :=
  ok (issue o.core (encV 0x21 6 o) (fun _ _ k => vint 2 o k (fun a b => a <<< (b.toNat % 32))) s)

/-- VINT SRL (R164, R182). -/
def execVintSrl (o : VOp) (s : State) : Host.Outcome State Fault Refusal :=
  ok (issue o.core (encV 0x21 7 o) (fun _ _ k => vint 2 o k (fun a b => a >>> (b.toNat % 32))) s)

/-- VINT SRA (R164, R182). -/
def execVintSra (o : VOp) (s : State) : Host.Outcome State Fault Refusal :=
  ok (issue o.core (encV 0x21 8 o) (fun _ _ k => vint 2 o k (fun a b => a.sshiftRight (b.toNat % 32))) s)

/-- VINT MIN (R164, R182). -/
def execVintMin (o : VOp) (s : State) : Host.Outcome State Fault Refusal :=
  ok (issue o.core (encV 0x21 9 o) (fun _ _ k => vint 2 o k (fun a b => if a.slt b then a else b)) s)

/-- VINT MAX (R164, R182). -/
def execVintMax (o : VOp) (s : State) : Host.Outcome State Fault Refusal :=
  ok (issue o.core (encV 0x21 10 o) (fun _ _ k => vint 2 o k (fun a b => if a.slt b then b else a)) s)

/-- VINT MINU (R164, R182). -/
def execVintMinu (o : VOp) (s : State) : Host.Outcome State Fault Refusal :=
  ok (issue o.core (encV 0x21 11 o) (fun _ _ k => vint 2 o k (fun a b => if a.ult b then a else b)) s)

/-- VINT MAXU (R164, R182). -/
def execVintMaxu (o : VOp) (s : State) : Host.Outcome State Fault Refusal :=
  ok (issue o.core (encV 0x21 12 o) (fun _ _ k => vint 2 o k (fun a b => if a.ult b then b else a)) s)

/-- FEQ (R164). -/
def execFeq (o : VOp) (s : State) : Host.Outcome State Fault Refusal :=
  ok (issue o.core (encV 0x22 0 o) (fun _ _ k => vcmp 2 o k (fcmp 0)) s)

/-- FNE (R164). -/
def execFne (o : VOp) (s : State) : Host.Outcome State Fault Refusal :=
  ok (issue o.core (encV 0x22 1 o) (fun _ _ k => vcmp 2 o k (fcmp 1)) s)

/-- FLT (R164). -/
def execFlt (o : VOp) (s : State) : Host.Outcome State Fault Refusal :=
  ok (issue o.core (encV 0x22 2 o) (fun _ _ k => vcmp 2 o k (fcmp 2)) s)

/-- FLE (R164). -/
def execFle (o : VOp) (s : State) : Host.Outcome State Fault Refusal :=
  ok (issue o.core (encV 0x22 3 o) (fun _ _ k => vcmp 2 o k (fcmp 3)) s)

/-- IEQ (R164). -/
def execIeq (o : VOp) (s : State) : Host.Outcome State Fault Refusal :=
  ok (issue o.core (encV 0x22 4 o) (fun _ _ k => vcmp 2 o k (fun a b => (a == b, 0))) s)

/-- INE (R164). -/
def execIne (o : VOp) (s : State) : Host.Outcome State Fault Refusal :=
  ok (issue o.core (encV 0x22 5 o) (fun _ _ k => vcmp 2 o k (fun a b => (a != b, 0))) s)

/-- ILT (R164). -/
def execIlt (o : VOp) (s : State) : Host.Outcome State Fault Refusal :=
  ok (issue o.core (encV 0x22 6 o) (fun _ _ k => vcmp 2 o k (fun a b => (a.slt b, 0))) s)

/-- ILE (R164). -/
def execIle (o : VOp) (s : State) : Host.Outcome State Fault Refusal :=
  ok (issue o.core (encV 0x22 7 o) (fun _ _ k => vcmp 2 o k (fun a b => (!b.slt a, 0))) s)

/-- ILTU (R164). -/
def execIltu (o : VOp) (s : State) : Host.Outcome State Fault Refusal :=
  ok (issue o.core (encV 0x22 8 o) (fun _ _ k => vcmp 2 o k (fun a b => (a.ult b, 0))) s)

/-- ILEU (R164). -/
def execIleu (o : VOp) (s : State) : Host.Outcome State Fault Refusal :=
  ok (issue o.core (encV 0x22 9 o) (fun _ _ k => vcmp 2 o k (fun a b => (!b.ult a, 0))) s)

/-! ### Conversions (R166, R181, R191 to R194) -/

/-- The draw of lane `l` for a stochastic rounding: bits [15:0] of lane l of VC when SR is 1 (R194). -/
def drawOf (o : VOp) (k : Core) (l : Nat) : Option Nat :=
  if o.sr then some ((vlane (k.th.v o.vc) l).toNat % 65536) else none

/-- A packing conversion: lane l goes to the field of `wd` bits at `base` + wd × l (R166). -/
def vpack (lat wd base : Nat) (o : VOp) (k : Core) (f : Nat → Nat × FFlags) : IRes :=
  let act := k.th.active o
  .go { lands := [(lat, .vreg o.vd
          (BitVec.ofNat 2048 (packLanes wd (fun l => if o.pz || act l then 2 ^ wd - 1 else 0) 64 * 2 ^ base))
          (BitVec.ofNat 2048 (packLanes wd (fun l => if act l then (f l).1 else 0) 64 * 2 ^ base))
          (k.th.vp o.va || (o.sr && k.th.vp o.vc) || k.th.ap o || k.th.vp o.vd))]
        flags := laneFlags act (fun l => (f l).2) 64
        reads := predRead o ++ (Loc.v o.va, 0) :: (if o.sr then [(Loc.v o.vc, 0)] else []) }

/-- The packed field of lane `l` of VA. -/
def vfield (o : VOp) (k : Core) (wd base l : Nat) : Nat := (k.th.v o.va).toNat / 2 ^ (base + wd * l) % 2 ^ wd

/-- An unpacking conversion (R166). -/
def vunpack (lat wd base : Nat) (o : VOp) (k : Core) (f : Nat → Word32) : IRes :=
  vres lat o k (fun l => (f (vfield o k wd base l), 0)) (k.th.vp o.va) [(Loc.v o.va, 0)]

/-- F2I (R181). -/
def execF2i (o : VOp) (s : State) : Host.Outcome State Fault Refusal :=
  ok (issue o.core (encV 0x23 0 o) (fun _ _ k => vun 3 o k f2int) s)

/-- I2F (R181). -/
def execI2f (o : VOp) (s : State) : Host.Outcome State Fault Refusal :=
  ok (issue o.core (encV 0x23 1 o) (fun _ _ k => vun 3 o k int2f) s)

/-- F2B: BF16 of lane l to half IMM18[0] of VD (R166, R181, R194). -/
def execF2b (o : VOp) (s : State) : Host.Outcome State Fault Refusal :=
  ok (issue o.core (encV 0x23 2 o) (fun _ _ k => vpack 4 16 (1024 * (o.imm.toNat % 2)) o k (fun l =>
    let r := f2bf (drawOf o k l) (vlane (k.th.v o.va) l)
    (r.1.toNat, r.2))) s)

/-- B2F (R166, R181). -/
def execB2f (o : VOp) (s : State) : Host.Outcome State Fault Refusal :=
  ok (issue o.core (encV 0x23 3 o) (fun _ _ k => vunpack 2 16 (1024 * (o.imm.toNat % 2)) o k (fun n => bf2f (BitVec.ofNat 16 n))) s)

/-- I2B8: INT8, saturated, to quarter IMM18[1:0] of VD (R166, R181). -/
def execI2b8 (o : VOp) (s : State) : Host.Outcome State Fault Refusal :=
  ok (issue o.core (encV 0x23 4 o) (fun _ _ k => vpack 3 8 (512 * (o.imm.toNat % 4)) o k (fun l =>
    ((BitVec.ofInt 8 (max (-128) (min 127 (vlane (k.th.v o.va) l).toInt))).toNat, 0))) s)

/-- B82I (R166, R181). -/
def execB82i (o : VOp) (s : State) : Host.Outcome State Fault Refusal :=
  ok (issue o.core (encV 0x23 5 o) (fun _ _ k => vunpack 2 8 (512 * (o.imm.toNat % 4)) o k (fun n => (BitVec.ofNat 8 n).signExtend 32)) s)

/-- F2E4 (R191, R192, R194). -/
def execF2e4 (o : VOp) (s : State) : Host.Outcome State Fault Refusal :=
  ok (issue o.core (encV 0x23 6 o) (fun _ _ k => vpack 4 8 (512 * (o.imm.toNat % 4)) o k (fun l =>
    let r := f2e4m3 (drawOf o k l) (o.imm.getLsbD 2) (vlane (k.th.v o.va) l)
    (r.1.toNat, r.2))) s)

/-- E42F (R191, R192). -/
def execE42f (o : VOp) (s : State) : Host.Outcome State Fault Refusal :=
  ok (issue o.core (encV 0x23 7 o) (fun _ _ k => vunpack 2 8 (512 * (o.imm.toNat % 4)) o k (fun n => e4m32f (BitVec.ofNat 8 n))) s)

/-- F2E5 (R191, R192, R194). -/
def execF2e5 (o : VOp) (s : State) : Host.Outcome State Fault Refusal :=
  ok (issue o.core (encV 0x23 8 o) (fun _ _ k => vpack 4 8 (512 * (o.imm.toNat % 4)) o k (fun l =>
    let r := f2e5m2 (drawOf o k l) (o.imm.getLsbD 2) (vlane (k.th.v o.va) l)
    (r.1.toNat, r.2))) s)

/-- E52F (R191, R192). -/
def execE52f (o : VOp) (s : State) : Host.Outcome State Fault Refusal :=
  ok (issue o.core (encV 0x23 9 o) (fun _ _ k => vunpack 2 8 (512 * (o.imm.toNat % 4)) o k (fun n => e5m22f (BitVec.ofNat 8 n))) s)

/-! ### Reductions (R165) -/

/-- One step of the tree: lane l with lane l + w. -/
def redStep (f : Word32 → Word32 → Word32 × FFlags) (xs : List Word32) : List (Word32 × FFlags) :=
  (xs.take (xs.length / 2)).zipWith f (xs.drop (xs.length / 2))

/-- The fixed tree over 2^n lanes. -/
def redTree (f : Word32 → Word32 → Word32 × FFlags) : Nat → List Word32 → FFlags → Word32 × FFlags
  | 0, xs, fl => (xs.headD 0, fl)
  | n + 1, xs, fl =>
    let ys := redStep f xs
    redTree f n (ys.map Prod.fst) (ys.foldl (fun a y => a ||| y.2) fl)

/-- A reduction: inactive lanes take the identity; every lane of VD and SS take the result. -/
def vred (latV latS : Nat) (ident : Word32) (signed : Bool) (o : VOp) (k : Core)
    (f : Word32 → Word32 → Word32 × FFlags) : IRes :=
  let act := k.th.active o
  let r := redTree f 6 ((List.range 64).map (fun l => if act l then vlane (k.th.v o.va) l else ident)) 0
  let po := k.th.vp o.va || k.th.ap o
  .go { lands := [(latV, .vreg o.vd (BitVec.allOnes 2048) (vecOf (fun _ => r.1)) po),
                  (latS, .sreg o.ss (if signed then r.1.signExtend 64 else r.1.setWidth 64) po)]
        flags := r.2
        reads := predRead o ++ [(Loc.v o.va, 0)] }

/-- FARGMAX over the active lanes that are not NaN: maximum and lowest lane holding it. -/
def argmax (act : Nat → Bool) (v : BitVec 2048) : Option (Word32 × Nat) :=
  let ls := (List.range 64).filter (fun l => act l && !(f32val (vlane v l)).isNan)
  ls.foldl (fun m l => match m with
    | none => some (vlane v l, l)
    | some (x, i) => if ltTotal (f32val x) (f32val (vlane v l)) then some (vlane v l, l) else some (x, i)) none

/-- VRED FSUM (R165). -/
def execFsum (o : VOp) (s : State) : Host.Outcome State Fault Refusal :=
  ok (issue o.core (encV 0x24 0 o) (fun _ _ k => vred 14 15 0 false o k fadd) s)

/-- VRED FMAX (R165). -/
def execFmax (o : VOp) (s : State) : Host.Outcome State Fault Refusal :=
  ok (issue o.core (encV 0x24 1 o) (fun _ _ k => vred 14 15 (inf32 true) false o k (fminmax true)) s)

/-- VRED FMIN (R165). -/
def execFmin (o : VOp) (s : State) : Host.Outcome State Fault Refusal :=
  ok (issue o.core (encV 0x24 2 o) (fun _ _ k => vred 14 15 (inf32 false) false o k (fminmax false)) s)

/-- VRED FARGMAX: NaN and 64 when no active lane holds a number (R165). -/
def execFargmax (o : VOp) (s : State) : Host.Outcome State Fault Refusal :=
  ok (issue o.core (encV 0x24 3 o) (fun _ _ k =>
    let r := (argmax (k.th.active o) (k.th.v o.va)).getD (qnan32, 64)
    let po := k.th.vp o.va || k.th.ap o
    .go { lands := [(14, .vreg o.vd (BitVec.allOnes 2048) (vecOf (fun _ => r.1)) po),
                    (15, .sreg o.ss (BitVec.ofNat 64 r.2) po)]
          reads := predRead o ++ [(Loc.v o.va, 0)] }) s)

/-- VRED ISUM (R165). -/
def execIsum (o : VOp) (s : State) : Host.Outcome State Fault Refusal :=
  ok (issue o.core (encV 0x24 4 o) (fun _ _ k => vred 8 9 0 true o k (fun a b => (a + b, 0))) s)

/-- VRED IMAX (R165). -/
def execImax (o : VOp) (s : State) : Host.Outcome State Fault Refusal :=
  ok (issue o.core (encV 0x24 5 o) (fun _ _ k => vred 8 9 0x80000000 true o k (fun a b => (if a.slt b then b else a, 0))) s)

/-- VRED IMIN (R165). -/
def execImin (o : VOp) (s : State) : Host.Outcome State Fault Refusal :=
  ok (issue o.core (encV 0x24 6 o) (fun _ _ k => vred 8 9 0x7FFFFFFF true o k (fun a b => (if b.slt a then b else a, 0))) s)

/-! ### Moves and predicates (R164) -/

/-- MOV. -/
def execMov (o : VOp) (s : State) : Host.Outcome State Fault Refusal :=
  ok (issue o.core (encV 0x25 0 o) (fun _ _ k => vun 1 o k (fun a => (a, 0))) s)

/-- BCAST: SS[31:0] into every lane. -/
def execBcast (o : VOp) (s : State) : Host.Outcome State Fault Refusal :=
  ok (issue o.core (encV 0x25 1 o) (fun _ _ k => vres 2 o k (fun _ => ((k.th.s o.ss).setWidth 32, 0)) (k.th.sp o.ss) [(Loc.s o.ss, 0)]) s)

/-- SEL: VA where PRED is 1, VB where it is 0; every lane is written (R164). -/
def execSel (o : VOp) (s : State) : Host.Outcome State Fault Refusal :=
  ok (issue o.core (encV 0x25 2 o) (fun _ _ k =>
    .go { lands := [(2, .vreg o.vd (BitVec.allOnes 2048)
            (vecOf (fun l => if k.th.active o l then vlane (k.th.v o.va) l else vlane (k.th.v o.vb) l))
            (k.th.vp o.va || k.th.vp o.vb || k.th.ap o))]
          reads := predRead o ++ [(Loc.v o.va, 0), (Loc.v o.vb, 0)] }) s)

/-- GET: SS = lane IMM18[5:0] of VA, zero-extended (R164). -/
def execGet (o : VOp) (s : State) : Host.Outcome State Fault Refusal :=
  ok (issue o.core (encV 0x25 3 o) (fun _ _ k =>
    .go { lands := [(3, .sreg o.ss ((vlane (k.th.v o.va) (o.imm.toNat % 64)).setWidth 64) (k.th.vp o.va))]
          reads := [(Loc.v o.va, 0)] }) s)

/-- PUT: lane IMM18[5:0] of VD = SS[31:0], other lanes kept (R164). -/
def execPut (o : VOp) (s : State) : Host.Outcome State Fault Refusal :=
  ok (issue o.core (encV 0x25 4 o) (fun _ _ k =>
    .go { lands := [(2, .vreg o.vd (laneMask (fun l => l == o.imm.toNat % 64))
            (vecOf (fun _ => (k.th.s o.ss).setWidth 32)) (k.th.sp o.ss || k.th.vp o.vd))]
          reads := [(Loc.s o.ss, 0)] }) s)

/-- PERM: VD[l] = VA[VB[l] mod 64]. -/
def execPerm (o : VOp) (s : State) : Host.Outcome State Fault Refusal :=
  ok (issue o.core (encV 0x25 5 o) (fun _ _ k => vres 3 o k (fun l =>
    (vlane (k.th.v o.va) ((vlane (k.th.v o.vb) l).toNat % 64), 0)) (k.th.vp o.va || k.th.vp o.vb)
    [(Loc.v o.va, 0), (Loc.v o.vb, 0)]) s)

/-- IOTA: VD[l] = l. -/
def execIota (o : VOp) (s : State) : Host.Outcome State Fault Refusal :=
  ok (issue o.core (encV 0x25 6 o) (fun _ _ k => vres 1 o k (fun l => (BitVec.ofNat 32 l, 0)) false []) s)

/-- A function of two predicates into predicate VD[2:0]. -/
def ppair (o : VOp) (k : Core) (f : BitVec 64 → BitVec 64 → BitVec 64) : IRes :=
  .go { lands := [(1, .preg (pfld o.vd) (BitVec.allOnes 64) (f (k.th.p (pfld o.va)) (k.th.p (pfld o.vb)))
          (k.th.pp (pfld o.va) || k.th.pp (pfld o.vb)))]
        reads := [(Loc.p (pfld o.va), 0), (Loc.p (pfld o.vb), 0)] }

/-- Predicate VD[2:0] = a constant. -/
def pconst (o : VOp) (v : BitVec 64) : IRes :=
  .go { lands := [(1, .preg (pfld o.vd) (BitVec.allOnes 64) v false)] }

/-- The lowest 1 bit of a predicate, 64 if none. -/
def firstOne (p : BitVec 64) : Nat := ((List.range 64).find? (fun l => p.getLsbD l)).getD 64

/-- The number of 1 bits of a predicate. -/
def countOnes (p : BitVec 64) : Nat := ((List.range 64).filter (fun l => p.getLsbD l)).length

/-- SS = a count taken from predicate VA[2:0]. -/
def pcount (o : VOp) (k : Core) (f : BitVec 64 → Nat) : IRes :=
  .go { lands := [(2, .sreg o.ss (BitVec.ofNat 64 (f (k.th.p (pfld o.va)))) (k.th.pp (pfld o.va)))]
        reads := [(Loc.p (pfld o.va), 0)] }

/-- VPRED AND. -/
def execVpredAnd (o : VOp) (s : State) : Host.Outcome State Fault Refusal :=
  ok (issue o.core (encV 0x26 0 o) (fun _ _ k => ppair o k (fun a b => a &&& b)) s)

/-- VPRED OR. -/
def execVpredOr (o : VOp) (s : State) : Host.Outcome State Fault Refusal :=
  ok (issue o.core (encV 0x26 1 o) (fun _ _ k => ppair o k (fun a b => a ||| b)) s)

/-- VPRED XOR. -/
def execVpredXor (o : VOp) (s : State) : Host.Outcome State Fault Refusal :=
  ok (issue o.core (encV 0x26 2 o) (fun _ _ k => ppair o k (fun a b => a ^^^ b)) s)

/-- VPRED ANDN. -/
def execVpredAndn (o : VOp) (s : State) : Host.Outcome State Fault Refusal :=
  ok (issue o.core (encV 0x26 3 o) (fun _ _ k => ppair o k (fun a b => a &&& ~~~b)) s)

/-- VPRED SET. -/
def execVpredSet (o : VOp) (s : State) : Host.Outcome State Fault Refusal :=
  ok (issue o.core (encV 0x26 4 o) (fun _ _ _ => pconst o (BitVec.allOnes 64)) s)

/-- VPRED CLR. -/
def execVpredClr (o : VOp) (s : State) : Host.Outcome State Fault Refusal :=
  ok (issue o.core (encV 0x26 5 o) (fun _ _ _ => pconst o (0)) s)

/-- VPRED CNT. -/
def execVpredCnt (o : VOp) (s : State) : Host.Outcome State Fault Refusal :=
  ok (issue o.core (encV 0x26 6 o) (fun _ _ k => pcount o k countOnes) s)

/-- VPRED FIRST. -/
def execVpredFirst (o : VOp) (s : State) : Host.Outcome State Fault Refusal :=
  ok (issue o.core (encV 0x26 7 o) (fun _ _ k => pcount o k firstOne) s)

/-! ### Vector memory (R167) -/

/-- SS + 64 × IMM18. -/
def vaddr (o : VOp) (k : Core) : Nat := (k.th.s o.ss + o.imm.signExtend 64 * 64).toNat

/-- The trap of an access of `n` bytes there: poisoned address, SCRATCH_BOUND, MISALIGNED (R167, R200, R576). -/
def vecTrap (o : VOp) (k : Core) (n : Nat) : Option (BitVec 16) :=
  if k.th.sp o.ss then some stPOISON_CONSUMED
  else if scratchEnd < vaddr o k + n then some stSCRATCH_BOUND
  else if vaddr o k % 64 ≠ 0 then some stMISALIGNED
  else none

/-- The banks that `n` bytes at `a` take in cycle 2. -/
def vbanks (a n : Nat) : List (Nat × Nat) := (linesOf a n).map (fun l => (2, scratchBank (64 * l)))

/-- VLD: 256 bytes of scratch as they stand 2 CCLK after issue (R164, R216). -/
def execVld (o : VOp) (s : State) : Host.Outcome State Fault Refusal :=
  ok (issue o.core (encV 0x28 0 o) (fun _ _ k =>
    match vecTrap o k 256 with
    | some st => .trap st 0
    | none =>
      let a := vaddr o k
      let q := k.viewAt (k.th.cyc + 2)
      match vres 5 o k (fun l => (BitVec.ofNat 32 (leNat (q.rd (a + 4 * l) 4)), 0)) (q.marked a 256)
          [(Loc.s o.ss, 0)] with
      | .go e => .go { e with banks := vbanks a 256 }
      | r => r) s)

/-- VST: the 4 bytes of each active lane of VA, seen 3 CCLK after issue (R164, R216, R575). -/
def execVst (o : VOp) (s : State) : Host.Outcome State Fault Refusal :=
  ok (issue o.core (encV 0x29 0 o) (fun _ _ k =>
    match vecTrap o k 256 with
    | some st => .trap st 0
    | none =>
      let a := vaddr o k
      let bytes := (List.range 64).flatMap (fun l =>
        (leBytes 4 (vlane (k.th.v o.va) l).toNat).map (fun b => if k.th.active o l then some b else none))
      .go { lands := [(3, .scratch a bytes (k.th.vp o.va || k.th.ap o))]
            reads := predRead o ++ [(Loc.v o.va, 0), (Loc.s o.ss, 0)]
            banks := vbanks a 256 }) s)

/-! ### Mask streams (R195 to R197, 16_stochastic.md R464 to R469) -/

/-- The rotations of the mask function (R464). -/
def maskRot (r : Nat) : Nat := [13, 37, 7, 51, 29, 19, 43, 3, 23, 59, 11, 31].getD r 0

/-- Rounds of the mask function from round `r` on (R464). -/
def maskRounds (k0 k1 : Word64) : Nat → Nat → Word64 → Word64 → Word64
  | 0, _, a, b => a ^^^ b.rotateLeft 32
  | n + 1, r, a, b =>
    let a := a + b + (if r % 2 = 0 then k0 else k1)
    maskRounds k0 k1 n (r + 1) a (b.rotateLeft (maskRot r) ^^^ a)

/-- The mask function: word `w` of block `c` (R464). -/
def maskWord (k0 k1 c : Word64) (w : Nat) : Word64 :=
  maskRounds k0 k1 12 0 (c + k0) ((BitVec.ofNat 64 w * 0x9E3779B97F4A7C15) ^^^ k1)

/-- Draw `l` of block `c` (R465). -/
def maskDraw (k0 k1 c : Word64) (l : Nat) : Nat := (maskWord k0 k1 c (l / 4)).toNat / 2 ^ (16 * (l % 4)) % 65536

/-- The key of stream `m` of a context (R466). -/
def streamKey (g : Ctx) (x m : Nat) : Word64 × Word64 :=
  (g.seed.setWidth 64, g.seed.extractLsb' 64 64 ^^^ BitVec.ofNat 64 (g.tenant * 2 ^ 16 + x * 2 ^ 8 + m))

/-- A VMASK: MASK_STREAM_OWNER from a core other than the owner (R469); else it consumes one block of the stream and
goes on with its draws. -/
def vmask (o : VOp) (s : State) (x : CtxId) (f : (Nat → Nat) → Eff) : IRes :=
  let m := o.imm.toNat % 64
  let g := s.ctx x
  let (c, own) := sget (0, none) g.streams m
  if own.isSome && own != some o.core then .trap stMASK_STREAM_OWNER 0
  else
    let key := streamKey g x m
    let e := f (maskDraw key.1 key.2 c)
    .go { e with onState := fun s =>
      let s := s.modCtx x (fun g => { g with streams := sset (0, none) g.streams m (c + 1, some o.core) })
      (s.modJob x (fun j => { j with blocks := j.blocks + 1 })).inc (pCTX x) 0xF80 }

/-- VMASK.MASK: bit l of predicate VD[2:0] = draw l < p_l (R196). -/
def execVmaskMask (o : VOp) (s : State) : Host.Outcome State Fault Refusal :=
  ok (issue o.core (encV 0x27 0 o) (fun s x k => vmask o s x (fun d =>
    let act := k.th.active o
    { lands := [(6, .preg (pfld o.vd) (if o.pz then BitVec.allOnes 64 else predOf act)
        (predOf (fun l => act l && decide (d l < (k.th.vb o l).toNat % 65536)))
        (k.th.vbp o || k.th.ap o || (merges o && k.th.pp (pfld o.vd))))]
      reads := predRead o ++ bRead o })) s)

/-- VMASK.DRAW: draw l, zero-extended, into lane l of VD (R197). -/
def execVmaskDraw (o : VOp) (s : State) : Host.Outcome State Fault Refusal :=
  ok (issue o.core (encV 0x27 1 o) (fun s x k => vmask o s x (fun d =>
    let act := k.th.active o
    { lands := [(6, .vreg o.vd (vmaskOf o act) (vecOf (fun l => if act l then BitVec.ofNat 32 (d l) else 0))
        (k.th.ap o || (merges o && k.th.vp o.vd)))]
      reads := predRead o })) s)

/-! ### Checksum residues (R198, R199) -/

/-- Is |a − b| > 2^−tol × |c| in FP32? A NaN or infinite operand does not fail (R198). -/
def tolFails (tol : Nat) (a b c : Word32) : Bool :=
  let fin := fun x => match f32val x with | .num _ _ _ => true | _ => false
  if fin a && fin b && fin c then
    let d := (fsub a b).1 &&& 0x7FFFFFFF
    let m := (roundVal (match f32val c with | .num _ m e => .num false m (e - tol) | v => v)).1
    cmpNum (f32val d) (f32val m) == .gt
  else false

/-- CKSUM.CMP: predicate of the failing lanes, and their number in SS (R198). -/
def execCksumCmp (o : VOp) (s : State) : Host.Outcome State Fault Refusal :=
  ok (issue o.core (encV 0x2A 0 o) (fun s _ k =>
    let act := k.th.active o
    let tol := o.imm.getLsbD 0
    let fail := fun l => act l &&
      (if tol then tolFails s.tolExp (vlane (k.th.v o.va) l) (vlane (k.th.v o.vb) l) (vlane (k.th.v o.vc) l)
       else vlane (k.th.v o.va) l != vlane (k.th.v o.vb) l)
    let po := k.th.vp o.va || k.th.vp o.vb || (tol && k.th.vp o.vc) || k.th.ap o
    .go { lands := [(5, .preg (pfld o.vd) (if o.pz then BitVec.allOnes 64 else predOf act) (predOf fail)
                      (po || (merges o && k.th.pp (pfld o.vd)))),
                    (6, .sreg o.ss (BitVec.ofNat 64 (countOnes (predOf fail))) po)]
          reads := predRead o ++ [(Loc.v o.va, 0), (Loc.v o.vb, 0)] ++ (if tol then [(Loc.v o.vc, 0)] else []) }) s)

/-- CKSUM.LOG: counts added to the receipt; a mismatch is logged, or traps CKSUM_HALT under HALT (R199, R576)
(DEDUCED, log entry 104). -/
def execCksumLog (o : VOp) (s : State) : Host.Outcome State Fault Refusal :=
  ok (issue o.core (encV 0x2A 1 o) (fun s x k =>
    let v := k.th.s o.ss
    let bad := v.toNat / 2 ^ 32
    if k.th.sp o.ss then .trap stPOISON_CONSUMED 0
    else if bad ≠ 0 ∧ s.action = 2 then .trap stCKSUM_HALT 0
    else .go { reads := [(Loc.s o.ss, 0)]
               onState := fun s =>
                 let s := s.modCounts x (fun c => { c with swChecks := c.swChecks + v.toNat % 2 ^ 32
                                                           swMismatch := c.swMismatch + bad })
                 if bad = 0 then s
                 else s.detectOpen cCONTAINED stCKSUM_MISMATCH 0x1C o.core (some x) }) s)

/-! ### BS8 moments (R200 to R203, 17_learning.md R510 to R513) -/

/-- The dequantised first and second moment of a lane: value of the codes under scale E (R511). -/
def bs8Load (qm qv e : Nat) : Word32 × Word32 :=
  if e = 0xFF then (qnan32, qnan32)
  else
    let m := (BitVec.ofNat 8 qm).toInt
    let u : Int := (e : Int) - 134
    ((roundVal (.num (decide (m < 0)) m.natAbs u)).1, (roundVal (.num false (qv * qv) (2 * u))).1)

/-- MOMQ.LD: 64 first moments to VD, 64 second moments to VD + 1 (R201, R511). -/
def execMomqLd (o : VOp) (s : State) : Host.Outcome State Fault Refusal :=
  ok (issue o.core (encV 0x2B 0 o) (fun _ _ k =>
    match vecTrap o k 192 with
    | some st => .trap st 0
    | none =>
      let a := vaddr o k
      let q := k.viewAt (k.th.cyc + 2)
      let b := q.rd a 192
      let byte := fun i => (b.getD i 0).toNat
      let e := byte 0x80
      let act := k.th.active o
      let po := q.marked a 192 || k.th.ap o
      let vd1 := rfld (o.vd.val + 1)
      .go { lands := [(7, .vreg o.vd (vmaskOf o act)
                        (vecOf (fun l => if act l then (bs8Load (byte l) (byte (0x40 + l)) e).1 else 0))
                        (po || (merges o && k.th.vp o.vd))),
                      (7, .vreg vd1 (vmaskOf o act)
                        (vecOf (fun l => if act l then (bs8Load (byte l) (byte (0x40 + l)) e).2 else 0))
                        (po || (merges o && k.th.vp vd1)))]
            flags := if e = 0xFF then laneFlags act (fun _ => fNV) 64 else 0
            reads := predRead o ++ [(Loc.s o.ss, 0)]
            banks := vbanks a 192 }) s)

/-- A magnitude rounded to an integer, nearest even or by a draw (R194, R512). -/
def roundCode (draw : Option Nat) (m : Nat) (e : Int) : Nat :=
  if 0 ≤ e then m * 2 ^ e.toNat
  else
    let sh := (-e).toNat
    let lo := m / 2 ^ sh
    let rem := m % 2 ^ sh
    let up : Bool := match draw with
      | none => decide (2 ^ sh < 2 * rem) || (decide (2 * rem = 2 ^ sh) && lo % 2 == 1)
      | some r => decide (r * 2 ^ sh < 65536 * rem)
    if up then lo + 1 else lo

/-- Is the magnitude m * 2^e at most c * 2^u? -/
def magLe (m : Nat) (e : Int) (c : Nat) (u : Int) : Bool :=
  let e0 := min e u
  decide (m * 2 ^ (e - e0).toNat ≤ c * 2 ^ (u - e0).toNat)

/-- The smallest scale from `E` on that holds every lane, 254 when none does (R512). -/
def bs8Scale (ms rs : List (Nat × Int)) : Nat → Nat → Nat
  | 0, e => e
  | n + 1, e =>
    if ms.all (fun x => magLe x.1 x.2 127 ((e : Int) - 134)) && rs.all (fun x => magLe x.1 x.2 255 ((e : Int) - 134))
    then e else bs8Scale ms rs n (e + 1)

/-- The 192 bytes of MOMQ.ST, and whether it raises invalid (R512, R513). -/
def bs8Store (m v : Nat → Word32) (dm dv : Nat → Option Nat) : List Byte × Bool :=
  let bad := (List.range 64).any (fun l => match f32val (m l), f32val (v l) with
    | .num _ _ _, .num s n _ => s && n != 0
    | _, _ => true)
  if bad then (List.replicate 128 0 ++ 0xFF :: List.replicate 63 0, true)
  else
    let mag := fun w => match f32val w with | .num _ n e => (n, e) | _ => (0, 0)
    let ms := (List.range 64).map (fun l => mag (m l))
    let rs := (List.range 64).map (fun l => mag (fsqrt (v l)).1)
    let e := bs8Scale ms rs 254 0
    let u : Int := (e : Int) - 134
    let code := fun (x : Nat × Int) (d : Option Nat) (lim : Nat) => min lim (roundCode d x.1 (x.2 - u))
    let qm := (List.range 64).map (fun l =>
      let c := code (ms.getD l (0, 0)) (dm l) 127
      BitVec.ofInt 8 (if (m l).getLsbD 31 then -(c : Int) else c))
    let qv := (List.range 64).map (fun l => BitVec.ofNat 8 (code (rs.getD l (0, 0)) (dv l) 255))
    (qm ++ qv ++ BitVec.ofNat 8 e :: List.replicate 63 0, false)

/-- MOMQ.ST: quantises VA and VA + 1 into the block, seen 5 CCLK after issue (R201, R512, R513). -/
def execMomqSt (o : VOp) (s : State) : Host.Outcome State Fault Refusal :=
  ok (issue o.core (encV 0x2B 1 o) (fun _ _ k =>
    match vecTrap o k 192 with
    | some st => .trap st 0
    | none =>
      let a := vaddr o k
      let va1 := rfld (o.va.val + 1)
      let dr := fun l => (vlane (k.th.v o.vc) l).toNat
      let (bs, nv) := bs8Store (fun l => vlane (k.th.v o.va) l) (fun l => vlane (k.th.v va1) l)
        (fun l => if o.sr then some (dr l % 65536) else none)
        (fun l => if o.sr then some (dr l / 65536) else none)
      .go { lands := [(5, .scratch a (bs.map some) (k.th.vp o.va || k.th.vp va1 || (o.sr && k.th.vp o.vc)))]
            flags := if nv then fNV else 0
            reads := [(Loc.v o.va, 0), (Loc.v va1, 0), (Loc.s o.ss, 0)] ++ (if o.sr then [(Loc.v o.vc, 0)] else [])
            banks := vbanks a 192 }) s)

/-- One lane of MOMQ.UPD: the pseudocode of R202, each step rounded, with its flags. -/
def momqLane (b1 b2 g m v : Word32) : Word32 × Word32 × FFlags :=
  let c1 := fsub 0x3F800000 b1
  let p1 := fmul b1 m
  let q1 := fmul c1.1 g
  let m' := fadd p1.1 q1.1
  let c2 := fsub 0x3F800000 b2
  let g2 := fmul g g
  let p2 := fmul b2 v
  let q2 := fmul c2.1 g2.1
  let v' := fadd p2.1 q2.1
  (m'.1, v'.1, c1.2 ||| p1.2 ||| q1.2 ||| m'.2 ||| c2.2 ||| g2.2 ||| p2.2 ||| q2.2 ||| v'.2)

/-- MOMQ.UPD: m in VD and v in VD + 1 from the gradient in VA (R202). -/
def execMomqUpd (o : VOp) (s : State) : Host.Outcome State Fault Refusal :=
  ok (issue o.core (encV 0x2B 2 o) (fun _ _ k =>
    let act := k.th.active o
    let vd1 := rfld (o.vd.val + 1)
    let b1 : Word32 := (k.th.s o.ss).setWidth 32
    let b2 : Word32 := (k.th.s o.ss).extractLsb' 32 32
    let r := fun l => momqLane b1 b2 (vlane (k.th.v o.va) l) (vlane (k.th.v o.vd) l) (vlane (k.th.v vd1) l)
    let po := k.th.vp o.va || k.th.sp o.ss || k.th.vp o.vd || k.th.vp vd1 || k.th.ap o
    .go { lands := [(9, .vreg o.vd (vmaskOf o act) (vecOf (fun l => if act l then (r l).1 else 0)) po),
                    (9, .vreg vd1 (vmaskOf o act) (vecOf (fun l => if act l then (r l).2.1 else 0)) po)]
          flags := laneFlags act (fun l => (r l).2.2) 64
          reads := predRead o ++ [(Loc.v o.va, 0), (Loc.v o.vd, 0), (Loc.v vd1, 0), (Loc.s o.ss, 0)] }) s)

end Sys2Proof.Machine
end

