-- ==== Sys2Proof/Machine/Annealer.lean ====
section
/-! DEFINITION. The annealer (16_stochastic.md R471 to R488): channels and runs, the problem layout and its checks,
sweeps, split problems, results, self-test. -/

namespace Sys2Proof.Machine

/-! ### Channels -/

/-- A channel beyond its registers. -/
def State.anlCh (s : State) (c : Nat) : AnlCh := sget {} s.anl.chs c

/-- Change a channel. -/
def State.modAnl (s : State) (c : Nat) (f : AnlCh → AnlCh) : State :=
  { s with anl := { s.anl with chs := smod {} s.anl.chs c f } }

/-- Is a channel the host's? -/
def State.anlHost (s : State) (c : Nat) : Bool := bit (s.anlCfg c) 6
/-- Context of a channel. -/
def State.anlCtx (s : State) (c : Nat) : CtxId := ⟨fld (s.anlCfg c) 0 6, Nat.mod_lt _ (by decide)⟩
/-- ANL_CHn_TENSORS. -/
def State.anlTensors (s : State) (c : Nat) : Word32 := s.reg pANL (0x208 + 0x10 * c)

/-- The record of a channel's problem or result, with its size and whether the owner may write it. -/
def State.anlRec (s : State) (c : Nat) (result : Bool) : Option (Nat × Nat × Bool) :=
  let t := s.anlTensors c
  if s.anlHost c then
    let rn := if result then fld t 16 15 else fld t 0 15
    (s.trec rn).map (fun r => (rn, r.size, true))
  else (s.tensor (s.anlCtx c) (if result then fld t 16 12 else fld t 0 12)).map (fun e => (e.1, e.2.1.size, e.2.2))

/-- The partition of a channel's owner. -/
def State.anlPart (s : State) (c : Nat) : Nat :=
  if s.anlHost c then s.sysPart else s.tenantPart (s.epsTenant (s.anlCtx c))

/-- Arrive at a channel's DONE barrier: an arrival that finds the last one unanswered waits for the next instance. -/
def State.anlArrive (s : State) (c : Fin 32) : State :=
  if s.anlHost c ∨ !bit (s.anlBar c) 14 then s
  else
    let x := s.anlCtx c
    let b := fld (s.anlBar c) 8 6
    let k := s.bar x b
    if k.engArrived.contains (.anl c) ∨ k.passedE.contains (.anl c) then s.modAnl c (fun a => { a with owed := a.owed + 1 })
    else s.engArrive x b (.anl c)

/-- Arrivals that waited for a new instance of a barrier. -/
def State.anlOwed (s : State) (x : CtxId) (b : Nat) : State :=
  (List.finRange 32).foldl (fun (s : State) (c : Fin 32) =>
    if 0 < (s.anlCh c).owed ∧ s.anlOn c x ∧ bit (s.anlBar c) 14 ∧ fld (s.anlBar c) 8 6 = b then
      (s.modAnl c (fun a => { a with owed := a.owed - 1 })).anlArrive c
    else s) s

/-- Set the last status of a channel. -/
def State.anlStatus (s : State) (c : Nat) (st : BitVec 16) : State :=
  s.setReg pANL (0x900 + 0x10 * c) (BitVec.ofNat 32 (st.toNat * 2 ^ 16))

/-- A run of a channel ends with a status (R472, R473): the waiting one begins. -/
def State.endRun (s : State) (c : Fin 32) (st : BitVec 16) : State :=
  let s := s.anlStatus c st
  let s := if st = stOK then s.inc pANL 0xF00 else (s.inc pANL 0xF08).raise pANL 17
  let s := if s.anlHost c then s.raise pANL 16 else s
  let s := s.modAnl c (fun a => { a with
    state := if a.waiting then .loading else .idle, waiting := false, prob := none, spins := [], beta := 0, log := [], inbox := [] })
  s.anlArrive c

/-- Write bytes of a channel's result. -/
def State.anlWrite (s : State) (c : Nat) (off : Nat) (bs : List Byte) : State :=
  match s.anlRec c true with
  | some (rn, size, rw) =>
    if rw ∧ off + bs.length ≤ size then s.recWrite rn false .default (s.anlPart c) false off bs else s
  | none => s

/-- A run ends with only the STATUS field of its result written (R475, R477). -/
def State.endRunStatus (s : State) (c : Fin 32) (st : BitVec 16) : State := (s.anlWrite c 4 (leBytes 2 st.toNat)).endRun c st

/-- A trigger (R472, R473): the run starts, waits, or is refused. -/
def State.anlTrigger (s : State) (c : Fin 32) : Bool × State :=
  let a := s.anlCh c
  if a.waiting then (false, ((s.anlStatus c stBUSY).inc pANL 0xF38).anlArrive c)
  else if a.state = .idle then (true, s.modAnl c (fun a => { a with state := .loading }))
  else (true, s.modAnl c (fun a => { a with waiting := true }))

/-- ANL_TRIGGER (R472): a completion of the START barrier that no trigger has answered. -/
def execAnlTrigger (ch : Fin 32) (s : State) : Host.Outcome State Fault Refusal :=
  ok (if (s.anlCh ch).trig = 0 then s
      else s.engineEvent dANL (fun s => ((s.modAnl ch (fun a => { a with trig := a.trig - 1 })).anlTrigger ch).2))

/-! ### The problem (R476, R477) -/

/-- The next multiple of 64. -/
def up64 (n : Nat) : Nat := (n + 63) / 64 * 64

/-- Bit `i` of packed bits. -/
def bitAt (bs : List Byte) (i : Nat) : Bool := bit (bs.getD (i / 8) 0) (i % 8)

/-- Bits packed into bytes. -/
def packBits (l : List Bool) : List Byte :=
  (List.range ((l.length + 7) / 8)).map (fun i =>
    BitVec.ofNat 8 ((List.range 8).map (fun j => bnat (l.getD (8 * i + j) false) * 2 ^ j)).sum)

/-- A signed number of `n` bytes. -/
def sle (bs : List Byte) (off n : Nat) : Int :=
  let v := lef bs off n
  if 2 ^ (8 * n - 1) ≤ v then (v : Int) - 2 ^ (8 * n) else v

/-- Offsets of the sections: fields, spins, dense, sparse, peers. -/
def anlSections (blocks ghosts sparse : Nat) : Nat × Nat × Nat × Nat × Nat :=
  let n := 256 * blocks
  let f := 576
  let sp := up64 (f + 2 * n)
  let d := up64 (sp + (n + ghosts + 7) / 8)
  let q := up64 (d + 65536 * blocks)
  (f, sp, d, q, up64 (q + 8 * sparse))

/-- The peer lists, entry by entry. -/
def readPeers (bs : List Byte) (at_ peers : Nat) : Nat → Nat → List Peer
  | 0, _ => []
  | k + 1, lists =>
    let e := at_ + 16 * (peers - (k + 1))
    let ex := lef bs (e + 4) 4
    let im := lef bs (e + 8) 4
    let p : Peer := { chip := BitVec.ofNat 12 (lef bs e 2), part := bs.getD (e + 2) 0
                      exports := (List.range ex).map (fun i => lef bs (lists + 2 * i) 2)
                      imports := (List.range im).map (fun i => lef bs (lists + 2 * ex + 2 * i) 2) }
    p :: readPeers bs at_ peers k (lists + 2 * ex + 2 * im)

/-- Bytes of the peers section. -/
def peersLen (bs : List Byte) (at_ peers : Nat) : Nat :=
  16 * peers + ((List.range peers).map (fun i => 2 * lef bs (at_ + 16 * i + 4) 4 + 2 * lef bs (at_ + 16 * i + 8) 4)).sum

/-- Check 2: the header. -/
def anlHeaderOk (h : List Byte) : Bool :=
  let blocks := lef h 4 2
  lef h 0 4 == 0x4C4E4150 && decide (1 ≤ blocks) && decide (blocks ≤ 256) && decide (256 * blocks + lef h 6 2 ≤ 65536)
    && decide (lef h 8 4 ≤ 1048576) && decide (lef h 13 1 ≤ 15) && decide (lef h 14 1 ≤ 1)
    && (lef h 14 1 == 1 || (decide (2 ≤ lef h 15 1) && decide (lef h 15 1 ≤ 64)))
    && decide (1 ≤ lef h 16 4) && decide (1 ≤ lef h 20 4) && lef h 0x34 12 == 0

/-- The problem of a tensor's bytes. -/
def parseProb (bs : List Byte) : Prob :=
  let blocks := lef bs 4 2
  let ghosts := lef bs 6 2
  let sparse := lef bs 8 4
  let (f, _, d, q, p) := anlSections blocks ghosts sparse
  { blocks := blocks, ghosts := ghosts, part := lef bs 12 1, curve := lef bs 14 1, sweeps := lef bs 16 4, k := lef bs 20 4
    beta0 := lef bs 0x18 4, ratio := lef bs 0x1C 4, seed := BitVec.ofNat 128 (lef bs 0x20 16), runId := BitVec.ofNat 32 (lef bs 0x30 4)
    points := (List.range (lef bs 15 1)).map (fun i => (lef bs (64 + 8 * i) 4, lef bs (68 + 8 * i) 4))
    fields := (List.range (256 * blocks)).map (fun i => sle bs (f + 2 * i) 2)
    dense := (List.range (65536 * blocks)).map (fun i => sle bs (d + i) 1)
    sparse := (List.range sparse).map (fun i => (lef bs (q + 8 * i) 2, lef bs (q + 8 * i + 2) 2, sle bs (q + 8 * i + 4) 1))
    peers := readPeers bs p (lef bs 13 1) (lef bs 13 1) (p + 16 * lef bs 13 1) }

/-- The dense coupling of local indices `i` and `j` of block `b`. -/
def Prob.dij (p : Prob) (b i j : Nat) : Int := p.dense.getD (65536 * b + 256 * i + j) 0

/-- Do numbers rise strictly? -/
def rising : List Nat → Bool
  | a :: b :: l => decide (a < b) && rising (b :: l)
  | _ => true

/-- Check 4: the content. Reserved bytes of sections are not among its conditions. -/
def Prob.contentOk (p : Prob) : Bool :=
  let n := 256 * p.blocks
  let r := List.range 256
  (List.range p.blocks).all (fun b => r.all (fun i => p.dij b i i == 0 && r.all (fun j => p.dij b i j == p.dij b j i)))
    && p.sparse.all (fun e => decide (e.1 < n) && decide (e.2.1 < n + p.ghosts) && e.1 != e.2.1
        && (decide (n ≤ e.2.1) || e.1 / 256 != e.2.1 / 256))
    && (p.curve == 1 || ((p.points.head?.map (fun e => e.1)).getD 0 == 0 && rising (p.points.map (fun e => e.1))))
    && p.peers.all (fun q => q.exports.all (fun i => decide (i < n)) && q.imports.all (fun g => decide (g < p.ghosts)))

/-- Bytes of a result (R477). -/
def Prob.resultLen (p : Prob) : Nat :=
  64 + up64 ((256 * p.blocks + p.ghosts + 7) / 8) + 16 * (p.peers.length * (p.sweeps / p.k))

/-- In deterministic mode, does the problem name peers (19_receipts.md R568)? -/
def State.anlSplit (s : State) (c : Fin 32) : Bool × State :=
  if !bit (s.reg pCHK 0x100) 2 then (false, s)
  else match s.anlRec c false with
    | some (rn, size, rw) =>
      if size < 64 then (false, s)
      else
        let (h, _, s) := s.recRead rn false .default (s.anlPart c) rw 0 64
        (decide (0 < lef h 13 1), s)
    | none => (false, s)

/-- The checks and the load of a run (R477): the status that ends it, or the problem and its spins. -/
def State.anlCheck (s : State) (c : Fin 32) : Sum (BitVec 16) (Prob × List Bool) × State :=
  match s.anlRec c false, s.anlRec c true with
  | some (rn, size, rw), some (_, rsize, true) =>
    if size < 64 then (.inl stBOUND, s)
    else
      let part := s.anlPart c
      let (h, hp, s) := s.recRead rn false .default part rw 0 64
      if !anlHeaderOk h then (.inl stPROBLEM_INVALID, s)
      else
        let blocks := lef h 4 2
        let ghosts := lef h 6 2
        let peers := lef h 13 1
        let (_, sp, _, _, p) := anlSections blocks ghosts (lef h 8 4)
        let cfg := s.anlCfg c
        if fld cfg 8 9 < blocks ∨ 4096 * fld cfg 17 9 < lef h 8 4 ∨ size < p + 16 * peers then (.inl stBOUND, s)
        else
          let (pre, pp, s) := s.recRead rn false .default part rw 0 (p + 16 * peers)
          let total := p + peersLen pre p peers
          if size < total then (.inl stBOUND, s)
          else
            let (rest, rp, s) := s.recRead rn false .default part rw (p + 16 * peers) (total - (p + 16 * peers))
            let bs := pre ++ rest
            let prob := parseProb bs
            if rsize < prob.resultLen then (.inl stBOUND, s)
            else if !prob.contentOk then (.inl stPROBLEM_INVALID, s)
            else if hp ∨ pp ∨ rp then (.inl stDATA_POISON, s)
            else
              let bits := slice bs sp ((256 * blocks + ghosts + 7) / 8)
              (.inr (prob, (List.range (256 * blocks + ghosts)).map (bitAt bits)), s)
  | _, _ => (.inl stTENSOR_DENIED, s)

/-- LOADING: a split run ends MODE_DENIED in deterministic mode before the checks of R477 (19_receipts.md R568). -/
def State.anlLoad (s : State) (c : Fin 32) : Sum (BitVec 16) (Prob × List Bool) × State :=
  match s.anlSplit c with
  | (true, s) => (.inl stMODE_DENIED, s)
  | (false, s) => s.anlCheck c

/-- ANL_LOAD_DONE (R477): nothing is written to the result after MODE_DENIED or after a failure of check 1 or 3
(DEDUCED, log entry 128). -/
def execAnlLoadDone (ch : Fin 32) (s : State) : Host.Outcome State Fault Refusal :=
  ok (if (s.anlCh ch).state ≠ .loading then s
      else s.engineEvent dANL (fun s =>
        match s.anlLoad ch with
        | (.inl st, s) => if st = stTENSOR_DENIED ∨ st = stBOUND ∨ st = stMODE_DENIED then s.endRun ch st else s.endRunStatus ch st
        | (.inr (p, spins), s) =>
          let s := (s.setReg pANL (0x904 + 0x10 * ch.val) 0).setReg pANL (0x908 + 0x10 * ch.val) p.runId
          let s := if !s.anlHost ch ∧ !p.peers.isEmpty then s.modJob (s.anlCtx ch) (fun j => if j.live then { j with split := true } else j)
            else s
          s.modAnl ch (fun a => { a with state := .running, prob := some p, spins := spins, beta := p.beta0, log := [], inbox := [] })))

/-! ### Sweeps (R478 to R481) -/

/-- The greatest `t` below 2^n with t^1024 ≤ m, built bit by bit. -/
def root1024 (m : Nat) : Nat → Nat → Nat
  | 0, t => t
  | n + 1, t => root1024 m n (if (t + 2 ^ n) ^ 1024 ≤ m then t + 2 ^ n else t)

/-- EXP2T (R479): the floor of 65,536 × 2^(−k/1,024), at most 65,535. -/
def exp2t (k : Nat) : Nat := min 65535 (root1024 (2 ^ (16384 - k)) 17 0)

/-- beta[n] of a table (R481). -/
def tableBeta (pts : List (Nat × Nat)) (n : Nat) : Nat :=
  match pts.getLast? with
  | none => 0
  | some l =>
    if l.1 ≤ n then l.2
    else
      let k := (pts.takeWhile (fun e => decide (e.1 ≤ n))).length - 1
      let a := pts.getD k (0, 0)
      let b := pts.getD (k + 1) (0, 0)
      let d : Int := ((b.2 : Int) - a.2) * ((n : Int) - a.1)
      ((a.2 : Int) + d.tdiv ((b.1 : Int) - a.1)).toNat

/-- A spin as a number. -/
def spinOf (l : List Bool) (i : Nat) : Int := if l.getD i false then 1 else -1

/-- The local field of spin `i` (R479). -/
def Prob.localField (p : Prob) (sp : List Bool) (i : Nat) : Int :=
  let b := i / 256
  let dense := (List.range 256).map (fun j => p.dij b (i % 256) j * spinOf sp (256 * b + j))
  let sparse := p.sparse.map (fun e =>
    if e.1 = i then e.2.2 * spinOf sp e.2.1 else if e.2.1 = i then e.2.2 * spinOf sp e.1 else 0)
  p.fields.getD i 0 + dense.sum + sparse.sum

/-- draw(n, i) (R480). -/
def Prob.draw (p : Prob) (n i : Nat) : Nat :=
  let k0 : Word64 := p.seed.setWidth 64
  let k1 : Word64 := p.seed.extractLsb' 64 64 ^^^ BitVec.ofNat 64 (2 ^ 63) ^^^ BitVec.ofNat 64 (p.part * 2 ^ 32)
  maskDraw k0 k1 (BitVec.ofNat 64 (n * 1024 + i / 64)) (i % 64)

/-- One update (R479): does spin `i` flip in sweep `n`? -/
def Prob.flips (p : Prob) (sp : List Bool) (n beta i : Nat) : Bool :=
  let d := 2 * spinOf sp i * p.localField sp i
  if d ≤ 0 then true
  else
    let x := d.toNat * beta
    let q := if 16 ≤ x / 2 ^ 16 then 0 else exp2t (x % 2 ^ 16 / 64) / 2 ^ (x / 2 ^ 16)
    decide (p.draw n i < q)

/-- Updates of the spins from `i` on: the spins after, and the flips. -/
def Prob.sweepFrom (p : Prob) (n beta : Nat) : Nat → Nat → List Bool → Nat → List Bool × Nat
  | 0, _, sp, k => (sp, k)
  | m + 1, i, sp, k =>
    if p.flips sp n beta i then p.sweepFrom n beta m (i + 1) (sp.set i (!sp.getD i false)) (k + 1)
    else p.sweepFrom n beta m (i + 1) sp k

/-- E of an assignment (R478). -/
def Prob.energy (p : Prob) (sp : List Bool) : Int :=
  let dense := (List.range p.blocks).map (fun b => ((List.range 256).map (fun i => ((List.range i).map (fun j =>
    p.dij b i j * spinOf sp (256 * b + i) * spinOf sp (256 * b + j))).sum)).sum)
  let sparse := p.sparse.map (fun e => e.2.2 * spinOf sp e.1 * spinOf sp e.2.1)
  let fields := (List.range (256 * p.blocks)).map (fun i => p.fields.getD i 0 * spinOf sp i)
  0 - (dense.sum + sparse.sum + fields.sum)

/-! ### Split problems (R483 to R485) -/

/-- Write the values of a peer's import list into the ghosts. -/
def setGhosts (n : Nat) : List Nat → List Bool → List Bool → List Bool
  | g :: gs, v :: vs, sp => setGhosts n gs vs (sp.set (n + g) v)
  | _, _, sp => sp

/-- At the start of a sweep the newest BOUNDARY of each peer is applied and logged (R484). -/
def State.applyBoundaries (s : State) (c : Fin 32) (p : Prob) (n : Nat) : State :=
  (List.range p.peers.length).foldl (fun (s : State) k =>
    let a := s.anlCh c
    let mine := a.inbox.filter (fun e => e.1 == k)
    match mine.foldl (fun (m : Option (Nat × List Bool)) e => match m with
        | some b => if b.1 ≤ e.2.1 then some (e.2.1, e.2.2) else m
        | none => some (e.2.1, e.2.2)) none with
    | none => s
    | some (src, bits) =>
      let im := (p.peers[k]?.map (fun q => q.imports)).getD []
      (s.inc pANL 0xF28).modAnl c (fun a => { a with
        inbox := a.inbox.filter (fun e => e.1 != k)
        spins := setGhosts (256 * p.blocks) im bits a.spins
        log := a.log ++ [(n, src, k)] })) s

/-- The header bytes of a BOUNDARY. -/
def boundaryExtra (p : Prob) (sweep bits : Nat) : List Byte :=
  leBytes 4 p.runId.toNat ++ leBytes 1 p.part ++ leBytes 3 0 ++ leBytes 4 sweep ++ leBytes 4 bits ++ List.replicate 12 0

/-- Send BOUNDARY to every peer (R483). -/
def State.sendBoundaries (s : State) (p : Prob) (sp : List Bool) (sweep : Nat) : State :=
  p.peers.foldl (fun (s : State) q =>
    let bits := q.exports.map (fun i => sp.getD i false)
    let body := if bits.isEmpty then [0] else packBits bits
    let m := newMsg s 0x40 q.chip.toNat
    let m : Message := { m with extra := boundaryExtra p sweep bits.length, payload := body
                                poison := List.replicate ((body.length + 63) / 64) false }
    ((s.inc pANL 0xF20).sendMsg m 5 (.engine 0x13 0)).2) s

/-- Sweeps done. -/
def State.anlSweeps (s : State) (c : Nat) : Nat := (s.reg pANL (0x904 + 0x10 * c)).toNat

/-- One whole sweep of a channel (R479, R482 to R484). -/
def State.anlSweep (s : State) (c : Fin 32) (p : Prob) : State :=
  let n := s.anlSweeps c
  let s := s.applyBoundaries c p n
  let a := s.anlCh c
  let beta := if p.curve = 0 then tableBeta p.points n else a.beta
  let local_ := 256 * p.blocks
  let (sp, flips) := p.sweepFrom n beta local_ 0 a.spins 0
  let ends := (p.sparse.map (fun e => if e.2.1 < local_ then 2 else 1)).sum
  let s := ((s.inc pANL 0xF10 local_).inc pANL 0xF18 flips).inc pANL 0xF50 ((p.blocks + 7) / 8 + (ends + 511) / 512)
  let s := s.modAnl c (fun a => { a with
    spins := sp, beta := if p.curve = 0 then a.beta else min 0xFFFFFFFF (a.beta * p.ratio / 2 ^ 16)
    state := if n + 1 = p.sweeps then .finishing else .running })
  let s := s.setReg pANL (0x904 + 0x10 * c.val) (BitVec.ofNat 32 (n + 1))
  let s : State := { s with anl := { s.anl with turn := c.val } }
  if (n + 1) % p.k = 0 then s.sendBoundaries p sp (n + 1) else s

/-- Is it a channel's turn: the first RUNNING one after the last served, in ascending order (R482)? -/
def State.anlTurn (s : State) (c : Nat) : Bool :=
  (s.anlCh c).state == .running
    && (List.range ((c + 31 - s.anl.turn) % 32)).all (fun i => (s.anlCh ((s.anl.turn + 1 + i) % 32)).state != .running)

/-- ANL_SWEEP (R479, R482). -/
def execAnlSweep (ch : Fin 32) (s : State) : Host.Outcome State Fault Refusal :=
  ok (match (s.anlCh ch).prob with
    | some p => if s.anlTurn ch then s.engineEvent dANL (fun s => s.anlSweep ch p) else s
    | none => s)

/-- A BOUNDARY reaches the annealer (R485). -/
def State.onBoundary (s : State) (m : Message) : State :=
  let run := BitVec.ofNat 32 (hdr m 0x24 4)
  let part := BitVec.ofNat 8 (hdr m 0x28 1)
  let drop := s.inc pANL 0xF30
  match (List.finRange 32).find? (fun (c : Fin 32) => match (s.anlCh c).prob with | some p => p.runId == run | none => false) with
  | none => drop
  | some c => match (s.anlCh c).prob with
    | none => drop
    | some p => match p.peers.findIdx? (fun q => q.chip == m.src && q.part == part) with
      | none => drop
      | some k =>
        let n := hdr m 0x30 4
        if n ≠ ((p.peers[k]?.map (fun q => q.imports.length)).getD 0) then s.endRunStatus c stPROBLEM_INVALID
        else s.modAnl c (fun a => { a with inbox := a.inbox ++ [(k, hdr m 0x2C 4, (List.range n).map (bitAt m.payload))] })

/-- BOUNDARY (R483 to R485). -/
def execBoundary (m : Message) (s : State) : Host.Outcome State Fault Refusal :=
  ok (s.engineMsg dANL m (fun s => s.engineTakeE m pANL (fun s => s.onBoundary m)))

/-! ### Results (R487) -/

/-- The log entries of a run. -/
def logBytes (l : List (Nat × Nat × Nat)) : List Byte :=
  l.flatMap (fun e => leBytes 4 e.1 ++ leBytes 4 e.2.1 ++ leBytes 1 e.2.2 ++ leBytes 7 0)

/-- FINISHING: the result is written and the run ends OK; the job keeps its digest (19_receipts.md R552). -/
def State.anlFinish (s : State) (c : Fin 32) (p : Prob) : State :=
  let a := s.anlCh c
  let log := logBytes a.log
  let dig := sha256 log
  let s := s.hashed log.length
  let head : List Byte := leBytes 4 0x54534552 ++ leBytes 2 stOK.toNat ++ leBytes 1 p.part ++ leBytes 1 0
    ++ leBytes 4 (s.anlSweeps c) ++ leBytes 4 a.log.length ++ leBytes 8 ((p.energy a.spins) % 2 ^ 64).toNat ++ leBytes 8 0 ++ dig
  let spins := packBits a.spins
  let s := s.anlWrite c 0 (head ++ slice spins 0 (up64 spins.length) ++ log)
  let s := if s.anlHost c then s
    else s.modJob (s.anlCtx c) (fun j => if j.live then { j with anlLogs := j.anlLogs ++ dig, anlRuns := j.anlRuns + 1 } else j)
  s.endRun c stOK

/-- ANL_RUN_END (R487). -/
def execAnlRunEnd (ch : Fin 32) (s : State) : Host.Outcome State Fault Refusal :=
  ok (match (s.anlCh ch).state, (s.anlCh ch).prob with
    | .finishing, some p => s.engineEvent dANL (fun s => s.anlFinish ch p)
    | _, _ => s)

/-- A channel's running and waiting runs end ABORTED (R475). -/
def State.anlAbort (s : State) (c : Fin 32) : State :=
  let two := (s.anlCh c).waiting
  let s := if (s.anlCh c).state = .idle then s else s.endRunStatus c stABORTED
  if two then s.endRunStatus c stABORTED else s

/-- The program of a context ends: its channels' runs end, and nothing of theirs is owed to a barrier (R475). -/
def State.anlCtxEnd (s : State) (x : CtxId) : State :=
  (List.finRange 32).foldl (fun (s : State) (c : Fin 32) =>
    if s.anlOn c x then (s.anlAbort c).modAnl c (fun a => { a with trig := 0, owed := 0 }) else s) s

/-! ### Commands (R471, R472, R475, R488) -/

/-- A command completes. -/
def State.anlDone (s : State) (st : BitVec 16) : State := s.setReg pANL 0x804 (BitVec.ofNat 32 (st.toNat + 2 ^ 31))

/-- A status that the spec does not give is free (DESIGN CHOICE, log entry 27). -/
def State.anlOpen (s : State) : State :=
  let (st, s) := s.openStatus
  s.anlDone st

/-- A write of ANL_CMD starts nothing while the page is disabled (DEDUCED, log entry 35). -/
def State.anlGo (s : State) (v : Word32) (f : State → State) : State := if bit v 31 ∧ s.pgEn pANL then f s else s

/-- The channel that a command names. -/
def anlChOf (v : Word32) : Fin 32 := ⟨fld v 8 5, Nat.mod_lt _ (by decide)⟩

/-- RUN (R472, R473). On a channel that is no VALID host channel the spec gives no status. -/
def State.anlRun (s : State) (v : Word32) : State :=
  let c := anlChOf v
  if !bit (s.anlCfg c) 7 ∨ !s.anlHost c then s.anlOpen
  else match s.anlTrigger c with
    | (true, s) => s.anlDone stOK
    | (false, s) => s.anlDone stBUSY

/-- RUN (R472). -/
def execRun (r : Requester) (v : Word32) (s : State) : Host.Outcome State Fault Refusal :=
  ok (s.write r pANL 0x800 (fun s => s.anlGo v (fun s => s.anlRun v)))

/-- ABORT (ANL page). -/
def State.anlAbortCmd (s : State) (v : Word32) : State := (s.anlAbort (anlChOf v)).anlDone stOK

/-- ANL_ABORT (ANL page). -/
def execAnlAbort (r : Requester) (v : Word32) (s : State) : Host.Outcome State Fault Refusal :=
  ok (s.write r pANL 0x800 (fun s => s.anlGo v (fun s => s.anlAbortCmd v)))

/-- SELFTEST (R488). -/
def State.anlSelftest (s : State) (v : Word32) : State :=
  let running := (List.range 32).any (fun c => (s.anlCh c).state == .running)
  if s.anl.testPending ∨ s.anl.testRunning ∨ (bit v 16 ∧ running) then
    (s.setReg pANL 0x810 (putFld (s.reg pANL 0x810) 2 2 3)).anlDone stBUSY
  else
    let s : State := { s with anl := { s.anl with testPending := true } }
    (s.setReg pANL 0x810 1).anlDone stOK

/-- SELFTEST (R488). -/
def execSelftest (r : Requester) (v : Word32) (s : State) : Host.Outcome State Fault Refusal :=
  ok (s.write r pANL 0x800 (fun s => s.anlGo v (fun s => s.anlSelftest v)))

/-- ANL_SELFTEST_DONE (R488): it takes turns only while no channel is RUNNING. -/
def execAnlSelftestDone (good : Bool) (s : State) : Host.Outcome State Fault Refusal :=
  ok (
    let running := (List.range 32).any (fun c => (s.anlCh c).state == .running)
    if !s.anl.testPending ∨ running then s
    else s.engineEvent dANL (fun s =>
      let s : State := { s with anl := { s.anl with testPending := false, testRunning := false } }
      let s := (s.inc pANL 0xF40).setReg pANL 0x810 (if good then 4 else 8)
      if good then s else (s.inc pANL 0xF48).raise pANL 18))

/-- A write of ANL_CHn_CFG (R471) (DEDUCED, log entry 128). -/
def State.anlConfig (s : State) (c : Fin 32) (v : Word32) : State :=
  let others := (List.range 32).filter (fun k => k != c.val && bit (s.anlCfg k) 7)
  let blocks := (others.map (fun k => fld (s.anlCfg k) 8 9)).sum + fld v 8 9
  let sparse := (others.map (fun k => fld (s.anlCfg k) 17 9)).sum + fld v 17 9
  if bit v 7 ∧ (256 < blocks ∨ 256 < sparse) then
    (s.store pANL (0x200 + 0x10 * c.val) (setBit v 7 false)).anlStatus c stQUOTA_OVERCOMMIT
  else s.store pANL (0x200 + 0x10 * c.val) v

/-- ANL_CHANNEL_CONFIG (R471). -/
def execAnlChannelConfig (r : Requester) (ch : Fin 32) (v : Word32) (s : State) : Host.Outcome State Fault Refusal :=
  ok (s.write r pANL (0x200 + 0x10 * ch.val) (fun s => s.anlConfig ch v))

/-- A write of ANL_CMD. -/
def State.anlCmd (s : State) (v : Word32) : State :=
  s.anlGo v (fun s =>
    let op := fld v 0 8
    if op = 1 then s.anlRun v else if op = 2 then s.anlAbortCmd v else if op = 3 then s.anlSelftest v else s.anlOpen)

end Sys2Proof.Machine
end

