-- ==== Sys2Proof/Machine/Arrays.lean ====
section
/-! DEFINITION. The clusters' services around the arrays (05_cores_arrays.md R138 to R149): the retry array, fencing
and unfencing, and self-test during work. -/

namespace Sys2Proof.Machine

/-! ### Retries (R139 to R141) -/

/-- A retry is over for its core: the freeze counts, and the core goes on when none is left (R139)
(DEDUCED, log entry 93). -/
def State.retryOver (s : State) (c : CoreId) (freeze : Nat) : State :=
  (s.frozen c freeze).modCore c (fun k => { k with retrying := k.retrying - 1 })

/-- A waiting pass whose retry array is gone: handled as under HALT (R141). -/
def State.retryLost (s : State) (j : RetryJob) : State :=
  let a := 4 * j.core.val + j.quad.val
  let s := s.setReg (pARR a) 0x804 (putFld (s.reg (pARR a) 0x804) 14 2 2)
  ((s.mismatchHalt a j.pass.ctx).retryOver j.core 0).passOver j.core a

/-- RETRY_START: the free retry array takes the oldest waiting pass; when it is gone, that pass is handled as under
HALT (R140, R141). -/
def execRetryStart (cl : Fin 16) (s : State) : Host.Outcome State Fault Refusal :=
  ok (match (s.clu cl).serving, (s.clu cl).retryQ with
    | none, j :: rest =>
      if s.retryAvail cl then
        (s.modClu cl (fun u => { u with retryQ := rest, serving := some j })).abandon ((s.retryArr cl).getD 0)
      else (s.modClu cl (fun u => { u with retryQ := rest })).retryLost j
    | _, _ => s)

/-- RETRY_COMPLETE (R139, R141, R142): the recomputed pass is committed if it passes its own check, or cannot be
compared; otherwise the mismatch is handled as under HALT. `freeze` is the freeze from the verdict on. -/
def execRetryComplete (cl : Fin 16) (faults : List CellFault) (ecc : List TileEcc) (freeze : Nat) (s : State) :
    Host.Outcome State Fault Refusal :=
  ok (match (s.clu cl).serving with
    | none => s
    | some j =>
      let a := 4 * j.core.val + j.quad.val
      let ra := (s.retryArr cl).getD a
      let b := j.pass.block j.quad faults
      let s := s.modClu cl (fun u => { u with serving := none })
      let s := s.inc (pARR ra) 0xF20
      let good := match j.pass.check b with | none => true | some k => k.clean
      let s :=
        if good then
          let s := s.setReg (pARR a) 0x804 (setBit (s.reg (pARR a) 0x804) 16 true)
          let s := (s.inc (pCLU cl) 0xF00).modCounts j.pass.ctx (fun n => { n with arrRetryOk := n.arrRetryOk + 1 })
          let s := s.detectOpen cCORRECTED stCKSUM_MISMATCH 0x1D a (some j.pass.ctx)
          let (s, bad) := if j.pass.acc then s.tileEcc a ecc else (s, 0)
          s.commitBlock j.core j.pass j.quad b bad
        else ((s.inc (pCLU cl) 0xF08).mismatchHalt a j.pass.ctx).mismatch ra
      ((s.retryOver j.core freeze).passOver j.core a).fencedOff ra)

/-! ### Fencing (R142 to R145) -/

/-- CLU_SELFTEST_STAT as it is stored: SLOT, RESULT and slices done. -/
def State.testStat (s : State) (cl slot result slices : Nat) : State :=
  s.setReg (pCLU cl) 0x828 (BitVec.ofNat 32 (slot + result * 2 ^ 10 + slices % 32 * 2 ^ 16))

/-- A self-test request (R145, R147, R149) (DEDUCED, log entry 99). -/
def State.askTest (s : State) (cl slot : Nat) (nowait unfence : Bool) : State :=
  let a := 48 * cl + slot
  let old := s.reg (pCLU cl) 0x828
  if (s.clu cl).test.isSome then s.setReg (pCLU cl) 0x828 (putFld old 10 3 3)
  else if h : slot < 48 then
    if s.fusedOff a then s.testStat cl slot 4 0
    else if nowait ∧ s.inFlight a then s.testStat cl slot 3 0
    else
      let t : SelfTest := { slot := ⟨slot, h⟩, unfence := unfence, running := false, slices := 0, bad := false }
      ((s.modClu cl (fun u => { u with test := some t })).testStat cl slot 0 0).wakeAgent a
  else s.testStat cl slot 4 0

/-- A write of CLU_FENCE_CMD: OP 1 fences, OP 2 unfences a fenced array; other slots and OPs do nothing. -/
def State.fenceCmd (s : State) (cl : Nat) (v : Word32) : State :=
  let slot := fld v 0 6
  let op := fld v 8 2
  if !s.pgEn (pCLU cl) ∨ 48 ≤ slot then s
  else if op = 1 then s.fence (48 * cl + slot) .driver
  else if op = 2 then if s.isFenced (48 * cl + slot) then s.askTest cl slot false true else s
  else s

/-- A write of CLU_SELFTEST_CMD. -/
def State.selftestCmd (s : State) (cl : Nat) (v : Word32) : State :=
  if bit v 9 ∧ s.pgEn (pCLU cl) then s.askTest cl (fld v 0 6) (bit v 8) false else s

/-- CLU_FENCE (R142): CLU_FENCE_CMD with OP 1. -/
def execCluFence (r : Requester) (cl : Fin 16) (v : Word32) (s : State) : Host.Outcome State Fault Refusal :=
  ok (s.write r (pCLU cl) 0x820 (fun s => s.fenceCmd cl (putFld v 8 2 1)))

/-- CLU_UNFENCE (R145): CLU_FENCE_CMD with OP 2. -/
def execCluUnfence (r : Requester) (cl : Fin 16) (v : Word32) (s : State) : Host.Outcome State Fault Refusal :=
  ok (s.write r (pCLU cl) 0x820 (fun s => s.fenceCmd cl (putFld v 8 2 2)))

/-- CLU_SELFTEST_CMD (R147). -/
def execCluSelftestCmd (r : Requester) (cl : Fin 16) (v : Word32) (s : State) : Host.Outcome State Fault Refusal :=
  ok (s.write r (pCLU cl) 0x824 (fun s => s.selftestCmd cl v))

/-! ### Self-test slices (R148) -/

/-- SELFTEST_SLICE_START: a slice starts once the array is drained and its domain is ON (R147, R148). -/
def execSelftestSliceStart (cl : Fin 16) (s : State) : Host.Outcome State Fault Refusal :=
  ok (match (s.clu cl).test with
    | none => s
    | some t =>
      let a := 48 * cl.val + t.slot.val
      if t.running ∨ s.inFlight a ∨ !s.domOn a then s
      else s.modClu cl (fun u => { u with test := some { t with running := true } }))

/-- A self-test of 32 slices is over (R142, R145). -/
def State.testOver (s : State) (cl : Nat) (t : SelfTest) (pass : Bool) : State :=
  let a := 48 * cl + t.slot.val
  let s := s.modClu cl (fun u => { u with test := none })
  let s := ((s.testStat cl t.slot (if pass then 1 else 2) 32).inc (pCLU cl) 0xF10).raise (pCLU cl) 17
  if !pass then s.fence a .selfTest
  else if t.unfence then s.modArr a (fun r => { r with fenced := none })
  else s.fencedOff a

/-- SELFTEST_SLICE_DONE (R148): the result is recorded after 32 slices. -/
def execSelftestSliceDone (cl : Fin 16) (pass : Bool) (s : State) : Host.Outcome State Fault Refusal :=
  ok (match (s.clu cl).test with
    | none => s
    | some t =>
      if !t.running then s
      else
        let t := { t with running := false, slices := t.slices + 1, bad := t.bad || !pass }
        if t.slices < 32 then
          (s.modClu cl (fun u => { u with test := some t })).testStat cl t.slot 0 t.slices
        else s.testOver cl t (!t.bad))

end Sys2Proof.Machine
end

