-- ==== Sys2Proof/Machine/Host.lean ====
section
/-! DEFINITION. PCI Express, SMBus block reads, the PMBus master, GPIO and JTAG (21_host_management.md R593 to R598, R609
to R626). The two SMBus register commands stand in Bus.lean. -/

namespace Sys2Proof.Machine

/-! ### PCI Express (R593 to R598) -/

/-- Has boot reached READY? -/
def State.booted (s : State) : Bool := bit (s.reg pAON 0x890) 16

/-- Does ROM recovery run (04_reset_boot.md R109)? (DEDUCED, log entry 72) -/
def State.recovering (s : State) : Bool := bit (s.reg pAON 0x890) 19

/-- A number of free bytes (DESIGN CHOICE, log entry 5). -/
def State.freeBytes (s : State) (n : Nat) : List Byte × State :=
  ((List.range n).map (fun i => BitVec.ofNat 8 (Config.freeNat (s.free + i))), { s with free := s.free + n })

/-- The PCI Express link has trained: DL_UP, with a rate and a width that the spec leaves to the board (DESIGN CHOICE, log entry 5)
(DEDUCED, log entry 77). -/
def State.pcieUp (s : State) : State :=
  let a := s.freeVal; let s := s.usedFree
  let b := s.freeVal; let s := s.usedFree
  let v := putFld (s.reg pHIF 0x800) 0 4 (1 + a % 5)
  let v := putFld v 4 5 (4 * 2 ^ (b % 3))
  s.setReg pHIF 0x800 (putFld (setBit v 9 true) 10 2 0)

/-- A hot reset or a link-down (R597): the configuration registers return to their defaults, and nothing else. -/
def State.linkLost (s : State) : State :=
  let v := setBit (setBit (s.reg pHIF 0x800) 9 false) 12 false
  let s := s.setReg pHIF 0x800 v
  let s := { s with mgt := { s.mgt with d3 := false }, msixMask := BitVec.allOnes 256 }
  (s.inc pHIF 0xF30).raise pHIF 16

/-- PCIE_LINK_DOWN (R597). -/
def execPcieLinkDown (s : State) : Host.Outcome State Fault Refusal := ok s.linkLost

/-- Send what waits for DMA, if it may go. -/
def State.flushDma (s : State) : State :=
  if s.dmaOn then { s with out := s.out ++ s.dmaWait, dmaWait := [] } else s

/-- BUS_MASTER_ENABLE (R597): the configuration write shows that the link is up; what waited goes out. -/
def execBusMasterEnable (s : State) : Host.Outcome State Fault Refusal :=
  ok (let s := if bit (s.reg pHIF 0x800) 9 then s else s.pcieUp
      (s.setReg pHIF 0x800 (setBit (s.reg pHIF 0x800) 12 true)).flushDma)

/-- PCIE_D3HOT (R598) (DEDUCED, log entry 78). -/
def execPcieD3hot (enter : Bool) (s : State) : Host.Outcome State Fault Refusal :=
  ok (({ s with mgt := { s.mgt with d3 := enter } }).flushDma)

/-- A write of HIF_BAR2_WIN (R595). -/
def State.bar2Win (s : State) (v : Word32) : State := if fld v 0 4 ≤ 11 then s.store pHIF 0x804 v else s

/-- HIF_BAR2_WIN (R595). -/
def execHifBar2Win (r : Requester) (v : Word32) (s : State) : Host.Outcome State Fault Refusal :=
  ok (s.write r pHIF 0x804 (fun s => s.bar2Win v))

/-- The device address of a BAR2 offset (R594). -/
def State.bar2Addr (s : State) (off : BitVec 36) : Nat := 0x1000000000 * fld (s.reg pHIF 0x804) 0 4 + off.toNat

/-- Bytes of the pool of one cluster. -/
abbrev poolBytes : Nat := 12582912

/-- BAR2_READ (R262, R594). In recovery BAR2 reaches the pool of cluster 0 (04_reset_boot.md R109); before READY it
reaches no memory (R96), and what it returns is free. -/
def execBar2Read (off : BitVec 36) (len : Nat) (s : State) : Host.Outcome State Fault Refusal :=
  ok (if s.mgt.d3 then s
    else
      let s := s.inc pHIF 0xF00 len
      let (bs, po, s) : List Byte × Bool × State :=
        if s.recovering ∧ off.toNat + len ≤ poolBytes then (sgets 0 s.mem.pool off.toNat len, false, s)
        else if s.booted then s.memRd .default s.bar2Part true (len / 64 + 2) (s.bar2Addr off) len
        else let (bs, s) := s.freeBytes len
             (bs, false, s)
      let s := if po then s.inc pHIF 0xF28 else s
      s.emitOut (.read po bs))

/-- Store a BAR2 write: a poisoned one leaves the poison code on every line that it touches (R596). -/
def State.bar2Store (s : State) (a : Nat) (bs : List Byte) (ep : Bool) : State :=
  s.memWr .default s.bar2Part true ep (bs.length / 64 + 2) a bs

/-- BAR2_WRITE (R594, R596). -/
def execBar2Write (off : BitVec 36) (bytes : List Byte) (ep : Bool) (s : State) : Host.Outcome State Fault Refusal :=
  ok (if s.mgt.d3 then s
    else
      let s := s.inc pHIF 0xF08 bytes.length
      let s := if ep then s.inc pHIF 0xF20 else s
      if s.recovering then
        if off.toNat + bytes.length ≤ poolBytes then
          { s with mem := { s.mem with pool := ssets 0 s.mem.pool off.toNat bytes } }
        else s
      else if s.booted then s.bar2Store (s.bar2Addr off) bytes ep
      else s)

/-! ### SMBus (R609 to R616) -/

/-- Serve an SMBus message: it is counted, and MGT_SMB_LAST keeps its code and status. -/
def State.smbServed (s : State) (code : Nat) (st : BitVec 16) : State :=
  (s.inc pMGT 0xF00).setReg pMGT 0x804 (BitVec.ofNat 32 (code + st.toNat * 2 ^ 8))

/-- A message passes its PEC, or is discarded (R611): `write` is a write message. -/
def State.smbPec (s : State) (pec : Pec) (write : Bool) (f : State → State) : State :=
  match pec with
  | .bad => s.inc pMGT 0xF08
  | .absent => if write ∧ bit (s.reg pMGT 0x100) 0 then s else f s
  | .good => f s

/-- A block read answers with bytes. -/
def State.smbRead (s : State) (code : Nat) (bs : List Byte) : State := (s.emitOut (.smbus bs)).smbServed code stOK

/-- The little-endian bytes of a register. -/
def State.regBytes (s : State) (p o : Nat) : List Byte := leBytes 4 (s.reg p o).toNat

/-- GET_STATUS (R613): the last command before this one. -/
def execGetStatus (s : State) : Host.Outcome State Fault Refusal :=
  ok (let v := s.reg pMGT 0x804
      s.smbRead 0x03 ([BitVec.ofNat 8 (fld v 0 8)] ++ leBytes 2 (fld v 8 16)))

/-- GET_IDENT (R613): fuses read 0 before they are sensed (04_reset_boot.md R100). -/
def execGetIdent (s : State) : Host.Outcome State Fault Refusal :=
  ok (let f (w : Nat) : Nat := if s.nv.sensed then (s.fuse w).toNat else 0
      s.smbRead 0x10 (leBytes 4 (f 25) ++ leBytes 4 (f 26)
        ++ [BitVec.ofNat 8 (f 24 % 4), Config.stepping.setWidth 8, BitVec.ofNat 8 (fld (s.reg pAON 0x89C) 0 7), 0]
        ++ s.regBytes pAON 0x898 ++ s.regBytes pAON 0x890))

/-- A stack's temperature as GET_THERMAL gives it: 0xFF where its controller is not ON. -/
def State.stackTemp (s : State) (k : Nat) : Byte :=
  if s.domOn (dMem k) then BitVec.ofNat 8 (s.stack k).temp else 0xFF

/-- GET_THERMAL (R613). -/
def execGetThermal (s : State) : Host.Outcome State Fault Refusal :=
  ok (let v := s.reg pTEL 0x808
      s.smbRead 0x11 ([BitVec.ofNat 8 (fld v 0 8), BitVec.ofNat 8 (fld v 8 8)] ++ (List.range 8).map s.stackTemp))

/-- GET_POWER (R613). -/
def execGetPower (s : State) : Host.Outcome State Fault Refusal :=
  ok (s.smbRead 0x12 ((List.range 8).flatMap (fun n =>
    leBytes 2 (fld (s.reg pMGT (0x880 + 8 * n)) 0 16) ++ leBytes 2 (fld (s.reg pMGT (0x884 + 8 * n)) 0 16))))

/-- GET_LOG (R615): a latch of its own, under R583's rule. -/
def execGetLog (slot : BitVec 16) (pec : Pec) (s : State) : Host.Outcome State Fault Refusal :=
  ok (s.smbPec pec false (fun s =>
    if 1023 < slot.toNat then
      let (bs, s) := s.freeBytes 32
      (s.emitOut (.smbus (leBytes 2 stBOUND.toNat ++ bs))).smbServed 0x13 stBOUND
    else
      let e := sget {} s.log.ring slot.toNat
      let s := { s with log := { s.log with smbLatch := e } }
      (s.emitOut (.smbus (leBytes 2 stOK.toNat ++ e.bytes))).smbServed 0x13 stOK))

/-- GET_RESET (R613). -/
def execGetReset (s : State) : Host.Outcome State Fault Refusal :=
  ok (s.smbRead 0x14 (s.regBytes pAON 0x880 ++ s.regBytes pAON 0x88C ++ s.regBytes pAON 0x884 ++ s.regBytes pAON 0x888))

/-- SMBUS_TIMEOUT (R612). -/
def execSmbusTimeout (s : State) : Host.Outcome State Fault Refusal := ok (s.inc pMGT 0xF10)

/-- Is SMBALERT# asserted (R616)? -/
def State.smbAlert (s : State) : Bool := bit (s.reg pMGT 0x100) 1 && s.reg pERR 0x8E0 != 0

/-- ALERT_RESPONSE (R616): the address in bits 7 to 1, as an SMBus slave sends it (PRESUMED, log entry 50). -/
def execAlertResponse (s : State) : Host.Outcome State Fault Refusal :=
  ok (if s.smbAlert then s.emitOut (.smbus [BitVec.ofNat 8 (2 * fld (s.reg pMGT 0x800) 0 7)]) else s)

/-! ### PMBus (R617 to R619) -/

/-- Transactions of a poll or a trim on a rail: PAGE goes first where the rail sets one (DEDUCED, log entry 51). -/
def State.pmbXfers (s : State) (n k : Nat) : State := s.inc pMGT 0xF18 (k + bnat (bit (s.reg pMGT (0x110 + 4 * n)) 16))

/-- Record the status of the trim that ends. -/
def State.trimDone (s : State) (st : BitVec 16) : State :=
  ({ s with mgt := { s.mgt with trim := none } }).setReg pMGT 0x904 (BitVec.ofNat 32 (st.toNat * 2 ^ 16))

/-- A transaction is given up (R619). -/
def State.pmbGiveUp (s : State) : State := (s.inc pMGT 0xF28).raise pMGT 16

/-- A poll of a rail is given up: its last reading stays, STALE. -/
def State.railStale (s : State) (n : Nat) : State :=
  s.setReg pMGT (0x880 + 8 * n) (setBit (s.reg pMGT (0x880 + 8 * n)) 30 true)

/-- One rail is polled; the read-back of a trim under way on it comes with the poll (R617, R618; DESIGN CHOICE, log entry 52). -/
def State.pollRail (s : State) (r : RailReading) : State :=
  let n := r.rail.val
  let p := 0x880 + 8 * n
  if !bit (s.reg pMGT (0x110 + 4 * n)) 31 then s
  else if s.mgt.badRails.getLsbD n then s
  else if !r.linear then
    ({ s with mgt := { s.mgt with badRails := setBit s.mgt.badRails n true } }).setReg pMGT p
      (setBit (s.reg pMGT p) 31 false)
  else
    let trim : Bool := s.mgt.trim == some r.rail
    let s := s.pmbXfers n 3
    if r.nacked then
      let s := s.pmbGiveUp.railStale n
      if trim then s.trimDone stABORTED else s
    else
      let s := s.setReg pMGT p (BitVec.ofNat 32 (r.voutMv.toNat + r.tempC.toNat * 2 ^ 16 + 2 ^ 31))
      let s := s.setReg pMGT (p + 4) (BitVec.ofNat 32 r.iout.toNat)
      if trim then s.trimDone stOK else s

/-- PMBUS_POLL (R617): with POLL 0 only the read-back of a trim comes. -/
def execPmbusPoll (rs : List RailReading) (s : State) : Host.Outcome State Fault Refusal :=
  ok (rs.foldl (fun s r =>
    if fld (s.reg pMGT 0x104) 8 8 ≠ 0 ∨ s.mgt.trim = some r.rail then s.pollRail r else s) s)

/-- Is a rail VALID, and not found to be other than linear (R617)? (DEDUCED, log entry 80) -/
def State.railOk (s : State) (n : Nat) : Bool := bit (s.reg pMGT (0x110 + 4 * n)) 31 && !s.mgt.badRails.getLsbD n

/-- A write of MGT_PMB_TRIM (R618). A rail that is not VALID is not trimmed, and its status is free (DESIGN CHOICE, log entry 27). -/
def State.pmbTrim (s : State) (v : Word32) : State :=
  let s := s.store pMGT 0x900 v
  let n := fld v 0 3
  let mv := fld v 16 16
  let lim := s.reg pMGT (0x130 + 4 * n)
  let status (s : State) (st : BitVec 16) : State := s.setReg pMGT 0x904 (putFld (s.reg pMGT 0x904) 16 16 st.toNat)
  if mv < fld lim 0 16 ∨ fld lim 16 16 < mv then status s stBOUND
  else if s.mgt.trim.isSome then status s stBUSY
  else if !s.railOk n then
    let x := s.freeVal; let s := s.usedFree
    status s (BitVec.ofNat 16 x)
  else
    let rail : Fin 8 := Fin.ofNat 8 n
    let s := ({ s with mgt := { s.mgt with trim := some rail } }).pmbXfers n 2
    (s.setReg pMGT 0x904 1).emitOut (.pmbusWrite rail (BitVec.ofNat 16 mv))

/-- MGT_PMB_TRIM (R618). -/
def execMgtPmbTrim (r : Requester) (v : Word32) (s : State) : Host.Outcome State Fault Refusal :=
  ok (s.write r pMGT 0x900 (fun s => s.pmbTrim v))

/-- PMBUS_ARB_LOST (R619): `retries` retries of one transaction lost arbitration too; the third gives it up. -/
def execPmbusArbLost (trim : Bool) (rail : Fin 8) (retries : Fin 4) (s : State) : Host.Outcome State Fault Refusal :=
  ok (if (trim ∧ s.mgt.trim ≠ some rail) ∨ (!trim ∧ (!s.railOk rail ∨ fld (s.reg pMGT 0x104) 8 8 = 0)) then s
    else
      let s := s.inc pMGT 0xF20 (retries.val + 1)
      if retries.val < 3 then s
      else
        let s := s.pmbGiveUp.detectOpen cCORRECTED stPMBUS_ARB_LOST 0x07 0 none
        if trim then s.trimDone stPMBUS_ARB_LOST else s.railStale rail)

/-! ### GPIO (R620 to R623) -/

/-- Does a pin offer a function (R621)? -/
def gpioOffers (n f : Nat) : Bool :=
  if f ≤ 1 then true
  else if f = 2 then n == 0
  else if f = 3 then n == 1
  else if f = 4 then n == 2
  else if f ≤ 6 then n == 3
  else decide (4 ≤ n) && decide (n ≤ 7)

/-- The claim register of a pin. -/
def State.gpio (s : State) (n : Nat) : Word32 := s.reg pMGT (0x810 + 4 * n)

/-- Set a requester's MGT_GPIO_RESULT. -/
def State.gpioResult (s : State) (r : Requester) (n : Nat) (st : BitVec 16) : State :=
  let v : Word32 := BitVec.ofNat 32 (n + st.toNat * 2 ^ 16)
  { s with mgt := if r = .host then { s.mgt with gpioHost := v } else { s.mgt with gpioMgmt := v } }

/-- Does a requester hold a pin? -/
def State.gpioHolds (s : State) (r : Requester) (n : Nat) : Bool := ownerCodeOk r (fld (s.gpio n) 0 8)

/-- The third warn source ends with the pin's claim (03_power_clocks.md R85). -/
def State.sagPinGone (s : State) (n : Nat) : State :=
  if n = 3 ∧ fld (s.gpio 3) 8 3 = 5 then { s with pw := { s.pw with warn := setBit s.pw.warn 2 false } } else s

/-- FATAL_OUT lets the line go with the pin's claim, until a FATAL reset has taken effect; from then on R620 keeps it
driven (DEDUCED, log entry 53). -/
def State.fatalPinGone (s : State) (n : Nat) : State :=
  if n = 1 ∧ s.mgt.fatalPin ∧ s.log.fatal then
    ({ s with mgt := { s.mgt with fatalPin := false } }).emitOut (.fatalOut false)
  else s

/-- A write of MGT_GPIOn_CLAIM: a claim, a release by the claimer, or a refusal (R622, R623; DEDUCED, log entry 53). -/
def State.gpioWrite (s : State) (r : Requester) (n : Nat) (v : Word32) : State :=
  let c := fld v 0 8
  if c = 0 then
    if s.gpioHolds r n then
      let s := ((s.sagPinGone n).fatalPinGone n).setReg pMGT (0x810 + 4 * n) 0
      s.setReg pMGT 0x854 (setBit (s.reg pMGT 0x854) n false)
    else s
  else if fld (s.gpio n) 0 8 ≠ 0 ∨ (n = 1 ∧ s.mgt.fatalPin) then
    ((s.gpioResult r n stCLAIM_CONFLICT).inc pMGT 0xF30).raise pMGT 17
  else if !ownerCodeOk r c ∨ !gpioOffers n (fld v 8 3) then (s.gpioResult r n stDENIED).raise pMGT 17
  else (s.store pMGT (0x810 + 4 * n) v).gpioResult r n stOK

/-- GPIO_CLAIM (R622). -/
def execGpioClaim (r : Requester) (n : Fin 16) (v : Word32) (s : State) : Host.Outcome State Fault Refusal :=
  ok (s.write r pMGT (0x810 + 4 * n.val) (fun s => s.gpioWrite r n v))

/-- GPIO_RELEASE (R623). -/
def execGpioRelease (r : Requester) (n : Fin 16) (s : State) : Host.Outcome State Fault Refusal :=
  ok (s.write r pMGT (0x810 + 4 * n.val) (fun s => s.gpioWrite r n 0))

/-- A write of MGT_GPIO_OUT changes only the writer's GP_OUT pins (R623). -/
def State.gpioOut (s : State) (r : Requester) (v : Word32) : State :=
  (List.range 16).foldl (fun (s : State) n =>
    if s.gpioHolds r n ∧ fld (s.gpio n) 8 3 = 1 then
      s.setReg pMGT 0x854 (setBit (s.reg pMGT 0x854) n (bit v n))
    else s) s

/-- MGT_GPIO_OUT (R623). -/
def execMgtGpioOut (r : Requester) (v : Word32) (s : State) : Host.Outcome State Fault Refusal :=
  ok (s.write r pMGT 0x854 (fun s => s.gpioOut r v))

/-- The level that the HJ2 drives on a pin; none for an input or a pulse output (R620, R621). -/
def State.gpioDrive (s : State) (n : Nat) : Option Bool :=
  let v := s.gpio n
  if n = 1 ∧ s.mgt.fatalPin then some false
  else if fld v 0 8 = 0 then none
  else match fld v 8 3 with
    | 1 => some (bit (s.reg pMGT 0x854) n)
    | 2 => some (decide (fld (s.reg pTEL 0x808) 0 8 < fld (s.reg pMGT 0x150) 0 8))
    | 3 => some true
    | 4 => some s.pw.deep
    | _ => none

/-- FATAL_OUT_RELEASE (R620): once the FATAL reset has taken effect. -/
def execFatalOutRelease (s : State) : Host.Outcome State Fault Refusal :=
  ok (if s.mgt.fatalPin ∧ !s.log.fatal then
      (({ s with mgt := { s.mgt with fatalPin := false } }).setReg pMGT 0x814 0).emitOut (.fatalOut false)
    else s)

/-! ### JTAG (R624 to R626) -/

/-- Is a code a test instruction (R625)? -/
def jtagTest (c : Byte) : Bool := c == 0x00 || c == 0x03 || c == 0x04 || c == 0x05 || c == 0x06

/-- JTAG_TEST_INSTR (R625): the PCI Express link goes down, and the links enter TEST. -/
def execJtagTestInstr (code : Byte) (s : State) : Host.Outcome State Fault Refusal :=
  ok (if !jtagTest code ∨ s.mgt.jtag then s
    else
      let s := ({ s with mgt := { s.mgt with jtag := true } }).linkLost
      ((List.finRange 16).foldl (fun (s : State) (l : LinkId) => s.leaveUp l .test) s).pumpAll)

/-- JTAG_TEST_EXIT (R626): another instruction, or Test-Logic-Reset; the links train again. -/
def execJtagTestExit (code : Byte) (s : State) : Host.Outcome State Fault Refusal :=
  ok (if jtagTest code ∨ !s.mgt.jtag then s
    else
      let s := ({ s with mgt := { s.mgt with jtag := false } }).pcieUp
      (List.finRange 16).foldl (fun (s : State) (l : LinkId) =>
        (s.modLink l (fun k => { k with state := .disabled })).tryTrain l) s)

end Sys2Proof.Machine
end

