-- ==== Sys2Proof/Machine/Collectives.lean ====
section
/-! DEFINITION. Collectives (13_collectives.md R373 to R391): descriptors, checks at the post, the elements and their
combining, the reduction checksum, and the plan of a data phase. The arrival phase and the messages stand in
Exchange.lean. -/

namespace Sys2Proof.Machine

/-! ### Descriptors (R374 to R376) -/

/-- OP. -/
def dOp (d : List Byte) : Nat := lef d 0 1
/-- DTYPE. -/
def dType (d : List Byte) : Nat := lef d 1 1
/-- REDOP. -/
def dRed (d : List Byte) : Nat := lef d 2 1
/-- FLAGS.FAST. -/
def dFast (d : List Byte) : Bool := (lef d 3 1).testBit 0
/-- FLAGS.BUCKET. -/
def dBucket (d : List Byte) : Bool := (lef d 3 1).testBit 1
/-- GROUP. -/
def dGrp (d : List Byte) : Fin 64 := ⟨lef d 4 1 % 64, Nat.mod_lt _ (by decide)⟩
/-- CTX. -/
def dCtx (d : List Byte) : CtxId := ⟨lef d 5 1 % 64, Nat.mod_lt _ (by decide)⟩
/-- ROOT. -/
def dRoot (d : List Byte) : Nat := lef d 6 2 % 4096
/-- CSEQ. -/
def dCseq (d : List Byte) : Word32 := BitVec.ofNat 32 (lef d 8 4)
/-- COUNT. -/
def dCount (d : List Byte) : Nat := lef d 12 4
/-- A 48-bit offset field. -/
def d48 (d : List Byte) (o : Nat) : Nat := lef d o 6

/-- Bytes of an element. -/
def elBytes (dtype : Nat) : Nat := if dtype = 0 ∨ dtype = 5 then 4 else if dtype = 1 then 2 else 1

/-- Is the operation a reduction (R376)? -/
def isRed (op : Nat) : Bool := op == 0x01 || op == 0x02 || op == 0x12

/-- Is it a variable form? -/
def isVar (op : Nat) : Bool := op == 0x12 || op == 0x13 || op == 0x15

/-- Source elements of a rank (R375). -/
def srcEls (op n r root count : Nat) (counts : List Nat) : Nat :=
  if op = 0x01 ∨ op = 0x03 then count
  else if op = 0x02 ∨ op = 0x05 then n * count
  else if op = 0x04 then (if r = root then count else 0)
  else if op = 0x13 then counts.getD r 0
  else counts.sum

/-- Destination elements of a fixed form. -/
def dstEls (op n count : Nat) : Nat := if op = 0x03 ∨ op = 0x05 then n * count else count

/-- CLX_GRP_RANKn. -/
def State.grpRank (s : State) (n : Nat) : Word32 := s.reg pCLX (0x300 + 4 * n)

/-- N of a group. -/
def State.grpN (s : State) (n : Nat) : Nat := fld (s.clxGroup n) 16 13

/-- The chip of a rank. -/
def State.rankChip (s : State) (n r : Nat) : BitVec 12 := (s.members n).getD r 0

/-! ### Local checks (R379) -/

/-- Check 1: the shape of the descriptor. -/
def State.descShape (s : State) (d : List Byte) (mode : Nat) : Bool :=
  let op := dOp d
  let n := s.grpN (dGrp d)
  let bytes := srcEls op n 0 0 (dCount d) [] * elBytes (dType d)
  (lef d 3 1 < 4 && lef d 4 1 < 64 && lef d 5 1 < 64 && lef d 6 2 < 4096 && lef d 0x1E 2 == 0 && lef d 0x26 2 == 0
      && lef d 0x2E 2 == 0 && lef d 0x36 2 == 0 && lef d 0x38 8 == 0)
    && [0x01, 0x02, 0x03, 0x04, 0x05, 0x12, 0x13, 0x15].contains op && decide (dType d ≤ 5)
    && (if isRed op then decide (1 ≤ dRed d) && decide (dRed d ≤ 3) && (dType d == 0 || dType d == 1 || dType d == 5)
        else dRed d == 0)
    && (!dBucket d || ((op == 0x01 || op == 0x02) && decide (0x400000 ≤ bytes) && decide (bytes ≤ 0x10000000)))
    && (op != 0x04 || decide (dRoot d < n)) && (mode == 0 || op == 0x01)

/-- Bytes of a context's tensor with the mark of each byte, as CLX reads them: hint STREAM (R393). -/
def State.clxRd (s : State) (rn part : Nat) (rw : Bool) : Nat → Nat → Nat → List (Byte × Bool) × State
  | 0, _, _ => ([], s)
  | f + 1, off, n =>
    if n = 0 then ([], s)
    else
      let k := min n (64 - off % 64)
      let (bs, po, s) := s.recRead rn false .stream part rw off k
      let (rest, s) := s.clxRd rn part rw f (off + k) (n - k)
      (bs.map (fun b => (b, po)) ++ rest, s)

/-- Read a region of a context's tensor; zeros where the tensor does not hold it. -/
def State.clxRead (s : State) (x tid off n : Nat) : List (Byte × Bool) × State :=
  match s.tensor x tid with
  | some (rn, r, rw) =>
    if off + n ≤ r.size then s.clxRd rn (s.tenantPart (s.epsTenant x)) rw (n / 64 + 2) off n
    else (List.replicate n (0, false), s)
  | none => (List.replicate n (0, false), s)

/-- Write bytes with their marks, line by line (R261, R388). -/
def State.clxWr (s : State) (rn part : Nat) : Nat → Nat → List (Byte × Bool) → State
  | 0, _, _ => s
  | f + 1, off, ps =>
    if ps.isEmpty then s
    else
      let k := 64 - off % 64
      let now := ps.take k
      (s.recWrite rn false .stream part (now.any (fun p => p.2)) off (now.map (fun p => p.1))).clxWr rn part f
        (off + now.length) (ps.drop k)

/-- Write a region of a context's tensor; nothing where the tensor does not hold it. -/
def State.clxWrite (s : State) (x tid off : Nat) (ps : List (Byte × Bool)) : State :=
  match s.tensor x tid with
  | some (rn, r, rw) =>
    if rw ∧ off + ps.length ≤ r.size then s.clxWr rn (s.tenantPart (s.epsTenant x)) (ps.length / 64 + 2) off ps else s
  | none => s

/-- The N counts of a variable form. -/
def State.readCounts (s : State) (d : List Byte) (n : Nat) : List Nat × State :=
  if isVar (dOp d) then
    let (bs, s) := s.clxRead (dCtx d) (lef d 0x14 2) (d48 d 0x30) (4 * n)
    ((List.range n).map (fun q => lef (bs.map (fun p => p.1)) (4 * q) 4), s)
  else ([], s)

/-- Checks 4 to 7: the local status that ARRIVE carries. SRC of a BROADCAST counts at its root alone (R375). -/
def State.localCheck (s : State) (d : List Byte) (n r mode : Nat) (counts : List Nat) : BitVec 16 :=
  let op := dOp d
  let x := dCtx d
  let w := elBytes (dType d)
  let det := bit (s.reg pCHK 0x100) 2
  let src := s.tensor x (lef d 0x10 2)
  let dst := s.tensor x (lef d 0x12 2)
  let cnt := s.tensor x (lef d 0x14 2)
  let needSrc := op ≠ 0x04 ∨ r = dRoot d
  let size (t : Option (Nat × Rec × Bool)) : Nat := match t with | some (_, r, _) => r.size | none => 0
  let mayWrite (t : Option (Nat × Rec × Bool)) : Bool := match t with | some (_, _, rw) => rw | none => false
  if det ∧ (dFast d ∨ mode ≠ 0) then stMODE_DENIED
  else if !isVar op ∧ dCount d = 0 then stZERO_LEN
  else if (needSrc ∧ (src.isNone ∨ (isRed op ∧ !mayWrite src))) ∨ !mayWrite dst ∨ (isVar op ∧ cnt.isNone) then stTENSOR_DENIED
  else if (needSrc ∧ size src < d48 d 0x18 + w * srcEls op n r (dRoot d) (dCount d) counts)
      ∨ (isVar op ∧ size cnt < d48 d 0x30 + 4 * n) ∨ size dst < d48 d 0x20 + d48 d 0x28
      ∨ (!isVar op ∧ d48 d 0x28 < w * dstEls op n (dCount d)) then stBOUND
  else stOK

/-! ### Elements (R386) -/

/-- Combine two elements, each its little-endian bytes as a number. -/
def combineEl (dtype red : Nat) (a b : Nat) : Nat :=
  if dtype = 5 then
    let x : Word32 := BitVec.ofNat 32 a
    let y : Word32 := BitVec.ofNat 32 b
    (if red = 1 then x + y else if red = 2 then (if x.slt y then y else x) else (if x.slt y then x else y)).toNat
  else
    let op (x y : Word32) : Word32 :=
      if red = 1 then (fadd x y).1 else (fminmax (red == 2) x y).1
    if dtype = 0 then (op (BitVec.ofNat 32 a) (BitVec.ofNat 32 b)).toNat
    else (f2bf none (op (bf2f (BitVec.ofNat 16 a)) (bf2f (BitVec.ofNat 16 b)))).1.toNat

/-- Combine two runs of elements of `w` bytes; a result is poisoned when either contribution is (R388). -/
def combineEls (dtype red w : Nat) : Nat → List (Byte × Bool) → List (Byte × Bool) → List (Byte × Bool)
  | 0, _, _ => []
  | n + 1, a, b =>
    let x := a.take w
    let y := b.take w
    let po := x.any (fun p => p.2) || y.any (fun p => p.2)
    let v := combineEl dtype red (leNat (x.map (fun p => p.1))) (leNat (y.map (fun p => p.1)))
    (leBytes w v).map (fun c => (c, po)) ++ combineEls dtype red w n (a.drop w) (b.drop w)

/-! ### The reduction checksum (R389, R390) -/

/-- binary64. -/
def fmtF64 : FFmt := ⟨53, -1074, 11⟩

/-- The canonical NaN of a checksum sum. -/
def qnan64 : Nat := 0x7FF8000000000000

/-- A value rounded to binary64. -/
def round64 : FVal → Nat
  | .nan _ => qnan64
  | .inf s => if s then 0xFFF0000000000000 else 0x7FF0000000000000
  | .num s m e => (roundIeee fmtF64 none s m e).1

/-- The sum of two values before rounding. -/
def exactSum : FVal → FVal → FVal
  | .nan s, _ => .nan s
  | _, .nan s => .nan s
  | .inf a, .inf b => if a = b then .inf a else .nan false
  | .inf a, _ => .inf a
  | _, .inf b => .inf b
  | .num s1 m1 e1, .num s2 m2 e2 =>
    let e0 := min e1 e2
    let v := scaled s1 m1 e1 e0 + scaled s2 m2 e2 e0
    .num (decide (v < 0) || (decide (v = 0) && s1 && s2)) v.natAbs e0

/-- binary64 addition. -/
def add64 (a b : Nat) : Nat := round64 (exactSum (decodeIeee fmtF64 a) (decodeIeee fmtF64 b))

/-- The value of an FP element. -/
def elVal (dtype v : Nat) : FVal := if dtype = 1 then bf16val (BitVec.ofNat 16 v) else f32val (BitVec.ofNat 32 v)

/-- The magnitude of a value. -/
def FVal.mag : FVal → FVal
  | .nan s => .nan s
  | .inf _ => .inf false
  | .num _ m e => .num false m e

/-- Is a value a number? -/
def FVal.finite : FVal → Bool
  | .num _ _ _ => true
  | _ => false

/-- The elements of a run of bytes. -/
def elsOf (w : Nat) : Nat → List (Byte × Bool) → List Nat
  | 0, _ => []
  | n + 1, ps => leNat ((ps.take w).map (fun p => p.1)) :: elsOf w n (ps.drop w)

/-- The sum and magnitude sum of a chunk of elements, in order. -/
def chunkSum (dtype : Nat) (els : List Nat) : Nat × Nat :=
  if dtype = 5 then (els.foldl (fun a v => (a + v) % 2 ^ 32) 0, 0)
  else els.foldl (fun a v => (add64 a.1 (round64 (elVal dtype v)), add64 a.2 (round64 (elVal dtype v).mag))) (0, 0)

/-- Add two checksum values. -/
def addCk (dtype a b : Nat) : Nat := if dtype = 5 then (a + b) % 2 ^ 32 else add64 a b

/-- Does a compared chunk fail: the sum of the result's elements against the reduced checksum and magnitude (R390)? -/
def ckFails (dtype tol : Nat) (els : List Nat) (x m : Nat) : Bool :=
  let sum := (chunkSum dtype els).1
  if dtype = 5 then sum != x
  else
    match exactSum (decodeIeee fmtF64 sum) (decodeIeee fmtF64 x).neg, decodeIeee fmtF64 m with
    | .num _ d e, .num _ mm me =>
      let e0 := min e (me - (tol : Int))
      decide (mm * 2 ^ (me - (tol : Int) - e0).toNat < d * 2 ^ (e - e0).toNat)
    | _, _ => true

/-- Chunks of 1,024 elements of a block. -/
def chunksOf (count : Nat) : Nat := (count + 1023) / 1024

/-! ### Collectives under way -/

/-- A collective of a group with a sequence number. -/
def State.coll (s : State) (g : Fin 64) (cseq : Word32) : Option Coll :=
  s.clx.colls.find? (fun c => c.grp == g && c.cseq == cseq)

/-- Change a collective. -/
def State.modColl (s : State) (g : Fin 64) (cseq : Word32) (f : Coll → Coll) : State :=
  { s with clx := { s.clx with colls := s.clx.colls.map (fun c => if c.grp = g ∧ c.cseq = cseq then f c else c) } }

/-- Bytes of an element of a collective. -/
def Coll.w (c : Coll) : Nat := elBytes (dType c.desc)

/-- Is it a sum with checksums (R389)? -/
def State.ckOn (s : State) (c : Coll) : Bool := bit (s.reg pCLX 0x100) 0 && isRed (dOp c.desc) && dRed c.desc == 1

/-- This rank's place among the ranks present (R502). -/
def Coll.place (c : Coll) (r : Nat) : Nat := (c.present.findIdx? (fun q => q == r)).getD 0

/-- The byte address of block `b` in the work area or the destination: tensor, offset, elements. -/
def Coll.region (c : Coll) (dst : Bool) (b : Nat) : Nat × Nat × Nat :=
  let e := (if dst then c.dblocks else c.blocks).getD b (0, 0)
  if dst then (lef c.desc 0x12 2, d48 c.desc 0x20 + c.w * e.1, e.2) else (lef c.desc 0x10 2, d48 c.desc 0x18 + c.w * e.1, e.2)

/-- Read a block. -/
def State.readBlock (s : State) (c : Coll) (dst : Bool) (b : Nat) : List (Byte × Bool) × State :=
  let (t, off, n) := c.region dst b
  s.clxRead (dCtx c.desc) t off (c.w * n)

/-- Write a block; a poisoned line of the destination is remembered (R388). -/
def State.writeBlock (s : State) (c : Coll) (dst : Bool) (b : Nat) (ps : List (Byte × Bool)) : State :=
  let (t, off, _) := c.region dst b
  let s := s.clxWrite (dCtx c.desc) t off ps
  if dst ∧ ps.any (fun p => p.2) then s.modColl c.grp c.cseq (fun c => { c with poison := true }) else s

/-- Take the checksums of every block of this rank's contribution (R389). -/
def State.takeCks (s : State) (c : Coll) : Nat → Nat → List (Nat × Nat × Nat × Nat) → List (Nat × Nat × Nat × Nat) × State
  | 0, _, acc => (acc, s)
  | f + 1, b, acc =>
    let (ps, s) := s.readBlock c false b
    let n := (c.region false b).2.2
    let els := elsOf c.w n ps
    let new := (List.range (chunksOf n)).map (fun i =>
      let q := chunkSum (dType c.desc) ((els.drop (1024 * i)).take 1024)
      (b, i, q.1, q.2))
    s.takeCks c f (b + 1) (acc ++ new)

/-- The checksum bytes of some blocks. -/
def Coll.ckBytes (c : Coll) (bs : List Nat) : List Byte :=
  bs.flatMap (fun b => (c.cks.filter (fun k => k.1 == b)).flatMap (fun k => leBytes 8 k.2.2.1 ++ leBytes 8 k.2.2.2))

/-- Bytes of checksums of some blocks. -/
def Coll.ckLen (c : Coll) (bs : List Nat) : Nat := (bs.map (fun b => 16 * chunksOf (c.region false b).2.2)).sum

/-- Data bytes of some blocks. -/
def Coll.dataLen (c : Coll) (dst : Bool) (bs : List Nat) : Nat := (bs.map (fun b => c.w * (c.region dst b).2.2)).sum

/-! ### Plans (R385; DEDUCED, log entry 39) -/

/-- The largest power of two not above `n`. -/
def pow2Below (n : Nat) : Nat := 2 ^ Nat.log2 n

/-- Recursive halving of rank place `r` from distance `d`: stages, and the blocks it holds at the end. -/
def halving (rankOf : Nat → Nat) (r p : Nat) : Nat → Nat → List Nat → List CollStage × List Nat
  | 0, _, held => ([], held)
  | f + 1, d, held =>
    if d = 0 then ([], held)
    else
      let mine := held.filter (fun b => decide (b % p / d % 2 = r / d % 2))
      let theirs := held.filter (fun b => decide (b % p / d % 2 ≠ r / d % 2))
      let partner := if r / d % 2 = 0 then r + d else r - d
      let st : CollStage := { own := [], exs := [{ peer := rankOf partner, send := theirs, recv := mine, combine := true, gather := false }] }
      let (rest, last) := halving rankOf r p f (d / 2) mine
      (st :: rest, last)

/-- Recursive doubling: stages that gather every block. -/
def doubling (rankOf : Nat → Nat) (r p : Nat) (all : List Nat) : Nat → Nat → List CollStage
  | 0, _ => []
  | f + 1, d =>
    if p ≤ d then []
    else
      let agree (q : Nat) : List Nat := all.filter (fun b => decide (b % p / d = q / d))
      let partner := if r / d % 2 = 0 then r + d else r - d
      let st : CollStage := { own := [], exs := [{ peer := rankOf partner, send := agree r, recv := agree partner, combine := false, gather := true }] }
      st :: doubling rankOf r p all f (2 * d)

/-- The plan of a reduction: extra ranks fold into the power of two, halving, comparison, and for ALL_REDUCE doubling;
then the extra ranks get their result (R385). -/
def Coll.reducePlan (c : Coll) : List CollStage :=
  let n := c.present.length
  let p := pow2Below n
  let r := c.place c.rank
  let rankOf (k : Nat) : Nat := c.present.getD k 0
  let all := List.range c.blocks.length
  let ar := dOp c.desc == 0x01
  if p ≤ r then
    [{ own := [], exs := [{ peer := rankOf (r - p), send := all, recv := [], combine := true, gather := false }] },
     { own := [], exs := [{ peer := rankOf (r - p), send := [], recv := if ar then all else [r], combine := false, gather := true }] }]
  else
    let fold : List CollStage := if r + p < n then
        [{ own := [], exs := [{ peer := rankOf (r + p), send := [], recv := all, combine := true, gather := false }] }] else []
    let (half, held) := halving rankOf r p (Nat.log2 p + 1) (p / 2) all
    let check : List CollStage := [{ own := held, exs := [] }]
    let gath := if ar then doubling rankOf r p all (Nat.log2 p + 1) 1 else []
    let give : List CollStage := if r + p < n then
        [{ own := [], exs := [{ peer := rankOf (r + p), send := if ar then all else [r + p], recv := [], combine := false
                                gather := ar }] }] else []
    fold ++ half ++ check ++ gath ++ give

/-- The plan of a form that moves elements unchanged: direct sends between ranks. -/
def Coll.movePlan (c : Coll) : List CollStage :=
  let op := dOp c.desc
  let others := c.present.filter (fun q => q != c.rank)
  if op = 0x04 then
    if c.rank = dRoot c.desc then
      [{ own := [], exs := others.map (fun q => { peer := q, send := [0], recv := [], combine := false, gather := false }) }]
    else [{ own := [], exs := [{ peer := dRoot c.desc, send := [], recv := [0], combine := false, gather := false }] }]
  else if op = 0x03 ∨ op = 0x13 then
    [{ own := [], exs := others.map (fun q => { peer := q, send := [0], recv := [q], combine := false, gather := false }) }]
  else [{ own := [], exs := others.map (fun q => { peer := q, send := [q], recv := [q], combine := false, gather := false }) }]

/-- Packed blocks from their counts. -/
def packed : Nat → List Nat → List (Nat × Nat)
  | _, [] => []
  | at_, k :: ks => (at_, k) :: packed (at_ + k) ks

/-- The blocks of a collective: in the source, and in the destination. An ALL_REDUCE is cut into as many parts as its
tree has leaves, whole chunks of 1,024 elements. -/
def Coll.layout (c : Coll) : List (Nat × Nat) × List (Nat × Nat) :=
  let op := dOp c.desc
  let k := dCount c.desc
  let even := (List.range c.n).map (fun b => (b * k, k))
  if op = 0x01 then
    let p := pow2Below c.present.length
    let part := (k + 1024 * p - 1) / (1024 * p) * 1024
    let bs := (List.range p).map (fun b => (min k (b * part), min k ((b + 1) * part) - min k (b * part)))
    (bs, bs)
  else if op = 0x02 then (even, List.replicate c.n (0, k))
  else if op = 0x12 then
    let bs := packed 0 c.counts
    (bs, bs.map (fun e => (0, e.2)))
  else if op = 0x03 then ([(0, k)], even)
  else if op = 0x04 then ([(0, k)], [(0, k)])
  else if op = 0x05 then (even, even)
  else if op = 0x13 then ([(0, c.counts.getD c.rank 0)], packed 0 c.rcounts)
  else (packed 0 c.counts, packed 0 c.rcounts)

end Sys2Proof.Machine
end

