-- ==== Sys2Proof/Machine/Exchange.lean ====
section
/-! DEFINITION. The course of collectives (13_collectives.md R381 to R393; 17_learning.md R501 to R507;
12_fabric_transport.md R370): arrival at the coordinator, GO and aborts, the data phase, late ranks. -/

namespace Sys2Proof.Machine

/-! ### Messages (DEDUCED, log entries 33 and 39) -/

/-- The header bytes of CLX messages: GID, RANK, CSEQ, byte offset. -/
def clxExtra (gid rank : Nat) (cseq : Word32) (off : Nat) : List Byte :=
  leBytes 2 gid ++ leBytes 2 rank ++ leBytes 4 cseq.toNat ++ leBytes 4 0 ++ leBytes 8 off ++ List.replicate 8 0

/-- Send a CLX message on VC1; `tag` names what waits for it: 0 nothing, 1 + group a late rank served. -/
def State.clxSend (s : State) (kind dest : Nat) (g : Fin 64) (rank : Nat) (cseq : Word32) (off : Nat) (payload : List Byte)
    (marks : List Bool) (tag final : Nat) : State :=
  let m := newMsg s kind dest
  let m : Message := { m with extra := clxExtra (fld (s.clxGroup g) 0 16) rank cseq off, payload := payload, poison := marks
                              tag := BitVec.ofNat 16 final }
  (s.sendMsg m 1 (.engine 0x0E tag)).2

/-- An OP_ABORT about a collective. -/
def State.sendCollAbort (s : State) (dest : BitVec 12) (g : Fin 64) (rank : Nat) (cseq : Word32) (st : BitVec 16) : State :=
  s.sendPlain { newMsg s 0x06 dest.toNat with
    status := st, extra := opExtra (fld (s.clxGroup g) 0 16) rank cseq.toNat 1 } 0

/-- The group that a message of CLX names. -/
def State.clxMsgGroup (s : State) (m : Message) : Option (Fin 64) := (s.groupOf (hdr m 0x24 2)).map (Fin.ofNat 64)

/-- CSEQ of a message of CLX. -/
def msgCseq (m : Message) : Word32 := BitVec.ofNat 32 (hdr m 0x28 4)

/-- The coordinator's chip: rank 0. -/
def State.coordinator (s : State) (g : Fin 64) : BitVec 12 := s.rankChip g 0

/-! ### Completion (R374) -/

/-- A collective of this chip completes with a status and a named rank; its poster learns it
(DEDUCED, log entry 40). -/
def State.collReport (s : State) (g : Fin 64) (cseq : Word32) (x : CtxId) (by_ : Poster) (st : BitVec 16) (rank present : Nat) :
    State :=
  let s := if st = stOK then s.inc pCLX 0xF00 else s.inc pCLX 0xF08
  let s := if st = stOK ∨ st = stLATE then s
    else (((s.setReg pCLX 0x804 (BitVec.ofNat 32 (st.toNat + rank % 4096 * 2 ^ 16 + 2 ^ 31))).setReg pCLX 0x808
      (BitVec.ofNat 32 g.val)).setReg pCLX 0x80C cseq).raise pCLX 16
  let s := if st = stCOUNT_OVF then (s.inc pCLX 0xF10).raise pCLX 17 else s
  let s := if st = stSTALLED then
      let chip := (s.rankChip g rank).toNat
      ((s.setReg pFAB 0x808 (BitVec.ofNat 32 (chip + 2 ^ 20 + 2 ^ 31))).inc pFAB 0xF70).detect cCONTAINED stSTALLED 0x0E 0
        (some x) chip
    else s
  match by_ with
  | .queue q cid =>
    s.completeRunning q cid st (leBytes 1 g.val ++ leBytes 1 0 ++ leBytes 2 rank ++ leBytes 4 cseq.toNat ++ leBytes 8 0)
  | .job j b => { s with trn := smod {} s.trn j (fun t => { t with
      buckets := smod {} t.buckets b (fun k => { k with report := some (st, present) }) }) }

/-- Send the destination of a straggler-mode collective to a late rank (R503). -/
def State.serveLate (s : State) (c : Coll) (late : Nat) : State :=
  let n := c.w * dCount c.desc
  let (ps, s) := s.clxRead (dCtx c.desc) (lef c.desc 0x12 2) (d48 c.desc 0x20) n
  let dest := (s.rankChip c.grp late).toNat
  (List.range ((n + 0xFFFFF) / 0x100000)).foldl (fun (s : State) i =>
    let part := (ps.drop (0x100000 * i)).take 0x100000
    let marks := (List.range ((part.length + 63) / 64)).map (fun k => ((part.drop (64 * k)).take 64).any (fun p => p.2))
    (s.inc pCLX 0xF28 part.length).clxSend 0x12 dest c.grp c.rank c.cseq (0x100000 * i) (part.map (fun p => p.1)) marks
      (1 + c.grp.val) 0) s

/-- A collective ends on this chip (DEDUCED, log entry 127). -/
def State.collEnd (s : State) (c : Coll) (st : BitVec 16) (rank : Nat) : State :=
  let s : State := { s with clx := { s.clx with
    colls := s.clx.colls.filter (fun k => !(k.grp == c.grp && k.cseq == c.cseq))
    done := if c.mode = 0 ∨ c.late then s.clx.done else sset none s.clx.done c.grp (some { c with plan := [], serve := [] }) } }
  let s := s.modJob (dCtx c.desc) (fun j => if j.live ∧ (st = stLATE ∨ (!c.present.isEmpty ∧ c.present.length < c.n)) then
    { j with late := true } else j)
  let s := s.collReport c.grp c.cseq (dCtx c.desc) c.by_ st rank c.present.length
  if st = stOK ∨ st = stDATA_POISON then c.serve.foldl (fun (s : State) q => s.serveLate c q) s else s

/-- The coordinator aborts a collective: OP_ABORT to every other participant but one (R382). -/
def State.relayAbort (s : State) (g : Fin 64) (cseq : Word32) (st : BitVec 16) (rank : Nat) (but_ : Option (BitVec 12)) : State :=
  let s : State := { s with clx := { s.clx with rounds := s.clx.rounds.map (fun r =>
    if r.grp = g ∧ r.cseq = cseq then { r with aborted := some (st, rank) } else r) } }
  (s.members g).foldl (fun s c =>
    if c.toNat = s.myAddr ∨ some c = but_ then s else s.sendCollAbort c g rank cseq st) s

/-- A collective fails on this chip: it ends here, and OP_ABORT goes to the coordinator, or from it to all. -/
def State.collFail (s : State) (c : Coll) (st : BitVec 16) (rank : Nat) : State :=
  let s := s.collEnd c st rank
  if (s.coordinator c.grp).toNat = s.myAddr then s.relayAbort c.grp c.cseq st rank none
  else s.sendCollAbort (s.coordinator c.grp) c.grp rank c.cseq st

/-- An OP_ABORT about a collective arrives (R370, R382, R391). -/
def State.onCollAbort (s : State) (m : Message) : State :=
  match s.clxMsgGroup m with
  | none => s
  | some g =>
    let cseq := msgCseq m
    let rank := hdr m 0x26 2
    let s := match s.coll g cseq with
      | some c => s.collEnd c m.status rank
      | none => s
    if (s.coordinator g).toNat = s.myAddr then s.relayAbort g cseq m.status rank (some m.src) else s

/-! ### The data phase (R385 to R391) -/

/-- Marks of a payload: one for each 64 bytes. -/
def marksOf (ps : List (Byte × Bool)) : List Bool :=
  (List.range ((ps.length + 63) / 64)).map (fun k => ((ps.drop (64 * k)).take 64).any (fun p => p.2))

/-- Send a run of bytes to a rank in messages of at most 1 MiB, by a route: 0 the class route, else a relay link. -/
def State.sendRun (s : State) (c : Coll) (peer off : Nat) (via : Nat) (relay : Nat) : Nat → List (Byte × Bool) → State
  | 0, _ => s
  | f + 1, ps =>
    if ps.isEmpty then s
    else
      let part := ps.take 0x100000
      let dest := (s.rankChip c.grp peer).toNat
      let s := if via = 0 then
          s.clxSend 0x12 dest c.grp c.rank c.cseq off (part.map (fun p => p.1)) (marksOf part) 0 0
        else s.clxSend 0x13 relay c.grp c.rank c.cseq off (part.map (fun p => p.1)) (marksOf part) 0 dest
      s.sendRun c peer (off + part.length) via relay f (ps.drop 0x100000)

/-- CLX_CFG.PATHS. -/
def State.clxPaths (s : State) : Nat :=
  let p := fld (s.reg pCLX 0x100) 1 3
  if 1 ≤ p ∧ p ≤ 4 then p else 1

/-- Send the transfer of an exchange, in stripes where it is long (R392). -/
def State.sendTransfer (s : State) (c : Coll) (peer off : Nat) (ps : List (Byte × Bool)) : State :=
  let paths := s.clxPaths
  if paths = 1 ∨ ps.length < 0x400000 then s.sendRun c peer off 0 0 (ps.length / 0x100000 + 1) ps
  else
    let stripe := ((ps.length + paths - 1) / paths + 63) / 64 * 64
    (List.range paths).foldl (fun (s : State) k =>
      let part := (ps.drop (k * stripe)).take stripe
      let l := fld (s.reg pCLX 0x104) (8 * k) 4
      let relay := fld (s.reg (pLNK l) 0x804) 0 12
      s.sendRun c peer (off + k * stripe) k relay (part.length / 0x100000 + 1) part) s

/-- Read the blocks of a list, one after the other. -/
def State.readBlocks (s : State) (c : Coll) (dst : Bool) : List Nat → List (Byte × Bool) × State
  | [] => ([], s)
  | b :: bs =>
    let (p, s) := s.readBlock c dst b
    let (q, s) := s.readBlocks c dst bs
    (p ++ q, s)

/-- The bytes an exchange receives: data, and checksums. -/
def State.exchLen (s : State) (c : Coll) (e : Exch) : Nat × Nat :=
  (c.dataLen (!e.combine) e.recv, if e.combine ∧ s.ckOn c then c.ckLen e.recv else 0)

/-- Has an exchange received all? -/
def State.exchWhole (s : State) (c : Coll) (e : Exch) : Bool :=
  let (a, b) := s.exchLen c e
  (e.got.map (fun p => p.2.1.length)).sum == a + b

/-- Elements of a run whose bracketing fast mode leaves open: free values (R387). -/
def State.freeRun (s : State) (w : Nat) : Nat → List (Byte × Bool) → List (Byte × Bool) × State
  | 0, _ => ([], s)
  | n + 1, ps =>
    let v := s.freeVal; let s := s.usedFree
    let po := (ps.take w).any (fun p => p.2)
    let (rest, s) := s.freeRun w n (ps.drop w)
    ((leBytes w v).map (fun b => (b, po)) ++ rest, s)

/-- Compare the chunks of a finished block (R390): how many were compared, and whether one fails. -/
def State.compareBlock (s : State) (c : Coll) (b : Nat) (ps : List (Byte × Bool)) : Nat × Bool :=
  let els := elsOf c.w (c.region false b).2.2 ps
  let tol := s.tolExp
  (c.cks.filter (fun k => k.1 == b)).foldl (fun (a : Nat × Bool) k =>
    let part := (els.drop (1024 * k.2.1)).take 1024
    let skip := dType c.desc != 5 && part.any (fun v => !(elVal (dType c.desc) v).finite)
    if skip then a else (a.1 + 1, a.2 || ckFails (dType c.desc) tol part k.2.2.1 k.2.2.2)) (0, false)

/-- This rank finishes a block that it owns: compared, and stored where it belongs here. Answers a failed
comparison. -/
def State.ownBlock (s : State) (c : Coll) (b : Nat) : Bool × State :=
  let (ps, s) := s.readBlock c false b
  let x := dCtx c.desc
  let (n, bad) := if s.ckOn c then s.compareBlock c b ps else (0, false)
  let s := s.inc pCLX 0xF40 n
  let s := s.modCounts x (fun k => { k with clxBlocks := k.clxBlocks + n, clxMismatch := k.clxMismatch + bnat bad })
  let s := if bad then ((s.inc pCLX 0xF48).raise pCLX 18).detectOpen cCONTAINED stCOLL_CKSUM 0x0E 0 (some x) else s
  let (ps, s) := if dFast c.desc ∧ dRed c.desc = 1 ∧ dType c.desc ≠ 5 ∧ 2 < c.present.length then
      s.freeRun c.w (c.region false b).2.2 ps else (ps, s)
  if dOp c.desc = 0x01 ∨ b = c.rank then (bad, s.writeBlock c true b ps)
  else (bad, s.writeBlock c false b ps)

/-- Finish the owned blocks of a stage. -/
def State.ownBlocks (s : State) (c : Coll) : List Nat → Bool × State
  | [] => (false, s)
  | b :: bs =>
    let (x, s) := s.ownBlock c b
    let (y, s) := s.ownBlocks c bs
    (x || y, s)

/-- Begin a stage: owned blocks, then what the exchanges send. -/
def State.startStage (s : State) (c : Coll) (st : CollStage) : State :=
  let (bad, s) := s.ownBlocks c st.own
  if bad then s.collFail c stCOLL_CKSUM c.rank
  else
    let s : State := st.exs.foldl (fun (s : State) e =>
      if e.send.isEmpty then s
      else
        let (ps, s) := s.readBlocks c e.gather e.send
        let ck := if e.combine ∧ s.ckOn c then (c.ckBytes e.send).map (fun b => (b, false)) else []
        let at_ := sget 0 c.txAt e.peer
        let s := s.inc pCLX 0xF28 ps.length
        let s := s.modColl c.grp c.cseq (fun k => { k with txAt := sset 0 k.txAt e.peer (at_ + ps.length + ck.length) })
        s.sendTransfer c e.peer at_ (ps ++ ck)) s
    s.modColl c.grp c.cseq (fun k => { k with plan := match k.plan with
      | [] => []
      | t :: ts => { t with started := true } :: ts })

/-- The bytes an exchange has received, in order, with the mark of each byte. -/
def Exch.bytes (e : Exch) : List (Byte × Bool) :=
  e.got.flatMap (fun p => (List.range p.2.1.length).map (fun i => (p.2.1.getD i 0, p.2.2.getD (i / 64) false)))

/-- Combine or store the blocks that an exchange has received. -/
def State.takeBlocks (s : State) (c : Coll) (e : Exch) : List Nat → List (Byte × Bool) → State
  | [], _ => s
  | b :: bs, ps =>
    let (_, _, n) := c.region (!e.combine) b
    let now := ps.take (c.w * n)
    let s := if e.combine then
        let (mine, s) := s.readBlock c false b
        s.writeBlock c false b (if c.place c.rank < c.place e.peer then combineEls (dType c.desc) (dRed c.desc) c.w n mine now
          else combineEls (dType c.desc) (dRed c.desc) c.w n now mine)
      else s.writeBlock c true b now
    s.takeBlocks c e bs (ps.drop (c.w * n))

/-- Add the received checksums of some blocks to this rank's (R389). -/
def Coll.addCks (c : Coll) (recv : List Nat) (bs : List Byte) : List (Nat × Nat × Nat × Nat) :=
  let keys := recv.flatMap (fun b => (c.cks.filter (fun k => k.1 == b)).map (fun k => (k.1, k.2.1)))
  c.cks.map (fun k => match keys.findIdx? (fun q => q == (k.1, k.2.1)) with
    | none => k
    | some i => (k.1, k.2.1, addCk (dType c.desc) k.2.2.1 (lef bs (16 * i) 8), addCk (dType c.desc) k.2.2.2 (lef bs (16 * i + 8) 8)))

/-- A stage whose exchanges are whole gives way to the next. -/
def State.endStage (s : State) (c : Coll) (st : CollStage) : State :=
  let s : State := st.exs.foldl (fun (s : State) e =>
    if e.recv.isEmpty then s
    else
      let (a, b) := s.exchLen c e
      let ps := e.bytes
      let s := s.takeBlocks c e e.recv (ps.take a)
      s.modColl c.grp c.cseq (fun k => { k with
        rxAt := smod 0 k.rxAt e.peer (fun n => n + a + b)
        cks := if b = 0 then k.cks else k.addCks e.recv ((ps.drop a).map (fun p => p.1)) })) s
  s.modColl c.grp c.cseq (fun k => { k with plan := k.plan.tail })

/-- The data phase begins (R383, R385): own blocks of the moving forms are copied, checksums of sums taken. -/
def State.startData (s : State) (c : Coll) : State :=
  let s := if dFast c.desc then s.inc pCLX 0xF20 else s.inc pCLX 0xF18
  let s := s.modJob (dCtx c.desc) (fun j => if j.live ∧ dFast c.desc then { j with fast := true } else j)
  let (bs, ds) := c.layout
  let c : Coll := { c with phase := .data, blocks := bs, dblocks := ds }
  let c : Coll := { c with plan := if isRed (dOp c.desc) then c.reducePlan else c.movePlan }
  let (cks, s) := if s.ckOn c then s.takeCks c bs.length 0 [] else ([], s)
  let c : Coll := { c with cks := cks }
  let s := s.modColl c.grp c.cseq (fun _ => c)
  let op := dOp c.desc
  let own : Option (Nat × Nat) :=
    if isRed op then none
    else if op = 0x04 then (if c.rank = dRoot c.desc then some (0, 0) else none)
    else if op = 0x03 ∨ op = 0x13 then some (0, c.rank)
    else some (c.rank, c.rank)
  match own with
  | none => s
  | some (a, b) =>
    let (ps, s) := s.readBlock c false a
    s.writeBlock c true b ps

/-- May a collective whose GO has come begin its data phase: none of its group with a lower CSEQ is left, fewer than
16 run, and no late rank is still being served (R378, R507)? -/
def State.mayData (s : State) (c : Coll) : Bool :=
  c.phase == .gone
    && s.clx.colls.all (fun k => k.grp != c.grp || decide (c.cseq.toNat ≤ k.cseq.toNat))
    && decide ((s.clx.colls.filter (fun k => k.phase == .data)).length < 16)
    && !s.fab.held.any (fun h => match h.sender with | .engine 0x0E t => t == 1 + c.grp.val | _ => false)

/-- One thing that the collectives of this chip can do now. -/
def State.collTurn (s : State) : Option State :=
  match s.clx.colls.findSome? (fun c =>
    if c.phase ≠ .data then none
    else match c.plan with
      | [] => some (s.collEnd c (if c.poison then stDATA_POISON else if c.late then stLATE else stOK) c.rank)
      | st :: _ =>
        if !st.started then some (s.startStage c st)
        else if st.exs.all (fun e => s.exchWhole c e) then some (s.endStage c st)
        else none) with
  | some t => some t
  | none => (s.clx.colls.find? (fun c => s.mayData c)).map (fun c => s.startData c)

/-! ### The coordinator (R381 to R383, R502, R503, R506) -/

/-- Straggler mode of a round: MODE of its first arrival. -/
def Round.mode (r : Round) : Nat := (r.arrivals.head?.map (fun a => lef a.fields 16 1)).getD 0

/-- LOST ranks of a group. -/
def State.lostRanks (s : State) (g : Fin 64) : List Nat := sget [] s.clx.lost g

/-- Are the arrivals in hand: all of them, those of every rank not LOST, or those that have come by DEADLINE? -/
def State.roundDue (s : State) (r : Round) : Bool :=
  let all := List.range (s.grpN r.grp)
  let has (q : Nat) : Bool := r.arrivals.any (fun a => a.rank == q)
  r.gone.isNone && r.aborted.isNone && !r.arrivals.isEmpty
    && (all.all has || (r.mode != 0 && (r.expired || all.all (fun q => has q || (s.lostRanks r.grp).contains q))))

/-- Is a round settled: has every rank arrived, or is it LOST? -/
def State.roundOver (s : State) (r : Round) : Bool :=
  (List.range (s.grpN r.grp)).all (fun q => r.arrivals.any (fun a => a.rank == q) || (s.lostRanks r.grp).contains q)

/-- Does an earlier straggler-mode round of the group still wait for ranks (R507)? -/
def State.roundHeld (s : State) (r : Round) : Bool :=
  s.clx.rounds.any (fun k => k.grp == r.grp && decide (k.cseq.toNat < r.cseq.toNat) && k.gone.isSome && !s.roundOver k)

/-- Arrivals in ascending rank. -/
def Round.ranks (r : Round) (n : Nat) : List Arrival :=
  (List.range n).filterMap (fun q => r.arrivals.find? (fun a => a.rank == q))

/-- The counts that a rank will receive. -/
def rcountsOf (op : Nat) (as_ : List Arrival) (r : Nat) : List Nat :=
  as_.map (fun a => if op = 0x13 then a.counts.getD a.rank 0 else a.counts.getD r 0)

/-- Destination elements of a rank in a variable form. -/
def vDst (op : Nat) (as_ : List Arrival) (r : Nat) : Nat :=
  if op = 0x12 then (((as_.head?).map (fun a => a.counts.getD r 0)).getD 0) else (rcountsOf op as_ r).sum

/-- The decision of R382 over the arrivals in hand: a failure with its rank. -/
def roundFails (as_ : List Arrival) : Option (BitVec 16 × Nat) :=
  match as_ with
  | [] => none
  | a0 :: _ =>
    let op := lef a0.fields 0 1
    let w := elBytes (lef a0.fields 1 1)
    match as_.find? (fun a => a.status != stOK && a.status != stZERO_LEN) with
    | some a => some (a.status, a.rank)
    | none => match as_.find? (fun a => a.fields != a0.fields) with
      | some a => some (stCOLL_MISMATCH, a.rank)
      | none =>
        if !isVar op then none
        else match (if op = 0x12 then as_.find? (fun a => a.counts != a0.counts) else none) with
          | some a => some (stCOLL_MISMATCH, a.rank)
          | none => (as_.find? (fun a => decide (a.cap < w * vDst op as_ a.rank))).map (fun a => (stCOUNT_OVF, a.rank))

/-- GO reaches a participant of this chip (R383): the ranks present, and the counts it will receive. -/
def State.goAt (s : State) (g : Fin 64) (cseq : Word32) (present rcounts : List Nat) : State :=
  match s.coll g cseq with
  | none => s
  | some c =>
    if c.phase ≠ .arriving then s
    else
      (s.inc pCLX 0xF50 (s.pw.aonTime - c.at_).toNat).modColl g cseq (fun c => { c with
        phase := .gone, present := present, rcounts := rcounts })

/-- A list of numbers, two bytes each. -/
def ranksBytes (l : List Nat) : List Byte := l.flatMap (leBytes 2)

/-- The coordinator decides a round (R382, R383, R502). -/
def State.decideRound (s : State) (r : Round) : State :=
  let as_ := r.ranks (s.grpN r.grp)
  match roundFails as_ with
  | some (st, rank) =>
    let s := match s.coll r.grp r.cseq with
      | some c => s.collEnd c st rank
      | none => s
    s.relayAbort r.grp r.cseq st rank none
  | none =>
    let a0 := as_.headD { rank := 0, fields := [], cap := 0, status := 0, counts := [] }
    let op := lef a0.fields 0 1
    let present := as_.map (fun a => a.rank)
    if lef a0.fields 8 4 = 0 ∧ as_.all (fun a => a.counts.all (fun k => k == 0)) then
      let s := match s.coll r.grp r.cseq with
        | some c => s.collEnd c stZERO_LEN 0
        | none => s
      if isVar op then s.relayAbort r.grp r.cseq stZERO_LEN 0 none
      else { s with clx := { s.clx with rounds := s.clx.rounds.map (fun k =>
        if k.grp = r.grp ∧ k.cseq = r.cseq then { k with aborted := some (stZERO_LEN, 0) } else k) } }
    else
      let s : State := { s with clx := { s.clx with rounds := s.clx.rounds.map (fun k =>
        if k.grp = r.grp ∧ k.cseq = r.cseq then { k with gone := some present } else k) } }
      present.foldl (fun (s : State) q =>
        let rc := if isVar op then rcountsOf op as_ q else []
        let chip := s.rankChip r.grp q
        if chip.toNat = s.myAddr then s.goAt r.grp r.cseq present rc
        else s.clxSend 0x11 chip.toNat r.grp q r.cseq 0
          (leBytes 2 present.length ++ ranksBytes present ++ rc.flatMap (leBytes 4)) [] 0 0) s

/-- One thing that the coordinator can do now: decide a round that is due, or drop one that is settled. -/
def State.roundTurn (s : State) : Option State :=
  match s.clx.rounds.find? (fun r => s.roundDue r && !s.roundHeld r) with
  | some r => some (s.decideRound r)
  | none => match s.clx.rounds.find? (fun r => (r.gone.isSome || r.aborted.isSome) && s.roundOver r) with
    | some r => some { s with clx := { s.clx with rounds := s.clx.rounds.erase r } }
    | none => none

/-- Let collectives and rounds go on as far as they can. -/
def State.clxRun : Nat → State → State
  | 0, s => s
  | f + 1, s => match s.collTurn with
    | some t => t.clxRun f
    | none => match s.roundTurn with
      | some t => t.clxRun f
      | none => s

/-- Let collectives go on. -/
def State.clxGo (s : State) : State := s.clxRun (100 * (s.clx.colls.length + s.clx.rounds.length + 1)) 

/-- LATE_GO to a late rank and to the rank that serves it (R503; DEDUCED, log entry 39). -/
def State.lateGo (s : State) (g : Fin 64) (cseq : Word32) (server late present : Nat) (take serve : State → State) : State :=
  let body := leBytes 2 late ++ leBytes 2 present
  let one (s : State) (q : Nat) (f : State → State) : State :=
    let chip := s.rankChip g q
    if chip.toNat = s.myAddr then f s else s.clxSend 0x14 chip.toNat g server cseq 0 body [false] 0 0
  one (one s late take) server serve

/-- A late rank is to receive the result (R503). -/
def State.takeLate (s : State) (g : Fin 64) (cseq : Word32) (server present : Nat) : State :=
  s.modColl g cseq (fun c =>
    if c.phase ≠ .arriving then c
    else { c with
      phase := .data, late := true, present := List.range present, blocks := [(0, dCount c.desc)], dblocks := [(0, dCount c.desc)]
      plan := [{ own := [], exs := [{ peer := server, send := [], recv := [0], combine := false, gather := true }], started := true }] })

/-- This rank is to serve a late rank: at once, or when its own data phase ends. -/
def State.serveGo (s : State) (g : Fin 64) (cseq : Word32) (late : Nat) : State :=
  match s.coll g cseq with
  | some _ => s.modColl g cseq (fun c => { c with serve := c.serve ++ [late] })
  | none => match sget none s.clx.done g with
    | some c => if c.cseq = cseq then s.serveLate c late else s
    | none => s

/-- Answer one rank with an abort. -/
def State.abortRank (s : State) (g : Fin 64) (cseq : Word32) (q : Nat) (st : BitVec 16) (named : Nat) : State :=
  let chip := s.rankChip g q
  if chip.toNat = s.myAddr then
    match s.coll g cseq with
    | some c => s.collEnd c st named
    | none => s
  else s.sendCollAbort chip g named cseq st

/-- An arrival at the coordinator (R381, R382, R501 to R503, R506). -/
def State.arriveAt (s : State) (g : Fin 64) (cseq : Word32) (a : Arrival) : State :=
  if (s.lostRanks g).contains a.rank then s.abortRank g cseq a.rank stSTALLED a.rank
  else match s.clx.rounds.find? (fun r => r.grp == g && r.cseq == cseq) with
    | none =>
      let r : Round := { grp := g, cseq := cseq, first := s.pw.aonTime, arrivals := [a], expired := false, gone := none, aborted := none }
      { s with clx := { s.clx with rounds := s.clx.rounds ++ [r] } }
    | some r =>
      let note (s : State) : State := { s with clx := { s.clx with rounds := s.clx.rounds.map (fun k =>
        if k.grp = g ∧ k.cseq = cseq then { k with arrivals := k.arrivals ++ [a] } else k) } }
      let a0 := r.arrivals.headD a
      if r.arrivals.any (fun k => k.rank == a.rank) then s
      else match r.aborted with
        | some (st, named) => (note s).abortRank g cseq a.rank st named
        | none =>
          if a0.fields.drop 16 ≠ a.fields.drop 16 then (note s).abortRank g cseq a.rank stCOLL_MISMATCH a.rank
          else match r.gone with
            | none => note s
            | some present =>
              match roundFails [a0, a] with
              | some (st, _) => (note s).abortRank g cseq a.rank st a.rank
              | none =>
                let server := present.headD 0
                (note s).lateGo g cseq server a.rank present.length
                  (fun s => s.takeLate g cseq server present.length) (fun s => s.serveGo g cseq a.rank)

/-- A rank is LOST for its group (R506). -/
def State.loseRank (s : State) (g : Fin 64) (cseq : Word32) (q : Nat) : State :=
  let l := (List.range 4096).filter (fun k => k == q || (s.lostRanks g).contains k)
  let s : State := { s with clx := { s.clx with lost := sset [] s.clx.lost g l } }
  let s := s.setReg pCLX (0x900 + 4 * g.val) (BitVec.ofNat 32 (l.length + l.headD 0 * 2 ^ 16 + 2 ^ 31))
  s.abortRank g cseq q stSTALLED q

/-- The coordinator's watchdog over a collective (R370, R506). -/
def State.collWatch (s : State) (g : Fin 64) (cseq : Word32) : State :=
  match s.clx.rounds.find? (fun r => r.grp == g && r.cseq == cseq) with
  | none => s
  | some r =>
    let missing := (List.range (s.grpN g)).filter (fun q =>
      !r.arrivals.any (fun a => a.rank == q) && !(s.lostRanks g).contains q)
    if !s.wdogOver (some r.first) ∨ missing.isEmpty ∨ r.aborted.isSome then s
    else if r.mode ≠ 0 then (missing.foldl (fun (s : State) q => s.loseRank g cseq q) s).clxGo
    else
      let low := missing.foldl (fun m q => if (s.rankChip g q).toNat < (s.rankChip g m).toNat then q else m) (missing.headD 0)
      let s := match s.coll g cseq with
        | some c => s.collEnd c stSTALLED low
        | none => s
      (s.relayAbort g cseq stSTALLED low none).clxGo

/-! ### Posting (R379, R381) -/

/-- The CRC-32 of the member list (R381). -/
def State.memberCrc (s : State) (g : Fin 64) : Nat := crc32 ((s.members g).flatMap (fun c => leBytes 2 c.toNat))

/-- The carried fields of ARRIVE. -/
def State.arriveFields (s : State) (c : Coll) : List Byte :=
  c.desc.take 4 ++ leBytes 2 (dRoot c.desc) ++ leBytes 2 c.n ++ leBytes 4 (dCount c.desc) ++ leBytes 4 (s.memberCrc c.grp)
    ++ leBytes 1 c.mode ++ leBytes 3 0 ++ leBytes 4 c.deadline

/-- Send ARRIVE to the coordinator, or arrive at it here (R381). -/
def State.sendArrive (s : State) (c : Coll) (st : BitVec 16) : State :=
  let a : Arrival := { rank := c.rank, fields := s.arriveFields c, cap := d48 c.desc 0x28, status := st, counts := c.counts }
  let dest := s.coordinator c.grp
  if dest.toNat = s.myAddr then s.arriveAt c.grp c.cseq a
  else s.clxSend 0x10 dest.toNat c.grp c.rank c.cseq 0
    (a.fields ++ leBytes 8 a.cap ++ leBytes 4 st.toNat ++ a.counts.flatMap (leBytes 4)) [] 0 0

/-- Post a collective (R379). -/
def State.postColl (s : State) (d : List Byte) (mode deadline : Nat) (by_ : Poster) : State :=
  let g := dGrp d
  let x := dCtx d
  let cseq := dCseq d
  let rank := fld (s.grpRank g) 0 12
  let n := s.grpN g
  let alone (st : BitVec 16) : State := s.collReport g cseq x by_ st rank 0
  if !s.descShape d mode then alone stDESC_INVALID
  else if !bit (s.clxGroup g) 31 ∨ fld (s.grpRank g) 16 6 ≠ x.val then alone stGROUP_DENIED
  else if cseq.toNat < sget 0 s.clx.hist g then alone stCOLL_SEQ
  else
    let s : State := { s with clx := { s.clx with hist := sset 0 s.clx.hist g (cseq.toNat + 1) } }
    let (counts, s) := s.readCounts d n
    let st := s.localCheck d n rank mode counts
    let c : Coll := { grp := g, cseq := cseq, desc := d, mode := mode, deadline := deadline, by_ := by_, at_ := s.pw.aonTime
                      rank := rank, n := n, counts := counts }
    let s := if st = stOK then { s with clx := { s.clx with colls := s.clx.colls ++ [c] } }
      else s.collReport g cseq x by_ st rank 0
    (s.sendArrive c st).clxGo

/-- COLLECTIVE (R374, R379): a queue's command is posted while fewer than 64 are. -/
def execCollective (q : Fin 64) (s : State) : Host.Outcome State Fault Refusal :=
  ok (match s.mayBegin q 2 with
    | none => s
    | some e =>
      if 64 ≤ s.clx.colls.length then s
      else s.engineEvent dCLX (fun s => (s.beginEntry q e).postColl e.desc 0 0 (.queue q e.cid)))

/-! ### Messages -/

/-- ARRIVE (R382). -/
def State.onArrive (s : State) (m : Message) : State :=
  match s.clxMsgGroup m with
  | none => s
  | some g =>
    let p := m.payload
    let a : Arrival := { rank := hdr m 0x26 2, fields := p.take 24, cap := lef p 24 8, status := BitVec.ofNat 16 (lef p 32 2)
                         counts := if isVar (lef p 0 1) then (List.range (lef p 6 2)).map (fun i => lef p (36 + 4 * i) 4) else [] }
    (s.arriveAt g (msgCseq m) a).clxGo

/-- ARRIVE (R381, R382). -/
def execArrive (m : Message) (s : State) : Host.Outcome State Fault Refusal :=
  ok (s.engineMsg dCLX m (fun s => s.engineTakeE m pCLX (fun s => s.onArrive m)))

/-- GO (R383). -/
def State.onGo (s : State) (m : Message) : State :=
  match s.clxMsgGroup m with
  | none => s
  | some g =>
    let k := lef m.payload 0 2
    let rest := m.payload.drop (2 + 2 * k)
    (s.goAt g (msgCseq m) ((List.range k).map (fun i => lef m.payload (2 + 2 * i) 2))
      ((List.range (rest.length / 4)).map (fun i => lef rest (4 * i) 4))).clxGo

/-- GO (R383). -/
def execGo (m : Message) (s : State) : Host.Outcome State Fault Refusal :=
  ok (s.engineMsg dCLX m (fun s => s.engineTakeE m pCLX (fun s => s.onGo m)))

/-- DATA meets the exchange of its rank in the stage under way; none where the stage has not been reached. -/
def State.takePiece (s : State) (m : Message) : Option State :=
  match s.clxMsgGroup m with
  | none => none
  | some g => match s.coll g (msgCseq m) with
    | none => none
    | some c => match c.phase, c.plan with
      | .data, st :: rest =>
        let peer := hdr m 0x26 2
        let off := hdr m 0x30 8
        match st.exs.find? (fun e => e.peer == peer && !e.recv.isEmpty) with
        | none => none
        | some e =>
          let (a, b) := s.exchLen c e
          let lo := sget 0 c.rxAt peer
          if st.started ∧ lo ≤ off ∧ off + m.payload.length ≤ lo + a + b ∧ (e.got.all (fun p => p.1 != off)) then
            let s := s.inc pCLX 0xF30 (min m.payload.length (lo + a - off))
            let e' : Exch := { e with got := sset ([], []) e.got off (m.payload, m.poison) }
            let st' : CollStage := { st with exs := st.exs.map (fun k => if k.peer = peer ∧ !k.recv.isEmpty then e' else k) }
            some (s.modColl g (msgCseq m) (fun k => { k with plan := st' :: rest }))
          else none
      | _, _ => none

/-- CLX takes a DATA message, or answers it NO_RECV (R353). -/
def State.takePieces (s : State) (m : Message) : Taken :=
  if !s.pgEn pCLX then .refuse stDENIED s
  else match s.takePiece m with
    | none => .refuse stNO_RECV s
    | some s => .accept stOK s.clxGo

/-- COLL_DATA (R385). -/
def execCollData (m : Message) (s : State) : Host.Outcome State Fault Refusal :=
  ok (s.engineMsg dCLX m (fun s => s.windowedE m (fun s => s.takePieces m)))

/-- A stripe (R392): for this chip it is data; otherwise it goes on unchanged by this chip's class route. -/
def State.onStripe (s : State) (m : Message) : Taken :=
  if m.tag.toNat = s.myAddr then s.takePieces m
  else if !s.pgEn pCLX then .refuse stDENIED s
  else
    let f := newMsg s 0x13 m.tag.toNat
    let f : Message := { f with extra := m.extra, payload := m.payload, poison := m.poison, tag := m.tag }
    .accept stOK ((s.inc pCLX 0xF38 m.payload.length).sendMsg f 1 (.engine 0x0E 0)).2

/-- RELAY_STRIPE (R392). -/
def execRelayStripe (m : Message) (s : State) : Host.Outcome State Fault Refusal :=
  ok (s.engineMsg dCLX m (fun s => s.windowedE m (fun s => s.onStripe m)))

/-- LATE_GO (R503). -/
def State.onLateGo (s : State) (m : Message) : State :=
  match s.clxMsgGroup m with
  | none => s
  | some g =>
    let server := hdr m 0x26 2
    let late := lef m.payload 0 2
    let me := fld (s.grpRank g) 0 12
    (if me = late then s.takeLate g (msgCseq m) server (lef m.payload 2 2) else s.serveGo g (msgCseq m) late).clxGo

/-- LATE_GO (R503). -/
def execLateGo (m : Message) (s : State) : Host.Outcome State Fault Refusal :=
  ok (s.engineMsg dCLX m (fun s => s.engineTakeE m pCLX (fun s => s.onLateGo m)))

/-! ### Times and ends -/

/-- COLL_LOCAL_TIMEOUT (R378, When things collide). -/
def execCollLocalTimeout (g : Fin 64) (cseq : Word32) (s : State) : Host.Outcome State Fault Refusal :=
  ok (match s.coll g cseq with
    | none => s
    | some c =>
      if 2 * (s.reg pFAB 0x124).toNat ≤ (s.pw.aonTime - c.at_).toNat then
        s.engineEvent dCLX (fun s => (s.collEnd c stSTALLED 0).clxGo) else s)

/-- STRAGGLER_DEADLINE (R502): DEADLINE µs may have passed since the first ARRIVE, as AON ticks tell. -/
def execStragglerDeadline (g : Fin 64) (cseq : Word32) (s : State) : Host.Outcome State Fault Refusal :=
  ok (match s.clx.rounds.find? (fun r => r.grp == g && r.cseq == cseq) with
    | none => s
    | some r =>
      let dl := (r.arrivals.head?.map (fun a => lef a.fields 20 4)).getD 0
      if r.mode ≠ 0 ∧ r.gone.isNone ∧ r.aborted.isNone ∧ dl * 32768 ≤ ((s.pw.aonTime - r.first).toNat + 1) * 1000000 then
        s.engineEvent dCLX (fun s =>
          State.clxGo { s with clx := { s.clx with rounds := s.clx.rounds.map (fun k =>
            if k.grp = g ∧ k.cseq = cseq then { k with expired := true } else k) } })
      else s)

/-- A message of CLX could not be delivered (R352; When things collide). -/
def State.clxUndelivered (s : State) (m : Message) (st : BitVec 16) : State :=
  match s.clxMsgGroup m with
  | none => s
  | some g => match s.coll g (msgCseq m) with
    | none => s
    | some c =>
      if m.kind = 0x10 then (s.collEnd c st 0).clxGo
      else
        let peer := ((s.members g).findIdx? (fun q => q == m.dest)).getD 0
        (s.collFail c (if st = stUNREACHABLE then stUNREACHABLE else stCOLL_ABORT) peer).clxGo

/-- The collectives of a context, or of a group, abort with COLL_ABORT (When things collide). -/
def State.collAbortAll (s : State) (p : Coll → Bool) : State :=
  ((s.clx.colls.filter p).foldl (fun (s : State) c => s.collFail c stCOLL_ABORT c.rank) s).clxGo

/-- A write of CLX_GROUPn: collectives posted on the group abort, and its CSEQ history restarts. -/
def State.groupRewrite (s : State) (n : Fin 64) (v : Word32) : State :=
  let s := s.collAbortAll (fun c => c.grp == n)
  { s.store pCLX (0x200 + 4 * n.val) v with clx := { s.clx with hist := sset 0 s.clx.hist n 0 } }

/-- CLX_GROUP_REWRITE (R373, R379, When things collide). -/
def execClxGroupRewrite (r : Requester) (n : Fin 64) (v : Word32) (s : State) : Host.Outcome State Fault Refusal :=
  ok (s.write r pCLX (0x200 + 4 * n.val) (fun s => s.groupRewrite n v))

/-- The LOST ranks and the CSEQ history of a group are cleared (R509). -/
def State.groupForget (s : State) (g : Fin 64) : State :=
  { s.setReg pCLX (0x900 + 4 * g.val) 0 with clx := { s.clx with
    hist := sset 0 s.clx.hist g 0, lost := sset [] s.clx.lost g [] } }

end Sys2Proof.Machine
end

