-- ==== Sys2Proof/Machine/Kitty.lean ====
section
/-! DEFINITION. Kitty records and rings (15_episodes.md R458 to R463). -/

namespace Sys2Proof.Machine

/-! ### Rings (R461) -/

/-- A ring takes a record, with a pad record where it would pass the ring's end: the status, and the state after
(DEDUCED, log entry 125). -/
def State.kitTake (s : State) (n : Nat) (bs : List Byte) (po : List Bool) : BitVec 16 × State :=
  let cfg := s.reg pKIT (0x100 + 0x10 * n)
  let rn := fld cfg 0 15
  let size := match s.trec rn with | some r => r.size | none => 0
  if !s.pgEn pKIT ∨ !bit cfg 31 ∨ size < 0x200000 then (stDENIED, s)
  else
    let head := (s.reg64 pKIT (0x800 + 0x20 * n)).toNat
    let tail := (s.reg64 pKIT (0x808 + 0x20 * n)).toNat
    let seq := s.reg64 pKIT (0x810 + 0x20 * n)
    let pos := head % size
    let pad := if size < pos + bs.length then size - pos else 0
    if size - (head - tail) < pad + bs.length then (stKITTY_FULL, (s.inc pKIT 0xF10).raise pKIT 16)
    else
      let put (s : State) (off : Nat) (b : List Byte) (p : Bool) : State :=
        s.recWrite rn false .default s.sysPart p off b
      let s := if pad = 0 then s else put s pos ((leBytes 4 pad ++ leBytes 60 0).take pad) false
      let at_ := if pad = 0 then pos else 0
      let bs := overlay bs 0x30 (leBytes 8 seq.toNat)
      let s : State := (List.range ((bs.length + 63) / 64)).foldl (fun (s : State) i =>
        put s (at_ + 64 * i) ((bs.drop (64 * i)).take 64) (po.getD i false)) s
      let s := s.setReg64 pKIT (0x810 + 0x20 * n) (seq + 1)
      let s := (s.inc pKIT 0xF00).inc pKIT 0xF08 bs.length
      (stOK, s.setReg64 pKIT (0x800 + 0x20 * n) (BitVec.ofNat 64 (head + pad + bs.length)))

/-! ### Records (R459) -/

/-- The history entries of a record, with a mark for each 64 bytes. -/
def State.readHistory (s : State) (x tid : Nat) : Nat → Nat → List Byte → List Bool → List Byte × List Bool × State
  | 0, _, bs, po => (bs, po.reverse, s)
  | n + 1, off, bs, po =>
    let (b, p, s) := s.engRead x tid off 64
    s.readHistory x tid n (off + 64) (bs ++ b) (p :: po)

/-- Build a record from history (R459): its bytes and marks. -/
def State.buildRec (s : State) (r : KRec) (e : Episode) : List Byte × List Bool × State :=
  let (raw, po, s) := s.readHistory e.ctx e.tensor.toNat (r.count / 4) (e.off + 16 * r.first) [] []
  let (tail, tp, s) := s.engRead e.ctx e.tensor.toNat (e.off + 16 * (r.first + r.count / 4 * 4)) (16 * (r.count % 4))
  let hist := raw ++ tail
  let entry (i : Nat) : List Byte := (hist.drop (16 * i)).take 16
  let all := (List.range r.count).map entry
  let gen := (all.filter (fun b => !bit (b.getD 4 0) 0)).map (fun b => lef b 8 8)
  let lo := gen.foldl min (gen.headD 0)
  let hi := gen.foldl max 0
  let bytes := (64 + 16 * r.count + 63) / 64 * 64
  let flags := (if r.final then bnat (e.fin == 1) + 2 * bnat (e.fin == 2) + 4 * bnat (e.fin == 3) else 0)
    + 8 * bnat (lo != hi) + 16 * bnat (all.any (fun b => bit (b.getD 4 0) 0))
  let head : List Byte := leBytes 4 bytes ++ leBytes 2 s.myAddr ++ leBytes 2 e.epoch.toNat ++ leBytes 4 e.id.toNat
    ++ leBytes 1 (s.epsTenant e.ctx) ++ leBytes 1 (if r.final then 2 else 1) ++ leBytes 2 flags ++ leBytes 8 r.first
    ++ leBytes 4 r.count ++ leBytes 4 r.reward.toNat ++ leBytes 8 lo ++ leBytes 8 hi ++ leBytes 16 0
  (slice (head ++ hist) 0 bytes, false :: po ++ (if r.count % 4 = 0 then [] else [tp]), s)

/-! ### Sending (R460, R462) -/

/-- A record has its outcome: accepted, refused KITTY_FULL, or not to be delivered. -/
def State.recOutcome (s : State) (num : Nat) (st : BitVec 16) : State :=
  match s.eps.recq.find? (fun r => r.num == num) with
  | none => s
  | some r =>
    if st = stKITTY_FULL then
      { s.inc pEPS 0xF58 with eps := { s.eps with recq := s.eps.recq.map (fun q =>
          if q.num = num then { q with full := true } else q) } }
    else
      let s := if st = stOK then s.inc pEPS 0xF50 else s
      let s : State := { s with eps := { s.eps with recq := s.eps.recq.filter (fun q => q.num != num) } }
      (s.modEpisode r.ep (fun e => { e with recs := e.recs - 1 })).freeEpisode r.ep

/-- Send a record: to this chip's own ring directly, to another chip as a message. -/
def State.sendRec (s : State) (r : KRec) : State :=
  match s.episode r.ep with
  | none => s
  | some e =>
    let (bs, po, s) := s.buildRec r e
    let kit := s.breg e.group pEPS 0x220
    let ring := fld kit 12 4
    let s : State := { s with eps := { s.eps with recq := s.eps.recq.map (fun q =>
        if q.num = r.num then { q with sent := true, full := false } else q) } }
    if fld kit 0 12 = s.myAddr then
      let (st, s) := s.kitTake ring bs po
      s.recOutcome r.num st
    else
      let m := newMsg s 0x30 (fld kit 0 12)
      let m : Message := { m with extra := leBytes 1 ring ++ List.replicate 27 0, payload := bs, poison := po }
      (s.sendMsg m 4 (.kitty r.num)).2

/-- KITTY_RECORD_SEND (R459, R460): the oldest record not yet sent, with at most 16 outstanding. -/
def execKittyRecordSend (s : State) : Host.Outcome State Fault Refusal :=
  ok (
    if 16 ≤ (s.eps.recq.filter (fun r => r.sent)).length then s
    else match s.eps.recq.find? (fun r => !r.sent) with
      | none => s
      | some r => s.engineEvent dEPS (fun s => s.sendRec r))

/-- KITTY_RESEND (R462): a record refused KITTY_FULL is sent again. -/
def execKittyResend (id : Nat) (s : State) : Host.Outcome State Fault Refusal :=
  ok (match s.eps.recq.find? (fun r => r.num == id && r.full) with
    | none => s
    | some r => s.engineEvent dEPS (fun s => s.sendRec r))

/-- KITTY_RECORD_RX (R461). -/
def execKittyRecordRx (m : Message) (s : State) : Host.Outcome State Fault Refusal :=
  ok (s.windowedE m (fun s =>
    let (st, s) := s.kitTake (hdr m 0x24 1 % 16) m.payload m.poison
    if st = stOK then .accept st s else .refuse st s))

/-- KIT_RINGn_TAIL (R463). -/
def execKitRingnTail (r : Requester) (n : Fin 16) (hi : Bool) (v : Word32) (s : State) : Host.Outcome State Fault Refusal :=
  ok (s.write r pKIT (0x808 + 0x20 * n.val + (if hi then 4 else 0)) (fun s =>
    s.ackWrite pKIT (0x808 + 0x20 * n.val) (s.reg64 pKIT (0x800 + 0x20 * n.val)) hi v (fun s => s.inc pKIT 0xF18)))

end Sys2Proof.Machine
end

