-- ==== Sys2Proof/Machine/Learning.lean ====
section
/-! DEFINITION. Learner jobs (17_learning.md R489 to R509, R514 to R516): enabling, phases and holds, command mode,
gradient buckets, stragglers, checkpoints, Kitty windows. -/

namespace Sys2Proof.Machine

/-! ### Registers of a job -/

/-- A configuration register of a job. -/
def State.trnReg (s : State) (j o : Nat) : Word32 := s.reg pTRN (0x100 + 0x40 * j + o)
/-- The offset of an operation register of a job. -/
abbrev trnOp (j o : Nat) : Nat := 0x800 + 0x40 * j + o
/-- Context of a job. -/
def State.trnCtx (s : State) (j : Nat) : CtxId := ⟨fld (s.trnCfg j) 0 6, Nat.mod_lt _ (by decide)⟩
/-- COMMAND mode. -/
def State.trnCommand (s : State) (j : Nat) : Bool := bit (s.trnCfg j) 6
/-- KIT_EN. -/
def State.trnKit (s : State) (j : Nat) : Bool := bit (s.trnCfg j) 7
/-- M. -/
def State.trnM (s : State) (j : Nat) : Nat := fld (s.trnCfg j) 8 9
/-- PHASE_BAR. -/
def State.trnBar (s : State) (j : Nat) : Nat := fld (s.trnCfg j) 25 6
/-- STEP. -/
def State.trnStep (s : State) (j : Nat) : Word64 := s.reg64 pTRN (trnOp j 8)
/-- STASH_SLOT. -/
def State.trnStash (s : State) (j : Nat) : Nat := (s.trnReg j 8).toNat + (s.trnReg j 12).toNat * 2 ^ 32
/-- CKPT_EVERY. -/
def State.ckptEvery (s : State) (j : Nat) : Nat := fld (s.trnReg j 0x24) 0 16
/-- The checkpoint record. -/
def State.ckptRec (s : State) (j : Nat) : Nat := fld (s.trnReg j 0x24) 16 15

/-- Change a job. -/
def State.modTrn (s : State) (j : Nat) (f : TrnJob → TrnJob) : State := { s with trn := smod {} s.trn j f }

/-- Change a bucket of a job. -/
def State.modBucket (s : State) (j b : Nat) (f : Bucket → Bucket) : State :=
  s.modTrn j (fun t => { t with buckets := smod {} t.buckets b f })

/-- A bucket of a job. -/
def TrnJob.bucket (t : TrnJob) (b : Nat) : Bucket := sget {} t.buckets b

/-- A bucket's entry. -/
def TrnJob.entry (t : TrnJob) (b : Nat) : List Byte := t.entries.getD b []

/-- Set the last status of a job. -/
def State.trnStatus (s : State) (j : Nat) (st : BitVec 16) : State :=
  s.setReg pTRN (trnOp j 0) (putFld (s.reg pTRN (trnOp j 0)) 16 16 st.toNat)

/-! ### Enabling (R516) -/

/-- The checkpoint list: entries of tensor and bytes, up to 16, to the first of no bytes (DEDUCED, log entry 41). -/
def State.ckptList (s : State) (j : Nat) : List (Nat × Nat) :=
  let a := (s.trnReg j 0x28).toNat + fld (s.trnReg j 0x2C) 0 8 * 2 ^ 32
  let es := (List.range 16).map (fun i =>
    let e := s.devBytes (a + 16 * i) 16
    (lef e 0 2, lef e 8 8))
  es.takeWhile (fun e => e.2 != 0)

/-- Bytes of data of a checkpoint. -/
def ckptBytes (l : List (Nat × Nat)) : Nat := (l.map (fun e => e.2)).sum

/-- Source bytes of a bucket. -/
def State.bucketBytes (s : State) (e : List Byte) : Nat :=
  srcEls (dOp e) (s.grpN (dGrp e)) 0 0 (dCount e) [] * elBytes (dType e)

/-- MODE and DEADLINE of a bucket entry. -/
def bucketMode (e : List Byte) : Nat := lef e 0x41 1
/-- DEADLINE. -/
def bucketDeadline (e : List Byte) : Nat := lef e 0x44 4

/-- Are all numbers different? -/
def distinct : List Nat → Bool
  | [] => true
  | a :: l => !l.contains a && distinct l

/-- The check of a job as it would be enabled (R516). -/
def State.jobFails (s : State) (j : Nat) (v : Word32) (es : List (List Byte)) : Option (BitVec 16) :=
  let x := fld v 0 6
  let m := fld v 8 9
  let bars := fld v 25 6 :: es.map bucketBar
  let okEntry (e : List Byte) : Bool :=
    lef e 0x42 2 == 0 && lef e 0x4A 6 == 0 && (e.drop 0x58).all (fun b => b == 0) && decide (bucketMode e ≤ 2)
      && (bucketMode e == 0 || (decide (1 ≤ bucketDeadline e) && decide (bucketDeadline e ≤ 1000000) && dOp e == 0x01))
  let rw (t : Nat) : Bool := match s.tensor x t with | some (_, _, w) => w | none => false
  let carryOk (e : List Byte) : Bool := bucketMode e != 1 || s.holdsBytes x (lef e 0x48 2) (lef e 0x50 8 + s.bucketBytes e)
  let list := s.ckptList j
  let ckptOk := s.ckptEvery j == 0 || (match s.trec (s.ckptRec j) with
    | some r => decide (0x80 + ckptBytes list ≤ r.size)
    | none => false)
  let ring := fld (s.trnReg j 0x1C) 16 4
  let kitOk := !bit v 7 || (bit (s.reg pKIT (0x100 + 0x10 * ring)) 31 && decide (16 ≤ fld (s.trnReg j 0x1C) 0 16))
  if m = 0 ∨ 256 < m ∨ 62 < fld v 17 6 ∨ !distinct bars ∨ bars.any (fun b => decide (64 ≤ b)) then some stDESC_INVALID
  else if !es.all okEntry then some stDESC_INVALID
  else if !rw (fld (s.trnReg j 4) 0 12) ∨ !s.holdsBytes x (fld (s.trnReg j 4) 0 12) 0x1000
      ∨ !s.holdsBytes x (fld (s.trnReg j 4) 16 12) (m * s.trnStash j) ∨ !es.all carryOk ∨ !ckptOk then some stBOUND
  else if !kitOk then some stDESC_INVALID
  else none

/-- A write of TRN_Jj_CFG (R516). -/
def State.trnEnable (s : State) (j : Fin 8) (w : Word32) : State :=
  let v := w &&& 0xFE7FFFFF
  let p := 0x100 + 0x40 * j.val
  if !bit v 31 then (s.setReg pTRN p v).modTrn j (fun _ => {})
  else if bit (s.trnCfg j) 31 then s.setReg pTRN p v
  else
    let base := ((s.trnReg j 0x10).toNat + fld (s.trnReg j 0x14) 0 8 * 2 ^ 32) / 128 * 128
    let es := (List.range (fld v 17 6)).map (fun b => s.devBytes (base + 128 * b) 128)
    match s.jobFails j v es with
    | some st => (s.setReg pTRN p (v &&& 0x7FFFFFFF)).trnStatus j st
    | none =>
      let s := (s.setReg pTRN p v).setReg pTRN (trnOp j 0) 0
      let s := ((s.setReg64 pTRN (trnOp j 8) 0).setReg64 pTRN (trnOp j 0x10) 0).setReg pTRN (trnOp j 0x1C) 0
      (s.setReg pTRN (trnOp j 0x20) (s.trnReg j 0x18)).modTrn j (fun _ => { entries := es })

/-- TRN_JOB_ENABLE (R516). -/
def execTrnJobEnable (r : Requester) (j : Fin 8) (v : Word32) (s : State) : Host.Outcome State Fault Refusal :=
  ok (s.write r pTRN (0x100 + 0x40 * j.val) (fun s => s.trnEnable j v))

/-! ### Kitty windows (R514) -/

/-- Whole records from a position on: bytes, records, and whether one was met that does not fit. -/
def State.windowFrom (s : State) (rn size head mx : Nat) : Nat → Nat → Nat → Nat → (Nat × Nat × Bool) × State
  | 0, _, n, k => ((n, k, false), s)
  | f + 1, pos, n, k =>
    if head ≤ pos then ((n, k, false), s)
    else
      let (h, _, s) := s.recRead rn false .default s.sysPart false (pos % size) 16
      let len := lef h 0 4
      if len = 0 then ((n, k, true), s)
      else if mx < n + len then ((n, k, true), s)
      else s.windowFrom rn size head mx f (pos + len) (n + len) (k + bnat (h.getD 13 0 != 0))

/-- The Kitty window of a step, where it may be taken: begin, end, records. -/
def State.kitWindow (s : State) (j : Nat) : Option (Nat × Nat × Nat) × State :=
  let ring := fld (s.trnReg j 0x1C) 16 4
  let rn := fld (s.reg pKIT (0x100 + 0x10 * ring)) 0 15
  let size := match s.trec rn with | some r => r.size | none => 0
  let head := (s.reg64 pKIT (0x800 + 0x20 * ring)).toNat
  let tail := (s.reg64 pKIT (0x808 + 0x20 * ring)).toNat
  let mx := fld (s.trnReg j 0x1C) 0 16 * 65536
  let ((n, k, full), s) := s.windowFrom rn (max 1 size) head mx ((head - tail) / 64 + 1) tail 0 0
  if fld (s.trnReg j 0x20) 0 16 * 65536 ≤ n ∨ full then (some (tail, tail + n, k), s) else (none, s)

/-- The ring's tail takes the end of the step's window (R515). -/
def State.kitAdvance (s : State) (j : Nat) : State :=
  let t := s.trnJob j
  if !t.kitTaken then s
  else
    let ring := fld (s.trnReg j 0x1C) 16 4
    let o := 0x808 + 0x20 * ring
    if t.kitEnd < (s.reg64 pKIT o).toNat ∨ (s.reg64 pKIT (0x800 + 0x20 * ring)).toNat < t.kitEnd then s.inc pKIT 0xF18
    else s.setReg64 pKIT o (BitVec.ofNat 64 t.kitEnd)

/-! ### Steps and checkpoints (R491, R508) -/

/-- Copy the listed tensors into the checkpoint record, from `off` on, with the hint STREAM. -/
def State.ckptCopy (s : State) (x rn : Nat) : List (Nat × Nat) → Nat → State
  | [], _ => s
  | (t, n) :: l, off =>
    let (ps, s) := s.clxRead x t 0 n
    (s.clxWr rn s.sysPart (n / 64 + 2) off ps).ckptCopy x rn l (off + n)

/-- Is a checkpoint due when STEP has this value? -/
def State.ckptDue (s : State) (j : Nat) (step : Nat) : Bool := s.ckptEvery j != 0 && step % s.ckptEvery j == 0

/-- A step of a job closes. -/
def State.closeTrnStep (s : State) (j : Nat) : State :=
  let n := s.trnStep j + 1
  let s := s.kitAdvance j
  let s := ((s.setReg64 pTRN (trnOp j 8) n).inc pTRN 0xF00).raise pTRN 16
  let s := s.modTrn j (fun t => { t with
    kitTaken := false, stepBegun := false
    buckets := (List.range 62).foldl (fun m b => smod {} m b (fun k => { k with
      bars := 0, status := 0, present := 0, late := false })) t.buckets })
  if s.ckptDue j n.toNat then
    (s.ckptCopy (s.trnCtx j) (s.ckptRec j) (s.ckptList j) 0x80).modTrn j (fun t => { t with ckpt := true })
  else s

/-- The header of a checkpoint up to its digest. -/
def State.ckptHead (s : State) (j : Nat) (l : List (Nat × Nat)) : List Byte :=
  leBytes 4 0x54504B43 ++ leBytes 1 j ++ leBytes 1 l.length ++ leBytes 2 0 ++ leBytes 8 (s.trnStep j).toNat
    ++ leBytes 8 (ckptBytes l) ++ leBytes 40 0

/-- Have all cores of the job's context arrived at its phase barrier? -/
def State.phaseDone (s : State) (j : Nat) : Bool :=
  let k := s.bar (s.trnCtx j) (s.trnBar j)
  k.cores.all (fun c => k.arrived.contains c)

/-- The current phase closes without a next one. -/
def State.closePhase (s : State) (j : Nat) : State :=
  let was := (s.trnJob j).cur
  let s := s.modTrn j (fun t => { t with cur := none })
  match was with
  | some (.opt, _) => if s.trnCommand j then s else s.closeTrnStep j
  | _ => s

/-- A job that is to halt does so once its current phase has closed and no checkpoint is being written (R509). -/
def State.trnSettle (s : State) (j : Nat) : State :=
  let t := s.trnJob j
  if !t.haltAsk ∨ t.halted ∨ t.arrived then s
  else
    let s := if t.cur.isSome ∧ s.phaseDone j then s.closePhase j else s
    let t := s.trnJob j
    if t.cur.isNone ∧ !t.ckpt then s.modTrn j (fun t => { t with halted := true, next := none }) else s

/-- A job halts with a status (R494, R500). -/
def State.haltJob (s : State) (j : Nat) (st : BitVec 16) : State :=
  (((s.trnStatus j st).raise pTRN 17).modTrn j (fun t => { t with haltAsk := true })).trnSettle j

/-- CHECKPOINT_DONE (R508). -/
def execCheckpointDone (j : Fin 8) (s : State) : Host.Outcome State Fault Refusal :=
  ok (
    if !(s.trnJob j).ckpt then s
    else
      let l := s.ckptList j
      let n := ckptBytes l
      let h := s.ckptHead j l
      let (data, _, s) := s.recRead (s.ckptRec j) false .stream s.sysPart false 0x80 n
      let s := s.hashed (64 + n)
      let s := s.recWrite (s.ckptRec j) false .stream s.sysPart false 0 (h ++ sha256 (h ++ data) ++ leBytes 32 0)
      (((s.inc pTRN 0xF50).raise pTRN 18).modTrn j (fun t => { t with ckpt := false })).trnSettle j)

/-! ### Phases (R490 to R495) -/

/-- The code of a phase kind. -/
def PhaseKind.code : PhaseKind → Nat
  | .fwd => 1
  | .bwd => 2
  | .opt => 3

/-- The phase that follows in SEQUENCED mode (R491). -/
def nextPhase (m : Nat) : Option (PhaseKind × Nat) → PhaseKind × Nat
  | none => (.fwd, 0)
  | some (.fwd, k) => if k + 1 < m then (.fwd, k + 1) else (.bwd, m - 1)
  | some (.bwd, 0) => (.opt, 0)
  | some (.bwd, k + 1) => (.bwd, k)
  | some (.opt, _) => (.fwd, 0)

/-- A phase's bucket entry. -/
def Bucket.bytes (k : Bucket) (opt : Bool) : List Byte :=
  leBytes 2 (if opt then k.status.toNat else 0) ++ leBytes 2 (if opt then k.present else 0)
    ++ leBytes 2 (bnat k.carry.isSome + 2 * bnat k.late) ++ leBytes 2 0 ++ leBytes 8 ((k.carry.map (fun v => v.toNat)).getD 0)

/-- The phase block of a phase; `step` is the step it belongs to. -/
def State.phaseBlock (s : State) (j : Nat) (ph : PhaseKind × Nat) (step : Nat) : List Byte :=
  let t := s.trnJob j
  let mb := if ph.1 = .opt then 0 else ph.2
  leBytes 8 (s.reg64 pTRN (trnOp j 0x10)).toNat ++ leBytes 8 step ++ leBytes 1 ph.1.code ++ leBytes 1 0 ++ leBytes 2 mb
    ++ leBytes 2 (s.trnM j) ++ leBytes 2 t.entries.length ++ leBytes 8 (if ph.1 = .opt then 0 else mb * s.trnStash j)
    ++ leBytes 8 t.kitBegin ++ leBytes 8 t.kitEnd ++ leBytes 4 t.kitRecs ++ leBytes 12 0
    ++ (List.range 62).flatMap (fun b => if b < t.entries.length then (t.bucket b).bytes (ph.1 == .opt) else leBytes 16 0)

/-- The next phase is presented: block written, TRN arrives. -/
def State.presentPhase (s : State) (j : Fin 8) (ph : PhaseKind × Nat) : State :=
  let t := s.trnJob j
  let early := match t.cur with | some (.opt, _) => !s.trnCommand j | _ => false
  let step := (s.trnStep j).toNat + bnat early
  let n := s.reg64 pTRN (trnOp j 0x10)
  let x := s.trnCtx j
  let s := s.engWrite .default x (fld (s.trnReg j 4) 0 12) (0x800 * (n.toNat % 2)) (s.phaseBlock j ph step) false
  let s := (s.setReg64 pTRN (trnOp j 0x10) (n + 1)).inc pTRN 0xF08
  let s := s.modTrn j (fun t => { t with next := some ph, arrived := true, stepBegun := t.stepBegun || ph.1 == .fwd })
  s.engArrive x (s.trnBar j) (.trn j)

/-- Does every bucket collective posted in the step have its completion handled (R495)? -/
def TrnJob.settled (t : TrnJob) : Bool := t.buckets.all (fun b => !b.2.running)

/-- Present a phase when its holds are met (R495). The first FWD of a step waits for the previous step to have closed,
where a checkpoint or a Kitty window hangs on that; the step closes then when every core has arrived at the phase
barrier (DEDUCED, log entry 42). -/
def State.phaseArrive (s : State) (j : Fin 8) : State :=
  let t := s.trnJob j
  let ph := if s.trnCommand j then t.next else some (nextPhase (s.trnM j) t.cur)
  match ph with
  | none => s
  | some ph =>
    let first := ph.1 == .fwd && (if s.trnCommand j then !t.stepBegun else ph.2 == 0)
    let inOpt := match t.cur with | some (.opt, _) => !s.trnCommand j | _ => false
    if ph.1 = .opt then (if t.settled then s.presentPhase j ph else s)
    else if !first then s.presentPhase j ph
    else
      let close := inOpt && (s.trnKit j || s.ckptDue j ((s.trnStep j).toNat + 1))
      let s := if close ∧ s.phaseDone j then s.closePhase j else s
      let t := s.trnJob j
      if (close ∧ t.cur.isSome) ∨ t.ckpt then s
      else if !s.trnKit j then
        (s.modTrn j (fun t => { t with kitBegin := 0, kitEnd := 0, kitRecs := 0 })).presentPhase j ph
      else match s.kitWindow j with
        | (none, s) => s
        | (some (b, e, k), s) =>
          let s := (s.inc pTRN 0xF38 k).inc pTRN 0xF40 (e - b)
          (s.modTrn j (fun t => { t with kitBegin := b, kitEnd := e, kitRecs := k, kitTaken := true })).presentPhase j ph

/-- TRN_PHASE_ARRIVE (R490, R495). -/
def execTrnPhaseArrive (j : Fin 8) (s : State) : Host.Outcome State Fault Refusal :=
  ok (
    let t := s.trnJob j
    let x := s.trnCtx j
    if bit (s.trnCfg j) 31 ∧ (s.ctx x).begun ∧ (s.ctx x).state ≠ .ending ∧ !t.haltAsk ∧ !t.halted ∧ !t.arrived then s.phaseArrive j
    else s)

/-- The phase barrier of a job has completed (R490). -/
def State.phaseTurn (s : State) (j : Fin 8) : State :=
  let t := s.trnJob j
  let s := if t.cur.isSome then s.closePhase j else s
  (s.modTrn j (fun t => { t with cur := t.next, next := none, arrived := false })).trnSettle j

/-! ### Command mode (R493, R494) -/

/-- The command entry at TAIL. -/
def State.trnEntry (s : State) (j : Nat) : List Byte × State :=
  let (bs, _, s) := s.recRead (fld (s.trnReg j 0x30) 0 15) false .default s.sysPart false
    (16 * fld (s.reg pTRN (trnOp j 0x1C)) 0 16) 16
  (bs, s)

/-- Why an entry halts the job. -/
def State.entryBad (s : State) (j : Nat) (e : List Byte) : Option (BitVec 16) :=
  let op := lef e 0 1
  if op = 0 ∨ 5 < op ∨ lef e 1 1 ≠ 0 ∨ lef e 5 8 ≠ 0 ∨ lef e 13 3 ≠ 0 then some stDESC_INVALID
  else if (op ≤ 2 ∧ s.trnM j ≤ lef e 2 2) ∨ (op = 4 ∧ (s.trnJob j).entries.length ≤ lef e 4 1) then some stBOUND
  else none

/-- TAIL passes the entry. -/
def State.trnPass (s : State) (j : Nat) : State :=
  let n := max 1 (fld (s.trnReg j 0x30) 16 16)
  s.setReg pTRN (trnOp j 0x1C) (BitVec.ofNat 32 ((fld (s.reg pTRN (trnOp j 0x1C)) 0 16 + 1) % n))

/-- The effect of a valid command entry. -/
def State.trnEffect (s : State) (j : Fin 8) (e : List Byte) : State :=
  let op := lef e 0 1
  let mb := lef e 2 2
  if op ≤ 3 then
    if (s.trnJob j).next.isSome then s
    else
      let kind : PhaseKind := if op = 1 then .fwd else if op = 2 then .bwd else .opt
      (s.modTrn j (fun t => { t with next := some (kind, mb) })).trnPass j
  else if op = 4 then (s.modBucket j (lef e 4 1) (fun k => { k with armed := true })).trnPass j
  else (s.closeTrnStep j).trnPass j

/-- TRN meets the entry at TAIL when it is `op`, or when it halts the job (R493, R494). -/
def State.trnTake (s : State) (j : Fin 8) (op : Nat) : State :=
  let t := s.trnJob j
  if !bit (s.trnCfg j) 31 ∨ !s.trnCommand j ∨ t.haltAsk ∨ t.halted
      ∨ fld (s.reg pTRN (trnOp j 0x18)) 0 16 = fld (s.reg pTRN (trnOp j 0x1C)) 0 16 then s
  else
    let (e, s) := s.trnEntry j
    match s.entryBad j e with
    | some st => s.haltJob j st
    | none => if lef e 0 1 = op then s.trnEffect j e else s

/-- FWD (R493). -/
def execFwd (j : Fin 8) (s : State) : Host.Outcome State Fault Refusal := ok (s.trnTake j 1)

/-- BWD (R493). -/
def execBwd (j : Fin 8) (s : State) : Host.Outcome State Fault Refusal := ok (s.trnTake j 2)

/-- OPT (R493). -/
def execOpt (j : Fin 8) (s : State) : Host.Outcome State Fault Refusal := ok (s.trnTake j 3)

/-- POST (R493, R497). -/
def execPost (j : Fin 8) (s : State) : Host.Outcome State Fault Refusal := ok (s.trnTake j 4)

/-- STEP_END (R493). -/
def execStepEnd (j : Fin 8) (s : State) : Host.Outcome State Fault Refusal := ok (s.trnTake j 5)

/-- TRN_CQ_HEAD (R493). -/
def execTrnCqHead (r : Requester) (j : Fin 8) (v : Word32) (s : State) : Host.Outcome State Fault Refusal :=
  ok (s.write r pTRN (trnOp j 0x18) (fun s => s.store pTRN (trnOp j 0x18) v))

/-! ### Buckets (R496 to R505) -/

/-- Post a bucket: its template with the job's next CSEQ; CARRY is cleared (R498, R505) (DEDUCED, log entry 129). -/
def State.postBucket (s : State) (j : Fin 8) (b : Fin 62) : State :=
  let e := (s.trnJob j).entry b
  let cseq := s.reg pTRN (trnOp j 0x20)
  let d := overlay (e.take 64) 8 (leBytes 4 cseq.toNat)
  let s := (s.setReg pTRN (trnOp j 0x20) (cseq + 1)).inc pTRN 0xF10
  let s := s.modBucket j b (fun k => { k with running := true, armed := false, was := k.carry, carry := none })
  let s := if s.domOn dCLX then s else s.wakeDom dCLX
  s.postColl d (bucketMode e) (bucketDeadline e) (.job j b)

/-- A barrier of the context has completed: buckets of the job with that barrier count it, and post (R497). -/
def State.bucketTurn (s : State) (j : Fin 8) (bar : Nat) : State :=
  (List.finRange 62).foldl (fun (s : State) (b : Fin 62) =>
    let t := s.trnJob j
    if b.val < t.entries.length ∧ bucketBar (t.entry b) = bar then
      let n := (t.bucket b).bars + 1
      let s := s.modBucket j b (fun k => { k with bars := n })
      if (if s.trnCommand j then (t.bucket b).armed else n == s.trnM j) then s.postBucket j b else s
    else s) s

/-- A late contribution is carried or dropped (R504). -/
def State.bucketLate (s : State) (j b : Nat) (e : List Byte) : State :=
  let n := s.bucketBytes e
  let s := s.inc pTRN 0xF30 n
  if bucketMode e = 1 then
    let x := dCtx e
    let (ps, s) := s.clxRead x (lef e 0x10 2) (d48 e 0x18) n
    let s := s.clxWrite (s.trnCtx j) (lef e 0x48 2) (lef e 0x50 8) ps
    (s.inc pTRN 0xF20).modBucket j b (fun k => { k with carry := some (k.was.getD (s.trnStep j)), late := true })
  else (s.inc pTRN 0xF28).modBucket j b (fun k => { k with late := true })

/-- BUCKET_COMPLETE (R500, R504): the completion is handled, and an arrival held for it may stand. -/
def execBucketComplete (j : Fin 8) (b : Fin 62) (s : State) : Host.Outcome State Fault Refusal :=
  ok (
    let t := s.trnJob j
    match (t.bucket b).report with
    | none => s
    | some (st, present) =>
      let e := t.entry b
      let s := if st = stLATE then s.bucketLate j b e else s
      let s := s.modBucket j b (fun k => { k with running := false, report := none, status := st, present := present })
      let s := s.podCheck (s.trnCtx j) (bucketBar e)
      if st = stOK ∨ st = stLATE then s else s.haltJob j st)

/-! ### Commands (R509) -/

/-- A command completes. -/
def State.trnDone (s : State) (st : BitVec 16) : State := s.setReg pTRN 0xA04 (BitVec.ofNat 32 (st.toNat + 2 ^ 31))

/-- The job that a command names. -/
def trnJobOf (v : Word32) : Fin 8 := ⟨fld v 8 3, Nat.mod_lt _ (by decide)⟩

/-- A command on a job that is not VALID: the spec gives no status (DESIGN CHOICE, log entry 27). -/
def State.trnGo (s : State) (v : Word32) (f : State → Fin 8 → State) : State :=
  if !bit v 31 ∨ !s.pgEn pTRN then s
  else if !bit (s.trnCfg (trnJobOf v)) 31 then
    let (st, s) := s.openStatus
    s.trnDone st
  else f s (trnJobOf v)

/-- HALT (R509). -/
def State.trnHaltCmd (s : State) (j : Fin 8) : State :=
  ((s.modTrn j (fun t => { t with haltAsk := true })).trnSettle j).trnDone stOK

/-- TRN_HALT (R509). -/
def execTrnHalt (r : Requester) (v : Word32) (s : State) : Host.Outcome State Fault Refusal :=
  ok (s.write r pTRN 0xA00 (fun s => s.trnGo v (fun s j => s.trnHaltCmd j)))

/-- Copy a checkpoint's data back into the listed tensors. -/
def State.ckptBack (s : State) (x rn : Nat) : List (Nat × Nat) → Nat → State
  | [], _ => s
  | (t, n) :: l, off =>
    let (ps, s) := s.clxRd rn s.sysPart false (n / 64 + 2) off n
    (s.clxWrite x t 0 ps).ckptBack x rn l (off + n)

/-- RESTORE (R509). -/
def State.trnRestore (s : State) (j : Fin 8) : State :=
  if !(s.trnJob j).halted then s.trnDone stNOT_HALTED
  else
    let rn := s.ckptRec j
    let l := s.ckptList j
    let n := ckptBytes l
    let holds := match s.trec rn with | some r => decide (0x80 + n ≤ r.size) | none => false
    if !holds then s.trnDone stCKPT_INVALID
    else
      let (h, _, s) := s.recRead rn false .stream s.sysPart false 0 128
      if lef h 0 4 ≠ 0x54504B43 ∨ lef h 5 1 ≠ l.length ∨ lef h 0x10 8 ≠ n then s.trnDone stCKPT_INVALID
      else
        let (data, _, s) := s.recRead rn false .stream s.sysPart false 0x80 n
        let s := s.hashed (64 + n)
        if sha256 (h.take 64 ++ data) ≠ slice h 0x40 32 then s.trnDone stCKPT_DIGEST
        else
          let s := s.ckptBack (s.trnCtx j) rn l 0x80
          let s := (s.setReg64 pTRN (trnOp j 8) (BitVec.ofNat 64 (lef h 8 8))).setReg64 pTRN (trnOp j 0x10) 0
          let s := (s.setReg pTRN (trnOp j 0x20) (s.trnReg j 0x18)).inc pTRN 0xF58
          let s : State := (s.trnJob j).entries.foldl (fun s e => s.groupForget (dGrp e)) s
          (s.modTrn j (fun t => { t with
            cur := none, next := none, arrived := false, stepBegun := false, kitTaken := false
            buckets := t.buckets.filterMap (fun b =>
              let k : Bucket := { running := b.2.running, report := b.2.report }
              if k = {} then none else some (b.1, k)) })).trnDone stOK

/-- RESTORE (R509). -/
def execRestore (r : Requester) (v : Word32) (s : State) : Host.Outcome State Fault Refusal :=
  ok (s.write r pTRN 0xA00 (fun s => s.trnGo v (fun s j => s.trnRestore j)))

/-- RESUME (R509): the step begins again at FWD 0, so the completions of a bucket's barrier in the step count anew. -/
def State.trnResume (s : State) (j : Fin 8) : State :=
  if !(s.trnJob j).halted then s.trnDone stNOT_HALTED
  else (s.modTrn j (fun t => { t with
    halted := false, haltAsk := false, cur := none, next := none, arrived := false, stepBegun := false
    buckets := (List.range 62).foldl (fun m b => smod {} m b (fun k => { k with
      bars := 0, status := 0, present := 0, late := false })) t.buckets })).trnDone stOK

/-- RESUME (R509). -/
def execResume (r : Requester) (v : Word32) (s : State) : Host.Outcome State Fault Refusal :=
  ok (s.write r pTRN 0xA00 (fun s => s.trnGo v (fun s j => s.trnResume j)))

/-- A write of TRN_CMD. -/
def State.trnCmd (s : State) (v : Word32) : State :=
  s.trnGo v (fun s j =>
    let op := fld v 0 8
    if op = 1 then s.trnHaltCmd j else if op = 2 then s.trnRestore j else if op = 3 then s.trnResume j
    else
      let (st, s) := s.openStatus
      s.trnDone st)

/-- The program of a context ends: its jobs are VALID no longer (When things collide). -/
def State.trnCtxEnd (s : State) (x : CtxId) : State :=
  (List.finRange 8).foldl (fun (s : State) (j : Fin 8) =>
    if s.trnOn j x then (s.setReg pTRN (0x100 + 0x40 * j.val) (s.trnCfg j &&& 0x7FFFFFFF)).modTrn j (fun _ => {}) else s) s

end Sys2Proof.Machine
end

