-- ==== Sys2Proof/Machine/Phases.lean ====
section
/-! DEFINITION. Arrivals and completions of barriers, with what the engines tie to them (08_streams.md R243 to R246;
15_episodes.md R434; 16_stochastic.md R472; 17_learning.md R490, R497), and the messages of pod barriers. -/

namespace Sys2Proof.Machine

/-- BAR_ARRIVAL (R244). -/
def execBarArrival (c : CoreId) (s : State) : Host.Outcome State Fault Refusal :=
  ok (
    let k := s.core c
    match k.ctx, k.th.wait with
    | some x, some (.bar sd b false none) =>
      if k.closed x then
        let w : Wait := .bar sd b true none
        let s := (s.modCore c (fun k => { k with th := { k.th with wait := some w } })).coreArrive x b c
        (List.finRange 8).foldl (fun (s : State) (j : Fin 8) => if s.trnOn j x then s.trnSettle j else s) s
      else s
    | _, _ => s)

/-- GPIO3 carries POD_SYNC for a group (21_host_management.md R623). -/
def State.podSyncOn (s : State) (gid : Nat) : Bool :=
  let c := s.reg pMGT 0x81C
  fld c 0 8 != 0 && fld c 8 3 == 6 && fld (s.reg pMGT 0x154) 0 16 == gid

/-- What the engines tie to a completed barrier. -/
def State.barHooks (s : State) (x : CtxId) (b : Nat) : State :=
  let s := if s.isStepBar x b then s.stepTurn x else s
  let s := (List.finRange 8).foldl (fun (s : State) (j : Fin 8) =>
    if !s.trnOn j x then s
    else
      let s := if s.trnBar j = b then s.phaseTurn j else s
      s.bucketTurn j b) s
  let s := (List.finRange 32).foldl (fun (s : State) (c : Fin 32) =>
    if s.anlOn c x ∧ bit (s.anlBar c) 6 ∧ fld (s.anlBar c) 0 6 = b then s.modAnl c (fun a => { a with trig := a.trig + 1 })
    else s) s
  s.anlOwed x b

/-- A whole barrier completes with OK: every waiting core learns it, and a new instance begins (R245, R246). -/
def State.barDone (s : State) (x : CtxId) (b : Nat) : State :=
  let k := s.bar x b
  if k.ended.isSome ∨ k.aborted ∨ !(if k.chips = 0 then s.barWhole x b else k.released) then s
  else
    let s : State := k.arrived.foldl (fun s c => s.barTell x b stOK c) s
    let s := s.modBar x b Barrier.fresh
    let s := if k.chips ≠ 0 ∧ s.podSyncOn k.group.toNat then s.emitOut .podSync else s
    s.barHooks x b

/-- A core whose BAR has its status writes it and goes on (R174, R243). -/
def State.barWake (s : State) (c : CoreId) (x : CtxId) (b waited : Nat) : State :=
  match (s.core c).th.wait with
  | some (.bar sd q true (some st)) =>
    if q.val = b ∧ (s.core c).ctx = some x ∧ s.waitLive c then
      ((s.endWait c waited [(1, .sreg sd (st.setWidth 64) false)]).inc (pCORE c) 0xFD0 waited).inc (pCORE c) 0xFD8
    else s
  | _ => s

/-- BAR_COMPLETE (R245): `waits` are the cores that see it, with the cycles each waited. -/
def execBarComplete (x : CtxId) (b : Fin 64) (waits : List (CoreId × Nat)) (s : State) : Host.Outcome State Fault Refusal :=
  ok (
    let s := s.barDone x b
    waits.foldl (fun (s : State) w => s.barWake w.1 x b w.2) s)

/-- BAR_ARRIVE (R246): a chip's arrival reaches the root. -/
def execBarArrive (m : Message) (s : State) : Host.Outcome State Fault Refusal :=
  ok (s.windowedE m (fun s => .accept stOK (s.podArrive (hdr m 0x24 2) (hdr m 0x28 4 % 64) m.src)))

/-- BAR_RELEASE (R246). -/
def execBarRelease (m : Message) (s : State) : Host.Outcome State Fault Refusal :=
  ok (s.windowedE m (fun s => .accept stOK (s.podReleased (hdr m 0x24 2) (hdr m 0x28 4 % 64))))

end Sys2Proof.Machine
end

