-- ==== Sys2Proof/Machine/Sharing.lean ====
section
/-! DEFINITION. Contexts (18_sharing.md R517 to R532, R538 to R541): binding, loading and ending a program, dispatch,
pre-emption, accounts. Locks stand in Locks.lean. -/

namespace Sys2Proof.Machine

/-! ### Binding (R517, R518) -/

/-- Is a program of the context loaded? -/
def Ctx.loaded (g : Ctx) : Bool := g.state != .free && g.state != .idle

/-- A write of CTX_CFG (R517): another VALID context on the queue keeps VALID at 0, or refuses the write of a context
that is VALID already. VALID cleared under a program takes effect at its end (DEDUCED, log entry 45). -/
def State.ctxCfg (s : State) (x : CtxId) (v : Word32) : State :=
  let taken := (List.range 64).any (fun y => y != x.val && s.ctxValid y && fld (s.reg (pCTX y) 0x100) 8 6 == fld v 8 6)
  if bit v 6 ∧ taken then
    let s := s.setReg (pCTX x) 0x810 (stQUEUE_IN_USE.setWidth 32)
    if s.ctxValid x then s else s.store (pCTX x) 0x100 (setBit v 6 false)
  else
    let s := if bit v 6 then s.setReg (pCTX x) 0x810 0 else s
    let s := s.store (pCTX x) 0x100 v
    s.modCtx x (fun g =>
      if g.loaded then g else { g with state := if bit v 6 then .idle else .free })

/-- CTX_VALID_SET (R517). -/
def execCtxValidSet (r : Requester) (x : CtxId) (v : Word32) (s : State) : Host.Outcome State Fault Refusal :=
  ok (s.write r (pCTX x) 0x100 (fun s => s.ctxCfg x v))

/-! ### Images (R220, R520) -/

/-- An image as its tables name it. -/
structure Image where
  tenant : Nat
  mem : Nat
  /-- Placement entries with their code; the program store is not given yet. -/
  place : List (Place × List Byte)
  segs : List Seg
  /-- Carried descriptors: core, scratch address, bytes. -/
  descs : List (CoreId × Nat × List Byte)
  bars : List (Nat × Barrier)
  digest : List Byte

/-- The entries of a table of an image; none when it passes the end of the signed bytes. -/
def tableAt (body : List Byte) (off n size : Nat) : Option (List (List Byte)) :=
  if off + n * size ≤ body.length then some ((List.range n).map (fun i => slice body (off + size * i) size)) else none

/-- A core number. -/
def coreAt (n : Nat) : Option CoreId := if h : n < 192 then some ⟨n, h⟩ else none

/-- A placement entry with its code. -/
def placeOf (body e : List Byte) : Option (Place × List Byte) :=
  let off := lef e 4 4
  let n := lef e 8 4
  match coreAt (lef e 0 1) with
  | none => none
  | some c =>
    if body.length < off + n then none
    else some ({ core := c, arrays := BitVec.ofNat 4 (lef e 1 1), gang := bit (e.getD 1 0) 4, codeBase := 0
                 codeBytes := n, allot := 0, entry := lef e 12 4 }, slice body off n)

/-- The tables of a signed image; none when they are malformed (DEDUCED, log entry 46). -/
def parseImage (body : List Byte) : Option Image := do
  let pl ← tableAt body (lef body 0x10 4) (lef body 8 2) 16
  let sg ← tableAt body (lef body 0x14 4) (lef body 0x0A 2) 16
  let ds ← tableAt body (lef body 0x18 4) (lef body 0x0C 2) 80
  let br ← tableAt body (lef body 0x1C 4) (lef body 0x0E 2) 32
  let place ← pl.mapM (placeOf body)
  let cores := place.map (fun p => p.1.core)
  let segs ← sg.mapM (fun e => (coreAt (lef e 0 1)).map (fun c =>
    ({ core := c, base := lef e 4 4 % 2 ^ 22, bytes := lef e 8 4 } : Seg)))
  let descs ← ds.mapM (fun e => (coreAt (lef e 0 1)).map (fun c => (c, lef e 4 4, slice e 16 64)))
  if cores.eraseDups.length ≠ cores.length ∨ segs.any (fun g => !cores.contains g.core)
      ∨ descs.any (fun d => !cores.contains d.1) then none
  else
    let bars := br.map (fun e => (lef e 0 1, ({
      cores := (List.finRange 192).filter (fun (c : CoreId) => bit (e.getD (8 + c.val / 8) 0) (c.val % 8))
      group := BitVec.ofNat 16 (lef e 2 2), chips := lef e 4 2 } : Barrier)))
    some { tenant := lef body 7 1, mem := lef body 0x20 1, place := place, segs := segs, descs := descs, bars := bars
           digest := sha256 body }

/-- The arrays that a placement entry names. -/
def Place.named (p : Place) : List Nat := ((List.range 4).filter (fun q => p.arrays.getLsbD q)).map (fun q => 4 * p.core.val + q)

/-- The program-store range that CTX_PSTORE names, cut at the end of the store: base and bytes (R521). -/
def State.pstoreRange (s : State) (x : CtxId) : Nat × Nat :=
  let v := s.reg (pCTX x) 0x108
  let base := 4096 * fld v 0 7
  (base, min (4096 * fld v 8 7) (0x40000 - base))

/-- Loaded contexts other than one. -/
def State.othersLoaded (s : State) (x : CtxId) : List Ctx :=
  s.ctxs.filterMap (fun e => if e.1 != x.val && e.2.loaded then some e.2 else none)

/-- The allotment of a context on a core (R521): none of the range where it overlaps another loaded context's. -/
def State.allotOn (s : State) (x : CtxId) (c : CoreId) : Nat × Nat :=
  let (base, n) := s.pstoreRange x
  let meets := (s.othersLoaded x).any (fun g => g.place.any (fun p =>
    p.core == c && decide (base < p.codeBase + p.allot) && decide (p.codeBase < base + n)))
  (base, if meets then 0 else n)

/-- Checks 2 to 10 of R220. -/
def State.imageFails (s : State) (x : CtxId) (im : Image) : Option (BitVec 16) :=
  let named := im.place.flatMap (fun p => p.1.named)
  if im.tenant ≠ fld (s.reg (pCTX x) 0x100) 0 6 then some stCONTEXT_MISMATCH
  else if named.any s.fusedOff then some stARRAY_DISABLED
  else if named.any s.isFenced then some stARRAY_FENCED
  else if named.any (fun a => s.retryArr (a / 48) == some a) then some stARRAY_RESERVED
  else if im.place.any (fun p => p.1.gang && !s.gangOk p.1.core) then some stGANG_DENIED
  else if im.place.any (fun p => decide ((s.allotOn x p.1.core).2 < p.1.codeBytes)) then some stPSTORE_BOUND
  else if im.segs.any (fun g => decide (scratchEnd < g.base + g.bytes)) then some stSCRATCH_BOUND
  else if im.segs.any (fun g => (s.othersLoaded x).any (fun o => o.segs.any (fun h =>
      h.core == g.core && decide (g.base < h.base + h.bytes) && decide (h.base < g.base + g.bytes)))) then
    some stSCRATCH_OVERLAP
  else
    let t := s.modCtx x (fun g => { g with segs := im.segs })
    if im.descs.any (fun d => d.2.1 % 64 != 0 || !(t.ctx x).holds d.1 d.2.1 64
        || (t.setupFails x d.1 (parseDesc d.2.2)).isSome) then some stBOUND
    else none

/-! ### Bindings (R554) -/

/-- The used entries of a context's binding table: parsed, with what its reserved bytes and ROLE break. -/
def bindEntries (bs : List Byte) : List (Binding × Bool) :=
  ((List.range 32).map (fun i => slice bs (32 * i) 32)).filterMap (fun e =>
    if lef e 2 1 = 0 then none
    else some ({ out := lef e 2 1 == 2, tensor := BitVec.ofNat 16 (lef e 0 2), offset := lef e 8 8, length := lef e 16 8 },
      decide (lef e 2 1 ≤ 2) && zeroAt e 3 5 && zeroAt e 24 8 && lef e 16 8 != 0))

/-- The first entry that fails (R554). -/
def State.bindFails (s : State) (x : CtxId) (es : List (Binding × Bool)) : Option (BitVec 16) :=
  es.findSome? (fun e =>
    if !e.2 then some stDESC_INVALID
    else match s.tensor x e.1.tensor.toNat with
      | none => some stBOUND
      | some (_, r, _) => if r.size < e.1.offset + e.1.length then some stBOUND else none)

/-! ### Beginning a program (R154, R467, R518, R520, R521) -/

/-- Zero scratch from an address on; the marks of whole lines are cleared. -/
def Core.zeroScratch (k : Core) (a n : Nat) : Core :=
  let k := k.captureAll k.th.cyc
  { k with scratch := k.scratch.filter (fun e => !(decide (a ≤ e.1) && decide (e.1 < a + n)))
           marks := k.marks.filter (fun e => !(decide (a ≤ 64 * e.1) && decide (64 * e.1 + 64 ≤ a + n))) }

/-- Zero the program store from an address on. -/
def Core.zeroStore (k : Core) (a n : Nat) : Core :=
  { k with pstore := k.pstore.filter (fun e => !(decide (a ≤ e.1) && decide (e.1 < a + n))) }

/-- The wake set of a placement (R71): arrays, cores, their clusters, and the memories that MEM_MASK names. -/
def Image.wakeSet (im : Image) : BitVec 1012 :=
  let arrays := im.place.flatMap (fun p =>
    if p.1.gang then (List.range 4).map (fun q => 4 * p.1.core.val + q) else p.1.named)
  let cores := im.place.map (fun p => p.1.core.val)
  let mems := (List.range 8).filter (fun k => im.mem.testBit k)
  (arrays ++ cores.map dCore ++ cores.map (fun c => dClu (c / 12)) ++ mems.map dMem ++ mems.map dPhy).foldl
    (fun m d => m ||| (1#1012 <<< d)) 0

/-- CTX_MASK_SEED, or the seed latched at program begin. -/
def State.ctxSeed (s : State) (x : CtxId) (o : Nat) : BitVec 128 :=
  BitVec.ofNat 128 (leNat ((List.range 4).flatMap (fun i => leBytes 4 (s.reg (pCTX x) (o + 4 * i)).toNat)))

/-- Place an image and begin its program: configuration and seed are latched, scratch segments zeroed and filled, the
code placed, the sentinels set as CORE_DBG_CFG has them (R219), the wake set written; the job begins (R542), its inputs
hashed first (R554) (DEDUCED, log entry 105). -/
def State.beginProgram (s : State) (x : CtxId) (q : Fin 64) (cid : Word64) (im : Image) (binds : List Binding) : State :=
  let place := im.place.map (fun p => ({ p.1 with codeBase := (s.allotOn x p.1.core).1, allot := (s.allotOn x p.1.core).2 }, p.2))
  let seed := s.ctxSeed x 0x880
  let s : State := (List.range 4).foldl (fun (s : State) i =>
    s.setReg (pCTX x) (0x8A0 + 4 * i) (s.reg (pCTX x) (0x880 + 4 * i))) s
  let saves : SMap Thread := place.foldl (fun m p =>
    sset {} m p.1.core.val { pc := BitVec.ofNat 64 (p.1.codeBase + p.1.entry), sentinel := bit (s.reg (pCORE p.1.core) 0x100) 0 }) []
  let s := s.modCtx x (fun g => { g with
    state := .ready, endWith := none, cfg := s.reg (pCTX x) 0x100, chan := s.reg (pCTX x) 0x104
    quantum := s.reg (pCTX x) 0x10C, lease := s.reg (pCTX x) 0x110, slow := s.reg (pCTX x) 0x114
    place := place.map (fun p => p.1), segs := im.segs, bars := im.bars.foldl (fun m b => sset {} m b.1 b.2) []
    readyAt := s.pw.aonTime, preemptFor := none, loadCmd := some (q, cid), saves := saves, begun := true, seed := seed
    streams := [], wN := place.length })
  let s : State := im.segs.foldl (fun (s : State) g => s.modCore g.core (fun k => k.zeroScratch g.base g.bytes)) s
  let s : State := im.descs.foldl (fun (s : State) d =>
    s.modCore d.1 (fun k => k.wrScratch k.th.cyc d.2.1 (d.2.2.map some) false)) s
  let s : State := place.foldl (fun (s : State) p => s.modCore p.1.core (fun k =>
    { k with pstore := ssets 0 k.pstore p.1.codeBase p.2 })) s
  let s := { s with pw := { s.pw with wsets := sset 0 s.pw.wsets x im.wakeSet } }
  let (ind, s) := s.roleDigest x binds false
  let s := s.modJob x (fun _ => { live := true, jobId := cid, image := im.digest, inDigest := ind, binds := binds })
  (s.newInterval x).wakeSet x

/-- The device key is compared once after reset (R556). -/
def State.devkeyOk (s : State) : Bool × State :=
  match s.chk.devkey with
  | some b => (b, s)
  | none =>
    let pub := (List.range 8).flatMap (fun i => leBytes 4 (s.fuse (36 + i)).toNat)
    let b := edPublic s.deviceSeed == pub
    (b, { s with chk := { s.chk with devkey := some b } })

/-- LOAD of an image by an idle context: the status that refuses it, or the program has begun (R220, R520, R554, R556,
R560) (DEDUCED, log entry 120). -/
def State.loadImage (s : State) (x : CtxId) (q : Fin 64) (cid : Word64) (addr : Nat) : Option (BitVec 16) × State :=
  let (good, s) := s.devkeyOk
  if !good then (some stDEVKEY_BAD, s)
  else if s.genHalted then (some stJOURNAL_FULL, s)
  else
    let (hd, _, s) := s.devRead s.sysPart addr 64
    let n := lef hd 0x24 4
    if lef hd 0 4 ≠ 0x4A494D47 ∨ lef hd 4 2 ≠ 1 ∨ n < 128 ∨ memBytes < addr + n then (some stIMAGE_SIG, s)
    else
      let (bs, _, s) := s.devRead s.sysPart addr n
      let body := bs.take (n - 64)
      let key := lef hd 6 1
      let s := (s.hashed body.length).inc pSIG 0xF08
      if !s.keyUsable key ∨ !edVerify (s.pubKey key) body (bs.drop (n - 64)) then (some stIMAGE_SIG, s.inc pSIG 0xF10)
      else match parseImage body with
        | none => (some stDESC_INVALID, s)
        | some im => match s.imageFails x im with
          | some st => (some st, s)
          | none =>
            let (tb, _, s) := s.devRead s.sysPart ((s.reg64 pCHK 0x108).toNat % 2 ^ 40 / 65536 * 65536 + 0x400 * x.val) 1024
            let es := bindEntries tb
            match s.bindFails x es with
            | some st => (some st, s)
            | none => (none, s.beginProgram x q cid im (es.map (fun e => e.1)))

/-- LOAD (R520). -/
def execLoad (q : Fin 64) (s : State) : Host.Outcome State Fault Refusal :=
  ok (match s.mayBegin q 1 with
    | none => s
    | some e =>
      let s := s.beginEntry q e
      match s.queCtx q with
      | none => s.completeRunning q e.cid stCTX_INVALID []
      | some x =>
        if (s.ctx x).state = .free then s.completeRunning q e.cid stCTX_INVALID []
        else if (s.ctx x).state ≠ .idle then s.completeRunning q e.cid stCTX_BUSY []
        else match s.loadImage x q e.cid (e.image.toNat % 2 ^ 40) with
          | (some st, s) => s.completeRunning q e.cid st []
          | (none, s) => s)

/-! ### Ending a program (R177, R185, R523) -/

/-- A write of CTX_CMD with KILL (R523). -/
def State.ctxKill (s : State) (x : CtxId) : State :=
  if (s.ctx x).loaded then s.stopContext x stKILLED else s

/-- KILL (R523). -/
def execKill (r : Requester) (x : CtxId) (s : State) : Host.Outcome State Fault Refusal :=
  ok (s.write r (pCTX x) 0x804 (fun s => s.ctxKill x))

/-- Has a core ended its part (R177)? -/
def State.coreEnded (s : State) (x : CtxId) (c : CoreId) : Bool :=
  let k := s.core c
  let t := if k.ctx = some x then k.th else sget {} (s.ctx x).saves c
  t.halted && k.chans.all (fun h => h.2.ctx != some x || h.2.queue.isEmpty)

/-- The status with which a program ends now; none while it runs on. -/
def State.endDue (s : State) (x : CtxId) : Option (BitVec 16) :=
  let g := s.ctx x
  if !g.loaded then none
  else match g.endWith with
    | some st => some st
    | none => if g.place.all (fun p => s.coreEnded x p.core) then some stOK else none

/-- Orders 1 to 4 of R523. -/
def State.endEffects (s : State) (x : CtxId) (st : BitVec 16) : State :=
  let s := s.modCtx x (fun g => { g with state := .ending })
  let s : State := (s.ctx x).place.foldl (fun (s : State) p => s.abortChans p.core x) s
  let s := s.breakLocksOf x
  let mine (h : Held) : Bool := match h.sender with | .core _ y => y == x | _ => false
  let s : State := (s.fab.held.filter mine).foldl (fun (s : State) h =>
    if h.cancelled then s else s.cancelSend h.msg.dest h.msg.mseq false) s
  let s := { s with fab := { s.fab with held := s.fab.held.filter (fun h => !mine h) } }
  let s := s.barsEnd x
  let s := s.collAbortAll (fun c => dCtx c.desc == x)
  ((s.epsCtxEnd x st).anlCtxEnd x).trnCtxEnd x

/-- Order 5 of R523 on one core. -/
def State.zeroCore (s : State) (x : CtxId) (p : Place) : State :=
  let segs := (s.ctx x).segs.filter (fun g => g.core == p.core)
  s.modCore p.core (fun k =>
    let k : Core := segs.foldl (fun (k : Core) g => k.zeroScratch g.base g.bytes) (k.zeroStore p.codeBase p.allot)
    let k : Core := { k with passes := k.passes.filter (fun q => q.ctx != x), emitq := k.emitq.filter (fun e => e.ctx != x) }
    if k.ctx = some x then
      { k with ctx := none, th := {}, parked := false, emitWait := none, retrying := 0, ungangWait := false, banks := [] }
    else k)

/-- Retries of a context's passes are dropped (DEDUCED, log entry 119). -/
def State.dropRetries (s : State) (x : CtxId) : State :=
  { s with clus := s.clus.map (fun e => (e.1, { e.2 with
      retryQ := e.2.retryQ.filter (fun j => j.pass.ctx != x)
      serving := if e.2.serving.any (fun j => j.pass.ctx == x) then none else e.2.serving })) |>.filter (fun e => e.2 != {}) }

/-- A program ends (R523); the FINAL receipt is sealed between orders 4 and 5 (R543). -/
def State.endProgram (s : State) (x : CtxId) (st : BitVec 16) : State :=
  let s := (s.endEffects x st).sealFinal x st
  let head := s.reg64 pCHK 0x810 - 1
  let rseq := (s.job x).rseq - 1
  let g := s.ctx x
  let s : State := g.place.foldl (fun (s : State) p => s.zeroCore x p) (s.dropRetries x)
  let s := { s with pw := { s.pw with wsets := sset 0 s.pw.wsets x 0 } }
  let s := s.modCtx x (fun g => { g with
    state := if s.ctxValid x then .idle else .free, endStatus := st, endWith := none, place := [], segs := [], bars := []
    preemptFor := none, late := false, loadCmd := none, saves := [], begun := false })
  match g.loadCmd with
  | some (q, cid) => s.completeRunning q cid st (leBytes 8 head.toNat ++ leBytes 8 rseq.toNat)
  | none => s

/-- PROGRAM_END (R177, R185, R523). -/
def execProgramEnd (x : CtxId) (s : State) : Host.Outcome State Fault Refusal :=
  ok (match s.endDue x with
    | some st => s.endProgram x st
    | none => s)

/-! ### Dispatch (R524, R541) -/

/-- PRIORITY of a loaded context. -/
def Ctx.priority (g : Ctx) : Nat := fld g.cfg 16 3

/-- Do two contexts share a core? -/
def Ctx.shares (g h : Ctx) : Bool := g.place.any (fun p => h.place.any (fun q => q.core == p.core))

/-- In PARTITIONED mode a loaded context of another tenant stands on one of its cores (R541)
(DEDUCED, log entry 118). -/
def State.blockedTenant (s : State) (x : CtxId) : Bool :=
  let g := s.ctx x
  s.parted && (s.othersLoaded x).any (fun h => h.tenant != g.tenant && g.shares h)

/-- A READY context whose cores are all free. -/
def State.coresFree (s : State) (x : CtxId) : Bool :=
  let g := s.ctx x
  g.state == .ready && g.place.all (fun p => (s.core p.core).ctx.isNone) && !s.blockedTenant x

/-- Does context `y` come before `x` in the order of R524? -/
def State.before (s : State) (y x : CtxId) : Bool :=
  let h := s.ctx y
  let g := s.ctx x
  if h.priority ≠ g.priority then decide (g.priority < h.priority)
  else if h.readyAt ≠ g.readyAt then decide (h.readyAt.toNat < g.readyAt.toNat)
  else decide (y.val < x.val)

/-- Is every core and usable array of a context ON (R69)? -/
def State.coresOn (s : State) (x : CtxId) : Bool :=
  (s.ctx x).place.all (fun p => s.domOn (dCore p.core))
    && ((List.range 768).filter (fun a => (sget 0 s.pw.wsets x).getLsbD a)).all (fun a =>
      s.fusedOff a || s.isFenced a || s.domOn a)

/-- A core takes a thread of a context again: a lock is asked for anew, a cancelled send goes out again (R529, R530). -/
def State.resumeCore (s : State) (x : CtxId) (c : CoreId) : State :=
  let t : Thread := sget {} (s.ctx x).saves c
  let (t, s) : Thread × State := match t.wait with
    | some .yield => ({ t with wait := none }, s)
    | some (.lock sd n l false) =>
      ({ t with wait := some (.lock sd n l true) }, s.modLock n (fun k => { k with waiters := k.waiters ++ [(x, c, l)] }))
    | some (.fabSend sd d q none true) => ({ t with wait := some (.fabSend sd d q none false) }, s.reissue d q)
    | _ => (t, s)
  s.modCore c (fun k => { k with ctx := some x, th := t, parked := false, banks := [] })

/-- Dispatch a context on all of its cores. -/
def State.dispatchNow (s : State) (x : CtxId) : State :=
  let s : State := (s.ctx x).place.foldl (fun (s : State) p => s.resumeCore x p.core) s
  let s := s.modCtx x (fun g => { g with state := .running, saves := [], preemptFor := none, late := false })
  let s := (s.setReg (pCTX x) 0x808 (s.pw.aonTime.setWidth 32)).setReg (pCTX x) 0x80C ((s.pw.aonTime >>> 32).setWidth 32)
  s.inc pSCH 0xF00

/-- Dispatch a context if it is its turn; its domains are woken where they are not ON (DEDUCED, log entry 47). -/
def State.tryDispatch (s : State) (x : CtxId) : State :=
  if !s.coresFree x then s
  else if (List.finRange 64).any (fun (y : CtxId) => y != x && s.coresFree y && (s.ctx y).shares (s.ctx x) && s.before y x) then s
  else if s.coresOn x then s.dispatchNow x
  else s.wakeSet x

/-- DISPATCH (R524). -/
def execDispatch (x : CtxId) (s : State) : Host.Outcome State Fault Refusal := ok (s.tryDispatch x)

/-! ### Pre-emption (R525, R528 to R531) -/

/-- SCH asks for the pre-emption of V for C. -/
def State.askPreempt (s : State) (v c : CtxId) : State :=
  s.modCtx v (fun g => { g with state := .preempting, preemptFor := some c, preemptAt := s.pw.aonTime, late := false })

/-- May C ask for V's cores: V RUNNING, C READY on a core of V's? -/
def State.mayPreempt (s : State) (v c : CtxId) : Bool :=
  (s.ctx v).state == .running && (s.ctx c).state == .ready && (s.ctx v).shares (s.ctx c) && !s.blockedTenant c

/-- Can `us` microseconds have passed since an AON time, to the tick (DESIGN CHOICE, log entry 48)? -/
def State.usPassed (s : State) (since : BitVec 48) (us : Nat) : Bool :=
  decide (us * 32768 ≤ ((s.pw.aonTime - since).toNat + 1) * 1000000)

/-- CTX_DISPATCH_TIME. -/
def State.dispatchTime (s : State) (x : CtxId) : BitVec 48 := (s.reg64 (pCTX x) 0x808).setWidth 48

/-- QUANTUM_EXPIRY (R525). -/
def execQuantumExpiry (v c : CtxId) (s : State) : Host.Outcome State Fault Refusal :=
  ok (
    let q := fld (s.ctx v).quantum 0 16
    if s.mayPreempt v c ∧ (s.ctx c).priority = (s.ctx v).priority ∧ q ≠ 0 ∧ s.usPassed (s.dispatchTime v) q then
      s.askPreempt v c
    else s)

/-- PREEMPT_REQUEST (R525). -/
def execPreemptRequest (v c : CtxId) (s : State) : Host.Outcome State Fault Refusal :=
  ok (if s.mayPreempt v c ∧ (s.ctx v).priority < (s.ctx c).priority then s.askPreempt v c else s)

/-- Land every result in flight while the core waits. -/
def Core.landAll (k : Core) : Core :=
  k.landUpTo (k.th.lands.foldl (fun m l => max m l.cyc) k.th.cyc) k.th.lands.length

/-- A core parks. -/
def State.parkNow (s : State) (c : CoreId) : State := s.modCore c (fun k => { k.landAll with parked := true })

/-- A core of a context under pre-emption parks where it may (R528, R529). -/
def State.park (s : State) (x : CtxId) (c : CoreId) : State :=
  let k := s.core c
  if k.ctx ≠ some x ∨ k.parked ∨ !k.passes.isEmpty ∨ k.retrying ≠ 0 ∨ k.ungangWait ∨ k.emitWait.isSome then s
  else match k.th.wait with
    | none => s
    | some (.fabSend _ _ _ none _) => s
    | some .yield => (s.inc (pCORE c) 0xF30).parkNow c
    | some (.lock sd n l true) =>
      let s := s.modLock n (fun q => { q with waiters := q.waiters.filter (fun w => !(w.1 == x && w.2.1 == c)) })
      (s.modCore c (fun k => { k with th := { k.th with wait := some (.lock sd n l false) } })).parkNow c
    | _ => s.parkNow c

/-- CORE_PARK (R528, R529). -/
def execCorePark (c : CoreId) (s : State) : Host.Outcome State Fault Refusal :=
  ok (match (s.core c).ctx with
    | some x => if (s.ctx x).state = .preempting then s.park x c else s
    | none => s)

/-- A core still in FAB.SEND at the deadline has its send cancelled and parks (R530): whether it was one. -/
def State.cancelPark (s : State) (x : CtxId) (c : CoreId) : Bool × State :=
  let k := s.core c
  match k.ctx, k.th.wait with
  | some y, some (.fabSend sd d q none _) =>
    if y ≠ x ∨ k.parked then (false, s)
    else
      let s := (s.cancelSend d q true).inc (pCTX x) 0xF20
      let s := s.modCore c (fun k => { k with th := { k.th with wait := some (.fabSend sd d q none true) } })
      (true, s.parkNow c)
  | _, _ => (false, s)

/-- PREEMPT_DEADLINE (R530). -/
def execPreemptDeadline (x : CtxId) (s : State) : Host.Outcome State Fault Refusal :=
  ok (
    let g := s.ctx x
    if g.state ≠ .preempting ∨ g.late ∨ !s.usPassed g.preemptAt (fld (s.reg pSCH 0x104) 0 16) then s
    else
      let s := s.modCtx x (fun g => { g with late := true })
      let (any, s) := g.place.foldl (fun (a : Bool × State) p =>
        let (b, t) := a.2.cancelPark x p.core
        (a.1 || b, t)) (false, s)
      let s := if any then s.inc pSCH 0xF10 else s
      let issuing := g.place.any (fun p =>
        let k := s.core p.core
        k.ctx == some x && !k.parked && !k.th.halted && k.th.wait.isNone)
      if issuing then (s.inc pSCH 0xF18).raise pSCH 18 else s)

/-- Every core of a context is parked or has ended its part. -/
def State.allParked (s : State) (x : CtxId) : Bool :=
  (s.ctx x).place.all (fun p => (s.core p.core).parked || (s.core p.core).th.halted)

/-- CONTEXT_SWITCH (R531): `sclk` SCLK from the last core parking to the first issue. -/
def execContextSwitch (x : CtxId) (sclk : BitVec 31) (s : State) : Host.Outcome State Fault Refusal :=
  ok (
    let g := s.ctx x
    if g.state ≠ .preempting ∨ !s.allParked x then s
    else
      let saves : SMap Thread := g.place.foldl (fun m p => sset {} m p.core.val (s.core p.core).th) []
      let s : State := g.place.foldl (fun (s : State) p => s.modCore p.core (fun k =>
        { k with ctx := none, th := {}, parked := false, banks := [] })) s
      let s := s.modCtx x (fun g => { g with state := .ready, readyAt := s.pw.aonTime, saves := saves, preemptFor := none, late := false })
      let n := s.reg (pCTX x) 0xF10
      let s := (s.setReg (pCTX x) 0xF10 (satAdd n 1 0xFFFFFFFF)).inc pSCH 0xF08
      let old := s.reg pSCH 0xF38
      let top := max (fld old 0 31) sclk.toNat
      let s := s.setReg pSCH 0xF38 (BitVec.ofNat 32 (top + 2 ^ 31 * bnat (bit old 31 || top == 2 ^ 31 - 1)))
      match g.preemptFor with
      | some c => s.tryDispatch c
      | none => s)

/-! ### Accounts (R538, R539, R543) -/

/-- The slowdown of a context over the window, and its accounts (R539). -/
def State.account (s : State) (x : CtxId) : State :=
  let g := s.ctx x
  let w := if g.wN = 0 then 0 else g.wWait / (54932 * g.wN)
  let v := 1000 * (g.wQ + w) / max 1 g.wD
  let s := s.modCtx x (fun g => { g with wWait := 0, wQ := 0, wD := 0 })
  let s := s.inc (pCTX x) 0xF18 w
  let s := s.setReg (pCTX x) 0xF14 (BitVec.ofNat 32 (min 0xFFFF v + 2 ^ 16 * bnat (decide (0xFFFF ≤ v))))
  let lim := fld g.slow 0 16
  if lim ≠ 0 ∧ lim < min 0xFFFF v then s.raise pSCH 17 else s

/-- ACCT_WINDOW_END (R539, R543). -/
def execAcctWindowEnd (s : State) : Host.Outcome State Fault Refusal :=
  ok (
    if (s.pw.aonTime - s.chk.winAt).toNat < max 1 (fld (s.reg pSCH 0x108) 0 16) then s
    else
      let s : State := (List.finRange 64).foldl (fun (s : State) (x : CtxId) => s.account x) s
      let n := s.chk.windows + 1
      let s := { s with chk := { s.chk with windows := n, winAt := s.pw.aonTime } }
      let every := fld (s.reg pCHK 0x104) 0 16
      if every = 0 ∨ n % every ≠ 0 then s
      else (List.finRange 64).foldl (fun (s : State) (x : CtxId) =>
        let st := (s.ctx x).state
        if (s.job x).live ∧ (st = .ready ∨ st = .running ∨ st = .preempting) then s.sealDue x else s) s)

/-! ### Registers -/

/-- The code of a context's state (R519). -/
def CtxState.code : CtxState → Nat
  | .free => 0
  | .idle => 1
  | .ready => 2
  | .running => 3
  | .preempting => 4
  | .ending => 5

/-- CTX_STAT. -/
def State.ctxStat (s : State) (x : CtxId) : Word32 :=
  let g := s.ctx x
  BitVec.ofNat 32 (g.state.code + 8 * bnat (g.state == .ready && s.blockedTenant x) + 16 * bnat (g.state == .preempting)
    + 32 * bnat (s.reg (pCTX x) 0xF10 == 0xFFFFFFFF) + 2 ^ 8 * (g.place.length % 256) + 2 ^ 16 * g.endStatus.toNat)

/-- SCH_STAT. -/
def State.schStat (s : State) : Word32 :=
  let count (st : CtxState) : Nat := (s.ctxs.filter (fun e => e.2.state == st)).length
  BitVec.ofNat 32 (count .running + 2 ^ 8 * count .ready + 2 ^ 16 * bnat (s.hwTmr 0x80).isSome)

/-- SCH_LOCK_STAT of the selected lock. -/
def State.lockStat (s : State) : Word32 :=
  let l := s.lock (fld (s.reg pSCH 0x804) 0 8)
  BitVec.ofNat 32 ((match l.owner with | some x => x.val | none => 0) + 2 ^ 6 * bnat l.owner.isSome + 2 ^ 7 * bnat l.broken
    + 2 ^ 8 * min 255 l.waiters.length + 2 ^ 16 * l.core.val + 2 ^ 24 * l.lastBreak.toNat)

/-- SCH_LOCK_EXPIRY of the selected lock. -/
def State.lockExpiry (s : State) : Word64 :=
  let l := s.lock (fld (s.reg pSCH 0x804) 0 8)
  match l.expiry with
  | some t => t.setWidth 64
  | none => BitVec.ofNat 64 (2 ^ 48 * bnat l.owner.isSome)

/-- A word of SCH_LOCK_HELD or SCH_LOCK_BROKEN. -/
def State.lockBits (s : State) (i : Nat) (broken : Bool) : Word32 :=
  BitVec.ofNat 32 (((List.range 32).map (fun n =>
    let l := s.lock (32 * i + n)
    2 ^ n * bnat (if broken then l.broken else l.owner.isSome))).sum)

/-- A write of SCH_MODE: the jobs that ran partitioned throughout do so no longer (R551). -/
def State.schMode (s : State) (v : Word32) : State :=
  let s := s.store pSCH 0x100 v
  if bit v 0 then s
  else (List.finRange 64).foldl (fun (s : State) (x : CtxId) => s.modJob x (fun j => if j.live then { j with partd := false } else j)) s

end Sys2Proof.Machine
end

