-- ==== Sys2Proof/Machine/Thermal.lean ====
section
/-! DEFINITION. Die temperature, throttle and thermal trip (22_electrical.md R635 to R637). -/

namespace Sys2Proof.Machine

/-- TEL_THR_CFG.ON, clamped to 90 to 105. -/
def State.thrOn (s : State) : Nat := min 105 (max 90 (fld (s.reg pTEL 0x130) 0 8))

/-- The throttle stage (TEL_THR_STAT). -/
def State.thrStage (s : State) : Nat := fld (s.reg pTEL 0x80C) 0 2

/-- The present die temperature (TEL_TJ). -/
def State.tj (s : State) : Nat := fld (s.reg pTEL 0x808) 0 8

/-- Set the throttle stage; a rise is an event. -/
def State.setStage (s : State) (n : Nat) : State :=
  let t := s.setReg pTEL 0x80C (BitVec.ofNat 32 n)
  if s.thrStage < n then t.raise pTEL 16 else t

/-- A second reading of 115 °C or more drives THERMTRIP# low and stops every PLL (R637) (DEDUCED, log entry 81). -/
def State.trip (s : State) (hot : Bool) : State :=
  let again := hot && s.mgt.hot
  let s := { s with mgt := { s.mgt with hot := hot } }
  if again ∧ !s.mgt.tripped then
    ({ s with mgt := { s.mgt with tripped := true }, pw := { s.pw with pllRun := 0, pllLock := 0 } }).emitOut .thermtrip
  else s

/-- TJ_SAMPLE (R635, R637). -/
def execTjSample (t : Nat) (s : State) : Host.Outcome State Fault Refusal :=
  ok (let t := min 255 t
      let s := s.setReg pTEL 0x808 (BitVec.ofNat 32 (t + max t (fld (s.reg pTEL 0x808) 8 8) * 2 ^ 8))
      let s := if s.thrOn ≤ t ∧ s.thrStage = 0 then s.setStage 1 else s
      s.trip (decide (115 ≤ t)))

/-- THROTTLE_STAGE2_ENTER (R635). -/
def execThrottleStage2Enter (s : State) : Host.Outcome State Fault Refusal :=
  ok (if 108 ≤ s.tj ∧ s.thrStage < 2 then s.setStage 2 else s)

/-- THROTTLE_STAGE_EXIT (R635). -/
def execThrottleStageExit (s : State) : Host.Outcome State Fault Refusal :=
  ok (if s.thrStage = 2 ∧ s.tj ≤ 105 then s.setStage 1
    else if s.thrStage = 1 ∧ s.tj + 3 ≤ s.thrOn then s.setStage 0
    else s)

end Sys2Proof.Machine
end

