-- ==== Sys2Proof/Machine/Messages.lean ====
section
/-! DEFINITION. The fabric instructions of cores (12_fabric_transport.md R354 to R358), and the commands of the transport
that reach engines: messages by KIND, acknowledgements, timeouts, aborts (R350 to R353, R370). -/

namespace Sys2Proof.Machine

/-! ### FAB.SEND and FAB.RECV -/

/-- The length check of both descriptors (R356). -/
def fabLen (x : Ctx) (c addr n : Nat) : Option (BitVec 16) :=
  if n = 0 then some stZERO_LEN
  else if 0x100000 < n ∨ !x.holds c addr n then some stBOUND
  else none

/-- The checks of a send descriptor, in order (R354, R356). -/
def sendCheck (x : Ctx) (c : Nat) (d : List Byte) : Option (BitVec 16) :=
  let vc := lef d 0 2
  if 8 ≤ vc ∨ 0x1000 ≤ lef d 2 2 ∨ 64 ≤ lef d 4 2 ∨ 0x400000 ≤ lef d 8 4 ∨ !zeroAt d 0x10 48
      ∨ (vc ≠ 2 ∧ vc ≠ 4 ∧ vc ≠ 5) then some stDESC_INVALID
  else fabLen x c (lef d 8 4) (lef d 0xC 4)

/-- The checks of a receive descriptor, in order (R355, R356). -/
def recvCheck (x : Ctx) (c : Nat) (d : List Byte) : Option (BitVec 16) :=
  if 2 ≤ lef d 0 2 ∨ 0x1000 ≤ lef d 2 2 ∨ lef d 4 2 ≠ 0 ∨ 0x400000 ≤ lef d 8 4 ∨ !zeroAt d 0x10 48 then
    some stDESC_INVALID
  else fabLen x c (lef d 8 4) (lef d 0xC 4)

/-- The descriptor at scratch SA, or the trap that reading it takes (R161, R576). -/
def fabDesc (k : Core) (o : YOp) : BitVec 16 ⊕ List Byte :=
  let a := (k.th.s o.sa).toNat
  if k.th.sp o.sa then .inl stPOISON_CONSUMED
  else if scratchEnd < a + 64 then .inl stSCRATCH_BOUND
  else if a % 64 ≠ 0 then .inl stMISALIGNED
  else
    let q := k.viewAt (k.th.cyc + 1)
    if q.marked a 64 then .inl stPOISON_CONSUMED else .inr (q.rd a 64)

/-- The message that a send descriptor asks for, and its virtual channel: the payload as scratch holds it (R176). -/
def State.sendFrom (s : State) (c : CoreId) (x : CtxId) (d : List Byte) : Message × Fin 8 :=
  let k := s.core c
  let a := lef d 8 4
  let n := lef d 0xC 4
  let m := newMsg s 0x01 (lef d 2 2)
  ({ m with dctx := Fin.ofNat 64 (lef d 4 2), sctx := x, tag := BitVec.ofNat 16 (lef d 6 2), payload := k.rd a n
            poison := (List.range ((n + 63) / 64)).map (fun i => k.marked (a + 64 * i) (min 64 (n - 64 * i))) },
   Fin.ofNat 8 (lef d 0 2))

/-- FAB.SEND (R173, R354, R356, R358). -/
def execFabSend (o : YOp) (s : State) : Host.Outcome State Fault Refusal :=
  ok (issue o.core (encY 0x64 o) (fun s x k =>
    match fabDesc k o with
    | .inl st => .trap st 0
    | .inr d => match sendCheck (s.ctx x) o.core d with
      | some st => .go { lands := [(1, .sreg o.sd (st.setWidth 64) false)], reads := [(Loc.s o.sa, 0)] }
      | none => .go {
          reads := [(Loc.s o.sa, 0)]
          onState := fun s =>
            let (m, vc) := s.sendFrom o.core x d
            let (n, s) := s.sendMsg m vc (.core o.core x)
            s.modCore o.core (fun k => { k with th := { k.th with
              wait := some (.fabSend o.sd m.dest (BitVec.ofNat 48 n) none false) } }) }) s)

/-- FAB.RECV (R173, R355 to R357): it posts its receive and waits. -/
def execFabRecv (o : YOp) (s : State) : Host.Outcome State Fault Refusal :=
  ok (issue o.core (encY 0x65 o) (fun s x k =>
    match fabDesc k o with
    | .inl st => .trap st 0
    | .inr d => match recvCheck (s.ctx x) o.core d with
      | some st => .go { lands := [(1, .sreg o.sd (st.setWidth 64) false)], reads := [(Loc.s o.sa, 0)] }
      | none => .go {
          reads := [(Loc.s o.sa, 0)]
          onCore := fun k => { k with th := { k.th with
            wait := some (.fabRecv o.sd (bit (d.getD 0 0) 0) (BitVec.ofNat 12 (lef d 2 2)) (BitVec.ofNat 16 (lef d 6 2))
              (lef d 8 4) (lef d 0xC 4) none) } } }) s)

/-- FAB_SEND_COMPLETE (R174, R358). -/
def execFabSendComplete (c : CoreId) (waited : Nat) (s : State) : Host.Outcome State Fault Refusal :=
  ok (if !s.waitLive c then s
    else match (s.core c).th.wait with
      | some (.fabSend sd _ _ (some st) _) => s.endWait c waited [(1, .sreg sd (st.setWidth 64) false)]
      | _ => s)

/-- FAB_RECV_COMPLETE (R174, R358): status, length and source. -/
def execFabRecvComplete (c : CoreId) (waited : Nat) (s : State) : Host.Outcome State Fault Refusal :=
  ok (if !s.waitLive c then s
    else match (s.core c).th.wait with
      | some (.fabRecv sd _ _ _ _ _ (some (st, n, src))) =>
        s.endWait c waited [(1, .sreg sd (BitVec.ofNat 64 (st.toNat + n * 2 ^ 16 + src.toNat * 2 ^ 48)) false)]
      | _ => s)

/-! ### Outcomes of held messages -/

/-- An engine learns the outcome of its message. -/
def State.tellSender (s : State) (h : Held) (st : BitVec 16) : State :=
  match h.sender with
  | .core _ _ => s
  | .kitty n => s.recOutcome n st
  | .engine b _ => if b = 0x0E then (if st = stOK then s else s.clxUndelivered h.msg st).clxGo else s

/-- TACK's effect (R351, R352). -/
def State.tacked (s : State) (m : Message) : State :=
  if !bit (s.reg pFAB 0x800) 0 then s
  else match s.onTack m with
    | (none, s) => s
    | (some h, s) => (s.complete h m.status).tellSender h m.status

/-- TACK (R351, R352). -/
def execTack (m : Message) (s : State) : Host.Outcome State Fault Refusal := ok (s.tacked m)

/-- A timeout of a held message; its sender learns it when it completes. -/
def State.heldTimeout (s t : State) (dest : BitVec 12) (mseq : BitVec 48) (st : BitVec 16) : State :=
  match s.heldOf dest mseq, t.heldOf dest mseq with
  | some h, none => t.tellSender h st
  | _, _ => t

/-- RESEND_TIMEOUT (R352). -/
def execResendTimeout (dest : BitVec 12) (mseq : BitVec 48) (s : State) : Host.Outcome State Fault Refusal :=
  ok (s.heldTimeout (s.resendTmo dest mseq) dest mseq stUNREACHABLE)

/-- SEND_TMO_EXPIRY (R352). -/
def execSendTmoExpiry (dest : BitVec 12) (mseq : BitVec 48) (s : State) : Host.Outcome State Fault Refusal :=
  ok (s.heldTimeout (s.sendTmo dest mseq) dest mseq stNO_RECV)

/-! ### Watchdog and aborts (R370) -/

/-- PROGRESS_WATCHDOG (R370): a barrier or a collective that this chip coordinates. -/
def execProgressWatchdog (isColl : Bool) (gid : BitVec 16) (seqOrBar : Word32) (s : State) :
    Host.Outcome State Fault Refusal :=
  ok (if isColl then
      match s.groupOf gid.toNat with
      | none => s
      | some g => s.collWatch (Fin.ofNat 64 g) seqOrBar
    else s.podWatch gid.toNat (seqOrBar.toNat % 64))

/-- OP_ABORT's effect: byte 0x2C of the header says whether it names a collective (DEDUCED, log entry 33). -/
def State.opAborted (s : State) (m : Message) : State :=
  let s := { s with fab := { s.fab with inbox := s.fab.inbox.erase m } }
  if m.abort ∨ !bit (s.reg pFAB 0x800) 0 then s
  else if hdr m 0x2C 1 = 1 then (s.onCollAbort m).clxGo
  else s.onBarAbort m

/-- OP_ABORT (R370). -/
def execOpAbort (m : Message) (s : State) : Host.Outcome State Fault Refusal := ok (s.opAborted m)

/-! ### Messages by KIND (R350, R353) -/

/-- The state that an outcome leaves; `s` where there is none. -/
def nextOr (o : Host.Outcome State Fault Refusal) (s : State) : State :=
  match o with
  | .next t => t
  | _ => s

/-- The page of the engine to which a KIND belongs (R353) (DEDUCED, log entry 115). -/
def kindPage (k : Nat) : Option Nat :=
  if k / 16 = 1 then some pCLX
  else if k / 16 = 2 then some pWPB
  else if k / 16 = 3 then some pKIT
  else if k / 16 = 4 then some pANL
  else if k / 16 = 5 then some pEPS
  else if k / 16 = 7 then some pMGT
  else none

/-- A whole message goes where its KIND says. One of an engine's KIND without a meaning is taken and discarded; any
KIND that belongs to no engine meets the posted receives (R353, R357). -/
def State.deliver (s : State) (m : Message) : State :=
  match m.kind.toNat with
  | 0x02 => s.tacked m
  | 0x03 => nextOr (execCancel m s) s
  | 0x04 => nextOr (execBarArrive m s) s
  | 0x05 => nextOr (execBarRelease m s) s
  | 0x06 => s.opAborted m
  | 0x10 => nextOr (execArrive m s) s
  | 0x11 => nextOr (execGo m s) s
  | 0x12 => nextOr (execCollData m s) s
  | 0x13 => nextOr (execRelayStripe m s) s
  | 0x14 => nextOr (execLateGo m s) s
  | 0x20 => nextOr (execManifest m s) s
  | 0x21 => nextOr (execChunk m s) s
  | 0x22 => nextOr (execPubEnd m s) s
  | 0x23 => nextOr (execRestreamReq m [] s) s
  | 0x24 => nextOr (execReady m s) s
  | 0x25 => nextOr (execHold m s) s
  | 0x26 => nextOr (execRestreamRefuse m s) s
  | 0x27 => nextOr (execWithdraw m s) s
  | 0x30 => nextOr (execKittyRecordRx m s) s
  | 0x40 => nextOr (execBoundary m s) s
  | 0x50 => nextOr (execStepOpenRx m s) s
  | 0x51 => nextOr (execStepDone m s) s
  | 0x52 => nextOr (execCommit m s) s
  | 0x53 => nextOr (execHusk m s) s
  | 0x54 => nextOr (execHuskDone m s) s
  | k => match kindPage k with
    | some p => s.engineTakeE m p id
    | none => s.windowedE m (fun s => s.takeData m)

/-- MSG_RX (R350). -/
def execMsgRx (m : Message) (s : State) : Host.Outcome State Fault Refusal := ok (s.deliver m)

/-- The messages that wait for a domain are served, oldest first, once it is ON (R73). -/
def State.serveDeferred (s : State) (d : Nat) : State :=
  let due := s.deferred.filter (fun e => e.1 == d)
  let s := { s with deferred := s.deferred.filter (fun e => e.1 != d) }
  due.foldl (fun (s : State) e => s.deliver e.2) s

end Sys2Proof.Machine
end

