-- ==== Sys2Proof/Machine/Sleep.lean ====
section
/-! DEFINITION. Sleep entry, what a domain loses as it goes OFF, and the completion of a wake (03_power_clocks.md R58, R63
to R70, R73; 05_cores_arrays.md R143, R146). -/

namespace Sys2Proof.Machine

/-! ### Idle blocks (R64, R66) -/

/-- Is a loaded program placed on a core? -/
def State.placedOn (s : State) (c : Nat) : Bool := s.ctxs.any (fun e => e.2.place.any (fun p => p.core.val == c))

/-- Does a loaded program use an array? -/
def State.placedArr (s : State) (a : Nat) : Bool :=
  s.ctxs.any (fun e => e.2.place.any (fun p => p.core.val == a / 4 && p.arrays.getLsbD (a % 4)))

/-- Does an array work: a pass, a retry, a self-test slice? -/
def State.arrWorks (s : State) (a : Nat) : Bool :=
  let cl := s.clu (a / 48)
  (s.core (a / 4)).passes.any (fun p => p.gang || p.arr.val == a % 4)
    || (cl.serving.isSome && s.retryArr (a / 48) == some a)
    || (match cl.test with | some t => t.running && t.slot.val == a % 48 | none => false)

/-- Is a domain's child ON or on its way there? -/
def State.childOn (s : State) (d : Nat) : Bool := (domChildren d).any (fun e => s.domOn e || (s.dom e).waking)

/-- Is a bank build open, or a manifest on its way to one? -/
def State.wpbBuilds (s : State) : Bool :=
  s.wpb.publishing.isSome || s.wpb.asked.isSome || s.wpb.mdls.any (fun e =>
    (e.2.inState .building).isSome || (e.2.inState .repair).isSome || e.2.arriving.isSome || !e.2.checking.isEmpty
      || e.2.pend.isSome || !e.2.staged.isEmpty)

/-- Is any episode live? -/
def State.epsLive (s : State) : Bool :=
  s.eps.eps.any (fun e => match e.2 with | some e => e.state != .ended | none => false)

/-- Does a domain's block report idle? -/
def State.blockIdle (s : State) (d : Nat) : Bool :=
  if d < 768 then !s.arrWorks d && (s.isFenced d || !s.placedArr d)
  else if d < 960 then
    !s.placedOn (d - 768) && !s.childOn d && (s.core (d - 768)).chans.all (fun h => h.2.queue.isEmpty)
  else if d < 976 then
    let k := s.clu (d - 960)
    !s.childOn d && k.retryQ.isEmpty && k.serving.isNone && k.test.isNone
  else if d < 984 then !s.mem.flushing.getLsbD (2 * (d - 976)) && !s.mem.flushing.getLsbD (2 * (d - 976) + 1)
  else if d < 992 then !s.childOn d
  else if d < 1008 then
    match (s.link (d - 992)).state with
    | .up => false
    | .training => false
    | _ => true
  else if d = dANL then
    !s.anl.testPending && !s.anl.testRunning && s.anl.chs.all (fun e => e.2.state == .idle && !e.2.waiting)
  else if d = dCLX then s.clx.colls.all (fun c => c.phase != .data)
  else if d = dWPB then s.wpb.publishing.isNone && s.wpb.mdls.all (fun e => e.2.staged.isEmpty && e.2.checking.isEmpty)
  else s.eps.recq.isEmpty && s.eps.groups.all (fun e => e.2.flight.isNone && e.2.husks.isEmpty)

/-- May a domain leave ON: idle, not held, neither waking nor asleep already (R64, R76)? -/
def State.maySleep (s : State) (d : Nat) : Bool :=
  let g := s.dom d
  s.blockIdle d && !g.hold && !g.waking && g.sleepTo.isNone

/-- The depth of a state. -/
def DState.rank : DState → Nat
  | .on => 0
  | .cg => 1
  | .retain => 2
  | .off => 3

/-- The deepest state that the pages of a domain allow; a PHY has its controller's (DEDUCED, log entry 54). -/
def State.allowed (s : State) (d : Nat) : Nat :=
  let ps := domainPages (if 984 ≤ d ∧ d < 992 then d - 8 else d)
  ps.foldl (fun m p => min m (s.page p).allow.toNat) 3

/-- The deepest state of a cluster's shared domain: no deeper than RETAIN while its pool holds an allocation, and no
deeper than CLOCK-GATED while a core or an engine that holds a mapping to one is ON (10_tiers_quotas.md R285). An
engine maps what it has claimed (R301). -/
def State.poolDepth (s : State) (c : Nat) : Nat :=
  let here (u : Nat) : Bool := u / 192 == c
  let inPool (r : Rec) : Bool := r.pool && (r.units ++ r.unitsB).any here
  let claimed (k : Nat) : Bool := s.tier.claims.any (fun e => e.1 % 3 == k && e.2.any here)
  let coreOn (x : Nat) : Bool := (s.ctx x).place.any (fun p => s.domOn (dCore p.core))
  let mapped : Bool := s.tier.maps.any (fun e => match e.2 with
    | some m => coreOn (e.1 / 4096) && (match s.trec m.recN with | some r => inPool r | none => false)
    | none => false)
  if !(s.unitsUsed true).any here then 3
  else if mapped || (claimed 1 && s.domOn dEPS) || (claimed 2 && s.domOn dWPB) then 1
  else 2

/-- The deepest state that a domain may enter now (R64, R68, R70; R143 for a fenced array; R285). -/
def State.sleepDepth (s : State) (d : Nat) : Nat :=
  if d < 768 ∧ s.isFenced d then 3
  else
    let lim :=
      if 960 ≤ d ∧ d < 976 then s.poolDepth (d - 960)
      else if 992 ≤ d ∧ d < 1008 then (if (s.link (d - 992)).state = .sleep then 2 else 3)
      else if d = dANL then (if s.anl.chs.any (fun e => e.2.prob.isSome) then 2 else 3)
      else if d = dCLX then (if s.clx.colls.isEmpty ∧ s.clx.rounds.isEmpty then 3 else 2)
      else if d = dWPB then (if s.wpbBuilds then 2 else 3)
      else if d = dEPS then (if s.epsLive then 2 else 3)
      else 3
    min lim (s.allowed d)

/-- CLOCK_GATE_ENTRY (R70). -/
def execClockGateEntry (d : DomId) (s : State) : Host.Outcome State Fault Refusal :=
  ok (if s.domOn d ∧ s.maySleep d ∧ 1 ≤ s.sleepDepth d then s.modDom d (fun g => { g with state := .cg }) else s)

/-- DEEP_HYST_EXPIRY (R70): a clock-gated domain begins to enter the deepest state that it may. -/
def execDeepHystExpiry (d : DomId) (s : State) : Host.Outcome State Fault Refusal :=
  ok (if (s.dom d).state = .cg ∧ s.maySleep d then
      let k := s.sleepDepth d
      if k = 3 then s.modDom d (fun g => { g with sleepTo := some .off })
      else if k = 2 then s.modDom d (fun g => { g with sleepTo := some .retain })
      else s
    else s)

/-! ### Going OFF (R58, R63, R65, R66) -/

/-- The registers of a page return to their reset values but for its configuration area, which the control plane keeps
(R50; DEDUCED, log entry 55); ARR, CORE and CLU pages keep all (R146). -/
def State.pageOff (s : State) (p : Nat) : State :=
  match pageInfo p with
  | some (bt, _) => if bt = 0x18 ∨ bt = 0x1C ∨ bt = 0x1D then s else s.resetArea p 0x800 0x1000
  | none => s

/-- The 64-bit read latches of a page are lost with its domain (02_register_pages.md, When things collide). -/
def State.dropLatches (s : State) (p : Nat) : State := s.modPage p (fun g => { g with latchHost := none, latchMgmt := none })

/-- Write back the dirty lines of a stack's two slices, and empty them (R66). -/
def State.hccOff (s : State) (k : Nat) : State :=
  let s := (s.flushSlice (2 * k) 0xFFFF true).flushSlice (2 * k + 1) 0xFFFF true
  { s with mem := { s.mem with heat := s.mem.heat.filter (fun e => e.1 / 786432 != k) } }

/-- A domain's block loses what it holds. -/
def State.blockOff (s : State) (d : Nat) : State :=
  if d < 768 then
    s.modCore (d / 4) (fun k => { k with th := { k.th with
      tiles := k.th.tiles.filter (fun e => e.1 / 128 != d % 4), tpo := k.th.tpo.filter (fun e => e.1 / 128 != d % 4) } })
  else if d < 960 then s.setCore (d - 768) {}
  else if d < 976 then
    let c := d - 960
    { s with
      clus := sset {} s.clus c {}
      mem := { s.mem with pool := s.mem.pool.filter (fun e => e.1 / 12582912 != c)
                          poolMarks := s.mem.poolMarks.filter (fun e => e.1 / 196608 != c) } }
  else if d < 984 then s.hccOff (d - 976)
  else if d < 992 then s
  else if d < 1008 then
    s.modLink (d - 992) (fun k => { state := k.state, signal := k.signal, failed := k.failed })
  else if d = dANL then { s with anl := {} }
  else if d = dCLX then { s with clx := {} }
  else if d = dWPB then { s with wpb := {} }
  else { s with eps := {} }

/-- A cluster's PLL stops when its cores and its shared domain are OFF, unless it is kept (R58). -/
def State.pllStop (s : State) (c : Nat) : State :=
  if ((dClu c) :: domChildren (dClu c)).all (fun d => (s.dom d).state == .off && !(s.dom d).waking)
      ∧ !bit (s.reg pPWR 0x10C) c then
    { s with pw := { s.pw with pllRun := setBit s.pw.pllRun c false, pllLock := setBit s.pw.pllLock c false } }
  else s

/-- A domain has reached the state that it was going to. -/
def State.sleepDone (s : State) (d : Nat) (to_ : DState) : State :=
  let s := s.modDom d (fun g => { g with state := to_, sleepTo := none })
  let s := (domainPages d).foldl (fun (s : State) p => s.dropLatches p) s
  let s := if to_ = .off then (domainPages d).foldl (fun (s : State) p => s.pageOff p) (s.blockOff d) else s
  let s := if 984 ≤ d ∧ d < 992 then s.modStack (d - 984) (fun g => { g with selfRefresh := true }) else s
  let s := if 768 ≤ d ∧ d < 960 then s.pllStop ((d - 768) / 12) else if 960 ≤ d ∧ d < 976 then s.pllStop (d - 960) else s
  if (s.dom d).wakeAfter then (s.modDom d (fun g => { g with wakeAfter := false })).wakeAgent d else s

/-- DOMAIN_SLEEP_DONE (R67). -/
def execDomainSleepDone (d : DomId) (s : State) : Host.Outcome State Fault Refusal :=
  ok (match (s.dom d).sleepTo with
    | some t => s.sleepDone d t
    | none => s)

/-! ### Waking (R66 to R69, R73) -/

/-- May a wake complete: under way, D-Deep left (R79), every parent ON, and the PLL of a core that was OFF locked? -/
def State.mayWake (s : State) (d : Nat) : Bool :=
  let g := s.dom d
  g.waking && !s.pw.deep && (domParents d).all s.domOn
    && (g.state != .off || !(decide (768 ≤ d) && decide (d < 960)) || s.pw.pllLock.getLsbD ((d - 768) / 12))

/-- PWR_CORE_WAKE_MAX keeps the longest core wake since its last read. -/
def State.coreWakeMax (s : State) (sclk : Nat) : State :=
  let m := max (fld (s.reg pPWR 0xF10) 0 31) (min sclk 0x7FFFFFFF)
  s.setReg pPWR 0xF10 (BitVec.ofNat 32 (m + bnat (m == 0x7FFFFFFF) * 2 ^ 31))

/-- A page learns of an access that its sleeping domain dropped (R53). -/
def State.pageOffAcc (s : State) (p : Nat) : State :=
  s.modPage p (fun g => { g with offAccess := true, evt := g.evt ||| 4 })

/-- A domain reaches ON: the events that waited for it are served (R73). -/
def State.wakeDone (s : State) (d sclk : Nat) : State :=
  let g := s.dom d
  let slept := g.state == .off || g.state == .retain
  let s := if slept then s.inc pPWR 0xF00 else s
  let s := if slept ∧ 768 ≤ d ∧ d < 960 then s.coreWakeMax sclk else s
  let s := s.modDom d (fun g => { g with state := .on, waking := false, offAcc := false })
  let s := if g.offAcc then (domainPages d).foldl (fun (s : State) p => s.pageOffAcc p) s else s
  let s := if 984 ≤ d ∧ d < 992 then
      s.modStack (d - 984) (fun h => { h with selfRefresh := h.stopped })
    else s
  s.serveDeferred d

/-- DOMAIN_WAKE_DONE (R66 to R69, R73): `sclk` is how long the wake took. -/
def execDomainWakeDone (d : DomId) (sclk : BitVec 31) (s : State) : Host.Outcome State Fault Refusal :=
  ok (if s.mayWake d then s.wakeDone d sclk.toNat else s)

end Sys2Proof.Machine
end

