-- ==== Sys2Proof/Machine/Reset.lean ====
section
/-! DEFINITION. The six reset kinds and what each keeps (04_reset_boot.md R93 to R97, R108; 03_power_clocks.md R61,
R86; 22_electrical.md R642). -/

namespace Sys2Proof.Machine

/-! ### What a reset keeps (R95) -/

/-- The offsets of the AON page whose registers every reset but a power-on reset keeps. -/
def aonKept (o : Nat) : Bool :=
  decide (0xF00 ≤ o) || o == 0x80C || o == 0x810 || o == 0x814 || (decide (0x880 ≤ o) && decide (o ≤ 0x88C)) || o == 0x8B8
    || (decide (0x900 ≤ o) && decide (o ≤ 0x90C))

/-- Is the register at a key kept? The strapped SMBus address is; so is the claim of GPIO1 while FATAL_OUT drives it
(21_host_management.md R609, R620). -/
def State.keptKey (s : State) (key : Nat) : Bool :=
  (key / 4096 == pAON && aonKept (key % 4096)) || key == pMGT * 4096 + 0x800
    || (key == pMGT * 4096 + 0x814 && s.mgt.fatalPin)

/-- The operation of the NV-write unit under way completes in the flash or the fuses; nobody learns of it (R90; log
entry 56) (DEDUCED, log entry 56). -/
def State.nvFinish (s : State) : State :=
  match s.nv.op with
  | none => s
  | some (.fuse w v) =>
    { s with nv := { s.nv with fuses := sset 0 s.nv.fuses w.toNat (s.fuse w.toNat ||| v) } }
  | some (.cmdErase off) => s.flashErase off
  | some (.journalErase off) => s.flashErase off
  | some (.cmdProgram off bs) => s.flashWr off bs
  | some (.journal p bs) => s.flashWr (journalOff p) bs
  | some (.train st sl r next) =>
    match (NvOp.train st sl r next).page with
    | some (off, bs) => s.flashWr off bs
    | none => s.flashErase (0x800000 + 0x4000 * st + 0x2000 * sl + 4096 * next)

/-- The tries of an image (AON_BOOT_TRIES). -/
def State.tries (s : State) (i : Nat) : Nat := fld (s.reg pAON 0x8B8) (2 * i) 2

/-- Set the tries of an image. -/
def State.setTries (s : State) (i n : Nat) : State := s.setReg pAON 0x8B8 (putFld (s.reg pAON 0x8B8) (2 * i) 2 n)

/-- A watchdog or FATAL reset before AON_BOOT_CONFIRM counts a try of the running image (R108). -/
def State.countTry (s : State) (cause : Nat) : State :=
  match s.nv.image with
  | some i => if (cause = 4 ∨ cause = 5) ∧ !s.nv.confirmed then s.setTries i (min 3 (s.tries i + 1)) else s
  | none => s

/-- AON_RST_CAUSE, AON_RST_TIME and AON_RST_CNT of a reset other than power-on: `rails` is SAG_RAIL. -/
def State.recordReset (s : State) (cause rails : Nat) : State :=
  let prev := fld (s.reg pAON 0x880) 0 3
  let idx := if cause = 5 then s.log.fatalIdx.toNat else 0
  let s := s.setReg pAON 0x880 (BitVec.ofNat 32 (cause + prev * 2 ^ 3 + rails * 2 ^ 6 + idx * 2 ^ 8))
  let s := s.setReg64 pAON 0x884 (s.pw.aonTime.setWidth 64)
  let n := s.reg pAON 0x88C
  if fld n 0 31 = 0x7FFFFFFF then s.setReg pAON 0x88C 0xFFFFFFFF
  else s.setReg pAON 0x88C (n + 1)

/-- A reset other than power-on takes effect (R93, R95): what is kept stays, and everything else is as at power-on. -/
def State.chipReset (s : State) (cause rails : Nat) : State :=
  let s := (s.nvFinish.countTry cause).recordReset cause rails
  let s := { s with mgt := { s.mgt with fatalPin := s.mgt.fatalPin && (cause == 5 || !s.log.fatal) } }
  { State.reset with
    pending := s.pending, out := s.out, free := s.free
    regs := s.regs.filter (fun e => s.keptKey e.1)
    pw := { doms := [], wsets := [], aonTime := s.pw.aonTime, slowPresent := s.pw.slowPresent
            refPresent := s.pw.refPresent, pcieRef := s.pw.pcieRef, fallback := s.pw.fallback
            switched := s.pw.switched, warn := setBit s.pw.warn 2 false }
    nv := { fuses := s.nv.fuses, flash := s.nv.flash, flashBytes := s.nv.flashBytes }
    log := { ring := s.log.ring, fatalIdx := s.log.fatalIdx }
    mem := { bytes := s.mem.bytes, poison := s.mem.poison }
    links := s.links.filterMap (fun e => if e.2.signal then some (e.1, { signal := true }) else none)
    mgt := { fatalPin := s.mgt.fatalPin, tripped := s.mgt.tripped, jtag := s.mgt.jtag } }

/-- A power-on reset (R93, R95): everything is cleared but fuses and flash; the SMBus address is sampled at its
release (21_host_management.md R609). -/
def State.powerOn (s : State) (strap : BitVec 3) : State :=
  let s := s.nvFinish
  let t : State := { State.reset with
    pending := s.pending, out := s.out, free := s.free
    nv := { fuses := s.nv.fuses, flash := s.nv.flash, flashBytes := s.nv.flashBytes } }
  t.setReg pMGT 0x800 (BitVec.ofNat 32 (0x58 + strap.toNat))

/-! ### The kinds (R93) -/

/-- POWER_ON_RESET (R93). -/
def execPowerOnReset (strap : BitVec 3) (s : State) : Host.Outcome State Fault Refusal := ok (s.powerOn strap)

/-- SAG_RESET (R86, R93): the rails below their brownout threshold, VDD_IO18 and VDD_AON from bit 0. -/
def execSagReset (rails : BitVec 2) (s : State) : Host.Outcome State Fault Refusal :=
  ok (if rails = 0 then s else s.chipReset 1 rails.toNat)

/-- PERST_RESET (R93, R642): a pulse of less than 1 µs may or may not reset the part, which of the two being free
(DEDUCED, log entry 76). -/
def execPerstReset (atLeastOneUs : Bool) (s : State) : Host.Outcome State Fault Refusal :=
  ok (if atLeastOneUs then s.chipReset 2 0
    else
      let v := s.freeVal; let s := s.usedFree
      if v % 2 = 0 then s.chipReset 2 0 else s)

/-- A write of AON_RST_REQ (R93, R94). -/
def State.rstReq (s : State) (v : Word32) : State := if v = 0x52534554 then s.chipReset 3 0 else s

/-- AON_RST_REQ (R93, R94). -/
def execAonRstReq (r : Requester) (v : Word32) (s : State) : Host.Outcome State Fault Refusal :=
  ok (s.write r pAON 0x8A8 (fun s => s.rstReq v))

/-- FATAL_RESET (R93, R579): a FATAL error has been detected and its entry is written. -/
def execFatalReset (s : State) : Host.Outcome State Fault Refusal :=
  ok (if s.log.fatal ∧ !s.log.queue.any (fun e => e.cls == cFATAL) then s.chipReset 5 0 else s)

/-- REFCLK_LOST (03_power_clocks.md R61): the device resets with cause FATAL. No entry causes it, and LOG_INDEX is
free (DEDUCED, log entry 67). -/
def execRefclkLost (s : State) : Host.Outcome State Fault Refusal :=
  ok (if s.pw.refPresent then
      let v := s.freeVal; let s := s.usedFree
      let s := { s with pw := { s.pw with refPresent := false }, log := { s.log with fatalIdx := BitVec.ofNat 10 v } }
      s.chipReset 5 0
    else s)

/-- A write of AON_BOOT_CONFIRM (R108). -/
def State.bootConfirm (s : State) (v : Word32) : State :=
  if v = 0x4F4B4159 then
    match s.nv.image with
    | some i => { s.setTries i 0 with nv := { s.nv with confirmed := true } }
    | none => { s with nv := { s.nv with confirmed := true } }
  else s

/-- AON_BOOT_CONFIRM (R108). -/
def execAonBootConfirm (r : Requester) (v : Word32) (s : State) : Host.Outcome State Fault Refusal :=
  ok (s.write r pAON 0x8BC (fun s => s.bootConfirm v))

end Sys2Proof.Machine
end

