-- ==== Sys2Proof/Machine/Read.lean ====
section
/-! DEFINITION. What a read of a register returns (02_register_pages.md R33, R37, R44, R56 and the header tables; the
register tables of every chapter): the registers that show the state of their block, and the stored ones. Where a
table names a condition and no rule defines it, DEDUCED, log entry 57 says how it is read. -/

namespace Sys2Proof.Machine

/-- A word of 32 flags. -/
def flags32 (f : Nat → Bool) : Word32 := BitVec.ofNat 32 (((List.range 32).map (fun i => 2 ^ i * bnat (f i))).sum)

/-- One half of a 64-bit value: the high word for `hi`. -/
def halfOf (v : Word64) (hi : Bool) : Word32 := if hi then v.extractLsb' 32 32 else v.setWidth 32

/-- Word `i` of a byte string. -/
def wordOf (bs : List Byte) (i : Nat) : Word32 := BitVec.ofNat 32 (lef bs (4 * i) 4)

/-! ### The header -/

/-- The domain whose state a page reports, and its state code (PG_PWR). -/
def DState.code : DState → Nat
  | .on => 0
  | .cg => 1
  | .retain => 2
  | .off => 3

/-- PG_STAT.BUSY: an operation or a soft reset is under way (DEDUCED, log entry 57). -/
def State.pageBusy (s : State) (p : Nat) : Bool :=
  (s.page p).srst || (match pageInfo p with
  | none => false
  | some (bt, i) =>
    match bt with
    | 0x01 => s.nv.op.isSome
    | 0x04 => (match s.nv.op with | some (.fuse _ _) => true | _ => false)
    | 0x05 => s.nv.op.isSome || !s.nv.queue.isEmpty
    | 0x07 => s.mgt.trim.isSome
    | 0x0B => (List.finRange 64).any (fun x => (s.job x.val).sealHeld)
    | 0x0C => s.tier.moving.isSome || !s.tier.moves.isEmpty
    | 0x0D => !s.fab.held.isEmpty
    | 0x0E => !s.clx.colls.isEmpty || !s.clx.rounds.isEmpty
    | 0x0F => s.wpbBuilds
    | 0x10 => s.wpb.mdls.any (fun e => !e.2.staged.isEmpty || !e.2.checking.isEmpty)
    | 0x11 => !s.blockIdle dEPS || s.epsLive
    | 0x13 => !s.blockIdle dANL
    | 0x14 => s.trn.any (fun e => e.2.cur.isSome || e.2.ckpt)
    | 0x15 => s.ctxs.any (fun e => e.2.state == .running || e.2.state == .preempting)
    | 0x16 => !(s.que i).running.isEmpty || !(s.que i).fetched.isEmpty
    | 0x17 => (s.ctx i).begun
    | 0x18 => (s.clu i).test.isSome || (s.clu i).serving.isSome || !(s.clu i).retryQ.isEmpty
    | 0x1A => s.mem.flushing.getLsbD i
    | 0x1B => (s.link i).cmd != 0 || (s.link i).state == .training
    | 0x1C => (s.core i).ctx.isSome || (s.core i).chans.any (fun h => !h.2.queue.isEmpty)
    | 0x1D => s.arrWorks i
    | _ => false)

/-- A register of the common header (R34 to R50). -/
def State.readHeader (s : State) (r : Requester) (p o : Nat) : Word32 :=
  let g := s.page p
  let (bt, inst) := match pageInfo p with | some x => x | none => (0, 0)
  match o with
  | 0x00 => BitVec.ofNat 32 (bt + inst * 2 ^ 16)
  | 0x04 => BitVec.ofNat 32 ((Config.pageMinor bt).toNat + 0x200 + Config.stepping.toNat * 2 ^ 16)
  | 0x08 => if bt = 0 then 0 else Config.pageCaps bt false
  | 0x0C => if bt = 0 then 0 else Config.pageCaps bt true
  | 0x10 => BitVec.ofNat 32 (bnat (s.pgEn p) + 2 * bnat g.srst)
  | 0x14 => BitVec.ofNat 32 (bnat (s.pageBusy p) + 2 * bnat g.locked + 2 ^ 8 * bnat g.woViol + 2 ^ 9 * bnat g.sizeErr
      + 2 ^ 10 * bnat g.offAccess)
  | 0x18 => g.evt
  | 0x1C => g.evtEn
  | 0x20 => g.errAddr
  | 0x24 => BitVec.ofNat 32 (g.violCnt.toNat + 2 ^ 16 * bnat (g.violCnt == 0xFFFF))
  | 0x28 => match pageDomain p with
    | none => 0x3FF0000
    | some d => BitVec.ofNat 32 ((s.dom d).state.code + 4 * g.allow.toNat + 2 ^ 16 * d)
  | 0x2C => BitVec.ofNat 32 (bnat g.locked + 2 * bnat (g.armed r))
  | _ => 0

/-! ### Registers that show their block's state -/

/-- An entry of the Directory's range table: low word, high word. -/
def rangeEntry (n : Nat) : Word32 × Word32 :=
  let (first, count) :=
    if n < 22 then (n, 1)
    else match n with
      | 22 => (0x40, 64)
      | 23 => (0x80, 64)
      | 24 => (0xC0, 16)
      | 25 => (0xD0, 8)
      | 26 => (0xE0, 16)
      | 27 => (0xF0, 16)
      | 28 => (0x100, 192)
      | _ => (0x400, 768)
  (BitVec.ofNat 32 (first + count * 2 ^ 16), BitVec.ofNat 32 (n + 2 ^ 8 * bnat (pageDomain first).isSome))

/-- Directory. -/
def readDir (o : Nat) : Option Word32 :=
  if 0x900 ≤ o ∧ o < 0x9F0 then
    let e := rangeEntry ((o - 0x900) / 8)
    some (if o % 8 = 0 then e.1 else e.2)
  else none

/-- AON. -/
def State.readAon (s : State) (r : Requester) (o : Nat) : Option Word32 :=
  if o = 0x800 ∨ o = 0x804 then some (halfOf (s.pw.aonTime.setWidth 64) (o == 0x804))
  else if o = 0x808 then
    some (BitVec.ofNat 32 (s.pw.warn.toNat + 8 * bnat s.nvBlocked + 16 * bnat s.nv.op.isSome))
  else if o = 0x8A8 ∨ o = 0x8B4 ∨ o = 0x8BC ∨ o = 0x8C0 then some 0
  else if 0x920 ≤ o ∧ o < 0x940 then some (wordOf s.log.latch.bytes ((o - 0x920) / 4))
  else if o = 0x9F4 then some (if r = .host then s.pw.tmrResHost else s.pw.tmrResMgmt)
  else none

/-- The word of PWR_DOM_STATE for 16 domains. -/
def State.domWord (s : State) (w : Nat) : Word32 :=
  BitVec.ofNat 32 (((List.range 16).map (fun i =>
    if 16 * w + i < 1012 then 4 ^ i * (s.dom (16 * w + i)).state.code else 0)).sum)

/-- PWR. -/
def State.readPwr (s : State) (o : Nat) : Option Word32 :=
  if 0x800 ≤ o ∧ o < 0x900 then some (s.domWord ((o - 0x800) / 4))
  else if o = 0x908 then some 0
  else if 0x980 ≤ o ∧ o < 0xA00 then
    let m : BitVec 1012 := sget 0 s.pw.wsets s.wsetSel
    some (BitVec.ofNat 32 (m.toNat / 2 ^ (8 * (o - 0x980))))
  else if o = 0xA00 then some (if s.pw.deep then 2 else if s.coreOn then 0 else 1)
  else none

/-- CLK. -/
def State.readClk (s : State) (o : Nat) : Option Word32 :=
  if o = 0x800 then some (s.pw.pllLock.setWidth 32)
  else if o = 0x804 then some (s.pw.pllRun.setWidth 32)
  else if o = 0x808 then
    some (BitVec.ofNat 32 (bnat s.pw.slowPresent + 2 * bnat s.pw.refPresent + 4 * bnat s.pw.pcieRef + 8 * bnat s.pw.fallback))
  else none

/-- The number of 1 bits of a word. -/
def popcount (w : Word32) : Nat := ((List.range 32).filter (fun i => bit w i)).length

/-- Is a core gang-capable: no array of it disabled (R120)? -/
def State.gangCapable (s : State) (c : Nat) : Bool := (List.range 4).all (fun q => !s.fusedOff (4 * c + q))

/-- The anti-rollback count (R110). -/
def State.antiRollback (s : State) : Nat := popcount (s.fuse 44) + popcount (s.fuse 45)

/-- Disabled arrays of the fuse map. -/
def State.disabledCount (s : State) : Nat := ((List.range 24).map (fun w => popcount (s.fuse w))).sum

/-- Gang-capable cores. -/
def State.gangCount (s : State) : Nat := ((List.range 192).filter (fun c => s.gangCapable c)).length

/-- FUS: 0 until the fuses have been sensed. -/
def State.readFus (s : State) (o : Nat) : Option Word32 :=
  if o = 0xA08 then some 0
  else if 0x800 ≤ o ∧ o < 0xA00 then
    if !s.nv.sensed then some 0
    else if o = 0x800 then
      some (BitVec.ofNat 32 (1 + 2 * bnat s.nv.fuseCorr + 4 * fld (s.fuse 24) 0 2 + 2 ^ 4 * (768 - s.disabledCount)
        + 2 ^ 14 * s.gangCount))
    else if o = 0x804 ∨ o = 0x808 then some (s.fuse (25 + (o - 0x804) / 4))
    else if o = 0x80C then some (BitVec.ofNat 32 s.antiRollback)
    else if o = 0x810 then some (BitVec.ofNat 32 (fld (s.fuse 27) 0 4 + 2 ^ 8 * fld (s.fuse 46) 0 8))
    else if 0x840 ≤ o ∧ o < 0x860 then some (s.fuse (36 + (o - 0x840) / 4))
    else if 0x880 ≤ o ∧ o < 0x8E0 then some (s.fuse ((o - 0x880) / 4))
    else if 0x8E0 ≤ o ∧ o < 0x8F8 then some (flags32 (fun i => s.gangCapable (8 * (o - 0x8E0) + i)))
    else if 0x900 ≤ o then some (s.fuse (48 + (o - 0x900) / 4))
    else none
  else none

/-- NVJ. -/
def State.readNvj (s : State) (o : Nat) : Option Word32 :=
  if o = 0x810 then
    let prog := match s.nv.op with | some (.journal _ _) => true | _ => false
    let er := match s.nv.op with | some (.journalErase _) => true | _ => false
    some (BitVec.ofNat 32 (s.chk.staged.length % 8 + 8 * bnat s.journalFull + 16 * bnat prog + 32 * bnat er + 64 * bnat s.nvBlocked))
  else if o = 0x818 then some (BitVec.ofNat 32 s.journalPages)
  else if o = 0x910 then some (putFld (s.reg pNVJ 0x910) 0 1 (bnat s.nvCmdBusy))
  else none

/-- MGT: the level of a pin that the HJ2 drives; others have free levels (`freeBits`). -/
def State.readMgt (s : State) (r : Requester) (o : Nat) : Option Word32 :=
  if o = 0x850 then some (if r = .host then s.mgt.gpioHost else s.mgt.gpioMgmt)
  else if o = 0x858 then some (flags32 (fun i => decide (i < 16) && s.gpioDrive i == some true))
  else if o = 0x904 then some (putFld (s.reg pMGT 0x904) 0 1 (bnat s.mgt.trim.isSome))
  else none

/-- ERR: which block types and instances have an event pending. -/
def State.readErr (s : State) (o : Nat) : Option Word32 :=
  let pend (f : Nat × Nat → Bool) : Bool := s.pages.any (fun e =>
    (e.2.evt &&& e.2.evtEn) != 0 && (match pageInfo e.1 with | some x => f x | none => false))
  if o = 0x800 then some (flags32 (fun t => pend (fun x => x.1 == t)))
  else if 0x880 ≤ o ∧ o < 0x8E0 then
    let sel := fld (s.reg pERR 0x804) 0 5
    some (flags32 (fun i => pend (fun x => x.1 == sel && x.2 == 8 * (o - 0x880) + i)))
  else none

/-- CHK. -/
def State.readChk (s : State) (o : Nat) : Option Word32 :=
  if o = 0x800 then some 0
  else if o = 0x808 then
    some (BitVec.ofNat 32 (bnat s.journalFull + 2 * bnat s.ringLow + 4 * bnat s.genHalted + 8 * bnat (s.chk.devkey == some true)))
  else if o = 0x834 ∨ o = 0x838 then some (halfOf (s.job (fld (s.reg pCHK 0x830) 0 6)).rseq (o == 0x838))
  else none

/-- TIER. -/
def State.readTier (s : State) (o : Nat) : Option Word32 :=
  let sel := s.reg pTIER 0x840
  let ow := fld sel 0 7
  let cl := fld sel 8 4
  if o = 0x800 then some 0
  else if o = 0x844 then some (BitVec.ofNat 32 (s.qpool ow cl 0 + 2 ^ 8 * s.qpool ow cl 1 + 2 ^ 16 * s.qpool ow cl 2))
  else if o = 0x848 then some (BitVec.ofNat 32 (s.poolUsed ow cl 0 + 2 ^ 8 * s.poolUsed ow cl 1 + 2 ^ 16 * s.poolUsed ow cl 2))
  else if o = 0x84C then some (BitVec.ofNat 32 (s.qstack ow (fld sel 12 4)))
  else if o = 0x850 then some (BitVec.ofNat 32 (s.stackUsed ow (fld sel 12 4)))
  else if o = 0x864 then
    some (BitVec.ofNat 32 ((match s.tier.moving with | some m => m.recN % 2 ^ 15 | none => 0)
      + 2 ^ 16 * bnat s.tier.moving.isSome + 2 ^ 17 * bnat (!s.tier.moves.isEmpty)))
  else none

/-- CLX. -/
def State.readClx (s : State) (o : Nat) : Option Word32 :=
  if o = 0x800 then
    let run := (s.clx.colls.filter (fun c => c.phase == .data)).length
    some (BitVec.ofNat 32 (min 127 s.clx.colls.length + 2 ^ 7 * min 31 run + 2 ^ 16 * bnat (!s.clx.colls.isEmpty)))
  else none

/-- WPB. -/
def State.readWpb (s : State) (o : Nat) : Option Word32 :=
  if o = 0x800 then some 0
  else if o = 0x81C then
    some (putFld (s.reg pWPB 0x81C) 16 1 (bnat (s.wpb.publishing.isSome || s.wpb.asked.isSome)))
  else if o = 0x820 then some s.liveBanks
  else if 0x900 ≤ o ∧ o < 0xB00 then
    let m := (o - 0x900) / 0x20
    let k := o % 0x20
    if k = 0 then some (s.mdlStat m)
    else if k = 8 ∨ k = 0xC then some (halfOf (s.mdl m).a.version (k == 0xC))
    else if k = 0x10 ∨ k = 0x14 then some (halfOf (s.mdl m).b.version (k == 0x14))
    else if k = 0x18 then some (s.mdlMissing m)
    else none
  else if 0xB20 ≤ o ∧ o < 0xB40 then some (wordOf s.wpbDigest ((o - 0xB20) / 4))
  else none

/-- Is a weight-stream channel at work? -/
def State.hashing (s : State) : Bool := s.wpb.mdls.any (fun e => !e.2.staged.isEmpty)

/-- SIG: a signature under check; which of the eight weight-stream channels hash is not fixed (`freeBits`). -/
def State.readSig (s : State) (o : Nat) : Option Word32 :=
  if o = 0x800 then some (BitVec.ofNat 32 (2 ^ 9 * bnat (s.wpb.mdls.any (fun e => !e.2.checking.isEmpty)))) else none

/-- The code of an episode's state (R427). -/
def EpState.code : EpState → Nat
  | .ready => 1
  | .active => 2
  | .pausing => 3
  | .paused => 4
  | .ended => 5

/-- EPS_EP_STAT of an episode. -/
def Episode.stat (e : Episode) : Word32 :=
  BitVec.ofNat 32 (e.state.code + 2 ^ 3 * e.causes.toNat + 2 ^ 6 * e.fin.toNat + 2 ^ 8 * e.group.val
    + 2 ^ 16 * (match e.slot with | some k => k.val | none => 0) + 2 ^ 24 * e.ctx.val + 2 ^ 31)

/-- The live episodes. -/
def State.liveEpisodes (s : State) : List Episode := (s.eps.eps.filterMap (fun e => e.2)).filter (fun e => e.state != .ended)

/-- The window of a banked EPS register: the group or the tenant that it belongs to. -/
def State.epsBank (s : State) (o : Nat) : Option Nat :=
  if (0x200 ≤ o ∧ o < 0x224) ∨ (0x834 ≤ o ∧ o < 0x840) then some s.gSel
  else if 0x848 ≤ o ∧ o < 0x86C then some (fld (s.reg pEPS 0x840) 0 6)
  else none

/-- EPS. -/
def State.readEps (s : State) (o : Nat) : Option Word32 :=
  if o = 0x800 then some 0
  else if o = 0x828 then
    some (BitVec.ofNat 32 (s.liveEpisodes.length % 2 ^ 15) ||| (s.reg pEPS 0x828 &&& 0x10000)
      ||| BitVec.ofNat 32 (2 ^ 17 * bnat (decide (65536 ≤ s.eps.recq.length))))
  else if o = 0x834 then
    let g := s.egroup s.gSel
    some ((s.breg s.gSel pEPS 0x834 &&& 0xFFFF) ||| BitVec.ofNat 32
      (2 ^ 16 * ((g.slots.filter (fun e => e.2.isSome)).length % 512) + 2 ^ 31 * bnat g.flight.isSome))
  else if o = 0x868 then
    let t := fld (s.reg pEPS 0x840) 0 6
    some (BitVec.ofNat 32 (s.liveEpisodes.filter (fun e =>
      e.state == .paused && bit e.causes 2 && s.epsTenant e.ctx.val == t)).length)
  else if 0x888 ≤ o ∧ o < 0x898 then
    match s.findEpisode (s.reg pEPS 0x880) (BitVec.ofNat 16 (fld (s.reg pEPS 0x884) 0 16)) with
    | none => some 0
    | some (_, e) => some (if o = 0x888 then e.stat else if o = 0x890 then BitVec.ofNat 32 e.len else 0)
  else match s.epsBank o with
    | some n => some (s.breg n pEPS o)
    | none => none

/-- The code of an annealer channel's state. -/
def AnlState.code : AnlState → Nat
  | .idle => 0
  | .loading => 1
  | .running => 2
  | .finishing => 3

/-- ANL. -/
def State.readAnl (s : State) (o : Nat) : Option Word32 :=
  if o = 0x800 then some 0
  else if o = 0x808 then some (flags32 (fun i => (s.anlCh i).state != .idle))
  else if o = 0x80C then some (flags32 (fun i => (s.anlCh i).waiting))
  else if 0x900 ≤ o ∧ o < 0xB00 ∧ o % 16 = 0 then
    some (putFld (s.reg pANL o) 0 2 (s.anlCh ((o - 0x900) / 16)).state.code)
  else none

/-- Does a job wait for its Kitty window, or for its buckets, before it arrives (R495, R514)? -/
def State.trnWaits (s : State) (j : Nat) : Bool × Bool :=
  let t := s.trnJob j
  if !bit (s.trnCfg j) 31 ∨ !(s.ctx (s.trnCtx j)).begun ∨ t.haltAsk ∨ t.halted ∨ t.arrived then (false, false)
  else
    match (if s.trnCommand j then t.next else some (nextPhase (s.trnM j) t.cur)) with
    | none => (false, false)
    | some ph =>
      if ph.1 = .opt then (false, !t.settled)
      else
        let first := ph.1 == .fwd && (if s.trnCommand j then !t.stepBegun else ph.2 == 0)
        (first && s.trnKit j && (s.kitWindow j).1.isNone, false)

/-- TRN. -/
def State.readTrn (s : State) (o : Nat) : Option Word32 :=
  if o = 0xA00 then some 0
  else if 0x800 ≤ o ∧ o < 0xA00 ∧ o % 0x40 = 0 then
    let j := (o - 0x800) / 0x40
    let t := s.trnJob j
    let (kind, mb) := match t.cur with | some (k, m) => (k.code, if k = .opt then 0 else m) | none => (0, 0)
    let w := s.trnWaits j
    some (putFld (BitVec.ofNat 32 (kind + 4 * mb + 2 ^ 12 * bnat w.1 + 2 ^ 13 * bnat w.2 + 2 ^ 14 * bnat t.ckpt
      + 2 ^ 15 * bnat t.halted)) 16 16 (fld (s.reg pTRN o) 16 16))
  else none

/-- SCH. -/
def State.readSch (s : State) (o : Nat) : Option Word32 :=
  if o = 0x800 then some s.schStat
  else if o = 0x808 then some s.lockStat
  else if o = 0x80C ∨ o = 0x810 then some (halfOf s.lockExpiry (o == 0x810))
  else if o = 0x814 then some 0
  else if 0x820 ≤ o ∧ o < 0x840 then some (s.lockBits ((o - 0x820) / 4) false)
  else if 0x840 ≤ o ∧ o < 0x860 then some (s.lockBits ((o - 0x840) / 4) true)
  else none

/-- QUE. -/
def State.readQue (s : State) (q o : Nat) : Option Word32 :=
  if o = 0x810 then
    some (putFld (putFld (s.reg (pQUE q) 0x810) 8 8 (min 255 (s.que q).running.length)) 1 1 (bnat (!s.winValid)))
  else if o = 0x814 then some 0
  else none

/-- CTX. -/
def State.readCtx (s : State) (x : CtxId) (o : Nat) : Option Word32 :=
  if o = 0x800 then some (s.ctxStat x)
  else if o = 0x804 then some 0
  else if o = 0x894 ∨ o = 0x898 ∨ o = 0x89C then
    let m := sget (0, none) (s.ctx x).streams (fld (s.reg (pCTX x) 0x890) 0 6)
    some (if o = 0x894 then (match m.2 with | some c => BitVec.ofNat 32 (c.val + 2 ^ 8) | none => 0)
      else halfOf m.1 (o == 0x89C))
  else none

/-- The code of a fence's cause (CLU_FENCE_CAUSE). -/
def FenceCause.code : FenceCause → Nat
  | .selfTest => 1
  | .threshold => 2
  | .driver => 3

/-- CLU. -/
def State.readClu (s : State) (k o : Nat) : Option Word32 :=
  let slots (base : Nat) (f : Nat → Bool) : Word32 := flags32 (fun i => decide (base + i < 48) && f (48 * k + base + i))
  let u := s.clu k
  if o = 0x800 then some (slots 0 s.usable)
  else if o = 0x804 then some (slots 32 s.usable)
  else if o = 0x808 then some (slots 0 s.isFenced)
  else if o = 0x80C then some (slots 32 s.isFenced)
  else if 0x810 ≤ o ∧ o < 0x81C then
    some (BitVec.ofNat 32 (((List.range 16).map (fun i =>
      4 ^ i * (match (s.arr (48 * k + 4 * (o - 0x810) + i)).fenced with | some c => c.code | none => 0))).sum))
  else if o = 0x820 ∨ o = 0x824 then some 0
  else if o = 0x828 then
    some (match u.test with
      | none => s.reg (pCLU k) 0x828
      | some t => putFld (s.reg (pCLU k) 0x828) 8 2 (if t.running then 2 else 1))
  else if o = 0x82C then
    some (BitVec.ofNat 32 (bnat (s.retryAvail k) + 2 * bnat u.serving.isSome + 4 * min 63 u.retryQ.length
      + 2 ^ 8 * (match u.serving with | some j => (4 * j.core.val + j.quad.val) % 48 | none => 0)))
  else none

/-- MEM. -/
def State.readMem (s : State) (k o : Nat) : Option Word32 :=
  let g := s.stack k
  if o = 0x800 then
    some (BitVec.ofNat 32 (bnat g.ready + 2 * bnat g.selfRefresh + 4 * g.mult + 16 * bnat g.throttled
      + 2 ^ 8 * (g.temp % 256) + 2 ^ 16 * (g.tempMax % 256)))
  else if o = 0x804 then some (BitVec.ofNat 32 (g.gib % 256 + 2 ^ 8 * (g.height % 32) + 2 ^ 16 * g.vendor.toNat))
  else if o = 0x810 ∨ o = 0x814 then some (halfOf (BitVec.ofNat 64 g.scrubPos) (o == 0x814))
  else none

/-- The code of a link's state (LNK_STAT.STATE). -/
def LnkState.code : LnkState → Nat
  | .disabled => 0
  | .down => 1
  | .training => 2
  | .up => 3
  | .sleep => 4
  | .miswired => 5
  | .test => 6

/-- LNK. -/
def State.readLnk (s : State) (l o : Nat) : Option Word32 :=
  let k := s.link l
  if o = 0x800 then
    some (BitVec.ofNat 32 (k.state.code + 2 ^ 4 * lanesIn k.lanes + 2 ^ 8 * k.lanes.toNat + 2 ^ 12 * bnat k.recal.isSome
      + 2 ^ 13 * (match k.recal with | some n => n.val | none => 0) + 2 ^ 15 * bnat k.creditBad + 2 ^ 16 * bnat k.reversed
      + 2 ^ 17 * k.polarity.toNat))
  else if o = 0x810 then some 0
  else if o = 0x814 then some (putFld (s.reg (pLNK l) 0x814) 16 1 (bnat (k.cmd != 0)))
  else if o = 0x818 then some (BitVec.ofNat 32 (k.txSeq.toNat + 2 ^ 16 * k.rxSeq.toNat))
  else if o = 0x81C then
    some (BitVec.ofNat 32 ((k.retry.map (fun f => 32 + 64 * f.lines.toNat)).sum % 2 ^ 17 + 2 ^ 17 * k.retry.length))
  else if o = 0x820 ∨ o = 0x824 then
    let c := if o = 0x820 then k.txCredit else k.txCredit.drop 4
    some (BitVec.ofNat 32 (leNat ((c.take 4).map (fun n => BitVec.ofNat 8 n))))
  else none

/-- CORE_STAT. -/
def State.coreStat (s : State) (c : Nat) : Word32 :=
  let k := s.core c
  let on := k.ctx.isSome
  let froz := on && (k.emitWait.isSome || k.retrying != 0)
  BitVec.ofNat 32 (bnat (on && !k.parked && !k.th.halted) + 2 * bnat froz + 4 * bnat k.th.ganged + 8 * bnat (on && k.th.halted)
    + 2 ^ 4 * (match k.ctx with | some x => x.val | none => 0) + 2 ^ 10 * bnat on
    + 2 ^ 11 * ((List.range 4).map (fun q => 2 ^ q * bnat (s.usable (4 * c + q)))).sum)

/-- ARR_STAT. -/
def State.arrStat (s : State) (a : Nat) : Word32 :=
  let slice := match (s.clu (a / 48)).test with | some t => t.running && t.slot.val == a % 48 | none => false
  BitVec.ofNat 32 (bnat (s.core (a / 4)).th.ganged + 2 * bnat (s.inFlight a) + 4 * bnat (s.retryArr (a / 48) == some a)
    + 8 * bnat slice)

/-- A register of the operation and status area that shows its block's state. -/
def State.readStatus (s : State) (r : Requester) (p o : Nat) : Option Word32 :=
  match pageInfo p with
  | none => none
  | some (bt, i) =>
    match bt with
    | 0x00 => readDir o
    | 0x01 => s.readAon r o
    | 0x02 => s.readPwr o
    | 0x03 => s.readClk o
    | 0x04 => s.readFus o
    | 0x05 => s.readNvj o
    | 0x07 => s.readMgt r o
    | 0x08 => s.readErr o
    | 0x0B => s.readChk o
    | 0x0C => s.readTier o
    | 0x0E => s.readClx o
    | 0x0F => s.readWpb o
    | 0x10 => s.readSig o
    | 0x11 => s.readEps o
    | 0x13 => s.readAnl o
    | 0x14 => s.readTrn o
    | 0x15 => s.readSch o
    | 0x16 => s.readQue i o
    | 0x17 => s.readCtx (Fin.ofNat 64 i) o
    | 0x18 => s.readClu i o
    | 0x19 => s.readMem i o
    | 0x1A => if o = 0x800 then some 0 else none
    | 0x1B => s.readLnk i o
    | 0x1C => if o = 0x800 then some (s.coreStat i) else none
    | 0x1D => if o = 0x800 then some (s.arrStat i) else none
    | _ => none

/-- The bits of a register that the spec and the board leave open: the levels of pins that the HJ2 does not drive, and
which weight-stream channels hash (DESIGN CHOICE, log entry 5). -/
def State.freeBits (s : State) (p o : Nat) : Word32 :=
  if p = pMGT ∧ o = 0x858 then flags32 (fun i => decide (i < 16) && (s.gpioDrive i).isNone)
  else if p = pSIG ∧ o = 0x800 ∧ s.hashing then 0xFF
  else 0

/-- The live value of the register at page `p`, offset `o`: reserved offsets read 0 (R9). -/
def State.liveReg (s : State) (r : Requester) (p o : Nat) : Word32 :=
  if o < 0x100 then s.readHeader r p o
  else match s.readStatus r p o with
    | some v => v
    | none =>
      let bt := blockType p
      match regRow bt o with
      | none => 0
      | some _ => s.reg p o

/-! ### Reads (R32, R33, R37, R56) -/

/-- The 64-bit read latch of a requester on a page. -/
def Page.latch (g : Page) (r : Requester) : Option (Nat × Word32) := if r = .host then g.latchHost else g.latchMgmt

/-- Set the 64-bit read latch of a requester on a page. -/
def State.setLatch (s : State) (r : Requester) (p : Nat) (l : Option (Nat × Word32)) : State :=
  s.modPage p (fun g => if r = .host then { g with latchHost := l } else { g with latchMgmt := l })

/-- A read of the live register; the low word of a pair latches the high word (DEDUCED, log entry 60). -/
def State.plainRead (s : State) (r : Requester) (bt p o : Nat) (same : Option Word32) : State :=
  let m := s.freeBits p o
  let f := if m = 0 then 0 else s.freeVal
  let s := if m = 0 then s else s.usedFree
  let v := (s.liveReg r p o &&& ~~~m) ||| (BitVec.ofNat 32 f &&& m)
  let s := s.setRd r v
  match regRow bt o with
  | none => s
  | some row =>
    let s := if row.wide then s.setLatch r p (some (o, s.liveReg r p (o + 4))) else s
    if row.acc = .rc then s.setReg p o (same.getD 0) else s

/-- A read that has reached its page. `same` is a measurement made in the cycle of a read of an RC register: the read
returns the value before it, and the register ends holding it alone (R56). -/
def State.pageRead (s : State) (r : Requester) (p o : Nat) (same : Option Word32) : State :=
  let bt := blockType p
  if 0x800 ≤ o ∧ o < 0xF00 ∧ (s.page p).srst then s.setRd r (regReset p o)
  else match (s.page p).latch r with
    | some (lo, hi) =>
      if o = lo + 4 then (s.setLatch r p none).setRd r hi
      else s.plainRead r bt p o same
    | none => s.plainRead r bt p o same

/-- A register read as a requester makes it (R28 to R33, R51, R52): a misaligned one is a size error. -/
def State.busRead (s : State) (r : Requester) (off : Nat) (same : Option Word32) : State :=
  s.reach r off false (fun s =>
    if off % 4 ≠ 0 then (s.setRd r 0xFFFFFFFF).violation r (off / 4096) off true false
    else s.pageRead r (off / 4096) (off % 4096) same)

/-- LOW_WORD_READ (R33). -/
def execLowWordRead (r : Requester) (off : Bar0) (s : State) : Host.Outcome State Fault Refusal :=
  ok (s.busRead r off.toNat none)

/-- RC_READ (R56). -/
def execRcRead (r : Requester) (off : Bar0) (sameCycle : Option Word32) (s : State) : Host.Outcome State Fault Refusal :=
  ok (s.busRead r off.toNat sameCycle)

end Sys2Proof.Machine
end

