-- ==== Sys2Proof/Machine/SoftReset.lean ====
section
/-! DEFINITION. The soft reset of a page (02_register_pages.md R35 to R37): the operation and status area and the block's
state return to their reset values, and its operations under way are aborted. What that means for a block whose chapter
does not say is in DEDUCED, log entry 58. -/

namespace Sys2Proof.Machine

/-- Registers of the operation and status area that show a condition of the chip or of the board, or the scanned
journal, rather than a reset value: PCIe link state, straps, temperature, NVJ_HEAD and NVJ_TAIL, FUS, and the claim that
FATAL_OUT holds. -/
def State.keepsStatus (s : State) (bt o : Nat) : Bool :=
  (bt == 0x06 && o == 0x800) || (bt == 0x07 && (o == 0x800 || (o == 0x814 && s.mgt.fatalPin)))
    || (bt == 0x09 && o == 0x808) || (bt == 0x05 && decide (0x800 ≤ o) && decide (o < 0x810))

/-- The registers of the operation and status area of a page return to their reset values (R35). -/
def State.resetStatus (s : State) (p : Nat) : State :=
  let bt := blockType p
  { s with regs := s.regs.filter (fun e =>
      let o := e.1 % 4096
      !(e.1 / 4096 % 16384 == p && decide (0x800 ≤ o) && decide (o < 0xF00)) || s.keepsStatus bt o) }

/-- Every descriptor on a core retires ABORTED, and its program ends ABORTED. -/
def State.coreAbort (s : State) (c : CoreId) : State :=
  let s := (List.finRange 8).foldl (fun (s : State) (ch : Fin 8) => s.abortChan c ch ((s.core c).chan ch).queue.length) s
  match (s.core c).ctx with
  | some x => if (s.ctx x).loaded then s.stopContext x stABORTED else s
  | none => s

/-- The transport's held messages end ABORTED, and its watchdog channel is released. -/
def State.fabAbort (s : State) : State :=
  let s := s.fab.held.foldl (fun (s : State) h => s.complete h stABORTED) s
  let s : State := { s with fab := { mseq := s.fab.mseq, windows := s.fab.windows } }
  match s.hwTmr 0x81 with
  | some n => s.freeChannel n
  | none => s

/-- A block's operations are aborted, and its state returns to its reset value (R35). -/
def State.blockReset (s : State) (bt i : Nat) : State :=
  match bt with
  | 0x02 => { s with pw := { s.pw with wsets := [] } }
  | 0x05 => s
  | 0x07 => { s with mgt := { s.mgt with trim := none, gpioHost := 0, gpioMgmt := 0 } }
  | 0x0B => { s with chk := { s.chk with jobs := [], jwait := [], devkey := none, windows := 0, drops := 0 } }
  | 0x0C => { s with tier := {} }
  | 0x0D => s.fabAbort
  | 0x0E => { s.collAbortAll (fun _ => true) with clx := {} }
  | 0x0F => { s with wpb := {} }
  | 0x11 => { (List.range 128).foldl (fun (s : State) g => s.dropSpec g) s with eps := {} }
  | 0x13 => { (List.finRange 32).foldl (fun (s : State) (c : Fin 32) => s.anlAbort c) s with anl := {} }
  | 0x14 => { s with trn := [] }
  | 0x15 => { s with locks := (s.locks.filter (fun e => !e.2.waiters.isEmpty)).map (fun e => (e.1, { waiters := e.2.waiters })) }
  | 0x16 => s.queReset i
  | 0x17 => s.ctxKill (Fin.ofNat 64 i)
  | 0x18 => s.modClu i (fun u => { u with test := none })
  | 0x19 => s.modStack i (fun g => { g with scrubPos := 0 })
  | 0x1A => { s with mem := { s.mem with flushing := setBit s.mem.flushing i false } }
  | 0x1B => ((s.leaveUp (Fin.ofNat 16 i) .down).modLink i (fun k => { state := .down, signal := k.signal })).tryTrain i |>.pumpAll
  | 0x1C => s.coreAbort (Fin.ofNat 192 i)
  | 0x1D => s.abandon i
  | _ => s

/-- A soft reset starts; ignored on Directory and AON (R35, PG_CTL). -/
def State.softReset (s : State) (p : Nat) : State :=
  match pageInfo p with
  | none => s
  | some (bt, i) =>
    if bt ≤ 1 then s
    else ((s.blockReset bt i).resetStatus p).modPage p (fun g => { g with srst := true })

/-- A write of PG_CTL: EN, where it is not fixed, and SRST (R35). -/
def State.writeCtl (s : State) (p : Nat) (v : Word32) : State :=
  let s := s.modPage p (fun g => { g with en := bit v 0 })
  if bit v 1 then s.softReset p else s

/-- SRST (R35): a write of PG_CTL with SRST, EN as it stands. -/
def execSrst (r : Requester) (page : Fin 16384) (s : State) : Host.Outcome State Fault Refusal :=
  ok (s.write r page 0x10 (fun s => s.softReset page))

end Sys2Proof.Machine
end

