-- ==== Sys2Proof/Machine/Bus.lean ====
section
/-! DEFINITION. A register write of any offset (02_register_pages.md R28 to R50): the header, the registers whose write
does more than store a value, and the stored ones. The registers that have a row of their own in the command table are
reached through the same functions as those rows. -/

namespace Sys2Proof.Machine

/-! ### The header -/

/-- A write of a word of the header. Every write but the keys of PG_LOCK disarms (R45). -/
def State.writeHeader (s : State) (r : Requester) (p o : Nat) (v : Word32) : State :=
  if o = 0x2C ∧ v = 0x4C4F434B then s.lockArm r p
  else if o = 0x2C ∧ v = 0x00005EED then s.lockLock r p
  else
    let s := s.setArmed r p false
    match o with
    | 0x10 => s.writeCtl p v
    | 0x14 => s.statClear p v 0
    | 0x18 => s.modPage p (fun g => { g with evt := g.evt &&& ~~~v })
    | 0x1C => s.modPage p (fun g => { g with evtEn := v &&& 0xFFFF000F })
    | 0x28 => if (pageDomain p).isSome then s.modPage p (fun g => { g with allow := BitVec.ofNat 2 (fld v 2 2) }) else s
    | 0x2C => if (s.page p).locked then s.violation r p o false true else s
    | _ => s

/-! ### Registers whose write does more than store -/

/-- A write of NVJ_RD_OFF reads 64 bytes of the flash; outside its bounds what it reads is free (DESIGN CHOICE, log entry 5). -/
def State.nvjRead (s : State) (v : Word32) : State :=
  let s := s.store pNVJ 0x814 v
  let off := fld v 0 26
  let (bs, s) := if off % 64 = 0 ∧ 0x840000 ≤ off ∧ off + 64 ≤ s.nv.flashBytes then (s.flashRd off 64, s) else s.freeBytes 64
  (List.range 16).foldl (fun (s : State) i => s.setReg pNVJ (0x840 + 4 * i) (wordOf bs i)) s

/-- A write of NVJ_NV_CMD starts a command with START; another OP starts nothing, and its status is free (DESIGN CHOICE, log entry
27). -/
def State.nvCmdWrite (s : State) (v : Word32) : State :=
  let s := s.store pNVJ 0x900 v
  if !bit v 31 then s
  else match fld v 0 2 with
    | 1 => s.nvCmd false
    | 2 => s.nvCmd true
    | _ =>
      let (st, s) := s.openStatus
      s.setReg pNVJ 0x910 (BitVec.ofNat 32 (bnat s.nvCmdBusy + st.toNat * 2 ^ 16))

/-- The half of a 64-bit register that an offset names. -/
abbrev hiHalf (o lo : Nat) : Bool := o == lo + 4

/-- The effect of a write that has passed its page's gate. `go` is what a write of 1 to AON_RECOVERY_GO does. -/
def State.writeEffect (go : State → State) (s : State) (r : Requester) (p o : Nat) (v : Word32) : State :=
  match pageInfo p with
  | none => s
  | some (bt, i) =>
    match bt with
    | 0x01 =>
      if o = 0x8A8 then s.rstReq v
      else if o = 0x8B0 then s.wdogCtl r v
      else if o = 0x8B4 then s.wdogKick v
      else if o = 0x8BC then s.bootConfirm v
      else if o = 0x8C0 then (if v = 1 then go s else s)
      else if o = 0x908 ∨ o = 0x90C then s.ackWrite pAON 0x908 s.logHead (hiHalf o 0x908) v id
      else if o = 0x910 then s.logSel v
      else if o = 0x9F0 then s.tmrAlloc r v
      else if 0xA00 ≤ o ∧ o < 0xB00 then
        let n := (o - 0xA00) / 0x20
        let k := o % 0x20
        if k = 0 then s.tmrOwner r n v else if k ≤ 0x10 then s.tmrWrite r n k v else s
      else s.store p o v
    | 0x02 =>
      if o = 0x900 then s.pwrWake v
      else if o = 0x908 then s.wsetCmd v
      else if 0x980 ≤ o ∧ o < 0xA00 then s.wsetData ((o - 0x980) / 4) v
      else s.store p o v
    | 0x04 => if o = 0xA08 then s.fusProg v else s.store p o v
    | 0x05 =>
      if o = 0x808 ∨ o = 0x80C then s.nvjTail (hiHalf o 0x808) v
      else if o = 0x814 then s.nvjRead v
      else if o = 0x900 then s.nvCmdWrite v
      else s.store p o v
    | 0x06 => if o = 0x804 then s.bar2Win v else s.store p o v
    | 0x07 =>
      if 0x810 ≤ o ∧ o < 0x850 then s.gpioWrite r ((o - 0x810) / 4) v
      else if o = 0x854 then s.gpioOut r v
      else if o = 0x900 then s.pmbTrim v
      else s.store p o v
    | 0x0B =>
      if o = 0x100 then s.setMode v
      else if o = 0x800 then s.sealCmd v
      else if o = 0x818 ∨ o = 0x81C then s.ringTail (hiHalf o 0x818) v
      else s.store p o v
    | 0x0C =>
      if o = 0x800 then s.tierCmd v
      else if o = 0x844 then s.setQpool v
      else if o = 0x84C then s.setQstack v
      else s.store p o v
    | 0x0D => if o = 0x100 then s.setFabId v else if o = 0x108 then s.fabCfg v else s.store p o v
    | 0x0E => if 0x200 ≤ o ∧ o < 0x300 then s.groupRewrite (Fin.ofNat 64 ((o - 0x200) / 4)) v else s.store p o v
    | 0x0F =>
      if 0x200 ≤ o ∧ o < 0x400 ∧ o % 0x20 = 0 then s.mdlIdWrite ((o - 0x200) / 0x20) v
      else if o = 0x800 then s.wpbCmd v
      else s.store p o v
    | 0x11 =>
      if o = 0x10C then s.epsPeriod v
      else if o = 0x200 then s.groupCfg s.gSel v
      else if o = 0x800 then s.epsCmd v
      else if o = 0x878 ∨ o = 0x87C then s.ackWrite pEPS 0x878 (s.reg64 pEPS 0x870) (hiHalf o 0x878) v id
      else match s.epsBank o, regRow 0x11 o with
        | some n, some row =>
          if row.acc = .ro then s else s.setBreg n pEPS o (v &&& BitVec.ofNat 32 row.mask)
        | _, _ => s.store p o v
    | 0x12 =>
      if 0x800 ≤ o ∧ o < 0xA00 ∧ (o % 0x20 = 8 ∨ o % 0x20 = 0xC) then
        let t := 0x808 + 0x20 * ((o - 0x800) / 0x20)
        s.ackWrite pKIT t (s.reg64 pKIT (t - 8)) (hiHalf o t) v (fun s => s.inc pKIT 0xF18)
      else s.store p o v
    | 0x13 =>
      if 0x200 ≤ o ∧ o < 0x400 ∧ o % 0x10 = 0 then s.anlConfig (Fin.ofNat 32 ((o - 0x200) / 0x10)) v
      else if o = 0x800 then s.anlCmd v
      else s.store p o v
    | 0x14 =>
      if 0x100 ≤ o ∧ o < 0x300 ∧ o % 0x40 = 0 then s.trnEnable (Fin.ofNat 8 ((o - 0x100) / 0x40)) v
      else if o = 0xA00 then s.trnCmd v
      else s.store p o v
    | 0x15 => if o = 0x100 then s.schMode v else if o = 0x814 then s.lockCmd v else s.store p o v
    | 0x16 =>
      if o = 0x800 then s.doorbell i v
      else if o = 0x814 then (if bit v 0 then s.queResume i else s)
      else s.store p o v
    | 0x17 =>
      if o = 0x100 then s.ctxCfg (Fin.ofNat 64 i) v
      else if o = 0x804 then (if bit v 0 then s.ctxKill (Fin.ofNat 64 i) else s)
      else s.store p o v
    | 0x18 => if o = 0x820 then s.fenceCmd i v else if o = 0x824 then s.selftestCmd i v else s.store p o v
    | 0x1A => if o = 0x800 then s.hccFlush i v else s.store p o v
    | 0x1B =>
      if o = 0x100 then s.lnkCfg (Fin.ofNat 16 i) v
      else if o = 0x810 then s.lnkCmd (Fin.ofNat 16 i) (fld v 0 3)
      else s.store p o v
    | _ => s.store p o v

/-- A register write as a requester makes it; a misaligned one is a size error (R28 to R52) (DEDUCED, log entry 59). -/
def State.busWriteWith (go : State → State) (s : State) (r : Requester) (off : Nat) (v : Word32) : State :=
  let p := off / 4096
  let o := off % 4096
  s.reach r off true (fun s =>
    if off % 4 ≠ 0 then s.violation r p off true true
    else if o < 0x100 then s.writeHeader r p o v
    else s.regGate r p o (fun s => s.writeEffect go r p o v))

end Sys2Proof.Machine
end

