-- ==== Sys2Proof/Machine/Boot.lean ====
section
/-! DEFINITION. The boot sequence from reset release to READY (04_reset_boot.md R96, R100 to R118), recovery (R109), and
the commands that make whole register accesses: REGISTER_WRITE, and REG_READ and REG_WRITE over SMBus
(21_host_management.md R614). One command takes boot from release to READY, to recovery or to the step that fails. -/

namespace Sys2Proof.Machine

/-! ### Boot stages (R103) -/

/-- The step that boot has reached. -/
def State.bootStep (s : State) : Nat := fld (s.reg pAON 0x890) 0 8

/-- Boot reaches a step. -/
def State.setStep (s : State) (n : Nat) : State := s.setReg pAON 0x890 (putFld (s.reg pAON 0x890) 0 8 n)

/-- Boot stops at a step with a status (R103). -/
def State.bootFail (s : State) (step status : Nat) : State :=
  ((s.setStep step).setReg pAON 0x890
    (setBit (putFld (putFld (s.reg pAON 0x890) 0 8 step) 8 8 status) 17 true)).raise pAON 27

/-- A domain is powered by boot. -/
def State.bootOn (s : State) (d : Nat) : State :=
  if s.domOn d then s else (s.modDom d (fun g => { g with waking := true })).wakeDone d 0

/-! ### Step 3: fuses (R117, R118) -/

/-- Does the array map agree with the fused grade: at most one array disabled in a core, the count of word 24, and the
grade's row under 00_scope.md R2? -/
def State.fusesOk (s : State) : Bool :=
  let (en, gang) := match fld (s.fuse 24) 0 2 with
    | 0 => (768, 192)
    | 1 => (736, 160)
    | 2 => (704, 128)
    | _ => (769, 0)
  (List.range 192).all (fun c => decide (((List.range 4).filter (fun q => s.fusedOff (4 * c + q))).length ≤ 1))
    && fld (s.fuse 24) 2 8 == s.disabledCount && decide (en ≤ 768 - s.disabledCount) && decide (gang ≤ s.gangCount)

/-! ### Step 5: images (R104 to R108) -/

/-- Bytes of an image where it stands: in the flash. -/
def State.imageRd (s : State) (i : Nat) (a n : Nat) : List Byte := s.flashRd (0x400000 * i + a) n

/-- Is an image eligible (R106)? `rd` reads its bytes (DESIGN CHOICE, log entry 70). -/
def State.imageOk (s : State) (rd : Nat → Nat → List Byte) : Bool :=
  let h := rd 0 0xA0
  let len := lef h 0x10 4
  let key := lef h 0x14 1
  lef h 0 4 == 0x48465732 && decide (len ≤ 0x400000 - 0x100) && decide (key < 4) && !bit (s.fuse 27) key
    && edVerify (Config.romKey key) (h.take 0x60) (slice h 0x60 64)
    && sha256 (rd 0x100 len) == slice h 0x40 32 && decide (s.antiRollback ≤ lef h 8 4)

/-- The image that ROM starts: 0 A, 1 B (R107); none when no eligible image has tries left. -/
def State.chooseImage (s : State) : Option (Fin 2) :=
  let el := (List.finRange 2).filter (fun i => s.imageOk (s.imageRd i.val))
  let fresh := el.filter (fun i => decide (s.tries i.val < 3))
  match el with
  | [0, 1] =>
    let seq (i : Nat) : Nat := lef (s.imageRd i 4 4) 0 4
    let best : Fin 2 := if seq 0 < seq 1 then 1 else 0
    if fresh.contains best then some best else fresh.head?
  | _ => fresh.head?

/-- An image runs: AON_FW_VERSION and AON_FW_SVN show its BUILD and SVN. -/
def State.runImage (s : State) (rd : Nat → Nat → List Byte) (i : Option (Fin 2)) : State :=
  let h := rd 0 0xA0
  let s := (s.setReg pAON 0x898 (BitVec.ofNat 32 (lef h 0xC 4))).setReg pAON 0x89C (BitVec.ofNat 32 (lef h 8 4 % 128))
  let st := putFld (s.reg pAON 0x890) 18 1 (match i with | some k => k.val | none => 0)
  { s.setReg pAON 0x890 st with nv := { s.nv with image := i, confirmed := false } }

/-! ### Step 6: NV configuration and PLLs (R112) -/

/-- The entries of a valid copy of the NV configuration, with its SEQ. -/
def State.nvCopy (s : State) (a : Nat) : Option (Nat × List (Nat × Word32)) :=
  let h := s.flashRd a 16
  let n := lef h 8 4
  if lef h 0 4 ≠ 0x4E564346 ∨ 8190 < n then none
  else
    let bs := s.flashRd (a + 16) (8 * n)
    if lef h 12 4 ≠ crc32 bs then none
    else some (lef h 4 4, (List.range n).map (fun i => (lef bs (8 * i) 4, BitVec.ofNat 32 (lef bs (8 * i + 4) 4))))

/-- The entries that firmware applies: those of the valid copy with the higher SEQ. -/
def State.nvEntries (s : State) : List (Nat × Word32) :=
  match s.nvCopy 0x820000, s.nvCopy 0x830000 with
  | some a, some b => if a.1 < b.1 then b.2 else a.2
  | some a, none => a.2
  | none, some b => b.2
  | none, none => []

/-- Apply the entries in order, as writes by management; one that resets the chip ends the boot. -/
def State.applyNv (s : State) : State :=
  s.nvEntries.foldl (fun (s : State) e => if s.bootStep = 0 then s else s.busWriteWith id .mgmt (e.1 % 0x4000000) e.2) s

/-- SCLK, FCLK and the eight MCLK PLLs run and lock. -/
def State.bootPlls (s : State) : State :=
  let s : State := { s with pw := { s.pw with pllRun := s.pw.pllRun ||| chipPlls, pllLock := s.pw.pllLock ||| chipPlls } }
  s.inc pCLK 0xF08 10

/-! ### Step 7: stacks (R96, R115, R116, R251, R266) -/

/-- Is a stack a 96 GiB, 16-high HBM4 stack at 12.8 Gb/s? -/
def StackInfo.ok (g : StackInfo) : Bool := g.gib == 96 && g.height == 16 && g.gbpsTimes10 == 128

/-- The settings that a stack restores: the newer valid record, if it is of this stack and within 20 °C. -/
def State.restores (s : State) (k : Nat) (g : StackInfo) : Bool :=
  match s.trainNewest k with
  | some (_, _, vendor, temp, _) => vendor == g.vendor.toNat && decide (g.temp ≤ temp + 20) && decide (temp ≤ g.temp + 20)
  | none => false

/-- A stack is restored or trained, or fails: AON_MEM_READY; a full training leaves its record due (R116). -/
def State.trainStack (s : State) (k : Nat) (g : StackInfo) : State :=
  let r := s.reg pAON 0x8A0
  let hbm : Hbm := { temp := g.temp, tempMax := g.temp, mult := multAfter 0 g.temp, gib := g.gib, height := g.height,
                     vendor := g.vendor }
  if 105 ≤ g.temp then s.setReg pAON 0x8A0 (setBit r (16 + k) true)
  else if s.restores k g then
    (s.setReg pAON 0x8A0 (setBit r (8 + k) true)).modStack k (fun _ => { hbm with ready := true })
  else if g.trainOk then
    let s := (s.setReg pAON 0x8A0 (setBit r k true)).modStack k (fun _ => { hbm with ready := true })
    { s with nv := { s.nv with trainDue := s.nv.trainDue ++ [(k, leBytes 2 g.temp ++ g.settings)] } }
  else s.setReg pAON 0x8A0 (setBit r (16 + k) true)

/-- Every byte of every stack is zero (R96). -/
def State.zeroMemory (s : State) : State := { s with mem := { s.mem with bytes := [], poison := [], hcc := [] } }

/-! ### Steps 7′ to 9 -/

/-- The links that came up within the wait, and those that are absent (AON_LINK_READY). -/
def State.bootLinks (s : State) (up : BitVec 16) : State :=
  let s := (List.finRange 16).foldl (fun (s : State) (l : LinkId) =>
    if s.lnkEn l ∧ up.getLsbD l then
      let s := s.modLink l (fun k => { k with signal := true })
      s.tryTrain l
    else s.tryTrain l) s
  let ready : Nat → Bool := fun l => s.lnkEn l && up.getLsbD l
  s.setReg pAON 0x8A4 (flags32 (fun i => if i < 16 then ready i else s.lnkEn (i - 16) && !ready (i - 16)))

/-- The self-test of every enabled array: one that fails is fenced (DEDUCED, log entry 71). -/
def State.bootTests (s : State) (fails : List ArrId) : State :=
  let s := (List.range 768).foldl (fun (s : State) a => if s.fusedOff a then s else s.inc (pCLU (a / 48)) 0xF10) s
  fails.foldl (fun (s : State) (a : ArrId) => if s.fusedOff a then s else s.fence a .selfTest) s

/-- Journal pages with a valid entry: page, lowest and highest JSEQ (R563). -/
def State.scanPages (s : State) : List (Nat × Nat × Nat) :=
  let ps := (((s.nv.flash.map (fun e => e.1)).filter (fun a => decide (journalBase ≤ a))).map
    (fun a => (a - journalBase) / 256)).eraseDups
  ps.filterMap (fun p =>
    let js := ((List.range 4).map (fun i => s.flashRd (journalOff p + 64 * i) 64)).filter journalValid |>.map (fun e => lef e 8 8)
    match js with
    | [] => none
    | j :: rest => some (p, rest.foldl min j, rest.foldl max j))

/-- The first blank page of the journal from `p` on, going round. -/
def State.blankFrom (s : State) (p : Nat) : Nat → Nat
  | 0 => p
  | n + 1 => if s.flashBlank (journalOff p) then p else s.blankFrom ((p + 1) % max 1 s.journalPages) n

/-- The scan of the journal after a reset, and the BOOT entry (R563). -/
def State.scanJournal (s : State) : State :=
  let ps := s.scanPages
  let hi := ps.foldl (fun m p => max m p.2.2) 0
  let lo := ps.foldl (fun m p => min m p.2.1) (if ps.isEmpty then 1 else hi)
  let top := ((ps.find? (fun p => p.2.2 == hi)).map (fun p => p.1 + 1)).getD 0
  let s := (s.setReg64 pNVJ 0x800 (BitVec.ofNat 64 (hi + 1))).setReg64 pNVJ 0x808 (BitVec.ofNat 64 lo)
  let s : State := { s with chk := { s.chk with
    pages := ps, nextJseq := BitVec.ofNat 64 (hi + 1)
    nextPage := s.blankFrom (top % max 1 s.journalPages) ps.length } }
  s.stageEntry 3 0 (leBytes 4 (s.reg pAON 0x880).toNat) none

/-- READY (R100): AON_BOOT_TIME, and PG_EVT[26]. -/
def State.bootReady (s : State) (ticks : Nat) : State :=
  let s : State := { s with pw := { s.pw with aonTime := s.pw.aonTime + BitVec.ofNat 48 ticks } }
  let s := (s.setStep 9).setReg pAON 0x894 (BitVec.ofNat 32 ticks)
  (s.setReg pAON 0x890 (setBit (s.reg pAON 0x890) 16 true)).raise pAON 26

/-! ### The sequence -/

/-- Steps 6 to 9, once an image runs. -/
def State.bootRest (s : State) (env : BootEnv) : State :=
  let s := (s.setStep 6).applyNv
  if s.bootStep = 0 then s
  else
    let s := s.bootPlls.setStep 7
    let s := (List.range 8).foldl (fun (s : State) k => (s.bootOn (dPhy k)).bootOn (dMem k)) s
    if env.stackInfos.length ≠ 8 ∨ !env.stackInfos.all StackInfo.ok then s.bootFail 7 4
    else
      let s := env.stackInfos.zipIdx.foldl (fun (s : State) e => s.trainStack e.2 e.1) s
      if fld (s.reg pAON 0x8A0) 16 8 ≠ 0 then s.bootFail 7 5
      else
        let s := s.zeroMemory.bootLinks env.linksUp
        (((s.setStep 8).bootTests env.selfTestFails).scanJournal).bootReady env.ticksToReady.toNat

/-- No image can run: ROM recovery, with the shared domain of cluster 0 powered (R107, R109). -/
def State.enterRecovery (s : State) : State :=
  let s := (s.bootFail 5 3).bootOn (dClu 0)
  s.setReg pAON 0x890 (setBit (s.reg pAON 0x890) 19 true)

/-- Steps 1 to 5, and what follows (DESIGN CHOICE, log entry 69). -/
def State.boot (s : State) (env : BootEnv) : State :=
  let s : State := { s with nv := { s.nv with
    env := some env, sensed := true, fuseCorr := env.fuseCorrected } }
  if env.fuseVoteFailed ∨ !s.fusesOk then s.bootFail 3 1
  else
    let s := (s.setStep 4).pcieUp
    if !env.sfdpOk ∨ !env.sfdpErase4k ∨ !env.sfdpAddr4 then s.bootFail 5 2
    else
      let s := ({ s with nv := { s.nv with flashBytes := env.flashBytes } }).setReg pAON 0x818 env.tProgUs
      match s.chooseImage with
      | none => s.enterRecovery
      | some i => ((s.setStep 5).runImage (s.imageRd i.val) (some i)).bootRest env

/-- RESET_RELEASE (R100): boot begins from a reset, and once for each. -/
def execResetRelease (env : BootEnv) (s : State) : Host.Outcome State Fault Refusal :=
  ok (if s.bootStep = 0 then s.boot env else s)

/-- AON_RECOVERY_GO with 1 (R109): the image at BAR2 offset 0 is verified and run; one that is not eligible leaves ROM in
recovery. -/
def State.recoveryGo (s : State) : State :=
  if !s.recovering then s
  else
    let rd (a n : Nat) : List Byte := sgets 0 s.mem.pool a n
    match s.nv.env with
    | none => s
    | some env =>
      if !s.imageOk rd then s
      else
        let s := s.setReg pAON 0x890 (putFld (putFld (setBit (s.reg pAON 0x890) 17 false) 8 8 0) 19 1 0)
        (s.runImage rd none).bootRest env

/-- AON_RECOVERY_GO (R109). -/
def execAonRecoveryGo (r : Requester) (v : Word32) (s : State) : Host.Outcome State Fault Refusal :=
  ok (s.write r pAON 0x8C0 (fun s => if v = 1 then s.recoveryGo else s))

/-! ### Whole register accesses -/

/-- A register write of any offset. -/
def State.busWrite (s : State) (r : Requester) (off : Nat) (v : Word32) : State := s.busWriteWith State.recoveryGo r off v

/-- REGISTER_WRITE (R32): a poisoned write to BAR0 is dropped and counted (R596). -/
def execRegisterWrite (r : Requester) (off : Bar0) (v : Word32) (ep : Bool) (s : State) : Host.Outcome State Fault Refusal :=
  ok (if ep then (if s.mgt.d3 then s else s.inc pHIF 0xF20) else s.busWrite r off.toNat v)

/-- REG_READ (R614): a management read; STATUS and value (DESIGN CHOICE, log entry 62). -/
def execRegRead (off : Word32) (pec : Pec) (s : State) : Host.Outcome State Fault Refusal :=
  ok (s.smbPec pec false (fun s =>
    if off.toNat % 4 ≠ 0 ∨ 0x4000000 ≤ off.toNat then
      let (bs, s) := s.freeBytes 4
      (s.emitOut (.smbus (leBytes 2 stDESC_INVALID.toNat ++ bs))).smbServed 0x01 stDESC_INVALID
    else
      let s := s.busRead .mgmt off.toNat none
      (s.emitOut (.smbus (leBytes 2 stOK.toNat ++ leBytes 4 s.rdMgmt.toNat))).smbServed 0x01 stOK))

/-- REG_WRITE (R614): a management write. -/
def execRegWrite (off v : Word32) (pec : Pec) (s : State) : Host.Outcome State Fault Refusal :=
  ok (s.smbPec pec true (fun s =>
    if off.toNat % 4 ≠ 0 ∨ 0x4000000 ≤ off.toNat then s.smbServed 0x02 stDESC_INVALID
    else (s.busWrite .mgmt off.toNat v).smbServed 0x02 stOK))

end Sys2Proof.Machine
end

