-- ==== Sys2Proof/Machine/Sync.lean ====
section
/-! DEFINITION. Synchronisation instructions that end at once (06_hj1_baseline.md R173, R176, R177;
07_hj2_contract.md R209), and the sentinel's sweep (R217). -/

namespace Sys2Proof.Machine

/-- Every scratch write in flight becomes visible (R176). -/
def Core.fenceScratch (k : Core) : Core :=
  let w (l : Landing) : Bool := match l.val with | .scratch .. => true | _ => false
  let due := k.th.lands.filter w
  due.foldl Core.land { k with th := { k.th with lands := k.th.lands.filter (fun l => !w l) } }

/-- FENCE (R176): the next instruction issues at 3 (R216). -/
def execFence (o : YOp) (s : State) : Host.Outcome State Fault Refusal :=
  ok (issue o.core (encY 0x66 o) (fun _ _ _ => .go { busy := 3, onCore := Core.fenceScratch }) s)

/-- HALT (R177): the core issues nothing more, and what it has issued lands. -/
def execHalt (o : YOp) (s : State) : Host.Outcome State Fault Refusal :=
  ok (issue o.core (encY 0x67 o) (fun _ _ _ =>
    .go { onCore := fun k => { k with th := { k.th with halted := true } }
          onState := fun s => (s.setReg (pCORE o.core) 0x804 0).modCore o.core Core.drain }) s)

/-- TRAP: traps with SW_TRAP; the code is recorded in INFO above the PC (R173, R571). -/
def execTrap (o : YOp) (s : State) : Host.Outcome State Fault Refusal :=
  ok (issue o.core (encY 0x68 o) (fun _ _ _ => .trap stSW_TRAP (fld o.imm 0 16 * 2 ^ 32)) s)

/-- Cycles until every result in flight has landed (R209). -/
def Core.longest (k : Core) : Nat :=
  let t := k.th.cyc
  let a := k.th.lands.foldl (fun m l => max m (l.cyc - t)) 0
  k.passes.foldl (fun m p => max m (p.cyc + p.lat - t)) a

/-- YIELD (R209): it holds issue until every result has landed; with a pre-emption pending the core then passes to
the scheduler. -/
def execYield (o : YOp) (s : State) : Host.Outcome State Fault Refusal :=
  ok (issue o.core (encY 0x6A o) (fun s x k =>
    let pass := (s.ctx x).state == .preempting
    .go { busy := 1 + k.longest
          onCore := fun k => if pass then { k with th := { k.th with wait := some .yield } } else k }) s)

/-- SENTINEL_SWEEP: one frozen CCLK for every 20 unfrozen (R217). -/
def execSentinelSweep (c : CoreId) (s : State) : Host.Outcome State Fault Refusal :=
  ok (
    let k := s.core c
    if k.th.sentinel ∧ k.ctx.isSome ∧ !k.parked ∧ !k.th.halted ∧ 20 * (k.th.sweeps + 1) ≤ k.th.cyc then
      ((s.frozen c 1).inc (pCORE c) 0xF38).modCore c (fun k => { k with th := { k.th with sweeps := k.th.sweeps + 1 } })
    else s)

end Sys2Proof.Machine
end

