-- ==== Sys2Proof/Machine/Wake.lean ====
section
/-! DEFINITION. The fire of an AON timer channel with what its owner does (03_power_clocks.md R80, R82), and what passes
with one AON cycle (R59, R78): the timestamp, and the counters of AON ticks (DESIGN CHOICE, log entries 2 and 9). -/

namespace Sys2Proof.Machine

/-! ### Timers -/

/-- What a hardware owner does when its channel fires: lock leases (18_sharing.md R536), the refill of budgets
(15_episodes.md R452), the device watchdog (04_reset_boot.md R93). -/
def State.ownerFires (s : State) (code : Nat) : State :=
  if code = 0x80 then s.lapseLeases
  else if code = 0x82 then s.refill
  else if code = 0x83 then s.chipReset 4 0
  else s

/-- TIMER_FIRE (R80): a channel of TIMER_OUT pulses its pin, one of four (21_host_management.md R621). -/
def execTimerFire (n : Fin 8) (s : State) : Host.Outcome State Fault Refusal :=
  ok (if !s.tmrDue n then s
    else
      let owner := s.claimOf n
      let code := (s.tmr n 0).toNat
      let s := s.tmrFire n
      let pin := s.gpio (4 + n.val)
      let s := if n.val < 4 ∧ fld pin 0 8 ≠ 0 ∧ fld pin 8 3 = 7 then s.emitOut (.timerOut n) else s
      if owner = some .hw then s.ownerFires code else s)

/-! ### One AON cycle -/

/-- Add `n` to a 64-bit counter when a condition holds. -/
def State.incIf (s : State) (b : Bool) (p o : Nat) (n : Nat := 1) : State := if b ∧ n ≠ 0 then s.inc p o n else s

/-- The accounts of a context in one AON tick (18_sharing.md R538, R539). -/
def State.ctxTick (s : State) (x : CtxId) : State :=
  if !s.ctxValid x then s
  else
    let g := s.ctx x
    let q := fld (s.reg (pCTX x) 0x100) 8 6
    let held := !(s.que q).fetched.isEmpty || s.reg (pQUE q) 0x800 != s.reg (pQUE q) 0x804
    let ready := g.state == .ready
    let runs := g.state == .running || g.state == .preempting
    let s := (s.incIf (held || ready) (pCTX x) 0xF00).incIf runs (pCTX x) 0xF08
    if ready ∨ runs then s.modCtx x (fun g => { g with wQ := g.wQ + bnat ready, wD := g.wD + bnat runs }) else s

/-- Does fetching of a queue wait for a CQ slot (21_host_management.md R601)? -/
def State.cqWaits (s : State) (q : Nat) : Bool :=
  let head := s.reg (pQUE q) 0x804
  bit (s.reg (pQUE q) 0x110) 31 && s.dmaOn && s.winValid && !bit (s.reg (pQUE q) 0x810) 0 && head != s.reg (pQUE q) 0x800
    && decide (s.queSize q ≤ (head - s.reg (pQUE q) 0x80C).toNat)

/-- The counters of AON ticks (DESIGN CHOICE, log entry 130). -/
def State.tickCounters (s : State) : State :=
  let s := (s.incIf (s.thrStage == 1) pTEL 0xF00).incIf (s.thrStage == 2) pTEL 0xF08
  let s := s.mem.hbms.foldl (fun (s : State) e =>
    (s.incIf (e.2.mult == 1) (pMEM e.1) 0xF48).incIf (e.2.mult == 2) (pMEM e.1) 0xF50) s
  let s := s.links.foldl (fun (s : State) e =>
    s.incIf (e.2.state == .up && decide (lanesIn e.2.lanes < 4)) (pLNK e.1) 0xF70) s
  let s := (List.range 64).foldl (fun (s : State) q => s.incIf (s.cqWaits q) (pQUE q) 0xF18) s
  let s := (List.finRange 64).foldl (fun (s : State) (x : CtxId) => s.ctxTick x) s
  let s := (s.incIf s.genHalted pCHK 0xF28).incIf (s.journalFull && s.booted) pNVJ 0xF28
  s.trn.foldl (fun (s : State) e =>
    let held := (e.2.buckets.filter (fun b => b.2.running)).length
    (s.incIf (held != 0) pTRN 0xF18 held).incIf (s.trnWaits e.1).1 pTRN 0xF48) s

/-- One AON cycle passes. -/
def State.clockTick (s : State) : State := s.tickCounters.tick

end Sys2Proof.Machine
end

