-- ==== Sys2Proof/Machine/Dispatch.lean ====
section
/-! DEFINITION. The meaning of each command: one arm per row of the command table. -/

namespace Sys2Proof.Machine

def exec (i : Instr) (s : State) : Host.Outcome State Fault Refusal :=
  match i with
  | .registerWrite r off v ep => Sys2Proof.Machine.execRegisterWrite r off v ep s
  | .sizeErr r off write => Sys2Proof.Machine.execSizeErr r off write s
  | .unpopulatedAccess r off write => Sys2Proof.Machine.execUnpopulatedAccess r off write s
  | .offAccess r off write => Sys2Proof.Machine.execOffAccess r off write s
  | .lowWordRead r off => Sys2Proof.Machine.execLowWordRead r off s
  | .rcRead r off sameCycle => Sys2Proof.Machine.execRcRead r off sameCycle s
  | .pgStatClear r page v hwSet => Sys2Proof.Machine.execPgStatClear r page v hwSet s
  | .srst r page => Sys2Proof.Machine.execSrst r page s
  | .softResetEnd page => Sys2Proof.Machine.execSoftResetEnd page s
  | .pgLockArm r page => Sys2Proof.Machine.execPgLockArm r page s
  | .pgLockLock r page => Sys2Proof.Machine.execPgLockLock r page s
  | .pllLock p => Sys2Proof.Machine.execPllLock p s
  | .pllUnlock p => Sys2Proof.Machine.execPllUnlock p s
  | .slowclkLost => Sys2Proof.Machine.execSlowclkLost s
  | .refclkLost => Sys2Proof.Machine.execRefclkLost s
  | .slowclkSwitch => Sys2Proof.Machine.execSlowclkSwitch s
  | .clockGateEntry d => Sys2Proof.Machine.execClockGateEntry d s
  | .deepHystExpiry d => Sys2Proof.Machine.execDeepHystExpiry d s
  | .domainSleepDone d => Sys2Proof.Machine.execDomainSleepDone d s
  | .domainWake src => Sys2Proof.Machine.execDomainWake src s
  | .domainWakeDone d sclk => Sys2Proof.Machine.execDomainWakeDone d sclk s
  | .pwrWakeHold r v => Sys2Proof.Machine.execPwrWakeHold r v s
  | .pwrHoldRelease r v => Sys2Proof.Machine.execPwrHoldRelease r v s
  | .wsetWake r => Sys2Proof.Machine.execWsetWake r s
  | .wsetClear r => Sys2Proof.Machine.execWsetClear r s
  | .deepEntry => Sys2Proof.Machine.execDeepEntry s
  | .deepExit => Sys2Proof.Machine.execDeepExit s
  | .timerFire n => Sys2Proof.Machine.execTimerFire n s
  | .timerClaim r n v => Sys2Proof.Machine.execTimerClaim r n v s
  | .timerRelease r n => Sys2Proof.Machine.execTimerRelease r n s
  | .aonTmrAlloc r v => Sys2Proof.Machine.execAonTmrAlloc r v s
  | .supplyWarnAssert src => Sys2Proof.Machine.execSupplyWarnAssert src s
  | .supplyWarnClear src => Sys2Proof.Machine.execSupplyWarnClear src s
  | .nvOpDone readback => Sys2Proof.Machine.execNvOpDone readback s
  | .powerOnReset strap => Sys2Proof.Machine.execPowerOnReset strap s
  | .sagReset rails => Sys2Proof.Machine.execSagReset rails s
  | .perstReset atLeastOneUs => Sys2Proof.Machine.execPerstReset atLeastOneUs s
  | .aonRstReq r v => Sys2Proof.Machine.execAonRstReq r v s
  | .fatalReset => Sys2Proof.Machine.execFatalReset s
  | .aonWdogCtl r v => Sys2Proof.Machine.execAonWdogCtl r v s
  | .aonWdogKick r v => Sys2Proof.Machine.execAonWdogKick r v s
  | .resetRelease env => Sys2Proof.Machine.execResetRelease env s
  | .aonBootConfirm r v => Sys2Proof.Machine.execAonBootConfirm r v s
  | .aonRecoveryGo r v => Sys2Proof.Machine.execAonRecoveryGo r v s
  | .trainingRecordWrite stack => Sys2Proof.Machine.execTrainingRecordWrite stack s
  | .fusProgCmd r v => Sys2Proof.Machine.execFusProgCmd r v s
  | .passVerdict a faults ecc => Sys2Proof.Machine.execPassVerdict a faults ecc s
  | .retryStart cl => Sys2Proof.Machine.execRetryStart cl s
  | .retryComplete cl faults ecc freeze => Sys2Proof.Machine.execRetryComplete cl faults ecc freeze s
  | .cluFence r cl v => Sys2Proof.Machine.execCluFence r cl v s
  | .cluUnfence r cl v => Sys2Proof.Machine.execCluUnfence r cl v s
  | .cluSelftestCmd r cl v => Sys2Proof.Machine.execCluSelftestCmd r cl v s
  | .selftestSliceStart cl => Sys2Proof.Machine.execSelftestSliceStart cl s
  | .selftestSliceDone cl ok => Sys2Proof.Machine.execSelftestSliceDone cl ok s
  | .illegalInstr c w => Sys2Proof.Machine.execIllegalInstr c w s
  | .nop o => Sys2Proof.Machine.execNop o s
  | .add o => Sys2Proof.Machine.execAdd o s
  | .sub o => Sys2Proof.Machine.execSub o s
  | .and o => Sys2Proof.Machine.execAnd o s
  | .or o => Sys2Proof.Machine.execOr o s
  | .xor o => Sys2Proof.Machine.execXor o s
  | .sll o => Sys2Proof.Machine.execSll o s
  | .srl o => Sys2Proof.Machine.execSrl o s
  | .sra o => Sys2Proof.Machine.execSra o s
  | .mul o => Sys2Proof.Machine.execMul o s
  | .mulhu o => Sys2Proof.Machine.execMulhu o s
  | .mulh o => Sys2Proof.Machine.execMulh o s
  | .min o => Sys2Proof.Machine.execMin o s
  | .max o => Sys2Proof.Machine.execMax o s
  | .minu o => Sys2Proof.Machine.execMinu o s
  | .maxu o => Sys2Proof.Machine.execMaxu o s
  | .slt o => Sys2Proof.Machine.execSlt o s
  | .sltu o => Sys2Proof.Machine.execSltu o s
  | .seq o => Sys2Proof.Machine.execSeq o s
  | .luih o => Sys2Proof.Machine.execLuih o s
  | .ld o fn => Sys2Proof.Machine.execLd o fn s
  | .st o fn => Sys2Proof.Machine.execSt o fn s
  | .beq o => Sys2Proof.Machine.execBeq o s
  | .bne o => Sys2Proof.Machine.execBne o s
  | .blt o => Sys2Proof.Machine.execBlt o s
  | .bge o => Sys2Proof.Machine.execBge o s
  | .bltu o => Sys2Proof.Machine.execBltu o s
  | .bgeu o => Sys2Proof.Machine.execBgeu o s
  | .jal o => Sys2Proof.Machine.execJal o s
  | .jr o => Sys2Proof.Machine.execJr o s
  | .spr o => Sys2Proof.Machine.execSpr o s
  | .vadd o => Sys2Proof.Machine.execVadd o s
  | .vsub o => Sys2Proof.Machine.execVsub o s
  | .vmul o => Sys2Proof.Machine.execVmul o s
  | .vfma o => Sys2Proof.Machine.execVfma o s
  | .vfms o => Sys2Proof.Machine.execVfms o s
  | .vmin o => Sys2Proof.Machine.execVmin o s
  | .vmax o => Sys2Proof.Machine.execVmax o s
  | .vabs o => Sys2Proof.Machine.execVabs o s
  | .vneg o => Sys2Proof.Machine.execVneg o s
  | .vdiv o => Sys2Proof.Machine.execVdiv o s
  | .vsqrt o => Sys2Proof.Machine.execVsqrt o s
  | .vrsqrt o => Sys2Proof.Machine.execVrsqrt o s
  | .vexp2 o => Sys2Proof.Machine.execVexp2 o s
  | .vlog2 o => Sys2Proof.Machine.execVlog2 o s
  | .vintAdd o => Sys2Proof.Machine.execVintAdd o s
  | .vintSub o => Sys2Proof.Machine.execVintSub o s
  | .vintMul o => Sys2Proof.Machine.execVintMul o s
  | .vintAnd o => Sys2Proof.Machine.execVintAnd o s
  | .vintOr o => Sys2Proof.Machine.execVintOr o s
  | .vintXor o => Sys2Proof.Machine.execVintXor o s
  | .vintSll o => Sys2Proof.Machine.execVintSll o s
  | .vintSrl o => Sys2Proof.Machine.execVintSrl o s
  | .vintSra o => Sys2Proof.Machine.execVintSra o s
  | .vintMin o => Sys2Proof.Machine.execVintMin o s
  | .vintMax o => Sys2Proof.Machine.execVintMax o s
  | .vintMinu o => Sys2Proof.Machine.execVintMinu o s
  | .vintMaxu o => Sys2Proof.Machine.execVintMaxu o s
  | .feq o => Sys2Proof.Machine.execFeq o s
  | .fne o => Sys2Proof.Machine.execFne o s
  | .flt o => Sys2Proof.Machine.execFlt o s
  | .fle o => Sys2Proof.Machine.execFle o s
  | .ieq o => Sys2Proof.Machine.execIeq o s
  | .ine o => Sys2Proof.Machine.execIne o s
  | .ilt o => Sys2Proof.Machine.execIlt o s
  | .ile o => Sys2Proof.Machine.execIle o s
  | .iltu o => Sys2Proof.Machine.execIltu o s
  | .ileu o => Sys2Proof.Machine.execIleu o s
  | .f2i o => Sys2Proof.Machine.execF2i o s
  | .i2f o => Sys2Proof.Machine.execI2f o s
  | .f2b o => Sys2Proof.Machine.execF2b o s
  | .b2f o => Sys2Proof.Machine.execB2f o s
  | .i2b8 o => Sys2Proof.Machine.execI2b8 o s
  | .b82i o => Sys2Proof.Machine.execB82i o s
  | .f2e4 o => Sys2Proof.Machine.execF2e4 o s
  | .e42f o => Sys2Proof.Machine.execE42f o s
  | .f2e5 o => Sys2Proof.Machine.execF2e5 o s
  | .e52f o => Sys2Proof.Machine.execE52f o s
  | .fsum o => Sys2Proof.Machine.execFsum o s
  | .fmax o => Sys2Proof.Machine.execFmax o s
  | .fmin o => Sys2Proof.Machine.execFmin o s
  | .fargmax o => Sys2Proof.Machine.execFargmax o s
  | .isum o => Sys2Proof.Machine.execIsum o s
  | .imax o => Sys2Proof.Machine.execImax o s
  | .imin o => Sys2Proof.Machine.execImin o s
  | .mov o => Sys2Proof.Machine.execMov o s
  | .bcast o => Sys2Proof.Machine.execBcast o s
  | .sel o => Sys2Proof.Machine.execSel o s
  | .get o => Sys2Proof.Machine.execGet o s
  | .put o => Sys2Proof.Machine.execPut o s
  | .perm o => Sys2Proof.Machine.execPerm o s
  | .iota o => Sys2Proof.Machine.execIota o s
  | .vpredAnd o => Sys2Proof.Machine.execVpredAnd o s
  | .vpredOr o => Sys2Proof.Machine.execVpredOr o s
  | .vpredXor o => Sys2Proof.Machine.execVpredXor o s
  | .vpredAndn o => Sys2Proof.Machine.execVpredAndn o s
  | .vpredSet o => Sys2Proof.Machine.execVpredSet o s
  | .vpredClr o => Sys2Proof.Machine.execVpredClr o s
  | .vpredCnt o => Sys2Proof.Machine.execVpredCnt o s
  | .vpredFirst o => Sys2Proof.Machine.execVpredFirst o s
  | .vld o => Sys2Proof.Machine.execVld o s
  | .vst o => Sys2Proof.Machine.execVst o s
  | .vmaskMask o => Sys2Proof.Machine.execVmaskMask o s
  | .vmaskDraw o => Sys2Proof.Machine.execVmaskDraw o s
  | .cksumCmp o => Sys2Proof.Machine.execCksumCmp o s
  | .cksumLog o => Sys2Proof.Machine.execCksumLog o s
  | .momqLd o => Sys2Proof.Machine.execMomqLd o s
  | .momqSt o => Sys2Proof.Machine.execMomqSt o s
  | .momqUpd o => Sys2Proof.Machine.execMomqUpd o s
  | .mma o => Sys2Proof.Machine.execMma o s
  | .mtrd o ecc => Sys2Proof.Machine.execMtrd o ecc s
  | .mtwr o => Sys2Proof.Machine.execMtwr o s
  | .mtzero o => Sys2Proof.Machine.execMtzero o s
  | .gang o => Sys2Proof.Machine.execGang o s
  | .ungang o => Sys2Proof.Machine.execUngang o s
  | .strPost o => Sys2Proof.Machine.execStrPost o s
  | .strWait o => Sys2Proof.Machine.execStrWait o s
  | .strWaitComplete c waited => Sys2Proof.Machine.execStrWaitComplete c waited s
  | .strAck o => Sys2Proof.Machine.execStrAck o s
  | .strStat o => Sys2Proof.Machine.execStrStat o s
  | .bar o => Sys2Proof.Machine.execBar o s
  | .lockAcq o => Sys2Proof.Machine.execLockAcq o s
  | .lockRel o => Sys2Proof.Machine.execLockRel o s
  | .fabSend o => Sys2Proof.Machine.execFabSend o s
  | .fabRecv o => Sys2Proof.Machine.execFabRecv o s
  | .fabSendComplete c waited => Sys2Proof.Machine.execFabSendComplete c waited s
  | .fabRecvComplete c waited => Sys2Proof.Machine.execFabRecvComplete c waited s
  | .fence o => Sys2Proof.Machine.execFence o s
  | .halt o => Sys2Proof.Machine.execHalt o s
  | .trap o => Sys2Proof.Machine.execTrap o s
  | .emit o => Sys2Proof.Machine.execEmit o s
  | .yield o => Sys2Proof.Machine.execYield o s
  | .sentinelSweep c => Sys2Proof.Machine.execSentinelSweep c s
  | .programEnd x => Sys2Proof.Machine.execProgramEnd x s
  | .descSetup c ch => Sys2Proof.Machine.execDescSetup c ch s
  | .slotFilled c ch => Sys2Proof.Machine.execSlotFilled c ch s
  | .slotDrained c ch => Sys2Proof.Machine.execSlotDrained c ch s
  | .descRetire c ch => Sys2Proof.Machine.execDescRetire c ch s
  | .barArrival c => Sys2Proof.Machine.execBarArrival c s
  | .barComplete x b waits => Sys2Proof.Machine.execBarComplete x b waits s
  | .barArrive m => Sys2Proof.Machine.execBarArrive m s
  | .barRelease m => Sys2Proof.Machine.execBarRelease m s
  | .barrierStall x b => Sys2Proof.Machine.execBarrierStall x b s
  | .memRead a => Sys2Proof.Machine.execMemRead a s
  | .memWrite a data poison => Sys2Proof.Machine.execMemWrite a data poison s
  | .tempReading stack t => Sys2Proof.Machine.execTempReading stack t s
  | .scrubLine stack ecc raced => Sys2Proof.Machine.execScrubLine stack ecc raced s
  | .hccFlushCmd r sl v => Sys2Proof.Machine.execHccFlushCmd r sl v s
  | .flushDone sl => Sys2Proof.Machine.execFlushDone sl s
  | .heatEpochEnd => Sys2Proof.Machine.execHeatEpochEnd s
  | .moveStart => Sys2Proof.Machine.execMoveStart s
  | .moveDone => Sys2Proof.Machine.execMoveDone s
  | .moveAbandon => Sys2Proof.Machine.execMoveAbandon s
  | .tierAdmit r => Sys2Proof.Machine.execTierAdmit r s
  | .tierRelease r => Sys2Proof.Machine.execTierRelease r s
  | .map r => Sys2Proof.Machine.execMap r s
  | .share r => Sys2Proof.Machine.execShare r s
  | .unmap r => Sys2Proof.Machine.execUnmap r s
  | .move r => Sys2Proof.Machine.execMove r s
  | .tierQpool r v => Sys2Proof.Machine.execTierQpool r v s
  | .tierQstack r v => Sys2Proof.Machine.execTierQstack r v s
  | .linkSignalDetect l => Sys2Proof.Machine.execLinkSignalDetect l s
  | .linkUp l t => Sys2Proof.Machine.execLinkUp l t s
  | .linkTrainFail l => Sys2Proof.Machine.execLinkTrainFail l s
  | .linkTrainRetry l => Sys2Proof.Machine.execLinkTrainRetry l s
  | .fastRetrainDone l ok => Sys2Proof.Machine.execFastRetrainDone l ok s
  | .linkDown l => Sys2Proof.Machine.execLinkDown l s
  | .data l f => Sys2Proof.Machine.execData l f s
  | .nak l f => Sys2Proof.Machine.execNak l f s
  | .ctrl l f => Sys2Proof.Machine.execCtrl l f s
  | .creditCtrlSend l => Sys2Proof.Machine.execCreditCtrlSend l s
  | .replayTimeout l => Sys2Proof.Machine.execReplayTimeout l s
  | .laneDrop l lane => Sys2Proof.Machine.execLaneDrop l lane s
  | .widthReq l f => Sys2Proof.Machine.execWidthReq l f s
  | .widthAck l f => Sys2Proof.Machine.execWidthAck l f s
  | .widthSwitch l => Sys2Proof.Machine.execWidthSwitch l s
  | .laneReaddAttempt l clean => Sys2Proof.Machine.execLaneReaddAttempt l clean s
  | .recalStart l tempC => Sys2Proof.Machine.execRecalStart l tempC s
  | .recalLaneDone l => Sys2Proof.Machine.execRecalLaneDone l s
  | .retrain r l => Sys2Proof.Machine.execRetrain r l s
  | .recal r l => Sys2Proof.Machine.execRecal r l s
  | .readd r l => Sys2Proof.Machine.execReadd r l s
  | .linkSleepHyst l => Sys2Proof.Machine.execLinkSleepHyst l s
  | .sleepReq l f => Sys2Proof.Machine.execSleepReq l f s
  | .sleepAck l f => Sys2Proof.Machine.execSleepAck l f s
  | .sleepNak l f => Sys2Proof.Machine.execSleepNak l f s
  | .linkWake l => Sys2Proof.Machine.execLinkWake l s
  | .msgRx m => Sys2Proof.Machine.execMsgRx m s
  | .tack m => Sys2Proof.Machine.execTack m s
  | .resendTimeout dest mseq => Sys2Proof.Machine.execResendTimeout dest mseq s
  | .sendTmoExpiry dest mseq => Sys2Proof.Machine.execSendTmoExpiry dest mseq s
  | .escapeSwitch l vc => Sys2Proof.Machine.execEscapeSwitch l vc s
  | .hopTimeout l vc => Sys2Proof.Machine.execHopTimeout l vc s
  | .fabEnable r v => Sys2Proof.Machine.execFabEnable r v s
  | .progressWatchdog isColl gid seqOrBar => Sys2Proof.Machine.execProgressWatchdog isColl gid seqOrBar s
  | .opAbort m => Sys2Proof.Machine.execOpAbort m s
  | .cancel m => Sys2Proof.Machine.execCancel m s
  | .collective q => Sys2Proof.Machine.execCollective q s
  | .arrive m => Sys2Proof.Machine.execArrive m s
  | .go m => Sys2Proof.Machine.execGo m s
  | .collData m => Sys2Proof.Machine.execCollData m s
  | .relayStripe m => Sys2Proof.Machine.execRelayStripe m s
  | .collLocalTimeout g cseq => Sys2Proof.Machine.execCollLocalTimeout g cseq s
  | .stragglerDeadline g cseq => Sys2Proof.Machine.execStragglerDeadline g cseq s
  | .lateGo m => Sys2Proof.Machine.execLateGo m s
  | .publish r slot manifest list chunks => Sys2Proof.Machine.execPublish r slot manifest list chunks s
  | .publishComplete => Sys2Proof.Machine.execPublishComplete s
  | .wpbRelease r slot => Sys2Proof.Machine.execWpbRelease r slot s
  | .abandon r slot => Sys2Proof.Machine.execAbandon r slot s
  | .manifest m => Sys2Proof.Machine.execManifest m s
  | .sigVerifyDone slot => Sys2Proof.Machine.execSigVerifyDone slot s
  | .chunk m => Sys2Proof.Machine.execChunk m s
  | .chunkHashDone slot idx => Sys2Proof.Machine.execChunkHashDone slot idx s
  | .pubEnd m => Sys2Proof.Machine.execPubEnd m s
  | .restreamRetryTimer slot => Sys2Proof.Machine.execRestreamRetryTimer slot s
  | .restreamReq m chunks => Sys2Proof.Machine.execRestreamReq m chunks s
  | .restreamRefuse m => Sys2Proof.Machine.execRestreamRefuse m s
  | .ready m => Sys2Proof.Machine.execReady m s
  | .withdraw m => Sys2Proof.Machine.execWithdraw m s
  | .hold m => Sys2Proof.Machine.execHold m s
  | .pendingBuildOpen slot => Sys2Proof.Machine.execPendingBuildOpen slot s
  | .repairOpen slot => Sys2Proof.Machine.execRepairOpen slot s
  | .restreamDeadline slot => Sys2Proof.Machine.execRestreamDeadline slot s
  | .start r => Sys2Proof.Machine.execStart r s
  | .epsCancel r => Sys2Proof.Machine.execEpsCancel r s
  | .pause r => Sys2Proof.Machine.execPause r s
  | .reply r => Sys2Proof.Machine.execReply r s
  | .score r => Sys2Proof.Machine.execScore r s
  | .stepOpen g => Sys2Proof.Machine.execStepOpen g s
  | .stepOpenRx m => Sys2Proof.Machine.execStepOpenRx m s
  | .epsStepArrive x => Sys2Proof.Machine.execEpsStepArrive x s
  | .emitDrain c => Sys2Proof.Machine.execEmitDrain c s
  | .stepDone m => Sys2Proof.Machine.execStepDone m s
  | .commit m => Sys2Proof.Machine.execCommit m s
  | .husk m => Sys2Proof.Machine.execHusk m s
  | .huskComplete g slot => Sys2Proof.Machine.execHuskComplete g slot s
  | .huskDone m => Sys2Proof.Machine.execHuskDone m s
  | .epsPeriod r v => Sys2Proof.Machine.execEpsPeriod r v s
  | .epsGroupValid r v => Sys2Proof.Machine.execEpsGroupValid r v s
  | .kittyRecordSend => Sys2Proof.Machine.execKittyRecordSend s
  | .kittyRecordRx m => Sys2Proof.Machine.execKittyRecordRx m s
  | .kittyResend id => Sys2Proof.Machine.execKittyResend id s
  | .kitRingnTail r n hi v => Sys2Proof.Machine.execKitRingnTail r n hi v s
  | .anlTrigger ch => Sys2Proof.Machine.execAnlTrigger ch s
  | .run r v => Sys2Proof.Machine.execRun r v s
  | .anlAbort r v => Sys2Proof.Machine.execAnlAbort r v s
  | .selftest r v => Sys2Proof.Machine.execSelftest r v s
  | .anlSelftestDone ok => Sys2Proof.Machine.execAnlSelftestDone ok s
  | .anlChannelConfig r ch v => Sys2Proof.Machine.execAnlChannelConfig r ch v s
  | .anlLoadDone ch => Sys2Proof.Machine.execAnlLoadDone ch s
  | .anlSweep ch => Sys2Proof.Machine.execAnlSweep ch s
  | .boundary m => Sys2Proof.Machine.execBoundary m s
  | .anlRunEnd ch => Sys2Proof.Machine.execAnlRunEnd ch s
  | .trnJobEnable r j v => Sys2Proof.Machine.execTrnJobEnable r j v s
  | .trnPhaseArrive j => Sys2Proof.Machine.execTrnPhaseArrive j s
  | .bucketComplete j b => Sys2Proof.Machine.execBucketComplete j b s
  | .trnCqHead r j v => Sys2Proof.Machine.execTrnCqHead r j v s
  | .fwd j => Sys2Proof.Machine.execFwd j s
  | .bwd j => Sys2Proof.Machine.execBwd j s
  | .opt j => Sys2Proof.Machine.execOpt j s
  | .post j => Sys2Proof.Machine.execPost j s
  | .stepEnd j => Sys2Proof.Machine.execStepEnd j s
  | .checkpointDone j => Sys2Proof.Machine.execCheckpointDone j s
  | .trnHalt r v => Sys2Proof.Machine.execTrnHalt r v s
  | .restore r v => Sys2Proof.Machine.execRestore r v s
  | .resume r v => Sys2Proof.Machine.execResume r v s
  | .ctxValidSet r x v => Sys2Proof.Machine.execCtxValidSet r x v s
  | .load q => Sys2Proof.Machine.execLoad q s
  | .kill r x => Sys2Proof.Machine.execKill r x s
  | .dispatch x => Sys2Proof.Machine.execDispatch x s
  | .quantumExpiry v c => Sys2Proof.Machine.execQuantumExpiry v c s
  | .preemptRequest v c => Sys2Proof.Machine.execPreemptRequest v c s
  | .corePark c => Sys2Proof.Machine.execCorePark c s
  | .preemptDeadline x => Sys2Proof.Machine.execPreemptDeadline x s
  | .contextSwitch x sclk => Sys2Proof.Machine.execContextSwitch x sclk s
  | .lockGrant n waited => Sys2Proof.Machine.execLockGrant n waited s
  | .brk r v => Sys2Proof.Machine.execBrk r v s
  | .clear r v => Sys2Proof.Machine.execClear r v s
  | .acctWindowEnd => Sys2Proof.Machine.execAcctWindowEnd s
  | .chkSealCmd r v => Sys2Proof.Machine.execChkSealCmd r v s
  | .deferredSeal x => Sys2Proof.Machine.execDeferredSeal x s
  | .chkRingTail r hi v => Sys2Proof.Machine.execChkRingTail r hi v s
  | .chkMode r v => Sys2Proof.Machine.execChkMode r v s
  | .journalPageWrite => Sys2Proof.Machine.execJournalPageWrite s
  | .journalPageDone => Sys2Proof.Machine.execJournalPageDone s
  | .journalResubmit => Sys2Proof.Machine.execJournalResubmit s
  | .nvjTail r hi v => Sys2Proof.Machine.execNvjTail r hi v s
  | .erase r => Sys2Proof.Machine.execErase r s
  | .nvProgram r => Sys2Proof.Machine.execNvProgram r s
  | .logEntryWrite => Sys2Proof.Machine.execLogEntryWrite s
  | .aonLogTail r hi v => Sys2Proof.Machine.execAonLogTail r hi v s
  | .aonLogSel r v => Sys2Proof.Machine.execAonLogSel r v s
  | .telSample => Sys2Proof.Machine.execTelSample s
  | .sqDoorbell r q v => Sys2Proof.Machine.execSqDoorbell r q v s
  | .entryFetch q e => Sys2Proof.Machine.execEntryFetch q e s
  | .nopCommand q => Sys2Proof.Machine.execNopCommand q s
  | .queCmdResume r q => Sys2Proof.Machine.execQueCmdResume r q s
  | .hifBar2Win r v => Sys2Proof.Machine.execHifBar2Win r v s
  | .bar2Read off len => Sys2Proof.Machine.execBar2Read off len s
  | .bar2Write off bytes ep => Sys2Proof.Machine.execBar2Write off bytes ep s
  | .pcieLinkDown => Sys2Proof.Machine.execPcieLinkDown s
  | .pcieD3hot enter => Sys2Proof.Machine.execPcieD3hot enter s
  | .regRead off pec => Sys2Proof.Machine.execRegRead off pec s
  | .regWrite off v pec => Sys2Proof.Machine.execRegWrite off v pec s
  | .getStatus => Sys2Proof.Machine.execGetStatus s
  | .getIdent => Sys2Proof.Machine.execGetIdent s
  | .getThermal => Sys2Proof.Machine.execGetThermal s
  | .getPower => Sys2Proof.Machine.execGetPower s
  | .getLog slot pec => Sys2Proof.Machine.execGetLog slot pec s
  | .getReset => Sys2Proof.Machine.execGetReset s
  | .smbusTimeout => Sys2Proof.Machine.execSmbusTimeout s
  | .alertResponse => Sys2Proof.Machine.execAlertResponse s
  | .pmbusPoll rs => Sys2Proof.Machine.execPmbusPoll rs s
  | .mgtPmbTrim r v => Sys2Proof.Machine.execMgtPmbTrim r v s
  | .pmbusArbLost trim rail retries => Sys2Proof.Machine.execPmbusArbLost trim rail retries s
  | .gpioClaim r n v => Sys2Proof.Machine.execGpioClaim r n v s
  | .gpioRelease r n => Sys2Proof.Machine.execGpioRelease r n s
  | .mgtGpioOut r v => Sys2Proof.Machine.execMgtGpioOut r v s
  | .fatalOutRelease => Sys2Proof.Machine.execFatalOutRelease s
  | .jtagTestInstr code => Sys2Proof.Machine.execJtagTestInstr code s
  | .jtagTestExit code => Sys2Proof.Machine.execJtagTestExit code s
  | .tjSample t => Sys2Proof.Machine.execTjSample t s
  | .throttleStage2Enter => Sys2Proof.Machine.execThrottleStage2Enter s
  | .throttleStageExit => Sys2Proof.Machine.execThrottleStageExit s
  | .fabId r v => Sys2Proof.Machine.execFabId r v s
  | .lnkCfgEn r l v => Sys2Proof.Machine.execLnkCfgEn r l v s
  | .clxGroupRewrite r n v => Sys2Proof.Machine.execClxGroupRewrite r n v s
  | .msixUnmask vec => Sys2Proof.Machine.execMsixUnmask vec s
  | .busMasterEnable => Sys2Proof.Machine.execBusMasterEnable s
  | .pcieReferenceLost => Sys2Proof.Machine.execPcieReferenceLost s

end Sys2Proof.Machine
end

