-- ==== Sys2Proof/Safety.lean ====
section
/-! DEFINITION. What a safe step is, and the terms that the statements use: what a command gives, when a register write
reaches its register, the canonical form of the memories. -/

namespace Sys2Proof.Machine

/-- A step that goes on. -/
def Safe (s : State) : Prop := ∃ t, step s = .next t

/-- A command answers a next state, and that state is so. -/
def Gives (i : Instr) (s : State) (P : State → Prop) : Prop := ∃ t, exec i s = .next t ∧ P t

/-- A requester's access to page `p` is answered: not by the host in D3hot, and the page is populated and its domain
ON or CLOCK-GATED (02_register_pages.md R28, R51, R52; 21_host_management.md R598). -/
def State.reaches (s : State) (r : Requester) (p : Nat) : Bool :=
  !(r == .host && s.mgt.d3) && (pageInfo p).isSome && s.pageLive p

/-- A requester's write of the register at page `p`, offset `o`, takes effect: it reaches the page, no soft reset runs
over its area, and the register is neither a written WO register nor a locked RWL one (R37, R47, R48). -/
def State.admits (s : State) (r : Requester) (p o : Nat) : Bool :=
  s.reaches r p && !(decide (0x800 ≤ o) && decide (o < 0xF00) && (s.page p).srst)
    && match regRow (blockType p) o with
      | none => true
      | some row => !(row.acc == .wo && (s.page p).written.contains o) && !(row.acc == .rwl && (s.page p).locked)

/-- Is the register at block type `bt`, offset `o`, a write-once one? -/
def writeOnce (bt o : Nat) : Bool := match regRow bt o with | some row => row.acc == .wo | none => false

/-- The memories, the flash and the fuses keep their canonical form (DESIGN CHOICE, log entry 3). -/
def State.memoryWf (s : State) : Bool :=
  swf (fun _ => 0) s.mem.bytes && swf (fun _ => false) s.mem.poison && swf (fun _ => 0) s.mem.pool
    && swf (fun _ => false) s.mem.poolMarks && swf (fun _ => 0xFF) s.nv.flash && swf (fun _ => 0) s.nv.fuses

/-- A step has left everything but what counters, registers, events, log entries and their messages hold. -/
def State.noted (s t : State) : Prop :=
  t = { s with regs := t.regs, pages := t.pages, log := t.log, free := t.free, msixPend := t.msixPend, out := t.out
               dmaWait := t.dmaWait }

/-- A windowed message is new to this chip, whose transport runs: it lies above its window (12_fabric_transport.md R349,
R350, R369). No EPS message waits for its turn. -/
def State.newTo (s : State) (m : Message) : Bool :=
  bit (s.reg pFAB 0x800) 0 && !m.abort && s.eps.held.isEmpty
    && ((s.windowOf m).2.h == 0 || mseqAbove m.mseq.toNat (s.windowOf m).2.h)

/-- The window of a message keeps this outcome for it (12_fabric_transport.md R349, R350). -/
def State.recorded (t : State) (m : Message) (st : BitVec 16) : Prop :=
  sget none (t.windowOf m).2.outs m.mseq.toNat = some st

/-- No frame waits on any link (12_fabric_transport.md R346, R366). -/
def State.calm (s : State) : Bool := s.fab.mcWait.isEmpty && s.links.all (fun e => e.2.waiting == 0)

/-- Links may train as far as the chip goes: its ID is written, boot has started them, and no test instruction runs
(11_link_layer.md R316; 12_fabric_transport.md R342). -/
def State.chipTrains (s : State) : Bool := !s.mgt.jtag && s.fabId.isSome && decide (6 ≤ fld (s.reg pAON 0x890) 0 8)

/-! ### Instructions of a core -/

/-- A core as its next instruction finds it: the results due have landed (07_hj2_contract.md R211 to R213). -/
def State.found (s : State) (c : Nat) : Core := (s.core c).settle

/-- Context `x` runs on core `c`, which can issue the permitted word `w` from its code, with the sentinel off. -/
def State.runs (s : State) (c : CoreId) (x : CtxId) (w : Nat) : Bool :=
  s.canIssue c && (s.found c).ctx == some x && (s.ctx x).inCode c (s.found c).th.pc && legalWord w
    && !(s.found c).th.sentinel

/-- Core `c` has issued an instruction whose results are in flight with their latencies and whose flags are raised: its
PC is the next word's, one unfrozen cycle has passed, and nothing else of the core has changed. -/
def State.ran (s t : State) (c : CoreId) (lands : List (Nat × LandVal)) (flags : FFlags) : Prop :=
  let k := s.found c
  (∃ b, t.core c = { k with
    banks := b
    th := { (k.th.push lands).raiseFlags flags with pc := k.th.pc + 8, cyc := k.th.cyc + 1 } }) ∧
  ∀ e, e ≠ c.val → t.core e = s.core e

/-- Nothing outside the cores and the registers has changed. -/
def State.onlyCores (s t : State) : Prop := t = { s with cores := t.cores, regs := t.regs }

/-- A masked vector value holds a lane function of an instruction: active lanes hold `f`; inactive ones are left alone,
or zero with PZ (06_hj1_baseline.md R163). -/
def LanesHold (k : Core) (o : VOp) (f : Nat → Word32) (m v : BitVec 2048) : Prop :=
  ∀ l, l < 64 →
    if k.th.active o l then vlane m l = 0xFFFFFFFF ∧ vlane v l = f l
    else if o.pz then vlane m l = 0xFFFFFFFF ∧ vlane v l = 0
    else vlane m l = 0

/-- The same for a predicate. -/
def BitsHold (k : Core) (o : VOp) (f : Nat → Bool) (m v : BitVec 64) : Prop :=
  ∀ l, l < 64 →
    if k.th.active o l then m.getLsbD l = true ∧ v.getLsbD l = f l
    else if o.pz then m.getLsbD l = true ∧ v.getLsbD l = false
    else m.getLsbD l = false

/-- The poison that a merging write takes from its destination (20_errors.md R573; DEDUCED, log entry 23). -/
def mergePoison (k : Core) (o : VOp) : Bool := o.pe && !o.pz && k.th.vp o.vd

/-- What a core's thread is once an instruction that takes `n` cycles and goes on to the next word has issued. -/
def Core.after (k : Core) (n : Nat) (lands : List (Nat × LandVal)) : Thread :=
  { k.th.push lands with pc := k.th.pc + 8, cyc := k.th.cyc + n }

/-- What a core's thread is once a blocking wait of `n` cycles has ended (06_hj1_baseline.md R174). -/
def Core.woken (k : Core) (n : Nat) (lands : List (Nat × LandVal)) : Thread :=
  { ({ k.th with cyc := k.th.cyc + n } : Thread).push lands with wait := none }

/-- No gang change of a core is under way (07_hj2_contract.md R204). -/
def Core.gangSettled (k : Core) : Bool := k.th.lands.all (fun l => match l.val with | .gang _ => false | _ => true)

end Sys2Proof.Machine
end

