-- ==== Sys2Proof/Certificates/Slice0/Obligations.lean ====
section
/-! DEFINITION. The statements for the provers, by chapter of the spec. -/

open Sys2Proof Sys2Proof.Machine

/-- For every command c, every queue rest and every state s whose queue is c followed by rest, a step at s answers what
exec answers for c at s with the queue rest, in all three outcomes; and with an empty queue a step answers the state
after one AON cycle, whose timestamp is one higher (the queue and the idle step are the model's own, DESIGN CHOICE,
log entries 1 and 2). (95_what_each_step_holds.md) -/
def Obligations.StepRunsFrontCommand : Prop :=
  (∀ (c : Instr) (rest : List Instr) (s : State), s.pending = c :: rest →
    step s = exec c { s with pending := rest }) ∧
  (∀ s : State, s.pending = [] → ∃ t, step s = .next t ∧ t.pw.aonTime = s.pw.aonTime + 1 ∧ t.pending = [])

/-- At State.reset no command waits and nothing has been sent; every register of every page reads the reset value that
its table gives; no page is locked, in soft reset, or holds a violation; every switched domain is OFF; no PLL runs;
the timestamp is 0; the error log is empty; no context is loaded, no episode or collective exists; and every memory
is in its canonical form. What an unwritten memory byte, an erased flash byte and a register without a stated reset
value read is the model's choice (DESIGN CHOICE, log entries 3 and 4). (R95, R100, R57, R63, R47, R583,
04_reset_boot.md, 02_register_pages.md) -/
def Obligations.ResetStateOfTheSpec : Prop :=
  State.reset.pending = [] ∧ State.reset.out = [] ∧
  (∀ p o, State.reset.reg p o = regReset p o) ∧
  (∀ p, (State.reset.page p).locked = false ∧ (State.reset.page p).srst = false ∧ (State.reset.page p).evt = 0 ∧
    (State.reset.page p).woViol = false ∧ (State.reset.page p).sizeErr = false) ∧
  (∀ d, (State.reset.dom d).state = .off ∧ (State.reset.dom d).waking = false) ∧
  State.reset.pw.pllRun = 0 ∧ State.reset.pw.aonTime = 0 ∧ State.reset.log = {} ∧
  (∀ x, (State.reset.ctx x).state = .free) ∧ State.reset.eps.eps = [] ∧ State.reset.clx.colls = [] ∧
  State.reset.memoryWf = true

/-- UNPOPULATED_ACCESS at an index that holds no page gives 0 to a read and records offset and requester in
DIR_UNPOP_ADDR and the count in DIR_UNPOP_CNT; OFF_ACCESS to a page whose domain is RETAIN or OFF gives all ones to
a read, counts one in AON_OFF_ACCESS_CNT, records the offset and marks the domain; SIZE_ERR on a page that answers
gives all ones to a read, sets PG_STAT.SIZE_ERR and its event, counts a violation up to 65,535, and keeps a
PG_ERR_ADDR that holds a capture. In the first two every other part of the state is as it was. A LOW_WORD_READ of
the low word of a 64-bit register that its page answers returns the register's live value and latches the live high
word for the requester; a read of the high word with that latch pending returns the latched value and drops the
latch, whatever the register holds by then; and an RC_READ of a read-to-clear register returns its value and leaves
in it the measurement made in the same cycle alone, or 0 with none. (R28, R30, R32, R33, R34, R39, R52, R53, R56) -/
def Obligations.AccessesAndReads : Prop :=
  (∀ (r : Requester) (off : Bar0) (w : Bool) (s : State), pageInfo (off.toNat / 4096) = none →
    Gives (.unpopulatedAccess r off w) s fun t =>
      (w = false → (if r = .host then t.rdHost else t.rdMgmt) = 0) ∧
      t.reg pDIR 0x80C = BitVec.ofNat 32 (off.toNat + (if r = .mgmt then 2 ^ 30 else 0) + 2 ^ 31) ∧
      fld (t.reg pDIR 0xF00) 0 16 = min 0xFFFF (fld (s.reg pDIR 0xF00) 0 16 + 1) ∧
      t = { s with regs := t.regs, rdHost := t.rdHost, rdMgmt := t.rdMgmt }) ∧
  (∀ (r : Requester) (off : Bar0) (w : Bool) (d : Nat) (s : State), pageDomain (off.toNat / 4096) = some d →
    (pageInfo (off.toNat / 4096)).isSome → s.domLive d = false →
    Gives (.offAccess r off w) s fun t =>
      (w = false → (if r = .host then t.rdHost else t.rdMgmt) = 0xFFFFFFFF) ∧
      t.reg pAON 0x810 = BitVec.ofNat 32 (off.toNat + (if r = .mgmt then 2 ^ 30 else 0) + 2 ^ 31) ∧
      t.reg64 pAON 0xF00 = s.reg64 pAON 0xF00 + 1 ∧ (t.dom d).offAcc = true ∧ (t.dom d).state = (s.dom d).state ∧
      t = { s with regs := t.regs, rdHost := t.rdHost, rdMgmt := t.rdMgmt, pw := t.pw }) ∧
  (∀ (r : Requester) (off : Bar0) (w : Bool) (s : State), s.reaches r (off.toNat / 4096) →
    Gives (.sizeErr r off w) s fun t =>
      let p := off.toNat / 4096
      (w = false → (if r = .host then t.rdHost else t.rdMgmt) = 0xFFFFFFFF) ∧
      (t.page p).sizeErr = true ∧ bit (t.page p).evt 1 = true ∧
      (t.page p).violCnt.toNat = min 0xFFFF ((s.page p).violCnt.toNat + 1) ∧
      (bit (s.page p).errAddr 31 = true → (t.page p).errAddr = (s.page p).errAddr) ∧
      (∀ q, q ≠ p → t.page q = s.page q)) ∧
  (∀ (r : Requester) (off : Bar0) (s : State) (row : RegRow),
    let p := off.toNat / 4096
    let o := off.toNat % 4096
    o % 4 = 0 → 0x100 ≤ o → s.reaches r p → (s.page p).srst = false → (s.page p).latch r = none →
    regRow (blockType p) o = some row → row.wide = true → row.acc ≠ .rc → s.freeBits p o = 0 →
    Gives (.lowWordRead r off) s fun t =>
      (if r = .host then t.rdHost else t.rdMgmt) = s.liveReg r p o ∧
      (t.page p).latch r = some (o, s.liveReg r p (o + 4)) ∧ t = { s with pages := t.pages, rdHost := t.rdHost, rdMgmt := t.rdMgmt }) ∧
  (∀ (r : Requester) (off : Bar0) (s : State) (hi : Word32),
    let p := off.toNat / 4096
    let o := off.toNat % 4096
    o % 4 = 0 → 0x104 ≤ o → s.reaches r p → (s.page p).srst = false → (s.page p).latch r = some (o - 4, hi) →
    Gives (.lowWordRead r off) s fun t =>
      (if r = .host then t.rdHost else t.rdMgmt) = hi ∧ (t.page p).latch r = none) ∧
  (∀ (r : Requester) (off : Bar0) (m : Option Word32) (s : State) (row : RegRow),
    let p := off.toNat / 4096
    let o := off.toNat % 4096
    o % 4 = 0 → 0x100 ≤ o → s.reaches r p → (s.page p).srst = false → (s.page p).latch r = none →
    regRow (blockType p) o = some row → row.acc = .rc → row.wide = false → s.freeBits p o = 0 →
    Gives (.rcRead r off m) s fun t =>
      (if r = .host then t.rdHost else t.rdMgmt) = s.liveReg r p o ∧ t.reg p o = m.getD 0 ∧
      (∀ q k, q * 4096 + k ≠ p * 4096 + o → t.reg q k = s.reg q k))

/-- On the pages whose writes only store (CLK, ERR, TEL, DBG, SIG, MEM, ARR), a REGISTER_WRITE that its page admits
leaves a RW, RWL or WO register with the written value under the register's writable bits, a W1C register with the
written ones cleared, and a RO or RC register as it was; it leaves every other register of every page as it was and
disarms the page's lock sequence for the requester. A write of a written WO register or of a RWL register of a
locked page leaves all these registers as they were and sets PG_STAT.WO_VIOL. A poisoned write is dropped and
counted in the HIF page, and changes nothing else. (R8, R9, R28, R47, R48, R45, R596, R34) -/
def Obligations.RegisterWriteByAccessType : Prop :=
  (∀ (r : Requester) (off : Bar0) (v : Word32) (s : State) (row : RegRow),
    let p := off.toNat / 4096
    let o := off.toNat % 4096
    o % 4 = 0 → 0x100 ≤ o → [3, 8, 9, 0xA, 0x10, 0x19, 0x1D].contains (blockType p) →
    regRow (blockType p) o = some row → s.admits r p o →
    Gives (.registerWrite r off v false) s fun t =>
      t.reg p o = (match row.acc with
        | .rw => v &&& BitVec.ofNat 32 row.mask
        | .rwl => v &&& BitVec.ofNat 32 row.mask
        | .wo => v &&& BitVec.ofNat 32 row.mask
        | .w1c => s.reg p o &&& ~~~(v &&& BitVec.ofNat 32 row.mask)
        | .ro => s.reg p o
        | .rc => s.reg p o) ∧
      (∀ q k, q * 4096 + k ≠ p * 4096 + o → t.reg q k = s.reg q k) ∧
      (t.page p).armed r = false ∧
      t = { s with regs := t.regs, pages := t.pages }) ∧
  (∀ (r : Requester) (off : Bar0) (v : Word32) (s : State) (row : RegRow),
    let p := off.toNat / 4096
    let o := off.toNat % 4096
    o % 4 = 0 → 0x100 ≤ o → s.reaches r p → ¬(0x800 ≤ o ∧ o < 0xF00 ∧ (s.page p).srst) →
    regRow (blockType p) o = some row →
    ((row.acc = .wo ∧ (s.page p).written.contains o) ∨ (row.acc = .rwl ∧ (s.page p).locked)) →
    Gives (.registerWrite r off v false) s fun t =>
      (t.page p).woViol = true ∧ bit (t.page p).evt 0 = true ∧ (∀ k, k < 0xF00 → t.reg p k = s.reg p k)) ∧
  (∀ (r : Requester) (off : Bar0) (v : Word32) (s : State), s.mgt.d3 = false →
    Gives (.registerWrite r off v true) s fun t =>
      t.reg64 pHIF 0xF20 = s.reg64 pHIF 0xF20 + 1 ∧ t = { s with regs := t.regs })

/-- PG_STAT_CLEAR on a page that admits it leaves each sticky bit set exactly where it was set and not written 1, or
where the hardware sets it in the same cycle, and PG_ERR_ADDR loses VALID when both violation bits end at 0. SRST on
a page other than Directory and AON sets SRST, and every register of 0x800 to 0xEFF but those that show a condition
of the chip (DEDUCED, log entry 58) then holds its reset value. SOFT_RESET_END clears SRST and changes nothing else.
(R35, R37, R39, R55) -/
def Obligations.PageStatusAndSoftReset : Prop :=
  (∀ (r : Requester) (page : Fin 16384) (v hw : Word32) (s : State), s.admits r page 0x14 →
    Gives (.pgStatClear r page v hw) s fun t =>
      (t.page page).woViol = (((s.page page).woViol && !bit v 8) || bit hw 8) ∧
      (t.page page).sizeErr = (((s.page page).sizeErr && !bit v 9) || bit hw 9) ∧
      (t.page page).offAccess = (((s.page page).offAccess && !bit v 10) || bit hw 10) ∧
      ((t.page page).woViol = false → (t.page page).sizeErr = false → bit (t.page page).errAddr 31 = false) ∧
      t = { s with pages := t.pages }) ∧
  (∀ (r : Requester) (page : Fin 16384) (s : State), s.admits r page 0x10 → 2 ≤ blockType page →
    Gives (.srst r page) s fun t =>
      (t.page page).srst = true ∧
      ∀ o, 0x800 ≤ o → o < 0xF00 → (∀ u : State, u.keepsStatus (blockType page) o = false) →
        t.reg page o = regReset page o) ∧
  (∀ (page : Fin 16384) (s : State), (s.page page).srst = true →
    Gives (.softResetEnd page) s fun t =>
      t.page page = { s.page page with srst := false } ∧ (∀ q, q ≠ page.val → t.page q = s.page q) ∧
      t = { s with pages := t.pages })

/-- On a page that answers and is not locked, PG_LOCK_ARM arms the requester's key sequence; from a state in which the
requester's sequence is armed PG_LOCK_LOCK locks the page and raises its event, and the two run one after the other
lock it; from a state in which it is not armed PG_LOCK_LOCK locks nothing. Nothing but page headers changes in the
first. (R44) -/
def Obligations.LockKeySequence : Prop :=
  (∀ (r : Requester) (page : Fin 16384) (s : State), s.reaches r page → (s.page page).locked = false →
    Gives (.pgLockArm r page) s fun t =>
      (t.page page).armed r = true ∧ (t.page page).locked = false ∧ t = { s with pages := t.pages } ∧
      Gives (.pgLockLock r page) t fun u => (u.page page).locked = true) ∧
  (∀ (r : Requester) (page : Fin 16384) (s : State), s.reaches r page → (s.page page).locked = false →
    (s.page page).armed r = true →
    Gives (.pgLockLock r page) s fun t =>
      (t.page page).locked = true ∧ bit (t.page page).evt 3 = true ∧ (t.page page).armed r = false) ∧
  (∀ (r : Requester) (page : Fin 16384) (s : State), s.reaches r page → (s.page page).locked = false →
    (s.page page).armed r = false →
    Gives (.pgLockLock r page) s fun t => (t.page page).locked = false)

/-- PLL_LOCK sets the lock of a running PLL, changes no other PLL's, and nothing else. PLL_UNLOCK of a running, locked
PLL clears its lock, counts it, raises bit 16 of the CLK page and detects a FATAL error PLL_UNLOCK. SLOWCLK_LOST
with the slow clock present falls back to REFCLK, sets CLK_SRC_LOSS.SLOWCLK and detects SLOWCLK_LOST as CORRECTED,
and leaves the timestamp. SLOWCLK_SWITCH goes back to the slow clock once. PCIE_REFERENCE_LOST sets CLK_SRC_LOSS bit
2. (R58, R60, R61, R100, R587, 03_power_clocks.md) -/
def Obligations.ClockSources : Prop :=
  (∀ (p : Fin 26) (s : State), s.pw.pllRun.getLsbD p = true →
    Gives (.pllLock p) s fun t =>
      t.pw.pllLock.getLsbD p = true ∧ (∀ q, q ≠ p.val → t.pw.pllLock.getLsbD q = s.pw.pllLock.getLsbD q) ∧
      t = { s with pw := { s.pw with pllLock := t.pw.pllLock } }) ∧
  (∀ (p : Fin 26) (s : State), s.pw.pllRun.getLsbD p = true → s.pw.pllLock.getLsbD p = true →
    Gives (.pllUnlock p) s fun t =>
      t.pw.pllLock.getLsbD p = false ∧ (∀ q, q ≠ p.val → t.pw.pllLock.getLsbD q = s.pw.pllLock.getLsbD q) ∧
      t.reg64 pCLK 0xF00 = s.reg64 pCLK 0xF00 + 1 ∧ bit (t.page pCLK).evt 16 = true ∧ t.log.fatal = true ∧
      (∃ e ∈ t.log.queue, e.cls = cFATAL ∧ e.status = stPLL_UNLOCK)) ∧
  (∀ s : State, s.pw.slowPresent = true →
    Gives .slowclkLost s fun t =>
      t.pw.slowPresent = false ∧ t.pw.fallback = true ∧ t.pw.aonTime = s.pw.aonTime ∧
      bit (t.reg pCLK 0x80C) 0 = true ∧ t.reg64 pERR 0xF00 = s.reg64 pERR 0xF00 + 1 ∧ t.log.fatal = s.log.fatal) ∧
  (∀ s : State, s.pw.slowPresent = true → s.pw.fallback = true → s.pw.switched = false →
    Gives .slowclkSwitch s fun t =>
      t.pw.fallback = false ∧ t.pw.switched = true ∧
      t = { s with pw := { s.pw with fallback := false, switched := true } }) ∧
  (∀ s : State, Gives .pcieReferenceLost s fun t =>
      t.pw.pcieRef = false ∧ bit (t.reg pCLK 0x80C) 2 = true ∧
      t = { s with pw := { s.pw with pcieRef := false }, regs := t.regs })

/-- CLOCK_GATE_ENTRY takes an ON domain that may sleep and whose pages allow it to CLOCK-GATED. DEEP_HYST_EXPIRY starts
the sleep of a CLOCK-GATED domain that may sleep, to OFF where the deepest state it may enter is OFF and to RETAIN
where it is RETAIN. Both change that domain alone. A domain held by PWR_WAKE stays as it is in both.
DOMAIN_SLEEP_DONE takes a domain whose sleep to RETAIN is under way, with no wake waiting, to RETAIN. (R63, R64,
R67, R70, R76) -/
def Obligations.SleepEntry : Prop :=
  (∀ (d : DomId) (s : State), s.domOn d → s.maySleep d → 1 ≤ s.sleepDepth d →
    Gives (.clockGateEntry d) s fun t =>
      t.dom d = { s.dom d with state := .cg } ∧ (∀ e, e ≠ d.val → t.dom e = s.dom e) ∧ t = { s with pw := t.pw }) ∧
  (∀ (d : DomId) (s : State), (s.dom d).state = .cg → s.maySleep d → 2 ≤ s.sleepDepth d →
    Gives (.deepHystExpiry d) s fun t =>
      (t.dom d).sleepTo = some (if s.sleepDepth d = 3 then .off else .retain) ∧ (t.dom d).state = .cg ∧
      (∀ e, e ≠ d.val → t.dom e = s.dom e) ∧ t = { s with pw := t.pw }) ∧
  (∀ (d : DomId) (s : State), (s.dom d).hold = true →
    Gives (.clockGateEntry d) s fun t => t = s) ∧
  (∀ (d : DomId) (s : State), (s.dom d).hold = true → Gives (.deepHystExpiry d) s fun t => t = s) ∧
  (∀ (d : DomId) (s : State), (s.dom d).sleepTo = some .retain → (s.dom d).wakeAfter = false →
    Gives (.domainSleepDone d) s fun t =>
      t.dom d = { s.dom d with state := .retain, sleepTo := none })

/-- DOMAIN_WAKE by a link or by an engine leaves its sleeping domain with a wake under way, and by a memory access the
memory controller and its PHY; by a virtual channel whose wake set is not enabled it changes nothing; naming a
fused-off array it changes nothing. DOMAIN_WAKE_DONE of a domain whose wake is under way, whose parents are ON,
whose PLL is locked where it needs one, and for which no message waits, leaves it ON with no wake under way; while a
parent is not ON it changes nothing. (R66, R69, R72, R73, R75, R53) -/
def Obligations.WakeRequestsAndCompletion : Prop :=
  (∀ (l : LinkId) (s : State), (s.dom (dLnk l)).state ≠ .on → (s.dom (dLnk l)).sleepTo = none →
    Gives (.domainWake (.link l)) s fun t => (t.dom (dLnk l)).waking = true ∧ (t.dom (dLnk l)).state = (s.dom (dLnk l)).state) ∧
  (∀ (e : Fin 4) (s : State), (s.dom (1008 + e.val)).state ≠ .on → (s.dom (1008 + e.val)).sleepTo = none →
    Gives (.domainWake (.engine e)) s fun t => (t.dom (1008 + e.val)).waking = true) ∧
  (∀ (k : Fin 8) (s : State), (s.dom (dMem k)).state ≠ .on → (s.dom (dMem k)).sleepTo = none →
    (s.dom (dPhy k)).state ≠ .on → (s.dom (dPhy k)).sleepTo = none →
    Gives (.domainWake (.memory k)) s fun t => (t.dom (dMem k)).waking = true ∧ (t.dom (dPhy k)).waking = true) ∧
  (∀ (vc : Fin 8) (s : State), s.vcWset vc < 128 → Gives (.domainWake (.fabric vc)) s fun t => t = s) ∧
  (∀ (d : DomId) (s : State), d.val < 768 → s.fusedOff d = true → Gives (.domainWake (.agent d)) s fun t => t = s) ∧
  (∀ (d : DomId) (n : BitVec 31) (s : State), (s.dom d).waking = true → (∀ e ∈ domParents d, s.domOn e = true) →
    ((s.dom d).state ≠ .off ∨ d.val < 768 ∨ 960 ≤ d.val ∨ s.pw.pllLock.getLsbD ((d.val - 768) / 12) = true) →
    (∀ e ∈ s.deferred, e.1 ≠ d.val) →
    Gives (.domainWakeDone d n) s fun t => (t.dom d).state = .on ∧ (t.dom d).waking = false) ∧
  (∀ (d : DomId) (n : BitVec 31) (s : State) (e : Nat), e ∈ domParents d → s.domOn e = false →
    Gives (.domainWakeDone d n) s fun t => t = s)

/-- PWR_WAKE_HOLD that its page admits, naming a switched domain that is not a fused-off or fenced array, leaves the
domain held; naming a fused-off array it leaves every domain as it was. PWR_HOLD_RELEASE leaves it not held and
restarts the D-Idle count, and no wake follows. WSET_WAKE leaves every domain of the selected set that is no fused-
off or fenced array ON, waking, or with its wake waiting for the sleep under way. WSET_CLEAR leaves the selected
wake set empty and every other as it was. (R71, R72, R75, R76) -/
def Obligations.WakeHoldsAndSets : Prop :=
  (∀ (r : Requester) (v : Word32) (s : State), s.admits r pPWR 0x900 → fld v 0 10 < 1012 →
    (768 ≤ fld v 0 10 ∨ (s.fusedOff (fld v 0 10) = false ∧ s.isFenced (fld v 0 10) = false)) →
    Gives (.pwrWakeHold r v) s fun t => (t.dom (fld v 0 10)).hold = true) ∧
  (∀ (r : Requester) (v : Word32) (s : State), s.admits r pPWR 0x900 → fld v 0 10 < 768 →
    s.fusedOff (fld v 0 10) = true → Gives (.pwrWakeHold r v) s fun t => ∀ e, t.dom e = s.dom e) ∧
  (∀ (r : Requester) (v : Word32) (s : State), s.admits r pPWR 0x900 → fld v 0 10 < 1012 →
    Gives (.pwrHoldRelease r v) s fun t =>
      t.dom (fld v 0 10) = { s.dom (fld v 0 10) with hold := false } ∧ t.pw.idleTicks = 0 ∧
      (∀ e, e ≠ fld v 0 10 → t.dom e = s.dom e) ∧ t = { s with pw := t.pw, regs := t.regs, pages := t.pages }) ∧
  (∀ (r : Requester) (s : State), s.admits r pPWR 0x908 →
    Gives (.wsetWake r) s fun t => ∀ d, d < 1012 → (sget 0 s.pw.wsets s.wsetSel).getLsbD d = true →
      (768 ≤ d ∨ (s.fusedOff d = false ∧ s.isFenced d = false)) →
      (t.dom d).state = .on ∨ (t.dom d).waking = true ∨ (t.dom d).wakeAfter = true) ∧
  (∀ (r : Requester) (s : State), s.admits r pPWR 0x908 →
    Gives (.wsetClear r) s fun t =>
      sget 0 t.pw.wsets s.wsetSel = 0 ∧ (∀ n, n ≠ s.wsetSel → sget 0 t.pw.wsets n = sget 0 s.pw.wsets n) ∧
      t = { s with pw := { s.pw with wsets := t.pw.wsets }, pages := t.pages })

/-- DEEP_ENTRY with AUTO set, the D-Idle time reached, no queue entry, no domain held, waking or on its way to sleep,
and every listed domain RETAIN or OFF, enters D-Deep with the SCLK, FCLK and MCLK PLLs stopped and raises bit 16 of
the PWR page; while a domain is held it changes nothing. DEEP_EXIT, once a wake source has asked for it, leaves
D-Deep with those PLLs running and locked. Fuses, flash, memory and domains stay as they were. (R77, R78, R79, R58) -/
def Obligations.DeepSleepOfTheDevice : Prop :=
  (∀ s : State, bit (s.reg pPWR 0x108) 0 = true → s.pw.deep = false → fld (s.reg pPWR 0x108) 16 16 ≤ s.pw.idleTicks →
    s.queueHolds = false →
    (∀ e ∈ s.pw.doms, e.2.hold = false ∧ e.2.waking = false ∧ e.2.sleepTo = none ∧ (e.2.state = .retain ∨ e.2.state = .off)) →
    Gives .deepEntry s fun t =>
      t.pw.deep = true ∧ t.pw.pllRun &&& chipPlls = 0 ∧ bit (t.page pPWR).evt 16 = true ∧ t.pw.doms = s.pw.doms ∧
      t.nv = s.nv ∧ t.mem = s.mem) ∧
  (∀ (s : State) (d : Nat) (g : Dom), (d, g) ∈ s.pw.doms → g.hold = true → Gives .deepEntry s fun t => t = s) ∧
  (∀ s : State, s.pw.deep = true → s.pw.exitDue = true →
    Gives .deepExit s fun t =>
      t.pw.deep = false ∧ t.pw.pllRun &&& chipPlls = chipPlls ∧ t.pw.pllLock &&& chipPlls = chipPlls ∧
      t.pw.idleTicks = 0 ∧ t.pw.doms = s.pw.doms ∧ t.nv = s.nv ∧ t.mem = s.mem)

/-- TIMER_CLAIM of a free channel with an owner code of the requester claims it with result 0; of a claimed one it
leaves the owner and answers CLAIM_CONFLICT. TIMER_RELEASE frees a channel that the requester claimed, and leaves
one that it did not. AON_TMR_ALLOC claims the lowest free channel, or answers NO_CHANNEL with all eight claimed.
TIMER_FIRE of a due channel that no hardware owner holds, with no wake set, sets FIRED, raises event 16 + n, and
adds PERIOD to the compare value; of one not due it changes nothing. AON_WDOG_CTL with EN claims a channel for owner
0x83, due TIMEOUT ticks on; AON_WDOG_KICK with its key moves that channel's compare value, and with any other value
moves none. (R80, R81, R82, R83, R98, R99) -/
def Obligations.TimerChannels : Prop :=
  (∀ (r : Requester) (n : Fin 8) (v : Word32) (s : State), s.admits r pAON (0xA00 + 0x20 * n.val) →
    ownerCodeOk r (fld v 0 8) = true → s.claimOf n = none →
    Gives (.timerClaim r n v) s fun t =>
      t.claimOf n = some (claimantOf r) ∧ t.tmr n 0 = BitVec.ofNat 32 (fld v 0 8) ∧
      (if r = .host then t.pw.tmrResHost else t.pw.tmrResMgmt) = BitVec.ofNat 32 (n.val + 2 ^ 31)) ∧
  (∀ (r : Requester) (n : Fin 8) (v : Word32) (s : State) (c : Claimant), s.admits r pAON (0xA00 + 0x20 * n.val) →
    ownerCodeOk r (fld v 0 8) = true → s.claimOf n = some c →
    Gives (.timerClaim r n v) s fun t =>
      t.claimOf n = some c ∧ t.tmr n 0 = s.tmr n 0 ∧
      (if r = .host then t.pw.tmrResHost else t.pw.tmrResMgmt) = BitVec.ofNat 32 (n.val + 2 ^ 8 + 2 ^ 31)) ∧
  (∀ (r : Requester) (n : Fin 8) (s : State), s.admits r pAON (0xA00 + 0x20 * n.val) →
    Gives (.timerRelease r n) s fun t =>
      t.claimOf n = (if s.claimOf n = some (claimantOf r) then none else s.claimOf n) ∧
      ∀ m, m ≠ n.val → t.claimOf m = s.claimOf m) ∧
  (∀ (r : Requester) (v : Word32) (s : State), s.admits r pAON 0x9F0 → ownerCodeOk r (fld v 0 8) = true →
    Gives (.aonTmrAlloc r v) s fun t =>
      match s.freeTmr with
      | some n => t.claimOf n = some (claimantOf r) ∧ t.tmr n 0 = BitVec.ofNat 32 (fld v 0 8)
      | none => (∀ m, t.claimOf m = s.claimOf m) ∧
          (if r = .host then t.pw.tmrResHost else t.pw.tmrResMgmt) = BitVec.ofNat 32 (2 * 2 ^ 8 + 2 ^ 31)) ∧
  (∀ (n : Fin 8) (s : State), s.tmrDue n = true → s.claimOf n ≠ some .hw → bit (s.tmr n 0x10) 1 = false →
    Gives (.timerFire n) s fun t =>
      bit (t.tmr n 0x10) 2 = true ∧ bit (t.page pAON).evt (16 + n.val) = true ∧
      (s.tmr n 0xC ≠ 0 → t.cmp n = s.cmp n + (s.tmr n 0xC).setWidth 48) ∧ (s.tmr n 0xC = 0 → t.cmp n = s.cmp n) ∧
      t.pw.doms = s.pw.doms) ∧
  (∀ (n : Fin 8) (s : State), s.tmrDue n = false → Gives (.timerFire n) s fun t => t = s) ∧
  (∀ (r : Requester) (v : Word32) (n : Nat) (s : State), s.admits r pAON 0x8B0 → bit v 0 = true → s.freeTmr = some n →
    Gives (.aonWdogCtl r v) s fun t =>
      t.claimOf n = some .hw ∧ t.tmr n 0 = 0x83 ∧ t.cmp n = s.pw.aonTime + BitVec.ofNat 48 (fld v 8 24) ∧
      bit (t.reg pAON 0x8B0) 0 = true) ∧
  (∀ (r : Requester) (n : Nat) (s : State), s.admits r pAON 0x8B4 → s.hwTmr 0x83 = some n →
    Gives (.aonWdogKick r 0x4B49434B) s fun t => t.cmp n = s.pw.aonTime + BitVec.ofNat 48 (fld (s.reg pAON 0x8B0) 8 24)) ∧
  (∀ (r : Requester) (v : Word32) (s : State), s.admits r pAON 0x8B4 → v ≠ 0x4B49434B →
    Gives (.aonWdogKick r v) s fun t => t = { s with pages := t.pages })

/-- SUPPLY_WARN_ASSERT of a rail that does not warn yet sets its warn and its sticky bit, counts it, and raises bit 24
of the AON page; SUPPLY_WARN_CLEAR clears the warn and nothing else. NV_OP_DONE of a fuse operation, with no
operation waiting, leaves the word with every bit it had before and, where the read-back is the OR, exactly the OR
of the old word and the value; it leaves every other word and the flash as they were. With no operation under way it
changes nothing. (R85, R89, R90, R111, R119) -/
def Obligations.SupplyWarningsAndNvUnit : Prop :=
  (∀ (i : Fin 3) (s : State), s.pw.warn.getLsbD i = false → (i.val = 2 → s.gpioSag = true) →
    Gives (.supplyWarnAssert i) s fun t =>
      t.pw.warn.getLsbD i = true ∧ bit (t.reg pAON 0x80C) i = true ∧ t.reg64 pAON 0xF08 = s.reg64 pAON 0xF08 + 1 ∧
      bit (t.page pAON).evt 24 = true ∧ t.nv = s.nv) ∧
  (∀ (i : Fin 3) (s : State), Gives (.supplyWarnClear i) s fun t =>
      t.pw.warn.getLsbD i = false ∧ (∀ j, j ≠ i.val → t.pw.warn.getLsbD j = s.pw.warn.getLsbD j) ∧
      t = { s with pw := { s.pw with warn := t.pw.warn } }) ∧
  (∀ (w : BitVec 7) (v : Word32) (rb : Option Word32) (s : State), s.nv.op = some (.fuse w v) → s.nv.queue = [] →
    Gives (.nvOpDone rb) s fun t =>
      t.nv.op = none ∧ t.fuse w.toNat &&& s.fuse w.toNat = s.fuse w.toNat ∧
      (rb.getD (s.fuse w.toNat ||| v) = s.fuse w.toNat ||| v →
        t.fuse w.toNat = s.fuse w.toNat ||| v ∧ t.reg64 pFUS 0xF00 = s.reg64 pFUS 0xF00 + 1) ∧
      (rb.getD (s.fuse w.toNat ||| v) ≠ s.fuse w.toNat ||| v → t.reg pFUS 0xA0C = 8) ∧
      (∀ x, x ≠ w.toNat → t.fuse x = s.fuse x) ∧ t.nv.flash = s.nv.flash) ∧
  (∀ (rb : Option Word32) (s : State), s.nv.op = none → Gives (.nvOpDone rb) s fun t => t = s)

/-- A POWER_ON_RESET clears the timestamp, the log ring and every register but the strapped SMBus address, and takes
every switched domain OFF. SAG_RESET with a rail, PERST_RESET of at least 1 microsecond, AON_RST_REQ with its key,
FATAL_RESET once the entry is written, and REFCLK_LOST keep the timestamp and the log ring, record their cause in
AON_RST_CAUSE, take every switched domain OFF, stop every PLL, unlock every page, free every timer channel and load
no context. With no NV operation under way every kind keeps fuses and flash; in every kind the queue of waiting
commands stays (the queue is the model's own). Another value written to AON_RST_REQ, and a FATAL_RESET with no FATAL
error, reset nothing. (R93, R94, R95, R61, R579, R108, 04_reset_boot.md) -/
def Obligations.ResetsKeepAndClear : Prop :=
  let cleared (t : State) : Prop :=
    (∀ d, (t.dom d).state = .off ∧ (t.dom d).waking = false) ∧ t.pw.pllRun = 0 ∧ t.pw.pllLock = 0 ∧
    (∀ p, t.page p = {}) ∧ (∀ n, t.claimOf n = none) ∧ (∀ x, (t.ctx x).state = .free) ∧ t.tier = {} ∧ t.eps = {} ∧
    t.clx = {} ∧ t.anl = {} ∧ t.wpb = {} ∧ t.cores = []
  let kept (s t : State) (cause : Nat) : Prop :=
    cleared t ∧ t.pw.aonTime = s.pw.aonTime ∧ t.log.ring = s.log.ring ∧ fld (t.reg pAON 0x880) 0 3 = cause ∧
    t.reg64 pAON 0x884 = s.pw.aonTime.setWidth 64 ∧ t.pending = s.pending ∧
    (s.nv.op = none → t.nv.fuses = s.nv.fuses ∧ t.nv.flash = s.nv.flash)
  (∀ (k : BitVec 3) (s : State), Gives (.powerOnReset k) s fun t =>
    cleared t ∧ t.pw.aonTime = 0 ∧ t.log = {} ∧ t.reg pMGT 0x800 = BitVec.ofNat 32 (0x58 + k.toNat) ∧
    (∀ p o, p * 4096 + o ≠ pMGT * 4096 + 0x800 → t.reg p o = regReset p o) ∧ t.pending = s.pending ∧
    (s.nv.op = none → t.nv.fuses = s.nv.fuses ∧ t.nv.flash = s.nv.flash)) ∧
  (∀ (rails : BitVec 2) (s : State), rails ≠ 0 → Gives (.sagReset rails) s fun t => kept s t 1) ∧
  (∀ s : State, Gives (.perstReset true) s fun t => kept s t 2) ∧
  (∀ (r : Requester) (s : State), s.admits r pAON 0x8A8 → Gives (.aonRstReq r 0x52534554) s fun t => kept s t 3) ∧
  (∀ (r : Requester) (v : Word32) (s : State), s.admits r pAON 0x8A8 → v ≠ 0x52534554 →
    Gives (.aonRstReq r v) s fun t => t = { s with pages := t.pages }) ∧
  (∀ s : State, s.log.fatal = true → (∀ e ∈ s.log.queue, e.cls ≠ cFATAL) → Gives .fatalReset s fun t => kept s t 5) ∧
  (∀ s : State, s.log.fatal = false → Gives .fatalReset s fun t => t = s) ∧
  (∀ s : State, s.pw.refPresent = true → Gives .refclkLost s fun t => kept s t 5 ∧ t.pw.refPresent = false)

/-- RESET_RELEASE at a state that no boot has left senses the fuses; where the fuse vote fails or the array map
contradicts the grade, it stops at step 3 with BOOT_FUSE_BAD and FAILED; otherwise, where the flash is not usable,
at step 5 with BOOT_FLASH_BAD; and otherwise, where no eligible image has tries left, at step 5 with BOOT_NO_IMAGE
and RECOVERY set. A RESET_RELEASE during or after boot changes nothing. AON_RECOVERY_GO with 1 in recovery leaves
ROM in recovery where the image at BAR2 offset 0 is not eligible; where it is, AON_FW_VERSION holds its BUILD at
step 6 or later, unless the NV configuration it applies resets the chip. Which keys the ROM holds is a free value
(DESIGN CHOICE, log entry 5), so that no concrete eligible image can be shown. (R100, R103, R107, R109, R117, R118,
04_reset_boot.md) -/
def Obligations.BootFromReset : Prop :=
  (∀ (env : BootEnv) (s : State), s.bootStep = 0 → Gives (.resetRelease env) s fun t =>
    ((env.fuseVoteFailed = true ∨ s.fusesOk = false) →
      fld (t.reg pAON 0x890) 0 8 = 3 ∧ fld (t.reg pAON 0x890) 8 8 = 1 ∧ bit (t.reg pAON 0x890) 17 = true ∧
      t.nv.sensed = true) ∧
    (env.fuseVoteFailed = false → s.fusesOk = true →
      (env.sfdpOk = false ∨ env.sfdpErase4k = false ∨ env.sfdpAddr4 = false) →
      fld (t.reg pAON 0x890) 0 8 = 5 ∧ fld (t.reg pAON 0x890) 8 8 = 2 ∧ bit (t.reg pAON 0x890) 17 = true) ∧
    (env.fuseVoteFailed = false → s.fusesOk = true → env.sfdpOk = true → env.sfdpErase4k = true → env.sfdpAddr4 = true →
      s.chooseImage = none → s.deferred = [] →
      fld (t.reg pAON 0x890) 0 8 = 5 ∧ fld (t.reg pAON 0x890) 8 8 = 3 ∧ bit (t.reg pAON 0x890) 17 = true ∧
      bit (t.reg pAON 0x890) 19 = true ∧ (t.dom (dClu 0)).state = .on)) ∧
  (∀ (env : BootEnv) (s : State), s.bootStep ≠ 0 → Gives (.resetRelease env) s fun t => t = s) ∧
  (∀ (r : Requester) (s : State), s.admits r pAON 0x8C0 → s.recovering = true →
    s.imageOk (fun a n => sgets 0 s.mem.pool a n) = false →
    Gives (.aonRecoveryGo r 1) s fun t => t = { s with pages := t.pages }) ∧
  (∀ (r : Requester) (s : State), s.admits r pAON 0x8C0 → s.recovering = true → s.nv.env.isSome →
    Gives (.aonRecoveryGo r 1) s fun t =>
      s.imageOk (fun a n => sgets 0 s.mem.pool a n) = true → s.nvEntries = [] → s.deferred = [] →
        t.reg pAON 0x898 = BitVec.ofNat 32 (lef (sgets 0 s.mem.pool 0 0xA0) 0xC 4) ∧ 7 ≤ fld (t.reg pAON 0x890) 0 8)

/-- AON_BOOT_CONFIRM with its key confirms the boot and clears the tries of the image that runs. TRAINING_RECORD_WRITE
after READY with no record due changes nothing; with one due, no longer due afterwards, it submits a training
operation, which runs when the unit is idle and the guard admits it. FUS_PROG_CMD with its key, FIELD_EN, a field-
programmable word and the unit idle starts the fuse operation when the guard admits it, and changes no fuse; for a
word that is not field-programmable, or without FIELD_EN, it answers DENIED and starts none. (R108, R116, R117,
R119, R89) -/
def Obligations.BootConfirmAndNvRequests : Prop :=
  (∀ (r : Requester) (i : Fin 2) (s : State), s.admits r pAON 0x8BC → s.nv.image = some i →
    Gives (.aonBootConfirm r 0x4F4B4159) s fun t =>
      t.nv.confirmed = true ∧ t.tries i = 0 ∧ (∀ j : Fin 2, j ≠ i → t.tries j = s.tries j)) ∧
  (∀ (k : Fin 8) (s : State), (∀ e ∈ s.nv.trainDue, e.1 ≠ k.val) → Gives (.trainingRecordWrite k) s fun t => t = s) ∧
  (∀ (k : Fin 8) (due : List Byte) (s : State), bit (s.reg pAON 0x890) 16 = true → (k.val, due) ∈ s.nv.trainDue →
    s.nv.op = none → s.nv.queue = [] → s.pw.warn = 0 → fld (s.reg pAON 0x100) 0 16 ≠ 0 →
    Gives (.trainingRecordWrite k) s fun t =>
      (∀ e ∈ t.nv.trainDue, e.1 ≠ k.val) ∧ (∃ sl rec, t.nv.op = some (.train k.val sl rec 0)) ∧ t.nv.flash = s.nv.flash ∧
      t.reg pAON 0x814 = 32) ∧
  (∀ (r : Requester) (s : State), s.admits r pFUS 0xA08 → bit (s.reg pFUS 0xA0C) 0 = false → bit (s.reg pFUS 0x100) 0 = true →
    fuseField (fld (s.reg pFUS 0xA00) 0 7) = true → s.nv.op = none → s.nv.queue = [] → s.pw.warn = 0 →
    450 ≤ fld (s.reg pAON 0x100) 0 16 →
    Gives (.fusProgCmd r 0x46555345) s fun t =>
      t.nv.op = some (.fuse (BitVec.ofNat 7 (fld (s.reg pFUS 0xA00) 0 7)) (s.reg pFUS 0xA04)) ∧ t.nv.fuses = s.nv.fuses ∧
      t.reg pFUS 0xA0C = 1) ∧
  (∀ (r : Requester) (s : State), s.admits r pFUS 0xA08 → bit (s.reg pFUS 0xA0C) 0 = false →
    (bit (s.reg pFUS 0x100) 0 = false ∨ fuseField (fld (s.reg pFUS 0xA00) 0 7) = false) →
    Gives (.fusProgCmd r 0x46555345) s fun t => t.reg pFUS 0xA0C = 6 ∧ t.nv = s.nv)

/-- On a core that can issue the instruction's word, with the sentinel off, each of ADD, SUB, AND, OR, XOR, SLL, SRL,
SRA, MUL, MULHU, MULH, MIN, MAX, MINU, MAXU, SLT, SLTU, SEQ puts in flight for RD the value that its row gives for
RA and b, with latency 1, or 4 for the multiplications, poisoned where an operand is; LUIH, NOP likewise. The PC
advances by 8, one cycle passes, and no other core, register page, context or memory changes but the core's
counters. A result that is due lands as the core issues its next instruction: RD then reads it, and s0 reads 0
whatever is written to it. (R155, R160, R211, R213, R216, R573, 06_hj1_baseline.md, 07_hj2_contract.md) -/
def Obligations.ScalarResults : Prop :=
  let alu (mk : SOp → Instr) (fn lat : Nat) (f : Word64 → Word64 → Word64) : Prop :=
    ∀ (o : SOp) (x : CtxId) (s : State), s.runs o.core x (encS 0x02 fn o) →
      Gives (mk o) s fun t =>
        let k := s.found o.core
        let b := if o.i then o.imm.signExtend 64 else k.th.s o.rb
        s.ran t o.core [(lat, .sreg o.rd (f (k.th.s o.ra) b) (k.th.sp o.ra || (!o.i && k.th.sp o.rb)))] 0 ∧ s.onlyCores t
  alu .add 0x00 1 (fun a b => a + b) ∧ alu .sub 0x01 1 (fun a b => a - b) ∧ alu .and 0x02 1 (fun a b => a &&& b) ∧
  alu .or 0x03 1 (fun a b => a ||| b) ∧ alu .xor 0x04 1 (fun a b => a ^^^ b) ∧
  alu .sll 0x05 1 (fun a b => a <<< (b &&& 63).toNat) ∧ alu .srl 0x06 1 (fun a b => a >>> (b &&& 63).toNat) ∧
  alu .sra 0x07 1 (fun a b => a.sshiftRight (b &&& 63).toNat) ∧ alu .mul 0x08 4 (fun a b => a * b) ∧
  alu .mulhu 0x09 4 (fun a b => (a.setWidth 128 * b.setWidth 128).extractLsb' 64 64) ∧
  alu .mulh 0x0A 4 (fun a b => (a.signExtend 128 * b.signExtend 128).extractLsb' 64 64) ∧
  alu .min 0x0B 1 (fun a b => if a.toInt ≤ b.toInt then a else b) ∧
  alu .max 0x0C 1 (fun a b => if a.toInt ≤ b.toInt then b else a) ∧
  alu .minu 0x0D 1 (fun a b => if a ≤ b then a else b) ∧ alu .maxu 0x0E 1 (fun a b => if a ≤ b then b else a) ∧
  alu .slt 0x0F 1 (fun a b => if a.toInt < b.toInt then 1 else 0) ∧ alu .sltu 0x10 1 (fun a b => if a < b then 1 else 0) ∧
  alu .seq 0x11 1 (fun a b => if a = b then 1 else 0) ∧
  (∀ (o : SOp) (x : CtxId) (s : State), s.runs o.core x (encS 0x03 0 o) →
    Gives (.luih o) s fun t =>
      let k := s.found o.core
      s.ran t o.core [(1, .sreg o.rd ((o.imm.setWidth 64 <<< 32) ||| (k.th.s o.ra &&& 0xFFFFFFFF)) (k.th.sp o.ra))] 0 ∧
      s.onlyCores t) ∧
  (∀ (o : SOp) (x : CtxId) (s : State), s.runs o.core x (encS 0x01 0 o) →
    Gives (.nop o) s fun t => s.ran t o.core [] 0 ∧ s.onlyCores t) ∧
  (∀ (k : Core) (n q : Nat) (r : Fin 32) (v : Word64) (p : Bool), k.th.lands = [⟨n, q, .sreg r v p⟩] → n ≤ k.th.cyc →
    k.settle.th.s r = (if r = 0 then 0 else v) ∧ k.settle.th.sp r = (r != 0 && p) ∧ k.settle.th.lands = [] ∧
    ∀ i, i ≠ r → k.settle.th.s i = k.th.s i)

/-- LD with a clean, aligned address inside scratch puts in flight, 4 cycles on, the 1, 2, 4 or 8 bytes at RA plus IMM32
as the load's read sees them, zero- or sign-extended by FN, poisoned where a touched line is marked; ST likewise
puts the low bytes of RB in flight for scratch, 3 cycles on, with RB's poison. SPR puts the selected special value
in flight for RD, 2 cycles on, and reading FPFLAGS clears the flags. An access with a poisoned address, past the end
of scratch, or misaligned traps POISON_CONSUMED, SCRATCH_BOUND or MISALIGNED, in that order, and ends the program
with that status. (R160, R161, R162, R183, R216, R575, R576) -/
def Obligations.ScalarMemoryAndSpecialValues : Prop :=
  let addr (k : Core) (o : SOp) : Nat := (k.th.s o.ra + o.imm.signExtend 64).toNat
  (∀ (o : SOp) (fn : BitVec 6) (x : CtxId) (s : State), s.runs o.core x (encS 0x04 fn.toNat o) →
    let k := s.found o.core
    let n := 2 ^ (fn.toNat % 4)
    k.th.sp o.ra = false → addr k o + n ≤ 0x300000 → addr k o % n = 0 →
    Gives (.ld o fn) s fun t =>
      let q := k.viewAt (k.th.cyc + 2)
      let raw := BitVec.ofNat (8 * n) (leNat (q.rd (addr k o) n))
      s.ran t o.core [(4, .sreg o.rd (if fn.getLsbD 2 then raw.signExtend 64 else raw.setWidth 64) (q.marked (addr k o) n))] 0 ∧
      s.onlyCores t) ∧
  (∀ (o : SOp) (fn : BitVec 6) (x : CtxId) (s : State), s.runs o.core x (encS 0x05 fn.toNat o) →
    let k := s.found o.core
    let n := 2 ^ (fn.toNat % 4)
    k.th.sp o.ra = false → addr k o + n ≤ 0x300000 → addr k o % n = 0 →
    Gives (.st o fn) s fun t =>
      s.ran t o.core [(3, .scratch (addr k o) ((leBytes n (k.th.s o.rb).toNat).map some) (k.th.sp o.rb))] 0 ∧
      s.onlyCores t) ∧
  (∀ (o : SOp) (x : CtxId) (s : State), s.runs o.core x (encS 0x0B 0 o) →
    let k := s.found o.core
    Gives (.spr o) s fun t =>
      (t.core o.core).th.lands =
        (k.th.push [(2, .sreg o.rd (BitVec.ofNat 64 (sprValue s o.core x k o.imm.toNat)) false)]).lands ∧
      (t.core o.core).th.fpf = (if o.imm = 7 then 0 else k.th.fpf) ∧ (t.core o.core).th.pc = k.th.pc + 8 ∧ s.onlyCores t) ∧
  (∀ (o : SOp) (fn : BitVec 6) (x : CtxId) (s : State), s.runs o.core x (encS 0x04 fn.toNat o) →
    let k := s.found o.core
    let n := 2 ^ (fn.toNat % 4)
    (s.ctx x).endWith = none →
    (k.th.sp o.ra = true ∨ 0x300000 < addr k o + n ∨ addr k o % n ≠ 0) →
    Gives (.ld o fn) s fun t =>
      (t.ctx x).state = .ending ∧
      (t.ctx x).endWith = some (if k.th.sp o.ra then stPOISON_CONSUMED else if 0x300000 < addr k o + n then stSCRATCH_BOUND
        else stMISALIGNED))

/-- BEQ, BNE, BLT, BGE, BLTU and BGEU with clean operands go to PC plus 8 times IMM32 after 3 cycles where their
relation holds between RA and RB and that target lies in the context's code, and to the next word after 1 cycle
where it does not hold. JAL goes to PC plus 8 times IMM32 and JR to RA plus IMM32, both after 3 cycles, with the
return address in flight for RD. A taken target outside the code traps FETCH_BOUND. A word that is not permitted
traps ILLEGAL_INSTR. (R160, R161, R216, R522, R576, R159) -/
def Obligations.BranchesAndJumps : Prop :=
  let rel (k : Core) (o : SOp) : Word64 := k.th.pc + o.imm.signExtend 64 * 8
  let went (s t : State) (c : CoreId) (pc : Word64) (lands : List (Nat × LandVal)) : Prop :=
    (t.core c).th = { (s.found c).th.push lands with pc := pc, cyc := (s.found c).th.cyc + 3 } ∧
    (∀ e, e ≠ c.val → t.core e = s.core e) ∧ s.onlyCores t
  let br (mk : SOp → Instr) (fn : Nat) (f : Word64 → Word64 → Bool) : Prop :=
    ∀ (o : SOp) (x : CtxId) (s : State), s.runs o.core x (encS 0x08 fn o) →
      let k := s.found o.core
      k.th.sp o.ra = false → k.th.sp o.rb = false →
      (f (k.th.s o.ra) (k.th.s o.rb) = true → (s.ctx x).inCode o.core (rel k o) = true →
        Gives (mk o) s fun t => went s t o.core (rel k o) []) ∧
      (f (k.th.s o.ra) (k.th.s o.rb) = false → Gives (mk o) s fun t => s.ran t o.core [] 0 ∧ s.onlyCores t) ∧
      (f (k.th.s o.ra) (k.th.s o.rb) = true → (s.ctx x).inCode o.core (rel k o) = false → (s.ctx x).endWith = none →
        Gives (mk o) s fun t => (t.ctx x).state = .ending ∧ (t.ctx x).endWith = some stFETCH_BOUND)
  br .beq 0 (fun a b => decide (a = b)) ∧ br .bne 1 (fun a b => decide (a ≠ b)) ∧
  br .blt 2 (fun a b => decide (a.toInt < b.toInt)) ∧ br .bge 3 (fun a b => decide (b.toInt ≤ a.toInt)) ∧
  br .bltu 4 (fun a b => decide (a < b)) ∧ br .bgeu 5 (fun a b => decide (b ≤ a)) ∧
  (∀ (o : SOp) (x : CtxId) (s : State), s.runs o.core x (encS 0x09 0 o) →
    let k := s.found o.core
    (s.ctx x).inCode o.core (rel k o) = true →
    Gives (.jal o) s fun t => went s t o.core (rel k o) [(1, .sreg o.rd (k.th.pc + 8) false)]) ∧
  (∀ (o : SOp) (x : CtxId) (s : State), s.runs o.core x (encS 0x0A 0 o) →
    let k := s.found o.core
    let tgt := k.th.s o.ra + o.imm.signExtend 64
    k.th.sp o.ra = false → tgt.toNat % 8 = 0 → (s.ctx x).inCode o.core tgt = true →
    Gives (.jr o) s fun t => went s t o.core tgt [(1, .sreg o.rd (k.th.pc + 8) false)]) ∧
  (∀ (c : CoreId) (w : Word64) (x : CtxId) (s : State), s.canIssue c = true → (s.found c).ctx = some x →
    (s.ctx x).inCode c (s.found c).th.pc = true → legalWord w.toNat = false → (s.ctx x).endWith = none →
    Gives (.illegalInstr c w) s fun t =>
      (t.ctx x).state = .ending ∧ (t.ctx x).endWith = some stILLEGAL_INSTR ∧
      t.reg64 pERR 0xF08 = s.reg64 pERR 0xF08 + 1)

/-- On a core that can issue the instruction's word, with the sentinel off, each VFP and VINT instruction puts in flight
for VD a value whose active lanes hold the function of its row of the lanes of VA and of operand B (VB, or SS[31:0]
under BS) and, for VFMA and VFMS, of VC; inactive lanes are left, or zero with PZ. The latency is the row's, the
poison that of the sources, of the governing predicate and of a destination merged into, and the flags are those
that the active lanes raise. Nothing outside the core and its counters changes. Of the floating-point functions
themselves another statement gives the special values. (R163, R164, R178, R180, R182, R183, R216, R573,
06_hj1_baseline.md) -/
def Obligations.VectorLaneArithmetic : Prop :=
  let bin (mk : VOp → Instr) (op fn lat : Nat) (f : Word32 → Word32 → Word32 × FFlags) : Prop :=
    ∀ (o : VOp) (x : CtxId) (s : State), s.runs o.core x (encV op fn o) →
      Gives (mk o) s fun t =>
        let k := s.found o.core
        let r (l : Nat) := f (vlane (k.th.v o.va) l) (if o.bs then (k.th.s o.ss).setWidth 32 else vlane (k.th.v o.vb) l)
        ∃ m v, LanesHold k o (fun l => (r l).1) m v ∧
          s.ran t o.core [(lat, .vreg o.vd m v (k.th.vp o.va || (if o.bs then k.th.sp o.ss else k.th.vp o.vb) || k.th.ap o
            || mergePoison k o))] (laneFlags (k.th.active o) (fun l => (r l).2) 64) ∧ s.onlyCores t
  let un (mk : VOp → Instr) (op fn lat : Nat) (f : Word32 → Word32 × FFlags) : Prop :=
    ∀ (o : VOp) (x : CtxId) (s : State), s.runs o.core x (encV op fn o) →
      Gives (mk o) s fun t =>
        let k := s.found o.core
        ∃ m v, LanesHold k o (fun l => (f (vlane (k.th.v o.va) l)).1) m v ∧
          s.ran t o.core [(lat, .vreg o.vd m v (k.th.vp o.va || k.th.ap o || mergePoison k o))]
            (laneFlags (k.th.active o) (fun l => (f (vlane (k.th.v o.va) l)).2) 64) ∧ s.onlyCores t
  let tri (mk : VOp → Instr) (op fn lat : Nat) (f : Word32 → Word32 → Word32 → Word32 × FFlags) : Prop :=
    ∀ (o : VOp) (x : CtxId) (s : State), s.runs o.core x (encV op fn o) →
      Gives (mk o) s fun t =>
        let k := s.found o.core
        let r (l : Nat) := f (vlane (k.th.v o.va) l) (if o.bs then (k.th.s o.ss).setWidth 32 else vlane (k.th.v o.vb) l)
          (vlane (k.th.v o.vc) l)
        ∃ m v, LanesHold k o (fun l => (r l).1) m v ∧
          s.ran t o.core [(lat, .vreg o.vd m v (k.th.vp o.va || (if o.bs then k.th.sp o.ss else k.th.vp o.vb) || k.th.vp o.vc
            || k.th.ap o || mergePoison k o))] (laneFlags (k.th.active o) (fun l => (r l).2) 64) ∧ s.onlyCores t
  bin .vadd 0x20 0 4 fadd ∧ bin .vsub 0x20 1 4 fsub ∧ bin .vmul 0x20 2 4 fmul ∧ tri .vfma 0x20 3 5 ffma ∧
  tri .vfms 0x20 4 5 ffms ∧ bin .vmin 0x20 5 4 (fminmax false) ∧ bin .vmax 0x20 6 4 (fminmax true) ∧
  un .vabs 0x20 7 2 (fun a => (a &&& 0x7FFFFFFF, 0)) ∧ un .vneg 0x20 8 2 (fun a => (a ^^^ 0x80000000, 0)) ∧
  bin .vdiv 0x20 9 14 fdiv ∧ un .vsqrt 0x20 0x0A 12 fsqrt ∧ un .vrsqrt 0x20 0x0B 12 frsqrt ∧
  un .vexp2 0x20 0x0C 10 fexp2 ∧ un .vlog2 0x20 0x0D 10 flog2 ∧
  bin .vintAdd 0x21 0 2 (fun a b => (a + b, 0)) ∧ bin .vintSub 0x21 1 2 (fun a b => (a - b, 0)) ∧
  bin .vintMul 0x21 2 4 (fun a b => (a * b, 0)) ∧ bin .vintAnd 0x21 3 2 (fun a b => (a &&& b, 0)) ∧
  bin .vintOr 0x21 4 2 (fun a b => (a ||| b, 0)) ∧ bin .vintXor 0x21 5 2 (fun a b => (a ^^^ b, 0)) ∧
  bin .vintSll 0x21 6 2 (fun a b => (a <<< (b &&& 31).toNat, 0)) ∧ bin .vintSrl 0x21 7 2 (fun a b => (a >>> (b &&& 31).toNat, 0)) ∧
  bin .vintSra 0x21 8 2 (fun a b => (a.sshiftRight (b &&& 31).toNat, 0)) ∧
  bin .vintMin 0x21 9 2 (fun a b => (if a.toInt ≤ b.toInt then a else b, 0)) ∧
  bin .vintMax 0x21 0x0A 2 (fun a b => (if a.toInt ≤ b.toInt then b else a, 0)) ∧
  bin .vintMinu 0x21 0x0B 2 (fun a b => (if a ≤ b then a else b, 0)) ∧
  bin .vintMaxu 0x21 0x0C 2 (fun a b => (if a ≤ b then b else a, 0))

/-- Each VCMP puts in flight for predicate VD[2:0] a value whose active bits hold the relation of its row, the integer
ones signed or unsigned as named. VPRED AND, OR, XOR, ANDN, SET and CLR write all 64 bits, 1 cycle on; CNT puts the
number of 1 bits and FIRST the lowest 1 bit, 64 with none, in flight for SS. CKSUM.CMP without the tolerance form
puts in flight the predicate of the active lanes in which VA and VB differ, and their number for SS. CKSUM.LOG of a
clean SS whose high word is 0 adds its low word to the checks of a live job and ends no program. (R163, R164, R179,
R183, R198, R199, R216, 06_hj1_baseline.md, 07_hj2_contract.md) -/
def Obligations.VectorComparesAndPredicates : Prop :=
  let cmp (mk : VOp → Instr) (fn : Nat) (f : Word32 → Word32 → Bool × FFlags) : Prop :=
    ∀ (o : VOp) (x : CtxId) (s : State), s.runs o.core x (encV 0x22 fn o) →
      Gives (mk o) s fun t =>
        let k := s.found o.core
        let r (l : Nat) := f (vlane (k.th.v o.va) l) (if o.bs then (k.th.s o.ss).setWidth 32 else vlane (k.th.v o.vb) l)
        ∃ m v, BitsHold k o (fun l => (r l).1) m v ∧
          s.ran t o.core [(2, .preg (pfld o.vd) m v (k.th.vp o.va || (if o.bs then k.th.sp o.ss else k.th.vp o.vb)
            || k.th.ap o || (o.pe && !o.pz && k.th.pp (pfld o.vd))))]
            (laneFlags (k.th.active o) (fun l => (r l).2) 64) ∧ s.onlyCores t
  let pair (mk : VOp → Instr) (fn : Nat) (f : Bool → Bool → Bool) : Prop :=
    ∀ (o : VOp) (x : CtxId) (s : State), s.runs o.core x (encV 0x26 fn o) →
      Gives (mk o) s fun t =>
        let k := s.found o.core
        ∃ v : BitVec 64, (∀ l, l < 64 → v.getLsbD l = f ((k.th.p (pfld o.va)).getLsbD l) ((k.th.p (pfld o.vb)).getLsbD l)) ∧
          s.ran t o.core [(1, .preg (pfld o.vd) (BitVec.allOnes 64) v (k.th.pp (pfld o.va) || k.th.pp (pfld o.vb)))] 0 ∧
          s.onlyCores t
  cmp .feq 0 (fcmp 0) ∧ cmp .fne 1 (fcmp 1) ∧ cmp .flt 2 (fcmp 2) ∧ cmp .fle 3 (fcmp 3) ∧
  cmp .ieq 4 (fun a b => (decide (a = b), 0)) ∧ cmp .ine 5 (fun a b => (decide (a ≠ b), 0)) ∧
  cmp .ilt 6 (fun a b => (decide (a.toInt < b.toInt), 0)) ∧ cmp .ile 7 (fun a b => (decide (a.toInt ≤ b.toInt), 0)) ∧
  cmp .iltu 8 (fun a b => (decide (a < b), 0)) ∧ cmp .ileu 9 (fun a b => (decide (a ≤ b), 0)) ∧
  pair .vpredAnd 0 (fun a b => a && b) ∧ pair .vpredOr 1 (fun a b => a || b) ∧ pair .vpredXor 2 (fun a b => a != b) ∧
  pair .vpredAndn 3 (fun a b => a && !b) ∧
  (∀ (o : VOp) (x : CtxId) (s : State), s.runs o.core x (encV 0x26 4 o) →
    Gives (.vpredSet o) s fun t =>
      s.ran t o.core [(1, .preg (pfld o.vd) (BitVec.allOnes 64) (BitVec.allOnes 64) false)] 0 ∧ s.onlyCores t) ∧
  (∀ (o : VOp) (x : CtxId) (s : State), s.runs o.core x (encV 0x26 5 o) →
    Gives (.vpredClr o) s fun t => s.ran t o.core [(1, .preg (pfld o.vd) (BitVec.allOnes 64) 0 false)] 0 ∧ s.onlyCores t) ∧
  (∀ (o : VOp) (x : CtxId) (s : State), s.runs o.core x (encV 0x26 6 o) →
    Gives (.vpredCnt o) s fun t =>
      let k := s.found o.core
      let n := ((List.range 64).filter (fun l => (k.th.p (pfld o.va)).getLsbD l)).length
      s.ran t o.core [(2, .sreg o.ss (BitVec.ofNat 64 n) (k.th.pp (pfld o.va)))] 0 ∧ s.onlyCores t) ∧
  (∀ (o : VOp) (x : CtxId) (s : State), s.runs o.core x (encV 0x26 7 o) →
    Gives (.vpredFirst o) s fun t =>
      let k := s.found o.core
      ∃ n : Nat, (∀ l, l < n → l < 64 → (k.th.p (pfld o.va)).getLsbD l = false) ∧
        (n < 64 → (k.th.p (pfld o.va)).getLsbD n = true) ∧ n ≤ 64 ∧
        s.ran t o.core [(2, .sreg o.ss (BitVec.ofNat 64 n) (k.th.pp (pfld o.va)))] 0 ∧ s.onlyCores t) ∧
  (∀ (o : VOp) (x : CtxId) (s : State), s.runs o.core x (encV 0x2A 0 o) → o.imm.getLsbD 0 = false →
    Gives (.cksumCmp o) s fun t =>
      let k := s.found o.core
      let po := k.th.vp o.va || k.th.vp o.vb || k.th.ap o
      let differ (l : Nat) : Bool := decide (vlane (k.th.v o.va) l ≠ vlane (k.th.v o.vb) l)
      ∃ m v, BitsHold k o differ m v ∧
        s.ran t o.core [(5, .preg (pfld o.vd) m v (po || (o.pe && !o.pz && k.th.pp (pfld o.vd)))),
          (6, .sreg o.ss (BitVec.ofNat 64 ((List.range 64).filter (fun l => k.th.active o l && differ l)).length) po)] 0 ∧
        s.onlyCores t) ∧
  (∀ (o : VOp) (x : CtxId) (s : State), s.runs o.core x (encV 0x2A 1 o) →
    let k := s.found o.core
    k.th.sp o.ss = false → (k.th.s o.ss).toNat < 2 ^ 32 →
    Gives (.cksumLog o) s fun t =>
      s.ran t o.core [] 0 ∧ t = { s with cores := t.cores, regs := t.regs, chk := t.chk } ∧
      ((s.job x).live = true → (t.job x).counts = { (s.job x).counts with
        swChecks := (s.job x).counts.swChecks + (k.th.s o.ss).toNat }))

/-- F2I, I2F, B2F, B82I, E42F, E52F and MOV hold their function of VA lane by lane (the unpacking ones of the field of
VA that IMM18 selects); F2B, I2B8, F2E4 and F2E5 put in flight the packed field of VD that IMM18 selects, its active
elements holding the converted lanes, and leave every other bit of VD. BCAST, PERM, IOTA and SEL hold SS[31:0], the
lane of VA that VB names, the lane number, and VA or VB as PRED says. GET puts one lane of VA in flight for SS and
PUT one lane for VD. FSUM, FMAX, FMIN, ISUM, IMAX, IMIN and FARGMAX put the value of the fixed tree over 64 lanes,
inactive ones at the identity, in flight for every lane of VD and for SS. (R164, R165, R166, R181, R191, R192, R193,
R194, R216, 06_hj1_baseline.md, 07_hj2_contract.md) -/
def Obligations.VectorConversionsReductionsMoves : Prop :=
  let lanes (mk : VOp → Instr) (op fn lat : Nat) (f : Core → VOp → Nat → Word32 × FFlags) (po : Core → VOp → Bool) : Prop :=
    ∀ (o : VOp) (x : CtxId) (s : State), s.runs o.core x (encV op fn o) →
      Gives (mk o) s fun t =>
        let k := s.found o.core
        ∃ m v, LanesHold k o (fun l => (f k o l).1) m v ∧
          s.ran t o.core [(lat, .vreg o.vd m v (po k o || k.th.ap o || mergePoison k o))]
            (laneFlags (k.th.active o) (fun l => (f k o l).2) 64) ∧ s.onlyCores t
  let field (k : Core) (o : VOp) (wd base l : Nat) : Nat := (k.th.v o.va).toNat / 2 ^ (base + wd * l) % 2 ^ wd
  let pack (mk : VOp → Instr) (fn lat wd n : Nat) (f : Core → VOp → Nat → Nat × FFlags) : Prop :=
    ∀ (o : VOp) (x : CtxId) (s : State), s.runs o.core x (encV 0x23 fn o) →
      Gives (mk o) s fun t =>
        let k := s.found o.core
        let base := 64 * wd * (o.imm.toNat % n)
        ∃ m v : BitVec 2048,
          (∀ l, l < 64 → m.extractLsb' (base + wd * l) wd = (if o.pz || k.th.active o l then BitVec.allOnes wd else 0) ∧
            (k.th.active o l → v.extractLsb' (base + wd * l) wd = BitVec.ofNat wd (f k o l).1) ∧
            (o.pz → k.th.active o l = false → v.extractLsb' (base + wd * l) wd = 0)) ∧
          (∀ b, b < base ∨ base + 64 * wd ≤ b → m.getLsbD b = false) ∧
          s.ran t o.core [(lat, .vreg o.vd m v (k.th.vp o.va || (o.sr && k.th.vp o.vc) || k.th.ap o || k.th.vp o.vd))]
            (laneFlags (k.th.active o) (fun l => (f k o l).2) 64) ∧ s.onlyCores t
  let draw (k : Core) (o : VOp) (l : Nat) : Option Nat :=
    if o.sr then some ((vlane (k.th.v o.vc) l).toNat % 65536) else none
  let red (mk : VOp → Instr) (fn latV latS : Nat) (ident : Word32) (sgn : Bool) (f : Word32 → Word32 → Word32 × FFlags) : Prop :=
    ∀ (o : VOp) (x : CtxId) (s : State), s.runs o.core x (encV 0x24 fn o) →
      Gives (mk o) s fun t =>
        let k := s.found o.core
        let r := redTree f 6 ((List.range 64).map (fun l => if k.th.active o l then vlane (k.th.v o.va) l else ident)) 0
        let po := k.th.vp o.va || k.th.ap o
        ∃ v : BitVec 2048, (∀ l, l < 64 → vlane v l = r.1) ∧
          s.ran t o.core [(latV, .vreg o.vd (BitVec.allOnes 2048) v po),
            (latS, .sreg o.ss (if sgn then r.1.signExtend 64 else r.1.setWidth 64) po)] r.2 ∧ s.onlyCores t
  let va : Core → VOp → Bool := fun k o => k.th.vp o.va
  lanes .f2i 0x23 0 3 (fun k o l => f2int (vlane (k.th.v o.va) l)) va ∧
  lanes .i2f 0x23 1 3 (fun k o l => int2f (vlane (k.th.v o.va) l)) va ∧
  pack .f2b 2 4 16 2 (fun k o l => let r := f2bf (draw k o l) (vlane (k.th.v o.va) l); (r.1.toNat, r.2)) ∧
  lanes .b2f 0x23 3 2 (fun k o l => (bf2f (BitVec.ofNat 16 (field k o 16 (1024 * (o.imm.toNat % 2)) l)), 0)) va ∧
  pack .i2b8 4 3 8 4 (fun k o l => ((BitVec.ofInt 8 (max (-128) (min 127 (vlane (k.th.v o.va) l).toInt))).toNat, 0)) ∧
  lanes .b82i 0x23 5 2 (fun k o l => ((BitVec.ofNat 8 (field k o 8 (512 * (o.imm.toNat % 4)) l)).signExtend 32, 0)) va ∧
  pack .f2e4 6 4 8 4 (fun k o l => let r := f2e4m3 (draw k o l) (o.imm.getLsbD 2) (vlane (k.th.v o.va) l); (r.1.toNat, r.2)) ∧
  lanes .e42f 0x23 7 2 (fun k o l => (e4m32f (BitVec.ofNat 8 (field k o 8 (512 * (o.imm.toNat % 4)) l)), 0)) va ∧
  pack .f2e5 8 4 8 4 (fun k o l => let r := f2e5m2 (draw k o l) (o.imm.getLsbD 2) (vlane (k.th.v o.va) l); (r.1.toNat, r.2)) ∧
  lanes .e52f 0x23 9 2 (fun k o l => (e5m22f (BitVec.ofNat 8 (field k o 8 (512 * (o.imm.toNat % 4)) l)), 0)) va ∧
  red .fsum 0 14 15 0 false fadd ∧ red .fmax 1 14 15 0xFF800000 false (fminmax true) ∧
  red .fmin 2 14 15 0x7F800000 false (fminmax false) ∧ red .isum 4 8 9 0 true (fun a b => (a + b, 0)) ∧
  red .imax 5 8 9 0x80000000 true (fun a b => (if a.toInt ≤ b.toInt then b else a, 0)) ∧
  red .imin 6 8 9 0x7FFFFFFF true (fun a b => (if a.toInt ≤ b.toInt then a else b, 0)) ∧
  (∀ (o : VOp) (x : CtxId) (s : State), s.runs o.core x (encV 0x24 3 o) →
    Gives (.fargmax o) s fun t =>
      let k := s.found o.core
      let r := (argmax (k.th.active o) (k.th.v o.va)).getD (0x7FC00000, 64)
      let po := k.th.vp o.va || k.th.ap o
      ∃ v : BitVec 2048, (∀ l, l < 64 → vlane v l = r.1) ∧
        s.ran t o.core [(14, .vreg o.vd (BitVec.allOnes 2048) v po), (15, .sreg o.ss (BitVec.ofNat 64 r.2) po)] 0 ∧
        s.onlyCores t) ∧
  lanes .mov 0x25 0 1 (fun k o l => (vlane (k.th.v o.va) l, 0)) va ∧
  lanes .bcast 0x25 1 2 (fun k o _ => ((k.th.s o.ss).setWidth 32, 0)) (fun k o => k.th.sp o.ss) ∧
  lanes .perm 0x25 5 3 (fun k o l => (vlane (k.th.v o.va) ((vlane (k.th.v o.vb) l).toNat % 64), 0))
    (fun k o => k.th.vp o.va || k.th.vp o.vb) ∧
  lanes .iota 0x25 6 1 (fun _ _ l => (BitVec.ofNat 32 l, 0)) (fun _ _ => false) ∧
  (∀ (o : VOp) (x : CtxId) (s : State), s.runs o.core x (encV 0x25 2 o) →
    Gives (.sel o) s fun t =>
      let k := s.found o.core
      ∃ v : BitVec 2048,
        (∀ l, l < 64 → vlane v l = if k.th.active o l then vlane (k.th.v o.va) l else vlane (k.th.v o.vb) l) ∧
        s.ran t o.core [(2, .vreg o.vd (BitVec.allOnes 2048) v (k.th.vp o.va || k.th.vp o.vb || k.th.ap o))] 0 ∧
        s.onlyCores t) ∧
  (∀ (o : VOp) (x : CtxId) (s : State), s.runs o.core x (encV 0x25 3 o) →
    Gives (.get o) s fun t =>
      let k := s.found o.core
      s.ran t o.core [(3, .sreg o.ss ((vlane (k.th.v o.va) (o.imm.toNat % 64)).setWidth 64) (k.th.vp o.va))] 0 ∧ s.onlyCores t) ∧
  (∀ (o : VOp) (x : CtxId) (s : State), s.runs o.core x (encV 0x25 4 o) →
    Gives (.put o) s fun t =>
      let k := s.found o.core
      ∃ m v : BitVec 2048,
        (∀ l, l < 64 → vlane m l = if l = o.imm.toNat % 64 then 0xFFFFFFFF else 0) ∧
        vlane v (o.imm.toNat % 64) = (k.th.s o.ss).setWidth 32 ∧
        s.ran t o.core [(2, .vreg o.vd m v (k.th.sp o.ss || k.th.vp o.vd))] 0 ∧ s.onlyCores t)

/-- VLD puts in flight the 256 bytes at SS plus 64 times IMM18 lane by lane, VST the 4 bytes of each active lane for
scratch and leaves the bytes of inactive ones. VMASK.MASK and VMASK.DRAW of a stream that is free or owned by the
core put in flight the comparison of each lane's draw with its probability, or the draw, take the stream's next
block and leave the core its owner; from another core than the owner they trap. MOMQ.LD puts the dequantised moments
in flight for VD and VD+1, MOMQ.ST the quantised block of 192 bytes for scratch, and MOMQ.UPD the updated moments,
each by the function of its row. (R164, R167, R195, R196, R197, R200, R201, R202, R464, R466, R469, R512) -/
def Obligations.VectorMemoryMasksMoments : Prop :=
  (∀ (o : VOp) (x : CtxId) (s : State), s.runs o.core x (encV 0x28 0 o) →
    let k := s.found o.core
    let a := vaddr o k
    k.th.sp o.ss = false → a + 256 ≤ 0x300000 → a % 64 = 0 →
    Gives (.vld o) s fun t =>
      let q := k.viewAt (k.th.cyc + 2)
      ∃ m v, LanesHold k o (fun l => BitVec.ofNat 32 (leNat (q.rd (a + 4 * l) 4))) m v ∧
        s.ran t o.core [(5, .vreg o.vd m v (q.marked a 256 || k.th.ap o || mergePoison k o))] 0 ∧ s.onlyCores t) ∧
  (∀ (o : VOp) (x : CtxId) (s : State), s.runs o.core x (encV 0x29 0 o) →
    let k := s.found o.core
    let a := vaddr o k
    k.th.sp o.ss = false → a + 256 ≤ 0x300000 → a % 64 = 0 →
    Gives (.vst o) s fun t =>
      ∃ bs : List (Option Byte), bs.length = 256 ∧
        (∀ l b, l < 64 → b < 4 → bs[4 * l + b]? = some (if k.th.active o l
          then some ((vlane (k.th.v o.va) l).extractLsb' (8 * b) 8) else none)) ∧
        s.ran t o.core [(3, .scratch a bs (k.th.vp o.va || k.th.ap o))] 0 ∧ s.onlyCores t) ∧
  (∀ (o : VOp) (x : CtxId) (s : State), s.runs o.core x (encV 0x27 0 o) →
    let k := s.found o.core
    let n := o.imm.toNat % 64
    let g := sget (0, none) (s.ctx x).streams n
    let key := streamKey (s.ctx x) x n
    (g.2 = none ∨ g.2 = some o.core) →
    Gives (.vmaskMask o) s fun t =>
      (∃ m v, BitsHold k o (fun l => decide (maskDraw key.1 key.2 g.1 l < (k.th.vb o l).toNat % 65536)) m v ∧
        s.ran t o.core [(6, .preg (pfld o.vd) m v (k.th.vbp o || k.th.ap o || (o.pe && !o.pz && k.th.pp (pfld o.vd))))] 0) ∧
      sget (0, none) (t.ctx x).streams n = (g.1 + 1, some o.core) ∧ t.mem = s.mem) ∧
  (∀ (o : VOp) (x : CtxId) (s : State), s.runs o.core x (encV 0x27 1 o) →
    let k := s.found o.core
    let n := o.imm.toNat % 64
    let g := sget (0, none) (s.ctx x).streams n
    let key := streamKey (s.ctx x) x n
    (g.2 = none ∨ g.2 = some o.core) →
    Gives (.vmaskDraw o) s fun t =>
      (∃ m v, LanesHold k o (fun l => BitVec.ofNat 32 (maskDraw key.1 key.2 g.1 l)) m v ∧
        s.ran t o.core [(6, .vreg o.vd m v (k.th.ap o || mergePoison k o))] 0) ∧
      sget (0, none) (t.ctx x).streams n = (g.1 + 1, some o.core) ∧ t.mem = s.mem) ∧
  (∀ (o : VOp) (x : CtxId) (s : State) (c : CoreId), s.runs o.core x (encV 0x27 1 o) → c ≠ o.core →
    (sget (0, none) (s.ctx x).streams (o.imm.toNat % 64)).2 = some c → (s.ctx x).endWith = none →
    Gives (.vmaskDraw o) s fun t => (t.ctx x).state = .ending ∧ (t.ctx x).endWith = some stMASK_STREAM_OWNER) ∧
  (∀ (o : VOp) (x : CtxId) (s : State), s.runs o.core x (encV 0x2B 0 o) →
    let k := s.found o.core
    let a := vaddr o k
    k.th.sp o.ss = false → a + 192 ≤ 0x300000 → a % 64 = 0 →
    Gives (.momqLd o) s fun t =>
      let q := k.viewAt (k.th.cyc + 2)
      let byte (i : Nat) : Nat := ((q.rd a 192).getD i 0).toNat
      ∃ m1 v1 m2 v2 p1 p2 fl,
        LanesHold k o (fun l => (bs8Load (byte l) (byte (64 + l)) (byte 128)).1) m1 v1 ∧
        LanesHold k o (fun l => (bs8Load (byte l) (byte (64 + l)) (byte 128)).2) m2 v2 ∧
        s.ran t o.core [(7, .vreg o.vd m1 v1 p1), (7, .vreg (rfld (o.vd.val + 1)) m2 v2 p2)] fl ∧ s.onlyCores t) ∧
  (∀ (o : VOp) (x : CtxId) (s : State), s.runs o.core x (encV 0x2B 1 o) →
    let k := s.found o.core
    let a := vaddr o k
    k.th.sp o.ss = false → a + 192 ≤ 0x300000 → a % 64 = 0 →
    Gives (.momqSt o) s fun t =>
      let va1 := rfld (o.va.val + 1)
      let dr (l : Nat) : Nat := (vlane (k.th.v o.vc) l).toNat
      let b := bs8Store (fun l => vlane (k.th.v o.va) l) (fun l => vlane (k.th.v va1) l)
        (fun l => if o.sr then some (dr l % 65536) else none) (fun l => if o.sr then some (dr l / 65536) else none)
      s.ran t o.core [(5, .scratch a (b.1.map some) (k.th.vp o.va || k.th.vp va1 || (o.sr && k.th.vp o.vc)))]
        (if b.2 then fNV else 0) ∧ s.onlyCores t) ∧
  (∀ (o : VOp) (x : CtxId) (s : State), s.runs o.core x (encV 0x2B 2 o) →
    Gives (.momqUpd o) s fun t =>
      let k := s.found o.core
      let vd1 := rfld (o.vd.val + 1)
      let r (l : Nat) := momqLane ((k.th.s o.ss).setWidth 32) ((k.th.s o.ss).extractLsb' 32 32) (vlane (k.th.v o.va) l)
        (vlane (k.th.v o.vd) l) (vlane (k.th.v vd1) l)
      let po := k.th.vp o.va || k.th.sp o.ss || k.th.vp o.vd || k.th.vp vd1 || k.th.ap o
      ∃ m1 v1 m2 v2, LanesHold k o (fun l => (r l).1) m1 v1 ∧ LanesHold k o (fun l => (r l).2.1) m2 v2 ∧
        s.ran t o.core [(9, .vreg o.vd m1 v1 po), (9, .vreg vd1 m2 v2 po)]
          (laneFlags (k.th.active o) (fun l => (r l).2.2) 64) ∧ s.onlyCores t)

/-- A NaN operand of an addition, subtraction, multiplication, division or fused multiply-add gives the canonical NaN;
infinities of opposite signs added, zero times infinity, and zero divided by zero give the canonical NaN with the
invalid flag; a number other than zero divided by zero gives the infinity of its sign with the divide-by-zero flag;
1 plus 1 is 2 with no flag, and one third rounds to 0x3EAAAAAB with the inexact flag. (R178, R179, R181, R183, R192,
06_hj1_baseline.md) -/
def Obligations.FloatingPointSpecialValues : Prop :=
  (∀ a b : Word32, ((f32val a).isNan = true ∨ (f32val b).isNan = true) →
    (fadd a b).1 = 0x7FC00000 ∧ (fsub a b).1 = 0x7FC00000 ∧ (fmul a b).1 = 0x7FC00000 ∧ (fdiv a b).1 = 0x7FC00000 ∧
    ∀ c, (ffma a b c).1 = 0x7FC00000) ∧
  (fadd 0x7F800000 0xFF800000).1 = 0x7FC00000 ∧ (fadd 0x7F800000 0xFF800000).2.getLsbD 0 = true ∧
  (fmul 0 0x7F800000).1 = 0x7FC00000 ∧ (fmul 0 0x7F800000).2.getLsbD 0 = true ∧
  (fdiv 0 0).1 = 0x7FC00000 ∧ (fdiv 0 0).2.getLsbD 0 = true ∧
  fdiv 0x3F800000 0 = (0x7F800000, 2) ∧ fdiv 0xBF800000 0 = (0xFF800000, 2) ∧
  fadd 0x3F800000 0x3F800000 = (0x40000000, 0) ∧ fdiv 0x3F800000 0x40400000 = (0x3EAAAAAB, 16)

/-- On a core that can issue the word, with no gang change under way and the arrays named enabled, not fenced and not
the retry array: MMA with clean, aligned operand addresses inside scratch, no other pass in flight, and ARR 0 where
the core is ganged, starts a pass of F vectors with its fields, the issue cycle and the checking mode, and leaves
tiles and results in flight. MTRD puts the row, as a read 2 cycles on sees it, in flight for a half of VR; MTWR puts
a half of VR in flight for the row; MTZERO zeroes in flight. GANG with four usable arrays free of passes is to gang
the core, UNGANG of a ganged core with no pass in flight to ungang it, 8 cycles on; on a core that is so already
they change nothing. MMA on a fenced array traps ARRAY_FENCED. (R124, R144, R168, R169, R170, R204, R205, R212,
R216, 05_cores_arrays.md, 06_hj1_baseline.md, 07_hj2_contract.md) -/
def Obligations.MatrixInstructions : Prop :=
  let free (s : State) (c : Nat) (q : Nat) : Prop := s.arrTrap c [q] = none
  (∀ (o : MOp) (x : CtxId) (s : State), s.runs o.core x (encM 0x40 o) →
    let k := s.found o.core
    let f := (if o.fmt = 0 then o.k.toNat else o.k.toNat / 2) + (if k.th.ganged then 63 else 31)
    let n := (if k.th.ganged then 128 else 64) * f
    let inside (r : Fin 32) : Prop := (k.th.s r).toNat + n ≤ 0x300000 ∧ (k.th.s r).toNat % 64 = 0 ∧ k.th.sp r = false
    k.gangSettled → k.passes = [] → (k.th.ganged = true → o.arr = 0) →
    (∀ q, q < 4 → k.th.ganged = true ∨ q = o.arr.val → free s o.core q) → inside o.sa → inside o.sb →
    Gives (.mma o) s fun t =>
      (t.core o.core).passes = [{
        arr := o.arr, tile := o.tile, acc := o.acc, fmt := o.fmt, ae := o.ae, be := o.be
        k := o.k.toNat, f := f, gang := k.th.ganged, sa := (k.th.s o.sa).toNat, sb := (k.th.s o.sb).toNat
        cyc := k.th.cyc, seq := k.th.seqNo, ctx := x, action := s.action, tol := s.tolExp, capA := [], capB := []
        poison := false, judged := 0 }] ∧
      (t.core o.core).th = { k.th with pc := k.th.pc + 8, cyc := k.th.cyc + 1, seqNo := k.th.seqNo + 1 } ∧
      (t.core o.core).scratch = k.scratch ∧ t.reg64 (pCORE o.core) 0xF20 = s.reg64 (pCORE o.core) 0xF20 + 1 ∧
      t = { s with cores := t.cores, regs := t.regs, clus := t.clus }) ∧
  (∀ (o : MOp) (ecc : List TileEcc) (x : CtxId) (s : State), s.runs o.core x (encM 0x41 o) →
    let k := s.found o.core
    k.gangSettled → free s o.core o.arr → (∀ e ∈ ecc, e.row = o.row → e.obs = .clean) →
    Gives (.mtrd o ecc) s fun t =>
      let v := k.rowAt (k.th.cyc + 2) o.arr o.tile o.row
      let sh := if o.half then 1024 else 0
      s.ran t o.core [(4, .vreg o.vr ((BitVec.allOnes 1024).setWidth 2048 <<< sh) (v.1.setWidth 2048 <<< sh)
        (v.2 || k.th.vp o.vr))] 0 ∧ t = { s with cores := t.cores, regs := t.regs, clus := t.clus }) ∧
  (∀ (o : MOp) (x : CtxId) (s : State), s.runs o.core x (encM 0x42 o) →
    let k := s.found o.core
    k.gangSettled → free s o.core o.arr →
    Gives (.mtwr o) s fun t =>
      s.ran t o.core [(3, .trow o.arr o.tile o.row ((k.th.v o.vr).extractLsb' (if o.half then 1024 else 0) 1024)
        (k.th.vp o.vr))] 0 ∧ t = { s with cores := t.cores, regs := t.regs, clus := t.clus }) ∧
  (∀ (o : MOp) (x : CtxId) (s : State), s.runs o.core x (encM 0x43 o) →
    (s.found o.core).gangSettled → free s o.core o.arr →
    Gives (.mtzero o) s fun t =>
      s.ran t o.core [(2, .tzero o.arr o.tile)] 0 ∧ t = { s with cores := t.cores, regs := t.regs, clus := t.clus }) ∧
  (∀ (k : Core) (n q : Nat) (a i : Fin 4), k.th.lands = [⟨n, q, .tzero a i⟩] → n ≤ k.th.cyc →
    ∀ r, r < 32 → k.settle.th.trow a i r = 0) ∧
  (∀ (o : MOp) (x : CtxId) (s : State), s.runs o.core x (encM 0x44 o) →
    (s.found o.core).gangSettled → (s.found o.core).th.ganged = false →
    (∀ q, q < 4 → s.usable (4 * o.core + q) = true ∧
      (s.modCore o.core Core.settle).inFlight (4 * o.core + q) = false) →
    Gives (.gang o) s fun t =>
      s.ran t o.core [(8, .gang true)] 0 ∧ t = { s with cores := t.cores, regs := t.regs, clus := t.clus }) ∧
  (∀ (o : MOp) (x : CtxId) (s : State), s.runs o.core x (encM 0x45 o) →
    let k := s.found o.core
    k.gangSettled → k.th.ganged = true → k.passes = [] → s.isFenced (4 * o.core) = false →
    k.th.lands.all (fun l => match l.val with | .commit .. => false | _ => true) = true →
    Gives (.ungang o) s fun t => s.ran t o.core [(8, .gang false)] 0 ∧ s.onlyCores t) ∧
  (∀ (o : MOp) (x : CtxId) (s : State), (s.found o.core).gangSettled →
    (s.runs o.core x (encM 0x44 o) → (s.found o.core).th.ganged = true →
      Gives (.gang o) s fun t => s.ran t o.core [] 0 ∧ s.onlyCores t) ∧
    (s.runs o.core x (encM 0x45 o) → (s.found o.core).th.ganged = false →
      Gives (.ungang o) s fun t => s.ran t o.core [] 0 ∧ s.onlyCores t)) ∧
  (∀ (o : MOp) (x : CtxId) (s : State), s.runs o.core x (encM 0x40 o) → (s.found o.core).gangSettled →
    (s.found o.core).th.ganged = false → s.fusedOff (4 * o.core + o.arr) = false →
    s.retryArr ((4 * o.core.val + o.arr.val) / 48) ≠ some (4 * o.core.val + o.arr.val) →
    s.isFenced (4 * o.core + o.arr) = true → (s.ctx x).endWith = none →
    Gives (.mma o) s fun t => (t.ctx x).state = .ending ∧ (t.ctx x).endWith = some stARRAY_FENCED)

/-- PASS_VERDICT of a core's only pass, due and of one array, counts the pass. Where its checks hold it counts an OK,
and where it cannot be compared it counts an unchecked pass; in both, and on a mismatch under LOG, its block is in
flight to commit at the pass's latency. A mismatch is counted; under RETRY with the retry array there, the pass
waits for it and holds the core; under HALT the context ends with CKSUM_HALT. RETRY_START gives the free retry array
the oldest waiting pass. RETRY_COMPLETE of a pass whose own check holds commits it and releases the core; one that
fails again ends the context with CKSUM_HALT. (R125, R132, R133, R135, R136, R137, R139, R140, R141, R142,
05_cores_arrays.md) -/
def Obligations.PassVerdictsAndRetries : Prop :=
  let landed (k : Core) (p : Pass) (q : Fin 4) (b : Block) : List Landing :=
    insLand ⟨p.cyc + p.lat, p.seq, .commit q p.tile p.acc p.fmt b.cells.flatten (if p.poison then BitVec.allOnes 32 else 0)⟩
      k.th.lands
  (∀ (a : ArrId) (faults : List CellFault) (p0 : Pass) (s : State),
    let c := coreOf a
    let q := quadOf a
    let k := s.core c
    let p := k.capture p0.f p0.f p0
    let b := p.block q faults
    k.passes = [p0] → p0.gang = false → p0.arr = q → p0.judged = 0 → k.verdictDue p0 = true → k.ungangWait = false →
    Gives (.passVerdict a faults []) s fun t =>
      t.reg64 (pARR a) 0xF00 = s.reg64 (pARR a) 0xF00 + 1 ∧ (t.core c).passes = [] ∧
      (∀ e, e ≠ c.val → (p.check b).any (fun h => !h.clean) = false → t.core e = s.core e) ∧
      (p.check b = none → (t.core c).th.lands = landed k p q b ∧ t.reg64 (pARR a) 0xF18 = s.reg64 (pARR a) 0xF18 + 1) ∧
      (∀ h, p.check b = some h → h.clean = true →
        (t.core c).th.lands = landed k p q b ∧ t.reg64 (pARR a) 0xF08 = s.reg64 (pARR a) 0xF08 + 1 ∧
        t = { s with cores := t.cores, regs := t.regs, chk := t.chk, pw := t.pw }) ∧
      (∀ h, p.check b = some h → h.clean = false →
        t.reg64 (pARR a) 0xF10 = s.reg64 (pARR a) 0xF10 + 1 ∧ (t.arr a).mism = (s.arr a).mism + 1 ∧
        bit (t.page (pARR a)).evt 16 = true ∧
        (p.action = 0 → (t.core c).th.lands = landed k p q b) ∧
        (p.action = 1 → s.retryAvail (a.val / 48) = true →
          (t.clu (a.val / 48)).retryQ = (s.clu (a.val / 48)).retryQ ++ [{ core := c, quad := q, pass := p }] ∧
          (t.core c).retrying = k.retrying + 1 ∧ (t.core c).th.lands = k.th.lands) ∧
        (p.action ≠ 0 → (p.action ≠ 1 ∨ s.retryAvail (a.val / 48) = false) → (s.ctx p.ctx).endWith = none →
          (t.ctx p.ctx).state = .ending ∧ (t.ctx p.ctx).endWith = some stCKSUM_HALT))) ∧
  (∀ (cl : Fin 16) (j : RetryJob) (rest : List RetryJob) (s : State),
    (s.clu cl).serving = none → (s.clu cl).retryQ = j :: rest → s.retryAvail cl = true →
    Gives (.retryStart cl) s fun t =>
      (t.clu cl).serving = some j ∧ (t.clu cl).retryQ = rest ∧ t = { s with clus := t.clus, regs := t.regs }) ∧
  (∀ (cl : Fin 16) (faults : List CellFault) (n : Nat) (j : RetryJob) (s : State),
    let b := j.pass.block j.quad faults
    let good : Bool := match j.pass.check b with | none => true | some h => h.clean
    (s.clu cl).serving = some j → (s.core j.core).ungangWait = false →
    Gives (.retryComplete cl faults [] n) s fun t =>
      (t.clu cl).serving = none ∧ (t.core j.core).retrying = (s.core j.core).retrying - 1 ∧
      (good = true → (t.core j.core).th.lands = landed (s.core j.core) j.pass j.quad b ∧
        t.reg64 (pCLU cl) 0xF00 = s.reg64 (pCLU cl) 0xF00 + 1 ∧
        bit (t.reg (pARR (4 * j.core.val + j.quad.val)) 0x804) 16 = true) ∧
      (good = false → (s.ctx j.pass.ctx).endWith = none →
        t.reg64 (pCLU cl) 0xF08 = s.reg64 (pCLU cl) 0xF08 + 1 ∧
        (t.ctx j.pass.ctx).state = .ending ∧ (t.ctx j.pass.ctx).endWith = some stCKSUM_HALT))

/-- CLU_FENCE that its page admits, with the page enabled, of a slot of an enabled array leaves the array fenced with
cause driver, every other array's fence and count as they were, and raises event 16 where it was not fenced; naming
a fused-off array or no array it changes no array. CLU_UNFENCE of a fenced array, and CLU_SELFTEST_CMD with GO, with
no test of the cluster under way, leave a test of that array under way, the array fenced as before; with a test
under way they leave that test. A slice starts on an array drained and ON; the 32nd slice ends the test: passed
throughout, it unfences an array that was to be unfenced; failed anywhere, it fences the array. (R142, R143, R145,
R147, R148, R149, 05_cores_arrays.md) -/
def Obligations.FencesAndSelfTests : Prop :=
  (∀ (r : Requester) (cl : Fin 16) (v : Word32) (s : State),
    let a := 48 * cl.val + fld v 0 6
    s.admits r (pCLU cl) 0x820 → s.pgEn (pCLU cl) = true → fld v 0 6 < 48 → s.fusedOff a = false →
    Gives (.cluFence r cl v) s fun t =>
      (t.arr a).fenced = some .driver ∧ (t.arr a).mism = (s.arr a).mism ∧ (∀ e, e ≠ a → t.arr e = s.arr e) ∧
      (s.isFenced a = false → bit (t.page (pCLU cl)).evt 16 = true) ∧
      ({ s with arrs := t.arrs, pw := t.pw } : State).noted t) ∧
  (∀ (r : Requester) (cl : Fin 16) (v : Word32) (s : State),
    s.admits r (pCLU cl) 0x820 → (48 ≤ fld v 0 6 ∨ s.fusedOff (48 * cl.val + fld v 0 6) = true) →
    Gives (.cluFence r cl v) s fun t => t = { s with pages := t.pages }) ∧
  (∀ (r : Requester) (cl : Fin 16) (v : Word32) (s : State),
    let a := 48 * cl.val + fld v 0 6
    s.admits r (pCLU cl) 0x820 → s.pgEn (pCLU cl) = true → fld v 0 6 < 48 → s.fusedOff a = false → s.isFenced a = true →
    Gives (.cluUnfence r cl v) s fun t =>
      t.arrs = s.arrs ∧
      match (s.clu cl).test with
      | none => ∃ u, (t.clu cl).test = some u ∧ u.slot.val = fld v 0 6 ∧ u.unfence = true ∧ u.running = false ∧
          u.slices = 0 ∧ u.bad = false
      | some u => (t.clu cl).test = some u ∧ fld (t.reg (pCLU cl) 0x828) 10 3 = 3) ∧
  (∀ (r : Requester) (cl : Fin 16) (v : Word32) (s : State),
    let a := 48 * cl.val + fld v 0 6
    s.admits r (pCLU cl) 0x824 → s.pgEn (pCLU cl) = true → bit v 9 = true → fld v 0 6 < 48 → s.fusedOff a = false →
    (s.clu cl).test = none →
    Gives (.cluSelftestCmd r cl v) s fun t =>
      t.arrs = s.arrs ∧
      if bit v 8 = true ∧ s.inFlight a = true then
        (t.clu cl).test = none ∧ t.reg (pCLU cl) 0x828 = BitVec.ofNat 32 (fld v 0 6 + 3 * 2 ^ 10)
      else ∃ u, (t.clu cl).test = some u ∧ u.slot.val = fld v 0 6 ∧ u.unfence = false ∧ u.running = false ∧
          u.slices = 0 ∧ u.bad = false ∧ t.reg (pCLU cl) 0x828 = BitVec.ofNat 32 (fld v 0 6)) ∧
  (∀ (cl : Fin 16) (u : SelfTest) (s : State), (s.clu cl).test = some u → u.running = false →
    s.inFlight (48 * cl.val + u.slot.val) = false → s.domOn (48 * cl.val + u.slot.val) = true →
    Gives (.selftestSliceStart cl) s fun t =>
      (t.clu cl).test = some { u with running := true } ∧ (t.clu cl).retryQ = (s.clu cl).retryQ ∧
      (∀ e, e ≠ cl.val → t.clu e = s.clu e) ∧ t = { s with clus := t.clus }) ∧
  (∀ (cl : Fin 16) (pass : Bool) (u : SelfTest) (s : State), (s.clu cl).test = some u → u.running = true →
    Gives (.selftestSliceDone cl pass) s fun t =>
      let a := 48 * cl.val + u.slot.val
      (u.slices < 31 → (t.clu cl).test = some { u with running := false, slices := u.slices + 1, bad := (u.bad || !pass) } ∧
        t.arrs = s.arrs ∧ t = { s with clus := t.clus, regs := t.regs }) ∧
      (31 ≤ u.slices → (t.clu cl).test = none ∧ t.reg64 (pCLU cl) 0xF10 = s.reg64 (pCLU cl) 0xF10 + 1 ∧
        bit (t.page (pCLU cl)).evt 17 = true ∧
        ((u.bad || !pass) = true → s.fusedOff a = false → (t.arr a).fenced = some .selfTest) ∧
        ((u.bad || !pass) = false → u.unfence = true → (t.arr a).fenced = none) ∧
        ((u.bad || !pass) = false → u.unfence = false → t.arrs = s.arrs)))

/-- On a core that can issue the word, CH naming a channel that its context is granted: STR.POST of a clean, aligned,
unmarked descriptor inside scratch, to a channel that is free or its own, puts 1 in flight for SD and queues the
descriptor, which becomes the head in setup of an idle channel, while the queue holds fewer than four, and else puts
0 and queues nothing. STR.WAIT gives all ones with no descriptor or with more credits asked than the head can ever
give, the credits when they suffice, and else waits; STR_WAIT_COMPLETE ends the wait with that value. STR.ACK hands
its credits back 2 cycles on. STR.STAT gives the status word and clears OVER_ACK. A channel not granted traps
CHANNEL_DENIED. (R171, R172, R223, R224, R227, R232, R234, R235, R526, 06_hj1_baseline.md, 08_streams.md) -/
def Obligations.StreamInstructions : Prop :=
  (∀ (o : COp) (x : CtxId) (ch : Fin 8) (s : State), s.runs o.core x (encC 0x50 o) → (s.ctx x).phys o.ch = some ch →
    let k := s.found o.core
    let a := (k.th.s o.sa).toNat
    let q := k.viewAt (k.th.cyc + 1)
    k.th.sp o.sa = false → a + 64 ≤ 0x300000 → a % 64 = 0 → q.marked a 64 = false →
    ((k.chan ch).queue = [] ∨ (k.chan ch).ctx = some x) →
    Gives (.strPost o) s fun t =>
      let h := k.chan ch
      let h' := (t.core o.core).chan ch
      (t.core o.core).th = k.after 1 [(3, .sreg o.sd (if h.queue.length < 4 then 1 else 0) false)] ∧
      (h.queue.length < 4 → h'.queue = h.queue ++ [parseDesc (q.rd a 64)]) ∧
      (h.queue = [] → h'.head = .setup ∧ h'.ctx = some x) ∧
      (h.queue ≠ [] → h'.head = h.head ∧ h'.credits = h.credits) ∧ (4 ≤ h.queue.length → h' = h) ∧
      (∀ i, i ≠ ch.val → (t.core o.core).chan i = k.chan i) ∧ (∀ e, e ≠ o.core.val → t.core e = s.core e) ∧
      s.onlyCores t) ∧
  (∀ (o : COp) (x : CtxId) (ch : Fin 8) (s : State), s.runs o.core x (encC 0x51 o) → (s.ctx x).phys o.ch = some ch →
    let k := s.found o.core
    let h := k.chan ch
    let n := o.imm.toNat
    (h.queue = [] → Gives (.strWait o) s fun t => s.ran t o.core [(2, .sreg o.sd (BitVec.allOnes 64) false)] 0 ∧
      s.onlyCores t) ∧
    (∀ d ds, h.queue = d :: ds → d.capacity < n →
      Gives (.strWait o) s fun t => s.ran t o.core [(2, .sreg o.sd (BitVec.allOnes 64) false)] 0 ∧ s.onlyCores t) ∧
    (∀ d ds, h.queue = d :: ds → n ≤ d.capacity → n ≤ h.credits →
      Gives (.strWait o) s fun t => s.ran t o.core [(2, .sreg o.sd (BitVec.ofNat 64 h.credits) false)] 0 ∧ s.onlyCores t) ∧
    (∀ d ds, h.queue = d :: ds → n ≤ d.capacity → h.credits < n →
      Gives (.strWait o) s fun t =>
        (t.core o.core).th = { k.after 1 [] with wait := some (.strWait o.sd ch n false) } ∧
        (t.core o.core).chans = k.chans ∧ s.onlyCores t)) ∧
  (∀ (c : CoreId) (waited n : Nat) (sd : Fin 32) (ch : Fin 8) (fail : Bool) (d : Desc) (ds : List Desc) (s : State),
    s.waitLive c = true → (s.core c).th.wait = some (.strWait sd ch n fail) → ((s.core c).chan ch).queue = d :: ds →
    (fail = true ∨ d.capacity < n ∨ n ≤ ((s.core c).chan ch).credits) →
    Gives (.strWaitComplete c waited) s fun t =>
      let v := if fail ∨ d.capacity < n then BitVec.allOnes 64 else BitVec.ofNat 64 ((s.core c).chan ch).credits
      (t.core c).th = (s.core c).woken waited [(1, .sreg sd v false)] ∧ (t.core c).chans = (s.core c).chans ∧
      (∀ e, e ≠ c.val → t.core e = s.core e) ∧ t = { s with cores := t.cores, regs := t.regs, ctxs := t.ctxs }) ∧
  (∀ (o : COp) (x : CtxId) (ch : Fin 8) (s : State), s.runs o.core x (encC 0x52 o) → (s.ctx x).phys o.ch = some ch →
    Gives (.strAck o) s fun t => s.ran t o.core [(2, .credits ch o.imm.toNat)] 0 ∧ s.onlyCores t) ∧
  (∀ (h : Channel) (d : Desc) (ds : List Desc) (n : Nat), h.queue = d :: ds →
    (h.ack n).credits = h.credits - n ∧ (h.ack n).overAck = (h.overAck || decide (h.credits < n)) ∧ (h.ack n).queue = h.queue) ∧
  (∀ (o : COp) (x : CtxId) (ch : Fin 8) (s : State), s.runs o.core x (encC 0x53 o) → (s.ctx x).phys o.ch = some ch →
    Gives (.strStat o) s fun t =>
      let k := s.found o.core
      (t.core o.core).th = k.after 1 [(3, .sreg o.sd (k.chan ch).word false)] ∧
      (t.core o.core).chan ch = { k.chan ch with overAck := false } ∧
      (∀ i, i ≠ ch.val → (t.core o.core).chan i = k.chan i) ∧ s.onlyCores t) ∧
  (∀ (o : COp) (x : CtxId) (s : State), (s.ctx x).phys o.ch = none → (s.ctx x).endWith = none →
    (∀ e ∈ [(0x50, Instr.strPost o), (0x51, .strWait o), (0x52, .strAck o), (0x53, .strStat o)],
      s.runs o.core x (encC e.1 o) →
      Gives e.2 s fun t => (t.ctx x).state = .ending ∧ (t.ctx x).endWith = some stCHANNEL_DENIED))

/-- On a core that can issue the word: BAR of a barrier that its core may use begins to wait, and of any other traps
BARRIER_UNDEF. LOCK.ACQ of a lock that its tenant may not ask for gives LOCK_DENIED, of one held gives OK and a new
lease, below one held gives ORDER, and else queues a request and waits. LOCK.REL of a held lock frees it with OK and
traps LOCK_NOT_OWNER otherwise. FENCE takes 3 cycles and lands every scratch write. HALT halts with nothing in
flight. TRAP traps SW_TRAP with its code above the PC. EMIT queues its token, or waits on a full queue, and traps
EMIT_NO_STEP with no step. YIELD waits for every result, and passes to the scheduler under pre-emption.
SENTINEL_SWEEP freezes one cycle for 20. With the sentinel on, a read before its result has landed traps HAZARD.
(R173, R175, R176, R177, R206, R207, R209, R210, R217, R218, R533, R571) -/
def Obligations.SynchronisationInstructions : Prop :=
  let dies (i : Instr) (x : CtxId) (s : State) (st : BitVec 16) : Prop :=
    (s.ctx x).endWith = none → Gives i s fun t => (t.ctx x).state = .ending ∧ (t.ctx x).endWith = some st
  (∀ (o : YOp) (x : CtxId) (s : State), s.runs o.core x (encY 0x60 o) →
    (∀ h : o.id8.toNat < 64, s.barDefined x o.core o.id8.toNat = true →
      Gives (.bar o) s fun t =>
        (t.core o.core).th = { (s.found o.core).after 1 [] with wait := some (.bar o.sd ⟨o.id8.toNat, h⟩ false none) } ∧
        s.onlyCores t) ∧
    (s.barDefined x o.core o.id8.toNat = false → dies (.bar o) x s stBARRIER_UNDEF)) ∧
  (∀ (o : YOp) (x : CtxId) (s : State), s.runs o.core x (encY 0x61 o) →
    let n := o.id8.toNat
    let higher := s.locks.any (fun e => decide (n < e.1) && e.2.owner == some x)
    (s.lockMay n (s.ctx x).tenant = false →
      Gives (.lockAcq o) s fun t => s.ran t o.core [(1, .sreg o.sd (stLOCK_DENIED.setWidth 64) false)] 0 ∧ s.onlyCores t) ∧
    (s.lockMay n (s.ctx x).tenant = true → s.holdsLock x n = true →
      Gives (.lockAcq o) s fun t =>
        s.ran t o.core [(1, .sreg o.sd 0 false)] 0 ∧
        t.lock n = { s.lock n with expiry := s.expiryOf (s.leaseOf x o.imm) } ∧ (∀ m, m ≠ n → t.lock m = s.lock m) ∧
        t = { s with cores := t.cores, regs := t.regs, locks := t.locks, pw := t.pw }) ∧
    (s.lockMay n (s.ctx x).tenant = true → s.holdsLock x n = false → higher = true →
      Gives (.lockAcq o) s fun t =>
        s.ran t o.core [(1, .sreg o.sd (stORDER.setWidth 64) false)] 0 ∧
        t.reg64 pSCH 0xF30 = s.reg64 pSCH 0xF30 + 1 ∧ s.onlyCores t) ∧
    (s.lockMay n (s.ctx x).tenant = true → s.holdsLock x n = false → higher = false →
      Gives (.lockAcq o) s fun t =>
        (t.core o.core).th = { (s.found o.core).after 1 [] with
          wait := some (.lock o.sd ⟨o.id8.toNat, o.id8.isLt⟩ o.imm true) } ∧
        t.lock n = { s.lock n with waiters := (s.lock n).waiters ++ [(x, o.core, o.imm)] } ∧
        t = { s with cores := t.cores, regs := t.regs, locks := t.locks })) ∧
  (∀ (o : YOp) (x : CtxId) (s : State), s.runs o.core x (encY 0x62 o) →
    let n := o.id8.toNat
    (s.holdsLock x n = true →
      Gives (.lockRel o) s fun t =>
        s.ran t o.core [(1, .sreg o.sd 0 false)] 0 ∧
        t.lock n = { s.lock n with owner := none, expiry := none, broken := false } ∧ (∀ m, m ≠ n → t.lock m = s.lock m)) ∧
    (s.holdsLock x n = false → dies (.lockRel o) x s stLOCK_NOT_OWNER)) ∧
  (∀ (o : YOp) (x : CtxId) (s : State), s.runs o.core x (encY 0x66 o) →
    Gives (.fence o) s fun t =>
      let k := s.found o.core
      (t.core o.core).th.pc = k.th.pc + 8 ∧ (t.core o.core).th.cyc = k.th.cyc + 3 ∧
      (∀ l ∈ (t.core o.core).th.lands, ∀ a bs p, l.val ≠ .scratch a bs p) ∧
      (∀ T, (∀ l ∈ k.th.lands, l.cyc ≤ T) → ∀ a n, (t.core o.core).rd a n = (k.viewAt T).rd a n) ∧ s.onlyCores t) ∧
  (∀ (o : YOp) (x : CtxId) (s : State), s.runs o.core x (encY 0x67 o) →
    Gives (.halt o) s fun t =>
      (t.core o.core).th.halted = true ∧ (t.core o.core).th.lands = [] ∧ t.canIssue o.core = false ∧
      t.reg (pCORE o.core) 0x804 = 0 ∧ s.onlyCores t) ∧
  (∀ (o : YOp) (x : CtxId) (s : State), s.runs o.core x (encY 0x68 o) → (s.ctx x).endWith = none →
    s.log.queue.length < 64 →
    Gives (.trap o) s fun t =>
      (t.ctx x).state = .ending ∧ (t.ctx x).endWith = some stSW_TRAP ∧
      ∃ e ∈ t.log.queue, e.status = stSW_TRAP ∧ e.cls = cCONTAINED ∧ e.ctx = some x ∧
        e.info = BitVec.ofNat 64 ((s.found o.core).th.pc.toNat + fld o.imm 0 16 * 2 ^ 32)) ∧
  (∀ (o : YOp) (x : CtxId) (s : State), s.runs o.core x (encY 0x69 o) →
    let k := s.found o.core
    let q : EmitEntry := { ctx := x, slot := (k.th.s o.sa).setWidth 8, token := (k.th.s o.sb).setWidth 32
                           draft := Fin.ofNat 16 (fld o.imm 0 4), last := bit o.imm 4
                           poison := k.th.sp o.sa || k.th.sp o.sb }
    ((s.epsCtx x).cur = none → dies (.emit o) x s stEMIT_NO_STEP) ∧
    ((s.epsCtx x).cur ≠ none →
      Gives (.emit o) s fun t =>
        (t.core o.core).th = k.after 1 [] ∧
        (t.core o.core).emitq = (if k.emitq.length < 16 then k.emitq ++ [q] else k.emitq) ∧
        (t.core o.core).emitWait = (if k.emitq.length < 16 then none else some q) ∧ s.onlyCores t)) ∧
  (∀ (o : YOp) (x : CtxId) (s : State), s.runs o.core x (encY 0x6A o) →
    Gives (.yield o) s fun t =>
      let k := s.found o.core
      (t.core o.core).th = { k.after (1 + k.longest) [] with
        wait := if (s.ctx x).state = .preempting then some .yield else none } ∧ s.onlyCores t) ∧
  (∀ (c : CoreId) (s : State), (s.core c).th.sentinel = true → (s.core c).ctx ≠ none → (s.core c).parked = false →
    (s.core c).th.halted = false → 20 * ((s.core c).th.sweeps + 1) ≤ (s.core c).th.cyc →
    Gives (.sentinelSweep c) s fun t =>
      t.core c = { s.core c with th := { (s.core c).th with sweeps := (s.core c).th.sweeps + 1 } } ∧
      t.reg64 (pCORE c) 0xF38 = s.reg64 (pCORE c) 0xF38 + 1 ∧ t.reg64 (pCORE c) 0xF08 = s.reg64 (pCORE c) 0xF08 + 1 ∧
      s.onlyCores t) ∧
  (∀ (o : SOp) (x : CtxId) (n q : Nat) (v : Word64) (p : Bool) (s : State), s.canIssue o.core = true →
    (s.found o.core).ctx = some x → (s.ctx x).inCode o.core (s.found o.core).th.pc = true → legalWord (encS 0x02 0 o) = true →
    (s.found o.core).th.sentinel = true → o.ra ≠ 0 → (s.found o.core).th.lands = [⟨n, q, .sreg o.ra v p⟩] →
    (s.found o.core).th.cyc < n → dies (.add o) x s stHAZARD)

/-- On a core that can issue the word, with a descriptor that reads clean: FAB.SEND and FAB.RECV give the status of the
first check that fails. Where all hold, FAB.SEND waits for a message that the transport now holds, numbered next for
its destination, with the descriptor's fields and the bytes that scratch holds; FAB.RECV waits with its source, tag,
address and capacity posted. FAB_SEND_COMPLETE with the outcome known gives it, FAB_RECV_COMPLETE the status, length
and source; the core goes on. (R174, R347, R351, R354, R355, R356, R358, 12_fabric_transport.md, 06_hj1_baseline.md) -/
def Obligations.FabricInstructions : Prop :=
  (∀ (o : YOp) (x : CtxId) (d : List Byte) (s : State), s.runs o.core x (encY 0x64 o) →
    let k := s.found o.core
    fabDesc k o = .inr d →
    (∀ st, sendCheck (s.ctx x) o.core d = some st →
      Gives (.fabSend o) s fun t => s.ran t o.core [(1, .sreg o.sd (st.setWidth 64) false)] 0 ∧ s.onlyCores t) ∧
    (sendCheck (s.ctx x) o.core d = none →
      Gives (.fabSend o) s fun t =>
        let dest := BitVec.ofNat 12 (lef d 2 2)
        let n := BitVec.ofNat 48 (sget 0 s.fab.mseq dest.toNat % (2 ^ 48 - 1) + 1)
        (t.core o.core).th = { k.after 1 [] with wait := some (.fabSend o.sd dest n none false) } ∧
        ∃ h ∈ t.fab.held, h.msg.dest = dest ∧ h.msg.mseq = n ∧ h.msg.kind = 0x01 ∧ h.msg.sctx = x ∧
          h.msg.tag = BitVec.ofNat 16 (lef d 6 2) ∧ h.msg.payload = k.rd (lef d 8 4) (lef d 0xC 4) ∧
          h.sender = .core o.core x)) ∧
  (∀ (o : YOp) (x : CtxId) (d : List Byte) (s : State), s.runs o.core x (encY 0x65 o) →
    let k := s.found o.core
    fabDesc k o = .inr d →
    (∀ st, recvCheck (s.ctx x) o.core d = some st →
      Gives (.fabRecv o) s fun t => s.ran t o.core [(1, .sreg o.sd (st.setWidth 64) false)] 0 ∧ s.onlyCores t) ∧
    (recvCheck (s.ctx x) o.core d = none →
      Gives (.fabRecv o) s fun t =>
        (t.core o.core).th = { k.after 1 [] with
          wait := some (.fabRecv o.sd (bit (d.getD 0 0) 0) (BitVec.ofNat 12 (lef d 2 2)) (BitVec.ofNat 16 (lef d 6 2))
            (lef d 8 4) (lef d 0xC 4) none) } ∧ s.onlyCores t)) ∧
  (∀ (c : CoreId) (waited : Nat) (sd : Fin 32) (d : BitVec 12) (q : BitVec 48) (st : BitVec 16) (re : Bool) (s : State),
    s.waitLive c = true → (s.core c).th.wait = some (.fabSend sd d q (some st) re) →
    Gives (.fabSendComplete c waited) s fun t =>
      (t.core c).th = (s.core c).woken waited [(0, .sreg sd (st.setWidth 64) false)] ∧
      (∀ e, e ≠ c.val → t.core e = s.core e) ∧ s.onlyCores t) ∧
  (∀ (c : CoreId) (waited n a cap : Nat) (sd : Fin 32) (any : Bool) (src from_ : BitVec 12) (tag st : BitVec 16) (s : State),
    s.waitLive c = true → (s.core c).th.wait = some (.fabRecv sd any src tag a cap (some (st, n, from_))) →
    Gives (.fabRecvComplete c waited) s fun t =>
      (t.core c).th = (s.core c).woken waited
        [(0, .sreg sd (BitVec.ofNat 64 (st.toNat + n * 2 ^ 16 + from_.toNat * 2 ^ 48)) false)] ∧
      (∀ e, e ≠ c.val → t.core e = s.core e) ∧ s.onlyCores t)

/-- DESC_SETUP of a head in setup that a move of its tensor holds changes nothing; where the checks hold it puts it in
its data phase, and of a second descriptor marks it ready; a head that fails a check retires with that check's
status and event 18. SLOT_FILLED of an inbound head with data left and a slot free, and SLOT_DRAINED of an outbound
one with data left and a slot filled, count one slot to the program and the bytes moved; without a skew, a slot of
at most 64 bytes holds what the tensor read gives, no other byte of scratch changes, and a drained one is written to
the tensor as scratch holds it. DESC_RETIRE of a head with its bytes moved, and every inbound slot handed back,
retires it OK, or DATA_POISON where poisoned, and the next descriptor leads. (R224, R225, R227, R228, R229, R231,
R233, R234, R235, R239, R290, 08_streams.md) -/
def Obligations.StreamEngine : Prop :=
  (∀ (c : CoreId) (ch : Fin 8) (x : CtxId) (d : Desc) (ds : List Desc) (s : State),
    let h := (s.core c).chan ch
    h.ctx = some x → h.head = .setup → h.queue = d :: ds →
    (s.moveHolds x d = true → exec (.descSetup c ch) s = .next s) ∧
    (s.moveHolds x d = false → s.setupFails x c d = none →
      Gives (.descSetup c ch) s fun t =>
        (t.core c).chan ch = { h with head := .data, bank := ((t.core c).chan ch).bank } ∧
        (∀ i, i ≠ ch.val → (t.core c).chan i = (s.core c).chan i) ∧ (∀ e, e ≠ c.val → t.core e = s.core e) ∧
        t = { s with cores := t.cores, free := t.free }) ∧
    (∀ st, s.moveHolds x d = false → s.setupFails x c d = some st → st ≠ stOK → ds = [] →
      Gives (.descSetup c ch) s fun t =>
        ((t.core c).chan ch).queue = [] ∧ ((t.core c).chan ch).head = .none ∧ ((t.core c).chan ch).lastStatus = st ∧
        t.reg64 (pCORE c) 0xFC8 = s.reg64 (pCORE c) 0xFC8 + 1 ∧ bit (t.page (pCORE c)).evt 18 = true)) ∧
  (∀ (c : CoreId) (ch : Fin 8) (x : CtxId) (d e : Desc) (ds : List Desc) (s : State),
    let h := (s.core c).chan ch
    h.ctx = some x → h.head = .data → h.nextReady = false → h.queue = d :: e :: ds → s.moveHolds x e = false →
    s.setupFails x c e = none →
    Gives (.descSetup c ch) s fun t =>
      (t.core c).chan ch = { h with nextReady := true, nextBank := ((t.core c).chan ch).nextBank } ∧
      t = { s with cores := t.cores, free := t.free }) ∧
  (∀ (c : CoreId) (ch : Fin 8) (x : CtxId) (d : Desc) (rn : Nat) (rw : Bool) (s : State),
    let s' := s.modCore c Core.landCredits
    let h := (s'.core c).chan ch
    let n := min d.take (d.length.toNat - h.done)
    let a := d.ringBase.toNat + h.engSlot * (64 * d.slotSize.toNat)
    let r := s'.recRead rn (h.bank.getD false) d.hintOf (s.tenantPart (s.ctx x).tenant) rw (d.offset.toNat + h.done) n
    s'.running c ch = some (x, d, rn, rw) → d.dirOut = false → h.done < d.length.toNat → h.credits < d.slotCount.toNat →
    Gives (.slotFilled c ch) s fun t =>
      let h' := (t.core c).chan ch
      h'.credits = h.credits + 1 ∧ h'.done = h.done + n ∧ h'.engSlot = (h.engSlot + 1) % max 1 d.slotCount.toNat ∧
      h'.queue = h.queue ∧ h'.head = .data ∧ (∀ i, i ≠ ch.val → (t.core c).chan i = (s'.core c).chan i) ∧
      (∀ e, e ≠ c.val → t.core e = s.core e) ∧
      (d.skew = false → n ≤ 64 → (t.core c).rd a r.1.length = r.1 ∧
        (∀ b, b < a ∨ a + r.1.length ≤ b → (t.core c).rd b 1 = (s.core c).rd b 1) ∧ h'.poisoned = (h.poisoned || r.2.1))) ∧
  (∀ (c : CoreId) (ch : Fin 8) (x : CtxId) (d : Desc) (rn : Nat) (rw : Bool) (s : State),
    let s' := s.modCore c Core.landCredits
    let h := (s'.core c).chan ch
    let n := min d.take (d.length.toNat - h.done)
    let a := d.ringBase.toNat + h.engSlot * (64 * d.slotSize.toNat)
    s'.running c ch = some (x, d, rn, rw) → d.dirOut = true → h.done < d.length.toNat → h.credits < d.slotCount.toNat →
    Gives (.slotDrained c ch) s fun t =>
      let h' := (t.core c).chan ch
      h'.credits = h.credits + 1 ∧ h'.done = h.done + n ∧ h'.queue = h.queue ∧ h'.head = .data ∧
      (t.core c).scratch = (s'.core c).scratch ∧ (∀ e, e ≠ c.val → t.core e = s.core e) ∧
      (n ≤ 64 → t.mem = (s'.recWrite rn (h.bank.getD false) d.hintOf (s.tenantPart (s.ctx x).tenant)
        ((s'.core c).marked a n) (d.offset.toNat + h.done) ((s'.core c).rd a n)).mem)) ∧
  (∀ (c : CoreId) (ch : Fin 8) (x : CtxId) (d : Desc) (ds : List Desc) (s : State),
    let h := ((s.modCore c Core.landCredits).core c).chan ch
    h.ctx = some x → h.head = .data → h.queue = d :: ds → d.length.toNat ≤ h.done → (d.dirOut = true ∨ h.credits = 0) →
    Gives (.descRetire c ch) s fun t =>
      let h' := (t.core c).chan ch
      h'.queue = ds ∧ h'.lastStatus = (if h.poisoned then stDATA_POISON else stOK) ∧
      (ds = [] → h'.head = .none ∧ h'.ctx = none ∧ h'.credits = 0) ∧
      (∀ e es, ds = e :: es → h'.head = (if h.nextReady then .data else .setup) ∧
        h'.credits = (if e.dirOut then e.slotCount.toNat else 0)) ∧
      (h.poisoned = false → t.reg64 (pCORE c) 0xFC0 = s.reg64 (pCORE c) 0xFC0 + 1 ∧ s.onlyCores t))

/-- BAR_ARRIVAL of a core whose BAR waits, with every closing descriptor of its context retired on it and the instance
under way, makes the arrival take effect. BAR_COMPLETE of a chip barrier at which every participant has arrived,
with no engine taking part, begins a new instance and lets a listed core go on with OK in its SD. BARRIER_STALL of
an instance that the watchdog's period has passed gives every arrived core STALLED and records this chip. BAR_ARRIVE
that is new to the root records its chip among the arrived ones, until the last releases all, and is acknowledged
OK; BAR_RELEASE releases a barrier whose arrival this chip has sent. (R174, R243, R244, R245, R246, R247, R350,
08_streams.md) -/
def Obligations.Barriers : Prop :=
  (∀ (c : CoreId) (x : CtxId) (sd : Fin 32) (b : Fin 64) (s : State),
    (s.core c).ctx = some x → (s.core c).th.wait = some (.bar sd b false none) → (s.core c).closed x = true →
    (s.bar x b).aborted = false → (s.bar x b).ended = none → (∀ j, j < 8 → s.trnOn j x = false) →
    Gives (.barArrival c) s fun t =>
      c ∈ (t.bar x b).arrived ∧ (t.core c).th.wait = some (.bar sd b true none) ∧
      (∀ e, e ≠ c.val → t.core e = s.core e) ∧
      ((s.bar x b).chips = 0 → t = { s with cores := t.cores, ctxs := t.ctxs })) ∧
  (∀ (c : CoreId) (n : Nat) (x : CtxId) (sd : Fin 32) (b : Fin 64) (s : State),
    (s.bar x b).ended = none → (s.bar x b).aborted = false → (s.bar x b).chips = 0 → s.barWhole x b = true →
    s.barEngines x b = [] → (∀ j, j < 8 → s.trnOn j x = false) → c ∈ (s.bar x b).arrived →
    (s.core c).ctx = some x → (s.core c).th.wait = some (.bar sd b true none) → s.waitLive c = true →
    Gives (.barComplete x b [(c, n)]) s fun t =>
      (t.core c).th = (s.core c).woken n [(0, .sreg sd 0 false)] ∧ (t.bar x b).arrived = [] ∧
      (t.bar x b).cores = (s.bar x b).cores ∧ t.reg64 (pCORE c) 0xFD8 = s.reg64 (pCORE c) 0xFD8 + 1) ∧
  (∀ (c : CoreId) (x : CtxId) (sd : Fin 32) (b : Fin 64) (s : State),
    (s.bar x b).ended = none → (s.bar x b).chips = 0 → s.wdogOver (s.bar x b).first = true → s.barWhole x b = false →
    c ∈ (s.bar x b).arrived → (s.core c).ctx = some x → (s.core c).th.wait = some (.bar sd b true none) →
    Gives (.barrierStall x b) s fun t =>
      (t.core c).th.wait = some (.bar sd b true (some stSTALLED)) ∧ fld (t.reg pFAB 0x808) 0 12 = s.myAddr % 4096 ∧
      t.reg64 pFAB 0xF70 = s.reg64 pFAB 0xF70 + 1 ∧ t.reg64 pERR 0xF08 = s.reg64 pERR 0xF08 + 1) ∧
  (∀ (x : CtxId) (b : Fin 64) (s : State), s.wdogOver (s.bar x b).first = false →
    Gives (.barrierStall x b) s fun t => t = s) ∧
  (∀ (m : Message) (s : State), s.newTo m = true → m.mc = false →
    let gid := hdr m 0x24 2
    let b := hdr m 0x28 4 % 64
    Gives (.barArrive m) s fun t =>
      t.recorded m stOK ∧
      (((s.podChips gid).all (fun c => (s.pod gid b).arrived.contains c || c == m.src) = false ∨ s.podChips gid = []) →
        m.src ∈ (t.pod gid b).arrived ∧ ∀ c ∈ (s.pod gid b).arrived, c ∈ (t.pod gid b).arrived) ∧
      ((s.podChips gid).all (fun c => (s.pod gid b).arrived.contains c || c == m.src) = true → s.podChips gid ≠ [] →
        (t.pod gid b).arrived = [])) ∧
  (∀ (m : Message) (x : CtxId) (s : State), s.newTo m = true → m.mc = false →
    let b := hdr m 0x28 4 % 64
    s.podCtx (hdr m 0x24 2) b = some x → (s.bar x b).sent = true → (s.bar x b).ended = none →
    Gives (.barRelease m) s fun t =>
      t.recorded m stOK ∧ t.bar x b = { s.bar x b with released := true } ∧ t.cores = s.cores)

/-- MEM_READ of an address of the 768 GiB, its stack not stopped, with clean codes, sends the 64 bytes and the mark of
its line as the cached copy or else stacked memory holds them; a read that allocates nothing changes no byte of
memory, and with an empty hint cache no address reads differently after any read. MEM_WRITE with clean codes and an
empty hint cache leaves the bytes written at their addresses, as far as they lie in the line, and every other
address as it read before; a whole line takes the write's mark, a partial one keeps a mark. Both fault at an address
outside device memory, and a stopped stack serves nothing. (R254, R255, R257, R259, R261, R265, R272, R273,
09_stacked_memory.md) -/
def Obligations.MemoryAccesses : Prop :=
  (∀ (a : MemAccess) (s : State), a.addr.toNat < 768 * 2 ^ 30 → a.ecc = .clean → a.hcc = .clean →
    (s.stack (locate s.grouped a.addr.toNat).1).stopped = false →
    let line := a.addr.toNat / 64
    Gives (.memRead a) s fun t =>
      (∃ bs : List Byte, t.out = s.out ++ [.read (s.devMark (64 * line)) bs] ∧
        ∀ i, i < 64 → bs.getD i 0 = s.devByte (64 * line + i)) ∧
      (a.hint = .stream → t.mem = { s.mem with heat := t.mem.heat }) ∧
      (s.mem.hcc = [] → ∀ b, t.devByte b = s.devByte b ∧ t.devMark b = s.devMark b) ∧
      t = { s with out := t.out, mem := t.mem, regs := t.regs, pw := t.pw, free := t.free }) ∧
  (∀ (a : MemAccess) (data : List Byte) (poison : Bool) (s : State), a.addr.toNat < 768 * 2 ^ 30 → a.ecc = .clean →
    a.hcc = .clean → (s.stack (locate s.grouped a.addr.toNat).1).stopped = false → s.mem.hcc = [] →
    let line := a.addr.toNat / 64
    let lo := a.addr.toNat % 64
    let n := min data.length (64 - lo)
    Gives (.memWrite a data poison) s fun t =>
      (∀ b, t.devByte b = if a.addr.toNat ≤ b ∧ b < a.addr.toNat + n then data.getD (b - a.addr.toNat) 0 else s.devByte b) ∧
      t.devMark (64 * line) = (if n = 64 then poison else s.devMark (64 * line) || poison) ∧
      (∀ l, l ≠ line → t.devMark (64 * l) = s.devMark (64 * l)) ∧
      t = { s with mem := t.mem, regs := t.regs, pw := t.pw, free := t.free }) ∧
  (∀ (a : MemAccess) (data : List Byte) (poison : Bool) (s : State), 768 * 2 ^ 30 ≤ a.addr.toNat →
    exec (.memRead a) s = .fault .outsideMemory ∧ exec (.memWrite a data poison) s = .fault .outsideMemory) ∧
  (∀ (a : MemAccess) (data : List Byte) (poison : Bool) (s : State), a.addr.toNat < 768 * 2 ^ 30 →
    (s.stack (locate s.grouped a.addr.toNat).1).stopped = true →
    exec (.memRead a) s = .next s ∧ exec (.memWrite a data poison) s = .next s) ∧
  (∀ (g : Bool) (pa : Nat), pa < 768 * 2 ^ 30 →
    unlocate g (locate g pa).1 (locate g pa).2.1 (locate g pa).2.2 = pa ∧ (locate g pa).1 < 8 ∧ (locate g pa).2.1 < 16)

/-- TEMP_READING of a powered controller takes the reading, its maximum, the refresh multiplier that its thresholds give
(2 above 95 down to 93, 1 above 85 down to 83), the throttle (from above 105, below 110, down to 103), and at 110 or
more stops the stack with a FATAL error. SCRUB_LINE of a READY stack, ON and enabled, reads its next line and moves
on, going round at the end; a clean line is unchanged, and a line found uncorrectable that the hint cache does not
hold dirty is poisoned, where no record holds it. HCC_FLUSH_CMD that its page admits, with GO and the page enabled,
begins a flush after which no selected way is dirty, and none is held with INVAL; FLUSH_DONE ends it with event 16.
(R258, R263, R264, R265, R266, R267, R268, R269, R279, 09_stacked_memory.md) -/
def Obligations.StacksAndSlices : Prop :=
  (∀ (k : Fin 8) (v : Nat) (s : State), s.domLive (dMem k) = true →
    let g := s.stack k
    Gives (.tempReading k v) s fun t =>
      let g' := t.stack k
      g'.temp = v ∧ g'.tempMax = max g.tempMax v ∧
      (95 < v → g'.mult = 2) ∧ (85 < v → v ≤ 93 → g'.mult = 1) ∧ (v ≤ 83 → g'.mult = 0) ∧
      (93 < v → v ≤ 95 → g'.mult = if g.mult = 2 then 2 else 1) ∧ (83 < v → v ≤ 85 → g'.mult = if g.mult = 0 then 0 else 1) ∧
      g'.throttled = ((decide (105 < v) && decide (v < 110)) || (g.throttled && decide (103 < v))) ∧
      g'.stopped = (g.stopped || decide (110 ≤ v)) ∧
      (110 ≤ v → g.stopped = false → t.log.fatal = true ∧ t.reg64 pERR 0xF18 = s.reg64 pERR 0xF18 + 1) ∧
      (∀ j, j ≠ k.val → t.stack j = s.stack j) ∧ t.mem = { s.mem with hbms := t.mem.hbms } ∧
      ({ s with mem := t.mem } : State).noted t) ∧
  (∀ (k : Fin 8) (ecc : EccObs) (raced : Bool) (s : State), s.domOn (dMem k) = true → (s.stack k).ready = true →
    (s.stack k).stopped = false → s.pgEn (pMEM k) = true →
    let line := scrubAt s.grouped k (s.stack k).scrubPos
    Gives (.scrubLine k ecc raced) s fun t =>
      (s.recOfLine line = none →
        (t.stack k).scrubPos = (if (s.stack k).scrubPos + 1 = 1610612736 then 0 else (s.stack k).scrubPos + 1) ∧
        t.reg64 (pMEM k) 0xF30 = s.reg64 (pMEM k) 0xF30 + 1 ∧
        (ecc = .clean → t.mem.bytes = s.mem.bytes ∧ t.mem.poison = s.mem.poison ∧ t.mem.hcc = s.mem.hcc) ∧
        (ecc = .uncorrectable → s.heldDirty line = false → sget false t.mem.poison line = true) ∧
        (ecc = .uncorrectable → s.heldDirty line = true → sget false s.mem.poison line = false → t.mem.poison = s.mem.poison))) ∧
  (∀ (r : Requester) (sl : Fin 16) (v : Word32) (s : State), s.admits r (pHCC sl) 0x800 → s.pgEn (pHCC sl) = true →
    bit v 31 = true → s.mem.flushing.getLsbD sl = false → swf (fun _ => none) s.mem.hcc = true →
    Gives (.hccFlushCmd r sl v) s fun t =>
      t.mem.flushing.getLsbD sl = true ∧ t.reg (pHCC sl) 0x804 = 1 ∧
      (∀ set w, set < 8192 → w < 16 → (fld v 0 16).testBit w = true →
        match t.way sl set w with | none => True | some l => bit v 16 = false ∧ l.dirty = false) ∧
      (∀ q set w, q ≠ sl.val → set < 8192 → w < 16 → t.way q set w = s.way q set w) ∧
      t = { s with mem := t.mem, regs := t.regs, pages := t.pages }) ∧
  (∀ (r : Requester) (sl : Fin 16) (v : Word32) (s : State), s.admits r (pHCC sl) 0x800 → bit v 31 = true →
    s.mem.flushing.getLsbD sl = true →
    Gives (.hccFlushCmd r sl v) s fun t => bit (t.reg (pHCC sl) 0x804) 2 = true ∧ t.mem = s.mem) ∧
  (∀ (sl : Fin 16) (s : State), s.mem.flushing.getLsbD sl = true →
    Gives (.flushDone sl) s fun t =>
      t.mem.flushing.getLsbD sl = false ∧ (∀ q, q ≠ sl.val → t.mem.flushing.getLsbD q = s.mem.flushing.getLsbD q) ∧
      fld (t.reg (pHCC sl) 0x804) 0 2 = 2 ∧ bit (t.page (pHCC sl)).evt 16 = true ∧
      t.mem = { s.mem with flushing := t.mem.flushing } ∧ ({ s with mem := t.mem } : State).noted t)

/-- Written through an enabled TIER page that admits them: ADMIT for an owner, its list in device memory, completes OK
with a new handle of that owner, TABLE_FULL, or SIZE_EXCEEDS, which is counted; only OK changes a handle, and none
changes a record. RELEASE of an open handle closes it. MAP of no bytes is ZERO_LEN, and of more than the room is
QUOTA_EXCEEDED, counted; one that completes OK without a handle gives a new record with the size, tier, home and
owner asked for, its units enough, distinct and in use by nothing before, under the context's tensor ID with the
write right asked for. SHARE maps a record read-only. UNMAP drops the mapping, and the record with its last one, but
is TENSOR_IN_USE while the context streams it. (R282, R284, R286, R287, R300, R302, R303, R304, 10_tiers_quotas.md) -/
def Obligations.AdmissionAndMapping : Prop :=
  let done (t : State) (st : BitVec 16) : Prop :=
    t.reg pTIER 0x814 = BitVec.ofNat 32 (st.toNat + 2 ^ 31) ∧ bit (t.page pTIER).evt 16 = true
  (∀ (r : Requester) (s : State), s.admits r pTIER 0x800 → s.pgEn pTIER = true → fld (s.tierArg 0) 0 7 ≤ 64 →
    (s.tierArg 1).toNat + fld (s.tierArg 2) 0 8 * 2 ^ 32 + 256 ≤ 768 * 2 ^ 30 →
    Gives (.tierAdmit r) s fun t =>
      t.tier.recs = s.tier.recs ∧ t.tier.maps = s.tier.maps ∧
      ((done t stOK ∧ ∃ h q, t.reg pTIER 0x818 = BitVec.ofNat 32 h ∧ 1 ≤ h ∧ h ≤ 255 ∧ sget none s.tier.handles h = none ∧
          sget none t.tier.handles h = some q ∧ q.owner = fld (s.tierArg 0) 0 7 ∧
          ∀ g, g ≠ h → sget none t.tier.handles g = sget none s.tier.handles g) ∨
       (done t stTABLE_FULL ∧ t.tier.handles = s.tier.handles) ∨
       (done t stSIZE_EXCEEDS ∧ t.tier.handles = s.tier.handles ∧ t.reg64 pTIER 0xF28 = s.reg64 pTIER 0xF28 + 1))) ∧
  (∀ (r : Requester) (q : Handle) (s : State), s.admits r pTIER 0x800 → s.pgEn pTIER = true →
    sget none s.tier.handles (fld (s.tierArg 0) 0 8) = some q →
    Gives (.tierRelease r) s fun t =>
      done t stOK ∧ sget none t.tier.handles (fld (s.tierArg 0) 0 8) = none ∧
      (∀ g, g ≠ fld (s.tierArg 0) 0 8 → sget none t.tier.handles g = sget none s.tier.handles g) ∧
      ({ s with tier := { s.tier with handles := t.tier.handles } } : State).noted t) ∧
  (∀ (r : Requester) (s : State), s.admits r pTIER 0x800 → s.pgEn pTIER = true →
    let x := fld (s.tierArg 0) 16 6
    let tid := fld (s.tierArg 0) 0 12
    let pool := bit (s.tierArg 0) 26
    let home := fld (s.tierArg 0) 28 4
    let size := (s.tierArg 1).toNat + fld (s.tierArg 2) 0 16 * 2 ^ 32
    let owner := fld (s.reg (pCTX x) 0x100) 0 6
    (size = 0 → Gives (.map r) s fun t => done t stZERO_LEN ∧ s.noted t) ∧
    (0 < size → fld (s.tierArg 3) 0 8 = 0 → bit (s.reg (pCTX x) 0x100) 6 = true → s.mapping x tid = none →
      (s.room pool owner home < unitsFor pool size →
        Gives (.map r) s fun t => done t stQUOTA_EXCEEDED ∧ t.reg64 pTIER 0xF20 = s.reg64 pTIER 0xF20 + 1 ∧ s.noted t) ∧
      (unitsFor pool size ≤ s.room pool owner home →
        Gives (.map r) s fun t =>
          (done t stOK ∧ ∃ rn q, t.reg pTIER 0x818 = BitVec.ofNat 32 rn ∧ s.trec rn = none ∧ t.trec rn = some q ∧
            q.owner = owner ∧ q.size = size ∧ q.pool = pool ∧ q.home = home ∧ q.auto = bit (s.tierArg 0) 25 ∧
            q.units.length = unitsFor pool size ∧ q.units.Nodup ∧ (∀ u ∈ q.units, u ∉ s.unitsUsed pool) ∧
            t.mapping x tid = some { recN := rn, rw := bit (s.tierArg 0) 24 } ∧ (∀ n, n ≠ rn → t.trec n = s.trec n)) ∨
          (done t stTABLE_FULL ∧ t.tier.recs = s.tier.recs ∧ t.tier.maps = s.tier.maps) ∨
          (done t stQUOTA_EXCEEDED ∧ t.tier.recs = s.tier.recs ∧ t.tier.maps = s.tier.maps)))) ∧
  (∀ (r : Requester) (s : State), s.admits r pTIER 0x800 → s.pgEn pTIER = true →
    let x := fld (s.tierArg 0) 16 6
    let tid := fld (s.tierArg 0) 0 12
    (s.trec (fld (s.tierArg 3) 0 15)).isSome = true → s.mapping x tid = none → bit (s.reg (pCTX x) 0x100) 6 = true →
    Gives (.share r) s fun t =>
      done t stOK ∧ t.mapping x tid = some { recN := fld (s.tierArg 3) 0 15, rw := false } ∧
      ({ s with tier := { s.tier with maps := t.tier.maps } } : State).noted t) ∧
  (∀ (r : Requester) (q : Mapping) (s : State), s.admits r pTIER 0x800 → s.pgEn pTIER = true →
    let x := fld (s.tierArg 0) 16 6
    let tid := fld (s.tierArg 0) 0 12
    s.mapping x tid = some q →
    (s.ctxRecBusy x q.recN = true → Gives (.unmap r) s fun t => done t stTENSOR_IN_USE ∧ s.noted t) ∧
    (s.ctxRecBusy x q.recN = false →
      Gives (.unmap r) s fun t =>
        done t stOK ∧ t.mapping x tid = none ∧
        ((∃ p ∈ somes t.tier.maps, p.recN = q.recN) → t.tier.recs = s.tier.recs) ∧
        ((∀ p ∈ somes t.tier.maps, p.recN ≠ q.recN) → t.trec q.recN = none ∧ ∀ n, n ≠ q.recN → t.trec n = s.trec n)))

/-- MOVE of a record with no move under way completes OK where it lies there already or its destination space can be
taken, which asks for the move, and is QUOTA_EXCEEDED where its owner has no room; PIN stops automatic moves.
MOVE_START takes the oldest move whose record nothing streams, none while one runs; MOVE_DONE gives the record its
new place and units and leaves every other record; MOVE_ABANDON drops a hardware move that has waited for WAIT.
TIER_QPOOL and TIER_QSTACK set their quotas, unless the sum over owners passes the place, QUOTA_OVERCOMMIT, or use
passes the new value, QUOTA_IN_USE. HEAT_EPOCH_END clears every heat counter and, with migration off, moves nothing.
(R285, R288, R289, R290, R291, R292, R293, R296, R298, R299, R301, 10_tiers_quotas.md) -/
def Obligations.MovesQuotasAndHeat : Prop :=
  let done (t : State) (st : BitVec 16) : Prop :=
    t.reg pTIER 0x814 = BitVec.ofNat 32 (st.toNat + 2 ^ 31) ∧ bit (t.page pTIER).evt 16 = true
  (∀ (r : Requester) (q : Rec) (s : State), s.admits r pTIER 0x800 → s.pgEn pTIER = true →
    let rn := fld (s.tierArg 0) 0 15
    let pool := bit (s.tierArg 0) 16
    let home := fld (s.tierArg 0) 20 4
    let there := q.pool = pool ∧ (if q.pool then q.home = home else s.qwin q.home = s.qwin home)
    let n := unitsFor pool (min q.size (q.units.length * unitBytes q.pool))
    s.trec rn = some q → s.moveOf rn = false →
    Gives (.move r) s fun t =>
      (there → done t stOK ∧ t.tier.moves = s.tier.moves ∧ t.trec rn = some (if bit (s.tierArg 0) 17 then { q with auto := false } else q)) ∧
      (¬ there → s.room pool q.owner home < n + (if q.unitsB.isEmpty then 0 else n) →
        done t stQUOTA_EXCEEDED ∧ t.tier.moves = s.tier.moves) ∧
      (¬ there → t.tier.moves ≠ s.tier.moves →
        done t stOK ∧ ∃ m, t.tier.moves = s.tier.moves ++ [m] ∧ m.recN = rn ∧ m.pool = pool ∧ m.home = home ∧ m.hw = false ∧
          m.dst.length = n ∧ ∀ u ∈ m.dst ++ m.dstB, u ∉ s.unitsUsed pool)) ∧
  (∀ (m : Move) (rest : List Move) (s : State), s.tier.moving = none → s.tier.moves = m :: rest → m.dst ≠ [] →
    s.recBusy m.recN = false →
    Gives .moveStart s fun t => t = { s with tier := { s.tier with moving := some m, moves := rest } }) ∧
  (∀ (m : Move) (s : State), s.tier.moving = some m → Gives .moveStart s fun t => t = s) ∧
  (∀ (m : Move) (q : Rec) (s : State), s.tier.moving = some m → s.trec m.recN = some q → m.hw = false →
    Gives .moveDone s fun t =>
      t.tier.moving = none ∧
      (∃ h, t.trec m.recN = some { q with pool := m.pool, home := m.home, units := m.dst, unitsB := m.dstB, hits := h, cool := 0 }) ∧
      (∀ n, n ≠ m.recN → t.trec n = s.trec n) ∧ t.tier.maps = s.tier.maps ∧
      t.reg64 pTIER 0xF10 = s.reg64 pTIER 0xF10 + BitVec.ofNat 64 (q.size * (if q.unitsB.isEmpty then 1 else 2))) ∧
  (∀ (m : Move) (rest : List Move) (s : State), s.tier.moves = m :: rest → m.hw = true →
    fld (s.reg pTIER 0x110) 16 16 * 32768 ≤ (s.pw.aonTime - m.since).toNat * 1000000 →
    Gives .moveAbandon s fun t =>
      t.tier.moves = rest ∧ t.tier.recs = s.tier.recs ∧ t.reg64 pTIER 0xF18 = s.reg64 pTIER 0xF18 + 1 ∧
      t = { s with tier := t.tier, regs := t.regs }) ∧
  (∀ (r : Requester) (v : Word32) (s : State), s.admits r pTIER 0x844 →
    let o := fld (s.reg pTIER 0x840) 0 7
    let c := fld (s.reg pTIER 0x840) 8 4
    let others := (allOwners.map (fun q => if q = o then 0 else s.qpool q c 0 + s.qpool q c 1 + s.qpool q c 2)).sum
    let excess := 192 < others + fld v 0 8 + fld v 8 8 + fld v 16 8
    let used := fld v 0 8 < s.poolUsed o c 0 ∨ fld v 8 8 < s.poolUsed o c 1 ∨ fld v 16 8 < s.poolUsed o c 2
    o ≤ 64 →
    Gives (.tierQpool r v) s fun t =>
      (excess → done t stQUOTA_OVERCOMMIT ∧ t.tier = s.tier) ∧ (¬ excess → used → done t stQUOTA_IN_USE ∧ t.tier = s.tier) ∧
      (¬ excess → ¬ used → t.qpool o c 0 = fld v 0 8 ∧ t.qpool o c 1 = fld v 8 8 ∧ t.qpool o c 2 = fld v 16 8 ∧
        (∀ p d k, k < 3 → d < 16 → (p ≠ o ∨ d ≠ c) → t.qpool p d k = s.qpool p d k) ∧
        t = { s with tier := { s.tier with qpool := t.tier.qpool }, pages := t.pages })) ∧
  (∀ (r : Requester) (v : Word32) (s : State), s.admits r pTIER 0x84C →
    let o := fld (s.reg pTIER 0x840) 0 7
    let w := s.qwin (fld (s.reg pTIER 0x840) 12 4)
    let others := (allOwners.map (fun q => if q = o then 0 else s.qstack q w)).sum
    let excess := (if s.grouped then 24576 else 393216) < others + fld v 0 19
    o ≤ 64 →
    Gives (.tierQstack r v) s fun t =>
      (excess → done t stQUOTA_OVERCOMMIT ∧ t.tier = s.tier) ∧
      (¬ excess → fld v 0 19 < s.stackUsed o w → done t stQUOTA_IN_USE ∧ t.tier = s.tier) ∧
      (¬ excess → s.stackUsed o w ≤ fld v 0 19 → t.qstack o w = fld v 0 19 ∧
        (∀ p, p ≠ o → t.qstack p w = s.qstack p w) ∧
        t = { s with tier := { s.tier with qstack := t.tier.qstack }, pages := t.pages })) ∧
  (∀ s : State, (bit (s.reg pTIER 0x100) 0 = false ∨ s.pgEn pTIER = false) →
    Gives .heatEpochEnd s fun t =>
      t.mem = { s.mem with heat := [] } ∧ t.tier.moves = s.tier.moves ∧
      (∀ n, (t.trec n).map (fun q => (q.units, q.pool, q.size)) = (s.trec n).map (fun q => (q.units, q.pool, q.size))) ∧
      (∀ n q, t.trec n = some q → q.hits = 0) ∧ t = { s with mem := t.mem, tier := { s.tier with recs := t.tier.recs } })

/-- A signal on an idle link that may train starts its training, and on a sleeping one wakes its domain. LINK_UP with
lanes enough and a right partner leaves the link UP on its clean lanes, sequences at 0, with event 16; with too few
lanes it is DOWN and to be retried; with a wrong partner MISWIRED, its reason stored, with event 19. LINK_TRAIN_FAIL
leaves it DOWN, LINK_TRAIN_RETRY trains it again. A fast retrain of a link whose domain is awake, when it succeeds,
is UP with lanes and sequences kept, and when it fails trains in full. LINK_DOWN clears signal and lanes, counted,
with event 17. RETRAIN trains a link with signal, is BUSY under another command, LINK_DOWN without signal. LNK_CFG
with EN trains a link with signal, and without EN disables it. FAB_ID, written once, is the chip's ID and starts
every enabled idle link with signal. (R312, R313, R314, R315, R316, R317, R327, R338, R341, R342, R72,
11_link_layer.md) -/
def Obligations.LinkTraining : Prop :=
  (∀ (l : LinkId) (s : State),
    ((s.link l).state = .down → s.mayTrain l = true →
      Gives (.linkSignalDetect l) s fun t => (t.link l).state = .training ∧ (t.link l).signal = true ∧
        (∀ k, k ≠ l.val → t.link k = s.link k)) ∧
    ((s.link l).state = .sleep →
      Gives (.linkSignalDetect l) s fun t => (t.link l).state = .sleep ∧ (t.link l).signal = true ∧
        ((t.dom (dLnk l)).state = .on ∨ (t.dom (dLnk l)).waking = true ∨ (t.dom (dLnk l)).wakeAfter = true))) ∧
  (∀ (l : LinkId) (i : TrainInfo) (s : State), (s.link l).state = .training → (s.link l).fast = false →
    s.domLive (dLnk l) = true → bit (s.reg (pLNK l) 0x140) 0 = false →
    Gives (.linkUp l i) s fun t =>
      (lanesIn (lanesAfter i) < s.minLanes l → (t.link l).state = .down ∧ (t.link l).failed = true) ∧
      (s.minLanes l ≤ lanesIn (lanesAfter i) → s.miswire l i ≠ 0 →
        (t.link l).state = .miswired ∧ t.reg (pLNK l) 0x80C = BitVec.ofNat 32 (s.miswire l i) ∧
        bit (t.page (pLNK l)).evt 19 = true) ∧
      (s.minLanes l ≤ lanesIn (lanesAfter i) → s.miswire l i = 0 →
        (t.link l).state = .up ∧ (t.link l).lanes = lanesAfter i ∧ (t.link l).rxSeq = 0 ∧ (t.link l).failed = false ∧
        bit (t.page (pLNK l)).evt 16 = true ∧ bit (t.reg pFAB 0x804) l = !s.neighbourOk l i.partnerAddr.toNat)) ∧
  (∀ (l : LinkId) (s : State), (s.link l).state = .training →
    Gives (.linkTrainFail l) s fun t =>
      (t.link l).state = .down ∧ (t.link l).failed = true ∧ (∀ k, k ≠ l.val → t.link k = s.link k) ∧
      t = { s with links := t.links, regs := t.regs }) ∧
  (∀ (l : LinkId) (s : State), (s.link l).failed = true → (s.link l).state = .down → (s.link l).signal = true →
    s.mayTrain l = true →
    Gives (.linkTrainRetry l) s fun t => (t.link l).state = .training ∧ ∀ k, k ≠ l.val → t.link k = s.link k) ∧
  (∀ (l : LinkId) (s : State), (s.link l).fast = true → s.domLive (dLnk l) = true →
    (Gives (.fastRetrainDone l true) s fun t => (t.link l).state = .up ∧ (t.link l).fast = false ∧
      (t.link l).lanes = (s.link l).lanes ∧ (t.link l).rxSeq = (s.link l).rxSeq) ∧
    (Gives (.fastRetrainDone l false) s fun t => (t.link l).state = .training ∧ (t.link l).fast = false)) ∧
  (∀ (l : LinkId) (s : State), (s.link l).state = .up →
    Gives (.linkDown l) s fun t =>
      (t.link l).state = .down ∧ (t.link l).signal = false ∧ (t.link l).lanes = 0 ∧
      t.reg64 (pLNK l) 0xF58 = s.reg64 (pLNK l) 0xF58 + 1 ∧ bit (t.page (pLNK l)).evt 17 = true) ∧
  (∀ (r : Requester) (l : LinkId) (s : State), s.admits r (pLNK l) 0x810 →
    ((s.link l).cmd ≠ 0 → Gives (.retrain r l) s fun t =>
      t.reg (pLNK l) 0x814 = stBUSY.setWidth 32 ∧ t.links = s.links) ∧
    ((s.link l).cmd = 0 → (s.link l).signal = false → Gives (.retrain r l) s fun t =>
      t.reg (pLNK l) 0x814 = stLINK_DOWN.setWidth 32 ∧ t.links = s.links) ∧
    ((s.link l).cmd = 0 → (s.link l).signal = true → s.mayTrain l = true → Gives (.retrain r l) s fun t =>
      t.reg (pLNK l) 0x814 = 0 ∧ (t.link l).state = .training ∧ (t.link l).cmd = 1)) ∧
  (∀ (r : Requester) (l : LinkId) (v : Word32) (s : State), s.admits r (pLNK l) 0x100 →
    (bit v 0 = true → s.chipTrains = true → (s.link l).signal = true →
      ((s.link l).state = .disabled ∨ (s.link l).state = .down) →
      Gives (.lnkCfgEn r l v) s fun t => (t.link l).state = .training ∧ t.lnkEn l = true) ∧
    (bit v 0 = false → (s.link l).state ≠ .disabled →
      Gives (.lnkCfgEn r l v) s fun t => (t.link l).state = .disabled ∧ (t.link l).lanes = 0 ∧ t.lnkEn l = false)) ∧
  (∀ (r : Requester) (v : Word32) (s : State), s.admits r pFAB 0x100 →
    Gives (.fabId r v) s fun t =>
      t.fabId = some (fld v 0 12, fld v 16 16) ∧
      (∀ l : LinkId, s.lnkEn l = true → s.mgt.jtag = false → 6 ≤ fld (s.reg pAON 0x890) 0 8 → (s.link l).signal = true →
        (s.link l).state = .down → (t.link l).state = .training) ∧
      (∀ l : LinkId, (s.link l).state = .up → t.link l = s.link l))

/-- DATA in sequence is accepted: the next sequence is awaited, the frame counted, and a message whole in it for this
chip handed to the transport; a frame received before is counted and dropped; one ahead, or a bad one, is dropped
with one NAK. Every frame's ACK frees the frames it covers and its credits are added. NAK and REPLAY_TIMEOUT send
the outstanding frames again, from the one named, or all; past LIMIT the link retrains fast. CREDIT_CTRL_SEND
reports owed credits. LINK_SLEEP_HYST of a quiet link that may sleep asks for sleep; SLEEP_REQ puts a quiet link to
sleep with an ACK and else answers NAK; SLEEP_ACK lets the asking link sleep, SLEEP_NAK keeps it awake; LINK_WAKE
begins a fast retrain. (R320, R322, R323, R324, R325, R326, R329, R330, R336, R337, R338, 11_link_layer.md) -/
def Obligations.LinkFrames : Prop :=
  let up (s : State) (l : LinkId) (f : Frame) : Prop := (s.link l).state = .up ∧ frameBad f = false
  let acked (k : Link) (f : Frame) : List Frame := k.retry.filter (fun g => !decide ((f.ack - g.seq - 1).toNat < 1024))
  (∀ (l : LinkId) (f : Frame) (s : State), up s l f → f.seq = (s.link l).rxSeq →
    Gives (.data l f) s fun t =>
      (t.link l).rxSeq = (s.link l).rxSeq + 1 ∧ (t.link l).nakSent = false ∧ (t.link l).state = .up ∧
      t.reg64 (pLNK l) 0xF08 = s.reg64 (pLNK l) 0xF08 + 1 ∧
      (f.som = true → f.eom = true → fld f.route 0 12 = s.myAddr → bit f.route 12 = false → bit f.route 13 = false →
        bit f.route 14 = false →
        t.fab.inbox = s.fab.inbox ++ [parseMsg f.payload (frameMarks f) false])) ∧
  (∀ (l : LinkId) (f : Frame) (s : State), up s l f → f.seq ≠ (s.link l).rxSeq →
    ((s.link l).rxSeq - f.seq).toNat ≤ 32768 →
    Gives (.data l f) s fun t => t.reg64 (pLNK l) 0xF40 = s.reg64 (pLNK l) 0xF40 + 1 ∧ s.onlyCores t) ∧
  (∀ (l : LinkId) (f : Frame) (s : State), (s.link l).state = .up →
    (frameBad f = true ∨ 32768 < ((s.link l).rxSeq - f.seq).toNat) →
    Gives (.data l f) s fun t =>
      (t.link l).rxSeq = (s.link l).rxSeq ∧ (t.link l).nakSent = true ∧ t.fab = s.fab ∧
      t.out = (if (s.link l).nakSent then s.out
        else s.out ++ [.frame l ((s.link l).stamp { plainFrame 3 with seq := (s.link l).rxSeq })])) ∧
  (∀ (l : LinkId) (f : Frame) (s : State), up s l f → s.calm = true →
    let kept := acked (s.link l) f
    let fs := kept.dropWhile (fun g => g.seq != f.seq)
    (Gives (.ctrl l f) s fun t => (t.link l).retry = kept ∧
      (∀ v, v < 8 → (t.link l).txCredit.getD v 0 =
        (s.link l).txCredit.getD v 0 + ((f.credits.getD v 0).toNat + 256 - (s.link l).seen.getD v 0) % 256) ∧
      (∀ k, k ≠ l.val → t.link k = s.link k) ∧ t = { s with links := t.links }) ∧
    (Gives (.nak l f) s fun t => (t.link l).retry = kept ∧
      t.out = s.out ++ fs.map (fun g => Output.frame l ((s.link l).stamp g)) ∧
      (fs ≠ [] → t.reg64 (pLNK l) 0xF38 = s.reg64 (pLNK l) 0xF38 + BitVec.ofNat 64 fs.length))) ∧
  (∀ (l : LinkId) (s : State), s.linkRuns l = true → (s.link l).retry ≠ [] → s.calm = true →
    ((s.link l).resends < fld (s.reg (pLNK l) 0x10C) 16 8 →
      Gives (.replayTimeout l) s fun t =>
        (t.link l).resends = (s.link l).resends + 1 ∧ (t.link l).retry = (s.link l).retry ∧
        t.out = s.out ++ (s.link l).retry.map (fun g => Output.frame l ((s.link l).stamp g))) ∧
    (fld (s.reg (pLNK l) 0x10C) 16 8 ≤ (s.link l).resends →
      Gives (.replayTimeout l) s fun t =>
        (t.link l).fast = true ∧ (t.link l).retry = (s.link l).retry ∧ bit (t.page (pLNK l)).evt 20 = true)) ∧
  (∀ (l : LinkId) (s : State), s.linkRuns l = true → (s.link l).owed = true →
    Gives (.creditCtrlSend l) s fun t =>
      t.out = s.out ++ [.frame l ((s.link l).stamp (plainFrame 2))] ∧ t.link l = { s.link l with owed := false } ∧
      (∀ k, k ≠ l.val → t.link k = s.link k) ∧ t = { s with out := t.out, links := t.links }) ∧
  (∀ (l : LinkId) (s : State), s.linkRuns l = true → (s.link l).quiet = true → bit (s.reg (pLNK l) 0x100) 5 = true →
    2 ≤ (s.page (pLNK l)).allow.toNat → (s.dom (dLnk l)).hold = false → (s.link l).sleepReq = false →
    Gives (.linkSleepHyst l) s fun t => (t.link l).sleepReq = true ∧ (t.link l).state = .up ∧
      ∃ f, t.out = s.out ++ [.frame l f] ∧ f.typ = 4 ∧ f.sub = 1) ∧
  (∀ (l : LinkId) (f : Frame) (s : State), up s l f → (s.link l).quiet = true → s.calm = true →
    (((s.link l).sleepReq = true ∨ (s.link l).owed = false) →
      Gives (.sleepReq l f) s fun t =>
        (t.link l).state = .sleep ∧ (t.link l).sleepReq = false ∧ (t.dom (dLnk l)).sleepTo = some .retain ∧
        ((s.link l).sleepReq = false → ∃ g, t.out = s.out ++ [.frame l g] ∧ g.typ = 4 ∧ g.sub = 2)) ∧
    ((s.link l).sleepReq = false → (s.link l).owed = true →
      Gives (.sleepReq l f) s fun t =>
        (t.link l).state = .up ∧ ∃ g, t.out = s.out ++ [.frame l g] ∧ g.typ = 4 ∧ g.sub = 3) ∧
    ((s.link l).sleepReq = true →
      Gives (.sleepAck l f) s fun t => (t.link l).state = .sleep ∧ (t.dom (dLnk l)).sleepTo = some .retain)) ∧
  (∀ (l : LinkId) (f : Frame) (s : State), up s l f →
    Gives (.sleepNak l f) s fun t => (t.link l).sleepReq = false ∧ (t.link l).state = .up) ∧
  (∀ (l : LinkId) (s : State), (s.link l).state = .sleep → (s.link l).fast = false →
    Gives (.linkWake l) s fun t =>
      (t.link l).fast = true ∧ t.reg64 (pLNK l) 0xF48 = s.reg64 (pLNK l) 0xF48 + 1 ∧
      ((t.dom (dLnk l)).state = .on ∨ (t.dom (dLnk l)).waking = true ∨ (t.dom (dLnk l)).wakeAfter = true))

/-- LANE_DROP of a lane in use of a link that runs asks the partner for the lanes without it, a CORRECTED LANE_DROP
being logged, or takes the link DOWN where fewer than its minimum would be left. WIDTH_REQ with lanes enough is
accepted and answered WIDTH_ACK, and with fewer takes the link DOWN; WIDTH_ACK of the mask asked for accepts it;
WIDTH_SWITCH takes the accepted mask, counted, with event 18. LANE_READD_ATTEMPT asks for the lanes found clean.
RECAL and READD commands of a link that is UP are taken with OK. RECAL_START of a full-width link that is due takes
lane 0 out first; RECAL_LANE_DONE asks for the lane back. (R331, R332, R333, R334, R335, 11_link_layer.md) -/
def Obligations.LinkWidth : Prop :=
  let up (s : State) (l : LinkId) (f : Frame) : Prop := (s.link l).state = .up ∧ frameBad f = false
  (∀ (l : LinkId) (lane : Fin 4) (s : State), s.linkRuns l = true → (s.link l).lanes.getLsbD lane = true →
    (s.link l).recal = none →
    let m := setBit (s.link l).lanes lane false
    (s.minLanes l ≤ lanesIn m →
      Gives (.laneDrop l lane) s fun t =>
        (t.link l).askMask = some m ∧ (t.link l).lanes = (s.link l).lanes ∧
        t.reg64 pERR 0xF00 = s.reg64 pERR 0xF00 + 1 ∧
        ∃ f, t.out = s.out ++ [.frame l f] ∧ f.typ = 4 ∧ f.sub = 4 ∧ f.arg = m.setWidth 8) ∧
    (lanesIn m < s.minLanes l → Gives (.laneDrop l lane) s fun t => (t.link l).state = .down ∧ (t.link l).lanes = 0)) ∧
  (∀ (l : LinkId) (f : Frame) (s : State), up s l f →
    let m : BitVec 4 := f.arg.setWidth 4
    (s.minLanes l ≤ lanesIn m → s.calm = true →
      Gives (.widthReq l f) s fun t =>
        (t.link l).nextMask = some m ∧ (t.link l).askMask = none ∧ (t.link l).lanes = (s.link l).lanes ∧
        ∃ g, t.out = s.out ++ [.frame l g] ∧ g.typ = 4 ∧ g.sub = 5 ∧ g.arg = m.setWidth 8) ∧
    (lanesIn m < s.minLanes l → Gives (.widthReq l f) s fun t => (t.link l).state = .down) ∧
    ((s.link l).askMask = some m →
      Gives (.widthAck l f) s fun t => (t.link l).nextMask = some m ∧ (t.link l).askMask = none) ∧
    ((s.link l).askMask ≠ some m →
      Gives (.widthAck l f) s fun t => (t.link l).nextMask = (s.link l).nextMask ∧ (t.link l).askMask = (s.link l).askMask)) ∧
  (∀ (l : LinkId) (m : BitVec 4) (s : State), (s.link l).nextMask = some m → (s.link l).recal = none →
    Gives (.widthSwitch l) s fun t =>
      t.link l = { s.link l with lanes := m, nextMask := none } ∧ (∀ k, k ≠ l.val → t.link k = s.link k) ∧
      t.reg64 (pLNK l) 0xF60 = s.reg64 (pLNK l) 0xF60 + 1 ∧ bit (t.page (pLNK l)).evt 18 = true ∧
      ({ s with links := t.links } : State).noted t) ∧
  (∀ (l : LinkId) (clean : BitVec 4) (s : State), s.linkRuns l = true → (s.link l).recal = none →
    let gone := (s.link l).trained &&& ~~~(s.link l).lanes
    gone &&& clean ≠ 0 → s.minLanes l ≤ lanesIn ((s.link l).lanes ||| (gone &&& clean)) →
    Gives (.laneReaddAttempt l clean) s fun t =>
      (t.link l).askMask = some ((s.link l).lanes ||| (gone &&& clean)) ∧ (t.link l).lanes = (s.link l).lanes ∧
      ∃ f, t.out = s.out ++ [.frame l f] ∧ f.typ = 4 ∧ f.sub = 4) ∧
  (∀ (r : Requester) (l : LinkId) (s : State), s.admits r (pLNK l) 0x810 → (s.link l).cmd = 0 → (s.link l).state = .up →
    (Gives (.recal r l) s fun t => (t.link l).cmd = 2 ∧ t.reg (pLNK l) 0x814 = 0 ∧
      t = { s with links := t.links, regs := t.regs, pages := t.pages }) ∧
    ((s.link l).trained &&& ~~~(s.link l).lanes ≠ 0 →
      Gives (.readd r l) s fun t => (t.link l).cmd = 3 ∧ t.reg (pLNK l) 0x814 = 0 ∧
        t = { s with links := t.links, regs := t.regs, pages := t.pages })) ∧
  (∀ (l : LinkId) (tc : Nat) (s : State), s.linkRuns l = true → (s.link l).lanes = 15 → (s.link l).recal = none →
    s.recalDue l tc = true → s.minLanes l ≤ 3 →
    Gives (.recalStart l tc) s fun t =>
      (t.link l).recal = some 0 ∧ (t.link l).recalTemp = tc ∧ (t.link l).askMask = some 14 ∧ (t.link l).lanes = 15) ∧
  (∀ (l : LinkId) (q : Fin 4) (s : State), (s.link l).recal = some q → (s.link l).lanes.getLsbD q = false →
    (s.link l).nextMask = none → (s.link l).askMask = none → s.minLanes l ≤ lanesIn (setBit (s.link l).lanes q true) →
    Gives (.recalLaneDone l) s fun t =>
      (t.link l).askMask = some (setBit (s.link l).lanes q true) ∧ (t.link l).recal = some q ∧
      t.reg64 (pLNK l) 0xF68 = s.reg64 (pLNK l) 0xF68 + 1)

/-- A DATA message new to this chip whose payload fits the receive that matches it is written to that receive's scratch,
the receive learns OK, length and source, and the window keeps OK; one that matches no receive is refused NO_RECV,
counted, and changes no core. A duplicate gets its recorded outcome again and changes no core. A TACK completes the
held message it answers and tells the sending core, one of NO_RECV keeps it held, one that answers nothing is
counted. RESEND_TIMEOUT resends a silent message up to LIMIT times, then completes it UNREACHABLE with event 19;
SEND_TMO_EXPIRY completes a refused one NO_RECV. CANCEL marks the named partial message dead and no other. (R347,
R349, R350, R351, R352, R357, R358, R371, 12_fabric_transport.md) -/
def Obligations.MessagesAndOutcomes : Prop :=
  let waits (s : State) (c : CoreId) (x : CtxId) (sd : Fin 32) (h : Held) : Prop :=
    h.sender = .core c x ∧ (s.core c).ctx = some x ∧ (s.core c).th.wait = some (.fabSend sd h.msg.dest h.msg.mseq none false)
  let told (t : State) (c : CoreId) (sd : Fin 32) (h : Held) (st : BitVec 16) : Prop :=
    (t.core c).th.wait = some (.fabSend sd h.msg.dest h.msg.mseq (some st) false) ∧
    ∀ g ∈ t.fab.held, g.msg.dest ≠ h.msg.dest ∨ g.msg.mseq ≠ h.msg.mseq
  (∀ (m : Message) (c : CoreId) (a cap : Nat) (sd : Fin 32) (any : Bool) (src : BitVec 12) (tag : BitVec 16) (s : State),
    s.newTo m = true → m.mc = false → m.kind = 0x01 → s.findRecv m = some (c, a, cap) → m.payload.length ≤ cap →
    (s.core c).ctx = some m.dctx → (s.core c).th.wait = some (.fabRecv sd any src tag a cap none) →
    Gives (.msgRx m) s fun t =>
      (t.core c).rd a m.payload.length = m.payload ∧
      (∀ b, b < a ∨ a + m.payload.length ≤ b → (t.core c).rd b 1 = (s.core c).rd b 1) ∧
      (t.core c).th.wait = some (.fabRecv sd any src tag a cap (some (stOK, m.payload.length, m.src))) ∧
      (∀ e, e ≠ c.val → t.core e = s.core e) ∧ t.recorded m stOK) ∧
  (∀ (m : Message) (s : State), s.newTo m = true → m.mc = false → m.kind = 0x01 → s.findRecv m = none →
    Gives (.msgRx m) s fun t =>
      t.reg64 pFAB 0xF30 = s.reg64 pFAB 0xF30 + 1 ∧ t.cores = s.cores ∧ t.ctxs = s.ctxs ∧
      (t.windowOf m).2.outs = (s.windowOf m).2.outs) ∧
  (∀ (m : Message) (st : BitVec 16) (s : State), bit (s.reg pFAB 0x800) 0 = true → m.abort = false → m.mc = false →
    s.eps.held = [] → m.kind = 0x01 → (s.windowOf m).2.h ≠ 0 → mseqAbove m.mseq.toNat (s.windowOf m).2.h = false →
    s.recorded m st →
    Gives (.msgRx m) s fun t =>
      t.reg64 pFAB 0xF20 = s.reg64 pFAB 0xF20 + 1 ∧ t.recorded m st ∧ t.cores = s.cores ∧ t.ctxs = s.ctxs) ∧
  (∀ (m : Message) (s : State), bit (s.reg pFAB 0x800) 0 = true →
    (s.heldOf m.src m.replyTo = none →
      Gives (.tack m) s fun t => t.reg64 pFAB 0xF60 = s.reg64 pFAB 0xF60 + 1 ∧ t.fab.held = s.fab.held) ∧
    (∀ h, s.heldOf m.src m.replyTo = some h → m.status = stNO_RECV →
      Gives (.tack m) s fun t => ∃ g, t.heldOf m.src m.replyTo = some g ∧ g.refused = true ∧ g.norecv = true ∧ g.msg = h.msg) ∧
    (∀ h c x sd, s.heldOf m.src m.replyTo = some h → waits s c x sd h → m.status ≠ stNO_RECV →
      Gives (.tack m) s fun t => told t c sd h m.status)) ∧
  (∀ (dest : BitVec 12) (mseq : BitVec 48) (h : Held) (s : State), s.heldOf dest mseq = some h → h.sent = true →
    h.norecv = false →
    (h.tries < fld (s.reg pFAB 0x11C) 16 8 →
      Gives (.resendTimeout dest mseq) s fun t =>
        t.heldOf dest mseq = some { h with tries := h.tries + 1 } ∧ t.reg64 pFAB 0xF18 = s.reg64 pFAB 0xF18 + 1) ∧
    (∀ c x sd, waits s c x sd h → fld (s.reg pFAB 0x11C) 16 8 ≤ h.tries →
      Gives (.resendTimeout dest mseq) s fun t =>
        told t c sd h stUNREACHABLE ∧ bit (t.page pFAB).evt 19 = true ∧ t.reg64 pFAB 0xF38 = s.reg64 pFAB 0xF38 + 1)) ∧
  (∀ (dest : BitVec 12) (mseq : BitVec 48) (h : Held) (c : CoreId) (x : CtxId) (sd : Fin 32) (s : State),
    s.heldOf dest mseq = some h → h.refused = true → waits s c x sd h →
    (s.reg pFAB 0x120).toNat ≤ (s.pw.aonTime - h.first).toNat →
    Gives (.sendTmoExpiry dest mseq) s fun t => told t c sd h stNO_RECV) ∧
  (∀ (m : Message) (l : LinkId) (v : Nat) (q : RxMsg) (s : State), sget none (s.link l).rx v = some q →
    Gives (.cancel m) s fun t =>
      let h := parseMsg q.bytes [] false
      sget none (t.link l).rx v = some (if q.mine ∧ 64 ≤ q.bytes.length ∧ h.src = m.src ∧ h.mseq = m.replyTo ∧ h.mc = false
        then { q with dead := true } else q) ∧
      t = { s with links := t.links, fab := { s.fab with inbox := s.fab.inbox.erase m } })

/-- With no credits anywhere and no multicast waiting: ESCAPE_SWITCH of a waiting unicast message moves it, all its
frames marked, to channel 6 of its escape link, if that runs, and counts it; HOP_TIMEOUT discards the waiting
message, counted, with event 18 and a CORRECTED HOP_DROP. FAB_CFG with EN claims a timer channel for owner 0x81 and
enables the transport, or answers NO_CHANNEL with none free; without EN it releases the channel and stops traffic.
PROGRESS_WATCHDOG ends a stalled pod barrier rooted here, and changes nothing where its period has not passed.
OP_ABORT of a barrier aborts it for the waiting cores and for later ones. (R248, R361, R362, R364, R369, R370,
12_fabric_transport.md) -/
def Obligations.HopsEnablesAndWatchdog : Prop :=
  let starved (s : State) : Prop := s.fab.mcWait = [] ∧ ∀ k v, (s.link k).txCredit.getD v 0 = 0
  (∀ (l : LinkId) (vc : Fin 8) (q : TxMsg) (f : Frame) (fs : List Frame) (o : Nat) (s : State), starved s →
    s.headWaits l vc = some q → q.frames = f :: fs → bit f.route 12 = false → vc ≠ 6 →
    s.escapeLink (fld f.route 0 12) = some o → s.linkRuns o = true →
    Gives (.escapeSwitch l vc) s fun t =>
      (t.link l).queue vc = ((s.link l).queue vc).drop 1 ∧
      (t.link o).queue 6 = (s.link o).queue 6 ++ [{ q with frames := (f :: fs).map (fun g =>
        { g with vc := 6, route := setBit g.route 13 true }) }] ∧
      t.reg64 pFAB 0xF40 = s.reg64 pFAB 0xF40 + 1 ∧ t.out = s.out) ∧
  (∀ (l : LinkId) (vc : Fin 8) (s : State), s.headWaits l vc = none → vc ≠ 3 →
    (Gives (.escapeSwitch l vc) s fun t => t = s) ∧ (Gives (.hopTimeout l vc) s fun t => t = s)) ∧
  (∀ (l : LinkId) (vc : Fin 8) (q : TxMsg) (s : State), starved s → s.headWaits l vc = some q →
    Gives (.hopTimeout l vc) s fun t =>
      (t.link l).queue vc = ((s.link l).queue vc).drop 1 ∧ t.reg64 pFAB 0xF48 = s.reg64 pFAB 0xF48 + 1 ∧
      bit (t.page pFAB).evt 18 = true ∧ t.reg64 pERR 0xF00 = s.reg64 pERR 0xF00 + 1 ∧ t.cores = s.cores) ∧
  (∀ (r : Requester) (v : Word32) (s : State), s.admits r pFAB 0x108 →
    (∀ n, bit v 0 = true → bit (s.reg pFAB 0x800) 0 = false → s.freeTmr = some n →
      Gives (.fabEnable r v) s fun t =>
        t.claimOf n = some .hw ∧ t.tmr n 0 = 0x81 ∧ t.reg pFAB 0x800 = 3 ∧ (∀ k, k ≠ n → t.claimOf k = s.claimOf k)) ∧
    (bit v 0 = true → bit (s.reg pFAB 0x800) 0 = false → s.freeTmr = none →
      Gives (.fabEnable r v) s fun t =>
        t.reg pFAB 0x800 = BitVec.ofNat 32 (stNO_CHANNEL.toNat * 2 ^ 16) ∧ t.pw = s.pw) ∧
    (∀ n, bit v 0 = false → s.hwTmr 0x81 = some n →
      Gives (.fabEnable r v) s fun t => t.claimOf n = none ∧ bit (t.reg pFAB 0x800) 0 = false)) ∧
  (∀ (gid : BitVec 16) (b : Word32) (s : State),
    let n := b.toNat % 64
    let cs := s.podChips gid.toNat
    let late := podRoot (cs.filter (fun c => !(s.pod gid.toNat n).arrived.contains c))
    ((s.wdogOver (s.pod gid.toNat n).first = false ∨ late = none) →
      Gives (.progressWatchdog false gid b) s fun t => t = s) ∧
    (s.wdogOver (s.pod gid.toNat n).first = true → late ≠ none →
      Gives (.progressWatchdog false gid b) s fun t => t.pod gid.toNat n = {})) ∧
  (∀ (gid : BitVec 16) (q : Word32) (s : State), s.groupOf gid.toNat = none →
    Gives (.progressWatchdog true gid q) s fun t => t = s) ∧
  (∀ (m : Message) (x : CtxId) (c : CoreId) (sd : Fin 32) (b : Fin 64) (s : State),
    bit (s.reg pFAB 0x800) 0 = true → m.abort = false → hdr m 0x2C 1 ≠ 1 → m.status = stBARRIER_ABORT →
    hdr m 0x28 4 % 64 = b.val → s.podCtx (hdr m 0x24 2) b = some x → c ∈ (s.bar x b).arrived →
    (s.core c).ctx = some x → (s.core c).th.wait = some (.bar sd b true none) →
    Gives (.opAbort m) s fun t =>
      (t.core c).th.wait = some (.bar sd b true (some stBARRIER_ABORT)) ∧ (t.bar x b).aborted = true ∧
      (t.bar x b).arrived = [])

/-- COLLECTIVE with a bad descriptor completes DESC_INVALID, counted, with no effect on the collectives; a good one is
posted, waits for GO, and an ARRIVE for it goes to the coordinator. ARRIVE of a rank that is not the last begins a
round with that arrival and is acknowledged OK. GO gives the waiting collective its ranks and counts.
COLL_LOCAL_TIMEOUT ends a collective with STALLED once twice the watchdog period has passed, and changes nothing
before. CLX_GROUP_REWRITE stores the register, restarts the group's history and aborts the group's collectives.
(Said for a chip with no other collective under way.) (R373, R374, R379, R381, R382, R383, R391, 13_collectives.md) -/
def Obligations.CollectivesPostAndArrive : Prop :=
  (∀ (q : Fin 64) (e : QEntry) (s : State), s.domOn dCLX = true → s.mayBegin q 2 = some e → s.clx.colls = [] →
    s.clx.rounds = [] →
    (s.descShape e.desc 0 = false →
      Gives (.collective q) s fun t =>
        t.clx = s.clx ∧ (t.que q).fetched = (s.que q).fetched.tail ∧ t.reg64 pCLX 0xF08 = s.reg64 pCLX 0xF08 + 1 ∧
        ∀ w ∈ (t.que q).window, w.1 = e.cid → ∃ d, w.2 = some d ∧ d.status = stDESC_INVALID) ∧
    (s.descShape e.desc 0 = true → isVar (dOp e.desc) = false → bit (s.clxGroup (dGrp e.desc)) 31 = true →
      fld (s.grpRank (dGrp e.desc)) 16 6 = (dCtx e.desc).val → sget 0 s.clx.hist (dGrp e.desc) ≤ (dCseq e.desc).toNat →
      s.localCheck e.desc (s.grpN (dGrp e.desc)) (fld (s.grpRank (dGrp e.desc)) 0 12) 0 [] = stOK →
      (s.coordinator (dGrp e.desc)).toNat ≠ s.myAddr →
      Gives (.collective q) s fun t =>
        (∃ c, t.clx.colls = [c] ∧ c.grp = dGrp e.desc ∧ c.cseq = dCseq e.desc ∧ c.desc = e.desc ∧ c.phase = .arriving ∧
          c.by_ = .queue q e.cid) ∧
        (∃ h ∈ t.fab.held, h.msg.kind = 0x10 ∧ h.msg.dest = s.coordinator (dGrp e.desc) ∧
          msgCseq h.msg = dCseq e.desc ∧ hdr h.msg 0x26 2 = fld (s.grpRank (dGrp e.desc)) 0 12) ∧
        sget 0 t.clx.hist (dGrp e.desc) = (dCseq e.desc).toNat + 1 ∧ t.mem = s.mem)) ∧
  (∀ (m : Message) (g : Fin 64) (s : State), s.domOn dCLX = true → s.newTo m = true → m.mc = false →
    s.pgEn pCLX = true → s.clxMsgGroup m = some g → s.clx.colls = [] → s.clx.rounds = [] → s.lostRanks g = [] →
    2 ≤ s.grpN g →
    Gives (.arrive m) s fun t =>
      t.recorded m stOK ∧ t.cores = s.cores ∧
      ∃ r a, t.clx.rounds = [r] ∧ r.grp = g ∧ r.cseq = msgCseq m ∧ r.first = s.pw.aonTime ∧ r.gone = none ∧
        r.arrivals = [a] ∧ a.rank = hdr m 0x26 2 ∧ a.fields = m.payload.take 24 ∧
        a.status = BitVec.ofNat 16 (lef m.payload 32 2)) ∧
  (∀ (m : Message) (g : Fin 64) (c k : Coll) (s : State), s.domOn dCLX = true → s.newTo m = true → m.mc = false →
    s.pgEn pCLX = true → s.clxMsgGroup m = some g → s.clx.rounds = [] → s.clx.colls = [k, c] →
    k.grp = g → k.phase = .arriving → k.cseq.toNat < c.cseq.toNat → c.grp = g → c.cseq = msgCseq m → c.phase = .arriving →
    Gives (.go m) s fun t =>
      let n := lef m.payload 0 2
      let rest := m.payload.drop (2 + 2 * n)
      t.recorded m stOK ∧ t.clx.colls = [k, { c with
        phase := .gone
        present := (List.range n).map (fun i => lef m.payload (2 + 2 * i) 2)
        rcounts := (List.range (rest.length / 4)).map (fun i => lef rest (4 * i) 4) }]) ∧
  (∀ (g : Fin 64) (cseq : Word32) (c : Coll) (q : Fin 64) (e : QEntry) (s : State), s.domOn dCLX = true →
    s.clx.colls = [c] → s.clx.rounds = [] → c.grp = g → c.cseq = cseq → c.by_ = .queue q e.cid →
    (s.que q).running = [e] →
    (2 * (s.reg pFAB 0x124).toNat ≤ (s.pw.aonTime - c.at_).toNat →
      Gives (.collLocalTimeout g cseq) s fun t =>
        t.clx.colls = [] ∧ (t.que q).running = [] ∧ bit (t.page pCLX).evt 16 = true ∧
        t.reg64 pCLX 0xF08 = s.reg64 pCLX 0xF08 + 1 ∧
        (∀ w ∈ (t.que q).window, w.1 = e.cid → ∃ d, w.2 = some d ∧ d.status = stSTALLED) ∧ t.mem = s.mem) ∧
    ((s.pw.aonTime - c.at_).toNat < 2 * (s.reg pFAB 0x124).toNat →
      Gives (.collLocalTimeout g cseq) s fun t => t = s)) ∧
  (∀ (r : Requester) (n : Fin 64) (v : Word32) (s : State), s.admits r pCLX (0x200 + 4 * n.val) → s.clx.rounds = [] →
    (s.clx.colls = [] →
      Gives (.clxGroupRewrite r n v) s fun t =>
        t.reg pCLX (0x200 + 4 * n.val) = v &&& 0x9FFFFFFF ∧ sget 0 t.clx.hist n = 0 ∧ t.clx.colls = [] ∧
        t = { s with regs := t.regs, pages := t.pages, clx := t.clx }) ∧
    (∀ c q e, s.clx.colls = [c] → c.grp = n → c.by_ = .queue q e.cid → (s.que q).running = [e] →
      Gives (.clxGroupRewrite r n v) s fun t =>
        t.reg pCLX (0x200 + 4 * n.val) = v &&& 0x9FFFFFFF ∧ t.clx.colls = [] ∧ (t.que q).running = [] ∧
        ∀ w ∈ (t.que q).window, w.1 = e.cid → ∃ d, w.2 = some d ∧ d.status = stCOLL_ABORT))

/-- COLL_DATA that an exchange under way expects is kept for that exchange at its offset, counted, and acknowledged OK;
one that no collective expects is refused NO_RECV and changes no collective. RELAY_STRIPE for another chip goes on
to it with header, payload and marks unchanged, counted. STRAGGLER_DEADLINE, once DEADLINE has passed, lets the
round go with the ranks that have arrived, each of which is sent GO, and changes nothing before. LATE_GO starts the
late rank on receiving the result from the named server, and makes the server remember the late rank. (Said for a
chip with no other collective under way.) (R385, R392, R501, R502, R503, 13_collectives.md, 17_learning.md) -/
def Obligations.CollectiveDataAndStragglers : Prop :=
  (∀ (m : Message) (s : State), s.domOn dCLX = true → s.newTo m = true → m.mc = false → s.pgEn pCLX = true →
    (∀ (g : Fin 64) (c : Coll) (st : CollStage) (rest : List CollStage) (e : Exch), s.clxMsgGroup m = some g →
      s.clx.rounds = [] → s.clx.colls = [c] → c.grp = g → c.cseq = msgCseq m → c.phase = .data → c.plan = st :: rest →
      st.started = true → st.exs = [e] → e.peer = hdr m 0x26 2 → e.recv ≠ [] → e.got = [] →
      m.payload.length < (s.exchLen c e).1 + (s.exchLen c e).2 → sget 0 c.rxAt e.peer ≤ hdr m 0x30 8 →
      hdr m 0x30 8 + m.payload.length ≤ sget 0 c.rxAt e.peer + (s.exchLen c e).1 + (s.exchLen c e).2 →
      Gives (.collData m) s fun t =>
        t.recorded m stOK ∧
        t.clx.colls = [{ c with plan := { st with exs := [{ e with
          got := sset ([], []) [] (hdr m 0x30 8) (m.payload, m.poison) }] } :: rest }] ∧
        t.reg64 pCLX 0xF30 = s.reg64 pCLX 0xF30 + BitVec.ofNat 64
          (min m.payload.length (sget 0 c.rxAt e.peer + (s.exchLen c e).1 - hdr m 0x30 8)) ∧ t.mem = s.mem) ∧
    (s.takePiece m = none →
      Gives (.collData m) s fun t => t.clx = s.clx ∧ t.mem = s.mem ∧ t.reg64 pFAB 0xF30 = s.reg64 pFAB 0xF30 + 1) ∧
    (m.tag.toNat ≠ s.myAddr → m.tag.toNat < 4096 →
      Gives (.relayStripe m) s fun t =>
        t.recorded m stOK ∧ t.clx = s.clx ∧
        t.reg64 pCLX 0xF38 = s.reg64 pCLX 0xF38 + BitVec.ofNat 64 m.payload.length ∧
        ∃ h ∈ t.fab.held, h.msg.kind = 0x13 ∧ h.msg.dest.toNat = m.tag.toNat ∧ h.msg.tag = m.tag ∧ h.msg.extra = m.extra ∧
          h.msg.payload = m.payload ∧ h.msg.poison = m.poison)) ∧
  (∀ (g : Fin 64) (cseq : Word32) (r : Round) (a : Arrival) (s : State), s.domOn dCLX = true → s.clx.colls = [] →
    s.clx.rounds = [r] → r.grp = g → r.cseq = cseq → r.mode ≠ 0 → r.gone = none → r.aborted = none →
    r.arrivals.head? = some a →
    (((s.pw.aonTime - r.first).toNat + 1) * 1000000 < lef a.fields 20 4 * 32768 →
      Gives (.stragglerDeadline g cseq) s fun t => t = s) ∧
    (lef a.fields 20 4 * 32768 ≤ ((s.pw.aonTime - r.first).toNat + 1) * 1000000 →
      roundFails (r.ranks (s.grpN g)) = none →
      (∃ b, (r.ranks (s.grpN g)).head? = some b ∧ lef b.fields 8 4 ≠ 0) → s.roundOver r = false →
      Gives (.stragglerDeadline g cseq) s fun t =>
        let present := (r.ranks (s.grpN g)).map (fun b => b.rank)
        t.clx.rounds = [{ r with expired := true, gone := some present }] ∧
        ∀ p ∈ present, (s.rankChip g p).toNat ≠ s.myAddr →
          ∃ h ∈ t.fab.held, h.msg.kind = 0x11 ∧ h.msg.dest = s.rankChip g p ∧ msgCseq h.msg = cseq)) ∧
  (∀ (m : Message) (g : Fin 64) (c : Coll) (s : State), s.domOn dCLX = true → s.newTo m = true → m.mc = false →
    s.pgEn pCLX = true → s.clxMsgGroup m = some g → s.clx.rounds = [] → s.clx.colls = [c] → c.grp = g →
    c.cseq = msgCseq m → c.phase = .arriving →
    (fld (s.grpRank g) 0 12 = lef m.payload 0 2 → 0 < dCount c.desc →
      Gives (.lateGo m) s fun t =>
        t.recorded m stOK ∧ ∃ d, t.clx.colls = [d] ∧ d.phase = .data ∧ d.late = true ∧
          d.blocks = [(0, dCount c.desc)] ∧ d.desc = c.desc ∧
          ∃ st e, d.plan = [st] ∧ st.started = true ∧ st.own = [] ∧ st.exs = [e] ∧ e.peer = hdr m 0x26 2 ∧ e.send = [] ∧
            e.recv = [0] ∧ e.combine = false) ∧
    (fld (s.grpRank g) 0 12 ≠ lef m.payload 0 2 →
      Gives (.lateGo m) s fun t =>
        t.recorded m stOK ∧ t.clx.colls = [{ c with serve := c.serve ++ [lef m.payload 0 2] }]))

/-- PUBLISH on a chip that is not the source completes NOT_SOURCE; on the source, with a list that the manifest holds,
it runs and retains its publication; while one runs a start answers BUSY. PUBLISH_COMPLETE ends it OK once nothing
of its own waits to leave. WPB_RELEASE drops the named publication. ABANDON frees the BUILDING banks and the pending
manifest, and no other bank. RESTREAM_REQ is answered with the asked chunk, or with RESTREAM_UNAVAIL where nothing
is retained. At the first stage READY is noted and serves as release, HOLD and its release are noted. WITHDRAW frees
the READY banks of its version and no other. None of these changes cores, contexts or device memory. (R399, R401,
R402, R410, R412, R414, R415, R416, R420, 14_weights.md) -/
def Obligations.WeightPublication : Prop :=
  let takes (s : State) (m : Message) (n : Nat) : Prop :=
    s.domOn dWPB = true ∧ s.newTo m = true ∧ s.pgEn pWPB = true ∧ s.slotOfModel (hdr m 0x24 2) = some n
  let same (s t : State) : Prop := t.cores = s.cores ∧ t.ctxs = s.ctxs ∧ t.mem = s.mem ∧ t.tier = s.tier
  let idle (s : State) (r : Requester) : Prop :=
    s.admits r pWPB 0x800 = true ∧ s.pgEn pWPB = true ∧ s.wpb.publishing = none ∧ s.wpb.asked = none
  (∀ (r : Requester) (slot : Fin 16) (mf li : HostRead) (cs : List HostChunk) (s : State),
    (idle s r → s.myAddr ≠ fld (s.reg pWPB 0x108) 0 12 →
      Gives (.publish r slot mf li cs) s fun t =>
        t.reg pWPB 0x81C = BitVec.ofNat 32 (stNOT_SOURCE.toNat + 2 ^ 31) ∧ t.wpb = s.wpb ∧ same s t) ∧
    (s.admits r pWPB 0x800 = true → s.pgEn pWPB = true → s.wpb.publishing ≠ none → s.wpb.asked = none →
      Gives (.publish r slot mf li cs) s fun t =>
        fld (t.reg pWPB 0x81C) 0 16 = stBUSY.toNat ∧ t.wpb = s.wpb ∧ same s t) ∧
    (∀ mb lb, idle s r → s.myAddr = fld (s.reg pWPB 0x108) 0 12 → s.mdlValid slot = true → mf = .bytes mb → li = .bytes lb →
      let len := (s.wpbArg 2).toNat
      let n := (s.wpbArg 5).toNat
      let b := slice mb 0 len
      let es := (List.range n).map (fun i => (lef (slice lb 0 (16 * n)) (16 * i) 4, lef (slice lb 0 (16 * n)) (16 * i + 8) 8))
      len ≤ s.mfstMax slot →
      (∀ e ∈ es, e.1 < mfChunks b ∧ ((mfTensorOf b e.1).bind (fun t => (s.mdl slot).treeOf t.layer)).isSome = true) →
      Gives (.publish r slot mf li cs) s fun t =>
        t.wpb.publishing = some slot ∧ t.reg pWPB 0x81C = 0x10000 ∧ same s t ∧
        ∃ p ∈ (t.mdl slot).pubs, p.version = mfVersion b ∧ p.list = es)) ∧
  (∀ s : State,
    ((∃ m, s.wpb.publishing = some m) → s.ownMcWaits = false →
      Gives .publishComplete s fun t =>
        t = { s with regs := t.regs, wpb := { s.wpb with publishing := none } } ∧
        t.reg pWPB 0x81C = BitVec.ofNat 32 (stOK.toNat + 2 ^ 31)) ∧
    ((s.wpb.publishing = none ∨ s.ownMcWaits = true) → Gives .publishComplete s fun t => t = s)) ∧
  (∀ (r : Requester) (slot : Fin 16) (s : State), idle s r →
    (∀ p ∈ (s.mdl slot).pubs, p.version = s.reg64 pWPB 0x804 →
      Gives (.wpbRelease r slot) s fun t =>
        (t.mdl slot).pubs = (s.mdl slot).pubs.filter (fun k => k.version != p.version) ∧ same s t ∧
        t.reg pWPB 0x81C = BitVec.ofNat 32 (stOK.toNat + 2 ^ 31)) ∧
    (Gives (.abandon r slot) s fun t =>
      (t.mdl slot).pend = none ∧ same s t ∧ t.reg pWPB 0x81C = BitVec.ofNat 32 (stOK.toNat + 2 ^ 31) ∧
      ∀ b, (t.mdl slot).bank b = if ((s.mdl slot).bank b).state = .building then { (s.mdl slot).bank b with state := .free }
        else (s.mdl slot).bank b)) ∧
  (∀ (m : Message) (cs : List HostChunk) (n : Nat) (s : State), takes s m n →
    let v : Word64 := BitVec.ofNat 64 (hdr m 0x30 8)
    ((∀ p ∈ (s.mdl n).pubs, p.version ≠ v) →
      Gives (.restreamReq m cs) s fun t =>
        t.recorded m stOK ∧ same s t ∧ t.wpb = s.wpb ∧
        ∃ h ∈ t.fab.held, h.msg.kind = 0x26 ∧ h.msg.dest = m.src ∧ h.msg.status = stRESTREAM_UNAVAIL) ∧
    (∀ p c bs, (s.mdl n).pubs.find? (fun p => p.version == v) = some p → m.payload.length = 4 → c = lef m.payload 0 4 →
      (p.list.find? (fun e => e.1 == c)).isSome = true → chunkBytes cs c = some bs →
      Gives (.restreamReq m cs) s fun t =>
        t.recorded m stOK ∧ same s t ∧ t.wpb = s.wpb ∧ t.reg64 pWPB 0xF38 = s.reg64 pWPB 0xF38 + 1 ∧
        ∃ h ∈ t.fab.held, h.msg.kind = 0x21 ∧ h.msg.dest = m.src ∧ h.msg.payload = bs ∧ hdr h.msg 0x28 4 = c)) ∧
  (∀ (m : Message) (n : Nat) (s : State), takes s m n →
    let v : Word64 := BitVec.ofNat 64 (hdr m 0x30 8)
    let op := hdr m 0x26 2 / 2 % 4
    (s.isFirst n = true → v.toNat ∉ (s.mdl n).gone →
      Gives (.ready m) s fun t =>
        t.recorded m stOK ∧ same s t ∧ m.src ∈ sget [] (t.mdl n).reports v.toNat ∧ m.src ∉ (t.mdl n).holders) ∧
    (s.isFirst n = true → op = 1 →
      Gives (.hold m) s fun t => t.recorded m stOK ∧ same s t ∧ m.src ∈ (t.mdl n).holders) ∧
    (s.isFirst n = true → op = 2 →
      Gives (.hold m) s fun t => t.recorded m stOK ∧ same s t ∧ m.src ∉ (t.mdl n).holders) ∧
    (Gives (.withdraw m) s fun t =>
      t.recorded m stOK ∧ same s t ∧ ∀ b, (t.mdl n).bank b =
        if ((s.mdl n).bank b).state = .ready ∧ ((s.mdl n).bank b).version = v then { (s.mdl n).bank b with state := .free }
        else (s.mdl n).bank b))

/-- A first part of MANIFEST begins the manifest; one longer than its buffer is refused. SIG_VERIFY_DONE refuses a bad
signature, and opens a build in a free bank for a good manifest; a build that needs no chunk here is READY at once.
A chunk of a build is staged; one of no version here is dropped. CHUNK_HASH_DONE enters a chunk whose digest agrees
into its bank, and counts one that does not. PUB_END and RESTREAM_RETRY_TIMER ask for what is missing, the timer
only when due. RESTREAM_REFUSE frees the bank of an ordinary build. PENDING_BUILD_OPEN opens the pending build in a
free bank in the same way. REPAIR_OPEN makes the other bank a REPAIR of the LIVE version. RESTREAM_DEADLINE takes
the model OFFLINE once it has passed, and does nothing before. (R405, R406, R407, R408, R409, R410, R412, R414,
R421, R423, 14_weights.md) -/
def Obligations.WeightBuildsAndRepairs : Prop :=
  let takes (s : State) (m : Message) (n : Nat) : Prop :=
    s.domOn dWPB = true ∧ s.newTo m = true ∧ s.pgEn pWPB = true ∧ s.slotOfModel (hdr m 0x24 2) = some n
  let asks (s t : State) (slot : Nat) (b : Bool) : Prop :=
    ((t.mdl slot).bank b).asked = true ∧ ((t.mdl slot).bank b).since = s.pw.aonTime ∧
    ((t.mdl slot).bank b).state = ((s.mdl slot).bank b).state ∧ ((t.mdl slot).bank b).got = ((s.mdl slot).bank b).got ∧
    t.cores = s.cores ∧ ((s.mdl slot).staged = [] → ∃ h ∈ t.fab.held, h.msg.kind = 0x23 ∧
      h.msg.dest.toNat = fld (s.reg pWPB 0x108) 0 12)
  let opened (s : State) (d : Mdl) (mf : Manif) : Bank :=
    { state := if d.needed mf.bytes = [] then .ready else .building, version := mfVersion mf.bytes, mfst := some mf,
      since := s.pw.aonTime }
  (∀ (m : Message) (n : Nat) (s : State), takes s m n →
    let v : Word64 := BitVec.ofNat 64 (hdr m 0x30 8)
    let len := hdr m 0x2C 4
    (hdr m 0x28 4 = 0 → s.mfstMax n < len →
      Gives (.manifest m) s fun t =>
        t.recorded m stOK ∧ (t.mdl n).arriving = none ∧ t.reg64 pWPB 0xF08 = s.reg64 pWPB 0xF08 + 1 ∧
        t.reg pWPB (0x904 + 0x20 * n) = BitVec.ofNat 32 (stMANIFEST_SIZE.toNat + 2 ^ 31) ∧ t.mem = s.mem) ∧
    (∀ b d, hdr m 0x28 4 = 0 → len ≤ s.mfstMax n → ({ s.mdl n with arriving := none } : Mdl).takeBuffer = some (b, d) →
      m.payload ≠ [] → m.payload.length < len →
      Gives (.manifest m) s fun t =>
        t.recorded m stOK ∧ (t.mdl n).arriving = some { version := v, len := len, buf := b, parts := [(0, m.payload)] } ∧
        (t.mdl n).a = (s.mdl n).a ∧ (t.mdl n).b = (s.mdl n).b) ∧
    ((s.mdl n).bankFor v = none → (s.mdl n).underCheck v = false →
      Gives (.chunk m) s fun t =>
        t.recorded m stOK ∧ t.wpb = s.wpb ∧ t.mem = s.mem ∧ t.reg64 pWPB 0xF28 = s.reg64 pWPB 0xF28 + 1) ∧
    (∀ b mf, (s.mdl n).bankFor v = some b → ((s.mdl n).bank b).mfst = some mf →
      ((s.mdl n).chunkAt mf.bytes (hdr m 0x28 4)).isSome = true → hdr m 0x28 4 ∉ ((s.mdl n).bank b).got →
      ((s.mdl n).staged.filter (fun g => !g.copy)).length < fld (s.mdlReg n 0x18) 0 5 →
      (s.claimPool (s.mdlOwner n) (s.stageCluster n) 2 16).isSome = true →
      Gives (.chunk m) s fun t =>
        t.recorded m stOK ∧ ∃ g, (t.mdl n).staged = (s.mdl n).staged ++ [g] ∧ g.version = v ∧ g.idx = hdr m 0x28 4 ∧
          g.bytes = m.payload ∧ g.copy = false) ∧
    (∀ b, (s.mdl n).bankFor v = some b → (s.mdl n).missing ((s.mdl n).bank b) ≠ [] →
      Gives (.pubEnd m) s fun t => t.recorded m stOK ∧ asks s t n b) ∧
    (∀ b, (s.mdl n).bankFor v = some b → ((s.mdl n).bank b).state ≠ .repair →
      Gives (.restreamRefuse m) s fun t =>
        t.recorded m stOK ∧ ((t.mdl n).bank b).state = .free ∧ (t.mdl n).bank (!b) = (s.mdl n).bank (!b) ∧
        t.reg pWPB (0x904 + 0x20 * n) = BitVec.ofNat 32 (stRESTREAM_UNAVAIL.toNat + 2 ^ 31))) ∧
  (∀ (slot : Fin 16) (mf : Manif) (rest : List Manif) (s : State), s.domOn dWPB = true → (s.mdl slot).checking = mf :: rest →
    let good := edVerify (s.pubKey (mfKey mf.bytes)) (mf.bytes.take (mf.bytes.length - 64)) (mfSig mf.bytes)
    (good = false →
      Gives (.sigVerifyDone slot) s fun t =>
        (t.mdl slot).checking = rest ∧ (t.mdl slot).a = (s.mdl slot).a ∧ (t.mdl slot).b = (s.mdl slot).b ∧
        t.reg64 pSIG 0xF10 = s.reg64 pSIG 0xF10 + 1 ∧
        t.reg pWPB (0x904 + 0x20 * slot.val) = BitVec.ofNat 32 (stMANIFEST_SIG.toNat + 2 ^ 31)) ∧
    (∀ b, good = true → tableOk mf.bytes = true → s.shapeOk slot mf.bytes = true → s.isFirst slot = false →
      (∀ h ∈ (s.mdl slot).heldMfsts, mfVersion h.bytes ≠ mfVersion mf.bytes) →
      (s.reg64 pWPB (0x210 + 0x20 * slot.val)).toNat ≤ (mfVersion mf.bytes).toNat →
      (s.mdl slot).top < (mfVersion mf.bytes).toNat → (s.mdl slot).inState .free = some b →
      Gives (.sigVerifyDone slot) s fun t =>
        (t.mdl slot).bank b = opened s (s.mdl slot) mf ∧
        (t.mdl slot).bank (!b) = (s.mdl slot).bank (!b) ∧ (t.mdl slot).top = (mfVersion mf.bytes).toNat ∧
        (t.mdl slot).checking = rest)) ∧
  (∀ (slot : Fin 16) (idx : Nat) (g : Staged) (b : Bool) (mf : Manif) (rn off n : Nat) (s : State), s.domOn dWPB = true →
    (s.mdl slot).staged.find? (fun g => g.idx == idx && !(s.mdl slot).underCheck g.version) = some g → g.copy = false →
    (s.mdl slot).bankFor g.version = some b → ((s.mdl slot).bank b).state = .building →
    ((s.mdl slot).bank b).mfst = some mf → (s.mdl slot).chunkAt mf.bytes g.idx = some (rn, off, n) →
    g.idx ∉ ((s.mdl slot).bank b).got →
    let agrees := g.bytes.length = n ∧ sha256 g.bytes = mfChunkDigest mf.bytes g.idx ∧ g.poison = false
    (agrees →
      Gives (.chunkHashDone slot idx) s fun t =>
        g.idx ∈ ((t.mdl slot).bank b).got ∧ (t.mdl slot).staged = (s.mdl slot).staged.erase g ∧
        t.reg64 pWPB 0xF18 = s.reg64 pWPB 0xF18 + 1 ∧ t.cores = s.cores) ∧
    (¬ agrees →
      Gives (.chunkHashDone slot idx) s fun t =>
        (t.mdl slot).bank b = (s.mdl slot).bank b ∧ (t.mdl slot).staged = (s.mdl slot).staged.erase g ∧
        t.reg64 pWPB 0xF20 = s.reg64 pWPB 0xF20 + 1 ∧ t.cores = s.cores)) ∧
  (∀ (slot : Fin 16) (s : State),
    let d := s.mdl slot
    let due (b : Bool) : Bool := d.takes b && !(d.missing (d.bank b)).isEmpty && s.msPassed (d.bank b).since
      (if (d.bank b).asked then fld (s.reg pWPB 0x104) 0 16 else fld (s.reg pWPB 0x104) 16 16)
    (∀ b, s.domOn dWPB = true → due b = true → due (!b) = false →
      Gives (.restreamRetryTimer slot) s fun t => asks s t slot b) ∧
    (due false = false → due true = false → Gives (.restreamRetryTimer slot) s fun t => t = s) ∧
    (∀ mf b, s.domOn dWPB = true → d.pend = some mf → d.inState .free = some b →
      Gives (.pendingBuildOpen slot) s fun t =>
        (d.needed mf.bytes ≠ [] → t = { s with wpb := t.wpb }) ∧ (t.mdl slot).pend = none ∧
        (t.mdl slot).bank b = opened s d mf ∧ (t.mdl slot).bank (!b) = d.bank (!b)) ∧
    (∀ mf b, s.domOn dWPB = true → d.inState .live = some b → d.bad ≠ [] → d.offline = false →
      ((d.bank (!b)).state = .free ∨ (d.bank (!b)).state = .building) → (d.bank b).mfst = some mf →
      Gives (.repairOpen slot) s fun t =>
        ((t.mdl slot).bank (!b)).state = .repair ∧ ((t.mdl slot).bank (!b)).version = (d.bank b).version ∧
        ((t.mdl slot).bank (!b)).mfst = some mf ∧ ((t.mdl slot).bank (!b)).got = [] ∧ (t.mdl slot).bank b = d.bank b ∧
        t.cores = s.cores) ∧
    (s.domOn dWPB = true → d.bad ≠ [] → d.offline = false →
      (s.reg pWPB 0x100).toNat ≤ (s.pw.aonTime - d.poisonAt).toNat →
      Gives (.restreamDeadline slot) s fun t =>
        (t.mdl slot).offline = true ∧ t.reg64 pWPB 0xF60 = s.reg64 pWPB 0xF60 + 1 ∧ bit (t.page pWPB).evt 20 = true) ∧
    ((s.pw.aonTime - d.poisonAt).toNat < (s.reg pWPB 0x100).toNat →
      Gives (.restreamDeadline slot) s fun t => t = s))

/-- START with no room for the history answers BOUND and changes no episode; otherwise it makes a READY episode with the
next identity at the lowest free index. CANCEL of an unknown episode answers NO_EPISODE, of a live one ends it
CANCELLED. PAUSE marks an ACTIVE episode, and pauses a READY one with cause HOST. REPLY to an episode paused for
OUTSIDE lengthens its history, clears the cause and makes it READY where no cause is left. SCORE queues records that
end with the reward. EPS_PERIOD claims or releases its channel. EPS_GROUP_VALID makes a good group VALID, stores the
status of a bad one. A ring's tail moves only forward and to its head. Frames: contexts and cores do not change.
(R424, R426, R427, R429, R445, R448, R452, R453, R458, R463, 15_episodes.md) -/
def Obligations.EpisodeCommands : Prop :=
  let cmd (r : Requester) (s : State) : Prop := s.admits r pEPS 0x800 = true ∧ s.pgEn pEPS = true
  let done (t : State) (st : BitVec 16) : Prop := t.reg pEPS 0x81C = BitVec.ofNat 32 (st.toNat + 2 ^ 31)
  let same (s t : State) : Prop := t.cores = s.cores ∧ t.ctxs = s.ctxs
  (∀ (r : Requester) (i : Nat) (s : State), cmd r s → s.freeIndex = some i →
    let x := fld (s.epsArg 0) 0 6
    let g := fld (s.epsArg 0) 8 7
    let off := (s.epsArg 2).toNat + (s.epsArg 3).toNat * 2 ^ 32
    let init := (s.epsArg 4).toNat
    let mx := (s.epsArg 5).toNat
    s.gOn g = true → s.gHome g = true → (s.gCtx g).val = x → s.ctxValid x = true →
    (s.tensor x (fld (s.epsArg 1) 0 12) = none →
      Gives (.start r) s fun t => done t stBOUND ∧ t.eps = s.eps ∧ same s t) ∧
    (∀ n q w, s.tensor x (fld (s.epsArg 1) 0 12) = some (n, q, w) → off + 16 * mx ≤ q.size → 1 ≤ init → init ≤ mx →
      Gives (.start r) s fun t =>
        done t stOK ∧ same s t ∧ t.eps.nextId = s.eps.nextId + 1 ∧ t.reg pEPS 0x820 = s.eps.nextId ∧
        (∀ j, j ≠ i → t.episode j = s.episode j) ∧
        ∃ e, t.episode i = some e ∧ e.id = s.eps.nextId ∧ e.ctx.val = x ∧ e.group.val = g ∧ e.state = .ready ∧
          e.causes = 0 ∧ e.len = init ∧ e.maxLen = mx ∧ e.off = off ∧ e.slot = none)) ∧
  (∀ (r : Requester) (s : State), cmd r s → s.argEpisode = none →
    (Gives (.epsCancel r) s fun t => done t stNO_EPISODE ∧ t.eps = s.eps ∧ same s t) ∧
    (Gives (.pause r) s fun t => done t stNO_EPISODE ∧ t.eps = s.eps ∧ same s t) ∧
    (Gives (.reply r) s fun t => done t stNO_EPISODE ∧ t.eps = s.eps ∧ same s t) ∧
    (Gives (.score r) s fun t => done t stNO_EPISODE ∧ t.eps = s.eps ∧ same s t)) ∧
  (∀ (r : Requester) (i : Nat) (e : Episode) (s : State), cmd r s → s.argEpisode = some (i, e) → s.episode i = some e →
    (e.state ≠ .ended → e.state ≠ .pausing →
      Gives (.epsCancel r) s fun t =>
        done t stOK ∧ same s t ∧ t.reg64 pEPS 0xF38 = s.reg64 pEPS 0xF38 + 1 ∧ (∀ j, j ≠ i → t.episode j = s.episode j) ∧
        (s.gKit e.group = false → e.recs = 0 → t.episode i = none) ∧
        (s.gKit e.group = true → ∃ p, t.episode i = some p ∧ p.state = .ended ∧ p.fin = 2 ∧ p.slot = none)) ∧
    (e.state = .active →
      Gives (.pause r) s fun t => done t stOK ∧ same s t ∧ t.episode i = some { e with pauseAsk := true }) ∧
    (e.state = .ready →
      Gives (.pause r) s fun t =>
        done t stOK ∧ same s t ∧ t.episode i = some { e with state := .paused, causes := e.causes ||| 2 } ∧
        t.reg64 pEPS 0xF30 = s.reg64 pEPS 0xF30 + 1) ∧
    (e.state = .paused → bit e.causes 0 = true → e.len + (s.epsArg 2).toNat ≤ e.maxLen →
      Gives (.reply r) s fun t =>
        done t stOK ∧ same s t ∧ ∃ p, t.episode i = some p ∧ p.len = e.len + (s.epsArg 2).toNat ∧
          p.causes = e.causes &&& 6 ∧ p.state = (if e.causes &&& 6 = 0 then .ready else .paused)) ∧
    (e.state ≠ .ended → bit e.causes 0 = false →
      Gives (.reply r) s fun t => done t stNOT_PAUSED ∧ t.eps = s.eps ∧ same s t) ∧
    (e.state ≠ .ended → s.gKit e.group = true →
      Gives (.score r) s fun t =>
        done t stOK ∧ same s t ∧ ∃ rs, t.eps.recq = s.eps.recq ++ rs ∧ (∀ q ∈ rs, q.ep = i ∧ q.final = false ∧ q.sent = false) ∧
          rs.getLast?.map (fun q => q.reward) = some (s.epsArg 2))) ∧
  (∀ (r : Requester) (v : Word32) (s : State), s.admits r pEPS 0x10C = true →
    (∀ n, v ≠ 0 → s.hwTmr 0x82 = none → s.freeTmr = some n →
      Gives (.epsPeriod r v) s fun t =>
        t.reg pEPS 0x10C = v ∧ t.claimOf n = some .hw ∧ t.tmr n 0 = 0x82 ∧ t.tmr n 0xC = v ∧ t.tmr n 0x10 = 1 ∧
        t.cmp n = s.pw.aonTime + v.setWidth 48 ∧ (∀ k, k ≠ n → t.claimOf k = s.claimOf k) ∧ t.eps = s.eps) ∧
    (v ≠ 0 → s.hwTmr 0x82 = none → s.freeTmr = none →
      Gives (.epsPeriod r v) s fun t =>
        t.reg pEPS 0x10C = v ∧ bit (t.reg pEPS 0x828) 16 = true ∧ t.pw = s.pw ∧ t.eps = s.eps) ∧
    (∀ n, s.hwTmr 0x82 = some n →
      Gives (.epsPeriod r 0) s fun t => t.reg pEPS 0x10C = 0 ∧ t.claimOf n = none ∧ t.eps = s.eps)) ∧
  (∀ (r : Requester) (w : Word32) (s : State), s.admits r pEPS 0x200 = true →
    let g := s.gSel
    let v := w &&& 0x80FFFFFF
    (bit v 31 = false → (s.egroup g).spec = none →
      Gives (.epsGroupValid r w) s fun t =>
        t.gCfg g = v &&& 0x7FFFFFFF ∧ t = { s with regs := t.regs, pages := t.pages }) ∧
    (bit v 31 = true → s.gOn g = false → s.groupFails g v = none → fld v 7 4 = 0 →
      Gives (.epsGroupValid r w) s fun t =>
        t.gCfg g = v ∧ t.breg g pEPS 0x834 = 0 ∧ t = { s with regs := t.regs, pages := t.pages }) ∧
    (∀ st, bit v 31 = true → s.gOn g = false → s.groupFails g v = some st →
      Gives (.epsGroupValid r w) s fun t =>
        t.gOn g = false ∧ t.breg g pEPS 0x834 = st.setWidth 32 ∧ t = { s with regs := t.regs, pages := t.pages })) ∧
  (∀ (r : Requester) (n : Fin 16) (hi : Bool) (v : Word32) (s : State),
    s.admits r pKIT (0x808 + 0x20 * n.val + (if hi then 4 else 0)) = true →
    let old := s.reg64 pKIT (0x808 + 0x20 * n.val)
    let new := putWord old hi v
    (old.toNat ≤ new.toNat → new.toNat ≤ (s.reg64 pKIT (0x800 + 0x20 * n.val)).toNat →
      Gives (.kitRingnTail r n hi v) s fun t =>
        t.reg64 pKIT (0x808 + 0x20 * n.val) = new ∧ t.reg64 pKIT 0xF18 = s.reg64 pKIT 0xF18 ∧
        t = { s with regs := t.regs, pages := t.pages }) ∧
    ((new.toNat < old.toNat ∨ (s.reg64 pKIT (0x800 + 0x20 * n.val)).toNat < new.toNat) →
      Gives (.kitRingnTail r n hi v) s fun t =>
        t.reg64 pKIT (0x808 + 0x20 * n.val) = old ∧ t.reg64 pKIT 0xF18 = s.reg64 pKIT 0xF18 + 1 ∧
        t = { s with regs := t.regs, pages := t.pages }))

/-- STEP_OPEN of the group whose turn it is puts a step with the next number in flight; another group's changes nothing.
STEP_OPEN_RX, COMMIT and HUSK act once every earlier message of their source has come (the step is queued; accepted
tokens lengthen the slots; a Husk is noted), and are held until then. EPS_STEP_ARRIVE arrives at the step barrier
when ready. EMIT_DRAIN takes the oldest emission and keeps it or counts it dropped. STEP_DONE notes its stage; the
last one commits the step. HUSK_COMPLETE answers the home; the last HUSK_DONE frees the slot and pauses the episode.
A Kitty record is sent, taken by its ring, refused KITTY_FULL where it does not fit, and sent again. (R430, R431,
R432, R433, R436, R438, R442, R446, R447, R459, R461, 15_episodes.md) -/
def Obligations.EpisodeSteps : Prop :=
  let takes (s : State) (m : Message) : Prop :=
    s.domOn dEPS = true ∧ s.newTo m = true ∧ m.mc = false ∧ s.pgEn pEPS = true ∧ s.gOn (hdr m 0x24 2 % 128) = true
  let inTurn (s : State) (m : Message) : Prop :=
    m.mseq.toNat ≤ 1024 ∧ ∀ k, 1 ≤ k → k < m.mseq.toNat → (sget none (s.windowOf m).2.outs k).isSome = true
  (∀ (g : Fin 128) (s : State),
    (∀ v, s.domOn dEPS = true → s.pgEn pEPS = true → s.openTurn g = true → s.assignable (s.groupMdl g) = some v →
      Gives (.stepOpen g) s fun t =>
        (t.egroup g).flight = some (s.breg64 g pEPS 0x838, v) ∧ t.breg64 g pEPS 0x838 = s.breg64 g pEPS 0x838 + 1 ∧
        t.eps.lastOpen = g.val ∧ t.eps.opened = s.eps.opened ++ [g] ∧ t.cores = s.cores ∧
        ∃ p, (t.epsCtx (s.gCtx g)).queue = (s.epsCtx (s.gCtx g)).queue ++ [p] ∧ p.group = g ∧
          p.num = s.breg64 g pEPS 0x838 ∧ p.version = v) ∧
    (s.openTurn g = false → Gives (.stepOpen g) s fun t => t = s)) ∧
  (∀ (m : Message) (s : State), takes s m → inTurn s m →
    let g : Fin 128 := Fin.ofNat 128 (hdr m 0x24 2)
    (m.kind = 0x50 →
      Gives (.stepOpenRx m) s fun t =>
        t.recorded m stOK ∧ t.eps.held = [] ∧ t.cores = s.cores ∧
        (t.epsCtx (s.gCtx g)).queue = (s.epsCtx (s.gCtx g)).queue ++ [{
          group := g, num := BitVec.ofNat 64 (hdr m 0x28 8), version := BitVec.ofNat 64 (hdr m 0x30 8)
          block := slice m.payload 0 0x2040, home := m.src, emits := [], poison := false }]) ∧
    (m.kind = 0x52 →
      Gives (.commit m) s fun t =>
        t.recorded m stOK ∧ t.eps.held = [] ∧ t.cores = s.cores ∧
        ∀ k q, k < 256 → sget none (s.egroup g).info k = some q →
          sget none (t.egroup g).info k = if (m.payload.getD k 0xFF).toNat ≤ 8 then
            some { q with len := q.len + (m.payload.getD k 0xFF).toNat + 1, ver := BitVec.ofNat 64 (hdr m 0x30 8) }
            else some q) ∧
    (m.kind = 0x53 →
      Gives (.husk m) s fun t =>
        t.recorded m stOK ∧ t.eps.held = [] ∧ t.cores = s.cores ∧ t.mem = s.mem ∧
        (t.egroup g).husks = (s.egroup g).husks ++ [{
          home := m.src, slot := Fin.ofNat 256 (lef m.payload 0 2), index := lef m.payload 2 2 }])) ∧
  (∀ (m : Message) (s : State), takes s m → (s.windowOf m).2 = { boot := m.bootId, h := 0, outs := [], seen := [] } →
    m.mseq = 2 →
    (Gives (.stepOpenRx m) s fun t => t.eps = { s.eps with held := [m] } ∧ t.recorded m stOK) ∧
    (Gives (.commit m) s fun t => t.eps = { s.eps with held := [m] } ∧ t.recorded m stOK) ∧
    (Gives (.husk m) s fun t => t.eps = { s.eps with held := [m] } ∧ t.recorded m stOK)) ∧
  (∀ (x : CtxId) (s : State),
    (s.domOn dEPS = true → s.epsReady x = true → (s.bar x (s.epsBar x % 64)).ended = none →
      Gives (.epsStepArrive x) s fun t =>
        (t.epsCtx x).arrived = true ∧ .eps ∈ (t.bar x (s.epsBar x % 64)).engArrived ∧ t.cores = s.cores ∧ t.mem = s.mem) ∧
    (s.epsReady x = false → Gives (.epsStepArrive x) s fun t => t = s)) ∧
  (∀ (c : CoreId) (q : EmitEntry) (rest : List EmitEntry) (s : State), s.domOn dEPS = true → (s.core c).emitq = q :: rest →
    (s.core c).emitWait = none →
    (∀ p, (s.epsCtx q.ctx).cur = some p → p.hasSlot q.slot.toNat = true →
      (∀ r ∈ p.emits, r.slot ≠ q.slot ∨ r.draft ≠ q.draft) →
      Gives (.emitDrain c) s fun t =>
        t.core c = { s.core c with emitq := rest } ∧ (∀ e, e ≠ c.val → t.core e = s.core e) ∧
        (t.epsCtx q.ctx).cur = some { p with emits := p.emits ++ [{
          slot := q.slot, draft := q.draft, token := q.token, last := q.last, poison := q.poison }] }) ∧
    ((s.epsCtx q.ctx).cur = none →
      Gives (.emitDrain c) s fun t =>
        t.core c = { s.core c with emitq := rest } ∧ (∀ e, e ≠ c.val → t.core e = s.core e) ∧
        t.reg64 pEPS 0xF28 = s.reg64 pEPS 0xF28 + 1 ∧ t.eps = s.eps)) ∧
  (∀ (m : Message) (v : Word64) (s : State), takes s m →
    let g : Fin 128 := Fin.ofNat 128 (hdr m 0x24 2)
    (s.egroup g).flight = some (BitVec.ofNat 64 (hdr m 0x28 8), v) → s.eps.opened = [g] →
    ((∃ c ∈ s.gPipe g, c ≠ m.src ∧ c ∉ (s.egroup g).dones) →
      Gives (.stepDone m) s fun t =>
        t.recorded m stOK ∧ m.src ∈ (t.egroup g).dones ∧ (t.egroup g).flight = (s.egroup g).flight ∧
        t.eps.opened = [g] ∧ t.cores = s.cores) ∧
    ((∀ c ∈ s.gPipe g, c = m.src ∨ c ∈ (s.egroup g).dones) →
      Gives (.stepDone m) s fun t =>
        t.recorded m stOK ∧ (t.egroup g).flight = none ∧ t.eps.opened = [] ∧
        t.reg64 pEPS 0xF00 = s.reg64 pEPS 0xF00 + 1)) ∧
  (∀ (g : Fin 128) (slot : Fin 256) (h : Husk) (s : State), s.domOn dEPS = true →
    (s.egroup g).husks.find? (fun h => h.slot == slot) = some h → h.home.toNat ≠ s.myAddr →
    Gives (.huskComplete g slot) s fun t =>
      (t.egroup g).husks = (s.egroup g).husks.erase h ∧ sget none (t.egroup g).info slot = none ∧ t.cores = s.cores ∧
      ∃ k ∈ t.fab.held, k.msg.kind = 0x54 ∧ k.msg.dest = h.home) ∧
  (∀ (m : Message) (i : Nat) (e : Episode) (s : State), takes s m →
    let g : Fin 128 := Fin.ofNat 128 (hdr m 0x24 2)
    let slot : Fin 256 := Fin.ofNat 256 (lef m.payload 0 2)
    (m.src, slot) ∉ (s.egroup g).gaveUp → sget none (s.egroup g).slots slot = some i → s.episode i = some e →
    e.state = .pausing →
    ((∃ c ∈ e.husks, c ≠ m.src) →
      Gives (.huskDone m) s fun t =>
        t.recorded m stOK ∧ t.episode i = some { e with husks := e.husks.filter (fun c => c != m.src) } ∧
        sget none (t.egroup g).slots slot = some i) ∧
    ((∀ c ∈ e.husks, c = m.src) →
      Gives (.huskDone m) s fun t =>
        t.recorded m stOK ∧ sget none (t.egroup g).slots slot = none ∧
        t.episode i = some { e with husks := [], slot := none, summary := true
                                    state := if e.causes = 0 then .ready else .paused })) ∧
  (∀ (k : KRec) (e : Episode) (id : Nat) (s : State), s.domOn dEPS = true → s.episode k.ep = some e →
    fld (s.breg e.group pEPS 0x220) 0 12 ≠ s.myAddr →
    let goes (t : State) : Prop :=
      t.eps.recq = s.eps.recq.map (fun q => if q.num = k.num then { q with sent := true, full := false } else q) ∧
      (∃ h ∈ t.fab.held, h.msg.kind = 0x30 ∧ h.msg.dest.toNat = fld (s.breg e.group pEPS 0x220) 0 12 ∧
        h.sender = .kitty k.num) ∧ t.cores = s.cores
    ((s.eps.recq.filter (fun r => r.sent)).length < 16 → s.eps.recq.find? (fun r => !r.sent) = some k →
      Gives .kittyRecordSend s goes) ∧
    (s.eps.recq.find? (fun r => r.num == id && r.full) = some k → Gives (.kittyResend id) s goes)) ∧
  (∀ (m : Message) (q : Rec) (s : State), s.newTo m = true → m.mc = false → s.pgEn pKIT = true → 64 ≤ m.payload.length →
    let n := hdr m 0x24 1 % 16
    let head := s.reg64 pKIT (0x800 + 0x20 * n)
    let held := head.toNat - (s.reg64 pKIT (0x808 + 0x20 * n)).toNat
    bit (s.reg pKIT (0x100 + 0x10 * n)) 31 = true → s.trec (fld (s.reg pKIT (0x100 + 0x10 * n)) 0 15) = some q →
    0x200000 ≤ q.size → head.toNat % q.size + m.payload.length ≤ q.size →
    (m.payload.length ≤ q.size - held →
      Gives (.kittyRecordRx m) s fun t =>
        t.recorded m stOK ∧ t.reg64 pKIT (0x800 + 0x20 * n) = head + BitVec.ofNat 64 m.payload.length ∧
        t.reg64 pKIT (0x810 + 0x20 * n) = s.reg64 pKIT (0x810 + 0x20 * n) + 1 ∧
        t.reg64 pKIT 0xF00 = s.reg64 pKIT 0xF00 + 1) ∧
    (q.size - held < m.payload.length →
      Gives (.kittyRecordRx m) s fun t =>
        t.reg64 pKIT (0x800 + 0x20 * n) = head ∧ t.reg64 pKIT 0xF10 = s.reg64 pKIT 0xF10 + 1 ∧
        bit (t.page pKIT).evt 16 = true ∧ t.mem = s.mem))

/-- A trigger or RUN starts an idle channel, makes a run wait behind one run, and is refused BUSY behind two.
ANL_LOAD_DONE begins the loaded problem's run, or ends it with the status of its check. ANL_SWEEP of the channel
whose turn it is does one sweep in ascending order of the spins. BOUNDARY for a run here is kept, for none here is
counted. ANL_RUN_END ends a finished run OK; ABORT ends it ABORTED. SELFTEST waits for its turn and its end reports
pass or fail. A configuration beyond the annealer's blocks stays not VALID with QUOTA_OVERCOMMIT. A command that is
not due changes nothing. Cores, memory poison and other channels do not change. (R471, R472, R473, R475, R477, R479,
R482, R485, R487, R488, 16_stochastic.md) -/
def Obligations.Annealer : Prop :=
  let cmd (r : Requester) (v : Word32) (s : State) : Prop :=
    s.admits r pANL 0x800 = true ∧ bit v 31 = true ∧ s.pgEn pANL = true
  let done (t : State) (st : BitVec 16) : Prop := t.reg pANL 0x804 = BitVec.ofNat 32 (st.toNat + 2 ^ 31)
  let others (s t : State) (c : Nat) : Prop := (∀ k, k ≠ c → t.anlCh k = s.anlCh k) ∧ t.cores = s.cores
  (∀ (ch : Fin 32) (s : State),
    let a := s.anlCh ch
    (s.domOn dANL = true → 0 < a.trig → a.state = .idle → a.waiting = false →
      Gives (.anlTrigger ch) s fun t =>
        t.anlCh ch = { a with trig := a.trig - 1, state := .loading } ∧ others s t ch ∧ t = { s with anl := t.anl }) ∧
    (s.domOn dANL = true → 0 < a.trig → a.state ≠ .idle → a.waiting = false →
      Gives (.anlTrigger ch) s fun t =>
        t.anlCh ch = { a with trig := a.trig - 1, waiting := true } ∧ others s t ch ∧ t = { s with anl := t.anl }) ∧
    (s.domOn dANL = true → 0 < a.trig → a.waiting = true →
      Gives (.anlTrigger ch) s fun t =>
        (t.anlCh ch).trig = a.trig - 1 ∧ (t.anlCh ch).state = a.state ∧ (t.anlCh ch).waiting = true ∧
        fld (t.reg pANL (0x900 + 0x10 * ch.val)) 16 16 = stBUSY.toNat ∧
        t.reg64 pANL 0xF38 = s.reg64 pANL 0xF38 + 1 ∧ others s t ch) ∧
    (a.trig = 0 → Gives (.anlTrigger ch) s fun t => t = s)) ∧
  (∀ (r : Requester) (v : Word32) (s : State), cmd r v s →
    let c := anlChOf v
    let a := s.anlCh c
    (bit (s.anlCfg c) 7 = true → s.anlHost c = true → a.state = .idle → a.waiting = false →
      Gives (.run r v) s fun t => done t stOK ∧ t.anlCh c = { a with state := .loading } ∧ others s t c) ∧
    (bit (s.anlCfg c) 7 = true → s.anlHost c = true → a.waiting = true →
      Gives (.run r v) s fun t =>
        done t stBUSY ∧ t.anlCh c = a ∧ others s t c ∧ fld (t.reg pANL (0x900 + 0x10 * c.val)) 16 16 = stBUSY.toNat) ∧
    (a.state ≠ .idle → a.waiting = false →
      Gives (.anlAbort r v) s fun t =>
        done t stOK ∧ (t.anlCh c).state = .idle ∧ (t.anlCh c).prob = none ∧ others s t c ∧
        fld (t.reg pANL (0x900 + 0x10 * c.val)) 16 16 = stABORTED.toNat ∧ t.reg64 pANL 0xF08 = s.reg64 pANL 0xF08 + 1) ∧
    (a.state = .idle → a.waiting = false →
      Gives (.anlAbort r v) s fun t => done t stOK ∧ t.anl = s.anl ∧ t = { s with regs := t.regs, pages := t.pages }) ∧
    (s.anl.testPending = false → s.anl.testRunning = false →
      (bit v 16 = false ∨ ∀ k, k < 32 → (s.anlCh k).state ≠ .running) →
      Gives (.selftest r v) s fun t =>
        done t stOK ∧ t.anl = { s.anl with testPending := true } ∧ t.reg pANL 0x810 = 1 ∧
        t = { s with regs := t.regs, pages := t.pages, anl := t.anl }) ∧
    (s.anl.testPending = true →
      Gives (.selftest r v) s fun t =>
        done t stBUSY ∧ t.anl = s.anl ∧ fld (t.reg pANL 0x810) 2 2 = 3 ∧ t = { s with regs := t.regs, pages := t.pages })) ∧
  (∀ (good : Bool) (s : State),
    (s.domOn dANL = true → s.anl.testPending = true → (∀ k, k < 32 → (s.anlCh k).state ≠ .running) →
      Gives (.anlSelftestDone good) s fun t =>
        t.anl = { s.anl with testPending := false, testRunning := false } ∧
        t.reg pANL 0x810 = (if good then 4 else 8) ∧ t.reg64 pANL 0xF40 = s.reg64 pANL 0xF40 + 1 ∧
        t.reg64 pANL 0xF48 = s.reg64 pANL 0xF48 + (if good then 0 else 1) ∧ (good = false → bit (t.page pANL).evt 18 = true)) ∧
    ((s.anl.testPending = false ∨ ∃ k, k < 32 ∧ (s.anlCh k).state = .running) →
      Gives (.anlSelftestDone good) s fun t => t = s)) ∧
  (∀ (r : Requester) (c : Fin 32) (v : Word32) (s : State), s.admits r pANL (0x200 + 0x10 * c.val) = true →
    let rest := (List.range 32).filter (fun k => k != c.val && bit (s.anlCfg k) 7)
    let blocks := (rest.map (fun k => fld (s.anlCfg k) 8 9)).sum + fld v 8 9
    let sparse := (rest.map (fun k => fld (s.anlCfg k) 17 9)).sum + fld v 17 9
    ((bit v 7 = false ∨ (blocks ≤ 256 ∧ sparse ≤ 256)) →
      Gives (.anlChannelConfig r c v) s fun t =>
        t.anlCfg c = v &&& 0x3FFFFFF ∧ (∀ k, k < 32 → k ≠ c.val → t.anlCfg k = s.anlCfg k) ∧
        t = { s with regs := t.regs, pages := t.pages }) ∧
    (bit v 7 = true → (256 < blocks ∨ 256 < sparse) →
      Gives (.anlChannelConfig r c v) s fun t =>
        bit (t.anlCfg c) 7 = false ∧ fld (t.reg pANL (0x900 + 0x10 * c.val)) 16 16 = stQUOTA_OVERCOMMIT.toNat ∧
        (∀ k, k < 32 → k ≠ c.val → t.anlCfg k = s.anlCfg k) ∧ t = { s with regs := t.regs, pages := t.pages })) ∧
  (∀ (c : Fin 32) (s : State), s.domOn dANL = true → (s.anlCh c).state = .loading →
    (∀ p sp u, s.anlLoad c = (.inr (p, sp), u) →
      Gives (.anlLoadDone c) s fun t =>
        t.anlCh c = { u.anlCh c with state := .running, prob := some p, spins := sp, beta := p.beta0, log := [], inbox := [] } ∧
        t.anlSweeps c = 0 ∧ t.reg pANL (0x908 + 0x10 * c.val) = p.runId ∧ t.cores = u.cores) ∧
    (s.anlRec c false = none →
      Gives (.anlLoadDone c) s fun t =>
        (t.anlCh c).prob = none ∧ (t.anlCh c).state = (if (s.anlCh c).waiting then .loading else .idle) ∧
        fld (t.reg pANL (0x900 + 0x10 * c.val)) 16 16 = stTENSOR_DENIED.toNat ∧
        t.reg64 pANL 0xF08 = s.reg64 pANL 0xF08 + 1 ∧ others s t c ∧ t.mem = s.mem)) ∧
  (∀ (c : Fin 32) (p : Prob) (s : State), (s.anlCh c).prob = some p →
    let n := s.anlSweeps c
    let beta := if p.curve = 0 then tableBeta p.points n else (s.anlCh c).beta
    let after := p.sweepFrom n beta (256 * p.blocks) 0 (s.anlCh c).spins 0
    (s.domOn dANL = true → s.anlTurn c = true →
      Gives (.anlSweep c) s fun t =>
        t.reg pANL (0x904 + 0x10 * c.val) = BitVec.ofNat 32 (n + 1) ∧ t.anl.turn = c.val ∧ others s t c ∧ t.mem = s.mem ∧
        (t.anlCh c).state = (if n + 1 = p.sweeps then .finishing else .running) ∧ (t.anlCh c).prob = some p) ∧
    (s.domOn dANL = true → s.anlTurn c = true → p.peers = [] →
      Gives (.anlSweep c) s fun t =>
        (t.anlCh c).spins = after.1 ∧ t.reg64 pANL 0xF18 = s.reg64 pANL 0xF18 + BitVec.ofNat 64 after.2 ∧
        t.reg64 pANL 0xF10 = s.reg64 pANL 0xF10 + BitVec.ofNat 64 (256 * p.blocks) ∧ t.out = s.out) ∧
    (s.anlTurn c = false → Gives (.anlSweep c) s fun t => t = s) ∧
    (s.domOn dANL = true → (s.anlCh c).state = .finishing →
      Gives (.anlRunEnd c) s fun t =>
        (t.anlCh c).prob = none ∧ (t.anlCh c).state = (if (s.anlCh c).waiting then .loading else .idle) ∧
        fld (t.reg pANL (0x900 + 0x10 * c.val)) 16 16 = stOK.toNat ∧ t.reg64 pANL 0xF00 = s.reg64 pANL 0xF00 + 1 ∧
        others s t c) ∧
    ((s.anlCh c).state ≠ .finishing → Gives (.anlRunEnd c) s fun t => t = s)) ∧
  (∀ (m : Message) (s : State), s.domOn dANL = true → s.newTo m = true → s.pgEn pANL = true →
    let run := BitVec.ofNat 32 (hdr m 0x24 4)
    ((∀ (c : Fin 32) p, (s.anlCh c).prob = some p → p.runId ≠ run) →
      Gives (.boundary m) s fun t =>
        t.recorded m stOK ∧ t.anl = s.anl ∧ t.cores = s.cores ∧ t.reg64 pANL 0xF30 = s.reg64 pANL 0xF30 + 1) ∧
    (∀ (c : Fin 32) (p : Prob) (k : Nat) (q : Peer), (s.anlCh c).prob = some p → p.runId = run →
      (∀ (d : Fin 32) x, d ≠ c → (s.anlCh d).prob = some x → x.runId ≠ run) →
      p.peers.findIdx? (fun q => q.chip == m.src && q.part == BitVec.ofNat 8 (hdr m 0x28 1)) = some k →
      p.peers[k]? = some q → q.imports.length = hdr m 0x30 4 →
      Gives (.boundary m) s fun t =>
        t.recorded m stOK ∧ others s t c ∧ t.anlCh c = { s.anlCh c with inbox := (s.anlCh c).inbox ++
          [(k, hdr m 0x2C 4, (List.range q.imports.length).map (bitAt m.payload))] }))

/-- A write of TRN_Jj_CFG without VALID forgets the job, a failed check leaves it not VALID with its status, a good one
keeps the bucket entries and starts at STEP 0. TRN_PHASE_ARRIVE presents the next phase and arrives at the phase
barrier; where it may not it changes nothing. FWD, BWD, OPT take the entry at TAIL as the next phase, POST arms its
bucket, STEP_END closes the step; a bad entry halts the job. TRN_CQ_HEAD stores the head. BUCKET_COMPLETE handles
its collective's report. CHECKPOINT_DONE ends the checkpoint. HALT halts a job with no phase under way; RESTORE
needs a halted job, and takes STEP from a valid checkpoint; RESUME lets a halted job go on, each bucket's
completions of the step counting anew. (R490, R491, R493, R494, R495, R496, R500, R508, R509, R516, 17_learning.md) -/
def Obligations.LearnerJobs : Prop :=
  let cmd (r : Requester) (v : Word32) (s : State) : Prop :=
    s.admits r pTRN 0xA00 = true ∧ bit v 31 = true ∧ s.pgEn pTRN = true ∧ bit (s.trnCfg (trnJobOf v)) 31 = true
  let done (t : State) (st : BitVec 16) : Prop := t.reg pTRN 0xA04 = BitVec.ofNat 32 (st.toNat + 2 ^ 31)
  let others (s t : State) (j : Nat) : Prop := (∀ k, k ≠ j → t.trnJob k = s.trnJob k) ∧ t.cores = s.cores
  (∀ (r : Requester) (j : Fin 8) (w : Word32) (s : State), s.admits r pTRN (0x100 + 0x40 * j.val) = true →
    let v := w &&& 0xFE7FFFFF
    let base := ((s.trnReg j 0x10).toNat + fld (s.trnReg j 0x14) 0 8 * 2 ^ 32) / 128 * 128
    let es := (List.range (fld v 17 6)).map (fun b => s.devBytes (base + 128 * b) 128)
    (bit v 31 = false →
      Gives (.trnJobEnable r j w) s fun t =>
        t.trnCfg j = v ∧ t.trnJob j = {} ∧ others s t j ∧ t = { s with regs := t.regs, pages := t.pages, trn := t.trn }) ∧
    (∀ st, bit v 31 = true → bit (s.trnCfg j) 31 = false → s.jobFails j v es = some st →
      Gives (.trnJobEnable r j w) s fun t =>
        t.trnCfg j = v &&& 0x7FFFFFFF ∧ fld (t.reg pTRN (trnOp j 0)) 16 16 = st.toNat ∧ t.trn = s.trn ∧
        t = { s with regs := t.regs, pages := t.pages }) ∧
    (bit v 31 = true → bit (s.trnCfg j) 31 = false → s.jobFails j v es = none →
      Gives (.trnJobEnable r j w) s fun t =>
        t.trnCfg j = v ∧ t.trnJob j = { entries := es } ∧ t.trnStep j = 0 ∧ t.reg64 pTRN (trnOp j 0x10) = 0 ∧
        t.reg pTRN (trnOp j 0x20) = s.trnReg j 0x18 ∧ others s t j ∧
        t = { s with regs := t.regs, pages := t.pages, trn := t.trn })) ∧
  (∀ (j : Fin 8) (s : State),
    let tj := s.trnJob j
    let x := s.trnCtx j
    let may : Bool := bit (s.trnCfg j) 31 && (s.ctx x).begun && decide ((s.ctx x).state ≠ .ending) && !tj.haltAsk
      && !tj.halted && !tj.arrived
    let ph := nextPhase (s.trnM j) tj.cur
    (may = true → s.trnCommand j = false → ph.1 ≠ .opt → ¬ (ph.1 = .fwd ∧ ph.2 = 0) →
      (s.bar x (s.trnBar j)).ended = none →
      Gives (.trnPhaseArrive j) s fun t =>
        (t.trnJob j).next = some ph ∧ (t.trnJob j).arrived = true ∧ (t.trnJob j).cur = tj.cur ∧
        .trn j ∈ (t.bar x (s.trnBar j)).engArrived ∧
        t.reg64 pTRN (trnOp j 0x10) = s.reg64 pTRN (trnOp j 0x10) + 1 ∧ others s t j) ∧
    (may = false → Gives (.trnPhaseArrive j) s fun t => t = s)) ∧
  (∀ (j : Fin 8) (s : State), bit (s.trnCfg j) 31 = true → s.trnCommand j = true → (s.trnJob j).haltAsk = false →
    (s.trnJob j).halted = false →
    fld (s.reg pTRN (trnOp j 0x18)) 0 16 ≠ fld (s.reg pTRN (trnOp j 0x1C)) 0 16 →
    let e := (s.trnEntry j).1
    let passed (t : State) : Prop := fld (t.reg pTRN (trnOp j 0x1C)) 0 16 =
      (fld (s.reg pTRN (trnOp j 0x1C)) 0 16 + 1) % max 1 (fld (s.trnReg j 0x30) 16 16)
    let takesPhase (i : Instr) (k : PhaseKind) : Prop := (s.trnJob j).next = none →
      Gives i s fun t => t.trnJob j = { s.trnJob j with next := some (k, lef e 2 2) } ∧ passed t ∧ others s t j
    (s.entryBad j e = none →
      (lef e 0 1 = 1 → takesPhase (.fwd j) .fwd) ∧ (lef e 0 1 = 2 → takesPhase (.bwd j) .bwd) ∧
      (lef e 0 1 = 3 → takesPhase (.opt j) .opt) ∧
      (lef e 0 1 = 4 →
        Gives (.post j) s fun t =>
          (t.trnJob j).bucket (lef e 4 1) = { (s.trnJob j).bucket (lef e 4 1) with armed := true } ∧ passed t ∧
          others s t j) ∧
      (lef e 0 1 = 5 → (s.trnJob j).kitTaken = false →
        Gives (.stepEnd j) s fun t =>
          t.trnStep j = s.trnStep j + 1 ∧ t.reg64 pTRN 0xF00 = s.reg64 pTRN 0xF00 + 1 ∧ passed t ∧ others s t j ∧
          bit (t.page pTRN).evt 16 = true)) ∧
    (∀ st i, s.entryBad j e = some st → (s.trnJob j).cur = none → (s.trnJob j).ckpt = false → (s.trnJob j).arrived = false →
      i ∈ [Instr.fwd j, .bwd j, .opt j, .post j, .stepEnd j] →
      Gives i s fun t =>
        (t.trnJob j).halted = true ∧ fld (t.reg pTRN (trnOp j 0)) 16 16 = st.toNat ∧ bit (t.page pTRN).evt 17 = true ∧
        others s t j)) ∧
  (∀ (r : Requester) (j : Fin 8) (v : Word32) (s : State), s.admits r pTRN (trnOp j 0x18) = true →
    Gives (.trnCqHead r j v) s fun t =>
      t.reg pTRN (trnOp j 0x18) = v &&& 0xFFFF ∧ t = { s with regs := t.regs, pages := t.pages }) ∧
  (∀ (j : Fin 8) (b : Fin 62) (s : State),
    (((s.trnJob j).bucket b).report = none → Gives (.bucketComplete j b) s fun t => t = s) ∧
    (∀ n, ((s.trnJob j).bucket b).report = some (stOK, n) →
      Gives (.bucketComplete j b) s fun t =>
        (t.trnJob j).bucket b = { (s.trnJob j).bucket b with running := false, report := none, status := stOK, present := n } ∧
        (∀ c, c ≠ b.val → (t.trnJob j).bucket c = (s.trnJob j).bucket c) ∧ others s t j) ∧
    (∀ st n, ((s.trnJob j).bucket b).report = some (st, n) → st ≠ stOK → st ≠ stLATE →
      Gives (.bucketComplete j b) s fun t =>
        ((t.trnJob j).bucket b).running = false ∧ ((t.trnJob j).bucket b).report = none ∧ (t.trnJob j).haltAsk = true ∧
        bit (t.page pTRN).evt 17 = true ∧ others s t j)) ∧
  (∀ (j : Fin 8) (s : State),
    ((s.trnJob j).ckpt = true → ((s.trnJob j).haltAsk = false ∨ (s.trnJob j).cur = none) →
      Gives (.checkpointDone j) s fun t =>
        (t.trnJob j).ckpt = false ∧ t.reg64 pTRN 0xF50 = s.reg64 pTRN 0xF50 + 1 ∧ bit (t.page pTRN).evt 18 = true ∧
        others s t j) ∧
    ((s.trnJob j).ckpt = false → Gives (.checkpointDone j) s fun t => t = s)) ∧
  (∀ (r : Requester) (v : Word32) (s : State), cmd r v s →
    let j := trnJobOf v
    let tj := s.trnJob j
    (tj.cur = none → tj.ckpt = false → tj.arrived = false → tj.halted = false →
      Gives (.trnHalt r v) s fun t =>
        done t stOK ∧ t.trnJob j = { tj with haltAsk := true, halted := true, next := none } ∧ others s t j ∧
        t = { s with regs := t.regs, pages := t.pages, trn := t.trn }) ∧
    (tj.arrived = true →
      Gives (.trnHalt r v) s fun t =>
        done t stOK ∧ t.trnJob j = { tj with haltAsk := true } ∧ others s t j ∧
        t = { s with regs := t.regs, pages := t.pages, trn := t.trn }) ∧
    (tj.halted = false →
      (Gives (.restore r v) s fun t => done t stNOT_HALTED ∧ t = { s with regs := t.regs, pages := t.pages }) ∧
      (Gives (.resume r v) s fun t => done t stNOT_HALTED ∧ t = { s with regs := t.regs, pages := t.pages })) ∧
    (tj.halted = true →
      Gives (.resume r v) s fun t =>
        done t stOK ∧ (t.trnJob j).halted = false ∧ (t.trnJob j).haltAsk = false ∧ (t.trnJob j).cur = none ∧
        
        (∀ b, b < 62 → (t.trnJob j).bucket b = { tj.bucket b with bars := 0, status := 0, present := 0, late := false }) ∧
        others s t j ∧ t = { s with regs := t.regs, pages := t.pages, trn := t.trn }) ∧
    (∀ q h p1 u1 data p2 u2, tj.halted = true → s.trec (s.ckptRec j) = some q → 0x80 + ckptBytes (s.ckptList j) ≤ q.size →
      s.recRead (s.ckptRec j) false .stream s.sysPart false 0 128 = (h, p1, u1) →
      u1.recRead (s.ckptRec j) false .stream s.sysPart false 0x80 (ckptBytes (s.ckptList j)) = (data, p2, u2) →
      lef h 0 4 = 0x54504B43 → lef h 5 1 = (s.ckptList j).length → lef h 0x10 8 = ckptBytes (s.ckptList j) → sha256 (h.take 64 ++ data) = slice h 0x40 32 →
      Gives (.restore r v) s fun t =>
        done t stOK ∧ t.trnStep j = BitVec.ofNat 64 (lef h 8 8) ∧ t.reg64 pTRN (trnOp j 0x10) = 0 ∧
        t.reg pTRN (trnOp j 0x20) = s.trnReg j 0x18 ∧ t.reg64 pTRN 0xF58 = s.reg64 pTRN 0xF58 + 1 ∧
        (t.trnJob j).cur = none ∧ (t.trnJob j).halted = true ∧ others s t j))

/-- CTX_VALID_SET binds a context to a queue that no other context has and makes it IDLE; one that asks for a bound
queue stays not VALID with QUEUE_IN_USE. LOAD completes CTX_INVALID without a context, CTX_BUSY while a program is
loaded, the failing status of its image, or makes the context READY with the image's job, its command still running.
KILL stops a loaded context with KILLED, once, and changes nothing of an idle one. PROGRAM_END frees the context's
cores, keeps the status and makes the context IDLE or FREE. DISPATCH of the first READY context whose cores are free
and ON gives it its cores, unparked; a context that is not READY stays as it is. (R177, R220, R517, R518, R519,
R520, R523, R524, 18_sharing.md) -/
def Obligations.ContextsAndPrograms : Prop :=
  let told (t : State) (q : Nat) (cid : Word64) (st : BitVec 16) : Prop :=
    ∀ w ∈ (t.que q).window, w.1 = cid → ∃ d, w.2 = some d ∧ d.status = st
  (∀ (r : Requester) (x : CtxId) (v : Word32) (s : State), s.admits r (pCTX x) 0x100 = true → bit v 6 = true →
    ((∀ y, y < 64 → y ≠ x.val → s.ctxValid y = true → fld (s.reg (pCTX y) 0x100) 8 6 ≠ fld v 8 6) →
      Gives (.ctxValidSet r x v) s fun t =>
        t.reg (pCTX x) 0x100 = v &&& 0x73F7F ∧ t.reg (pCTX x) 0x810 = 0 ∧ (∀ y, y ≠ x.val → t.ctx y = s.ctx y) ∧
        t.ctx x = (if (s.ctx x).loaded = true then s.ctx x else { s.ctx x with state := .idle }) ∧
        t = { s with regs := t.regs, pages := t.pages, ctxs := t.ctxs }) ∧
    ((∃ y, y < 64 ∧ y ≠ x.val ∧ s.ctxValid y = true ∧ fld (s.reg (pCTX y) 0x100) 8 6 = fld v 8 6) → s.ctxValid x = false →
      Gives (.ctxValidSet r x v) s fun t =>
        t.ctxValid x = false ∧ t.reg (pCTX x) 0x810 = stQUEUE_IN_USE.setWidth 32 ∧
        t = { s with regs := t.regs, pages := t.pages })) ∧
  (∀ (q : Fin 64) (e : QEntry) (s : State),
    (s.mayBegin q 1 = none → Gives (.load q) s fun t => t = s) ∧
    (s.mayBegin q 1 = some e → s.queCtx q = none →
      Gives (.load q) s fun t => told t q e.cid stCTX_INVALID ∧ t.ctxs = s.ctxs ∧ t.cores = s.cores) ∧
    (∀ x, s.mayBegin q 1 = some e → s.queCtx q = some x → (s.ctx x).loaded = true →
      Gives (.load q) s fun t => told t q e.cid stCTX_BUSY ∧ t.ctxs = s.ctxs ∧ t.cores = s.cores) ∧
    (∀ x st, s.mayBegin q 1 = some e → s.queCtx q = some x → (s.ctx x).state = .idle →
      ((s.beginEntry q e).loadImage x q e.cid (e.image.toNat % 2 ^ 40)).1 = some st →
      Gives (.load q) s fun t => told t q e.cid st ∧ t.ctxs = s.ctxs ∧ t.cores = s.cores) ∧
    (∀ x, s.mayBegin q 1 = some e → s.queCtx q = some x → (s.ctx x).state = .idle →
      ((s.beginEntry q e).loadImage x q e.cid (e.image.toNat % 2 ^ 40)).1 = none →
      Gives (.load q) s fun t =>
        (t.ctx x).state = .ready ∧ (t.ctx x).begun = true ∧ (t.ctx x).loadCmd = some (q, e.cid) ∧
        (t.ctx x).cfg = s.reg (pCTX x) 0x100 ∧ (t.ctx x).readyAt = s.pw.aonTime ∧ (t.job x).live = true ∧
        (t.job x).jobId = e.cid ∧ (t.que q).running = (s.que q).running ++ [e] ∧ ∀ y, y ≠ x.val → t.ctx y = s.ctx y)) ∧
  (∀ (r : Requester) (x : CtxId) (s : State), s.admits r (pCTX x) 0x804 = true →
    ((s.ctx x).loaded = true →
      Gives (.kill r x) s fun t =>
        t.ctx x = { s.ctx x with state := .ending, endWith := some ((s.ctx x).endWith.getD stKILLED) } ∧
        (∀ p ∈ (s.ctx x).place, t.reg (pCORE p.core) 0x804 = stKILLED.setWidth 32) ∧
        (∀ y, y ≠ x.val → t.ctx y = s.ctx y) ∧ (∀ c, (s.core c).ctx ≠ some x → t.core c = s.core c) ∧
        t = { s with regs := t.regs, pages := t.pages, ctxs := t.ctxs, cores := t.cores }) ∧
    ((s.ctx x).loaded = false →
      Gives (.kill r x) s fun t => t = { s with pages := t.pages })) ∧
  (∀ (x : CtxId) (s : State),
    (∀ st, s.endDue x = some st →
      Gives (.programEnd x) s fun t =>
        (t.ctx x).state = (if s.ctxValid x = true then .idle else .free) ∧ (t.ctx x).endStatus = st ∧
        (t.ctx x).place = [] ∧ (t.ctx x).begun = false ∧ (t.job x).live = false ∧
        ∀ p ∈ (s.ctx x).place, (t.core p.core).ctx ≠ some x) ∧
    (s.endDue x = none → Gives (.programEnd x) s fun t => t = s)) ∧
  (∀ (x : CtxId) (s : State),
    (s.coresFree x = true →
      (∀ y : CtxId, y ≠ x → s.coresFree y = true → (s.ctx y).shares (s.ctx x) = true → s.before y x = false) →
      s.coresOn x = true →
      Gives (.dispatch x) s fun t =>
        (t.ctx x).state = .running ∧ (∀ y, y ≠ x.val → t.ctx y = s.ctx y) ∧
        (∀ p ∈ (s.ctx x).place, (t.core p.core).ctx = some x ∧ (t.core p.core).parked = false) ∧
        t.reg64 pSCH 0xF00 = s.reg64 pSCH 0xF00 + 1 ∧ t.mem = s.mem) ∧
    (s.coresFree x = false → Gives (.dispatch x) s fun t => t = s))

/-- QUANTUM_EXPIRY and PREEMPT_REQUEST put a RUNNING context whose core a READY one wants under pre-emption where
priority and quantum say so, and change nothing else where they do not. A core of it in a wait that can park parks;
one that issues does not. PREEMPT_DEADLINE is served once, and counts a core that still issues. CONTEXT_SWITCH of an
all-parked context saves its threads and makes it READY. LOCK_GRANT gives a free lock to the oldest request and
wakes its core with the status. BREAK releases a held lock BROKEN, CLEAR clears BROKEN of a free one.
ACCT_WINDOW_END takes every context's slowdown and begins a new window, once the window has passed. (R525, R528,
R529, R530, R531, R534, R536, R537, R539, 18_sharing.md) -/
def Obligations.PreemptionLocksAccounts : Prop :=
  (∀ (v c : CtxId) (s : State),
    let asked (t : State) : Prop :=
      t.ctx v = { s.ctx v with state := .preempting, preemptFor := some c, preemptAt := s.pw.aonTime, late := false } ∧
      (∀ y, y ≠ v.val → t.ctx y = s.ctx y) ∧ t = { s with ctxs := t.ctxs }
    let due : Bool := s.mayPreempt v c && decide ((s.ctx c).priority = (s.ctx v).priority)
      && decide (fld (s.ctx v).quantum 0 16 ≠ 0) && s.usPassed (s.dispatchTime v) (fld (s.ctx v).quantum 0 16)
    (due = true → Gives (.quantumExpiry v c) s asked) ∧
    (due = false → Gives (.quantumExpiry v c) s fun t => t = s) ∧
    (s.mayPreempt v c = true → (s.ctx v).priority < (s.ctx c).priority → Gives (.preemptRequest v c) s asked) ∧
    ((s.mayPreempt v c = false ∨ (s.ctx c).priority ≤ (s.ctx v).priority) →
      Gives (.preemptRequest v c) s fun t => t = s)) ∧
  (∀ (c : CoreId) (x : CtxId) (s : State), (s.core c).ctx = some x → (s.ctx x).state = .preempting →
    (∀ sd b a d, (s.core c).th.wait = some (.bar sd b a d) → (s.core c).parked = false → (s.core c).passes = [] →
      (s.core c).retrying = 0 → (s.core c).ungangWait = false → (s.core c).emitWait = none →
      Gives (.corePark c) s fun t =>
        (t.core c).parked = true ∧ (t.core c).ctx = some x ∧ (t.core c).th.wait = some (.bar sd b a d) ∧
        (t.core c).th.pc = (s.core c).th.pc ∧ (∀ e, e ≠ c.val → t.core e = s.core e) ∧ t = { s with cores := t.cores }) ∧
    (∀ sd n l, (s.core c).th.wait = some (.lock sd n l true) → (s.core c).parked = false → (s.core c).passes = [] →
      (s.core c).retrying = 0 → (s.core c).ungangWait = false → (s.core c).emitWait = none →
      Gives (.corePark c) s fun t =>
        (t.core c).parked = true ∧ (t.core c).ctx = some x ∧ (t.core c).th.wait = some (.lock sd n l false) ∧
        (∀ w ∈ (t.lock n).waiters, ¬ (w.1 = x ∧ w.2.1 = c)) ∧ (t.lock n).owner = (s.lock n).owner ∧
        t = { s with cores := t.cores, locks := t.locks }) ∧
    ((s.core c).th.wait = none → Gives (.corePark c) s fun t => t = s)) ∧
  (∀ (x : CtxId) (s : State),
    let g := s.ctx x
    let due : Bool := decide (g.state = .preempting) && !g.late && s.usPassed g.preemptAt (fld (s.reg pSCH 0x104) 0 16)
    let sends (c : CoreId) : Bool := match (s.core c).th.wait with | some (.fabSend _ _ _ none _) => true | _ => false
    (due = false → Gives (.preemptDeadline x) s fun t => t = s) ∧
    (due = true → (∀ p ∈ g.place, sends p.core = false) →
      (∃ p ∈ g.place, (s.core p.core).ctx = some x ∧ (s.core p.core).parked = false ∧ (s.core p.core).th.halted = false ∧
        (s.core p.core).th.wait = none) →
      Gives (.preemptDeadline x) s fun t =>
        t.ctx x = { g with late := true } ∧ t.reg64 pSCH 0xF18 = s.reg64 pSCH 0xF18 + 1 ∧
        bit (t.page pSCH).evt 18 = true ∧ t.cores = s.cores) ∧
    (∀ c sd d q f, due = true → g.place.map (fun p => p.core) = [c] → (s.core c).ctx = some x →
      (s.core c).parked = false → (s.core c).th.wait = some (.fabSend sd d q none f) →
      Gives (.preemptDeadline x) s fun t =>
        t.ctx x = { g with late := true } ∧ (t.core c).parked = true ∧
        (t.core c).th.wait = some (.fabSend sd d q none true) ∧ t.reg64 pSCH 0xF10 = s.reg64 pSCH 0xF10 + 1 ∧
        t.reg64 pSCH 0xF18 = s.reg64 pSCH 0xF18) ∧
    (∀ k, g.state = .preempting → s.allParked x = true → g.preemptFor = none →
      Gives (.contextSwitch x k) s fun t =>
        fld (t.reg pSCH 0xF38) 0 31 = max (fld (s.reg pSCH 0xF38) 0 31) k.toNat ∧
        (t.ctx x).state = .ready ∧ (t.ctx x).readyAt = s.pw.aonTime ∧ (∀ y, y ≠ x.val → t.ctx y = s.ctx y) ∧
        (∀ p ∈ g.place, sget {} (t.ctx x).saves p.core = (s.core p.core).th ∧ (t.core p.core).ctx = none) ∧
        t.reg64 pSCH 0xF08 = s.reg64 pSCH 0xF08 + 1 ∧ t.mem = s.mem) ∧
    (∀ k, (g.state ≠ .preempting ∨ s.allParked x = false) → Gives (.contextSwitch x k) s fun t => t = s)) ∧
  (∀ (n : Fin 256) (waited : Nat) (x : CtxId) (c : CoreId) (lease : Word32) (rest : List (CtxId × CoreId × Word32))
    (sd : Fin 32) (m : Fin 256) (l : Word32) (f : Bool) (s : State), (s.lock n).owner = none →
    (s.lock n).waiters = (x, c, lease) :: rest → s.waitLive c = true → (s.core c).ctx = some x →
    (s.core c).th.wait = some (.lock sd m l f) →
    ((s.leaseOf x lease = 0 ∨ (s.hwTmr 0x80).isSome = true ∨ s.freeTmr.isSome = true) →
      Gives (.lockGrant n waited) s fun t =>
        (t.lock n).owner = some x ∧ (t.lock n).core = c ∧ (t.lock n).waiters = rest ∧
        (t.lock n).expiry = s.expiryOf (s.leaseOf x lease) ∧ (t.lock n).broken = (s.lock n).broken ∧
        (∀ k, k ≠ n.val → t.lock k = s.lock k) ∧ t.reg64 pSCH 0xF20 = s.reg64 pSCH 0xF20 + 1 ∧
        (t.core c).th = (s.core c).woken waited
          [(0, .sreg sd (if (s.lock n).broken then stACQUIRED_BROKEN.setWidth 64 else 0) false)]) ∧
    (s.leaseOf x lease ≠ 0 → s.hwTmr 0x80 = none → s.freeTmr = none →
      Gives (.lockGrant n waited) s fun t =>
        (t.lock n).owner = none ∧ (t.lock n).waiters = rest ∧ (∀ k, k ≠ n.val → t.lock k = s.lock k) ∧
        (t.core c).th = (s.core c).woken waited [(0, .sreg sd (stNO_CHANNEL.setWidth 64) false)])) ∧
  (∀ (r : Requester) (v : Word32) (s : State), s.admits r pSCH 0x814 = true → s.pgEn pSCH = true →
    let n := fld v 0 8
    let done (t : State) : Prop := t.reg pSCH 0x818 = BitVec.ofNat 32 (stOK.toNat + 2 ^ 31)
    ((s.lock n).owner ≠ none →
      Gives (.brk r v) s fun t =>
        t.lock n = { s.lock n with owner := none, expiry := none, broken := true, lastBreak := 3 } ∧
        (∀ k, k ≠ n → t.lock k = s.lock k) ∧ done t ∧ t.reg64 pSCH 0xF28 = s.reg64 pSCH 0xF28 + 1 ∧
        bit (t.page pSCH).evt 16 = true ∧ t.cores = s.cores) ∧
    ((s.lock n).owner = none →
      (Gives (.brk r v) s fun t => t.locks = s.locks ∧ done t ∧ t = { s with regs := t.regs, pages := t.pages }) ∧
      (Gives (.clear r v) s fun t =>
        t.lock n = { s.lock n with broken := false } ∧ (∀ k, k ≠ n → t.lock k = s.lock k) ∧ done t ∧
        t = { s with regs := t.regs, pages := t.pages, locks := t.locks }))) ∧
  (∀ s : State,
    let len := max 1 (fld (s.reg pSCH 0x108) 0 16)
    ((s.pw.aonTime - s.chk.winAt).toNat < len → Gives .acctWindowEnd s fun t => t = s) ∧
    (len ≤ (s.pw.aonTime - s.chk.winAt).toNat →
      Gives .acctWindowEnd s fun t =>
        t.chk.windows = s.chk.windows + 1 ∧ t.chk.winAt = s.pw.aonTime ∧ t.cores = s.cores ∧
        ∀ x : CtxId,
          let g := s.ctx x
          let w := if g.wN = 0 then 0 else g.wWait / (54932 * g.wN)
          let z := 1000 * (g.wQ + w) / max 1 g.wD
          t.ctx x = { g with wWait := 0, wQ := 0, wD := 0 } ∧
          t.reg (pCTX x) 0xF14 = BitVec.ofNat 32 (min 0xFFFF z + 2 ^ 16 * bnat (decide (0xFFFF ≤ z)))))

/-- CHK_SEAL_CMD with START seals an interim receipt of a context with a job: while the ring is not low, its body with
its signature stands in the slot at HEAD, HEAD and the counts advance, its digest is PREV of the next and waits for
the journal, and a new interval begins. While the ring is low under STRICT the seal is held, and DEFERRED_SEAL makes
it once the ring is no longer low; while it is low without STRICT the slot at TAIL is dropped first. A start while
one runs answers BUSY; for a context without a job it completes with a status that the spec does not name.
CHK_RING_TAIL takes a value from TAIL to JPTR, and counts and discards any other. CHK_MODE changes DET only while
every context is FREE or IDLE, and never to 1 with ACTION LOG; a refused write changes nothing but its page and
CHK_MODE_ERR. (R543, R544, R545, R546, R547, R558, R559, R560, R561, R568, 19_receipts.md) -/
def Obligations.Receipts : Prop :=
  let receipt (s : State) (x : CtxId) : List Byte :=
    s.receiptBody x false 0 (s.job x) zeroDigest ++ edSign s.deviceSeed (s.receiptBody x false 0 (s.job x) zeroDigest)
  let sealed (s t : State) (x : CtxId) : Prop :=
    let h := s.reg64 pCHK 0x810
    let j := s.job x
    let dig := sha256 (s.receiptBody x false 0 j zeroDigest)
    t.reg64 pCHK 0x810 = h + 1 ∧ t.reg64 pCHK 0xF00 = s.reg64 pCHK 0xF00 + 1 ∧
    t.reg64 pCHK 0xF08 = s.reg64 pCHK 0xF08 + 1 ∧
    (s.mem.hcc = [] → j.spans.length ≤ 64 → s.ringSlot h.toNat + 0x2000 ≤ memBytes →
      t.devBytes (s.ringSlot h.toNat) (receipt s x).length = receipt s x) ∧
    (t.job x).live = true ∧ (t.job x).prev = dig ∧ (t.job x).rseq = j.rseq + 1 ∧ (t.job x).chain = j.chain ∧
    (t.job x).jobId = j.jobId ∧ (t.job x).counts = {} ∧ (t.job x).spans = [] ∧ (t.job x).began = s.pw.aonTime ∧
    (t.job x).sealHeld = false ∧ (∀ y, y ≠ x.val → t.job y = s.job y) ∧
    ((h.toNat, BitVec.ofNat 8 x.val, dig) ∈ t.chk.jwait ∨
      ∃ e ∈ t.chk.staged, e.2 = some h.toNat ∧ slice e.1 0x20 32 = slice dig 0 32) ∧
    ({ s with chk := t.chk, mem := t.mem, pw := t.pw } : State).noted t
  (∀ (r : Requester) (v : Word32) (s : State), s.admits r pCHK 0x800 = true → bit v 31 = true → s.pgEn pCHK = true →
    let x : CtxId := ⟨fld v 0 6, Nat.mod_lt _ (by decide)⟩
    (bit (s.reg pCHK 0x804) 16 = true →
      Gives (.chkSealCmd r v) s fun t =>
        t.reg pCHK 0x804 = BitVec.ofNat 32 (stBUSY.toNat + 2 ^ 16 + 2 ^ 31) ∧
        t = { s with regs := t.regs, pages := t.pages }) ∧
    (bit (s.reg pCHK 0x804) 16 = false → (s.job x).live = false →
      Gives (.chkSealCmd r v) s fun t =>
        (∃ st : BitVec 16, t.reg pCHK 0x804 = BitVec.ofNat 32 (st.toNat + 2 ^ 31)) ∧
        t = { s with regs := t.regs, pages := t.pages, free := t.free }) ∧
    (bit (s.reg pCHK 0x804) 16 = false → (s.job x).live = true → s.ringLow = true → s.strict = true →
      Gives (.chkSealCmd r v) s fun t =>
        t.reg pCHK 0x804 = BitVec.ofNat 32 (2 ^ 16) ∧ t.job x = { s.job x with sealHeld := true } ∧
        (∀ y, y ≠ x.val → t.job y = s.job y) ∧ t.reg64 pCHK 0x810 = s.reg64 pCHK 0x810 ∧
        t = { s with regs := t.regs, pages := t.pages, chk := t.chk }) ∧
    (bit (s.reg pCHK 0x804) 16 = false → (s.job x).live = true → s.ringLow = false →
      Gives (.chkSealCmd r v) s fun t => sealed s t x ∧ t.reg pCHK 0x804 = BitVec.ofNat 32 (2 ^ 31)) ∧
    (bit (s.reg pCHK 0x804) 16 = false → (s.job x).live = true → s.ringLow = true → s.strict = false →
      Gives (.chkSealCmd r v) s fun t =>
        t.reg64 pCHK 0x810 = s.reg64 pCHK 0x810 + 1 ∧ t.reg64 pCHK 0x818 = s.reg64 pCHK 0x818 + 1 ∧
        t.reg64 pCHK 0xF10 = s.reg64 pCHK 0xF10 + 1 ∧ bit (t.page pCHK).evt 18 = true ∧
        t.reg64 pCHK 0x820 = (if s.reg64 pCHK 0x818 = s.reg64 pCHK 0x820 then s.reg64 pCHK 0x820 + 1
          else s.reg64 pCHK 0x820) ∧
        t.reg64 pCHK 0xF18 = s.reg64 pCHK 0xF18 + (if s.reg64 pCHK 0x818 = s.reg64 pCHK 0x820 ∧
          s.inPage (s.reg64 pCHK 0x818).toNat = false then 1 else 0) ∧
        (t.job x).rseq = (s.job x).rseq + 1)) ∧
  (∀ (x : CtxId) (s : State),
    ((s.job x).sealHeld = true → (s.job x).live = true → s.ringLow = false →
      Gives (.deferredSeal x) s fun t => sealed s t x) ∧
    (((s.job x).sealHeld = false ∨ s.genHalted = true) → Gives (.deferredSeal x) s fun t => t = s)) ∧
  (∀ (r : Requester) (hi : Bool) (v : Word32) (s : State),
    s.admits r pCHK (if hi then 0x81C else 0x818) = true →
    let new := putWord (s.reg64 pCHK 0x818) hi v
    let fits : Bool := decide ((s.reg64 pCHK 0x818).toNat ≤ new.toNat) && decide (new.toNat ≤ (s.reg64 pCHK 0x820).toNat)
    Gives (.chkRingTail r hi v) s fun t =>
      t.reg64 pCHK 0x818 = (if fits then new else s.reg64 pCHK 0x818) ∧
      t.reg64 pCHK 0xF20 = (if fits then s.reg64 pCHK 0xF20 else s.reg64 pCHK 0xF20 + 1) ∧
      t.reg64 pCHK 0x810 = s.reg64 pCHK 0x810 ∧ t.reg64 pCHK 0x820 = s.reg64 pCHK 0x820 ∧ s.noted t) ∧
  (∀ (r : Requester) (v : Word32) (s : State), s.admits r pCHK 0x100 = true →
    let busy : Prop := s.ctxs.any (fun e => e.2.state != .free && e.2.state != .idle) = true
    let changes : Prop := bit v 2 ≠ bit (s.reg pCHK 0x100) 2
    (changes → busy →
      Gives (.chkMode r v) s fun t =>
        t.reg pCHK 0x100 = s.reg pCHK 0x100 ∧ t.reg pCHK 0x80C = BitVec.ofNat 32 (stCTX_BUSY.toNat + 2 ^ 31) ∧
        (t.page pCHK).woViol = (s.page pCHK).woViol ∧ t = { s with regs := t.regs, pages := t.pages }) ∧
    (¬ (changes ∧ busy) → bit v 2 = true → fld v 0 2 = 0 →
      Gives (.chkMode r v) s fun t =>
        t.reg pCHK 0x100 = s.reg pCHK 0x100 ∧ t.reg pCHK 0x80C = BitVec.ofNat 32 (stMODE_DENIED.toNat + 2 ^ 31) ∧
        (t.page pCHK).woViol = (s.page pCHK).woViol ∧ t = { s with regs := t.regs, pages := t.pages }) ∧
    (¬ (changes ∧ busy) → ¬ (bit v 2 = true ∧ fld v 0 2 = 0) →
      Gives (.chkMode r v) s fun t =>
        fld (t.reg pCHK 0x100) 0 4 = fld v 0 4 ∧
        (∀ x : CtxId, (s.job x).live = true → (t.job x).modeChanged = true ∧ (t.job x).det = ((s.job x).det && bit v 2)) ∧
        (∀ x : CtxId, (s.job x).live = false → t.job x = s.job x) ∧ ({ s with chk := t.chk } : State).noted t))

/-- JOURNAL_PAGE_WRITE programs the staged entries into the next page when a page is due and nothing stands against it;
refused by the guard they stay staged and the refusal counts; a page that is not blank is counted and passed over
for the next. JOURNAL_PAGE_DONE leaves the page's bytes in the flash, HEAD above the last entry, and the receipt's
slot marked with JPTR above it. JOURNAL_RESUBMIT submits a refused page again once NV_BLOCKED reads 0. NVJ_TAIL
takes a value from TAIL to HEAD and counts and discards any other, and every sector whose entries all lie below it
is handed to the NV-write unit to be erased. ERASE and PROGRAM are refused with the first check that fails, and
otherwise start where the unit is idle and the guard lets them. (R89, R90, R91, R114, R563, R564, R565, R566, R567,
19_receipts.md) -/
def Obligations.ReceiptJournal : Prop :=
  let page (s : State) : List Byte :=
    let bs := s.chk.staged.flatMap (fun e => e.1)
    bs ++ List.replicate (256 - bs.length) 0xFF
  let idle (s : State) : Prop := s.nv.op = none ∧ s.nv.queue = []
  let may (s : State) : Bool := s.pgEn pNVJ && s.journalDue && !s.chk.refused && !s.journalBusy && !s.journalFull
  (∀ s : State,
    let op : NvOp := .journal s.chk.nextPage (page s)
    let next := (s.chk.nextPage + 1) % max 1 s.journalPages
    (may s = true → idle s → s.nvGuard op = none → s.flashBlank (journalOff s.chk.nextPage) = true →
      Gives .journalPageWrite s fun t => t.nv = { s.nv with op := some op } ∧ t = { s with nv := t.nv, regs := t.regs }) ∧
    (∀ st, may s = true → idle s → s.nvGuard op = some st →
      Gives .journalPageWrite s fun t =>
        t.nv = s.nv ∧ t.chk = { s.chk with refused := true } ∧ t.reg64 pNVJ 0xF18 = s.reg64 pNVJ 0xF18 + 1 ∧
        bit (t.page pNVJ).evt 17 = true ∧ ({ s with chk := t.chk } : State).noted t) ∧
    (may s = true → idle s → s.nvGuard op = none → s.flashBlank (journalOff s.chk.nextPage) = false →
      s.flashBlank (journalOff next) = true →
      Gives .journalPageWrite s fun t =>
        t.nv = { s.nv with op := some (.journal next (page s)) } ∧ t.chk = { s.chk with nextPage := next } ∧
        t.reg64 pNVJ 0xF18 = s.reg64 pNVJ 0xF18 + 1 ∧ ({ s with nv := t.nv, chk := t.chk } : State).noted t) ∧
    (may s = false → Gives .journalPageWrite s fun t => t = s)) ∧
  (∀ (p : Nat) (bs : List Byte) (s : State), s.nv.op = some (.journal p bs) → s.nv.queue = [] →
    Gives .journalPageDone s fun t =>
      (∀ a, t.flash a = if journalOff p ≤ a ∧ a < journalOff p + bs.length then bs.getD (a - journalOff p) 0 else s.flash a) ∧
      t.chk.nextPage = (p + 1) % max 1 s.journalPages ∧ t.reg64 pNVJ 0xF08 = s.reg64 pNVJ 0xF08 + 1 ∧
      t.reg64 pNVJ 0xF00 = s.reg64 pNVJ 0xF00 + BitVec.ofNat 64 s.chk.staged.length ∧
      (∀ e, s.chk.staged.getLast? = some e → t.reg64 pNVJ 0x800 = BitVec.ofNat 64 (lef e.1 8 8 + 1)) ∧
      (s.chk.jwait = [] → s.chk.drops = 0 → t.chk.staged = []) ∧
      (∀ e k, s.chk.staged = [(e, some k)] → (s.reg64 pCHK 0x818).toNat ≤ k → (s.reg64 pCHK 0x820).toNat = k →
        t.reg64 pCHK 0x820 = BitVec.ofNat 64 (k + 1) ∧
        (s.mem.hcc = [] → s.ringSlot k + 0x2000 ≤ memBytes →
          t.devBytes (s.ringSlot k + 0x1FF0) 16 = leBytes 8 1 ++ slice e 8 8)) ∧
      t.reg64 pNVJ 0x808 = s.reg64 pNVJ 0x808 ∧ t.nv.fuses = s.nv.fuses ∧ t.nv.op = none ∧
      ({ s with nv := t.nv, chk := t.chk, mem := t.mem, pw := t.pw } : State).noted t) ∧
  (∀ s : State, (∀ p bs, s.nv.op ≠ some (.journal p bs)) → Gives .journalPageDone s fun t => t = s) ∧
  (∀ s : State,
    let op : NvOp := .journal s.chk.nextPage (page s)
    (s.chk.refused = true → s.nvBlocked = false → idle s → s.chk.staged ≠ [] → s.journalFull = false →
      s.chk.pages.all (fun p => s.sectorHeld (p.1 / 16)) = true → s.nvGuard op = none →
      s.flashBlank (journalOff s.chk.nextPage) = true →
      Gives .journalResubmit s fun t =>
        t.nv = { s.nv with op := some op } ∧ t.chk = { s.chk with refused := false } ∧
        t = { s with nv := t.nv, chk := t.chk, regs := t.regs }) ∧
    ((s.chk.refused = false ∨ s.nvBlocked = true) → Gives .journalResubmit s fun t => t = s)) ∧
  (∀ (r : Requester) (hi : Bool) (v : Word32) (s : State),
    s.admits r pNVJ (if hi then 0x80C else 0x808) = true →
    let new := putWord (s.reg64 pNVJ 0x808) hi v
    let fits : Bool := decide ((s.reg64 pNVJ 0x808).toNat ≤ new.toNat) && decide (new.toNat ≤ (s.reg64 pNVJ 0x800).toNat)
    Gives (.nvjTail r hi v) s fun t =>
      t.reg64 pNVJ 0x808 = (if fits then new else s.reg64 pNVJ 0x808) ∧
      t.reg64 pNVJ 0xF20 = (if fits then s.reg64 pNVJ 0xF20 else s.reg64 pNVJ 0xF20 + 1) ∧
      t.reg64 pNVJ 0x800 = s.reg64 pNVJ 0x800 ∧ t.nv.flash = s.nv.flash ∧ t.nv.fuses = s.nv.fuses ∧ t.mem = s.mem ∧
      ((s.nv.op ≠ none ∨ (s.nv.queue = [] ∧ s.nvBlocked = false)) → fits = true → ∀ k,
        (∃ p ∈ s.chk.pages, p.1 / 16 = k) → (∀ p ∈ s.chk.pages, p.1 / 16 = k → p.2.2 < new.toNat) →
        .journalErase (journalOff (16 * k)) ∈ t.nv.op.toList ++ t.nv.queue)) ∧
  (∀ (r : Requester) (s : State), s.admits r pNVJ 0x900 = true → s.pgEn pNVJ = true →
    let off := (s.reg pNVJ 0x904).toNat
    let src := (s.reg64 pNVJ 0x908).toNat
    let refuses (i : Instr) (st : BitVec 16) : Prop :=
      Gives i s fun t =>
        t.reg pNVJ 0x910 = BitVec.ofNat 32 (bnat s.nvCmdBusy + st.toNat * 2 ^ 16) ∧
        t = { s with regs := t.regs, pages := t.pages }
    (∀ st, s.nvCmdCheck false = some st → refuses (.erase r) st) ∧
    (∀ st, s.nvCmdCheck true = some st → refuses (.nvProgram r) st) ∧
    (s.nvCmdCheck false = none → idle s → s.nvGuard (.cmdErase off) = none →
      Gives (.erase r) s fun t =>
        t.nv = { s.nv with op := some (.cmdErase off) } ∧ t.reg pNVJ 0x910 = 1 ∧
        t = { s with nv := t.nv, regs := t.regs, pages := t.pages }) ∧
    (s.nvCmdCheck true = none → idle s → (∀ bs, s.nvGuard (.cmdProgram off bs) = none) → s.flashBlank off = true →
      Gives (.nvProgram r) s fun t =>
        ∃ bs, t.nv = { s.nv with op := some (.cmdProgram off bs) } ∧ t.reg pNVJ 0x910 = 1 ∧
          (s.mem.hcc = [] → bs = s.devBytes src 256) ∧
          t = { s with nv := t.nv, regs := t.regs, pages := t.pages, mem := t.mem, pw := t.pw, free := t.free }))

/-- LOG_ENTRY_WRITE writes the oldest queued entry into the slot of HEAD with HEAD as its SEQ, counts the overwrite of
an entry not acknowledged, sets its class's pending bit and signals the class's vector as an enabled bit rises; or
it merges a CORRECTED one into the newest entry, whose COUNT saturates. AON_LOG_TAIL takes a value from TAIL to HEAD
and discards any other. AON_LOG_SEL latches a slot. MSIX_UNMASK sends a message that waited. TEL_SAMPLE with a
period writes the time and the seven selected counters at HEAD mod slots, and advances HEAD. TJ_SAMPLE sets TEL_TJ
and its maximum, enters stage 1 at ON, and trips at the second sample of 115 or more; THROTTLE_STAGE2_ENTER and
THROTTLE_STAGE_EXIT move the stage by their thresholds. A throttle changes no core. (R578, R579, R580, R581, R582,
R583, R585, R586, R590, R635, R636, R637) -/
def Obligations.LogTelemetryThermal : Prop :=
  (∀ s : State, s.log.queue = [] → Gives .logEntryWrite s fun t => t = s) ∧
  (∀ (e : LogEntry) (rest : List LogEntry) (s : State), s.log.queue = e :: rest →
    let old := s.reg pERR 0x8E0
    let sig : Bool := !bit old e.cls.toNat && bit (s.reg pERR 0x104) e.cls.toNat
    let v : Byte := BitVec.ofNat 8 (fld (s.reg pERR 0x100) (8 * e.cls.toNat) 8)
    let h := s.logHead
    let pend (t : State) : Prop := ∀ c, c < 4 → bit (t.reg pERR 0x8E0) c = (bit old c || decide (c = e.cls.toNat))
    (s.merges e = false →
      Gives .logEntryWrite s fun t =>
        t.logHead = h + 1 ∧ sget {} t.log.ring (h.toNat % 1024) = { e with seq := h } ∧
        (∀ k, k ≠ h.toNat % 1024 → sget {} t.log.ring k = sget {} s.log.ring k) ∧
        t.log = { s.log with ring := t.log.ring, queue := rest, fatalIdx := t.log.fatalIdx } ∧
        (e.cls = cFATAL → t.log.fatalIdx.toNat = h.toNat % 1024) ∧
        t.reg pAON 0xF18 = (if 1024 ≤ h.toNat ∧ (s.reg64 pAON 0x908).toNat ≤ h.toNat - 1024 then
          satAdd (s.reg pAON 0xF18) 1 0xFFFFFFFF else s.reg pAON 0xF18) ∧ pend t ∧
        (e.cls ≠ cFATAL →
          t.out = (if sig && !s.msixMask.getLsbD v.toNat && s.dmaOn then s.out ++ [.msix v] else s.out) ∧
          t.msixPend = (if sig && s.msixMask.getLsbD v.toNat then s.msixPend ||| (1 <<< v.toNat) else s.msixPend)) ∧
        (e.cls = cFATAL → fld (s.gpio 1) 0 8 ≠ 0 → fld (s.gpio 1) 8 3 = 3 → t.mgt.fatalPin = true) ∧
        t = { s with log := t.log, regs := t.regs, out := t.out, msixPend := t.msixPend, dmaWait := t.dmaWait, mgt := t.mgt }) ∧
    (s.merges e = true →
      Gives .logEntryWrite s fun t =>
        let slot := (h.toNat - 1) % 1024
        let n := sget ({} : LogEntry) s.log.ring slot
        t.logHead = h ∧ sget {} t.log.ring slot = { n with count := if n.count = 0xFFFF then 0xFFFF else n.count + 1 } ∧
        (∀ k, k ≠ slot → sget {} t.log.ring k = sget {} s.log.ring k) ∧
        t.log = { s.log with ring := t.log.ring, queue := rest } ∧ pend t ∧ t.mgt = s.mgt ∧
        t = { s with log := t.log, regs := t.regs, out := t.out, msixPend := t.msixPend, dmaWait := t.dmaWait })) ∧
  (∀ (r : Requester) (hi : Bool) (v : Word32) (s : State),
    s.admits r pAON (if hi then 0x90C else 0x908) = true →
    let new := putWord (s.reg64 pAON 0x908) hi v
    Gives (.aonLogTail r hi v) s fun t =>
      t.reg64 pAON 0x908 = (if (s.reg64 pAON 0x908).toNat ≤ new.toNat ∧ new.toNat ≤ s.logHead.toNat then new
        else s.reg64 pAON 0x908) ∧
      t.logHead = s.logHead ∧ t = { s with regs := t.regs, pages := t.pages }) ∧
  (∀ (r : Requester) (v : Word32) (s : State), s.admits r pAON 0x910 = true →
    Gives (.aonLogSel r v) s fun t =>
      t.log = { s.log with latch := sget {} s.log.ring (fld v 0 10) } ∧
      t = { s with log := t.log, regs := t.regs, pages := t.pages }) ∧
  (∀ (vec : Fin 256) (s : State),
    (s.mgt.d3 = true → Gives (.msixUnmask vec) s fun t => t = s) ∧
    (s.mgt.d3 = false → s.msixPend.getLsbD vec = false →
      Gives (.msixUnmask vec) s fun t =>
        t.msixMask.getLsbD vec = false ∧ (∀ w, w ≠ vec.val → t.msixMask.getLsbD w = s.msixMask.getLsbD w) ∧
        t = { s with msixMask := t.msixMask }) ∧
    (s.mgt.d3 = false → s.msixPend.getLsbD vec = true → s.busMaster = true →
      Gives (.msixUnmask vec) s fun t =>
        t.out = s.out ++ [.msix (BitVec.ofNat 8 vec.val)] ∧ t.msixPend.getLsbD vec = false ∧
        t.msixMask.getLsbD vec = false ∧ (∀ w, w ≠ vec.val → t.msixMask.getLsbD w = s.msixMask.getLsbD w ∧
          t.msixPend.getLsbD w = s.msixPend.getLsbD w) ∧
        t = { s with msixMask := t.msixMask, msixPend := t.msixPend, out := t.out, regs := t.regs })) ∧
  (∀ s : State,
    let h := s.reg64 pTEL 0x800
    let n := fld (s.reg pTEL 0x10C) 0 20
    let bs := leBytes 8 s.pw.aonTime.toNat ++ (List.range 7).flatMap (fun i =>
      leBytes 8 (s.telValue (s.reg pTEL (0x110 + 4 * i)).toNat).toNat)
    let a := (s.reg pTEL 0x104).toNat + fld (s.reg pTEL 0x108) 0 8 * 2 ^ 32 + 64 * (h.toNat % n)
    ((s.reg pTEL 0x100 = 0 ∨ s.pgEn pTEL = false) → Gives .telSample s fun t => t = s) ∧
    (s.reg pTEL 0x100 ≠ 0 → s.pgEn pTEL = true →
      Gives .telSample s fun t =>
        t.reg64 pTEL 0x800 = h + 1 ∧ (n ≠ 0 → s.mem.hcc = [] → a + 64 ≤ memBytes → t.devBytes a 64 = bs) ∧
        (n = 0 → t.mem = s.mem) ∧
        t = { s with regs := t.regs, mem := t.mem, pw := t.pw, free := t.free })) ∧
  (∀ (t0 : Nat) (s : State),
    let tj := min 255 t0
    Gives (.tjSample t0) s fun t =>
      t.tj = tj ∧ fld (t.reg pTEL 0x808) 8 8 = max tj (fld (s.reg pTEL 0x808) 8 8) ∧
      t.thrStage = (if s.thrOn ≤ tj ∧ s.thrStage = 0 then 1 else s.thrStage) ∧
      (s.thrOn ≤ tj → s.thrStage = 0 → bit (t.page pTEL).evt 16 = true) ∧ t.mgt.hot = decide (115 ≤ tj) ∧
      (115 ≤ tj → s.mgt.hot = true → s.mgt.tripped = false →
        t.mgt.tripped = true ∧ t.pw.pllRun = 0 ∧ .thermtrip ∈ t.out) ∧
      (¬ (115 ≤ tj ∧ s.mgt.hot = true) → t.mgt.tripped = s.mgt.tripped ∧ t.pw = s.pw) ∧
      ({ s with mgt := t.mgt, pw := t.pw } : State).noted t) ∧
  (∀ s : State,
    (108 ≤ s.tj → s.thrStage < 2 →
      Gives .throttleStage2Enter s fun t => t.thrStage = 2 ∧ bit (t.page pTEL).evt 16 = true ∧ s.noted t) ∧
    ((s.tj < 108 ∨ 2 ≤ s.thrStage) → Gives .throttleStage2Enter s fun t => t = s) ∧
    (s.thrStage = 2 → s.tj ≤ 105 → Gives .throttleStageExit s fun t => t.thrStage = 1 ∧ t = { s with regs := t.regs }) ∧
    (s.thrStage = 1 → s.tj + 3 ≤ s.thrOn →
      Gives .throttleStageExit s fun t => t.thrStage = 0 ∧ t = { s with regs := t.regs }) ∧
    ((s.thrStage = 0 ∨ (s.thrStage = 1 ∧ s.thrOn < s.tj + 3) ∨ (s.thrStage = 2 ∧ 105 < s.tj) ∨ s.thrStage = 3) →
      Gives .throttleStageExit s fun t => t = s))

/-- SQ_DOORBELL takes a TAIL that leaves no more entries than the ring holds, waking the wake set of the queue's
context; it counts and discards any other. ENTRY_FETCH does nothing where the queue may not fetch; an abort or
poison halts it at the entry, a failed check completes the entry, a duplicate of a completed entry completes at
once, and a good entry waits to begin. NOP_COMMAND completes the NOP that is next. RESUME clears the halt. BAR2
reads and writes reach the device address of the window, whose value above 11 is ignored; a poisoned write marks
every line it touches. A link-down returns the configuration registers to their defaults and disturbs nothing else;
D3hot answers no BAR2 access; Bus Master Enable lets what waited for DMA go. (R594, R595, R596, R597, R598, R599,
R600, R601, R603, R604, R605, R607) -/
def Obligations.QueuesAndPcie : Prop :=
  (∀ (r : Requester) (q : Fin 64) (v : Word32) (s : State), s.admits r (pQUE q) 0x800 = true →
    let tail := s.reg (pQUE q) 0x800
    let fits : Prop := (v - tail).toNat ≤ s.queSize q - (tail - s.reg (pQUE q) 0x804).toNat
    (fits →
      Gives (.sqDoorbell r q v) s fun t =>
        t.reg (pQUE q) 0x800 = v ∧ t.que q = s.que q ∧
        (s.pw.deep = true → s.queCtx q = none → t.pw.exitDue = true) ∧
        (∀ x, s.queCtx q = some x → ∀ d, d < 1012 → (sget 0 s.pw.wsets x.val).getLsbD d = true →
          (768 ≤ d ∨ (s.fusedOff d = false ∧ s.isFenced d = false)) →
          (t.dom d).state = .on ∨ (t.dom d).waking = true ∨ (t.dom d).wakeAfter = true) ∧
        t = { s with regs := t.regs, pages := t.pages, pw := t.pw, free := t.free }) ∧
    (¬ fits →
      Gives (.sqDoorbell r q v) s fun t =>
        t.reg (pQUE q) 0x800 = tail ∧ t.reg64 (pQUE q) 0xF10 = s.reg64 (pQUE q) 0xF10 + 1 ∧
        t = { s with regs := t.regs, pages := t.pages })) ∧
  (∀ (q : Fin 64) (s : State),
    let head := s.reg (pQUE q) 0x804
    let halts (f : HostRead) (st : BitVec 16) : Prop := s.mayFetch q = true →
      Gives (.entryFetch q f) s fun t =>
        t.reg (pQUE q) 0x810 = BitVec.ofNat 32 (1 + st.toNat * 2 ^ 16) ∧ t.reg (pQUE q) 0x804 = head ∧
        t.ques = s.ques ∧ bit (t.page (pQUE q)).evt 16 = true ∧ t.reg64 pERR 0xF08 = s.reg64 pERR 0xF08 + 1 ∧ s.noted t
    (∀ f, s.mayFetch q = false → Gives (.entryFetch q f) s fun t => t = s) ∧
    halts .abort stABORTED ∧ halts .poisoned stDATA_POISON ∧
    (∀ bs : List Byte, bs.length = 128 → s.mayFetch q = true →
      let e := parseEntry bs head
      let taken (t : State) : Prop := t.reg (pQUE q) 0x804 = head + 1 ∧ t.reg64 pHIF 0xF10 = s.reg64 pHIF 0xF10 + 128 ∧
        (∀ k, k ≠ q.val → t.que k = s.que k) ∧
        t = { s with regs := t.regs, ques := t.ques, out := t.out, msixPend := t.msixPend }
      let i := (s.reg (pQUE q) 0x808).toNat
      let at_ := (s.reg64 (pQUE q) 0x108).toNat / 4096 * 4096 + 32 * (i % s.queSize q)
      let comp (d : QDone) (dup : Bool) : List Byte := leBytes 8 e.cid.toNat ++ leBytes 2 d.status.toNat
        ++ [d.op, BitVec.ofNat 8 (bnat (i / s.queSize q % 2 == 0) + 2 * bnat dup)] ++ leBytes 4 e.idx.toNat
        ++ slice d.result 0 16
      let completes (t : State) (d : QDone) (dup : Bool) : Prop :=
        t.reg (pQUE q) 0x808 = s.reg (pQUE q) 0x808 + 1 ∧ .hostWrite at_ (comp d dup) ∈ t.out
      ((s.que q).window.find? (fun w => w.1 == e.cid) = none → s.entryFails q bs = none →
        Gives (.entryFetch q (.bytes bs)) s fun t =>
          taken t ∧ (t.que q).fetched = (s.que q).fetched ++ [e] ∧ (t.que q).running = (s.que q).running ∧ t.out = s.out) ∧
      (∀ st, (s.que q).window.find? (fun w => w.1 == e.cid) = none → (s.que q).dups = [] → s.entryFails q bs = some st →
        Gives (.entryFetch q (.bytes bs)) s fun t =>
          taken t ∧ (t.que q).fetched = (s.que q).fetched ∧ completes t { status := st, op := e.op, result := [] } false) ∧
      (∀ c d, (s.que q).window.find? (fun w => w.1 == e.cid) = some (c, some d) →
        Gives (.entryFetch q (.bytes bs)) s fun t =>
          taken t ∧ t.ques = s.ques ∧ t.reg64 (pQUE q) 0xF08 = s.reg64 (pQUE q) 0xF08 + 1 ∧ completes t d true) ∧
      (∀ c, (s.que q).window.find? (fun w => w.1 == e.cid) = some (c, none) →
        Gives (.entryFetch q (.bytes bs)) s fun t =>
          taken t ∧ (t.que q).dups = (s.que q).dups ++ [e] ∧ (t.que q).fetched = (s.que q).fetched ∧ t.out = s.out))) ∧
  (∀ (q : Fin 64) (e : QEntry) (rest : List QEntry) (s : State), (s.que q).fetched = e :: rest → e.op = 3 →
    (s.que q).dups = [] → (∀ f ∈ (s.que q).running, f.cid ≠ e.cid) →
    Gives (.nopCommand q) s fun t =>
      (t.que q).fetched = rest ∧ (t.que q).running = (s.que q).running ∧
      t.reg (pQUE q) 0x808 = s.reg (pQUE q) 0x808 + 1 ∧ t.reg64 (pQUE q) 0xF00 = s.reg64 (pQUE q) 0xF00 + 1 ∧
      (∀ w ∈ (t.que q).window, w.1 = e.cid → w.2 = some { status := stOK, op := 3, result := List.replicate 16 0 }) ∧
      (∀ k, k ≠ q.val → t.que k = s.que k) ∧
      t = { s with regs := t.regs, ques := t.ques, out := t.out, dmaWait := t.dmaWait, msixPend := t.msixPend }) ∧
  (∀ (r : Requester) (q : Fin 64) (s : State), s.admits r (pQUE q) 0x814 = true →
    Gives (.queCmdResume r q) s fun t =>
      t.reg (pQUE q) 0x810 = 0 ∧ t.reg (pQUE q) 0x804 = s.reg (pQUE q) 0x804 ∧
      t = { s with regs := t.regs, pages := t.pages }) ∧
  (∀ (r : Requester) (v : Word32) (s : State), s.admits r pHIF 0x804 = true →
    Gives (.hifBar2Win r v) s fun t =>
      fld (t.reg pHIF 0x804) 0 4 = (if fld v 0 4 ≤ 11 then fld v 0 4 else fld (s.reg pHIF 0x804) 0 4) ∧
      (∀ off : BitVec 36, fld v 0 4 ≤ 11 → t.bar2Addr off = 0x1000000000 * fld v 0 4 + off.toNat) ∧
      t = { s with regs := t.regs, pages := t.pages }) ∧
  (∀ (off : BitVec 36) (len : Nat) (s : State),
    let a := s.bar2Addr off
    (s.mgt.d3 = true → Gives (.bar2Read off len) s fun t => t = s) ∧
    (s.mgt.d3 = false → s.booted = true → s.recovering = false → s.mem.hcc = [] → a + len ≤ memBytes →
      Gives (.bar2Read off len) s fun t =>
        (∃ po, t.out = s.out ++ [.read po (s.devBytes a len)] ∧
          (po = true ↔ ∃ i, i < len ∧ s.devMark (a + i) = true)) ∧
        t.reg64 pHIF 0xF00 = s.reg64 pHIF 0xF00 + BitVec.ofNat 64 len ∧ (∀ b, t.devByte b = s.devByte b) ∧
        t = { s with out := t.out, regs := t.regs, mem := t.mem, pw := t.pw, free := t.free }) ∧
    (s.mgt.d3 = false → s.recovering = true → off.toNat + len ≤ poolBytes →
      Gives (.bar2Read off len) s fun t =>
        t.out = s.out ++ [.read false (sgets 0 s.mem.pool off.toNat len)] ∧ t = { s with out := t.out, regs := t.regs })) ∧
  (∀ (off : BitVec 36) (bs : List Byte) (ep : Bool) (s : State),
    let a := s.bar2Addr off
    (s.mgt.d3 = true → Gives (.bar2Write off bs ep) s fun t => t = s) ∧
    (s.mgt.d3 = false → s.booted = true → s.recovering = false → s.mem.hcc = [] → a + bs.length ≤ memBytes →
      Gives (.bar2Write off bs ep) s fun t =>
        (∀ b, t.devByte b = if a ≤ b ∧ b < a + bs.length then bs.getD (b - a) 0 else s.devByte b) ∧
        (ep = true → ∀ i, i < bs.length → t.devMark (a + i) = true) ∧
        t.reg64 pHIF 0xF08 = s.reg64 pHIF 0xF08 + BitVec.ofNat 64 bs.length ∧
        t.reg64 pHIF 0xF20 = s.reg64 pHIF 0xF20 + (if ep then 1 else 0) ∧
        t = { s with regs := t.regs, mem := t.mem, pw := t.pw, free := t.free }) ∧
    (s.mgt.d3 = false → s.recovering = true → off.toNat + bs.length ≤ poolBytes →
      Gives (.bar2Write off bs ep) s fun t =>
        (∀ b, sget 0 t.mem.pool b = if off.toNat ≤ b ∧ b < off.toNat + bs.length then bs.getD (b - off.toNat) 0
          else sget 0 s.mem.pool b) ∧
        t = { s with regs := t.regs, mem := { s.mem with pool := t.mem.pool } })) ∧
  (∀ s : State,
    (Gives .pcieLinkDown s fun t =>
      bit (t.reg pHIF 0x800) 9 = false ∧ t.busMaster = false ∧ t.mgt = { s.mgt with d3 := false } ∧
      (∀ v, v < 256 → t.msixMask.getLsbD v = true) ∧ t.reg64 pHIF 0xF30 = s.reg64 pHIF 0xF30 + 1 ∧
      bit (t.page pHIF).evt 16 = true ∧ ({ s with mgt := t.mgt, msixMask := t.msixMask } : State).noted t) ∧
    (Gives .busMasterEnable s fun t =>
      t.busMaster = true ∧ bit (t.reg pHIF 0x800) 9 = true ∧
      (s.mgt.d3 = false → t.out = s.out ++ s.dmaWait ∧ t.dmaWait = []) ∧
      (s.mgt.d3 = true → t.out = s.out ∧ t.dmaWait = s.dmaWait) ∧
      t = { s with regs := t.regs, out := t.out, dmaWait := t.dmaWait, free := t.free }) ∧
    (Gives (.pcieD3hot true) s fun t => t = { s with mgt := { s.mgt with d3 := true } }) ∧
    (Gives (.pcieD3hot false) s fun t =>
      t.mgt = { s.mgt with d3 := false } ∧ (s.busMaster = true → t.out = s.out ++ s.dmaWait ∧ t.dmaWait = []) ∧
      (s.busMaster = false → t.out = s.out ∧ t.dmaWait = s.dmaWait) ∧
      t = { s with mgt := t.mgt, out := t.out, dmaWait := t.dmaWait }))

/-- REG_READ and REG_WRITE on an aligned offset of the 64 MiB do what the same access by management does, and answer OK;
on any other they answer DESC_INVALID and access nothing; a message whose PEC fails is counted and discarded, a
write without PEC is discarded where PEC_REQ asks for one. Each block read sends its bytes; GET_LOG latches its slot
in its own latch. ALERT_RESPONSE answers while the alert is asserted. PMBUS_POLL of one VALID linear rail takes its
readings, marks a NACKed rail STALE and one that is not linear invalid, and ends a trim under way on it.
MGT_PMB_TRIM is refused with BOUND or BUSY, and otherwise commands the voltage. A third lost retry ends a
transaction. FATAL_OUT ends once no FATAL error waits for its reset. A test instruction takes PCI Express down and
every link to TEST, and its end lets them train. (R611, R612, R613, R614, R615, R616, R617, R618, R619, R620, R625,
R626) -/
def Obligations.Management : Prop :=
  let served (s t : State) (code : Nat) (st : BitVec 16) : Prop :=
    t.reg64 pMGT 0xF00 = s.reg64 pMGT 0xF00 + 1 ∧ t.reg pMGT 0x804 = BitVec.ofNat 32 (code + st.toNat * 2 ^ 8)
  let reads (i : Instr) (code : Nat) (bs : State → List Byte) : Prop := ∀ s : State,
    Gives i s fun t => t.out = s.out ++ [.smbus (bs s)] ∧ served s t code stOK ∧ t = { s with out := t.out, regs := t.regs }
  let discarded (i : Instr) (s : State) : Prop :=
    Gives i s fun t => t.reg64 pMGT 0xF08 = s.reg64 pMGT 0xF08 + 1 ∧ t = { s with regs := t.regs }
  let word (s : State) (p o : Nat) : List Byte := leBytes 4 (s.reg p o).toNat
  (∀ (off v : Word32) (pec : Pec) (s : State),
    (pec = .bad → discarded (.regRead off pec) s ∧ discarded (.regWrite off v pec) s) ∧
    (pec = .absent → bit (s.reg pMGT 0x100) 0 = true → Gives (.regWrite off v pec) s fun t => t = s) ∧
    (∀ u, pec ≠ .bad → off.toNat % 4 = 0 → off.toNat < 0x4000000 →
      exec (.lowWordRead .mgmt (off.setWidth 26)) s = .next u →
      Gives (.regRead off pec) s fun t =>
        t.out = u.out ++ [.smbus (leBytes 2 stOK.toNat ++ leBytes 4 u.rdMgmt.toNat)] ∧ served u t 0x01 stOK ∧
        t = { u with out := t.out, regs := t.regs }) ∧
    (pec ≠ .bad → (off.toNat % 4 ≠ 0 ∨ 0x4000000 ≤ off.toNat) →
      Gives (.regRead off pec) s fun t =>
        (∃ bs, t.out = s.out ++ [.smbus (leBytes 2 stDESC_INVALID.toNat ++ bs)] ∧ bs.length = 4) ∧
        served s t 0x01 stDESC_INVALID ∧ t = { s with out := t.out, regs := t.regs, free := t.free }) ∧
    (∀ u, (pec = .good ∨ (pec = .absent ∧ bit (s.reg pMGT 0x100) 0 = false)) → off.toNat % 4 = 0 →
      off.toNat < 0x4000000 → exec (.registerWrite .mgmt (off.setWidth 26) v false) s = .next u →
      Gives (.regWrite off v pec) s fun t => served u t 0x02 stOK ∧ t = { u with regs := t.regs }) ∧
    ((pec = .good ∨ (pec = .absent ∧ bit (s.reg pMGT 0x100) 0 = false)) → (off.toNat % 4 ≠ 0 ∨ 0x4000000 ≤ off.toNat) →
      Gives (.regWrite off v pec) s fun t => served s t 0x02 stDESC_INVALID ∧ t = { s with regs := t.regs })) ∧
  reads .getStatus 0x03 (fun s => [BitVec.ofNat 8 (fld (s.reg pMGT 0x804) 0 8)] ++ leBytes 2 (fld (s.reg pMGT 0x804) 8 16)) ∧
  reads .getIdent 0x10 (fun s =>
    let f (w : Nat) : Nat := if s.nv.sensed then (s.fuse w).toNat else 0
    leBytes 4 (f 25) ++ leBytes 4 (f 26) ++ [BitVec.ofNat 8 (f 24 % 4), Config.stepping.setWidth 8,
      BitVec.ofNat 8 (fld (s.reg pAON 0x89C) 0 7), 0] ++ word s pAON 0x898 ++ word s pAON 0x890) ∧
  reads .getThermal 0x11 (fun s =>
    [BitVec.ofNat 8 (fld (s.reg pTEL 0x808) 0 8), BitVec.ofNat 8 (fld (s.reg pTEL 0x808) 8 8)]
      ++ (List.range 8).map (fun k => if s.domOn (dMem k) then BitVec.ofNat 8 (s.stack k).temp else 0xFF)) ∧
  reads .getPower 0x12 (fun s => (List.range 8).flatMap (fun n =>
    leBytes 2 (fld (s.reg pMGT (0x880 + 8 * n)) 0 16) ++ leBytes 2 (fld (s.reg pMGT (0x884 + 8 * n)) 0 16))) ∧
  reads .getReset 0x14 (fun s => word s pAON 0x880 ++ word s pAON 0x88C ++ word s pAON 0x884 ++ word s pAON 0x888) ∧
  (∀ (slot : BitVec 16) (pec : Pec) (s : State),
    (pec = .bad → discarded (.getLog slot pec) s) ∧
    (pec ≠ .bad → slot.toNat < 1024 →
      Gives (.getLog slot pec) s fun t =>
        let e := sget ({} : LogEntry) s.log.ring slot.toNat
        t.log = { s.log with smbLatch := e } ∧ t.out = s.out ++ [.smbus (leBytes 2 stOK.toNat ++ e.bytes)] ∧
        served s t 0x13 stOK ∧ t = { s with log := t.log, out := t.out, regs := t.regs }) ∧
    (pec ≠ .bad → 1024 ≤ slot.toNat →
      Gives (.getLog slot pec) s fun t =>
        (∃ bs, t.out = s.out ++ [.smbus (leBytes 2 stBOUND.toNat ++ bs)] ∧ bs.length = 32) ∧ served s t 0x13 stBOUND ∧
        t = { s with out := t.out, regs := t.regs, free := t.free })) ∧
  (∀ s : State,
    (Gives .smbusTimeout s fun t => t.reg64 pMGT 0xF10 = s.reg64 pMGT 0xF10 + 1 ∧ t = { s with regs := t.regs }) ∧
    (bit (s.reg pMGT 0x100) 1 = true → s.reg pERR 0x8E0 ≠ 0 →
      Gives .alertResponse s fun t =>
        t = { s with out := s.out ++ [.smbus [BitVec.ofNat 8 (2 * fld (s.reg pMGT 0x800) 0 7)]] }) ∧
    ((bit (s.reg pMGT 0x100) 1 = false ∨ s.reg pERR 0x8E0 = 0) → Gives .alertResponse s fun t => t = s)) ∧
  (∀ (r : RailReading) (s : State),
    let n := r.rail.val
    let p := 0x880 + 8 * n
    let cost : Word64 := if bit (s.reg pMGT (0x110 + 4 * n)) 16 then 4 else 3
    let ends (t : State) (st : BitVec 16) : Prop :=
      if s.mgt.trim = some r.rail then t.mgt = { s.mgt with trim := none } ∧ t.reg pMGT 0x904 = BitVec.ofNat 32 (st.toNat * 2 ^ 16)
      else t.mgt = s.mgt ∧ t.reg pMGT 0x904 = s.reg pMGT 0x904
    (bit (s.reg pMGT (0x110 + 4 * n)) 31 = true → s.mgt.badRails.getLsbD n = false → fld (s.reg pMGT 0x104) 8 8 ≠ 0 →
      (r.linear = true → r.nacked = false →
        Gives (.pmbusPoll [r]) s fun t =>
          t.reg pMGT p = BitVec.ofNat 32 (r.voutMv.toNat + r.tempC.toNat * 2 ^ 16 + 2 ^ 31) ∧
          t.reg pMGT (p + 4) = BitVec.ofNat 32 r.iout.toNat ∧ ends t stOK ∧
          t.reg64 pMGT 0xF18 = s.reg64 pMGT 0xF18 + cost ∧ t = { s with regs := t.regs, mgt := t.mgt }) ∧
      (r.linear = true → r.nacked = true →
        Gives (.pmbusPoll [r]) s fun t =>
          t.reg pMGT p = setBit (s.reg pMGT p) 30 true ∧ t.reg pMGT (p + 4) = s.reg pMGT (p + 4) ∧ ends t stABORTED ∧
          t.reg64 pMGT 0xF28 = s.reg64 pMGT 0xF28 + 1 ∧ bit (t.page pMGT).evt 16 = true ∧
          ({ s with mgt := t.mgt } : State).noted t) ∧
      (r.linear = false →
        Gives (.pmbusPoll [r]) s fun t =>
          t.mgt.badRails.getLsbD n = true ∧ bit (t.reg pMGT p) 31 = false ∧
          (∀ k, k ≠ n → t.mgt.badRails.getLsbD k = s.mgt.badRails.getLsbD k) ∧
          t = { s with regs := t.regs, mgt := { s.mgt with badRails := t.mgt.badRails } })) ∧
    ((bit (s.reg pMGT (0x110 + 4 * n)) 31 = false ∨ s.mgt.badRails.getLsbD n = true) →
      Gives (.pmbusPoll [r]) s fun t => t = s)) ∧
  (∀ (r : Requester) (v : Word32) (s : State), s.admits r pMGT 0x900 = true →
    let rail : Fin 8 := ⟨fld v 0 3, Nat.mod_lt _ (by decide)⟩
    let mv := fld v 16 16
    let lim := s.reg pMGT (0x130 + 4 * rail.val)
    let bound : Prop := mv < fld lim 0 16 ∨ fld lim 16 16 < mv
    (bound → Gives (.mgtPmbTrim r v) s fun t =>
      fld (t.reg pMGT 0x904) 16 16 = stBOUND.toNat ∧ t = { s with regs := t.regs, pages := t.pages }) ∧
    (¬ bound → s.mgt.trim.isSome = true → Gives (.mgtPmbTrim r v) s fun t =>
      fld (t.reg pMGT 0x904) 16 16 = stBUSY.toNat ∧ t = { s with regs := t.regs, pages := t.pages }) ∧
    (¬ bound → s.mgt.trim = none → s.railOk rail = true →
      Gives (.mgtPmbTrim r v) s fun t =>
        t.mgt = { s.mgt with trim := some rail } ∧ t.reg pMGT 0x904 = 1 ∧
        t.out = s.out ++ [.pmbusWrite rail (BitVec.ofNat 16 mv)] ∧
        t = { s with regs := t.regs, pages := t.pages, mgt := t.mgt, out := t.out })) ∧
  (∀ (rail : Fin 8) (k : Fin 4) (s : State), s.mgt.trim = some rail →
    (k.val < 3 → Gives (.pmbusArbLost true rail k) s fun t =>
      t.reg64 pMGT 0xF20 = s.reg64 pMGT 0xF20 + BitVec.ofNat 64 (k.val + 1) ∧ t = { s with regs := t.regs }) ∧
    (k.val = 3 → Gives (.pmbusArbLost true rail k) s fun t =>
      t.mgt = { s.mgt with trim := none } ∧ t.reg pMGT 0x904 = BitVec.ofNat 32 (stPMBUS_ARB_LOST.toNat * 2 ^ 16) ∧
      t.reg64 pMGT 0xF28 = s.reg64 pMGT 0xF28 + 1 ∧ t.reg64 pERR 0xF00 = s.reg64 pERR 0xF00 + 1 ∧
      ({ s with mgt := t.mgt } : State).noted t)) ∧
  (∀ (rail : Fin 8) (s : State), s.railOk rail = true → fld (s.reg pMGT 0x104) 8 8 ≠ 0 →
    Gives (.pmbusArbLost false rail 3) s fun t =>
      t.reg pMGT (0x880 + 8 * rail.val) = setBit (s.reg pMGT (0x880 + 8 * rail.val)) 30 true ∧ t.mgt = s.mgt ∧
      t.reg64 pMGT 0xF28 = s.reg64 pMGT 0xF28 + 1 ∧ s.noted t) ∧
  (∀ s : State,
    (s.mgt.fatalPin = true → s.log.fatal = false →
      Gives .fatalOutRelease s fun t =>
        t.mgt = { s.mgt with fatalPin := false } ∧ t.gpio 1 = 0 ∧ t.out = s.out ++ [.fatalOut false] ∧
        t = { s with mgt := t.mgt, regs := t.regs, out := t.out }) ∧
    ((s.mgt.fatalPin = false ∨ s.log.fatal = true) → Gives .fatalOutRelease s fun t => t = s)) ∧
  (∀ (c : Byte) (s : State),
    (c.toNat ∈ [0, 3, 4, 5, 6] → s.mgt.jtag = false →
      Gives (.jtagTestInstr c) s fun t =>
        t.mgt.jtag = true ∧ bit (t.reg pHIF 0x800) 9 = false ∧ t.busMaster = false ∧
        (∀ l : LinkId, (t.link l).state = .test)) ∧
    (c.toNat ∈ [0, 3, 4, 5, 6] → Gives (.jtagTestExit c) s fun t => t = s) ∧
    (c.toNat ∉ [0, 3, 4, 5, 6] → Gives (.jtagTestInstr c) s fun t => t = s) ∧
    (c.toNat ∉ [0, 3, 4, 5, 6] → s.mgt.jtag = true →
      Gives (.jtagTestExit c) s fun t =>
        t.mgt = { s.mgt with jtag := false } ∧ bit (t.reg pHIF 0x800) 9 = true ∧ ∀ l : LinkId, (t.link l).state ≠ .test))

/-- A GPIO_CLAIM of an owner code: on a free pin, with an owner code of the writer's range and a FUNC that the pin
offers, it claims the pin and sets its function; on a claimed pin it is refused with CLAIM_CONFLICT and the first
owner keeps the pin; on a free pin a FUNC not offered or an owner code of another range is refused with DENIED; the
writer's MGT_GPIO_RESULT holds the outcome. GPIO_RELEASE by the claimer frees the pin, which then drives nothing; by
anyone else it changes nothing. MGT_GPIO_OUT changes exactly the pins that the writer holds as GP_OUT. The premise
on GPIO1 leaves out only the 10 ms of R620 in which FATAL_OUT keeps driving it (DEDUCED, log entry 53). (R622, R623) -/
def Obligations.GpioClaims : Prop :=
  let result (t : State) (r : Requester) : Word32 := if r = .host then t.mgt.gpioHost else t.mgt.gpioMgmt
  let own (r : Requester) (c : Nat) : Prop := if r = .host then 1 ≤ c ∧ c ≤ 0x3F else 0x40 ≤ c ∧ c ≤ 0x7F
  let otherPins (s t : State) (n : Nat) : Prop := ∀ m, m < 16 → m ≠ n → t.gpio m = s.gpio m
  (∀ (r : Requester) (n : Fin 16) (v : Word32) (s : State), s.admits r pMGT (0x810 + 4 * n.val) = true → fld v 0 8 ≠ 0 →
    ¬ (n.val = 1 ∧ s.mgt.fatalPin = true) →
    (fld (s.gpio n) 0 8 = 0 → own r (fld v 0 8) → gpioOffers n (fld v 8 3) = true →
      Gives (.gpioClaim r n v) s fun t =>
        fld (t.gpio n) 0 8 = fld v 0 8 ∧ fld (t.gpio n) 8 3 = fld v 8 3 ∧ otherPins s t n ∧
        result t r = BitVec.ofNat 32 (n.val + stOK.toNat * 2 ^ 16) ∧
        t = { s with regs := t.regs, pages := t.pages, mgt := t.mgt }) ∧
    (fld (s.gpio n) 0 8 ≠ 0 →
      Gives (.gpioClaim r n v) s fun t =>
        t.gpio n = s.gpio n ∧ otherPins s t n ∧ result t r = BitVec.ofNat 32 (n.val + stCLAIM_CONFLICT.toNat * 2 ^ 16) ∧
        ({ s with mgt := t.mgt } : State).noted t) ∧
    (fld (s.gpio n) 0 8 = 0 → (¬ own r (fld v 0 8) ∨ gpioOffers n (fld v 8 3) = false) →
      Gives (.gpioClaim r n v) s fun t =>
        t.gpio n = s.gpio n ∧ otherPins s t n ∧ result t r = BitVec.ofNat 32 (n.val + stDENIED.toNat * 2 ^ 16) ∧
        ({ s with mgt := t.mgt } : State).noted t)) ∧
  (∀ (r : Requester) (n : Fin 16) (s : State), s.admits r pMGT (0x810 + 4 * n.val) = true →
    (own r (fld (s.gpio n) 0 8) → ¬ (n.val = 1 ∧ s.mgt.fatalPin = true ∧ s.log.fatal = false) →
      Gives (.gpioRelease r n) s fun t =>
        t.gpio n = 0 ∧ t.gpioDrive n = none ∧ bit (t.reg pMGT 0x854) n = false ∧ otherPins s t n ∧
        (∀ m, m < 16 → m ≠ n.val → bit (t.reg pMGT 0x854) m = bit (s.reg pMGT 0x854) m)) ∧
    (¬ own r (fld (s.gpio n) 0 8) → Gives (.gpioRelease r n) s fun t => t = { s with pages := t.pages })) ∧
  (∀ (r : Requester) (v : Word32) (s : State), s.admits r pMGT 0x854 = true →
    Gives (.mgtGpioOut r v) s fun t =>
      (∀ n, n < 16 → bit (t.reg pMGT 0x854) n =
        if own r (fld (s.gpio n) 0 8) ∧ fld (s.gpio n) 8 3 = 1 then bit v n else bit (s.reg pMGT 0x854) n) ∧
      (∀ n, n < 16 → t.gpio n = s.gpio n) ∧ t = { s with regs := t.regs, pages := t.pages })

/-- The anti-rollback count is the number of 1 bits in fuse words 44 and 45, and for every state s and every command, if
a step at s answers a next state t: every fuse bit that is 1 in s is 1 in t; the count of t is at least that of s;
and where it is higher, a programming of word 44 or 45 was under way or waiting in the NV-write unit at s, or is one
of the register writes that the step itself applies from the flash's NV configuration (a write of FUS_PROG_CMD whose
programming a reset in the same boot completes). (R110, R111) -/
def Obligations.AntiRollbackCount : Prop :=
  (∀ s : State, s.antiRollback =
    ((List.range 32).filter (fun i => (s.fuse 44).getLsbD i)).length + ((List.range 32).filter (fun i => (s.fuse 45).getLsbD i)).length) ∧
  (∀ s t : State, step s = .next t →
    (∀ w i, (s.fuse w).getLsbD i = true → (t.fuse w).getLsbD i = true) ∧
    s.antiRollback ≤ t.antiRollback ∧
    (t.antiRollback ≠ s.antiRollback →
      (∃ w v, (w.toNat = 44 ∨ w.toNat = 45) ∧ .fuse w v ∈ s.nv.op.toList ++ s.nv.queue) ∨
      (∃ e ∈ s.nvEntries, e.1 % 0x4000000 = pFUS * 4096 + 0xA08 ∧ e.2 = 0x46555345)))

/-- For every state s whose device memory, poison marks, pool, pool marks, flash and fuses are in canonical form
(addresses strictly rising, no entry equal to what an unlisted address reads as: DESIGN CHOICE, log entry 3), if a
step at s answers a next state t, then those of t are in canonical form too; and whatever s is, the commands that
wait in t are those of s without the one at the front (the queue is the model's own, DESIGN CHOICE, log entries 1
and 2). (04_reset_boot.md, 09_stacked_memory.md, 10_tiers_quotas.md) -/
def Obligations.StepKeepsMemoryForm : Prop :=
  (∀ s t : State, step s = .next t → s.memoryWf = true → t.memoryWf = true) ∧
  (∀ s t : State, step s = .next t → t.pending = s.pending.tail)

/-- At every state a step answers a next state, unless the command at the front is a MEM_READ or MEM_WRITE of a device
address at or above 768 GiB, where it answers the fault outsideMemory; no step answers a refusal. (R254,
09_stacked_memory.md, 95_what_each_step_holds.md) -/
def Obligations.StepsNeverStop : Prop :=
  ∀ s : State,
    let outside : Prop := ∃ (a : MemAccess) (rest : List Instr), 768 * 2 ^ 30 ≤ a.addr.toNat ∧
      (s.pending = .memRead a :: rest ∨ ∃ d p, s.pending = .memWrite a d p :: rest)
    (outside → step s = .fault .outsideMemory) ∧ (¬ outside → Safe s) ∧ ∀ x, step s ≠ .refused x
end

