-- ==== Sys2Proof/Laws/SMap.lean ====
section
/-! SUPPORT. Laws of sparse maps: a read after a write, and the canonical form, which every operation keeps. -/

namespace Sys2Proof.Machine

variable {α : Type}

@[simp] theorem sget_nil (d : α) (k : Nat) : sget d [] k = d := rfl

theorem sget_serase_same (d : α) (m : SMap α) (k : Nat) : sget d (serase m k) k = d := by
  induction m with
  | nil => rfl
  | cons e m ih => simp only [serase]; split <;> simp_all [sget]

theorem sget_serase_ne (d : α) (m : SMap α) {k q : Nat} (h : q ≠ k) : sget d (serase m k) q = sget d m q := by
  induction m with
  | nil => rfl
  | cons e m ih =>
    simp only [serase, sget]
    split
    · rw [ih, if_neg (by omega)]
    · simp only [sget, ih]

theorem sget_sins_same (d : α) (m : SMap α) (k : Nat) (v : α) (h : sget d m k = d ∨ ∀ e ∈ m, e.1 ≠ k) (hk : ∀ e ∈ m, e.1 ≠ k) :
    sget d (sins k v m) k = v := by
  induction m with
  | nil => simp [sins, sget]
  | cons e m ih =>
    have he : e.1 ≠ k := hk e (by simp)
    simp only [sins]
    split
    · simp [sget]
    · simp only [sget, if_neg he]
      exact ih (.inr fun x hx => hk x (by simp [hx])) fun x hx => hk x (by simp [hx])

theorem sget_sins_ne (d : α) (m : SMap α) {k q : Nat} (v : α) (h : q ≠ k) : sget d (sins k v m) q = sget d m q := by
  induction m with
  | nil => simp [sins, sget]; omega
  | cons e m ih =>
    simp only [sins]
    split
    · simp only [sget]; rw [if_neg (by omega)]
    · simp only [sget, ih]

theorem serase_key_ne (m : SMap α) (k : Nat) : ∀ e ∈ serase m k, e.1 ≠ k := by
  induction m with
  | nil => simp [serase]
  | cons a m ih =>
    simp only [serase]
    split
    · exact ih
    · intro e he
      rcases List.mem_cons.1 he with rfl | he
      · assumption
      · exact ih e he

/-- A read after a write to the same key gives the value written. -/
@[simp] theorem sget_sset_same [DecidableEq α] (d : α) (m : SMap α) (k : Nat) (v : α) : sget d (sset d m k v) k = v := by
  unfold sset
  split
  · subst_vars; exact sget_serase_same ..
  · exact sget_sins_same d _ k v (.inr (serase_key_ne m k)) (serase_key_ne m k)

/-- A write leaves every other key alone. -/
theorem sget_sset_ne [DecidableEq α] (d : α) (m : SMap α) {k q : Nat} (v : α) (h : q ≠ k) :
    sget d (sset d m k v) q = sget d m q := by
  unfold sset
  split
  · exact sget_serase_ne d m h
  · rw [sget_sins_ne d _ v h, sget_serase_ne d m h]

/-- A write leaves what reads with another default alone, too. -/
theorem sget_sset_ne' [DecidableEq α] (d d' : α) (m : SMap α) {k q : Nat} (v : α) (h : q ≠ k) :
    sget d' (sset d m k v) q = sget d' m q := by
  unfold sset
  split
  · exact sget_serase_ne d' m h
  · rw [sget_sins_ne d' _ v h, sget_serase_ne d' m h]

theorem sget_sset [DecidableEq α] (d : α) (m : SMap α) (k q : Nat) (v : α) :
    sget d (sset d m k v) q = if q = k then v else sget d m q := by
  split
  · subst_vars; simp
  · exact sget_sset_ne d m v ‹_›

@[simp] theorem sget_smod_same [DecidableEq α] (d : α) (m : SMap α) (k : Nat) (f : α → α) :
    sget d (smod d m k f) k = f (sget d m k) := by simp [smod]

theorem sget_smod_ne [DecidableEq α] (d : α) (m : SMap α) {k q : Nat} (f : α → α) (h : q ≠ k) :
    sget d (smod d m k f) q = sget d m q := sget_sset_ne d m _ h

theorem sget_smod [DecidableEq α] (d : α) (m : SMap α) (k q : Nat) (f : α → α) :
    sget d (smod d m k f) q = if q = k then f (sget d m k) else sget d m q := sget_sset d m k q _

/-! ### The canonical form -/

theorem swfFrom_mono [DecidableEq α] {d : Nat → α} {m : SMap α} {lo : Option Nat} (h : swfFrom d lo m = true) :
    swfFrom d none m = true := by
  cases m with
  | nil => rfl
  | cons e m => simp only [swfFrom, Bool.and_eq_true] at h ⊢; exact ⟨⟨trivial, h.1.2⟩, h.2⟩

/-- The keys of a canonical map lie above its bound. -/
theorem swfFrom_lt [DecidableEq α] {d : Nat → α} {m : SMap α} {lo : Nat} (h : swfFrom d (some lo) m = true) :
    ∀ e ∈ m, lo < e.1 := by
  induction m generalizing lo with
  | nil => simp
  | cons a m ih =>
    simp only [swfFrom, Bool.and_eq_true, decide_eq_true_eq] at h
    intro e he
    rcases List.mem_cons.1 he with rfl | he
    · exact h.1.1
    · exact lt_trans h.1.1 (ih h.2 e he)

theorem swfFrom_weaken [DecidableEq α] {d : Nat → α} {m : SMap α} {lo : Nat} {b : Option Nat}
    (h : swfFrom d (some lo) m = true) (hb : ∀ l, b = some l → l ≤ lo) : swfFrom d b m = true := by
  cases m with
  | nil => rfl
  | cons a m =>
    simp only [swfFrom, Bool.and_eq_true, decide_eq_true_eq] at h ⊢
    refine ⟨⟨?_, h.1.2⟩, h.2⟩
    cases b with
    | none => rfl
    | some l => have := hb l rfl; simp; omega

theorem swfFrom_filter [DecidableEq α] {d : Nat → α} {m : SMap α} {lo : Option Nat} (p : Nat × α → Bool)
    (h : swfFrom d lo m = true) : swfFrom d lo (m.filter p) = true := by
  induction m generalizing lo with
  | nil => rfl
  | cons a m ih =>
    simp only [swfFrom, Bool.and_eq_true] at h
    by_cases hp : p a
    · simp only [List.filter_cons, hp, if_true, swfFrom, Bool.and_eq_true]
      exact ⟨h.1, ih h.2⟩
    · simp only [List.filter_cons, hp]
      refine swfFrom_weaken (ih h.2) ?_
      rintro l rfl
      have := h.1.1; simp at this; omega

/-- Leaving entries out keeps the canonical form. -/
theorem swf_filter [DecidableEq α] {d : Nat → α} {m : SMap α} (p : Nat × α → Bool) (h : swf d m = true) :
    swf d (m.filter p) = true := swfFrom_filter p h

theorem serase_eq_filter (m : SMap α) (k : Nat) : serase m k = m.filter (fun e => e.1 != k) := by
  induction m with
  | nil => rfl
  | cons a m ih =>
    simp only [serase, List.filter_cons, bne_iff_ne]
    split <;> simp_all

theorem swf_serase [DecidableEq α] {d : Nat → α} {m : SMap α} (k : Nat) (h : swf d m = true) :
    swf d (serase m k) = true := by rw [serase_eq_filter]; exact swf_filter _ h

theorem swfFrom_sins [DecidableEq α] {d : Nat → α} {m : SMap α} {lo : Option Nat} {k : Nat} {v : α}
    (h : swfFrom d lo m = true) (hv : v ≠ d k) (hk : ∀ e ∈ m, e.1 ≠ k) (hlo : ∀ l, lo = some l → l < k) :
    swfFrom d lo (sins k v m) = true := by
  induction m generalizing lo with
  | nil => cases lo <;> simp_all [sins, swfFrom]
  | cons a m ih =>
    have ha := hk a (by simp)
    have hm : ∀ e ∈ m, e.1 ≠ k := fun e he => hk e (by simp [he])
    simp only [swfFrom, Bool.and_eq_true] at h
    simp only [sins]
    split
    · have hka : k < a.1 := ‹_›
      cases lo <;> simp_all [swfFrom]
    · have hak : a.1 < k := by omega
      have := ih h.2 hm (by rintro l ⟨⟩; exact hak)
      simp only [swfFrom, Bool.and_eq_true]
      exact ⟨h.1, this⟩

/-- A write keeps the canonical form. -/
theorem swf_sset [DecidableEq α] {d : Nat → α} {m : SMap α} (k : Nat) (v : α) (h : swf d m = true) :
    swf d (sset (d k) m k v) = true := by
  unfold sset
  split
  · exact swf_serase k h
  · exact swfFrom_sins (swf_serase k h) ‹_› (serase_key_ne m k) (by simp)

theorem swf_smod [DecidableEq α] {d : Nat → α} {m : SMap α} (k : Nat) (f : α → α) (h : swf d m = true) :
    swf d (smod (d k) m k f) = true := swf_sset k _ h

/-- A run of writes keeps the canonical form. -/
theorem swf_ssets [DecidableEq α] {d : α} {m : SMap α} (k : Nat) (vs : List α) (h : swf (fun _ => d) m = true) :
    swf (fun _ => d) (ssets d m k vs) = true := by
  induction vs generalizing m k with
  | nil => exact h
  | cons v vs ih => exact ih (k + 1) (swf_sset (d := fun _ => d) k v h)

end Sys2Proof.Machine
end

