-- ==== Sys2Proof/Laws/State.lean ====
section
/-! SUPPORT. What the plain updates of State leave as it was: one lemma per update and field. -/

namespace Sys2Proof.Machine

/-! `State.setReg` writes `regs` and nothing else. -/

@[simp] theorem State.setReg_pending (s : State) (p o : Nat) (v : Word32) : (s.setReg p o v).pending = s.pending := rfl
@[simp] theorem State.setReg_out (s : State) (p o : Nat) (v : Word32) : (s.setReg p o v).out = s.out := rfl
@[simp] theorem State.setReg_dmaWait (s : State) (p o : Nat) (v : Word32) : (s.setReg p o v).dmaWait = s.dmaWait := rfl
@[simp] theorem State.setReg_free (s : State) (p o : Nat) (v : Word32) : (s.setReg p o v).free = s.free := rfl
@[simp] theorem State.setReg_rdHost (s : State) (p o : Nat) (v : Word32) : (s.setReg p o v).rdHost = s.rdHost := rfl
@[simp] theorem State.setReg_rdMgmt (s : State) (p o : Nat) (v : Word32) : (s.setReg p o v).rdMgmt = s.rdMgmt := rfl
@[simp] theorem State.setReg_deferred (s : State) (p o : Nat) (v : Word32) : (s.setReg p o v).deferred = s.deferred := rfl
@[simp] theorem State.setReg_pages (s : State) (p o : Nat) (v : Word32) : (s.setReg p o v).pages = s.pages := rfl
@[simp] theorem State.setReg_pw (s : State) (p o : Nat) (v : Word32) : (s.setReg p o v).pw = s.pw := rfl
@[simp] theorem State.setReg_nv (s : State) (p o : Nat) (v : Word32) : (s.setReg p o v).nv = s.nv := rfl
@[simp] theorem State.setReg_log (s : State) (p o : Nat) (v : Word32) : (s.setReg p o v).log = s.log := rfl
@[simp] theorem State.setReg_msixMask (s : State) (p o : Nat) (v : Word32) : (s.setReg p o v).msixMask = s.msixMask := rfl
@[simp] theorem State.setReg_msixPend (s : State) (p o : Nat) (v : Word32) : (s.setReg p o v).msixPend = s.msixPend := rfl
@[simp] theorem State.setReg_cores (s : State) (p o : Nat) (v : Word32) : (s.setReg p o v).cores = s.cores := rfl
@[simp] theorem State.setReg_arrs (s : State) (p o : Nat) (v : Word32) : (s.setReg p o v).arrs = s.arrs := rfl
@[simp] theorem State.setReg_clus (s : State) (p o : Nat) (v : Word32) : (s.setReg p o v).clus = s.clus := rfl
@[simp] theorem State.setReg_ctxs (s : State) (p o : Nat) (v : Word32) : (s.setReg p o v).ctxs = s.ctxs := rfl
@[simp] theorem State.setReg_locks (s : State) (p o : Nat) (v : Word32) : (s.setReg p o v).locks = s.locks := rfl
@[simp] theorem State.setReg_chk (s : State) (p o : Nat) (v : Word32) : (s.setReg p o v).chk = s.chk := rfl
@[simp] theorem State.setReg_links (s : State) (p o : Nat) (v : Word32) : (s.setReg p o v).links = s.links := rfl
@[simp] theorem State.setReg_fab (s : State) (p o : Nat) (v : Word32) : (s.setReg p o v).fab = s.fab := rfl
@[simp] theorem State.setReg_mem (s : State) (p o : Nat) (v : Word32) : (s.setReg p o v).mem = s.mem := rfl
@[simp] theorem State.setReg_tier (s : State) (p o : Nat) (v : Word32) : (s.setReg p o v).tier = s.tier := rfl
@[simp] theorem State.setReg_wpb (s : State) (p o : Nat) (v : Word32) : (s.setReg p o v).wpb = s.wpb := rfl
@[simp] theorem State.setReg_eps (s : State) (p o : Nat) (v : Word32) : (s.setReg p o v).eps = s.eps := rfl
@[simp] theorem State.setReg_anl (s : State) (p o : Nat) (v : Word32) : (s.setReg p o v).anl = s.anl := rfl
@[simp] theorem State.setReg_trn (s : State) (p o : Nat) (v : Word32) : (s.setReg p o v).trn = s.trn := rfl
@[simp] theorem State.setReg_clx (s : State) (p o : Nat) (v : Word32) : (s.setReg p o v).clx = s.clx := rfl
@[simp] theorem State.setReg_ques (s : State) (p o : Nat) (v : Word32) : (s.setReg p o v).ques = s.ques := rfl
@[simp] theorem State.setReg_mgt (s : State) (p o : Nat) (v : Word32) : (s.setReg p o v).mgt = s.mgt := rfl

/-! `State.setBreg` writes `regs` and nothing else. -/

@[simp] theorem State.setBreg_pending (s : State) (n p o : Nat) (v : Word32) : (s.setBreg n p o v).pending = s.pending := rfl
@[simp] theorem State.setBreg_out (s : State) (n p o : Nat) (v : Word32) : (s.setBreg n p o v).out = s.out := rfl
@[simp] theorem State.setBreg_dmaWait (s : State) (n p o : Nat) (v : Word32) : (s.setBreg n p o v).dmaWait = s.dmaWait := rfl
@[simp] theorem State.setBreg_free (s : State) (n p o : Nat) (v : Word32) : (s.setBreg n p o v).free = s.free := rfl
@[simp] theorem State.setBreg_rdHost (s : State) (n p o : Nat) (v : Word32) : (s.setBreg n p o v).rdHost = s.rdHost := rfl
@[simp] theorem State.setBreg_rdMgmt (s : State) (n p o : Nat) (v : Word32) : (s.setBreg n p o v).rdMgmt = s.rdMgmt := rfl
@[simp] theorem State.setBreg_deferred (s : State) (n p o : Nat) (v : Word32) : (s.setBreg n p o v).deferred = s.deferred := rfl
@[simp] theorem State.setBreg_pages (s : State) (n p o : Nat) (v : Word32) : (s.setBreg n p o v).pages = s.pages := rfl
@[simp] theorem State.setBreg_pw (s : State) (n p o : Nat) (v : Word32) : (s.setBreg n p o v).pw = s.pw := rfl
@[simp] theorem State.setBreg_nv (s : State) (n p o : Nat) (v : Word32) : (s.setBreg n p o v).nv = s.nv := rfl
@[simp] theorem State.setBreg_log (s : State) (n p o : Nat) (v : Word32) : (s.setBreg n p o v).log = s.log := rfl
@[simp] theorem State.setBreg_msixMask (s : State) (n p o : Nat) (v : Word32) : (s.setBreg n p o v).msixMask = s.msixMask := rfl
@[simp] theorem State.setBreg_msixPend (s : State) (n p o : Nat) (v : Word32) : (s.setBreg n p o v).msixPend = s.msixPend := rfl
@[simp] theorem State.setBreg_cores (s : State) (n p o : Nat) (v : Word32) : (s.setBreg n p o v).cores = s.cores := rfl
@[simp] theorem State.setBreg_arrs (s : State) (n p o : Nat) (v : Word32) : (s.setBreg n p o v).arrs = s.arrs := rfl
@[simp] theorem State.setBreg_clus (s : State) (n p o : Nat) (v : Word32) : (s.setBreg n p o v).clus = s.clus := rfl
@[simp] theorem State.setBreg_ctxs (s : State) (n p o : Nat) (v : Word32) : (s.setBreg n p o v).ctxs = s.ctxs := rfl
@[simp] theorem State.setBreg_locks (s : State) (n p o : Nat) (v : Word32) : (s.setBreg n p o v).locks = s.locks := rfl
@[simp] theorem State.setBreg_chk (s : State) (n p o : Nat) (v : Word32) : (s.setBreg n p o v).chk = s.chk := rfl
@[simp] theorem State.setBreg_links (s : State) (n p o : Nat) (v : Word32) : (s.setBreg n p o v).links = s.links := rfl
@[simp] theorem State.setBreg_fab (s : State) (n p o : Nat) (v : Word32) : (s.setBreg n p o v).fab = s.fab := rfl
@[simp] theorem State.setBreg_mem (s : State) (n p o : Nat) (v : Word32) : (s.setBreg n p o v).mem = s.mem := rfl
@[simp] theorem State.setBreg_tier (s : State) (n p o : Nat) (v : Word32) : (s.setBreg n p o v).tier = s.tier := rfl
@[simp] theorem State.setBreg_wpb (s : State) (n p o : Nat) (v : Word32) : (s.setBreg n p o v).wpb = s.wpb := rfl
@[simp] theorem State.setBreg_eps (s : State) (n p o : Nat) (v : Word32) : (s.setBreg n p o v).eps = s.eps := rfl
@[simp] theorem State.setBreg_anl (s : State) (n p o : Nat) (v : Word32) : (s.setBreg n p o v).anl = s.anl := rfl
@[simp] theorem State.setBreg_trn (s : State) (n p o : Nat) (v : Word32) : (s.setBreg n p o v).trn = s.trn := rfl
@[simp] theorem State.setBreg_clx (s : State) (n p o : Nat) (v : Word32) : (s.setBreg n p o v).clx = s.clx := rfl
@[simp] theorem State.setBreg_ques (s : State) (n p o : Nat) (v : Word32) : (s.setBreg n p o v).ques = s.ques := rfl
@[simp] theorem State.setBreg_mgt (s : State) (n p o : Nat) (v : Word32) : (s.setBreg n p o v).mgt = s.mgt := rfl

/-! `State.setReg64` writes `regs` and nothing else. -/

@[simp] theorem State.setReg64_pending (s : State) (p o : Nat) (v : Word64) : (s.setReg64 p o v).pending = s.pending := rfl
@[simp] theorem State.setReg64_out (s : State) (p o : Nat) (v : Word64) : (s.setReg64 p o v).out = s.out := rfl
@[simp] theorem State.setReg64_dmaWait (s : State) (p o : Nat) (v : Word64) : (s.setReg64 p o v).dmaWait = s.dmaWait := rfl
@[simp] theorem State.setReg64_free (s : State) (p o : Nat) (v : Word64) : (s.setReg64 p o v).free = s.free := rfl
@[simp] theorem State.setReg64_rdHost (s : State) (p o : Nat) (v : Word64) : (s.setReg64 p o v).rdHost = s.rdHost := rfl
@[simp] theorem State.setReg64_rdMgmt (s : State) (p o : Nat) (v : Word64) : (s.setReg64 p o v).rdMgmt = s.rdMgmt := rfl
@[simp] theorem State.setReg64_deferred (s : State) (p o : Nat) (v : Word64) : (s.setReg64 p o v).deferred = s.deferred := rfl
@[simp] theorem State.setReg64_pages (s : State) (p o : Nat) (v : Word64) : (s.setReg64 p o v).pages = s.pages := rfl
@[simp] theorem State.setReg64_pw (s : State) (p o : Nat) (v : Word64) : (s.setReg64 p o v).pw = s.pw := rfl
@[simp] theorem State.setReg64_nv (s : State) (p o : Nat) (v : Word64) : (s.setReg64 p o v).nv = s.nv := rfl
@[simp] theorem State.setReg64_log (s : State) (p o : Nat) (v : Word64) : (s.setReg64 p o v).log = s.log := rfl
@[simp] theorem State.setReg64_msixMask (s : State) (p o : Nat) (v : Word64) : (s.setReg64 p o v).msixMask = s.msixMask := rfl
@[simp] theorem State.setReg64_msixPend (s : State) (p o : Nat) (v : Word64) : (s.setReg64 p o v).msixPend = s.msixPend := rfl
@[simp] theorem State.setReg64_cores (s : State) (p o : Nat) (v : Word64) : (s.setReg64 p o v).cores = s.cores := rfl
@[simp] theorem State.setReg64_arrs (s : State) (p o : Nat) (v : Word64) : (s.setReg64 p o v).arrs = s.arrs := rfl
@[simp] theorem State.setReg64_clus (s : State) (p o : Nat) (v : Word64) : (s.setReg64 p o v).clus = s.clus := rfl
@[simp] theorem State.setReg64_ctxs (s : State) (p o : Nat) (v : Word64) : (s.setReg64 p o v).ctxs = s.ctxs := rfl
@[simp] theorem State.setReg64_locks (s : State) (p o : Nat) (v : Word64) : (s.setReg64 p o v).locks = s.locks := rfl
@[simp] theorem State.setReg64_chk (s : State) (p o : Nat) (v : Word64) : (s.setReg64 p o v).chk = s.chk := rfl
@[simp] theorem State.setReg64_links (s : State) (p o : Nat) (v : Word64) : (s.setReg64 p o v).links = s.links := rfl
@[simp] theorem State.setReg64_fab (s : State) (p o : Nat) (v : Word64) : (s.setReg64 p o v).fab = s.fab := rfl
@[simp] theorem State.setReg64_mem (s : State) (p o : Nat) (v : Word64) : (s.setReg64 p o v).mem = s.mem := rfl
@[simp] theorem State.setReg64_tier (s : State) (p o : Nat) (v : Word64) : (s.setReg64 p o v).tier = s.tier := rfl
@[simp] theorem State.setReg64_wpb (s : State) (p o : Nat) (v : Word64) : (s.setReg64 p o v).wpb = s.wpb := rfl
@[simp] theorem State.setReg64_eps (s : State) (p o : Nat) (v : Word64) : (s.setReg64 p o v).eps = s.eps := rfl
@[simp] theorem State.setReg64_anl (s : State) (p o : Nat) (v : Word64) : (s.setReg64 p o v).anl = s.anl := rfl
@[simp] theorem State.setReg64_trn (s : State) (p o : Nat) (v : Word64) : (s.setReg64 p o v).trn = s.trn := rfl
@[simp] theorem State.setReg64_clx (s : State) (p o : Nat) (v : Word64) : (s.setReg64 p o v).clx = s.clx := rfl
@[simp] theorem State.setReg64_ques (s : State) (p o : Nat) (v : Word64) : (s.setReg64 p o v).ques = s.ques := rfl
@[simp] theorem State.setReg64_mgt (s : State) (p o : Nat) (v : Word64) : (s.setReg64 p o v).mgt = s.mgt := rfl

/-! `State.inc` writes `regs` and nothing else. -/

@[simp] theorem State.inc_pending (s : State) (p o n : Nat) : (s.inc p o n).pending = s.pending := rfl
@[simp] theorem State.inc_out (s : State) (p o n : Nat) : (s.inc p o n).out = s.out := rfl
@[simp] theorem State.inc_dmaWait (s : State) (p o n : Nat) : (s.inc p o n).dmaWait = s.dmaWait := rfl
@[simp] theorem State.inc_free (s : State) (p o n : Nat) : (s.inc p o n).free = s.free := rfl
@[simp] theorem State.inc_rdHost (s : State) (p o n : Nat) : (s.inc p o n).rdHost = s.rdHost := rfl
@[simp] theorem State.inc_rdMgmt (s : State) (p o n : Nat) : (s.inc p o n).rdMgmt = s.rdMgmt := rfl
@[simp] theorem State.inc_deferred (s : State) (p o n : Nat) : (s.inc p o n).deferred = s.deferred := rfl
@[simp] theorem State.inc_pages (s : State) (p o n : Nat) : (s.inc p o n).pages = s.pages := rfl
@[simp] theorem State.inc_pw (s : State) (p o n : Nat) : (s.inc p o n).pw = s.pw := rfl
@[simp] theorem State.inc_nv (s : State) (p o n : Nat) : (s.inc p o n).nv = s.nv := rfl
@[simp] theorem State.inc_log (s : State) (p o n : Nat) : (s.inc p o n).log = s.log := rfl
@[simp] theorem State.inc_msixMask (s : State) (p o n : Nat) : (s.inc p o n).msixMask = s.msixMask := rfl
@[simp] theorem State.inc_msixPend (s : State) (p o n : Nat) : (s.inc p o n).msixPend = s.msixPend := rfl
@[simp] theorem State.inc_cores (s : State) (p o n : Nat) : (s.inc p o n).cores = s.cores := rfl
@[simp] theorem State.inc_arrs (s : State) (p o n : Nat) : (s.inc p o n).arrs = s.arrs := rfl
@[simp] theorem State.inc_clus (s : State) (p o n : Nat) : (s.inc p o n).clus = s.clus := rfl
@[simp] theorem State.inc_ctxs (s : State) (p o n : Nat) : (s.inc p o n).ctxs = s.ctxs := rfl
@[simp] theorem State.inc_locks (s : State) (p o n : Nat) : (s.inc p o n).locks = s.locks := rfl
@[simp] theorem State.inc_chk (s : State) (p o n : Nat) : (s.inc p o n).chk = s.chk := rfl
@[simp] theorem State.inc_links (s : State) (p o n : Nat) : (s.inc p o n).links = s.links := rfl
@[simp] theorem State.inc_fab (s : State) (p o n : Nat) : (s.inc p o n).fab = s.fab := rfl
@[simp] theorem State.inc_mem (s : State) (p o n : Nat) : (s.inc p o n).mem = s.mem := rfl
@[simp] theorem State.inc_tier (s : State) (p o n : Nat) : (s.inc p o n).tier = s.tier := rfl
@[simp] theorem State.inc_wpb (s : State) (p o n : Nat) : (s.inc p o n).wpb = s.wpb := rfl
@[simp] theorem State.inc_eps (s : State) (p o n : Nat) : (s.inc p o n).eps = s.eps := rfl
@[simp] theorem State.inc_anl (s : State) (p o n : Nat) : (s.inc p o n).anl = s.anl := rfl
@[simp] theorem State.inc_trn (s : State) (p o n : Nat) : (s.inc p o n).trn = s.trn := rfl
@[simp] theorem State.inc_clx (s : State) (p o n : Nat) : (s.inc p o n).clx = s.clx := rfl
@[simp] theorem State.inc_ques (s : State) (p o n : Nat) : (s.inc p o n).ques = s.ques := rfl
@[simp] theorem State.inc_mgt (s : State) (p o n : Nat) : (s.inc p o n).mgt = s.mgt := rfl

/-! `State.usedFree` writes `free` and nothing else. -/

@[simp] theorem State.usedFree_pending (s : State) : (s.usedFree).pending = s.pending := rfl
@[simp] theorem State.usedFree_out (s : State) : (s.usedFree).out = s.out := rfl
@[simp] theorem State.usedFree_dmaWait (s : State) : (s.usedFree).dmaWait = s.dmaWait := rfl
@[simp] theorem State.usedFree_rdHost (s : State) : (s.usedFree).rdHost = s.rdHost := rfl
@[simp] theorem State.usedFree_rdMgmt (s : State) : (s.usedFree).rdMgmt = s.rdMgmt := rfl
@[simp] theorem State.usedFree_deferred (s : State) : (s.usedFree).deferred = s.deferred := rfl
@[simp] theorem State.usedFree_regs (s : State) : (s.usedFree).regs = s.regs := rfl
@[simp] theorem State.usedFree_pages (s : State) : (s.usedFree).pages = s.pages := rfl
@[simp] theorem State.usedFree_pw (s : State) : (s.usedFree).pw = s.pw := rfl
@[simp] theorem State.usedFree_nv (s : State) : (s.usedFree).nv = s.nv := rfl
@[simp] theorem State.usedFree_log (s : State) : (s.usedFree).log = s.log := rfl
@[simp] theorem State.usedFree_msixMask (s : State) : (s.usedFree).msixMask = s.msixMask := rfl
@[simp] theorem State.usedFree_msixPend (s : State) : (s.usedFree).msixPend = s.msixPend := rfl
@[simp] theorem State.usedFree_cores (s : State) : (s.usedFree).cores = s.cores := rfl
@[simp] theorem State.usedFree_arrs (s : State) : (s.usedFree).arrs = s.arrs := rfl
@[simp] theorem State.usedFree_clus (s : State) : (s.usedFree).clus = s.clus := rfl
@[simp] theorem State.usedFree_ctxs (s : State) : (s.usedFree).ctxs = s.ctxs := rfl
@[simp] theorem State.usedFree_locks (s : State) : (s.usedFree).locks = s.locks := rfl
@[simp] theorem State.usedFree_chk (s : State) : (s.usedFree).chk = s.chk := rfl
@[simp] theorem State.usedFree_links (s : State) : (s.usedFree).links = s.links := rfl
@[simp] theorem State.usedFree_fab (s : State) : (s.usedFree).fab = s.fab := rfl
@[simp] theorem State.usedFree_mem (s : State) : (s.usedFree).mem = s.mem := rfl
@[simp] theorem State.usedFree_tier (s : State) : (s.usedFree).tier = s.tier := rfl
@[simp] theorem State.usedFree_wpb (s : State) : (s.usedFree).wpb = s.wpb := rfl
@[simp] theorem State.usedFree_eps (s : State) : (s.usedFree).eps = s.eps := rfl
@[simp] theorem State.usedFree_anl (s : State) : (s.usedFree).anl = s.anl := rfl
@[simp] theorem State.usedFree_trn (s : State) : (s.usedFree).trn = s.trn := rfl
@[simp] theorem State.usedFree_clx (s : State) : (s.usedFree).clx = s.clx := rfl
@[simp] theorem State.usedFree_ques (s : State) : (s.usedFree).ques = s.ques := rfl
@[simp] theorem State.usedFree_mgt (s : State) : (s.usedFree).mgt = s.mgt := rfl

/-! `State.emitOut` writes `out` and nothing else. -/

@[simp] theorem State.emitOut_pending (s : State) (o : Output) : (s.emitOut o).pending = s.pending := rfl
@[simp] theorem State.emitOut_dmaWait (s : State) (o : Output) : (s.emitOut o).dmaWait = s.dmaWait := rfl
@[simp] theorem State.emitOut_free (s : State) (o : Output) : (s.emitOut o).free = s.free := rfl
@[simp] theorem State.emitOut_rdHost (s : State) (o : Output) : (s.emitOut o).rdHost = s.rdHost := rfl
@[simp] theorem State.emitOut_rdMgmt (s : State) (o : Output) : (s.emitOut o).rdMgmt = s.rdMgmt := rfl
@[simp] theorem State.emitOut_deferred (s : State) (o : Output) : (s.emitOut o).deferred = s.deferred := rfl
@[simp] theorem State.emitOut_regs (s : State) (o : Output) : (s.emitOut o).regs = s.regs := rfl
@[simp] theorem State.emitOut_pages (s : State) (o : Output) : (s.emitOut o).pages = s.pages := rfl
@[simp] theorem State.emitOut_pw (s : State) (o : Output) : (s.emitOut o).pw = s.pw := rfl
@[simp] theorem State.emitOut_nv (s : State) (o : Output) : (s.emitOut o).nv = s.nv := rfl
@[simp] theorem State.emitOut_log (s : State) (o : Output) : (s.emitOut o).log = s.log := rfl
@[simp] theorem State.emitOut_msixMask (s : State) (o : Output) : (s.emitOut o).msixMask = s.msixMask := rfl
@[simp] theorem State.emitOut_msixPend (s : State) (o : Output) : (s.emitOut o).msixPend = s.msixPend := rfl
@[simp] theorem State.emitOut_cores (s : State) (o : Output) : (s.emitOut o).cores = s.cores := rfl
@[simp] theorem State.emitOut_arrs (s : State) (o : Output) : (s.emitOut o).arrs = s.arrs := rfl
@[simp] theorem State.emitOut_clus (s : State) (o : Output) : (s.emitOut o).clus = s.clus := rfl
@[simp] theorem State.emitOut_ctxs (s : State) (o : Output) : (s.emitOut o).ctxs = s.ctxs := rfl
@[simp] theorem State.emitOut_locks (s : State) (o : Output) : (s.emitOut o).locks = s.locks := rfl
@[simp] theorem State.emitOut_chk (s : State) (o : Output) : (s.emitOut o).chk = s.chk := rfl
@[simp] theorem State.emitOut_links (s : State) (o : Output) : (s.emitOut o).links = s.links := rfl
@[simp] theorem State.emitOut_fab (s : State) (o : Output) : (s.emitOut o).fab = s.fab := rfl
@[simp] theorem State.emitOut_mem (s : State) (o : Output) : (s.emitOut o).mem = s.mem := rfl
@[simp] theorem State.emitOut_tier (s : State) (o : Output) : (s.emitOut o).tier = s.tier := rfl
@[simp] theorem State.emitOut_wpb (s : State) (o : Output) : (s.emitOut o).wpb = s.wpb := rfl
@[simp] theorem State.emitOut_eps (s : State) (o : Output) : (s.emitOut o).eps = s.eps := rfl
@[simp] theorem State.emitOut_anl (s : State) (o : Output) : (s.emitOut o).anl = s.anl := rfl
@[simp] theorem State.emitOut_trn (s : State) (o : Output) : (s.emitOut o).trn = s.trn := rfl
@[simp] theorem State.emitOut_clx (s : State) (o : Output) : (s.emitOut o).clx = s.clx := rfl
@[simp] theorem State.emitOut_ques (s : State) (o : Output) : (s.emitOut o).ques = s.ques := rfl
@[simp] theorem State.emitOut_mgt (s : State) (o : Output) : (s.emitOut o).mgt = s.mgt := rfl

/-! `State.modDom` writes `pw` and nothing else. -/

@[simp] theorem State.modDom_pending (s : State) (d : Nat) (f : Dom → Dom) : (s.modDom d f).pending = s.pending := rfl
@[simp] theorem State.modDom_out (s : State) (d : Nat) (f : Dom → Dom) : (s.modDom d f).out = s.out := rfl
@[simp] theorem State.modDom_dmaWait (s : State) (d : Nat) (f : Dom → Dom) : (s.modDom d f).dmaWait = s.dmaWait := rfl
@[simp] theorem State.modDom_free (s : State) (d : Nat) (f : Dom → Dom) : (s.modDom d f).free = s.free := rfl
@[simp] theorem State.modDom_rdHost (s : State) (d : Nat) (f : Dom → Dom) : (s.modDom d f).rdHost = s.rdHost := rfl
@[simp] theorem State.modDom_rdMgmt (s : State) (d : Nat) (f : Dom → Dom) : (s.modDom d f).rdMgmt = s.rdMgmt := rfl
@[simp] theorem State.modDom_deferred (s : State) (d : Nat) (f : Dom → Dom) : (s.modDom d f).deferred = s.deferred := rfl
@[simp] theorem State.modDom_regs (s : State) (d : Nat) (f : Dom → Dom) : (s.modDom d f).regs = s.regs := rfl
@[simp] theorem State.modDom_pages (s : State) (d : Nat) (f : Dom → Dom) : (s.modDom d f).pages = s.pages := rfl
@[simp] theorem State.modDom_nv (s : State) (d : Nat) (f : Dom → Dom) : (s.modDom d f).nv = s.nv := rfl
@[simp] theorem State.modDom_log (s : State) (d : Nat) (f : Dom → Dom) : (s.modDom d f).log = s.log := rfl
@[simp] theorem State.modDom_msixMask (s : State) (d : Nat) (f : Dom → Dom) : (s.modDom d f).msixMask = s.msixMask := rfl
@[simp] theorem State.modDom_msixPend (s : State) (d : Nat) (f : Dom → Dom) : (s.modDom d f).msixPend = s.msixPend := rfl
@[simp] theorem State.modDom_cores (s : State) (d : Nat) (f : Dom → Dom) : (s.modDom d f).cores = s.cores := rfl
@[simp] theorem State.modDom_arrs (s : State) (d : Nat) (f : Dom → Dom) : (s.modDom d f).arrs = s.arrs := rfl
@[simp] theorem State.modDom_clus (s : State) (d : Nat) (f : Dom → Dom) : (s.modDom d f).clus = s.clus := rfl
@[simp] theorem State.modDom_ctxs (s : State) (d : Nat) (f : Dom → Dom) : (s.modDom d f).ctxs = s.ctxs := rfl
@[simp] theorem State.modDom_locks (s : State) (d : Nat) (f : Dom → Dom) : (s.modDom d f).locks = s.locks := rfl
@[simp] theorem State.modDom_chk (s : State) (d : Nat) (f : Dom → Dom) : (s.modDom d f).chk = s.chk := rfl
@[simp] theorem State.modDom_links (s : State) (d : Nat) (f : Dom → Dom) : (s.modDom d f).links = s.links := rfl
@[simp] theorem State.modDom_fab (s : State) (d : Nat) (f : Dom → Dom) : (s.modDom d f).fab = s.fab := rfl
@[simp] theorem State.modDom_mem (s : State) (d : Nat) (f : Dom → Dom) : (s.modDom d f).mem = s.mem := rfl
@[simp] theorem State.modDom_tier (s : State) (d : Nat) (f : Dom → Dom) : (s.modDom d f).tier = s.tier := rfl
@[simp] theorem State.modDom_wpb (s : State) (d : Nat) (f : Dom → Dom) : (s.modDom d f).wpb = s.wpb := rfl
@[simp] theorem State.modDom_eps (s : State) (d : Nat) (f : Dom → Dom) : (s.modDom d f).eps = s.eps := rfl
@[simp] theorem State.modDom_anl (s : State) (d : Nat) (f : Dom → Dom) : (s.modDom d f).anl = s.anl := rfl
@[simp] theorem State.modDom_trn (s : State) (d : Nat) (f : Dom → Dom) : (s.modDom d f).trn = s.trn := rfl
@[simp] theorem State.modDom_clx (s : State) (d : Nat) (f : Dom → Dom) : (s.modDom d f).clx = s.clx := rfl
@[simp] theorem State.modDom_ques (s : State) (d : Nat) (f : Dom → Dom) : (s.modDom d f).ques = s.ques := rfl
@[simp] theorem State.modDom_mgt (s : State) (d : Nat) (f : Dom → Dom) : (s.modDom d f).mgt = s.mgt := rfl

/-! `State.setCore` writes `cores` and nothing else. -/

@[simp] theorem State.setCore_pending (s : State) (c : Nat) (k : Core) : (s.setCore c k).pending = s.pending := rfl
@[simp] theorem State.setCore_out (s : State) (c : Nat) (k : Core) : (s.setCore c k).out = s.out := rfl
@[simp] theorem State.setCore_dmaWait (s : State) (c : Nat) (k : Core) : (s.setCore c k).dmaWait = s.dmaWait := rfl
@[simp] theorem State.setCore_free (s : State) (c : Nat) (k : Core) : (s.setCore c k).free = s.free := rfl
@[simp] theorem State.setCore_rdHost (s : State) (c : Nat) (k : Core) : (s.setCore c k).rdHost = s.rdHost := rfl
@[simp] theorem State.setCore_rdMgmt (s : State) (c : Nat) (k : Core) : (s.setCore c k).rdMgmt = s.rdMgmt := rfl
@[simp] theorem State.setCore_deferred (s : State) (c : Nat) (k : Core) : (s.setCore c k).deferred = s.deferred := rfl
@[simp] theorem State.setCore_regs (s : State) (c : Nat) (k : Core) : (s.setCore c k).regs = s.regs := rfl
@[simp] theorem State.setCore_pages (s : State) (c : Nat) (k : Core) : (s.setCore c k).pages = s.pages := rfl
@[simp] theorem State.setCore_pw (s : State) (c : Nat) (k : Core) : (s.setCore c k).pw = s.pw := rfl
@[simp] theorem State.setCore_nv (s : State) (c : Nat) (k : Core) : (s.setCore c k).nv = s.nv := rfl
@[simp] theorem State.setCore_log (s : State) (c : Nat) (k : Core) : (s.setCore c k).log = s.log := rfl
@[simp] theorem State.setCore_msixMask (s : State) (c : Nat) (k : Core) : (s.setCore c k).msixMask = s.msixMask := rfl
@[simp] theorem State.setCore_msixPend (s : State) (c : Nat) (k : Core) : (s.setCore c k).msixPend = s.msixPend := rfl
@[simp] theorem State.setCore_arrs (s : State) (c : Nat) (k : Core) : (s.setCore c k).arrs = s.arrs := rfl
@[simp] theorem State.setCore_clus (s : State) (c : Nat) (k : Core) : (s.setCore c k).clus = s.clus := rfl
@[simp] theorem State.setCore_ctxs (s : State) (c : Nat) (k : Core) : (s.setCore c k).ctxs = s.ctxs := rfl
@[simp] theorem State.setCore_locks (s : State) (c : Nat) (k : Core) : (s.setCore c k).locks = s.locks := rfl
@[simp] theorem State.setCore_chk (s : State) (c : Nat) (k : Core) : (s.setCore c k).chk = s.chk := rfl
@[simp] theorem State.setCore_links (s : State) (c : Nat) (k : Core) : (s.setCore c k).links = s.links := rfl
@[simp] theorem State.setCore_fab (s : State) (c : Nat) (k : Core) : (s.setCore c k).fab = s.fab := rfl
@[simp] theorem State.setCore_mem (s : State) (c : Nat) (k : Core) : (s.setCore c k).mem = s.mem := rfl
@[simp] theorem State.setCore_tier (s : State) (c : Nat) (k : Core) : (s.setCore c k).tier = s.tier := rfl
@[simp] theorem State.setCore_wpb (s : State) (c : Nat) (k : Core) : (s.setCore c k).wpb = s.wpb := rfl
@[simp] theorem State.setCore_eps (s : State) (c : Nat) (k : Core) : (s.setCore c k).eps = s.eps := rfl
@[simp] theorem State.setCore_anl (s : State) (c : Nat) (k : Core) : (s.setCore c k).anl = s.anl := rfl
@[simp] theorem State.setCore_trn (s : State) (c : Nat) (k : Core) : (s.setCore c k).trn = s.trn := rfl
@[simp] theorem State.setCore_clx (s : State) (c : Nat) (k : Core) : (s.setCore c k).clx = s.clx := rfl
@[simp] theorem State.setCore_ques (s : State) (c : Nat) (k : Core) : (s.setCore c k).ques = s.ques := rfl
@[simp] theorem State.setCore_mgt (s : State) (c : Nat) (k : Core) : (s.setCore c k).mgt = s.mgt := rfl

/-! `State.modCore` writes `cores` and nothing else. -/

@[simp] theorem State.modCore_pending (s : State) (c : Nat) (f : Core → Core) : (s.modCore c f).pending = s.pending := rfl
@[simp] theorem State.modCore_out (s : State) (c : Nat) (f : Core → Core) : (s.modCore c f).out = s.out := rfl
@[simp] theorem State.modCore_dmaWait (s : State) (c : Nat) (f : Core → Core) : (s.modCore c f).dmaWait = s.dmaWait := rfl
@[simp] theorem State.modCore_free (s : State) (c : Nat) (f : Core → Core) : (s.modCore c f).free = s.free := rfl
@[simp] theorem State.modCore_rdHost (s : State) (c : Nat) (f : Core → Core) : (s.modCore c f).rdHost = s.rdHost := rfl
@[simp] theorem State.modCore_rdMgmt (s : State) (c : Nat) (f : Core → Core) : (s.modCore c f).rdMgmt = s.rdMgmt := rfl
@[simp] theorem State.modCore_deferred (s : State) (c : Nat) (f : Core → Core) : (s.modCore c f).deferred = s.deferred := rfl
@[simp] theorem State.modCore_regs (s : State) (c : Nat) (f : Core → Core) : (s.modCore c f).regs = s.regs := rfl
@[simp] theorem State.modCore_pages (s : State) (c : Nat) (f : Core → Core) : (s.modCore c f).pages = s.pages := rfl
@[simp] theorem State.modCore_pw (s : State) (c : Nat) (f : Core → Core) : (s.modCore c f).pw = s.pw := rfl
@[simp] theorem State.modCore_nv (s : State) (c : Nat) (f : Core → Core) : (s.modCore c f).nv = s.nv := rfl
@[simp] theorem State.modCore_log (s : State) (c : Nat) (f : Core → Core) : (s.modCore c f).log = s.log := rfl
@[simp] theorem State.modCore_msixMask (s : State) (c : Nat) (f : Core → Core) : (s.modCore c f).msixMask = s.msixMask := rfl
@[simp] theorem State.modCore_msixPend (s : State) (c : Nat) (f : Core → Core) : (s.modCore c f).msixPend = s.msixPend := rfl
@[simp] theorem State.modCore_arrs (s : State) (c : Nat) (f : Core → Core) : (s.modCore c f).arrs = s.arrs := rfl
@[simp] theorem State.modCore_clus (s : State) (c : Nat) (f : Core → Core) : (s.modCore c f).clus = s.clus := rfl
@[simp] theorem State.modCore_ctxs (s : State) (c : Nat) (f : Core → Core) : (s.modCore c f).ctxs = s.ctxs := rfl
@[simp] theorem State.modCore_locks (s : State) (c : Nat) (f : Core → Core) : (s.modCore c f).locks = s.locks := rfl
@[simp] theorem State.modCore_chk (s : State) (c : Nat) (f : Core → Core) : (s.modCore c f).chk = s.chk := rfl
@[simp] theorem State.modCore_links (s : State) (c : Nat) (f : Core → Core) : (s.modCore c f).links = s.links := rfl
@[simp] theorem State.modCore_fab (s : State) (c : Nat) (f : Core → Core) : (s.modCore c f).fab = s.fab := rfl
@[simp] theorem State.modCore_mem (s : State) (c : Nat) (f : Core → Core) : (s.modCore c f).mem = s.mem := rfl
@[simp] theorem State.modCore_tier (s : State) (c : Nat) (f : Core → Core) : (s.modCore c f).tier = s.tier := rfl
@[simp] theorem State.modCore_wpb (s : State) (c : Nat) (f : Core → Core) : (s.modCore c f).wpb = s.wpb := rfl
@[simp] theorem State.modCore_eps (s : State) (c : Nat) (f : Core → Core) : (s.modCore c f).eps = s.eps := rfl
@[simp] theorem State.modCore_anl (s : State) (c : Nat) (f : Core → Core) : (s.modCore c f).anl = s.anl := rfl
@[simp] theorem State.modCore_trn (s : State) (c : Nat) (f : Core → Core) : (s.modCore c f).trn = s.trn := rfl
@[simp] theorem State.modCore_clx (s : State) (c : Nat) (f : Core → Core) : (s.modCore c f).clx = s.clx := rfl
@[simp] theorem State.modCore_ques (s : State) (c : Nat) (f : Core → Core) : (s.modCore c f).ques = s.ques := rfl
@[simp] theorem State.modCore_mgt (s : State) (c : Nat) (f : Core → Core) : (s.modCore c f).mgt = s.mgt := rfl

/-! `State.setCtx` writes `ctxs` and nothing else. -/

@[simp] theorem State.setCtx_pending (s : State) (x : Nat) (k : Ctx) : (s.setCtx x k).pending = s.pending := rfl
@[simp] theorem State.setCtx_out (s : State) (x : Nat) (k : Ctx) : (s.setCtx x k).out = s.out := rfl
@[simp] theorem State.setCtx_dmaWait (s : State) (x : Nat) (k : Ctx) : (s.setCtx x k).dmaWait = s.dmaWait := rfl
@[simp] theorem State.setCtx_free (s : State) (x : Nat) (k : Ctx) : (s.setCtx x k).free = s.free := rfl
@[simp] theorem State.setCtx_rdHost (s : State) (x : Nat) (k : Ctx) : (s.setCtx x k).rdHost = s.rdHost := rfl
@[simp] theorem State.setCtx_rdMgmt (s : State) (x : Nat) (k : Ctx) : (s.setCtx x k).rdMgmt = s.rdMgmt := rfl
@[simp] theorem State.setCtx_deferred (s : State) (x : Nat) (k : Ctx) : (s.setCtx x k).deferred = s.deferred := rfl
@[simp] theorem State.setCtx_regs (s : State) (x : Nat) (k : Ctx) : (s.setCtx x k).regs = s.regs := rfl
@[simp] theorem State.setCtx_pages (s : State) (x : Nat) (k : Ctx) : (s.setCtx x k).pages = s.pages := rfl
@[simp] theorem State.setCtx_pw (s : State) (x : Nat) (k : Ctx) : (s.setCtx x k).pw = s.pw := rfl
@[simp] theorem State.setCtx_nv (s : State) (x : Nat) (k : Ctx) : (s.setCtx x k).nv = s.nv := rfl
@[simp] theorem State.setCtx_log (s : State) (x : Nat) (k : Ctx) : (s.setCtx x k).log = s.log := rfl
@[simp] theorem State.setCtx_msixMask (s : State) (x : Nat) (k : Ctx) : (s.setCtx x k).msixMask = s.msixMask := rfl
@[simp] theorem State.setCtx_msixPend (s : State) (x : Nat) (k : Ctx) : (s.setCtx x k).msixPend = s.msixPend := rfl
@[simp] theorem State.setCtx_cores (s : State) (x : Nat) (k : Ctx) : (s.setCtx x k).cores = s.cores := rfl
@[simp] theorem State.setCtx_arrs (s : State) (x : Nat) (k : Ctx) : (s.setCtx x k).arrs = s.arrs := rfl
@[simp] theorem State.setCtx_clus (s : State) (x : Nat) (k : Ctx) : (s.setCtx x k).clus = s.clus := rfl
@[simp] theorem State.setCtx_locks (s : State) (x : Nat) (k : Ctx) : (s.setCtx x k).locks = s.locks := rfl
@[simp] theorem State.setCtx_chk (s : State) (x : Nat) (k : Ctx) : (s.setCtx x k).chk = s.chk := rfl
@[simp] theorem State.setCtx_links (s : State) (x : Nat) (k : Ctx) : (s.setCtx x k).links = s.links := rfl
@[simp] theorem State.setCtx_fab (s : State) (x : Nat) (k : Ctx) : (s.setCtx x k).fab = s.fab := rfl
@[simp] theorem State.setCtx_mem (s : State) (x : Nat) (k : Ctx) : (s.setCtx x k).mem = s.mem := rfl
@[simp] theorem State.setCtx_tier (s : State) (x : Nat) (k : Ctx) : (s.setCtx x k).tier = s.tier := rfl
@[simp] theorem State.setCtx_wpb (s : State) (x : Nat) (k : Ctx) : (s.setCtx x k).wpb = s.wpb := rfl
@[simp] theorem State.setCtx_eps (s : State) (x : Nat) (k : Ctx) : (s.setCtx x k).eps = s.eps := rfl
@[simp] theorem State.setCtx_anl (s : State) (x : Nat) (k : Ctx) : (s.setCtx x k).anl = s.anl := rfl
@[simp] theorem State.setCtx_trn (s : State) (x : Nat) (k : Ctx) : (s.setCtx x k).trn = s.trn := rfl
@[simp] theorem State.setCtx_clx (s : State) (x : Nat) (k : Ctx) : (s.setCtx x k).clx = s.clx := rfl
@[simp] theorem State.setCtx_ques (s : State) (x : Nat) (k : Ctx) : (s.setCtx x k).ques = s.ques := rfl
@[simp] theorem State.setCtx_mgt (s : State) (x : Nat) (k : Ctx) : (s.setCtx x k).mgt = s.mgt := rfl

/-! `State.modCtx` writes `ctxs` and nothing else. -/

@[simp] theorem State.modCtx_pending (s : State) (x : Nat) (f : Ctx → Ctx) : (s.modCtx x f).pending = s.pending := rfl
@[simp] theorem State.modCtx_out (s : State) (x : Nat) (f : Ctx → Ctx) : (s.modCtx x f).out = s.out := rfl
@[simp] theorem State.modCtx_dmaWait (s : State) (x : Nat) (f : Ctx → Ctx) : (s.modCtx x f).dmaWait = s.dmaWait := rfl
@[simp] theorem State.modCtx_free (s : State) (x : Nat) (f : Ctx → Ctx) : (s.modCtx x f).free = s.free := rfl
@[simp] theorem State.modCtx_rdHost (s : State) (x : Nat) (f : Ctx → Ctx) : (s.modCtx x f).rdHost = s.rdHost := rfl
@[simp] theorem State.modCtx_rdMgmt (s : State) (x : Nat) (f : Ctx → Ctx) : (s.modCtx x f).rdMgmt = s.rdMgmt := rfl
@[simp] theorem State.modCtx_deferred (s : State) (x : Nat) (f : Ctx → Ctx) : (s.modCtx x f).deferred = s.deferred := rfl
@[simp] theorem State.modCtx_regs (s : State) (x : Nat) (f : Ctx → Ctx) : (s.modCtx x f).regs = s.regs := rfl
@[simp] theorem State.modCtx_pages (s : State) (x : Nat) (f : Ctx → Ctx) : (s.modCtx x f).pages = s.pages := rfl
@[simp] theorem State.modCtx_pw (s : State) (x : Nat) (f : Ctx → Ctx) : (s.modCtx x f).pw = s.pw := rfl
@[simp] theorem State.modCtx_nv (s : State) (x : Nat) (f : Ctx → Ctx) : (s.modCtx x f).nv = s.nv := rfl
@[simp] theorem State.modCtx_log (s : State) (x : Nat) (f : Ctx → Ctx) : (s.modCtx x f).log = s.log := rfl
@[simp] theorem State.modCtx_msixMask (s : State) (x : Nat) (f : Ctx → Ctx) : (s.modCtx x f).msixMask = s.msixMask := rfl
@[simp] theorem State.modCtx_msixPend (s : State) (x : Nat) (f : Ctx → Ctx) : (s.modCtx x f).msixPend = s.msixPend := rfl
@[simp] theorem State.modCtx_cores (s : State) (x : Nat) (f : Ctx → Ctx) : (s.modCtx x f).cores = s.cores := rfl
@[simp] theorem State.modCtx_arrs (s : State) (x : Nat) (f : Ctx → Ctx) : (s.modCtx x f).arrs = s.arrs := rfl
@[simp] theorem State.modCtx_clus (s : State) (x : Nat) (f : Ctx → Ctx) : (s.modCtx x f).clus = s.clus := rfl
@[simp] theorem State.modCtx_locks (s : State) (x : Nat) (f : Ctx → Ctx) : (s.modCtx x f).locks = s.locks := rfl
@[simp] theorem State.modCtx_chk (s : State) (x : Nat) (f : Ctx → Ctx) : (s.modCtx x f).chk = s.chk := rfl
@[simp] theorem State.modCtx_links (s : State) (x : Nat) (f : Ctx → Ctx) : (s.modCtx x f).links = s.links := rfl
@[simp] theorem State.modCtx_fab (s : State) (x : Nat) (f : Ctx → Ctx) : (s.modCtx x f).fab = s.fab := rfl
@[simp] theorem State.modCtx_mem (s : State) (x : Nat) (f : Ctx → Ctx) : (s.modCtx x f).mem = s.mem := rfl
@[simp] theorem State.modCtx_tier (s : State) (x : Nat) (f : Ctx → Ctx) : (s.modCtx x f).tier = s.tier := rfl
@[simp] theorem State.modCtx_wpb (s : State) (x : Nat) (f : Ctx → Ctx) : (s.modCtx x f).wpb = s.wpb := rfl
@[simp] theorem State.modCtx_eps (s : State) (x : Nat) (f : Ctx → Ctx) : (s.modCtx x f).eps = s.eps := rfl
@[simp] theorem State.modCtx_anl (s : State) (x : Nat) (f : Ctx → Ctx) : (s.modCtx x f).anl = s.anl := rfl
@[simp] theorem State.modCtx_trn (s : State) (x : Nat) (f : Ctx → Ctx) : (s.modCtx x f).trn = s.trn := rfl
@[simp] theorem State.modCtx_clx (s : State) (x : Nat) (f : Ctx → Ctx) : (s.modCtx x f).clx = s.clx := rfl
@[simp] theorem State.modCtx_ques (s : State) (x : Nat) (f : Ctx → Ctx) : (s.modCtx x f).ques = s.ques := rfl
@[simp] theorem State.modCtx_mgt (s : State) (x : Nat) (f : Ctx → Ctx) : (s.modCtx x f).mgt = s.mgt := rfl

/-! `State.modClu` writes `clus` and nothing else. -/

@[simp] theorem State.modClu_pending (s : State) (k : Nat) (f : Clu → Clu) : (s.modClu k f).pending = s.pending := rfl
@[simp] theorem State.modClu_out (s : State) (k : Nat) (f : Clu → Clu) : (s.modClu k f).out = s.out := rfl
@[simp] theorem State.modClu_dmaWait (s : State) (k : Nat) (f : Clu → Clu) : (s.modClu k f).dmaWait = s.dmaWait := rfl
@[simp] theorem State.modClu_free (s : State) (k : Nat) (f : Clu → Clu) : (s.modClu k f).free = s.free := rfl
@[simp] theorem State.modClu_rdHost (s : State) (k : Nat) (f : Clu → Clu) : (s.modClu k f).rdHost = s.rdHost := rfl
@[simp] theorem State.modClu_rdMgmt (s : State) (k : Nat) (f : Clu → Clu) : (s.modClu k f).rdMgmt = s.rdMgmt := rfl
@[simp] theorem State.modClu_deferred (s : State) (k : Nat) (f : Clu → Clu) : (s.modClu k f).deferred = s.deferred := rfl
@[simp] theorem State.modClu_regs (s : State) (k : Nat) (f : Clu → Clu) : (s.modClu k f).regs = s.regs := rfl
@[simp] theorem State.modClu_pages (s : State) (k : Nat) (f : Clu → Clu) : (s.modClu k f).pages = s.pages := rfl
@[simp] theorem State.modClu_pw (s : State) (k : Nat) (f : Clu → Clu) : (s.modClu k f).pw = s.pw := rfl
@[simp] theorem State.modClu_nv (s : State) (k : Nat) (f : Clu → Clu) : (s.modClu k f).nv = s.nv := rfl
@[simp] theorem State.modClu_log (s : State) (k : Nat) (f : Clu → Clu) : (s.modClu k f).log = s.log := rfl
@[simp] theorem State.modClu_msixMask (s : State) (k : Nat) (f : Clu → Clu) : (s.modClu k f).msixMask = s.msixMask := rfl
@[simp] theorem State.modClu_msixPend (s : State) (k : Nat) (f : Clu → Clu) : (s.modClu k f).msixPend = s.msixPend := rfl
@[simp] theorem State.modClu_cores (s : State) (k : Nat) (f : Clu → Clu) : (s.modClu k f).cores = s.cores := rfl
@[simp] theorem State.modClu_arrs (s : State) (k : Nat) (f : Clu → Clu) : (s.modClu k f).arrs = s.arrs := rfl
@[simp] theorem State.modClu_ctxs (s : State) (k : Nat) (f : Clu → Clu) : (s.modClu k f).ctxs = s.ctxs := rfl
@[simp] theorem State.modClu_locks (s : State) (k : Nat) (f : Clu → Clu) : (s.modClu k f).locks = s.locks := rfl
@[simp] theorem State.modClu_chk (s : State) (k : Nat) (f : Clu → Clu) : (s.modClu k f).chk = s.chk := rfl
@[simp] theorem State.modClu_links (s : State) (k : Nat) (f : Clu → Clu) : (s.modClu k f).links = s.links := rfl
@[simp] theorem State.modClu_fab (s : State) (k : Nat) (f : Clu → Clu) : (s.modClu k f).fab = s.fab := rfl
@[simp] theorem State.modClu_mem (s : State) (k : Nat) (f : Clu → Clu) : (s.modClu k f).mem = s.mem := rfl
@[simp] theorem State.modClu_tier (s : State) (k : Nat) (f : Clu → Clu) : (s.modClu k f).tier = s.tier := rfl
@[simp] theorem State.modClu_wpb (s : State) (k : Nat) (f : Clu → Clu) : (s.modClu k f).wpb = s.wpb := rfl
@[simp] theorem State.modClu_eps (s : State) (k : Nat) (f : Clu → Clu) : (s.modClu k f).eps = s.eps := rfl
@[simp] theorem State.modClu_anl (s : State) (k : Nat) (f : Clu → Clu) : (s.modClu k f).anl = s.anl := rfl
@[simp] theorem State.modClu_trn (s : State) (k : Nat) (f : Clu → Clu) : (s.modClu k f).trn = s.trn := rfl
@[simp] theorem State.modClu_clx (s : State) (k : Nat) (f : Clu → Clu) : (s.modClu k f).clx = s.clx := rfl
@[simp] theorem State.modClu_ques (s : State) (k : Nat) (f : Clu → Clu) : (s.modClu k f).ques = s.ques := rfl
@[simp] theorem State.modClu_mgt (s : State) (k : Nat) (f : Clu → Clu) : (s.modClu k f).mgt = s.mgt := rfl

/-! `State.modJob` writes `chk` and nothing else. -/

@[simp] theorem State.modJob_pending (s : State) (x : Nat) (f : Job → Job) : (s.modJob x f).pending = s.pending := rfl
@[simp] theorem State.modJob_out (s : State) (x : Nat) (f : Job → Job) : (s.modJob x f).out = s.out := rfl
@[simp] theorem State.modJob_dmaWait (s : State) (x : Nat) (f : Job → Job) : (s.modJob x f).dmaWait = s.dmaWait := rfl
@[simp] theorem State.modJob_free (s : State) (x : Nat) (f : Job → Job) : (s.modJob x f).free = s.free := rfl
@[simp] theorem State.modJob_rdHost (s : State) (x : Nat) (f : Job → Job) : (s.modJob x f).rdHost = s.rdHost := rfl
@[simp] theorem State.modJob_rdMgmt (s : State) (x : Nat) (f : Job → Job) : (s.modJob x f).rdMgmt = s.rdMgmt := rfl
@[simp] theorem State.modJob_deferred (s : State) (x : Nat) (f : Job → Job) : (s.modJob x f).deferred = s.deferred := rfl
@[simp] theorem State.modJob_regs (s : State) (x : Nat) (f : Job → Job) : (s.modJob x f).regs = s.regs := rfl
@[simp] theorem State.modJob_pages (s : State) (x : Nat) (f : Job → Job) : (s.modJob x f).pages = s.pages := rfl
@[simp] theorem State.modJob_pw (s : State) (x : Nat) (f : Job → Job) : (s.modJob x f).pw = s.pw := rfl
@[simp] theorem State.modJob_nv (s : State) (x : Nat) (f : Job → Job) : (s.modJob x f).nv = s.nv := rfl
@[simp] theorem State.modJob_log (s : State) (x : Nat) (f : Job → Job) : (s.modJob x f).log = s.log := rfl
@[simp] theorem State.modJob_msixMask (s : State) (x : Nat) (f : Job → Job) : (s.modJob x f).msixMask = s.msixMask := rfl
@[simp] theorem State.modJob_msixPend (s : State) (x : Nat) (f : Job → Job) : (s.modJob x f).msixPend = s.msixPend := rfl
@[simp] theorem State.modJob_cores (s : State) (x : Nat) (f : Job → Job) : (s.modJob x f).cores = s.cores := rfl
@[simp] theorem State.modJob_arrs (s : State) (x : Nat) (f : Job → Job) : (s.modJob x f).arrs = s.arrs := rfl
@[simp] theorem State.modJob_clus (s : State) (x : Nat) (f : Job → Job) : (s.modJob x f).clus = s.clus := rfl
@[simp] theorem State.modJob_ctxs (s : State) (x : Nat) (f : Job → Job) : (s.modJob x f).ctxs = s.ctxs := rfl
@[simp] theorem State.modJob_locks (s : State) (x : Nat) (f : Job → Job) : (s.modJob x f).locks = s.locks := rfl
@[simp] theorem State.modJob_links (s : State) (x : Nat) (f : Job → Job) : (s.modJob x f).links = s.links := rfl
@[simp] theorem State.modJob_fab (s : State) (x : Nat) (f : Job → Job) : (s.modJob x f).fab = s.fab := rfl
@[simp] theorem State.modJob_mem (s : State) (x : Nat) (f : Job → Job) : (s.modJob x f).mem = s.mem := rfl
@[simp] theorem State.modJob_tier (s : State) (x : Nat) (f : Job → Job) : (s.modJob x f).tier = s.tier := rfl
@[simp] theorem State.modJob_wpb (s : State) (x : Nat) (f : Job → Job) : (s.modJob x f).wpb = s.wpb := rfl
@[simp] theorem State.modJob_eps (s : State) (x : Nat) (f : Job → Job) : (s.modJob x f).eps = s.eps := rfl
@[simp] theorem State.modJob_anl (s : State) (x : Nat) (f : Job → Job) : (s.modJob x f).anl = s.anl := rfl
@[simp] theorem State.modJob_trn (s : State) (x : Nat) (f : Job → Job) : (s.modJob x f).trn = s.trn := rfl
@[simp] theorem State.modJob_clx (s : State) (x : Nat) (f : Job → Job) : (s.modJob x f).clx = s.clx := rfl
@[simp] theorem State.modJob_ques (s : State) (x : Nat) (f : Job → Job) : (s.modJob x f).ques = s.ques := rfl
@[simp] theorem State.modJob_mgt (s : State) (x : Nat) (f : Job → Job) : (s.modJob x f).mgt = s.mgt := rfl


end Sys2Proof.Machine
end

