-- ==== Sys2Proof/Laws/Ops.lean ====
section
/-! SUPPORT. What the shared operations of Machine/Ops.lean can do: the fields that each leaves as it was, and what it
writes. -/

namespace Sys2Proof.Machine

/-! `State.dmaOut` writes `out`, `dmaWait` and nothing else. -/

@[simp] theorem State.dmaOut_pending (s : State) (o : Output) : (s.dmaOut o).pending = s.pending := by
  unfold State.dmaOut; split <;> rfl
@[simp] theorem State.dmaOut_free (s : State) (o : Output) : (s.dmaOut o).free = s.free := by
  unfold State.dmaOut; split <;> rfl
@[simp] theorem State.dmaOut_rdHost (s : State) (o : Output) : (s.dmaOut o).rdHost = s.rdHost := by
  unfold State.dmaOut; split <;> rfl
@[simp] theorem State.dmaOut_rdMgmt (s : State) (o : Output) : (s.dmaOut o).rdMgmt = s.rdMgmt := by
  unfold State.dmaOut; split <;> rfl
@[simp] theorem State.dmaOut_deferred (s : State) (o : Output) : (s.dmaOut o).deferred = s.deferred := by
  unfold State.dmaOut; split <;> rfl
@[simp] theorem State.dmaOut_regs (s : State) (o : Output) : (s.dmaOut o).regs = s.regs := by
  unfold State.dmaOut; split <;> rfl
@[simp] theorem State.dmaOut_pages (s : State) (o : Output) : (s.dmaOut o).pages = s.pages := by
  unfold State.dmaOut; split <;> rfl
@[simp] theorem State.dmaOut_pw (s : State) (o : Output) : (s.dmaOut o).pw = s.pw := by
  unfold State.dmaOut; split <;> rfl
@[simp] theorem State.dmaOut_nv (s : State) (o : Output) : (s.dmaOut o).nv = s.nv := by
  unfold State.dmaOut; split <;> rfl
@[simp] theorem State.dmaOut_log (s : State) (o : Output) : (s.dmaOut o).log = s.log := by
  unfold State.dmaOut; split <;> rfl
@[simp] theorem State.dmaOut_msixMask (s : State) (o : Output) : (s.dmaOut o).msixMask = s.msixMask := by
  unfold State.dmaOut; split <;> rfl
@[simp] theorem State.dmaOut_msixPend (s : State) (o : Output) : (s.dmaOut o).msixPend = s.msixPend := by
  unfold State.dmaOut; split <;> rfl
@[simp] theorem State.dmaOut_cores (s : State) (o : Output) : (s.dmaOut o).cores = s.cores := by
  unfold State.dmaOut; split <;> rfl
@[simp] theorem State.dmaOut_arrs (s : State) (o : Output) : (s.dmaOut o).arrs = s.arrs := by
  unfold State.dmaOut; split <;> rfl
@[simp] theorem State.dmaOut_clus (s : State) (o : Output) : (s.dmaOut o).clus = s.clus := by
  unfold State.dmaOut; split <;> rfl
@[simp] theorem State.dmaOut_ctxs (s : State) (o : Output) : (s.dmaOut o).ctxs = s.ctxs := by
  unfold State.dmaOut; split <;> rfl
@[simp] theorem State.dmaOut_locks (s : State) (o : Output) : (s.dmaOut o).locks = s.locks := by
  unfold State.dmaOut; split <;> rfl
@[simp] theorem State.dmaOut_chk (s : State) (o : Output) : (s.dmaOut o).chk = s.chk := by
  unfold State.dmaOut; split <;> rfl
@[simp] theorem State.dmaOut_links (s : State) (o : Output) : (s.dmaOut o).links = s.links := by
  unfold State.dmaOut; split <;> rfl
@[simp] theorem State.dmaOut_fab (s : State) (o : Output) : (s.dmaOut o).fab = s.fab := by
  unfold State.dmaOut; split <;> rfl
@[simp] theorem State.dmaOut_mem (s : State) (o : Output) : (s.dmaOut o).mem = s.mem := by
  unfold State.dmaOut; split <;> rfl
@[simp] theorem State.dmaOut_tier (s : State) (o : Output) : (s.dmaOut o).tier = s.tier := by
  unfold State.dmaOut; split <;> rfl
@[simp] theorem State.dmaOut_wpb (s : State) (o : Output) : (s.dmaOut o).wpb = s.wpb := by
  unfold State.dmaOut; split <;> rfl
@[simp] theorem State.dmaOut_eps (s : State) (o : Output) : (s.dmaOut o).eps = s.eps := by
  unfold State.dmaOut; split <;> rfl
@[simp] theorem State.dmaOut_anl (s : State) (o : Output) : (s.dmaOut o).anl = s.anl := by
  unfold State.dmaOut; split <;> rfl
@[simp] theorem State.dmaOut_trn (s : State) (o : Output) : (s.dmaOut o).trn = s.trn := by
  unfold State.dmaOut; split <;> rfl
@[simp] theorem State.dmaOut_clx (s : State) (o : Output) : (s.dmaOut o).clx = s.clx := by
  unfold State.dmaOut; split <;> rfl
@[simp] theorem State.dmaOut_ques (s : State) (o : Output) : (s.dmaOut o).ques = s.ques := by
  unfold State.dmaOut; split <;> rfl
@[simp] theorem State.dmaOut_mgt (s : State) (o : Output) : (s.dmaOut o).mgt = s.mgt := by
  unfold State.dmaOut; split <;> rfl

/-! `State.signalVec` writes `regs`, `msixPend`, `out`, `dmaWait` and nothing else. -/

@[simp] theorem State.signalVec_pending (s : State) (v : Byte) : (s.signalVec v).pending = s.pending := by
  unfold State.signalVec; split <;> simp
@[simp] theorem State.signalVec_free (s : State) (v : Byte) : (s.signalVec v).free = s.free := by
  unfold State.signalVec; split <;> simp
@[simp] theorem State.signalVec_rdHost (s : State) (v : Byte) : (s.signalVec v).rdHost = s.rdHost := by
  unfold State.signalVec; split <;> simp
@[simp] theorem State.signalVec_rdMgmt (s : State) (v : Byte) : (s.signalVec v).rdMgmt = s.rdMgmt := by
  unfold State.signalVec; split <;> simp
@[simp] theorem State.signalVec_deferred (s : State) (v : Byte) : (s.signalVec v).deferred = s.deferred := by
  unfold State.signalVec; split <;> simp
@[simp] theorem State.signalVec_pages (s : State) (v : Byte) : (s.signalVec v).pages = s.pages := by
  unfold State.signalVec; split <;> simp
@[simp] theorem State.signalVec_pw (s : State) (v : Byte) : (s.signalVec v).pw = s.pw := by
  unfold State.signalVec; split <;> simp
@[simp] theorem State.signalVec_nv (s : State) (v : Byte) : (s.signalVec v).nv = s.nv := by
  unfold State.signalVec; split <;> simp
@[simp] theorem State.signalVec_log (s : State) (v : Byte) : (s.signalVec v).log = s.log := by
  unfold State.signalVec; split <;> simp
@[simp] theorem State.signalVec_msixMask (s : State) (v : Byte) : (s.signalVec v).msixMask = s.msixMask := by
  unfold State.signalVec; split <;> simp
@[simp] theorem State.signalVec_cores (s : State) (v : Byte) : (s.signalVec v).cores = s.cores := by
  unfold State.signalVec; split <;> simp
@[simp] theorem State.signalVec_arrs (s : State) (v : Byte) : (s.signalVec v).arrs = s.arrs := by
  unfold State.signalVec; split <;> simp
@[simp] theorem State.signalVec_clus (s : State) (v : Byte) : (s.signalVec v).clus = s.clus := by
  unfold State.signalVec; split <;> simp
@[simp] theorem State.signalVec_ctxs (s : State) (v : Byte) : (s.signalVec v).ctxs = s.ctxs := by
  unfold State.signalVec; split <;> simp
@[simp] theorem State.signalVec_locks (s : State) (v : Byte) : (s.signalVec v).locks = s.locks := by
  unfold State.signalVec; split <;> simp
@[simp] theorem State.signalVec_chk (s : State) (v : Byte) : (s.signalVec v).chk = s.chk := by
  unfold State.signalVec; split <;> simp
@[simp] theorem State.signalVec_links (s : State) (v : Byte) : (s.signalVec v).links = s.links := by
  unfold State.signalVec; split <;> simp
@[simp] theorem State.signalVec_fab (s : State) (v : Byte) : (s.signalVec v).fab = s.fab := by
  unfold State.signalVec; split <;> simp
@[simp] theorem State.signalVec_mem (s : State) (v : Byte) : (s.signalVec v).mem = s.mem := by
  unfold State.signalVec; split <;> simp
@[simp] theorem State.signalVec_tier (s : State) (v : Byte) : (s.signalVec v).tier = s.tier := by
  unfold State.signalVec; split <;> simp
@[simp] theorem State.signalVec_wpb (s : State) (v : Byte) : (s.signalVec v).wpb = s.wpb := by
  unfold State.signalVec; split <;> simp
@[simp] theorem State.signalVec_eps (s : State) (v : Byte) : (s.signalVec v).eps = s.eps := by
  unfold State.signalVec; split <;> simp
@[simp] theorem State.signalVec_anl (s : State) (v : Byte) : (s.signalVec v).anl = s.anl := by
  unfold State.signalVec; split <;> simp
@[simp] theorem State.signalVec_trn (s : State) (v : Byte) : (s.signalVec v).trn = s.trn := by
  unfold State.signalVec; split <;> simp
@[simp] theorem State.signalVec_clx (s : State) (v : Byte) : (s.signalVec v).clx = s.clx := by
  unfold State.signalVec; split <;> simp
@[simp] theorem State.signalVec_ques (s : State) (v : Byte) : (s.signalVec v).ques = s.ques := by
  unfold State.signalVec; split <;> simp
@[simp] theorem State.signalVec_mgt (s : State) (v : Byte) : (s.signalVec v).mgt = s.mgt := by
  unfold State.signalVec; split <;> simp

/-! `State.modPage` writes `regs`, `msixPend`, `out`, `dmaWait`, `pages` and nothing else. -/

@[simp] theorem State.modPage_pending (s : State) (p : Nat) (f : Page → Page) : (s.modPage p f).pending = s.pending := by
  unfold State.modPage; simp only []; split <;> simp
@[simp] theorem State.modPage_free (s : State) (p : Nat) (f : Page → Page) : (s.modPage p f).free = s.free := by
  unfold State.modPage; simp only []; split <;> simp
@[simp] theorem State.modPage_rdHost (s : State) (p : Nat) (f : Page → Page) : (s.modPage p f).rdHost = s.rdHost := by
  unfold State.modPage; simp only []; split <;> simp
@[simp] theorem State.modPage_rdMgmt (s : State) (p : Nat) (f : Page → Page) : (s.modPage p f).rdMgmt = s.rdMgmt := by
  unfold State.modPage; simp only []; split <;> simp
@[simp] theorem State.modPage_deferred (s : State) (p : Nat) (f : Page → Page) : (s.modPage p f).deferred = s.deferred := by
  unfold State.modPage; simp only []; split <;> simp
@[simp] theorem State.modPage_pw (s : State) (p : Nat) (f : Page → Page) : (s.modPage p f).pw = s.pw := by
  unfold State.modPage; simp only []; split <;> simp
@[simp] theorem State.modPage_nv (s : State) (p : Nat) (f : Page → Page) : (s.modPage p f).nv = s.nv := by
  unfold State.modPage; simp only []; split <;> simp
@[simp] theorem State.modPage_log (s : State) (p : Nat) (f : Page → Page) : (s.modPage p f).log = s.log := by
  unfold State.modPage; simp only []; split <;> simp
@[simp] theorem State.modPage_msixMask (s : State) (p : Nat) (f : Page → Page) : (s.modPage p f).msixMask = s.msixMask := by
  unfold State.modPage; simp only []; split <;> simp
@[simp] theorem State.modPage_cores (s : State) (p : Nat) (f : Page → Page) : (s.modPage p f).cores = s.cores := by
  unfold State.modPage; simp only []; split <;> simp
@[simp] theorem State.modPage_arrs (s : State) (p : Nat) (f : Page → Page) : (s.modPage p f).arrs = s.arrs := by
  unfold State.modPage; simp only []; split <;> simp
@[simp] theorem State.modPage_clus (s : State) (p : Nat) (f : Page → Page) : (s.modPage p f).clus = s.clus := by
  unfold State.modPage; simp only []; split <;> simp
@[simp] theorem State.modPage_ctxs (s : State) (p : Nat) (f : Page → Page) : (s.modPage p f).ctxs = s.ctxs := by
  unfold State.modPage; simp only []; split <;> simp
@[simp] theorem State.modPage_locks (s : State) (p : Nat) (f : Page → Page) : (s.modPage p f).locks = s.locks := by
  unfold State.modPage; simp only []; split <;> simp
@[simp] theorem State.modPage_chk (s : State) (p : Nat) (f : Page → Page) : (s.modPage p f).chk = s.chk := by
  unfold State.modPage; simp only []; split <;> simp
@[simp] theorem State.modPage_links (s : State) (p : Nat) (f : Page → Page) : (s.modPage p f).links = s.links := by
  unfold State.modPage; simp only []; split <;> simp
@[simp] theorem State.modPage_fab (s : State) (p : Nat) (f : Page → Page) : (s.modPage p f).fab = s.fab := by
  unfold State.modPage; simp only []; split <;> simp
@[simp] theorem State.modPage_mem (s : State) (p : Nat) (f : Page → Page) : (s.modPage p f).mem = s.mem := by
  unfold State.modPage; simp only []; split <;> simp
@[simp] theorem State.modPage_tier (s : State) (p : Nat) (f : Page → Page) : (s.modPage p f).tier = s.tier := by
  unfold State.modPage; simp only []; split <;> simp
@[simp] theorem State.modPage_wpb (s : State) (p : Nat) (f : Page → Page) : (s.modPage p f).wpb = s.wpb := by
  unfold State.modPage; simp only []; split <;> simp
@[simp] theorem State.modPage_eps (s : State) (p : Nat) (f : Page → Page) : (s.modPage p f).eps = s.eps := by
  unfold State.modPage; simp only []; split <;> simp
@[simp] theorem State.modPage_anl (s : State) (p : Nat) (f : Page → Page) : (s.modPage p f).anl = s.anl := by
  unfold State.modPage; simp only []; split <;> simp
@[simp] theorem State.modPage_trn (s : State) (p : Nat) (f : Page → Page) : (s.modPage p f).trn = s.trn := by
  unfold State.modPage; simp only []; split <;> simp
@[simp] theorem State.modPage_clx (s : State) (p : Nat) (f : Page → Page) : (s.modPage p f).clx = s.clx := by
  unfold State.modPage; simp only []; split <;> simp
@[simp] theorem State.modPage_ques (s : State) (p : Nat) (f : Page → Page) : (s.modPage p f).ques = s.ques := by
  unfold State.modPage; simp only []; split <;> simp
@[simp] theorem State.modPage_mgt (s : State) (p : Nat) (f : Page → Page) : (s.modPage p f).mgt = s.mgt := by
  unfold State.modPage; simp only []; split <;> simp

/-! `State.raise` writes `regs`, `msixPend`, `out`, `dmaWait`, `pages` and nothing else. -/

@[simp] theorem State.raise_pending (s : State) (p b : Nat) : (s.raise p b).pending = s.pending := by
  simp [State.raise]
@[simp] theorem State.raise_free (s : State) (p b : Nat) : (s.raise p b).free = s.free := by
  simp [State.raise]
@[simp] theorem State.raise_rdHost (s : State) (p b : Nat) : (s.raise p b).rdHost = s.rdHost := by
  simp [State.raise]
@[simp] theorem State.raise_rdMgmt (s : State) (p b : Nat) : (s.raise p b).rdMgmt = s.rdMgmt := by
  simp [State.raise]
@[simp] theorem State.raise_deferred (s : State) (p b : Nat) : (s.raise p b).deferred = s.deferred := by
  simp [State.raise]
@[simp] theorem State.raise_pw (s : State) (p b : Nat) : (s.raise p b).pw = s.pw := by
  simp [State.raise]
@[simp] theorem State.raise_nv (s : State) (p b : Nat) : (s.raise p b).nv = s.nv := by
  simp [State.raise]
@[simp] theorem State.raise_log (s : State) (p b : Nat) : (s.raise p b).log = s.log := by
  simp [State.raise]
@[simp] theorem State.raise_msixMask (s : State) (p b : Nat) : (s.raise p b).msixMask = s.msixMask := by
  simp [State.raise]
@[simp] theorem State.raise_cores (s : State) (p b : Nat) : (s.raise p b).cores = s.cores := by
  simp [State.raise]
@[simp] theorem State.raise_arrs (s : State) (p b : Nat) : (s.raise p b).arrs = s.arrs := by
  simp [State.raise]
@[simp] theorem State.raise_clus (s : State) (p b : Nat) : (s.raise p b).clus = s.clus := by
  simp [State.raise]
@[simp] theorem State.raise_ctxs (s : State) (p b : Nat) : (s.raise p b).ctxs = s.ctxs := by
  simp [State.raise]
@[simp] theorem State.raise_locks (s : State) (p b : Nat) : (s.raise p b).locks = s.locks := by
  simp [State.raise]
@[simp] theorem State.raise_chk (s : State) (p b : Nat) : (s.raise p b).chk = s.chk := by
  simp [State.raise]
@[simp] theorem State.raise_links (s : State) (p b : Nat) : (s.raise p b).links = s.links := by
  simp [State.raise]
@[simp] theorem State.raise_fab (s : State) (p b : Nat) : (s.raise p b).fab = s.fab := by
  simp [State.raise]
@[simp] theorem State.raise_mem (s : State) (p b : Nat) : (s.raise p b).mem = s.mem := by
  simp [State.raise]
@[simp] theorem State.raise_tier (s : State) (p b : Nat) : (s.raise p b).tier = s.tier := by
  simp [State.raise]
@[simp] theorem State.raise_wpb (s : State) (p b : Nat) : (s.raise p b).wpb = s.wpb := by
  simp [State.raise]
@[simp] theorem State.raise_eps (s : State) (p b : Nat) : (s.raise p b).eps = s.eps := by
  simp [State.raise]
@[simp] theorem State.raise_anl (s : State) (p b : Nat) : (s.raise p b).anl = s.anl := by
  simp [State.raise]
@[simp] theorem State.raise_trn (s : State) (p b : Nat) : (s.raise p b).trn = s.trn := by
  simp [State.raise]
@[simp] theorem State.raise_clx (s : State) (p b : Nat) : (s.raise p b).clx = s.clx := by
  simp [State.raise]
@[simp] theorem State.raise_ques (s : State) (p b : Nat) : (s.raise p b).ques = s.ques := by
  simp [State.raise]
@[simp] theorem State.raise_mgt (s : State) (p b : Nat) : (s.raise p b).mgt = s.mgt := by
  simp [State.raise]

/-! `State.violation` writes `regs`, `msixPend`, `out`, `dmaWait`, `pages` and nothing else. -/

@[simp] theorem State.violation_pending (s : State) (r : Requester) (p o : Nat) (a b : Bool) : (s.violation r p o a b).pending = s.pending := by
  simp [State.violation]
@[simp] theorem State.violation_free (s : State) (r : Requester) (p o : Nat) (a b : Bool) : (s.violation r p o a b).free = s.free := by
  simp [State.violation]
@[simp] theorem State.violation_rdHost (s : State) (r : Requester) (p o : Nat) (a b : Bool) : (s.violation r p o a b).rdHost = s.rdHost := by
  simp [State.violation]
@[simp] theorem State.violation_rdMgmt (s : State) (r : Requester) (p o : Nat) (a b : Bool) : (s.violation r p o a b).rdMgmt = s.rdMgmt := by
  simp [State.violation]
@[simp] theorem State.violation_deferred (s : State) (r : Requester) (p o : Nat) (a b : Bool) : (s.violation r p o a b).deferred = s.deferred := by
  simp [State.violation]
@[simp] theorem State.violation_pw (s : State) (r : Requester) (p o : Nat) (a b : Bool) : (s.violation r p o a b).pw = s.pw := by
  simp [State.violation]
@[simp] theorem State.violation_nv (s : State) (r : Requester) (p o : Nat) (a b : Bool) : (s.violation r p o a b).nv = s.nv := by
  simp [State.violation]
@[simp] theorem State.violation_log (s : State) (r : Requester) (p o : Nat) (a b : Bool) : (s.violation r p o a b).log = s.log := by
  simp [State.violation]
@[simp] theorem State.violation_msixMask (s : State) (r : Requester) (p o : Nat) (a b : Bool) : (s.violation r p o a b).msixMask = s.msixMask := by
  simp [State.violation]
@[simp] theorem State.violation_cores (s : State) (r : Requester) (p o : Nat) (a b : Bool) : (s.violation r p o a b).cores = s.cores := by
  simp [State.violation]
@[simp] theorem State.violation_arrs (s : State) (r : Requester) (p o : Nat) (a b : Bool) : (s.violation r p o a b).arrs = s.arrs := by
  simp [State.violation]
@[simp] theorem State.violation_clus (s : State) (r : Requester) (p o : Nat) (a b : Bool) : (s.violation r p o a b).clus = s.clus := by
  simp [State.violation]
@[simp] theorem State.violation_ctxs (s : State) (r : Requester) (p o : Nat) (a b : Bool) : (s.violation r p o a b).ctxs = s.ctxs := by
  simp [State.violation]
@[simp] theorem State.violation_locks (s : State) (r : Requester) (p o : Nat) (a b : Bool) : (s.violation r p o a b).locks = s.locks := by
  simp [State.violation]
@[simp] theorem State.violation_chk (s : State) (r : Requester) (p o : Nat) (a b : Bool) : (s.violation r p o a b).chk = s.chk := by
  simp [State.violation]
@[simp] theorem State.violation_links (s : State) (r : Requester) (p o : Nat) (a b : Bool) : (s.violation r p o a b).links = s.links := by
  simp [State.violation]
@[simp] theorem State.violation_fab (s : State) (r : Requester) (p o : Nat) (a b : Bool) : (s.violation r p o a b).fab = s.fab := by
  simp [State.violation]
@[simp] theorem State.violation_mem (s : State) (r : Requester) (p o : Nat) (a b : Bool) : (s.violation r p o a b).mem = s.mem := by
  simp [State.violation]
@[simp] theorem State.violation_tier (s : State) (r : Requester) (p o : Nat) (a b : Bool) : (s.violation r p o a b).tier = s.tier := by
  simp [State.violation]
@[simp] theorem State.violation_wpb (s : State) (r : Requester) (p o : Nat) (a b : Bool) : (s.violation r p o a b).wpb = s.wpb := by
  simp [State.violation]
@[simp] theorem State.violation_eps (s : State) (r : Requester) (p o : Nat) (a b : Bool) : (s.violation r p o a b).eps = s.eps := by
  simp [State.violation]
@[simp] theorem State.violation_anl (s : State) (r : Requester) (p o : Nat) (a b : Bool) : (s.violation r p o a b).anl = s.anl := by
  simp [State.violation]
@[simp] theorem State.violation_trn (s : State) (r : Requester) (p o : Nat) (a b : Bool) : (s.violation r p o a b).trn = s.trn := by
  simp [State.violation]
@[simp] theorem State.violation_clx (s : State) (r : Requester) (p o : Nat) (a b : Bool) : (s.violation r p o a b).clx = s.clx := by
  simp [State.violation]
@[simp] theorem State.violation_ques (s : State) (r : Requester) (p o : Nat) (a b : Bool) : (s.violation r p o a b).ques = s.ques := by
  simp [State.violation]
@[simp] theorem State.violation_mgt (s : State) (r : Requester) (p o : Nat) (a b : Bool) : (s.violation r p o a b).mgt = s.mgt := by
  simp [State.violation]

/-! `State.detect` writes `regs`, `log` and nothing else. -/

@[simp] theorem State.detect_pending (s : State) (cls : BitVec 2) (st : BitVec 16) (b i : Nat) (x : Option CtxId) (n : Nat) : (s.detect cls st b i x n).pending = s.pending := by
  unfold State.detect; simp only []; repeat' split
  all_goals simp
@[simp] theorem State.detect_out (s : State) (cls : BitVec 2) (st : BitVec 16) (b i : Nat) (x : Option CtxId) (n : Nat) : (s.detect cls st b i x n).out = s.out := by
  unfold State.detect; simp only []; repeat' split
  all_goals simp
@[simp] theorem State.detect_dmaWait (s : State) (cls : BitVec 2) (st : BitVec 16) (b i : Nat) (x : Option CtxId) (n : Nat) : (s.detect cls st b i x n).dmaWait = s.dmaWait := by
  unfold State.detect; simp only []; repeat' split
  all_goals simp
@[simp] theorem State.detect_free (s : State) (cls : BitVec 2) (st : BitVec 16) (b i : Nat) (x : Option CtxId) (n : Nat) : (s.detect cls st b i x n).free = s.free := by
  unfold State.detect; simp only []; repeat' split
  all_goals simp
@[simp] theorem State.detect_rdHost (s : State) (cls : BitVec 2) (st : BitVec 16) (b i : Nat) (x : Option CtxId) (n : Nat) : (s.detect cls st b i x n).rdHost = s.rdHost := by
  unfold State.detect; simp only []; repeat' split
  all_goals simp
@[simp] theorem State.detect_rdMgmt (s : State) (cls : BitVec 2) (st : BitVec 16) (b i : Nat) (x : Option CtxId) (n : Nat) : (s.detect cls st b i x n).rdMgmt = s.rdMgmt := by
  unfold State.detect; simp only []; repeat' split
  all_goals simp
@[simp] theorem State.detect_deferred (s : State) (cls : BitVec 2) (st : BitVec 16) (b i : Nat) (x : Option CtxId) (n : Nat) : (s.detect cls st b i x n).deferred = s.deferred := by
  unfold State.detect; simp only []; repeat' split
  all_goals simp
@[simp] theorem State.detect_pages (s : State) (cls : BitVec 2) (st : BitVec 16) (b i : Nat) (x : Option CtxId) (n : Nat) : (s.detect cls st b i x n).pages = s.pages := by
  unfold State.detect; simp only []; repeat' split
  all_goals simp
@[simp] theorem State.detect_pw (s : State) (cls : BitVec 2) (st : BitVec 16) (b i : Nat) (x : Option CtxId) (n : Nat) : (s.detect cls st b i x n).pw = s.pw := by
  unfold State.detect; simp only []; repeat' split
  all_goals simp
@[simp] theorem State.detect_nv (s : State) (cls : BitVec 2) (st : BitVec 16) (b i : Nat) (x : Option CtxId) (n : Nat) : (s.detect cls st b i x n).nv = s.nv := by
  unfold State.detect; simp only []; repeat' split
  all_goals simp
@[simp] theorem State.detect_msixMask (s : State) (cls : BitVec 2) (st : BitVec 16) (b i : Nat) (x : Option CtxId) (n : Nat) : (s.detect cls st b i x n).msixMask = s.msixMask := by
  unfold State.detect; simp only []; repeat' split
  all_goals simp
@[simp] theorem State.detect_msixPend (s : State) (cls : BitVec 2) (st : BitVec 16) (b i : Nat) (x : Option CtxId) (n : Nat) : (s.detect cls st b i x n).msixPend = s.msixPend := by
  unfold State.detect; simp only []; repeat' split
  all_goals simp
@[simp] theorem State.detect_cores (s : State) (cls : BitVec 2) (st : BitVec 16) (b i : Nat) (x : Option CtxId) (n : Nat) : (s.detect cls st b i x n).cores = s.cores := by
  unfold State.detect; simp only []; repeat' split
  all_goals simp
@[simp] theorem State.detect_arrs (s : State) (cls : BitVec 2) (st : BitVec 16) (b i : Nat) (x : Option CtxId) (n : Nat) : (s.detect cls st b i x n).arrs = s.arrs := by
  unfold State.detect; simp only []; repeat' split
  all_goals simp
@[simp] theorem State.detect_clus (s : State) (cls : BitVec 2) (st : BitVec 16) (b i : Nat) (x : Option CtxId) (n : Nat) : (s.detect cls st b i x n).clus = s.clus := by
  unfold State.detect; simp only []; repeat' split
  all_goals simp
@[simp] theorem State.detect_ctxs (s : State) (cls : BitVec 2) (st : BitVec 16) (b i : Nat) (x : Option CtxId) (n : Nat) : (s.detect cls st b i x n).ctxs = s.ctxs := by
  unfold State.detect; simp only []; repeat' split
  all_goals simp
@[simp] theorem State.detect_locks (s : State) (cls : BitVec 2) (st : BitVec 16) (b i : Nat) (x : Option CtxId) (n : Nat) : (s.detect cls st b i x n).locks = s.locks := by
  unfold State.detect; simp only []; repeat' split
  all_goals simp
@[simp] theorem State.detect_chk (s : State) (cls : BitVec 2) (st : BitVec 16) (b i : Nat) (x : Option CtxId) (n : Nat) : (s.detect cls st b i x n).chk = s.chk := by
  unfold State.detect; simp only []; repeat' split
  all_goals simp
@[simp] theorem State.detect_links (s : State) (cls : BitVec 2) (st : BitVec 16) (b i : Nat) (x : Option CtxId) (n : Nat) : (s.detect cls st b i x n).links = s.links := by
  unfold State.detect; simp only []; repeat' split
  all_goals simp
@[simp] theorem State.detect_fab (s : State) (cls : BitVec 2) (st : BitVec 16) (b i : Nat) (x : Option CtxId) (n : Nat) : (s.detect cls st b i x n).fab = s.fab := by
  unfold State.detect; simp only []; repeat' split
  all_goals simp
@[simp] theorem State.detect_mem (s : State) (cls : BitVec 2) (st : BitVec 16) (b i : Nat) (x : Option CtxId) (n : Nat) : (s.detect cls st b i x n).mem = s.mem := by
  unfold State.detect; simp only []; repeat' split
  all_goals simp
@[simp] theorem State.detect_tier (s : State) (cls : BitVec 2) (st : BitVec 16) (b i : Nat) (x : Option CtxId) (n : Nat) : (s.detect cls st b i x n).tier = s.tier := by
  unfold State.detect; simp only []; repeat' split
  all_goals simp
@[simp] theorem State.detect_wpb (s : State) (cls : BitVec 2) (st : BitVec 16) (b i : Nat) (x : Option CtxId) (n : Nat) : (s.detect cls st b i x n).wpb = s.wpb := by
  unfold State.detect; simp only []; repeat' split
  all_goals simp
@[simp] theorem State.detect_eps (s : State) (cls : BitVec 2) (st : BitVec 16) (b i : Nat) (x : Option CtxId) (n : Nat) : (s.detect cls st b i x n).eps = s.eps := by
  unfold State.detect; simp only []; repeat' split
  all_goals simp
@[simp] theorem State.detect_anl (s : State) (cls : BitVec 2) (st : BitVec 16) (b i : Nat) (x : Option CtxId) (n : Nat) : (s.detect cls st b i x n).anl = s.anl := by
  unfold State.detect; simp only []; repeat' split
  all_goals simp
@[simp] theorem State.detect_trn (s : State) (cls : BitVec 2) (st : BitVec 16) (b i : Nat) (x : Option CtxId) (n : Nat) : (s.detect cls st b i x n).trn = s.trn := by
  unfold State.detect; simp only []; repeat' split
  all_goals simp
@[simp] theorem State.detect_clx (s : State) (cls : BitVec 2) (st : BitVec 16) (b i : Nat) (x : Option CtxId) (n : Nat) : (s.detect cls st b i x n).clx = s.clx := by
  unfold State.detect; simp only []; repeat' split
  all_goals simp
@[simp] theorem State.detect_ques (s : State) (cls : BitVec 2) (st : BitVec 16) (b i : Nat) (x : Option CtxId) (n : Nat) : (s.detect cls st b i x n).ques = s.ques := by
  unfold State.detect; simp only []; repeat' split
  all_goals simp
@[simp] theorem State.detect_mgt (s : State) (cls : BitVec 2) (st : BitVec 16) (b i : Nat) (x : Option CtxId) (n : Nat) : (s.detect cls st b i x n).mgt = s.mgt := by
  unfold State.detect; simp only []; repeat' split
  all_goals simp

/-! `State.detectOpen` writes `regs`, `log`, `free` and nothing else. -/

@[simp] theorem State.detectOpen_pending (s : State) (cls : BitVec 2) (st : BitVec 16) (b i : Nat) (x : Option CtxId) : (s.detectOpen cls st b i x).pending = s.pending := by
  simp [State.detectOpen]
@[simp] theorem State.detectOpen_out (s : State) (cls : BitVec 2) (st : BitVec 16) (b i : Nat) (x : Option CtxId) : (s.detectOpen cls st b i x).out = s.out := by
  simp [State.detectOpen]
@[simp] theorem State.detectOpen_dmaWait (s : State) (cls : BitVec 2) (st : BitVec 16) (b i : Nat) (x : Option CtxId) : (s.detectOpen cls st b i x).dmaWait = s.dmaWait := by
  simp [State.detectOpen]
@[simp] theorem State.detectOpen_rdHost (s : State) (cls : BitVec 2) (st : BitVec 16) (b i : Nat) (x : Option CtxId) : (s.detectOpen cls st b i x).rdHost = s.rdHost := by
  simp [State.detectOpen]
@[simp] theorem State.detectOpen_rdMgmt (s : State) (cls : BitVec 2) (st : BitVec 16) (b i : Nat) (x : Option CtxId) : (s.detectOpen cls st b i x).rdMgmt = s.rdMgmt := by
  simp [State.detectOpen]
@[simp] theorem State.detectOpen_deferred (s : State) (cls : BitVec 2) (st : BitVec 16) (b i : Nat) (x : Option CtxId) : (s.detectOpen cls st b i x).deferred = s.deferred := by
  simp [State.detectOpen]
@[simp] theorem State.detectOpen_pages (s : State) (cls : BitVec 2) (st : BitVec 16) (b i : Nat) (x : Option CtxId) : (s.detectOpen cls st b i x).pages = s.pages := by
  simp [State.detectOpen]
@[simp] theorem State.detectOpen_pw (s : State) (cls : BitVec 2) (st : BitVec 16) (b i : Nat) (x : Option CtxId) : (s.detectOpen cls st b i x).pw = s.pw := by
  simp [State.detectOpen]
@[simp] theorem State.detectOpen_nv (s : State) (cls : BitVec 2) (st : BitVec 16) (b i : Nat) (x : Option CtxId) : (s.detectOpen cls st b i x).nv = s.nv := by
  simp [State.detectOpen]
@[simp] theorem State.detectOpen_msixMask (s : State) (cls : BitVec 2) (st : BitVec 16) (b i : Nat) (x : Option CtxId) : (s.detectOpen cls st b i x).msixMask = s.msixMask := by
  simp [State.detectOpen]
@[simp] theorem State.detectOpen_msixPend (s : State) (cls : BitVec 2) (st : BitVec 16) (b i : Nat) (x : Option CtxId) : (s.detectOpen cls st b i x).msixPend = s.msixPend := by
  simp [State.detectOpen]
@[simp] theorem State.detectOpen_cores (s : State) (cls : BitVec 2) (st : BitVec 16) (b i : Nat) (x : Option CtxId) : (s.detectOpen cls st b i x).cores = s.cores := by
  simp [State.detectOpen]
@[simp] theorem State.detectOpen_arrs (s : State) (cls : BitVec 2) (st : BitVec 16) (b i : Nat) (x : Option CtxId) : (s.detectOpen cls st b i x).arrs = s.arrs := by
  simp [State.detectOpen]
@[simp] theorem State.detectOpen_clus (s : State) (cls : BitVec 2) (st : BitVec 16) (b i : Nat) (x : Option CtxId) : (s.detectOpen cls st b i x).clus = s.clus := by
  simp [State.detectOpen]
@[simp] theorem State.detectOpen_ctxs (s : State) (cls : BitVec 2) (st : BitVec 16) (b i : Nat) (x : Option CtxId) : (s.detectOpen cls st b i x).ctxs = s.ctxs := by
  simp [State.detectOpen]
@[simp] theorem State.detectOpen_locks (s : State) (cls : BitVec 2) (st : BitVec 16) (b i : Nat) (x : Option CtxId) : (s.detectOpen cls st b i x).locks = s.locks := by
  simp [State.detectOpen]
@[simp] theorem State.detectOpen_chk (s : State) (cls : BitVec 2) (st : BitVec 16) (b i : Nat) (x : Option CtxId) : (s.detectOpen cls st b i x).chk = s.chk := by
  simp [State.detectOpen]
@[simp] theorem State.detectOpen_links (s : State) (cls : BitVec 2) (st : BitVec 16) (b i : Nat) (x : Option CtxId) : (s.detectOpen cls st b i x).links = s.links := by
  simp [State.detectOpen]
@[simp] theorem State.detectOpen_fab (s : State) (cls : BitVec 2) (st : BitVec 16) (b i : Nat) (x : Option CtxId) : (s.detectOpen cls st b i x).fab = s.fab := by
  simp [State.detectOpen]
@[simp] theorem State.detectOpen_mem (s : State) (cls : BitVec 2) (st : BitVec 16) (b i : Nat) (x : Option CtxId) : (s.detectOpen cls st b i x).mem = s.mem := by
  simp [State.detectOpen]
@[simp] theorem State.detectOpen_tier (s : State) (cls : BitVec 2) (st : BitVec 16) (b i : Nat) (x : Option CtxId) : (s.detectOpen cls st b i x).tier = s.tier := by
  simp [State.detectOpen]
@[simp] theorem State.detectOpen_wpb (s : State) (cls : BitVec 2) (st : BitVec 16) (b i : Nat) (x : Option CtxId) : (s.detectOpen cls st b i x).wpb = s.wpb := by
  simp [State.detectOpen]
@[simp] theorem State.detectOpen_eps (s : State) (cls : BitVec 2) (st : BitVec 16) (b i : Nat) (x : Option CtxId) : (s.detectOpen cls st b i x).eps = s.eps := by
  simp [State.detectOpen]
@[simp] theorem State.detectOpen_anl (s : State) (cls : BitVec 2) (st : BitVec 16) (b i : Nat) (x : Option CtxId) : (s.detectOpen cls st b i x).anl = s.anl := by
  simp [State.detectOpen]
@[simp] theorem State.detectOpen_trn (s : State) (cls : BitVec 2) (st : BitVec 16) (b i : Nat) (x : Option CtxId) : (s.detectOpen cls st b i x).trn = s.trn := by
  simp [State.detectOpen]
@[simp] theorem State.detectOpen_clx (s : State) (cls : BitVec 2) (st : BitVec 16) (b i : Nat) (x : Option CtxId) : (s.detectOpen cls st b i x).clx = s.clx := by
  simp [State.detectOpen]
@[simp] theorem State.detectOpen_ques (s : State) (cls : BitVec 2) (st : BitVec 16) (b i : Nat) (x : Option CtxId) : (s.detectOpen cls st b i x).ques = s.ques := by
  simp [State.detectOpen]
@[simp] theorem State.detectOpen_mgt (s : State) (cls : BitVec 2) (st : BitVec 16) (b i : Nat) (x : Option CtxId) : (s.detectOpen cls st b i x).mgt = s.mgt := by
  simp [State.detectOpen]

/-! `State.wakeOne` writes `regs`, `pw`, `free` and nothing else. -/

@[simp] theorem State.wakeOne_pending (s : State) (d : Nat) : (s.wakeOne d).pending = s.pending := by
  simp [State.wakeOne, apply_ite State.pending]
@[simp] theorem State.wakeOne_out (s : State) (d : Nat) : (s.wakeOne d).out = s.out := by
  simp [State.wakeOne, apply_ite State.out]
@[simp] theorem State.wakeOne_dmaWait (s : State) (d : Nat) : (s.wakeOne d).dmaWait = s.dmaWait := by
  simp [State.wakeOne, apply_ite State.dmaWait]
@[simp] theorem State.wakeOne_rdHost (s : State) (d : Nat) : (s.wakeOne d).rdHost = s.rdHost := by
  simp [State.wakeOne, apply_ite State.rdHost]
@[simp] theorem State.wakeOne_rdMgmt (s : State) (d : Nat) : (s.wakeOne d).rdMgmt = s.rdMgmt := by
  simp [State.wakeOne, apply_ite State.rdMgmt]
@[simp] theorem State.wakeOne_deferred (s : State) (d : Nat) : (s.wakeOne d).deferred = s.deferred := by
  simp [State.wakeOne, apply_ite State.deferred]
@[simp] theorem State.wakeOne_pages (s : State) (d : Nat) : (s.wakeOne d).pages = s.pages := by
  simp [State.wakeOne, apply_ite State.pages]
@[simp] theorem State.wakeOne_nv (s : State) (d : Nat) : (s.wakeOne d).nv = s.nv := by
  simp [State.wakeOne, apply_ite State.nv]
@[simp] theorem State.wakeOne_log (s : State) (d : Nat) : (s.wakeOne d).log = s.log := by
  simp [State.wakeOne, apply_ite State.log]
@[simp] theorem State.wakeOne_msixMask (s : State) (d : Nat) : (s.wakeOne d).msixMask = s.msixMask := by
  simp [State.wakeOne, apply_ite State.msixMask]
@[simp] theorem State.wakeOne_msixPend (s : State) (d : Nat) : (s.wakeOne d).msixPend = s.msixPend := by
  simp [State.wakeOne, apply_ite State.msixPend]
@[simp] theorem State.wakeOne_cores (s : State) (d : Nat) : (s.wakeOne d).cores = s.cores := by
  simp [State.wakeOne, apply_ite State.cores]
@[simp] theorem State.wakeOne_arrs (s : State) (d : Nat) : (s.wakeOne d).arrs = s.arrs := by
  simp [State.wakeOne, apply_ite State.arrs]
@[simp] theorem State.wakeOne_clus (s : State) (d : Nat) : (s.wakeOne d).clus = s.clus := by
  simp [State.wakeOne, apply_ite State.clus]
@[simp] theorem State.wakeOne_ctxs (s : State) (d : Nat) : (s.wakeOne d).ctxs = s.ctxs := by
  simp [State.wakeOne, apply_ite State.ctxs]
@[simp] theorem State.wakeOne_locks (s : State) (d : Nat) : (s.wakeOne d).locks = s.locks := by
  simp [State.wakeOne, apply_ite State.locks]
@[simp] theorem State.wakeOne_chk (s : State) (d : Nat) : (s.wakeOne d).chk = s.chk := by
  simp [State.wakeOne, apply_ite State.chk]
@[simp] theorem State.wakeOne_links (s : State) (d : Nat) : (s.wakeOne d).links = s.links := by
  simp [State.wakeOne, apply_ite State.links]
@[simp] theorem State.wakeOne_fab (s : State) (d : Nat) : (s.wakeOne d).fab = s.fab := by
  simp [State.wakeOne, apply_ite State.fab]
@[simp] theorem State.wakeOne_mem (s : State) (d : Nat) : (s.wakeOne d).mem = s.mem := by
  simp [State.wakeOne, apply_ite State.mem]
@[simp] theorem State.wakeOne_tier (s : State) (d : Nat) : (s.wakeOne d).tier = s.tier := by
  simp [State.wakeOne, apply_ite State.tier]
@[simp] theorem State.wakeOne_wpb (s : State) (d : Nat) : (s.wakeOne d).wpb = s.wpb := by
  simp [State.wakeOne, apply_ite State.wpb]
@[simp] theorem State.wakeOne_eps (s : State) (d : Nat) : (s.wakeOne d).eps = s.eps := by
  simp [State.wakeOne, apply_ite State.eps]
@[simp] theorem State.wakeOne_anl (s : State) (d : Nat) : (s.wakeOne d).anl = s.anl := by
  simp [State.wakeOne, apply_ite State.anl]
@[simp] theorem State.wakeOne_trn (s : State) (d : Nat) : (s.wakeOne d).trn = s.trn := by
  simp [State.wakeOne, apply_ite State.trn]
@[simp] theorem State.wakeOne_clx (s : State) (d : Nat) : (s.wakeOne d).clx = s.clx := by
  simp [State.wakeOne, apply_ite State.clx]
@[simp] theorem State.wakeOne_ques (s : State) (d : Nat) : (s.wakeOne d).ques = s.ques := by
  simp [State.wakeOne, apply_ite State.ques]
@[simp] theorem State.wakeOne_mgt (s : State) (d : Nat) : (s.wakeOne d).mgt = s.mgt := by
  simp [State.wakeOne, apply_ite State.mgt]

/-! ### Registers -/

/-- A register reads the value written to it. -/
@[simp] theorem State.reg_setReg_same (s : State) (p o : Nat) (v : Word32) : (s.setReg p o v).reg p o = v := by
  simp [State.reg, State.setReg]

/-- A write to one register leaves every other register as it was. -/
theorem State.reg_setReg_ne (s : State) {p o q k : Nat} (v : Word32) (h : q * 4096 + k ≠ p * 4096 + o) :
    (s.setReg p o v).reg q k = s.reg q k := by
  simp only [State.reg, State.setReg]; exact sget_sset_ne' _ _ _ _ h

/-- Updates that leave `regs` leave every register. -/
theorem State.reg_congr {s t : State} (h : t.regs = s.regs) (p o : Nat) : t.reg p o = s.reg p o := by
  simp [State.reg, h]

/-! ### Pages -/

/-- The header of a page after a change of it. -/
@[simp] theorem State.page_modPage_same (s : State) (p : Nat) (f : Page → Page) : (s.modPage p f).page p = f (s.page p) := by
  unfold State.modPage State.signalVec State.dmaOut
  simp only []
  repeat' split
  all_goals simp [State.page]

/-- A change of one page's header leaves every other header as it was. -/
theorem State.page_modPage_ne (s : State) {p q : Nat} (f : Page → Page) (h : q ≠ p) :
    (s.modPage p f).page q = s.page q := by
  unfold State.modPage State.signalVec State.dmaOut
  simp only []
  repeat' split
  all_goals simp [State.page, sget_sset_ne _ _ _ h]

/-- A change of a header in which no event rises to pending signals nothing (R38). -/
theorem State.modPage_quiet (s : State) (p : Nat) (f : Page → Page)
    (h : (s.page p).evt &&& (s.page p).evtEn = 0 → (f (s.page p)).evt &&& (f (s.page p)).evtEn = 0) :
    s.modPage p f = { s with pages := sset {} s.pages p (f (s.page p)) } := by
  unfold State.modPage
  simp only []
  rw [if_neg]
  rintro ⟨h1, h2⟩
  exact h2 (h h1)

/-! ### Domains, cores and contexts -/

@[simp] theorem State.dom_modDom_same (s : State) (d : Nat) (f : Dom → Dom) : (s.modDom d f).dom d = f (s.dom d) := by
  simp [State.dom, State.modDom]

theorem State.dom_modDom_ne (s : State) {d e : Nat} (f : Dom → Dom) (h : e ≠ d) : (s.modDom d f).dom e = s.dom e := by
  simp [State.dom, State.modDom, sget_smod_ne _ _ _ h]

@[simp] theorem State.core_setCore_same (s : State) (c : Nat) (k : Core) : (s.setCore c k).core c = k := by
  simp [State.core, State.setCore]

theorem State.core_setCore_ne (s : State) {c e : Nat} (k : Core) (h : e ≠ c) : (s.setCore c k).core e = s.core e := by
  simp [State.core, State.setCore, sget_sset_ne _ _ _ h]

@[simp] theorem State.core_modCore_same (s : State) (c : Nat) (f : Core → Core) :
    (s.modCore c f).core c = f (s.core c) := by simp [State.modCore]

theorem State.core_modCore_ne (s : State) {c e : Nat} (f : Core → Core) (h : e ≠ c) :
    (s.modCore c f).core e = s.core e := by simp [State.modCore, State.core_setCore_ne _ _ h]

@[simp] theorem State.ctx_setCtx_same (s : State) (x : Nat) (k : Ctx) : (s.setCtx x k).ctx x = k := by
  simp [State.ctx, State.setCtx]

theorem State.ctx_setCtx_ne (s : State) {x y : Nat} (k : Ctx) (h : y ≠ x) : (s.setCtx x k).ctx y = s.ctx y := by
  simp [State.ctx, State.setCtx, sget_sset_ne _ _ _ h]

@[simp] theorem State.ctx_modCtx_same (s : State) (x : Nat) (f : Ctx → Ctx) :
    (s.modCtx x f).ctx x = f (s.ctx x) := by simp [State.modCtx]

theorem State.ctx_modCtx_ne (s : State) {x y : Nat} (f : Ctx → Ctx) (h : y ≠ x) :
    (s.modCtx x f).ctx y = s.ctx y := by simp [State.modCtx, State.ctx_setCtx_ne _ _ h]

end Sys2Proof.Machine
end

