-- ==== Sys2Proof/Laws/Access.lean ====
section
/-! SUPPORT. How a register write reaches its register: what the gates of Machine/Pages.lean do where they let it
through. -/

namespace Sys2Proof.Machine

@[simp] theorem Page.arm_evt (g : Page) (r : Requester) (b : Bool) : (g.arm r b).evt = g.evt := by
  unfold Page.arm; split <;> rfl
@[simp] theorem Page.arm_evtEn (g : Page) (r : Requester) (b : Bool) : (g.arm r b).evtEn = g.evtEn := by
  unfold Page.arm; split <;> rfl
@[simp] theorem Page.arm_srst (g : Page) (r : Requester) (b : Bool) : (g.arm r b).srst = g.srst := by
  unfold Page.arm; split <;> rfl
@[simp] theorem Page.arm_written (g : Page) (r : Requester) (b : Bool) : (g.arm r b).written = g.written := by
  unfold Page.arm; split <;> rfl
@[simp] theorem Page.arm_locked (g : Page) (r : Requester) (b : Bool) : (g.arm r b).locked = g.locked := by
  unfold Page.arm; split <;> rfl
@[simp] theorem Page.arm_en (g : Page) (r : Requester) (b : Bool) : (g.arm r b).en = g.en := by
  unfold Page.arm; split <;> rfl
@[simp] theorem Page.arm_woViol (g : Page) (r : Requester) (b : Bool) : (g.arm r b).woViol = g.woViol := by
  unfold Page.arm; split <;> rfl
@[simp] theorem Page.arm_sizeErr (g : Page) (r : Requester) (b : Bool) : (g.arm r b).sizeErr = g.sizeErr := by
  unfold Page.arm; split <;> rfl
@[simp] theorem Page.arm_offAccess (g : Page) (r : Requester) (b : Bool) : (g.arm r b).offAccess = g.offAccess := by
  unfold Page.arm; split <;> rfl
@[simp] theorem Page.arm_errAddr (g : Page) (r : Requester) (b : Bool) : (g.arm r b).errAddr = g.errAddr := by
  unfold Page.arm; split <;> rfl
@[simp] theorem Page.arm_armed (g : Page) (r : Requester) (b : Bool) : (g.arm r b).armed r = b := by
  unfold Page.arm Page.armed; split <;> simp_all

/-- Arming and disarming change the page's header and nothing else; no event rises. -/
theorem State.setArmed_eq (s : State) (r : Requester) (p : Nat) (b : Bool) :
    s.setArmed r p b = { s with pages := sset {} s.pages p ((s.page p).arm r b) } := by
  unfold State.setArmed
  rw [State.modPage_quiet]
  simp

/-- After disarming, the header differs in the arm flag alone. -/
theorem State.page_setArmed (s : State) (r : Requester) (p q : Nat) (b : Bool) :
    (s.setArmed r p b).page q = if q = p then (s.page p).arm r b else s.page q := by
  rw [State.setArmed_eq]
  by_cases h : q = p
  · subst h; simp [State.page]
  · simp [State.page, h, sget_sset_ne _ _ _ h]

/-- A requester's access that its page answers goes on to the page. -/
theorem State.reach_of_reaches {s : State} {r : Requester} {p o : Nat} (ho : o < 4096) (w : Bool) (f : State → State)
    (h : s.reaches r p = true) : s.reach r (p * 4096 + o) w f = f s := by
  have hp : (p * 4096 + o) / 4096 = p := by omega
  simp only [State.reaches, Bool.and_eq_true, Bool.not_eq_true', Option.isSome_iff_exists] at h
  obtain ⟨⟨h1, x, h2⟩, h3⟩ := h
  unfold State.reach
  rw [hp, h2]
  rw [if_neg (by rintro ⟨rfl, h⟩; simp [h] at h1)]
  simp [h3]

/-- The gate lets an admitted write through: the page is disarmed, and a WO register counts as written. -/
theorem State.regGate_of_admits {s : State} {r : Requester} {p o : Nat} (f : State → State) (h : s.admits r p o = true) :
    s.regGate r p o f =
      f (if writeOnce (blockType p) o
         then (s.setArmed r p false).modPage p (fun g => { g with written := o :: g.written })
         else s.setArmed r p false) := by
  simp only [State.admits, Bool.and_eq_true, Bool.not_eq_true'] at h
  obtain ⟨⟨_, h2⟩, h3⟩ := h
  have e1 : ((s.setArmed r p false).page p).srst = (s.page p).srst := by simp [State.page_setArmed]
  have e2 : ((s.setArmed r p false).page p).written = (s.page p).written := by simp [State.page_setArmed]
  have e3 : ((s.setArmed r p false).page p).locked = (s.page p).locked := by simp [State.page_setArmed]
  unfold State.regGate
  simp only [e1]
  rw [if_neg (by rintro ⟨a, b, c⟩; simp [a, b, c] at h2)]
  unfold writeOnce
  cases hr : regRow (blockType p) o with
  | none => simp
  | some row =>
    rw [hr] at h3
    simp only [Bool.and_eq_true, Bool.not_eq_true', Bool.and_eq_false_iff, beq_eq_false_iff_ne] at h3
    simp only [e2, e3]
    by_cases hw : row.acc = .wo
    · have := h3.1.resolve_left (by simp [hw])
      have hn : o ∉ (s.page p).written := by simpa using this
      simp [hw, hn]
    · simp only [hw, if_false, beq_iff_eq]
      rw [if_neg]
      rintro ⟨ha, hb⟩
      exact (h3.2.resolve_left (by simp [ha])) |> fun hh => by simp [hb] at hh

/-- A write command whose page admits it has its own effect, on the disarmed state. -/
theorem State.write_of_admits {s : State} {r : Requester} {p o : Nat} (ho : o < 4096) (f : State → State)
    (hw : writeOnce (blockType p) o = false) (h : s.admits r p o = true) :
    s.write r p o f = f (s.setArmed r p false) := by
  have hr : s.reaches r p = true := by
    simp only [State.admits, Bool.and_eq_true] at h; exact h.1.1
  unfold State.write
  rw [State.reach_of_reaches ho true _ hr, State.regGate_of_admits f h, if_neg (by simp [hw])]

end Sys2Proof.Machine
end

