-- ==== Sys2Proof/Laws/Memory.lean ====
section
/-! SUPPORT. Every operation on the memories, the flash and the fuses keeps their canonical form (DESIGN CHOICE, log entry 3). -/

namespace Sys2Proof.Machine

/-- The six maps, one by one. -/
theorem State.memoryWf_iff (s : State) : s.memoryWf = true ↔
    (swf (fun _ => 0) s.mem.bytes = true ∧ swf (fun _ => false) s.mem.poison = true ∧
     swf (fun _ => 0) s.mem.pool = true ∧ swf (fun _ => false) s.mem.poolMarks = true) ∧
    swf (fun _ => 0xFF) s.nv.flash = true ∧ swf (fun _ => 0) s.nv.fuses = true := by
  simp only [State.memoryWf, Bool.and_eq_true, and_assoc]

/-- What leaves the memories and the NV storage alone keeps the form. -/
theorem State.memoryWf_congr {s t : State} (hm : t.mem = s.mem) (hn : t.nv = s.nv) : t.memoryWf = s.memoryWf := by
  simp only [State.memoryWf, hm, hn]

@[simp] theorem State.memoryWf_inc (s : State) (p o n : Nat) : (s.inc p o n).memoryWf = s.memoryWf :=
  State.memoryWf_congr rfl rfl
@[simp] theorem State.memoryWf_setReg (s : State) (p o : Nat) (v : Word32) : (s.setReg p o v).memoryWf = s.memoryWf :=
  State.memoryWf_congr rfl rfl
@[simp] theorem State.memoryWf_setReg64 (s : State) (p o : Nat) (v : Word64) : (s.setReg64 p o v).memoryWf = s.memoryWf :=
  State.memoryWf_congr rfl rfl
@[simp] theorem State.memoryWf_raise (s : State) (p b : Nat) : (s.raise p b).memoryWf = s.memoryWf :=
  State.memoryWf_congr (by simp) (by simp)
@[simp] theorem State.memoryWf_detect (s : State) (c : BitVec 2) (st : BitVec 16) (b i : Nat) (x : Option CtxId) (n : Nat) :
    (s.detect c st b i x n).memoryWf = s.memoryWf := State.memoryWf_congr (by simp) (by simp)
@[simp] theorem State.memoryWf_wakeOne (s : State) (d : Nat) : (s.wakeOne d).memoryWf = s.memoryWf :=
  State.memoryWf_congr (by simp) (by simp)

/-- Waking a domain keeps the form. -/
theorem State.memoryWf_wakeDom (s : State) (d : Nat) : (s.wakeDom d).memoryWf = s.memoryWf := by
  have h : ∀ (l : List Nat) (s : State), (l.foldl (fun s e => s.wakeOne e) s).memoryWf = s.memoryWf := by
    intro l
    induction l with
    | nil => intro s; rfl
    | cons e es ih => intro s; rw [List.foldl_cons, ih, State.memoryWf_wakeOne]
  unfold State.wakeDom
  split
  · rfl
  · exact h _ s

/-! ### Stacked memory and the hint cache -/

theorem State.memoryWf_setWay (s : State) (sl set w : Nat) (l : Option HccLine) :
    (s.setWay sl set w l).memoryWf = s.memoryWf := rfl

theorem State.memoryWf_heatUp (s : State) (sl line : Nat) : (s.heatUp sl line).memoryWf = s.memoryWf := rfl

theorem State.memoryWf_storeLine {s : State} (line : Nat) (bs : List Byte) (p : Bool) (h : s.memoryWf = true) :
    (s.storeLine line bs p).memoryWf = true := by
  rw [State.memoryWf_iff] at h ⊢
  exact ⟨⟨swf_ssets _ _ h.1.1, swf_sset _ _ h.1.2.1, h.1.2.2⟩, h.2⟩

theorem State.memoryWf_writeBack {s : State} (line : Nat) (bs : List Byte) (p : Bool) (h : s.memoryWf = true) :
    (s.writeBack line bs p).memoryWf = true := by
  simp [State.writeBack, State.memoryWf_storeLine line bs p h]

theorem State.memoryWf_recordUe (s : State) (line src : Nat) (c : Bool) :
    (s.recordUe line src c).memoryWf = s.memoryWf := by
  unfold State.recordUe
  split <;> simp

theorem State.memoryWf_fetchLine {s : State} (line src : Nat) (ecc : EccObs) (h : s.memoryWf = true) :
    (s.fetchLine line ecc src).2.2.memoryWf = true := by
  unfold State.fetchLine
  dsimp only
  split
  · simpa using h
  · split
    · simpa using h
    · simpa using h
    · rw [State.memoryWf_recordUe]
      exact State.memoryWf_storeLine _ _ _ (by simpa using h)

theorem State.memoryWf_hccCheck (s : State) (sl set w : Nat) (l : HccLine) (obs : HccObs) :
    (s.hccCheck sl set w l obs).2.memoryWf = s.memoryWf := by
  unfold State.hccCheck
  split
  · rfl
  · simp
  · dsimp only
    split <;> simp [State.memoryWf_recordUe, State.memoryWf_setWay]

theorem State.memoryWf_touch (s : State) (sl set w : Nat) (l : HccLine) (k : Bool) :
    (s.touch sl set w l k).memoryWf = s.memoryWf := rfl

theorem State.memoryWf_effHint (s : State) (sl : Nat) (h : Hint) (a b : Bool) :
    (s.effHint sl h a b).2.memoryWf = s.memoryWf := by
  unfold State.effHint
  split <;> simp

theorem State.memoryWf_victim (s : State) (sl set mask : Nat) : (s.victim sl set mask).2.memoryWf = s.memoryWf := by
  unfold State.victim
  dsimp only
  split
  · split <;> rfl
  · rfl

theorem State.memoryWf_allocate {s t : State} (line part : Nat) (bs : List Byte) (d k p : Bool) (h : s.memoryWf = true)
    (ht : s.allocate line part bs d k p = some t) : t.memoryWf = true := by
  unfold State.allocate at ht
  dsimp only at ht
  have hv := State.memoryWf_victim s (sliceSet s.grouped (64 * line)).1 (sliceSet s.grouped (64 * line)).2
    (s.wayMask (sliceSet s.grouped (64 * line)).1 part)
  revert ht
  generalize State.victim s _ _ _ = v at hv
  obtain ⟨o, u⟩ := v
  intro ht
  have hu : u.memoryWf = true := by simpa [h] using hv
  cases o with
  | none => exact absurd ht (by simp)
  | some w =>
    simp only [Option.some.injEq] at ht
    subst ht
    have hx : (match u.way (sliceSet s.grouped (64 * line)).1 (sliceSet s.grouped (64 * line)).2 w with
      | some l => if l.dirty then (u.writeBack l.line l.data l.poison).inc (pHCC (sliceSet s.grouped (64 * line)).1) 0xF20
        else u
      | none => u).memoryWf = true := by
      split
      · split
        · simpa using State.memoryWf_writeBack _ _ _ hu
        · exact hu
      · exact hu
    exact hx

/-- Whatever the slice's codes find for a line keeps the form. -/
theorem State.memoryWf_hit {u y : State} {sl set line : Nat} {obs : HccObs} {o : Option (Nat × HccLine)}
    (h : u.memoryWf = true)
    (hh : (match u.findWay sl set line with
      | none => (none, u)
      | some (w, l) => match u.hccCheck sl set w l obs with
        | (some l, s) => (some (w, l), s)
        | (none, s) => (none, s)) = (o, y)) : y.memoryWf = true := by
  split at hh
  · cases hh; exact h
  · next w l _ =>
    have hc := State.memoryWf_hccCheck u sl set w l obs
    split at hh <;> next e => rw [e] at hc; cases hh; simpa [h] using hc

theorem State.memoryWf_lineRead {s : State} (line : Nat) (hint : Hint) (part : Nat) (mw : Bool) (ecc : EccObs) (obs : HccObs)
    (h : s.memoryWf = true) : (s.lineRead line hint part mw ecc obs).2.2.memoryWf = true := by
  unfold State.lineRead
  dsimp only
  generalize hq : (sliceSet s.grouped (64 * line)).1 = sl
  generalize (sliceSet s.grouped (64 * line)).2 = set
  have h1 : ((s.heatUp sl line).effHint sl hint false mw).2.memoryWf = true := by
    rw [State.memoryWf_effHint, State.memoryWf_heatUp]; exact h
  generalize (s.heatUp sl line).effHint sl hint false mw = e at h1
  obtain ⟨g, u⟩ := e
  dsimp only at h1 ⊢
  split
  · next w l y hh =>
    have hy := State.memoryWf_hit h1 hh
    split <;> simp [State.memoryWf_touch, State.memoryWf_setWay, hy]
    split <;> simp [hy]
  · next y hh =>
    have hy := State.memoryWf_hit h1 hh
    have hf : ((y.inc (pHCC sl) 0xF08).fetchLine line ecc 0).2.2.memoryWf = true :=
      State.memoryWf_fetchLine _ _ _ (by simpa using hy)
    generalize (y.inc (pHCC sl) 0xF08).fetchLine line ecc 0 = f at hf
    obtain ⟨bs, po, z⟩ := f
    dsimp only at hf ⊢
    split
    · split
      · next ht => exact State.memoryWf_allocate _ _ _ _ _ _ hf ht
      · exact hf
    · exact hf

theorem State.memoryWf_lineWrite {s : State} (line lo : Nat) (bs : List Byte) (p : Bool) (hint : Hint) (part : Nat)
    (mw : Bool) (ecc : EccObs) (obs : HccObs) (h : s.memoryWf = true) :
    (s.lineWrite line lo bs p hint part mw ecc obs).memoryWf = true := by
  unfold State.lineWrite
  dsimp only
  generalize hq : (sliceSet s.grouped (64 * line)).1 = sl
  generalize (sliceSet s.grouped (64 * line)).2 = set
  have h1 : ((s.heatUp sl line).effHint sl hint true mw).2.memoryWf = true := by
    rw [State.memoryWf_effHint, State.memoryWf_heatUp]; exact h
  generalize (s.heatUp sl line).effHint sl hint true mw = e at h1
  obtain ⟨g, u⟩ := e
  dsimp only at h1 ⊢
  split
  · next w l y hh =>
    have hy := State.memoryWf_hit h1 hh
    split <;> simp [State.memoryWf_touch, State.memoryWf_setWay, hy]
  · next y hh =>
    have hy : (y.inc (pHCC sl) 0xF18).memoryWf = true := by simpa using State.memoryWf_hit h1 hh
    have hf := State.memoryWf_fetchLine line 0 ecc hy
    split
    · next t ht =>
      split at ht
      · split at ht
        · exact State.memoryWf_allocate _ _ _ _ _ _ hy ht
        · exact State.memoryWf_allocate _ _ _ _ _ _ hf ht
      · exact absurd ht (by simp)
    · split
      · exact State.memoryWf_writeBack _ _ _ hy
      · exact State.memoryWf_writeBack _ _ _ hf

theorem State.memoryWf_wakeFor (s : State) (a : Nat) : (s.wakeFor a).memoryWf = s.memoryWf := by
  unfold State.wakeFor
  dsimp only
  split
  · rfl
  · exact State.memoryWf_wakeDom _ _

theorem State.memoryWf_memRd (hint : Hint) (part : Nat) (mw : Bool) : ∀ (fuel : Nat) (s : State) (a n : Nat),
    s.memoryWf = true → (s.memRd hint part mw fuel a n).2.2.memoryWf = true := by
  intro fuel
  induction fuel with
  | zero => intro s a n h; exact h
  | succ fuel ih =>
    intro s a n h
    unfold State.memRd
    split
    · exact h
    · split
      · exact h
      · exact ih _ _ _ (State.memoryWf_lineRead _ _ _ _ _ _ ((State.memoryWf_wakeFor s a).trans h))

theorem State.memoryWf_memWr (hint : Hint) (part : Nat) (mw p : Bool) : ∀ (fuel : Nat) (s : State) (a : Nat) (bs : List Byte),
    s.memoryWf = true → (s.memWr hint part mw p fuel a bs).memoryWf = true := by
  intro fuel
  induction fuel with
  | zero => intro s a n h; exact h
  | succ fuel ih =>
    intro s a n h
    unfold State.memWr
    split
    · exact h
    · exact ih _ _ _ (State.memoryWf_lineWrite _ _ _ _ _ _ _ _ _ ((State.memoryWf_wakeFor s a).trans h))

theorem State.memoryWf_devRead {s : State} (part a n : Nat) (h : s.memoryWf = true) :
    (s.devRead part a n).2.2.memoryWf = true := State.memoryWf_memRd _ _ _ _ _ _ _ h

theorem State.memoryWf_devWrite {s : State} (part a : Nat) (bs : List Byte) (p : Bool) (h : s.memoryWf = true) :
    (s.devWrite part a bs p).memoryWf = true := State.memoryWf_memWr _ _ _ _ _ _ _ _ h

theorem State.memoryWf_zeroRange {s : State} (a n : Nat) (h : s.memoryWf = true) : (s.zeroRange a n).memoryWf = true := by
  rw [State.memoryWf_iff] at h ⊢
  exact ⟨⟨swf_filter _ h.1.1, swf_filter _ h.1.2.1, h.1.2.2⟩, h.2⟩

/-! ### The pool -/

theorem State.memoryWf_poolWr {s : State} (k : Nat) (bs : List Byte) (p : Bool) (h : s.memoryWf = true) :
    (s.poolWr k bs p).memoryWf = true := by
  rw [State.memoryWf_iff] at h ⊢
  exact ⟨⟨h.1.1, h.1.2.1, swf_ssets _ _ h.1.2.2.1, swf_sset _ _ h.1.2.2.2⟩, h.2⟩

theorem State.memoryWf_zeroUnit {s : State} (pool : Bool) (u : Nat) (h : s.memoryWf = true) :
    (s.zeroUnit pool u).memoryWf = true := by
  unfold State.zeroUnit
  split
  · rw [State.memoryWf_iff] at h ⊢
    exact ⟨⟨h.1.1, h.1.2.1, swf_filter _ h.1.2.2.1, swf_filter _ h.1.2.2.2⟩, h.2⟩
  · exact State.memoryWf_zeroRange _ _ h

/-! ### Flash and fuses -/

theorem State.memoryWf_flashWr {s : State} (a : Nat) (bs : List Byte) (h : s.memoryWf = true) :
    (s.flashWr a bs).memoryWf = true := by
  rw [State.memoryWf_iff] at h ⊢
  exact ⟨h.1, swf_ssets _ _ h.2.1, h.2.2⟩

theorem State.memoryWf_flashErase {s : State} (a : Nat) (h : s.memoryWf = true) : (s.flashErase a).memoryWf = true := by
  rw [State.memoryWf_iff] at h ⊢
  exact ⟨h.1, swf_filter _ h.2.1, h.2.2⟩

theorem State.memoryWf_fuseDone {s : State} (w : BitVec 7) (v : Word32) (rb : Option Word32) (h : s.memoryWf = true) :
    (s.fuseDone w v rb).memoryWf = true := by
  have h' := (State.memoryWf_iff s).1 h
  unfold State.fuseDone
  dsimp only
  split <;>
  · simp only [State.memoryWf_setReg, State.memoryWf_inc]
    rw [State.memoryWf_iff]
    exact ⟨h'.1, h'.2.1, swf_sset _ _ h'.2.2⟩

theorem State.memoryWf_nvFinish {s : State} (h : s.memoryWf = true) : s.nvFinish.memoryWf = true := by
  have h' := (State.memoryWf_iff s).1 h
  unfold State.nvFinish
  split
  · exact h
  · rw [State.memoryWf_iff]
    exact ⟨h'.1, h'.2.1, swf_sset _ _ h'.2.2⟩
  · exact State.memoryWf_flashErase _ h
  · exact State.memoryWf_flashErase _ h
  · exact State.memoryWf_flashWr _ _ h
  · exact State.memoryWf_flashWr _ _ h
  · split
    · exact State.memoryWf_flashWr _ _ h
    · exact State.memoryWf_flashErase _ h

/-- The reset state's memories are in canonical form. -/
theorem State.memoryWf_reset : State.reset.memoryWf = true := by decide

end Sys2Proof.Machine
end

