-- ==== Sys2Proof/Laws/Tiers.lean ====
section
/-! SUPPORT. What taking units and reading a pool record can do (10_tiers_quotas.md R284, R286). -/

namespace Sys2Proof.Machine

/-- A search that finds nothing has met a used unit at every place. -/
theorem nextFree_none {used : List Nat} {base n : Nat} : ∀ {fuel i : Nat}, nextFree used base n fuel i = none →
    ∀ j, j < fuel → base + (i + j) % n ∈ used
  | 0, _, _, j, hj => absurd hj (by omega)
  | fuel + 1, i, h, j, hj => by
    unfold nextFree at h
    simp only at h
    split at h
    · rename_i hu
      rcases j with _ | j
      · simpa using hu
      · have := nextFree_none h j (by omega)
        rwa [show i + 1 + j = i + (j + 1) by omega] at this
    · cases h

/-- With fewer units used than the place has, a search finds one. -/
theorem nextFree_isSome {used : List Nat} {base n i : Nat} (h : used.length < n) :
    (nextFree used base n n i).isSome = true := by
  cases hn : nextFree used base n n i with
  | some _ => rfl
  | none =>
    exfalso
    have all : ∀ k, k < n → base + k ∈ used := by
      intro k hk
      have hm : i % n < n := Nat.mod_lt _ (by omega)
      by_cases hle : i % n ≤ k
      · have e : (i + (k - i % n)) % n = k := by
          rw [Nat.add_mod, Nat.mod_eq_of_lt (show k - i % n < n by omega)]
          rw [show i % n + (k - i % n) = k by omega, Nat.mod_eq_of_lt hk]
        have := nextFree_none hn (k - i % n) (by omega)
        rwa [e] at this
      · have e : (i + (k + n - i % n)) % n = k := by
          rw [Nat.add_mod, Nat.mod_eq_of_lt (show k + n - i % n < n by omega)]
          rw [show i % n + (k + n - i % n) = k + n by omega, Nat.add_mod_right, Nat.mod_eq_of_lt hk]
        have := nextFree_none hn (k + n - i % n) (by omega)
        rwa [e] at this
    have sub : (List.range n).map (fun k => base + k) ⊆ used := by
      intro x hx
      obtain ⟨k, hk, rfl⟩ := List.mem_map.1 hx
      exact all k (List.mem_range.1 hk)
    have nd : ((List.range n).map (fun k => base + k)).Nodup :=
      List.Nodup.map (fun a b (e : base + a = base + b) => by omega) List.nodup_range
    have := (List.subperm_of_subset nd sub).length_le
    simp at this
    omega

/-- Zeroing a unit takes no unit. -/
theorem State.unitsUsed_zeroUnit (s : State) (p q : Bool) (u : Nat) : (s.zeroUnit p u).unitsUsed q = s.unitsUsed q := by
  have h : (s.zeroUnit p u).tier = s.tier := by
    unfold State.zeroUnit State.zeroRange
    repeat' (first | rfl | split)
  unfold State.unitsUsed
  rw [h]

/-- Nor does it move a place. -/
theorem State.place_zeroUnit (s : State) (p q : Bool) (u h : Nat) : (s.zeroUnit p u).place q h = s.place q h := by
  have e : (s.zeroUnit p u).regs = s.regs := by
    unfold State.zeroUnit State.zeroRange
    repeat' (first | rfl | split)
  unfold State.place State.grouped State.reg
  rw [e]

/-- With room for them, units are found. -/
theorem State.allocUnits_isSome (pool : Bool) (home owner : Nat) : ∀ (n : Nat) (got : List Nat) (s : State),
    (s.unitsUsed pool).length + got.length + n ≤ (s.place pool home).2 → (s.allocUnits pool home owner n got).isSome = true
  | 0, _, _, _ => rfl
  | n + 1, got, s, h => by
    unfold State.allocUnits
    simp only
    have hs := nextFree_isSome (used := s.usedFree.unitsUsed pool ++ got) (base := (s.place pool home).1)
      (n := (s.place pool home).2) (i := s.freeVal % (s.place pool home).2)
      (by have : s.usedFree.unitsUsed pool = s.unitsUsed pool := rfl
          simp [this]; omega)
    cases hn : nextFree (s.usedFree.unitsUsed pool ++ got) (s.place pool home).1 (s.place pool home).2
        (s.place pool home).2 (s.freeVal % (s.place pool home).2) with
    | none => rw [hn] at hs; cases hs
    | some u =>
      apply State.allocUnits_isSome pool home owner n
      split
      · have h1 := s.usedFree.unitsUsed_zeroUnit pool pool u
        have h2 := s.usedFree.place_zeroUnit pool pool u home
        have e1 : s.usedFree.unitsUsed pool = s.unitsUsed pool := rfl
        have e2 : s.usedFree.place pool home = s.place pool home := rfl
        simp only [List.length_cons]
        show (List.length ((s.usedFree.zeroUnit pool u).unitsUsed pool)) + (got.length + 1) + n
          ≤ ((s.usedFree.zeroUnit pool u).place pool home).2
        rw [h1, h2, e1, e2]; omega
      · simp only [List.length_cons]
        show (List.length (s.unitsUsed pool)) + (got.length + 1) + n ≤ (s.place pool home).2
        omega

/-- Values in a row, one by one. -/
theorem sgets_eq {α : Type} (d : α) (m : SMap α) : ∀ (n k : Nat), sgets d m k n = (List.range n).map (fun i => sget d m (k + i))
  | 0, _ => rfl
  | n + 1, k => by
    rw [sgets, sgets_eq d m n (k + 1), List.range_succ_eq_map, List.map_cons, List.map_map]
    simp [Function.comp_def, Nat.add_assoc, Nat.add_comm 1]

/-- What a read of a pool record gives, where it meets no mark: the bytes of the pool at its granules, the record,
the memory and the registers as they were but for the count of its accesses. -/
theorem State.recRd_pool (rn : Nat) (hint : Hint) (part : Nat) (mw : Bool) : ∀ (fuel off n : Nat) (s : State) (r : Rec),
    s.trec rn = some r → r.pool = true → s.mem.poolMarks = [] → n ≤ 64 * fuel - off % 64 →
    ∃ t q, s.recRd rn false hint part mw fuel off n =
        ((List.range n).map (fun i => sget 0 s.mem.pool (r.units.getD ((off + i) / 65536) 0 * 65536 + (off + i) % 65536)), false, t) ∧
      t.trec rn = some q ∧ q.pool = true ∧ q.units = r.units ∧ t.mem = s.mem ∧ t.regs = s.regs
  | 0, off, n, s, r, ht, hp, hm, hn => by
    have : n = 0 := by omega
    subst this
    exact ⟨s, r, rfl, ht, hp, rfl, rfl, rfl⟩
  | fuel + 1, off, n, s, r, ht, hp, hm, hn => by
    unfold State.recRd
    rw [ht]
    by_cases h0 : n = 0
    · subst h0
      exact ⟨s, r, by simp, ht, hp, rfl, rfl, rfl⟩
    · have hq : (s.poolHit rn).trec rn = some { r with hits := min 0xFFFFFFFF (r.hits + 1) } := by
        simp [State.poolHit, State.modRec, State.setRec, State.trec] at ht ⊢
        simp [ht]
      have hm' : (s.poolHit rn).mem = s.mem := rfl
      obtain ⟨t, q, hr, hq1, hq2, hq3, hq4, hq5⟩ := State.recRd_pool rn hint part mw fuel (off + min n (64 - off % 64))
        (n - min n (64 - off % 64)) (s.poolHit rn) _ hq hp (by rw [hm']; exact hm) (by omega)
      refine ⟨t, q, ?_, hq1, hq2, hq3, by rw [hq4, hm'], by rw [hq5]; rfl⟩
      simp only [h0, ite_false, hp, ite_true, Rec.unitAt, unitBytes, Bool.false_eq_true, hm, sget_nil, hr, hm', Bool.or_self]
      refine Prod.ext ?_ rfl
      simp only
      rw [sgets_eq]
      have e : n = min n (64 - off % 64) + (n - min n (64 - off % 64)) := by omega
      conv_rhs => rw [e]
      rw [List.range_add, List.map_append, List.map_map]
      refine congrArg₂ (fun a b => a ++ b) ?_ ?_
      · apply List.map_congr_left
        intro i hi
        have hi := List.mem_range.1 hi
        have h1 : (off + i) / 65536 = off / 65536 := by omega
        have h2 : (off + i) % 65536 = off % 65536 + i := by omega
        rw [h1, h2, Nat.add_assoc]
      · apply List.map_congr_left
        intro i _
        simp only [Function.comp, Nat.add_assoc]

end Sys2Proof.Machine
end

