-- ==== Sys2Proof/WellFormed.lean ====
section
/-! DEFINITION. The shapes a sender owes its commands, which the types of Syntax.lean do not say: byte strings of the
length that a frame, a message, an access or a reading has. A command of another shape is no input the hardware can
get. -/

namespace Sys2Proof

/-- A message: 28 header bytes of its kind, and one mark for each 64 bytes of payload (12_fabric_transport.md R344). -/
def Message.wf (m : Message) : Bool :=
  m.extra.length == 28 && m.poison.length == (m.payload.length + 63) / 64 && decide (1 ≤ m.payload.length)
    && decide (m.payload.length ≤ 2 ^ 20)

/-- A frame: its payload fills its lines, and it carries eight credit bytes (11_link_layer.md R318, R319). -/
def Frame.wf (f : Frame) : Bool :=
  f.payload.length == 64 * f.lines.toNat && decide (f.lines.toNat ≤ 16) && f.credits.length == 8

/-- An access of 1 to 64 bytes that stays in its line. -/
def accessWf (a : MemAccess) (n : Nat) : Bool := decide (1 ≤ n) && decide (a.addr.toNat % 64 + n ≤ 64)

/-- The shape of a command. -/
def Instr.wf : Instr → Bool
  | .memWrite a bs _ => accessWf a bs.length
  | .bar2Read _ n => decide (1 ≤ n)
  | .bar2Write _ bs _ => decide (1 ≤ bs.length)
  | .data _ f => f.wf
  | .nak _ f => f.wf
  | .ctrl _ f => f.wf
  | .widthReq _ f => f.wf
  | .widthAck _ f => f.wf
  | .sleepReq _ f => f.wf
  | .sleepAck _ f => f.wf
  | .sleepNak _ f => f.wf
  | .barArrive m => m.wf
  | .barRelease m => m.wf
  | .msgRx m => m.wf
  | .tack m => m.wf
  | .opAbort m => m.wf
  | .cancel m => m.wf
  | .arrive m => m.wf
  | .go m => m.wf
  | .collData m => m.wf
  | .relayStripe m => m.wf
  | .lateGo m => m.wf
  | .manifest m => m.wf
  | .chunk m => m.wf
  | .pubEnd m => m.wf
  | .restreamReq m _ => m.wf
  | .restreamRefuse m => m.wf
  | .ready m => m.wf
  | .withdraw m => m.wf
  | .hold m => m.wf
  | .stepOpenRx m => m.wf
  | .stepDone m => m.wf
  | .commit m => m.wf
  | .husk m => m.wf
  | .huskDone m => m.wf
  | .kittyRecordRx m => m.wf
  | .boundary m => m.wf
  | .resetRelease env => decide (env.stackInfos.length ≤ 8)
  | .pmbusPoll rs => decide (rs.length ≤ 8)
  | _ => true

end Sys2Proof
end

