-- ==== Sys2Proof/Tests/Slice0.lean ====
section
/-! SUPPORT. Tests: ill-formed commands that WellFormed refuses; words written out from the spec's formats; steps on
small states; and, for every statement with hypotheses, states and operands that meet them. -/

set_option Elab.async false

namespace Sys2Proof.Tests

open Sys2Proof.Machine

/-! ### Small states -/

/-- The named domains ON, every other OFF. -/
def on (ds : List Nat) (s : State := State.reset) : State :=
  { s with pw := { s.pw with doms := ds.map (fun d => (d, ({ state := .on } : Dom))) } }

/-- A page enabled. -/
def en (p : Nat) (s : State := State.reset) : State :=
  { s with pages := sset {} s.pages p { s.page p with en := true } }

/-- A register set. -/
def reg (p o : Nat) (v : Word32) (s : State := State.reset) : State := s.setReg p o v

/-- A 64-bit register set. -/
def reg64 (p o : Nat) (v : Word64) (s : State := State.reset) : State := s.setReg64 p o v


/-! ### Hypotheses that are met: register pages, power, reset and boot -/

theorem test_wit_StepRunsFrontCommand :
    ({ State.reset with pending := [.pcieLinkDown] } : State).pending = .pcieLinkDown :: [] ∧
    State.reset.pending = [] := by decide

theorem test_wit_AccessesAndReads :
    pageInfo 0x3000 = none ∧
    (pageDomain (pCORE 0) = some (dCore 0) ∧ (pageInfo (pCORE 0)).isSome ∧ State.reset.domLive (dCore 0) = false) ∧
    State.reset.reaches .host pAON = true ∧
    (State.reset.reaches .mgmt pAON = true ∧ (State.reset.page pAON).srst = false ∧
      (State.reset.page pAON).latch .mgmt = none ∧ (regRow 1 0x900).map (fun w => (w.wide, w.acc)) = some (true, .ro) ∧
      State.reset.freeBits pAON 0x900 = 0) ∧
    (let s : State := { State.reset with pages := [(pAON, { latchHost := some (0x900, 5) })] }
     s.reaches .host pAON = true ∧ (s.page pAON).srst = false ∧ (s.page pAON).latch .host = some (0x904 - 4, 5)) ∧
    (State.reset.reaches .host pPWR = true ∧ (State.reset.page pPWR).srst = false ∧
      (State.reset.page pPWR).latch .host = none ∧ (regRow 2 0xF10).map (fun w => (w.wide, w.acc)) = some (false, .rc) ∧
      State.reset.freeBits pPWR 0xF10 = 0) := by decide +kernel

theorem test_wit_RegisterWriteByAccessType :
    ([3, 8, 9, 0xA, 0x10, 0x19, 0x1D].contains (blockType pTEL) = true ∧ (regRow 9 0x104).isSome ∧
      State.reset.admits .host pTEL 0x104 = true) ∧
    (let s : State := { State.reset with pages := [(pERR, { locked := true })] }
     s.reaches .host pERR = true ∧ (s.page pERR).srst = false ∧ (regRow 8 0x100).map (fun w => w.acc) = some .rwl ∧
      (s.page pERR).locked = true) ∧
    (let s : State := { State.reset with pages := [(pCLU 0, { written := [0x820] })] }
     (s.page (pCLU 0)).written.contains 0x820 = true) ∧ State.reset.mgt.d3 = false := by decide +kernel

theorem test_wit_PageStatusAndSoftReset :
    State.reset.admits .host pCHK 0x14 = true ∧ (State.reset.admits .mgmt pCHK 0x10 = true ∧ 2 ≤ blockType pCHK) ∧
    (({ State.reset with pages := [(pCHK, { srst := true })] } : State).page pCHK).srst = true := by decide +kernel

theorem test_wit_LockKeySequence :
    (State.reset.reaches .host pSCH = true ∧ (State.reset.page pSCH).locked = false ∧
      (State.reset.page pSCH).armed .host = false) ∧
    (let s : State := { State.reset with pages := [(pSCH, { armedMgmt := true })] }
     s.reaches .mgmt pSCH = true ∧ (s.page pSCH).locked = false ∧ (s.page pSCH).armed .mgmt = true) := by decide +kernel

theorem test_wit_ClockSources :
    let s : State := { State.reset with pw := { State.reset.pw with pllRun := 4, pllLock := 4 } }
    (s.pw.pllRun.getLsbD 2 = true ∧ s.pw.pllLock.getLsbD 2 = true) ∧ State.reset.pw.slowPresent = true ∧
    (let u : State := { State.reset with pw := { State.reset.pw with fallback := true } }
     u.pw.slowPresent = true ∧ u.pw.fallback = true ∧ u.pw.switched = false) := by decide +kernel

/-- Domain `d` in a state of its own, its page allowing every depth. -/
def dom (d : Nat) (g : Dom) (s : State := State.reset) : State := { s with pw := { s.pw with doms := [(d, g)] } }

theorem test_wit_SleepEntry :
    (let s := dom dCLX { state := .on }
     s.domOn dCLX = true ∧ s.maySleep dCLX = true ∧ 1 ≤ s.sleepDepth dCLX) ∧
    (let s := dom dCLX { state := .cg }
     (s.dom dCLX).state = .cg ∧ s.maySleep dCLX = true ∧ 2 ≤ s.sleepDepth dCLX) ∧
    ((dom dCLX { state := .on, hold := true }).dom dCLX).hold = true ∧
    (let s := dom dCLX { state := .cg, sleepTo := some .retain }
     (s.dom dCLX).sleepTo = some .retain ∧ (s.dom dCLX).wakeAfter = false) := by decide +kernel

theorem test_wit_WakeRequestsAndCompletion :
    (∀ d ∈ [dLnk 3, dEPS, dMem 0, dPhy 0], (State.reset.dom d).state ≠ .on ∧ (State.reset.dom d).sleepTo = none) ∧
    State.reset.vcWset 0 < 128 ∧
    ({ State.reset with nv := { State.reset.nv with fuses := [(0, 1)] } } : State).fusedOff 0 = true ∧
    (let s := dom dCLX { waking := true }
     (s.dom dCLX).waking = true ∧ (∀ e ∈ domParents dCLX, s.domOn e = true) ∧ 960 ≤ dCLX ∧ s.deferred = []) ∧
    (let s : State := { State.reset with pw := { State.reset.pw with
       pllLock := 1, doms := [(0, { waking := true }), (768, { state := .on }), (960, { state := .on })] } }
     (s.dom 0).waking = true ∧ (∀ e ∈ domParents 0, s.domOn e = true) ∧ (0 : Nat) < 768) ∧
    ((dCore 0) ∈ domParents 0 ∧ State.reset.domOn (dCore 0) = false) := by decide +kernel

theorem test_wit_WakeHoldsAndSets :
    (State.reset.admits .host pPWR 0x900 = true ∧ fld (5 : Word32) 0 10 = 5 ∧ State.reset.fusedOff 5 = false ∧
      State.reset.isFenced 5 = false ∧ fld (1011 : Word32) 0 10 = 1011 ∧ fld (768 : Word32) 0 10 = 768) ∧
    (let s : State := { State.reset with nv := { State.reset.nv with fuses := [(0, 1)] } }
     s.admits .host pPWR 0x900 = true ∧ fld (0 : Word32) 0 10 < 768 ∧ s.fusedOff (fld (0 : Word32) 0 10) = true) ∧
    State.reset.admits .mgmt pPWR 0x908 = true := by decide +kernel

theorem test_wit_DeepSleepOfTheDevice :
    (let s := dom dCLX { state := .retain } (reg pPWR 0x108 1)
     bit (s.reg pPWR 0x108) 0 = true ∧ s.pw.deep = false ∧ fld (s.reg pPWR 0x108) 16 16 ≤ s.pw.idleTicks ∧
     s.queueHolds = false ∧ ∀ e ∈ s.pw.doms, e.2.hold = false ∧ e.2.waking = false ∧ e.2.sleepTo = none ∧
       (e.2.state = .retain ∨ e.2.state = .off)) ∧
    (let s := dom dCLX { hold := true }
     (dCLX, ({ hold := true } : Dom)) ∈ s.pw.doms) ∧
    (let s : State := { State.reset with pw := { State.reset.pw with deep := true, exitDue := true } }
     s.pw.deep = true ∧ s.pw.exitDue = true) := by decide +kernel

/-- Timer channel 0 held by a claimant. -/
def claimed (c : Claimant) : State := { State.reset with pw := { State.reset.pw with claims := [(0, some c)] } }

theorem test_wit_TimerChannels :
    (State.reset.admits .host pAON 0xA00 = true ∧ ownerCodeOk .host 1 = true ∧ ownerCodeOk .mgmt 0x7F = true ∧
      State.reset.claimOf 7 = none) ∧
    (State.reset.admits .mgmt pAON (0xA00 + 0x20 * 7) = true ∧ (claimed .host).claimOf 0 = some .host) ∧
    (State.reset.admits .host pAON 0x9F0 = true ∧ State.reset.freeTmr = some 0) ∧
    (let s : State := { State.reset with pw := { State.reset.pw with
        claims := (List.range 8).map (fun n => (n, some Claimant.hw)) } }
     s.freeTmr = none) ∧
    (let s := (claimed .host).setTmr 0 0x10 1
     s.tmrDue 0 = true ∧ s.claimOf 0 ≠ some .hw ∧ bit (s.tmr 0 0x10) 1 = false) ∧
    State.reset.tmrDue 0 = false ∧
    (State.reset.admits .host pAON 0x8B0 = true ∧ bit (0x101 : Word32) 0 = true) ∧
    (State.reset.admits .mgmt pAON 0x8B4 = true ∧ ((claimed .hw).setTmr 0 0 0x83).hwTmr 0x83 = some 0) := by
  decide +kernel

theorem test_wit_SupplyWarningsAndNvUnit :
    State.reset.pw.warn.getLsbD 0 = false ∧
    (let s := reg pMGT (0x810 + 4 * 3) 0x501
     s.pw.warn.getLsbD 2 = false ∧ s.gpioSag = true) ∧
    (let s : State := { State.reset with nv := { State.reset.nv with op := some (.fuse 44 1) } }
     s.nv.op = some (.fuse 44 1) ∧ s.nv.queue = []) ∧ State.reset.nv.op = none := by decide +kernel

theorem test_wit_ResetsKeepAndClear :
    (1 : BitVec 2) ≠ 0 ∧ State.reset.admits .host pAON 0x8A8 = true ∧ (0 : Word32) ≠ 0x52534554 ∧
    (let s : State := { State.reset with log := { fatal := true } }
     s.log.fatal = true ∧ ∀ e ∈ s.log.queue, e.cls ≠ cFATAL) ∧ State.reset.log.fatal = false ∧
    State.reset.pw.refPresent = true ∧ State.reset.nv.op = none := by decide +kernel

theorem test_wit_BootFromReset :
    let bad : BootEnv := { sfdpOk := false, sfdpErase4k := true, sfdpAddr4 := true, tProgUs := 700, flashBytes := 0x4000000
                           fuseCorrected := false, fuseVoteFailed := true, stackInfos := [], selfTestFails := []
                           linksUp := 0, ticksToReady := 5 }
    let s := reg pAON 0x890 (BitVec.ofNat 32 (2 ^ 17 + 2 ^ 19 + 5))
    (State.reset.bootStep = 0 ∧ bad.fuseVoteFailed = true) ∧
    (State.reset.fusesOk = true ∧ bad.sfdpOk = false) ∧
    (State.reset.chooseImage = none ∧ State.reset.deferred = []) ∧
    (s.bootStep ≠ 0 ∧ s.admits .host pAON 0x8C0 = true ∧ s.recovering = true ∧
      s.imageOk (fun a n => sgets 0 s.mem.pool a n) = false) ∧
    ({ s with nv := { s.nv with env := some bad } } : State).nv.env.isSome = true := by decide +kernel

theorem test_wit_BootConfirmAndNvRequests :
    (let s : State := { State.reset with nv := { State.reset.nv with image := some 1 } }
     s.admits .host pAON 0x8BC = true ∧ s.nv.image = some 1) ∧
    (∀ e ∈ State.reset.nv.trainDue, e.1 ≠ 0) ∧
    (let s : State := reg pAON 0x890 0x10009 (reg pAON 0x100 500 { State.reset with nv := { State.reset.nv with
        trainDue := [(7, [25, 0])] } })
     bit (s.reg pAON 0x890) 16 = true ∧ (7, [25, 0]) ∈ s.nv.trainDue ∧ s.nv.op = none ∧ s.nv.queue = [] ∧ s.pw.warn = 0 ∧
      fld (s.reg pAON 0x100) 0 16 ≠ 0) ∧
    (let s := reg pFUS 0x100 1 (reg pFUS 0xA00 44 (reg pAON 0x100 450))
     s.admits .mgmt pFUS 0xA08 = true ∧ bit (s.reg pFUS 0xA0C) 0 = false ∧ bit (s.reg pFUS 0x100) 0 = true ∧
      fuseField (fld (s.reg pFUS 0xA00) 0 7) = true ∧ s.nv.op = none ∧ s.nv.queue = [] ∧ s.pw.warn = 0 ∧
      450 ≤ fld (s.reg pAON 0x100) 0 16) ∧
    (let s := reg pFUS 0x100 1 (reg pFUS 0xA00 47)
     fuseField (fld (s.reg pFUS 0xA00) 0 7) = false ∧ bit (State.reset.reg pFUS 0x100) 0 = false) := by decide +kernel

/-! ### Hypotheses that are met: the instructions of a core -/

/-- Context 0 runs on core 0, whose code is 8 words from address 0. -/
def run (th : Thread := {}) (g : Ctx := {}) (k : Core := {}) : State :=
  { on [768] with
    cores := [(0, { k with ctx := some 0, th := th })]
    ctxs := [(0, { g with state := .running, place := [{ core := 0, arrays := 15, gang := false, codeBase := 0, codeBytes := 64
                                                         allot := 64, entry := 0 }] })] }

/-- Operands of each format. -/
def sop : SOp := { core := 0, rd := 1, ra := 2, rb := 3, i := false, imm := 0 }
def vop : VOp := { core := 0, vd := 1, va := 2, vb := 3, vc := 0, pred := 0, pe := false, pz := false, ss := 0, bs := false
                   sr := false, imm := 0 }
def mop : MOp := { core := 0, arr := 0, tile := 0, acc := false, fmt := 0, sa := 1, sb := 2, k := 64, row := 0, half := false
                   vr := 0, ae := false, be := false }
def cop : COp := { core := 0, ch := 0, sa := 1, sd := 2, imm := 0 }
def yop : YOp := { core := 0, sd := 1, sa := 2, sb := 3, id8 := 0, imm := 0 }

theorem test_wit_ScalarResults :
    (∀ fn ∈ List.range 18, (run).runs 0 0 (encS 0x02 fn sop) = true) ∧
    (run).runs 0 0 (encS 0x03 0 { sop with rb := 0 }) = true ∧
    (run).runs 0 0 (encS 0x01 0 { sop with rd := 0, ra := 0, rb := 0 }) = true ∧
    ((run { lands := [⟨3, 0, .sreg 5 7 false⟩], cyc := 3 }).core 0).th.lands = [⟨3, 0, .sreg 5 7 false⟩] := by decide +kernel

theorem test_wit_ScalarMemoryAndSpecialValues :
    (∀ fn ∈ List.range 7, (run).runs 0 0 (encS 0x04 fn { sop with rb := 0 }) = true) ∧
    (∀ fn ∈ List.range 4, (run).runs 0 0 (encS 0x05 fn { sop with rd := 0 }) = true) ∧
    (let k := (run).found 0
     k.th.sp 2 = false ∧ (k.th.s 2 + sop.imm.signExtend 64).toNat + 8 ≤ 0x300000) ∧
    (run).runs 0 0 (encS 0x0B 0 { sop with ra := 0, rb := 0, imm := 7 }) = true ∧
    (let s := run { spo := 4 }
     s.runs 0 0 (encS 0x04 0 { sop with rb := 0 }) = true ∧ (s.ctx 0).endWith = none ∧ (s.found 0).th.sp 2 = true) ∧
    (let s := run { sregs := [(2, 0x2FFFFF)] }
     s.runs 0 0 (encS 0x04 1 { sop with rb := 0 }) = true ∧ (s.ctx 0).endWith = none ∧ 0x300000 < 0x2FFFFF + 2) ∧
    (let s := run { sregs := [(2, 1)] }
     s.runs 0 0 (encS 0x04 1 { sop with rb := 0 }) = true ∧ (s.ctx 0).endWith = none ∧ ((s.found 0).th.s 2).toNat % 2 ≠ 0) := by
  decide +kernel

theorem test_wit_BranchesAndJumps :
    let o : SOp := { sop with rd := 0, imm := 1 }
    let far : SOp := { o with imm := 8 }
    (∀ fn ∈ List.range 6, (run).runs 0 0 (encS 0x08 fn o) = true ∧ (run).runs 0 0 (encS 0x08 fn far) = true) ∧
    (let lt := (run { sregs := [(2, 1), (3, 2)] }).found 0
     let eq := (run).found 0
     lt.th.sp 2 = false ∧ lt.th.sp 3 = false ∧ lt.th.s 2 ≠ lt.th.s 3 ∧ (lt.th.s 2).toInt < (lt.th.s 3).toInt ∧
     lt.th.s 2 < lt.th.s 3 ∧ eq.th.s 2 = eq.th.s 3 ∧ (eq.th.s 3).toInt ≤ (eq.th.s 2).toInt ∧ eq.th.s 3 ≤ eq.th.s 2) ∧
    ((run).ctx 0).inCode 0 (((run).found 0).th.pc + o.imm.signExtend 64 * 8) = true ∧
    ((run).ctx 0).inCode 0 (((run).found 0).th.pc + far.imm.signExtend 64 * 8) = false ∧
    (run).runs 0 0 (encS 0x09 0 { o with rd := 1, ra := 0, rb := 0 }) = true ∧
    (let j : SOp := { o with rd := 1, rb := 0, imm := 16 }
     (run).runs 0 0 (encS 0x0A 0 j) = true ∧ ((run).found 0).th.sp 2 = false ∧
      ((run).ctx 0).inCode 0 (((run).found 0).th.s 2 + j.imm.signExtend 64) = true) ∧
    ((run).canIssue 0 = true ∧ ((run).found 0).ctx = some 0 ∧ ((run).ctx 0).inCode 0 ((run).found 0).th.pc = true ∧
      legalWord (0x7F : Word64).toNat = false ∧ ((run).ctx 0).endWith = none) := by decide +kernel

theorem test_wit_VectorLaneArithmetic :
    (∀ fn ∈ List.range 5, (run).runs 0 0 (encV 0x20 fn { vop with vc := if fn = 3 ∨ fn = 4 then 4 else 0 }) = true) ∧
    (∀ fn ∈ [5, 6, 9], (run).runs 0 0 (encV 0x20 fn vop) = true) ∧
    (∀ fn ∈ [7, 8, 0x0A, 0x0B, 0x0C, 0x0D], (run).runs 0 0 (encV 0x20 fn { vop with vb := 0 }) = true) ∧
    (∀ fn ∈ List.range 13, (run).runs 0 0 (encV 0x21 fn vop) = true) := by decide +kernel

theorem test_wit_VectorComparesAndPredicates :
    (∀ fn ∈ List.range 10, (run).runs 0 0 (encV 0x22 fn vop) = true) ∧
    (∀ fn ∈ List.range 4, (run).runs 0 0 (encV 0x26 fn vop) = true) ∧
    (∀ fn ∈ [4, 5], (run).runs 0 0 (encV 0x26 fn { vop with va := 0, vb := 0 }) = true) ∧
    (∀ fn ∈ [6, 7], (run).runs 0 0 (encV 0x26 fn { vop with vd := 0, vb := 0, ss := 5 }) = true) ∧
    ((run).runs 0 0 (encV 0x2A 0 { vop with ss := 5 }) = true ∧ vop.imm.getLsbD 0 = false) ∧
    (let s := run { sregs := [(5, 9)] }
     s.runs 0 0 (encV 0x2A 1 { vop with vd := 0, va := 0, vb := 0, ss := 5 }) = true ∧ (s.found 0).th.sp 5 = false ∧
      ((s.found 0).th.s 5).toNat < 2 ^ 32) := by decide +kernel

theorem test_wit_VectorConversionsReductionsMoves :
    (∀ fn ∈ List.range 10, (run).runs 0 0 (encV 0x23 fn { vop with vb := 0 }) = true) ∧
    (∀ fn ∈ List.range 7, (run).runs 0 0 (encV 0x24 fn { vop with vb := 0, ss := 5 }) = true) ∧
    (run).runs 0 0 (encV 0x25 0 { vop with vb := 0 }) = true ∧
    (run).runs 0 0 (encV 0x25 1 { vop with va := 0, vb := 0, ss := 5 }) = true ∧
    (run).runs 0 0 (encV 0x25 2 { vop with pred := 1, pe := true }) = true ∧
    (run).runs 0 0 (encV 0x25 3 { vop with vd := 0, vb := 0, ss := 5, imm := 63 }) = true ∧
    (run).runs 0 0 (encV 0x25 4 { vop with va := 0, vb := 0, ss := 5, imm := 63 }) = true ∧
    (run).runs 0 0 (encV 0x25 5 vop) = true ∧ (run).runs 0 0 (encV 0x25 6 { vop with va := 0, vb := 0 }) = true := by
  decide +kernel

theorem test_wit_VectorMemoryMasksMoments :
    let ld : VOp := { vop with va := 0, vb := 0, ss := 5, imm := 1 }
    let st : VOp := { vop with vd := 0, vb := 0, ss := 5, imm := 1 }
    let k := (run).found 0
    (run).runs 0 0 (encV 0x28 0 ld) = true ∧ (run).runs 0 0 (encV 0x29 0 st) = true ∧ k.th.sp 5 = false ∧
    (vaddr ld k + 256 ≤ 0x300000 ∧ vaddr ld k % 64 = 0 ∧ vaddr st k + 256 ≤ 0x300000 ∧ vaddr st k % 64 = 0) ∧
    ((run).runs 0 0 (encV 0x27 0 { vop with va := 0 }) = true ∧
      (run).runs 0 0 (encV 0x27 1 { vop with va := 0, vb := 0 }) = true ∧
      (sget ((0 : Word64), (none : Option CoreId)) ((run).ctx 0).streams 0).2 = none) ∧
    (let s := run {} { streams := [(0, (3, some 9))] }
     s.runs 0 0 (encV 0x27 1 { vop with va := 0, vb := 0 }) = true ∧ (9 : CoreId) ≠ 0 ∧
      (sget ((0 : Word64), (none : Option CoreId)) (s.ctx 0).streams 0).2 = some 9 ∧ (s.ctx 0).endWith = none) ∧
    ((run).runs 0 0 (encV 0x2B 0 { ld with vd := 2 }) = true ∧ (run).runs 0 0 (encV 0x2B 1 { st with va := 2 }) = true ∧
      (run).runs 0 0 (encV 0x2B 2 { vop with vd := 4, vb := 0, ss := 5 }) = true) := by decide +kernel

theorem test_wit_FloatingPointSpecialValues :
    (f32val 0x7FC00001).isNan = true ∧ (f32val 0x7F800001).isNan = true := by decide +kernel

/-! ### Hypotheses that are met: arrays, streams and synchronisation -/

/-- A pass of one step on array 0 of core 0. -/
def pass1 : Pass :=
  { arr := 0, tile := 0, acc := false, fmt := 2, ae := false, be := false, k := 1, f := 1, gang := false, sa := 0, sb := 0
    cyc := 0, seq := 0, ctx := 0, action := 0, tol := 0, capA := [], capB := [], poison := false, judged := 0 }

theorem test_wit_MatrixInstructions :
    (let k := (run).found 0
     (run).runs 0 0 (encM 0x40 mop) = true ∧ k.gangSettled = true ∧ k.passes = [] ∧ k.th.ganged = false ∧
      (∀ q, q < 4 → (run).arrTrap 0 [q] = none) ∧
      ∀ r : Fin 32, (k.th.s r).toNat + 128 * (64 + 63) ≤ 0x300000 ∧ (k.th.s r).toNat % 64 = 0 ∧ k.th.sp r = false) ∧
    (let s := run { ganged := true }
     let k := s.found 0
     s.runs 0 0 (encM 0x40 mop) = true ∧ k.gangSettled = true ∧ k.passes = [] ∧ k.th.ganged = true ∧ mop.arr = 0 ∧
      (∀ q, q < 4 → s.arrTrap 0 [q] = none) ∧ s.runs 0 0 (encM 0x45 { mop with sa := 0, sb := 0, k := 0 }) = true ∧
      s.isFenced 0 = false ∧ k.th.lands.all (fun l => match l.val with | .commit .. => false | _ => true) = true ∧
      s.runs 0 0 (encM 0x44 { mop with sa := 0, sb := 0, k := 0 }) = true) ∧
    (let o : MOp := { mop with sa := 0, sb := 0, k := 0, row := 31, half := true, vr := 7 }
     (run).runs 0 0 (encM 0x41 o) = true ∧ (run).runs 0 0 (encM 0x42 o) = true) ∧
    (let o : MOp := { mop with sa := 0, sb := 0, k := 0 }
     (run).runs 0 0 (encM 0x43 o) = true ∧ (run).runs 0 0 (encM 0x44 o) = true ∧ (run).runs 0 0 (encM 0x45 o) = true ∧
      ∀ q, q < 4 → (run).usable q = true ∧ ((run).modCore 0 Core.settle).inFlight q = false) ∧
    (let k : Core := { th := { cyc := 5, lands := [⟨5, 0, .tzero 1 2⟩] } }
     k.th.lands = [⟨5, 0, .tzero 1 2⟩] ∧ 5 ≤ k.th.cyc) ∧
    (let s : State := { run with arrs := [(0, { fenced := some .driver })] }
     s.runs 0 0 (encM 0x40 mop) = true ∧ (s.found 0).gangSettled = true ∧ (s.found 0).th.ganged = false ∧
      s.fusedOff 0 = false ∧ s.retryArr 0 ≠ some 0 ∧ s.isFenced 0 = true ∧ (s.ctx 0).endWith = none) := by decide +kernel

/-- The same pass once it has read its feeds, and a fault that strikes one of its cells. -/
def fed1 : Pass := { pass1 with action := 1, capA := [0], capB := [0] }
def strike1 : CellFault := { row := 3, col := 4, mask := 1 }

theorem test_wit_PassVerdictsAndRetries :
    (∀ act ∈ [0, 1, 2], ∀ poison ∈ [true, false],
      let p0 : Pass := { pass1 with action := act, poison := poison }
      let s := run { cyc := 40 } {} { passes := [p0] }
      (s.core 0).passes = [p0] ∧ (s.core 0).verdictDue p0 = true ∧ (s.core 0).ungangWait = false ∧
      (s.ctx p0.ctx).endWith = none ∧
      (s.core 0).capture p0.f p0.f p0 = { fed1 with action := act, poison := poison }) ∧
    (let s := reg (pCLU 0) 0x100 0xAF { run with clus := [(0, { retryQ := [{ core := 0, quad := 0, pass := fed1 }] })] }
     (s.clu 0).serving = none ∧ (s.clu 0).retryQ = { core := 0, quad := 0, pass := fed1 } :: [] ∧
      s.retryAvail 0 = true ∧ (run).retryAvail 0 = false) ∧
    (let job : RetryJob := { core := 0, quad := 0, pass := fed1 }
     let s : State := { run {} {} { retrying := 1 } with clus := [(0, { serving := some job })] }
     (s.clu 0).serving = some job ∧ (s.core job.core).ungangWait = false ∧ (s.ctx job.pass.ctx).endWith = none) := by
  decide +kernel

theorem test_wit_PassVerdictsAndRetries_clean : (fed1.check (fed1.block 0 [])).map (fun h => h.clean) = some true := by
  decide +kernel

theorem test_wit_PassVerdictsAndRetries_struck :
    (fed1.check (fed1.block 0 [strike1])).map (fun h => h.clean) = some false := by decide +kernel

theorem test_wit_PassVerdictsAndRetries_poisoned :
    (Pass.check { fed1 with poison := true } (Pass.block { fed1 with poison := true } 0 [])).isNone = true := by
  decide +kernel

theorem test_wit_FencesAndSelfTests :
    (let s := en (pCLU 0) (on [dClu 0])
     s.admits .host (pCLU 0) 0x820 = true ∧ s.pgEn (pCLU 0) = true ∧ fld (47 : Word32) 0 6 < 48 ∧ s.fusedOff 47 = false ∧
      s.isFenced 47 = false ∧ 48 ≤ fld (48 : Word32) 0 6 ∧ s.admits .host (pCLU 0) 0x824 = true ∧
      bit (0x32F : Word32) 9 = true ∧ (s.clu 0).test = none ∧ s.inFlight 47 = false) ∧
    ({ State.reset with nv := { State.reset.nv with fuses := [(1, 0x8000)] } } : State).fusedOff 47 = true ∧
    (run {} {} { passes := [pass1] }).inFlight 0 = true ∧
    (let s : State := en (pCLU 0) { on [dClu 0] with arrs := [(47, { fenced := some .driver })] }
     s.admits .host (pCLU 0) 0x820 = true ∧ s.pgEn (pCLU 0) = true ∧ s.isFenced 47 = true ∧ s.fusedOff 47 = false) ∧
    (let u : SelfTest := { slot := 47, unfence := true, running := false, slices := 0, bad := false }
     let s : State := { on [47] with clus := [(0, { test := some u })] }
     (s.clu 0).test = some u ∧ s.inFlight 47 = false ∧ s.domOn 47 = true) ∧
    (∀ n ∈ [30, 31], let u : SelfTest := { slot := 47, unfence := true, running := true, slices := n, bad := false }
      (({ State.reset with clus := [(0, { test := some u })] } : State).clu 0).test = some u) := by decide +kernel

/-- A stream descriptor of one slot of 64 bytes. -/
def desc1 : Desc := { tensor := 5, length := 128, slotSize := 1, slotCount := 2 }

theorem test_wit_StreamInstructions :
    (let o : COp := cop
     let k := (run).found 0
     (run).runs 0 0 (encC 0x50 o) = true ∧ ((run).ctx 0).phys 0 = some 0 ∧ k.th.sp 1 = false ∧
      (k.th.s 1).toNat + 64 ≤ 0x300000 ∧ (k.th.s 1).toNat % 64 = 0 ∧ (k.viewAt (k.th.cyc + 1)).marked 0 64 = false ∧
      (k.chan 0).queue = []) ∧
    (∀ n ∈ [1, 4], let s := run {} {} { chans := [(0, { queue := List.replicate n desc1, ctx := some 0, head := .data })] }
      ((s.found 0).chan 0).queue ≠ [] ∧ ((s.found 0).chan 0).ctx = some 0) ∧
    (let w (n : Nat) : COp := { cop with sa := 0, imm := BitVec.ofNat 32 n }
     let s := run {} {} { chans := [(0, { queue := [desc1], credits := 1 })] }
     s.runs 0 0 (encC 0x51 (w 1)) = true ∧ desc1.capacity = 2 ∧ s.runs 0 0 (encC 0x51 (w 3)) = true ∧
      s.runs 0 0 (encC 0x51 (w 2)) = true ∧ ((s.found 0).chan 0).credits = 1 ∧ ((s.found 0).chan 0).queue = desc1 :: [] ∧
      ((run).found 0).chan 0 = {} ∧ s.runs 0 0 (encC 0x52 { w 1 with sd := 0 }) = true ∧
      s.runs 0 0 (encC 0x53 (w 0)) = true) ∧
    (∀ f ∈ [true, false],
      let s := run { wait := some (.strWait 2 0 1 f) } {} { chans := [(0, { queue := [desc1], credits := 1 })] }
      s.waitLive 0 = true ∧ (s.core 0).th.wait = some (.strWait 2 0 1 f) ∧ ((s.core 0).chan 0).queue = desc1 :: [] ∧
      1 ≤ ((s.core 0).chan 0).credits) ∧
    (let s := run {} { chan := 0 }
     (s.ctx 0).phys 0 = none ∧ (s.ctx 0).endWith = none ∧ s.runs 0 0 (encC 0x50 cop) = true) := by decide +kernel

theorem test_wit_SynchronisationInstructions :
    (let b : YOp := { yop with sa := 0, sb := 0, id8 := 63 }
     let s := run {} { bars := [(63, { cores := [0, 1] })] }
     s.runs 0 0 (encY 0x60 b) = true ∧ s.barDefined 0 0 63 = true ∧ (run).barDefined 0 0 63 = false ∧
      ((run).ctx 0).endWith = none) ∧
    (let l : YOp := { yop with sa := 0, sb := 0, id8 := 255, imm := 9 }
     let s := reg pSCH 0x4FC 0xC0000000 (run)
     s.runs 0 0 (encY 0x61 l) = true ∧ s.runs 0 0 (encY 0x62 { l with imm := 0 }) = true ∧ (run).lockMay 255 0 = false ∧
      s.lockMay 255 (s.ctx 0).tenant = true ∧ s.holdsLock 0 255 = false ∧
      s.locks.any (fun e => decide (255 < e.1) && e.2.owner == some 0) = false ∧
      ({ s with locks := [(255, { owner := some 0 })] } : State).holdsLock 0 255 = true) ∧
    (let s : State := { reg pSCH 0x400 0xC0 (run) with locks := [(1, { owner := some 0 })] }
     s.lockMay 0 0 = true ∧ s.holdsLock 0 0 = false ∧ s.locks.any (fun e => decide (0 < e.1) && e.2.owner == some 0) = true) ∧
    (∀ op ∈ [0x66, 0x67, 0x6A], (run).runs 0 0 (encY op { yop with sd := 0, sa := 0, sb := 0 }) = true) ∧
    ((run).runs 0 0 (encY 0x68 { yop with sd := 0, sa := 0, sb := 0, imm := 0xFFFF }) = true ∧
      (run).log.queue.length < 64) ∧
    (let t : EStep := { group := 0, num := 1, version := 0, block := [], home := 0, emits := [], poison := false }
     let s : State := { run with eps := { State.reset.eps with ctxs := [(0, { cur := some t })] } }
     s.runs 0 0 (encY 0x69 { yop with sd := 0, imm := 0x18 }) = true ∧ (s.epsCtx 0).cur ≠ none ∧
      ((run).epsCtx 0).cur = none) ∧
    (let s := run { sentinel := true, cyc := 20 }
     (s.core 0).th.sentinel = true ∧ (s.core 0).ctx ≠ none ∧ (s.core 0).parked = false ∧ (s.core 0).th.halted = false ∧
      20 * ((s.core 0).th.sweeps + 1) ≤ (s.core 0).th.cyc) ∧
    (let s := run { sentinel := true, lands := [⟨9, 0, .sreg 2 5 false⟩] }
     s.canIssue 0 = true ∧ (s.found 0).ctx = some 0 ∧ (s.ctx 0).inCode 0 (s.found 0).th.pc = true ∧
      legalWord (encS 0x02 0 sop) = true ∧ (s.found 0).th.sentinel = true ∧ sop.ra ≠ 0 ∧
      (s.found 0).th.lands = [⟨9, 0, .sreg sop.ra 5 false⟩] ∧ (s.found 0).th.cyc < 9 ∧ (s.ctx 0).endWith = none) := by
  decide +kernel

/-- A fabric descriptor in scratch from address 0: virtual channel or flags, chip, context, tag, address and length. -/
def fabd (vc chip ctx tag addr n : Nat) : SMap Byte :=
  [(0, BitVec.ofNat 8 vc), (2, BitVec.ofNat 8 chip), (4, BitVec.ofNat 8 ctx), (6, BitVec.ofNat 8 tag)
  , (8, BitVec.ofNat 8 addr), (12, BitVec.ofNat 8 n)].filter (fun e => e.2 != 0)

theorem test_wit_FabricInstructions :
    let o : YOp := { yop with sb := 0 }
    let g : Ctx := { segs := [{ core := 0, base := 0, bytes := 0x1000 }] }
    (∀ vc ∈ [2, 3], let s := run {} g { scratch := fabd vc 7 1 9 0x40 16 }
      s.runs 0 0 (encY 0x64 o) = true ∧ fabDesc (s.found 0) o = .inr ((s.found 0).rd 0 64) ∧
      sendCheck (s.ctx 0) 0 ((s.found 0).rd 0 64) = if vc = 2 then none else some stDESC_INVALID) ∧
    (∀ n ∈ [0, 16], let s := run {} g { scratch := fabd 0 7 0 9 0x40 n }
      s.runs 0 0 (encY 0x65 o) = true ∧ fabDesc (s.found 0) o = .inr ((s.found 0).rd 0 64) ∧
      recvCheck (s.ctx 0) 0 ((s.found 0).rd 0 64) = if n = 16 then none else some stZERO_LEN) ∧
    (let s := run { wait := some (.fabSend 1 7 3 (some 0) false) }
     s.waitLive 0 = true ∧ (s.core 0).th.wait = some (.fabSend 1 7 3 (some 0) false)) ∧
    (let s := run { wait := some (.fabRecv 1 true 7 9 0x40 16 (some (0, 16, 7))) }
     s.waitLive 0 = true ∧ (s.core 0).th.wait = some (.fabRecv 1 true 7 9 0x40 16 (some (0, 16, 7)))) := by decide +kernel

/-! ### Hypotheses that are met: stream engines, barriers, memory and tiers -/

/-- Record 7: 2 pages from page 3 on, owned by tenant 0; context 0 maps it as tensor 5. -/
def rec1 : Rec :=
  { owner := 0, size := 0x400000, pool := false, home := 0, auto := true, units := [3, 4], poison := false, banked := false
    unitsB := [], cool := 0, dwell := 0, hits := 0 }
def mapped (s : State) : State :=
  { s with tier := { s.tier with recs := [(7, some rec1)], maps := [(5, some { recN := 7, rw := true })] } }

/-- Core 0 runs context 0 with channel 0 so. -/
def channed (h : Channel) : State :=
  mapped (run {} { segs := [{ core := 0, base := 0, bytes := 0x1000 }] } { chans := [(0, { h with ctx := some 0 })] })

theorem test_wit_StreamEngine_setup :
    (let s := channed { queue := [desc1], head := .setup }
     ((s.core 0).chan 0).ctx = some 0 ∧ ((s.core 0).chan 0).head = .setup ∧ ((s.core 0).chan 0).queue = desc1 :: [] ∧
      s.moveHolds 0 desc1 = false ∧ s.setupFails 0 0 desc1 = none) ∧
    (let s := channed { queue := [desc1], head := .setup }
     { s with tier := { s.tier with moves := [⟨7, true, 0, true, [], [], 0⟩] } }.moveHolds 0 desc1 = true) ∧
    (let s := channed { queue := [{ desc1 with length := 0 }], head := .setup }
     s.moveHolds 0 { desc1 with length := 0 } = false ∧ s.setupFails 0 0 { desc1 with length := 0 } = some stZERO_LEN ∧ stZERO_LEN ≠ stOK) ∧
    (let s := channed { queue := [desc1, desc1], head := .data }
     ((s.core 0).chan 0).ctx = some 0 ∧ ((s.core 0).chan 0).head = .data ∧ ((s.core 0).chan 0).nextReady = false ∧
      ((s.core 0).chan 0).queue = desc1 :: desc1 :: [] ∧ s.moveHolds 0 desc1 = false ∧ s.setupFails 0 0 desc1 = none) := by
  decide +kernel

/-- A descriptor of either direction, its second slot to move. -/
def dirDesc (out : Bool) : Desc := { desc1 with dirOut := out }
def moving1 (out : Bool) : State :=
  (channed { queue := [dirDesc out], head := .data, done := 64, credits := 1, engSlot := 1 }).modCore 0 Core.landCredits

theorem test_wit_StreamEngine_slots : ∀ out ∈ [true, false],
    ((moving1 out).running 0 0).map (fun e => (e.1, e.2.1, e.2.2)) = some (0, dirDesc out, 7, true) ∧
    (dirDesc out).dirOut = out ∧ (((moving1 out).core 0).chan 0).done < (dirDesc out).length.toNat ∧
    (((moving1 out).core 0).chan 0).credits < (dirDesc out).slotCount.toNat ∧ (dirDesc out).skew = false ∧
    min (dirDesc out).take ((dirDesc out).length.toNat - (((moving1 out).core 0).chan 0).done) ≤ 64 := by decide +kernel

theorem test_wit_StreamEngine_retire : ∀ p ∈ [true, false], ∀ rest ∈ [[], [desc1]],
    let h := (((channed { queue := desc1 :: rest, head := .data, done := 128, poisoned := p }).modCore 0
      Core.landCredits).core 0).chan 0
    h.ctx = some 0 ∧ h.head = .data ∧ h.queue = desc1 :: rest ∧ desc1.length.toNat ≤ h.done ∧ h.credits = 0 ∧
    h.poisoned = p := by decide +kernel

/-- Barrier 2 of context 0, of core 0, so; core 0 waits for it. -/
def barred (b : Barrier) (arrived : Bool) : State := run { wait := some (.bar 4 2 arrived none) } { bars := [(2, b)] }

/-- A message from chip 7. -/
def msg (kind : Byte) (extra : List Byte := []) (payload : List Byte := []) : Message :=
  { src := 7, dest := 1, kind := kind, mc := false, segment := false, dctx := 0, sctx := 0, mseq := 1, replyTo := 0
    tag := 0, status := 0, bootId := 5, extra := extra, payload := payload, poison := payload.map (fun _ => false)
    abort := false }

/-- The transport runs. -/
def fabOn (s : State := State.reset) : State := reg pFAB 0x800 1 s

/-- Group 3, group ID 9, has this chip 0 and chip 7. -/
def podded (s : State) : State :=
  let s := reg pCLX 0x20C 0x80020009 s
  { s with mem := { s.mem with bytes := [(0x6002, 7)] } }

theorem test_wit_Barriers :
    (let s := barred { cores := [0, 1] } false
     (s.core 0).ctx = some 0 ∧ (s.core 0).th.wait = some (.bar 4 2 false none) ∧ (s.core 0).closed 0 = true ∧
      (s.bar 0 2).aborted = false ∧ (s.bar 0 2).ended = none ∧ (s.bar 0 2).chips = 0 ∧ ∀ j, j < 8 → s.trnOn j 0 = false) ∧
    (let s := barred { cores := [0], arrived := [0], first := some 0 } true
     (s.bar 0 2).ended = none ∧ (s.bar 0 2).aborted = false ∧ (s.bar 0 2).chips = 0 ∧ s.barWhole 0 2 = true ∧
      s.barEngines 0 2 = [] ∧ (∀ j, j < 8 → s.trnOn j 0 = false) ∧ 0 ∈ (s.bar 0 2).arrived ∧
      (s.core 0).ctx = some 0 ∧ (s.core 0).th.wait = some (.bar 4 2 true none) ∧ s.waitLive 0 = true) ∧
    (let s := barred { cores := [0, 1], arrived := [0], first := some 5 } true
     let u : State := { s with pw := { s.pw with aonTime := 0x7FFFFFFF, claims := [(0, some .hw)] } }
     let u := reg pFAB 0x124 100 (reg pAON 0xA00 0x81 u)
     (u.bar 0 2).ended = none ∧ (u.bar 0 2).chips = 0 ∧ u.wdogOver (u.bar 0 2).first = true ∧ u.barWhole 0 2 = false ∧
      0 ∈ (u.bar 0 2).arrived ∧ (u.core 0).ctx = some 0 ∧ (u.core 0).th.wait = some (.bar 4 2 true none) ∧
      s.wdogOver (s.bar 0 2).first = false) ∧
    (let m := msg 0x20 (leBytes 4 9 ++ leBytes 4 2)
     let s := podded (fabOn (barred { cores := [0], chips := 2, group := 9, sent := true } true))
     let gid := hdr m 0x24 2
     s.newTo m = true ∧ m.mc = false ∧ gid = 9 ∧ hdr m 0x28 4 % 64 = 2 ∧ s.podChips gid = [0, 7] ∧
      (s.podChips gid).all (fun c => (s.pod gid 2).arrived.contains c || c == m.src) = false ∧
      (let u : State := { s with fab := { s.fab with pods := [(64 * 9 + 2, { arrived := [0] })] } }
       u.newTo m = true ∧ (u.podChips gid).all (fun c => (u.pod gid 2).arrived.contains c || c == m.src) = true) ∧
      s.podCtx gid 2 = some 0 ∧ (s.bar 0 2).sent = true ∧ (s.bar 0 2).ended = none) := by decide +kernel

/-- An access with clean codes. -/
def acc (a : Nat) (h : Hint := .default) : MemAccess :=
  { addr := BitVec.ofNat 40 a, hint := h, partition := 0, mayWrite := true, ecc := .clean, hcc := .clean }

/-- Stack `k` so. -/
def stk (k : Nat) (g : Hbm) (s : State := State.reset) : State := { s with mem := { s.mem with hbms := [(k, g)] } }

theorem test_wit_MemoryAccesses :
    (∀ h ∈ [.default, .stream], (acc 0x1234 h).addr.toNat < 768 * 2 ^ 30 ∧ (acc 0x1234 h).ecc = .clean ∧
      (acc 0x1234 h).hcc = .clean) ∧
    (State.reset.stack (locate State.reset.grouped 0x1234).1).stopped = false ∧ State.reset.mem.hcc = [] ∧
    768 * 2 ^ 30 ≤ (acc (768 * 2 ^ 30)).addr.toNat ∧
    (let s := stk (locate false 0x1234).1 { stopped := true }
     (s.stack (locate s.grouped 0x1234).1).stopped = true) ∧
    (768 * 2 ^ 30 - 1 < 768 * 2 ^ 30) := by decide +kernel

theorem test_wit_StacksAndSlices :
    (on [dMem 7]).domLive (dMem 7) = true ∧
    (let s := en (pMEM 7) (stk 7 { ready := true } (on [dMem 7]))
     let line := scrubAt s.grouped 7 (s.stack 7).scrubPos
     s.domOn (dMem 7) = true ∧ (s.stack 7).ready = true ∧ (s.stack 7).stopped = false ∧ s.pgEn (pMEM 7) = true ∧
      s.recOfLine line = none ∧ s.heldDirty line = false ∧ sget false s.mem.poison line = false ∧
      (let (sl, set) := sliceSet s.grouped (64 * line)
       let l : HccLine := { line := line, data := [], dirty := true, keep := false, poison := false, used := 0 }
       ({ s with mem := { s.mem with hcc := [((sl * 8192 + set) * 16, some l)] } } : State).heldDirty line = true)) ∧
    (let s := en (pHCC 15) (on [dMem 7])
     s.admits .host (pHCC 15) 0x800 = true ∧ s.pgEn (pHCC 15) = true ∧ bit (0x8001FFFF : Word32) 31 = true ∧
      s.mem.flushing.getLsbD 15 = false ∧ swf (fun _ => none) s.mem.hcc = true ∧
      ({ s with mem := { s.mem with flushing := 0x8000 } } : State).mem.flushing.getLsbD 15 = true) := by decide +kernel

/-- TIER enabled, its arguments 0 to 3 so. -/
def tier (a0 a1 a2 a3 : Word32) (s : State := State.reset) : State :=
  reg pTIER 0x804 a0 (reg pTIER 0x808 a1 (reg pTIER 0x80C a2 (reg pTIER 0x810 a3 (en pTIER s))))

theorem test_wit_AdmissionAndMapping_handles :
    (let s := tier 64 0 0xBF 0
     s.admits .host pTIER 0x800 = true ∧ s.pgEn pTIER = true ∧ fld (s.tierArg 0) 0 7 ≤ 64 ∧
      (s.tierArg 1).toNat + fld (s.tierArg 2) 0 8 * 2 ^ 32 + 256 ≤ 768 * 2 ^ 30) ∧
    (let s := tier 255 0 0 0
     let q : Handle := { owner := 64, pool := [], stack := [] }
     let u : State := { s with tier := { s.tier with handles := [(255, some q)] } }
     u.admits .host pTIER 0x800 = true ∧ sget none u.tier.handles (fld (u.tierArg 0) 0 8) = some q) := by decide +kernel

theorem test_wit_AdmissionAndMapping_map : ∀ room ∈ [1, 2],
    let s := reg (pCTX 0) 0x100 0x40 (tier 0x01000005 0x400000 0 0)
    let u : State := { s with tier := { s.tier with qstack := [(0, room)] } }
    u.admits .host pTIER 0x800 = true ∧ fld (u.tierArg 3) 0 8 = 0 ∧ bit (u.reg (pCTX 0) 0x100) 6 = true ∧
    u.mapping 0 5 = none ∧ unitsFor false 0x400000 = 2 ∧ u.room false 0 0 = room ∧
    u.admits .mgmt pTIER 0x800 = true := by decide +kernel

theorem test_wit_AdmissionAndMapping_unmap :
    (let s := mapped (reg (pCTX 0) 0x100 0x40 (tier 0x00000006 0 0 7))
     s.admits .host pTIER 0x800 = true ∧ (s.trec (fld (s.tierArg 3) 0 15)).isSome = true ∧ s.mapping 0 6 = none ∧
      bit (s.reg (pCTX 0) 0x100) 6 = true) ∧
    (let s := tier 5 0 0 0 (channed { queue := [desc1], head := .data })
     let u := mapped (tier 5 0 0 0)
     s.admits .host pTIER 0x800 = true ∧ s.mapping 0 5 = some { recN := 7, rw := true } ∧ s.ctxRecBusy 0 7 = true ∧
      u.mapping 0 5 = some { recN := 7, rw := true } ∧ u.ctxRecBusy 0 7 = false) := by decide +kernel

/-- A move of record 7 to cluster 3. -/
def move1 (hw : Bool := false) : Move :=
  { recN := 7, pool := true, home := 3, hw := hw, dst := [576, 577], dstB := [], since := 0 }

theorem test_wit_MovesQuotasAndHeat_moves : ∀ a ∈ [7, 0x310007],
    let s := mapped (tier (BitVec.ofNat 32 a) 0 0 0)
    s.admits .host pTIER 0x800 = true ∧ s.trec 7 = some rec1 ∧ s.moveOf 7 = false ∧ s.room true 0 3 = 0 := by
  decide +kernel

theorem test_wit_MovesQuotasAndHeat_start :
    let s : State := { mapped State.reset with tier := { (mapped State.reset).tier with moves := [move1] } }
    s.tier.moving = none ∧ s.tier.moves = move1 :: [] ∧ move1.dst ≠ [] ∧ s.recBusy 7 = false := by decide +kernel

theorem test_wit_MovesQuotasAndHeat_done :
    let s : State := { mapped State.reset with tier := { (mapped State.reset).tier with moving := some move1 } }
    s.tier.moving = some move1 ∧ s.trec 7 = some rec1 := by decide +kernel

theorem test_wit_MovesQuotasAndHeat_abandon :
    let s : State := { State.reset with pw := { State.reset.pw with aonTime := 0xFFFF } }
    fld (s.reg pTIER 0x110) 16 16 * 32768 ≤ (s.pw.aonTime - (move1 true).since).toNat * 1000000 := by decide +kernel

theorem test_wit_MovesQuotasAndHeat_quotas :
    State.reset.admits .host pTIER 0x844 = true ∧ fld (State.reset.reg pTIER 0x840) 0 7 ≤ 64 ∧
    State.reset.admits .host pTIER 0x84C = true ∧ (∀ k, k < 3 → State.reset.poolUsed 0 0 k = 0) ∧
    State.reset.stackUsed 0 0 = 0 ∧ State.reset.pgEn pTIER = false := by decide +kernel

/-! ### Hypotheses that are met: links, transport and collectives -/

/-- Link `l` so, on a chip whose FAB_ID is written and whose boot has started the links; its LNK_CFG enables it. -/
def linked (l : Nat) (k : Link) (s : State := State.reset) : State :=
  let s := reg pAON 0x890 8 (reg (pLNK l) 0x100 0x3D (on [dLnk l] s))
  { s with links := [(l, k)], pages := sset {} s.pages pFAB { s.page pFAB with en := true, written := [0x100] } }

/-- What training tells of link 0's partner, lanes `m` clean. -/
def partner (m : BitVec 4) (pod : BitVec 16) : TrainInfo :=
  { lanesOk := m, skew := 0, polarity := 0, reversed := false, partnerAddr := 1, partnerPod := pod, partnerLink := 1
    partnerStepping := 0, partnerCredits := [] }

theorem test_wit_LinkTraining :
    ((linked 0 { state := .down }).mayTrain 0 = true ∧ ((linked 0 { state := .sleep }).link 0).state = .sleep) ∧
    (let s := linked 0 { state := .training }
     (s.link 0).state = .training ∧ (s.link 0).fast = false ∧ s.domLive (dLnk 0) = true ∧
      bit (s.reg (pLNK 0) 0x140) 0 = false ∧ s.minLanes 0 = 4 ∧ lanesIn (lanesAfter (partner 7 0)) < 4 ∧
      s.minLanes 0 ≤ lanesIn (lanesAfter (partner 15 0)) ∧ s.miswire 0 (partner 15 0) = 0 ∧
      s.miswire 0 (partner 15 1) ≠ 0) ∧
    (let s := linked 0 { state := .down, failed := true, signal := true }
     (s.link 0).failed = true ∧ (s.link 0).state = .down ∧ (s.link 0).signal = true ∧ s.mayTrain 0 = true ∧
      s.admits .host (pLNK 0) 0x810 = true ∧ (s.link 0).cmd = 0 ∧ s.admits .host (pLNK 0) 0x100 = true ∧
      s.chipTrains = true ∧ bit (0x3D : Word32) 0 = true ∧ bit (0x3C : Word32) 0 = false ∧ (s.link 0).state ≠ .disabled) ∧
    ((linked 0 { fast := true }).link 0).fast = true ∧ (linked 0 { fast := true }).domLive (dLnk 0) = true ∧ ((linked 0 { state := .up }).link 0).state = .up ∧
    ((linked 0 { state := .up, cmd := 2 }).link 0).cmd ≠ 0 ∧ ((linked 0 { state := .down }).link 0).signal = false ∧
    State.reset.admits .host pFAB 0x100 = true := by decide +kernel

/-- A frame with nothing in it. -/
def frm (f : Frame := plainFrame 1) : Frame := { f with crcOk := true, cut := false }

theorem test_wit_LinkFrames_data :
    (let s := linked 3 { state := .up, rxSeq := 5 }
     (s.link 3).state = .up ∧ frameBad (frm { plainFrame 1 with seq := 5, som := true, eom := true }) = false ∧
      (frm { plainFrame 1 with seq := 5 }).seq = (s.link 3).rxSeq ∧ fld (plainFrame 1).route 0 12 = s.myAddr ∧
      bit (plainFrame 1).route 12 = false ∧ bit (plainFrame 1).route 13 = false ∧ bit (plainFrame 1).route 14 = false ∧
      (4 : BitVec 16) ≠ (s.link 3).rxSeq ∧ ((s.link 3).rxSeq - 4).toNat ≤ 32768 ∧ 32768 < ((s.link 3).rxSeq - 6).toNat ∧
      frameBad { plainFrame 1 with crcOk := false } = true ∧ s.calm = true ∧ s.linkRuns 3 = true) ∧
    (∀ n ∈ [0, 255],
      let s := reg (pLNK 3) 0x10C 0x80000 (linked 3 { state := .up, retry := [frm], resends := n, owed := true })
      s.linkRuns 3 = true ∧ (s.link 3).retry ≠ [] ∧ s.calm = true ∧ (s.link 3).owed = true ∧
      fld (s.reg (pLNK 3) 0x10C) 16 8 = 8) := by decide +kernel

theorem test_wit_LinkFrames_sleep :
    (let s := linked 3 { state := .up }
     s.linkRuns 3 = true ∧ (s.link 3).quiet = true ∧ bit (s.reg (pLNK 3) 0x100) 5 = true ∧
      2 ≤ (s.page (pLNK 3)).allow.toNat ∧ (s.dom (dLnk 3)).hold = false ∧ (s.link 3).sleepReq = false ∧
      (s.link 3).owed = false ∧ s.calm = true ∧ frameBad (frm (plainFrame 4)) = false) ∧
    ((linked 3 { state := .up, sleepReq := true }).link 3).sleepReq = true ∧
    ((linked 3 { state := .up, owed := true }).link 3).owed = true ∧
    (let s := linked 3 { state := .sleep }
     (s.link 3).state = .sleep ∧ (s.link 3).fast = false) := by decide +kernel

theorem test_wit_LinkWidth :
    (∀ cfg ∈ [0x31, 0x3D],
      let s := reg (pLNK 3) 0x100 (BitVec.ofNat 32 cfg) (linked 3 { state := .up, lanes := 15, trained := 15, cmd := 2 })
      s.linkRuns 3 = true ∧ (s.link 3).lanes.getLsbD 2 = true ∧ (s.link 3).recal = none ∧ s.calm = true ∧
      s.minLanes 3 = (if cfg = 0x31 then 1 else 4) ∧ lanesIn (setBit (s.link 3).lanes 2 false) = 3 ∧
      lanesIn 11 = 3 ∧ (s.link 3).lanes = 15 ∧ s.recalDue 3 40 = true) ∧
    (let s := linked 3 { state := .up, lanes := 15, askMask := some 11, nextMask := some 14 }
     (s.link 3).askMask = some 11 ∧ (s.link 3).askMask ≠ some 7 ∧ (s.link 3).nextMask = some 14 ∧ (s.link 3).recal = none) ∧
    (let s := reg (pLNK 3) 0x100 0x31 (linked 3 { state := .up, lanes := 11, trained := 15, recal := some 2 })
     (s.link 3).recal = some 2 ∧ (s.link 3).lanes.getLsbD 2 = false ∧ (s.link 3).nextMask = none ∧
      (s.link 3).askMask = none ∧ s.minLanes 3 ≤ lanesIn (setBit (s.link 3).lanes 2 true) ∧ s.admits .mgmt (pLNK 3) 0x810 = true ∧
      (s.link 3).cmd = 0 ∧ (s.link 3).trained &&& ~~~(s.link 3).lanes ≠ 0 ∧
      (s.link 3).trained &&& ~~~(s.link 3).lanes &&& 4 ≠ 0 ∧
      s.minLanes 3 ≤ lanesIn ((s.link 3).lanes ||| ((s.link 3).trained &&& ~~~(s.link 3).lanes &&& 4))) := by decide +kernel

/-- Core 0 waits for the outcome of message 3 to chip 7, which the transport holds so. -/
def sent (h : Held) : State :=
  let s := fabOn (run { wait := some (.fabSend 1 7 3 none false) })
  { s with fab := { s.fab with held := [h] } }

/-- That message. -/
def held1 : Held :=
  { msg := { msg 1 with dest := 7, mseq := 3 }, vc := 2, sender := .core 0 0, sent := true, tries := 0, norecv := false
    refused := true, first := 0, cancelled := false }

theorem test_wit_MessagesAndOutcomes_receive :
    (let m := msg 1 [] (List.replicate 16 9)
     let s := fabOn (run { wait := some (.fabRecv 1 true 0 0 0x40 16 none) })
     s.newTo m = true ∧ m.mc = false ∧ m.kind = 0x01 ∧ s.findRecv m = some (0, 0x40, 16) ∧ m.payload.length ≤ 16 ∧
      (s.core 0).ctx = some m.dctx ∧ (s.core 0).th.wait = some (.fabRecv 1 true 0 0 0x40 16 none) ∧
      State.reset.findRecv m = none ∧ fabOn.newTo m = true) ∧
    (let s : State := { fabOn with fab := { State.reset.fab with
        windows := [(7, some { boot := 5, h := 1, outs := [(1, some stOK)], seen := [] })] } }
     bit (s.reg pFAB 0x800) 0 = true ∧ (msg 1).abort = false ∧ s.eps.held = [] ∧ (s.windowOf (msg 1)).2.h ≠ 0 ∧
      mseqAbove (msg 1).mseq.toNat (s.windowOf (msg 1)).2.h = false ∧
      sget none (s.windowOf (msg 1)).2.outs (msg 1).mseq.toNat = some stOK) := by decide +kernel

theorem test_wit_MessagesAndOutcomes_held :
    (let s := sent held1
     let a (st : BitVec 16) : Message := { msg 2 with replyTo := 3, status := st }
     bit (s.reg pFAB 0x800) 0 = true ∧ s.heldOf 7 3 = some held1 ∧ s.heldOf 7 4 = none ∧ (a stNO_RECV).status = stNO_RECV ∧
      (a 0).status ≠ stNO_RECV ∧ held1.sender = .core 0 0 ∧ (s.core 0).ctx = some 0 ∧
      (s.core 0).th.wait = some (.fabSend 1 held1.msg.dest held1.msg.mseq none false) ∧ held1.refused = true) ∧
    (∀ n ∈ [0, 8], let s := reg pFAB 0x11C 0x80000 (sent { held1 with tries := n })
      (s.heldOf 7 3).map (fun h => (h.sent, h.norecv, h.tries)) = some (true, false, n) ∧ fld (s.reg pFAB 0x11C) 16 8 = 8) ∧
    (let s := sent held1
     let u : State := { s with pw := { s.pw with aonTime := 0x7FFFFFFFFFFF } }
     (u.reg pFAB 0x120).toNat ≤ (u.pw.aonTime - held1.first).toNat) ∧
    (let q : RxMsg := { hop := none, mine := true, dead := false, bytes := [], poison := [], route := 0 }
     sget none ((linked 3 { rx := [(2, some q)] }).link 3).rx 2 = some q) := by decide +kernel

/-- A message of one frame to chip 1 that waits on channel 2 of link 4, no link holding any credit. -/
def queued : State :=
  let f : Frame := { plainFrame 1 with vc := 2, route := 1, som := true, eom := true }
  let q : TxMsg := { src := none, frames := [f], begun := false }
  let s := linked 4 { state := .up, txq := [(2, [q])] }
  { s with links := [(0, { state := .up }), (4, { state := .up, txq := [(2, [q])] })] }

theorem test_wit_HopsEnablesAndWatchdog_starved : ∀ k v, (queued.link k).txCredit.getD v 0 = 0 := by
  intro k v
  have h : (queued.link k).txCredit = [0, 0, 0, 0, 0, 0, 0, 0] := by
    by_cases h0 : k = 0
    · subst h0; rfl
    · by_cases h4 : k = 4
      · subst h4; rfl
      · have e : queued.link k = {} := by
          simp [queued, State.link, sget, Ne.symm h0, Ne.symm h4]
        rw [e]
  rw [h]
  rcases v with _ | _ | _ | _ | _ | _ | _ | _ | v <;> simp

theorem test_wit_HopsEnablesAndWatchdog_hops :
    queued.fab.mcWait = [] ∧ (queued.headWaits 4 2).isSome = true ∧
    (queued.headWaits 4 2).map (fun q => q.frames.length) = some 1 ∧ bit (1 : Word32) 12 = false ∧
    queued.escapeLink (fld (1 : Word32) 0 12) = some 0 ∧ queued.linkRuns 0 = true ∧ queued.headWaits 4 1 = none := by
  decide +kernel

theorem test_wit_HopsEnablesAndWatchdog_enable :
    (State.reset.admits .host pFAB 0x108 = true ∧ bit (State.reset.reg pFAB 0x800) 0 = false ∧
      State.reset.freeTmr = some 0) ∧
    (({ State.reset with pw := { State.reset.pw with claims := (List.range 8).map (fun n => (n, some .host)) } } : State).freeTmr
      = none) ∧
    ((reg pAON 0xA00 0x81 { State.reset with pw := { State.reset.pw with claims := [(0, some .hw)] } }).hwTmr 0x81 = some 0) ∧
    (let s := podded (barred { cores := [0], chips := 2, group := 9, sent := true, arrived := [0] } true)
     let u : State := { s with pw := { s.pw with aonTime := 0x7FFFFFFF, claims := [(0, some .hw)] }
                               fab := { s.fab with pods := [(64 * 9 + 2, { arrived := [0], first := some 5 })] } }
     let u := fabOn (reg pFAB 0x124 100 (reg pAON 0xA00 0x81 u))
     u.wdogOver (u.pod 9 2).first = true ∧
      podRoot ((u.podChips 9).filter (fun c => !(u.pod 9 2).arrived.contains c)) = some 7 ∧
      s.wdogOver (s.pod 9 2).first = false ∧ s.groupOf 8 = none ∧
      (let m : Message := { msg 0x22 (leBytes 4 9 ++ leBytes 4 2 ++ leBytes 4 0) with status := stBARRIER_ABORT }
       bit (u.reg pFAB 0x800) 0 = true ∧ m.abort = false ∧ hdr m 0x2C 1 ≠ 1 ∧ hdr m 0x28 4 % 64 = 2 ∧
        u.podCtx (hdr m 0x24 2) 2 = some 0 ∧ 0 ∈ (u.bar 0 2).arrived ∧ (u.core 0).ctx = some 0 ∧
        (u.core 0).th.wait = some (.bar 4 2 true none))) := by decide +kernel

/-- Group 3, group ID 9: chip 7 has rank 0, this chip 0 has rank 1, for context 0; CLX is ON and enabled. -/
def clx (k : Clx) : State :=
  let s := mapped (fabOn (reg pCLX 0x20C 0x80020009 (reg pCLX 0x30C 1 (en pCLX (on [dCLX])))))
  { s with mem := { s.mem with bytes := [(0x6000, 7)] }, clx := k }

/-- An all-reduce of 4 FP32 elements in tensor 5, CSEQ 2. -/
def red1 (flags : Byte) : List Byte :=
  [1, 0, 1, flags, 3, 0, 0, 0] ++ leBytes 4 2 ++ leBytes 4 4 ++ leBytes 2 5 ++ leBytes 2 5 ++ List.replicate 4 0
    ++ List.replicate 16 0 ++ leBytes 6 16 ++ List.replicate 18 0

/-- Its queue entry, and the queue that holds it. -/
def ent1 (flags : Byte) : QEntry := { cid := 8, op := 2, irq := true, idx := 0, image := 0, desc := red1 flags }

/-- It posted, in a phase. -/
def coll1 (ph : CollPhase) (cseq : Word32 := 2) : Coll :=
  { grp := 3, cseq := cseq, desc := red1 0, mode := 0, deadline := 0, by_ := .queue 1 8, at_ := 0, rank := 1, n := 2, phase := ph
    blocks := [(0, 4)], dblocks := [(0, 4)] }

theorem test_wit_CollectivesPostAndArrive_post : ∀ flags ∈ [0, 4],
    let s : State := { clx {} with ques := [(1, { fetched := [ent1 (BitVec.ofNat 8 flags)] })] }
    let d := red1 (BitVec.ofNat 8 flags)
    s.domOn dCLX = true ∧ s.mayBegin 1 2 = some (ent1 (BitVec.ofNat 8 flags)) ∧ s.clx.colls = [] ∧ s.clx.rounds = [] ∧
    d.length = 64 ∧ s.descShape d 0 = decide (flags = 0) ∧ isVar (dOp d) = false ∧ bit (s.clxGroup (dGrp d)) 31 = true ∧
    fld (s.grpRank (dGrp d)) 16 6 = (dCtx d).val ∧ sget 0 s.clx.hist (dGrp d) ≤ (dCseq d).toNat ∧
    s.localCheck d (s.grpN (dGrp d)) (fld (s.grpRank (dGrp d)) 0 12) 0 [] = stOK ∧
    (s.coordinator (dGrp d)).toNat ≠ s.myAddr := by decide +kernel

/-- A message of CLX's for group ID 9 and CSEQ 2 from rank 0. -/
def clxMsg (kind : Byte) (payload : List Byte) : Message :=
  msg kind (leBytes 2 9 ++ leBytes 2 0 ++ leBytes 4 2 ++ List.replicate 20 0) payload

theorem test_wit_CollectivesPostAndArrive_messages :
    (let m := clxMsg 0x10 (red1 0)
     let s := clx {}
     s.domOn dCLX = true ∧ s.newTo m = true ∧ m.mc = false ∧ s.pgEn pCLX = true ∧ s.clxMsgGroup m = some 3 ∧
      s.clx.colls = [] ∧ s.clx.rounds = [] ∧ s.lostRanks 3 = [] ∧ 2 ≤ s.grpN 3) ∧
    (let s := clx { colls := [coll1 .arriving 1, coll1 .arriving] }
     s.newTo (clxMsg 0x11 []) = true ∧ s.clxMsgGroup (clxMsg 0x11 []) = some 3 ∧
      s.clx.colls = [coll1 .arriving 1, coll1 .arriving] ∧ (coll1 .arriving).cseq = msgCseq (clxMsg 0x11 [])) ∧
    (∀ T ∈ [0, 0x7FFFFFFF],
      let s : State := { reg pFAB 0x124 100 (clx { colls := [coll1 .arriving] }) with
        ques := [(1, { running := [ent1 0] })], pw := { (on [dCLX]).pw with aonTime := BitVec.ofNat 48 T } }
      s.domOn dCLX = true ∧ s.clx.colls = [coll1 .arriving] ∧ s.clx.rounds = [] ∧ (s.que 1).running = [ent1 0] ∧
      (coll1 .arriving).by_ = .queue 1 (ent1 0).cid ∧
      decide (2 * (s.reg pFAB 0x124).toNat ≤ (s.pw.aonTime - (coll1 .arriving).at_).toNat) = decide (T ≠ 0) ∧
      s.admits .host pCLX (0x200 + 4 * 3) = true) := by decide +kernel

/-- The exchange of a data phase that expects 16 bytes from rank 0. -/
def stage1 : CollStage :=
  { own := [], started := true, exs := [{ peer := 0, send := [], recv := [0], combine := false, gather := false }] }

theorem test_wit_CollectiveDataAndStragglers_data :
    let m := clxMsg 0x12 (List.replicate 8 1)
    let c : Coll := { coll1 .data with plan := [stage1] }
    let s := clx { colls := [c] }
    (s.domOn dCLX = true ∧ s.newTo m = true ∧ m.mc = false ∧ s.pgEn pCLX = true ∧ s.clxMsgGroup m = some 3 ∧
      s.clx.rounds = [] ∧ s.clx.colls = [c] ∧ c.grp = 3 ∧ c.cseq = msgCseq m ∧ c.phase = .data ∧ c.plan = stage1 :: [] ∧
      stage1.started = true ∧
      (∃ e ∈ stage1.exs, stage1.exs = [e] ∧ e.peer = hdr m 0x26 2 ∧ e.recv ≠ [] ∧ e.got = [] ∧
        m.payload.length < (s.exchLen c e).1 + (s.exchLen c e).2 ∧ sget 0 c.rxAt e.peer ≤ hdr m 0x30 8 ∧
        hdr m 0x30 8 + m.payload.length ≤ sget 0 c.rxAt e.peer + (s.exchLen c e).1 + (s.exchLen c e).2)) ∧
    ((clx {}).takePiece m).isNone = true ∧
    (let r : Message := { clxMsg 0x13 [1] with tag := 7 }
     r.tag.toNat ≠ s.myAddr ∧ r.tag.toNat < 4096 ∧ s.newTo r = true) := by decide +kernel

/-- A round in straggler mode to which rank 0 has come, DEADLINE one microsecond. -/
def round1 : Round :=
  { grp := 3, cseq := 2, first := 0, expired := false, gone := none, aborted := none
    arrivals := [{ rank := 0, fields := (red1 0).take 8 ++ leBytes 4 2 ++ leBytes 4 0 ++ leBytes 4 1 ++ leBytes 4 1000000
                   cap := 0, status := 0, counts := [] }] }

theorem test_wit_CollectiveDataAndStragglers_deadline : ∀ T ∈ [0, 32768],
    let s := clx { rounds := [round1] }
    let s : State := { s with pw := { s.pw with aonTime := BitVec.ofNat 48 T } }
    s.domOn dCLX = true ∧ s.clx.colls = [] ∧ s.clx.rounds = [round1] ∧ round1.grp = 3 ∧ round1.cseq = 2 ∧ round1.mode ≠ 0 ∧
    round1.gone = none ∧ round1.aborted = none ∧ round1.arrivals.head?.isSome = true ∧
    (round1.arrivals.head?.map (fun a => decide (lef a.fields 20 4 * 32768 ≤
      ((s.pw.aonTime - round1.first).toNat + 1) * 1000000))) = some (decide (T ≠ 0)) ∧
    roundFails (round1.ranks (s.grpN 3)) = none ∧
    ((round1.ranks (s.grpN 3)).head?.map (fun b => decide (lef b.fields 8 4 ≠ 0))) = some true ∧
    s.roundOver round1 = false := by decide +kernel

theorem test_wit_CollectiveDataAndStragglers_late : ∀ r ∈ [0, 1],
    let m := clxMsg 0x14 (leBytes 2 r)
    let s := clx { colls := [coll1 .arriving] }
    s.domOn dCLX = true ∧ s.newTo m = true ∧ m.mc = false ∧ s.pgEn pCLX = true ∧ s.clxMsgGroup m = some 3 ∧
    s.clx.rounds = [] ∧ s.clx.colls = [coll1 .arriving] ∧ (coll1 .arriving).cseq = msgCseq m ∧
    fld (s.grpRank 3) 0 12 = 1 ∧ lef m.payload 0 2 = r ∧ 0 < dCount (coll1 .arriving).desc := by decide +kernel

/-! ### Hypotheses that are met: a problem that loads -/

/-- A problem of one block with no couplings in record 7, granules 0 and 1; its result goes to record 8; channel 0 is the
host's. -/
def loadable : State :=
  let r7 : Rec := { rec1 with pool := true, size := 0x20000, units := [0, 1] }
  let s := reg pANL 0x200 0x1C0 (reg pANL 0x208 0x80007 (on [dANL]))
  { s with
    anl := { s.anl with chs := [(0, { state := .loading })] }
    tier := { s.tier with recs := [(7, some r7), (8, some { r7 with units := [2] })] }
    mem := { s.mem with pool := [(0, 0x50), (1, 0x41), (2, 0x4E), (3, 0x4C), (4, 1), (14, 1), (16, 1), (20, 1)] } }

/-- Bytes of its tensor. -/
def probByte (i : Nat) : Byte := sget 0 loadable.mem.pool ([0, 1].getD (i / 65536) 0 * 65536 + i % 65536)

theorem getD_of_zero {l : List Int} (h : ∀ x ∈ l, x = 0) (k : Nat) : l.getD k 0 = 0 := by
  rw [List.getD_eq_getElem?_getD]
  cases e : l[k]? with
  | none => rfl
  | some x => exact h x (List.mem_of_getElem? e)

theorem getD_range {α : Type} (f : Nat → α) (n i : Nat) (d : α) (h : i < n) : ((List.range n).map f).getD i d = f i := by
  simp [List.getD_eq_getElem?_getD, h]

theorem contentOk_of_zero {p : Prob} (hd : ∀ x ∈ p.dense, x = 0) (hs : p.sparse = []) (hc : p.curve = 1) (hp : p.peers = []) :
    p.contentOk = true := by
  simp only [Prob.contentOk, Prob.dij, getD_of_zero hd, hs, hc, hp]
  simp

theorem probByte_beyond : ∀ i, 64 ≤ i → i < 131072 → probByte i = 0 := by
  intro i h1 h2
  have h : probByte i = sget 0 loadable.mem.pool i := by
    unfold probByte
    by_cases hi : i < 65536
    · have : i / 65536 = 0 := by omega
      rw [this]
      show sget 0 _ (0 * 65536 + i % 65536) = _
      rw [show 0 * 65536 + i % 65536 = i by omega]
    · have : i / 65536 = 1 := by omega
      rw [this]
      show sget 0 _ (1 * 65536 + i % 65536) = _
      rw [show 1 * 65536 + i % 65536 = i by omega]
  rw [h]
  show sget 0 [(0, 0x50), (1, 0x41), (2, 0x4E), (3, 0x4C), (4, 1), (14, 1), (16, 1), (20, 1)] i = 0
  simp only [sget]
  repeat' rw [if_neg (by omega)]

theorem lef_one (bs : List Byte) (o : Nat) : lef bs o 1 = (bs.getD o 0).toNat := by
  rw [lef, List.getD_eq_getElem?_getD]
  by_cases h : o < bs.length
  · rw [List.take_one_drop_eq_of_lt_length h]
    simp [leNat, h]
  · rw [List.drop_eq_nil_of_le (by omega), List.getElem?_eq_none (by omega)]
    rfl

/-- The problem's bytes. -/
def probBytes : List Byte := (List.range 66688).map probByte

theorem probBytes_head : lef probBytes 4 2 = 1 ∧ lef probBytes 6 2 = 0 ∧ lef probBytes 8 4 = 0 ∧ lef probBytes 13 1 = 0 ∧
    lef probBytes 14 1 = 1 ∧ lef probBytes 16 4 = 1 ∧ lef probBytes 20 4 = 1 := by decide +kernel

theorem probBytes_zero (i : Nat) (h : i < 65536) : sle probBytes (1152 + i) 1 = 0 := by
  have e : lef probBytes (1152 + i) 1 = 0 := by
    rw [lef_one, probBytes, getD_range _ _ _ _ (by omega), probByte_beyond _ (by omega) (by omega)]
    rfl
  simp [sle, e]

theorem loadable_content : (parseProb probBytes).contentOk = true := by
  obtain ⟨h1, h2, h3, h4, h5, _, _⟩ := probBytes_head
  apply contentOk_of_zero
  · intro x hx
    simp only [parseProb, h1, h2, h3, anlSections, up64] at hx
    obtain ⟨i, hi, rfl⟩ := List.mem_map.1 hx
    exact probBytes_zero i (by simpa using hi)
  · simp [parseProb, h3]
  · simp [parseProb, h5]
  · simp [parseProb, h4, readPeers]

theorem loadable_read (off n : Nat) (r : Rec) (t : State) (ht : t.trec 7 = some r) (hp : r.pool = true) (hu : r.units = [0, 1])
    (hm : t.mem = loadable.mem) (part : Nat) : ∃ u q, t.recRead 7 false .default part true off n =
      ((List.range n).map (fun i => probByte (off + i)), false, u) ∧ u.trec 7 = some q ∧ q.pool = true ∧ q.units = [0, 1] ∧
      u.mem = loadable.mem ∧ u.regs = t.regs := by
  obtain ⟨u, q, h, h1, h2, h3, h4, h5⟩ := t.recRd_pool 7 .default part true (n / 64 + 2) off n r ht hp (by rw [hm]; rfl) (by omega)
  refine ⟨u, q, ?_, h1, h2, by rw [h3, hu], by rw [h4, hm], h5⟩
  rw [State.recRead, h, hu, hm]
  rfl

theorem anlLoad_inr {s u1 u2 u3 : State} {c : Fin 32} {h pre : List Byte} (e0 : bit (s.reg pCHK 0x100) 2 = false)
    (e1 : s.anlRec c false = some (7, 0x20000, true))
    (e2 : s.anlRec c true = some (8, 0x20000, true)) (r1 : s.recRead 7 false .default (s.anlPart c) true 0 64 = (h, false, u1))
    (r2 : u1.recRead 7 false .default (s.anlPart c) true 0 66688 = (pre, false, u2))
    (r3 : u2.recRead 7 false .default (s.anlPart c) true 66688 0 = ([], false, u3)) (hh : anlHeaderOk h = true)
    (g1 : lef h 4 2 = 1) (g2 : lef h 6 2 = 0) (g3 : lef h 13 1 = 0) (g4 : lef h 8 4 = 0) (hc : fld (u1.anlCfg c) 8 9 = 1)
    (hl : (parseProb pre).contentOk = true) (hr : (parseProb pre).resultLen = 128) :
    ∃ p sp u, s.anlLoad c = (.inr (p, sp), u) := by
  have hs : anlSections 1 0 0 = (576, 1088, 1152, 66688, 66688) := by decide +kernel
  have hp : peersLen pre 66688 0 = 0 := rfl
  have e3 : s.anlSplit c = (false, s) := by simp [State.anlSplit, e0]
  simp only [State.anlLoad, e3]
  unfold State.anlCheck
  rw [e1, e2]
  simp only [r1, hh, g1, g2, g3, g4, hs, hc, Nat.mul_zero, Nat.add_zero, r2, hp, Nat.sub_self, r3, List.append_nil, hl, hr]
  simp

theorem loadable_resultLen : (parseProb probBytes).resultLen = 128 := by
  obtain ⟨h1, h2, h3, h4, h5, h6, h7⟩ := probBytes_head
  have k1 : (parseProb probBytes).blocks = 1 := by simp only [parseProb]; exact h1
  have k2 : (parseProb probBytes).ghosts = 0 := by simp only [parseProb]; exact h2
  have k3 : (parseProb probBytes).peers = [] := by simp only [parseProb, h4, readPeers]
  simp [Prob.resultLen, k1, k2, k3, up64]

theorem loadable_header : let h := (List.range 64).map (fun i => probByte (0 + i))
    anlHeaderOk h = true ∧ lef h 4 2 = 1 ∧ lef h 6 2 = 0 ∧ lef h 13 1 = 0 ∧ lef h 8 4 = 0 := by decide +kernel

theorem loadable_channel : loadable.domOn dANL = true ∧ (loadable.anlCh 0).state = .loading ∧
    loadable.anlRec 0 false = some (7, 0x20000, true) ∧ loadable.anlRec 0 true = some (8, 0x20000, true) ∧
    fld (loadable.anlCfg 0) 8 9 = 1 := by decide +kernel

theorem test_wit_Annealer_load : loadable.domOn dANL = true ∧ (loadable.anlCh 0).state = .loading ∧
    ∃ p sp u, loadable.anlLoad 0 = (.inr (p, sp), u) := by
  obtain ⟨k1, k2, k3, k4, k5⟩ := loadable_channel
  obtain ⟨hh, g1, g2, g3, g4⟩ := loadable_header
  refine ⟨k1, k2, ?_⟩
  obtain ⟨u1, q1, r1, a1, b1, c1, d1, f1⟩ := loadable_read 0 64 _ loadable rfl rfl rfl rfl (loadable.anlPart 0)
  obtain ⟨u2, q2, r2, a2, b2, c2, d2, f2⟩ := loadable_read 0 66688 q1 u1 a1 b1 c1 d1 (loadable.anlPart 0)
  obtain ⟨u3, q3, r3, a3, b3, c3, d3, f3⟩ := loadable_read 66688 0 q2 u2 a2 b2 c2 d2 (loadable.anlPart 0)
  have hb : (List.range 66688).map (fun i => probByte (0 + i)) = probBytes := by
    unfold probBytes
    exact congrArg (fun f => (List.range 66688).map f) (funext fun i => congrArg probByte (Nat.zero_add i))
  rw [hb] at r2
  have hc : fld (u1.anlCfg 0) 8 9 = 1 := by
    have : u1.anlCfg 0 = loadable.anlCfg 0 := by unfold State.anlCfg State.reg; rw [f1]
    rw [this]; exact k5
  exact anlLoad_inr (by decide +kernel) k3 k4 r1 r2 r3 hh g1 g2 g3 g4 hc loadable_content loadable_resultLen

/-! ### Hypotheses that are met: weights -/

/-- Model slot 2 holds model 9 as `d`; WPB is ON and enabled, and the source is chip `src`. -/
def weights (src : Nat) (d : Mdl) : State :=
  let s := fabOn (en pWPB (on [dWPB]))
  let s := reg pWPB 0x240 0x80000009 (reg pWPB 0x258 0x310 (reg pWPB 0x25C 1 (reg pWPB 0x108 (BitVec.ofNat 32 src) s)))
  { s with wpb := { s.wpb with mdls := [(2, d)] } }

/-- A manifest of version 5: one tensor, layer 0 index 0, of one chunk of 3 bytes, "abc"; key 0, R the identity and S 0. -/
def manifest1 : List Byte :=
  leBytes 4 0x4D465748 ++ leBytes 4 1 ++ leBytes 2 9 ++ List.replicate 6 0 ++ leBytes 8 5 ++ leBytes 4 1 ++ leBytes 4 1
    ++ leBytes 8 3 ++ List.replicate 24 0
    ++ (leBytes 8 0 ++ leBytes 4 0 ++ leBytes 4 1 ++ leBytes 8 3 ++ List.replicate 8 0)
    ++ beBytes 32 0xBA7816BF8F01CFEA414140DE5DAE2223B00361A396177A9CB410FF61F20015AD
    ++ (leBytes 32 1 ++ List.replicate 32 0)

/-- A message of WPB's for model 9 and a version. -/
def wpbMsg (kind : Byte) (flags idx len ver : Nat) (payload : List Byte := []) : Message :=
  msg kind (leBytes 2 9 ++ leBytes 2 flags ++ leBytes 4 idx ++ leBytes 4 len ++ leBytes 8 ver) payload

/-- What such a message finds: it is taken for slot 2. -/
def takesW (s : State) (m : Message) : Bool :=
  s.domOn dWPB && s.newTo m && s.pgEn pWPB && (s.slotOfModel (hdr m 0x24 2) == some 2)

theorem test_wit_WeightPublication_commands :
    let idle (s : State) : Bool := s.admits .host pWPB 0x800 && s.pgEn pWPB && s.wpb.publishing.isNone && s.wpb.asked.isNone
    (let s := weights 7 {}
     idle s = true ∧ s.myAddr ≠ fld (s.reg pWPB 0x108) 0 12) ∧
    (let s := weights 0 {}
     let u : State := { s with wpb := { s.wpb with publishing := some 2 } }
     u.wpb.publishing ≠ none ∧ u.wpb.asked = none ∧ u.pgEn pWPB = true ∧ u.ownMcWaits = false ∧ s.wpb.publishing = none) ∧
    (let s := reg pWPB 0x80C 192 (reg pWPB 0x818 1 (weights 0 { stages := [(0, 3, 1)] }))
     idle s = true ∧ s.myAddr = fld (s.reg pWPB 0x108) 0 12 ∧ s.mdlValid 2 = true ∧ (s.wpbArg 2).toNat ≤ s.mfstMax 2 ∧
      (s.wpbArg 2).toNat = 192 ∧ (s.wpbArg 5).toNat = 1 ∧ slice manifest1 0 192 = manifest1 ∧ 0 < mfChunks manifest1 ∧
      ((mfTensorOf manifest1 0).bind (fun t => (s.mdl 2).treeOf t.layer)).isSome = true) ∧
    (let s := reg pWPB 0x804 5 (weights 0 { pubs := [{ version := 5, list := [] }], a := { state := .building } })
     idle s = true ∧ (∃ p ∈ (s.mdl 2).pubs, p.version = s.reg64 pWPB 0x804)) := by decide +kernel

theorem test_wit_WeightPublication_messages :
    (let m : Message := { wpbMsg 0x23 0 0 0 5 (leBytes 4 0) with poison := [] }
     takesW (weights 0 {}) m = true ∧ (∀ p ∈ ((weights 0 {}).mdl 2).pubs, p.version ≠ 5) ∧
      (let s := weights 0 { pubs := [{ version := 5, list := [(0, 64)] }] }
       takesW s m = true ∧ (((s.mdl 2).pubs.find? (fun p => p.version == BitVec.ofNat 64 (hdr m 0x30 8))).map
          (fun p => (p.list.find? (fun e => e.1 == lef m.payload 0 4)).isSome)) = some true ∧ m.payload.length = 4 ∧
        chunkBytes [{ index := 0, data := .bytes [1, 2] }] (lef m.payload 0 4) = some [1, 2])) ∧
    (let s := weights 0 { pipe := [0, 7] }
     s.isFirst 2 = true ∧ takesW s (wpbMsg 0x24 0 0 0 5) = true ∧ (5 : Word64).toNat ∉ (s.mdl 2).gone ∧
      hdr (wpbMsg 0x25 2 0 0 0) 0x26 2 / 2 % 4 = 1 ∧ hdr (wpbMsg 0x25 4 0 0 0) 0x26 2 / 2 % 4 = 2) := by decide +kernel

/-- The slot builds version 5 of `manifest1` in bank A, in record 7. -/
def building (k : Bank) (d : Mdl := {}) : State :=
  let r7 : Rec := { rec1 with size := 3, banked := true }
  let s := weights 7 { d with tmap := [{ layer := 0, index := 0, recN := 7 }]
                              a := { k with version := 5, mfst := some { buf := 0, bytes := manifest1 } } }
  { s with tier := { s.tier with recs := [(7, some r7)], qpool := [((0 * 16 + 3) * 3 + 2, 16)] } }

theorem test_wit_WeightBuildsAndRepairs_manifest :
    (let s := weights 7 {}
     let m := wpbMsg 0x20 0 0 192 5 [1, 2]
     takesW s m = true ∧ hdr m 0x28 4 = 0 ∧ s.mfstMax 2 < hdr (wpbMsg 0x20 0 0 0x100001 5) 0x2C 4 ∧ hdr m 0x2C 4 ≤ s.mfstMax 2 ∧
      (({ s.mdl 2 with arriving := none } : Mdl).takeBuffer).isSome = true ∧ m.payload ≠ [] ∧
      m.payload.length < hdr m 0x2C 4 ∧ (s.mdl 2).bankFor 5 = none ∧ (s.mdl 2).underCheck 5 = false) := by decide +kernel

theorem test_wit_WeightBuildsAndRepairs_chunk :
    let s := building { state := .building }
    let m := wpbMsg 0x21 0 0 0 5 [0x61, 0x62, 0x63]
    takesW s m = true ∧ (s.mdl 2).bankFor 5 = some false ∧ ((s.mdl 2).bank false).mfst = some { buf := 0, bytes := manifest1 } ∧
    ((s.mdl 2).chunkAt manifest1 (hdr m 0x28 4)).isSome = true ∧ hdr m 0x28 4 ∉ ((s.mdl 2).bank false).got ∧
    ((s.mdl 2).staged.filter (fun g => !g.copy)).length < fld (s.mdlReg 2 0x18) 0 5 ∧
    (s.mdl 2).missing ((s.mdl 2).bank false) ≠ [] ∧ ((s.mdl 2).bank false).state ≠ .repair ∧
    ¬ s.qpool (s.mdlOwner 2) (s.stageCluster 2) 2 < s.poolUsed (s.mdlOwner 2) (s.stageCluster 2) 2 + 16 ∧
    (s.unitsUsed true).length + 16 ≤ (s.place true (s.stageCluster 2)).2 := by decide +kernel

theorem test_wit_WeightBuildsAndRepairs_claim :
    let s := building { state := .building }
    (s.claimPool (s.mdlOwner 2) (s.stageCluster 2) 2 16).isSome = true := by
  obtain ⟨_, _, _, _, _, _, _, _, h1, h2⟩ := test_wit_WeightBuildsAndRepairs_chunk
  have h := State.allocUnits_isSome true ((building { state := .building }).stageCluster 2)
    ((building { state := .building }).mdlOwner 2) 16 [] (building { state := .building }) (by simpa using h2)
  simp only [State.claimPool, if_neg h1]
  cases e : (building { state := .building }).allocUnits true ((building { state := .building }).stageCluster 2)
    ((building { state := .building }).mdlOwner 2) 16 [] with
  | none => rw [e] at h; cases h
  | some p => rfl

/-- The slot has the manifest under check; the public key of slot 0 is the identity. -/
def checking (d : Mdl) : State :=
  let s := building { state := .free } { d with checking := [{ buf := 0, bytes := manifest1 }], pipe := [7, 0] }
  { s with nv := { s.nv with fuses := [(48, 1)] } }

theorem test_wit_WeightBuildsAndRepairs_signature :
    let good (s : State) : Bool :=
      edVerify (s.pubKey (mfKey manifest1)) (manifest1.take (manifest1.length - 64)) (mfSig manifest1)
    good (checking {}) = true ∧
    good { checking {} with nv := { (checking {}).nv with fuses := [(48, 2)] } } = false := by decide +kernel

theorem test_wit_WeightBuildsAndRepairs_opens :
    let s := checking {}
    s.domOn dWPB = true ∧ (s.mdl 2).checking = { buf := 0, bytes := manifest1 } :: [] ∧ tableOk manifest1 = true ∧
    s.shapeOk 2 manifest1 = true ∧ s.isFirst 2 = false ∧
    (∀ h ∈ (s.mdl 2).heldMfsts, mfVersion h.bytes ≠ mfVersion manifest1) ∧
    (s.reg64 pWPB (0x210 + 0x20 * 2)).toNat ≤ (mfVersion manifest1).toNat ∧
    (s.mdl 2).top < (mfVersion manifest1).toNat ∧ (s.mdl 2).inState .free = some false ∧
    (s.mdl 2).needed manifest1 = [0] ∧ ({ s.mdl 2 with tmap := [] } : Mdl).needed manifest1 = [] := by decide +kernel

theorem test_wit_WeightBuildsAndRepairs_hash : ∀ b ∈ [0x63, 0x64],
    let g : Staged := { version := 5, idx := 0, bytes := [0x61, 0x62, BitVec.ofNat 8 b], poison := false, units := [], copy := false }
    let s := building { state := .building } { staged := [g] }
    (s.mdl 2).staged.find? (fun g => g.idx == 0 && !(s.mdl 2).underCheck g.version) = some g ∧ g.copy = false ∧
    (s.mdl 2).bankFor g.version = some false ∧ ((s.mdl 2).bank false).state = .building ∧
    (s.mdl 2).chunkAt manifest1 g.idx = some (7, 0, 3) ∧ g.idx ∉ ((s.mdl 2).bank false).got ∧ g.bytes.length = 3 ∧
    decide (sha256 g.bytes = mfChunkDigest manifest1 g.idx) = decide (b = 0x63) := by decide +kernel

theorem test_wit_WeightBuildsAndRepairs_timers :
    let due (s : State) (b : Bool) : Bool :=
      let d := s.mdl 2
      d.takes b && !(d.missing (d.bank b)).isEmpty && s.msPassed (d.bank b).since
        (if (d.bank b).asked then fld (s.reg pWPB 0x104) 0 16 else fld (s.reg pWPB 0x104) 16 16)
    (let s := building { state := .building }
     let u : State := { s with pw := { s.pw with aonTime := 0x7FFFFFFFFFF } }
     u.domOn dWPB = true ∧ due u false = true ∧ due u true = false ∧ due (weights 7 {}) false = false ∧
      due (weights 7 {}) true = false) ∧
    (let s := building {} { pend := some { buf := 1, bytes := manifest1 } }
     (s.mdl 2).pend = some { buf := 1, bytes := manifest1 } ∧ (s.mdl 2).inState .free = some false ∧
      (s.mdl 2).needed manifest1 ≠ []) ∧
    (let s := building { state := .live } { bad := [7] }
     let u : State := { s with pw := { s.pw with aonTime := 0x7FFFFFFFFFF } }
     (u.mdl 2).inState .live = some false ∧ (u.mdl 2).bad ≠ [] ∧ (u.mdl 2).offline = false ∧
      ((u.mdl 2).bank true).state = .free ∧ ((u.mdl 2).bank false).mfst = some { buf := 0, bytes := manifest1 } ∧
      (u.reg pWPB 0x100).toNat ≤ (u.pw.aonTime - (u.mdl 2).poisonAt).toNat ∧
      (s.pw.aonTime - (s.mdl 2).poisonAt).toNat < (s.reg pWPB 0x100).toNat) := by decide +kernel

/-! ### Hypotheses that are met: episodes, the annealer, learner jobs -/

/-- EPS is ON and enabled; group 3 is VALID, home here, of context 0, model slot 2, 4 slots; its pipe is chips 0 and 7; record 7
is tensor 5 of context 0. -/
def eps (e : Eps := {}) (s : State := run) : State :=
  let s := mapped (fabOn (en pEPS (on [dEPS, 768] s)))
  let s : State := { s with wpb := { s.wpb with mdls := [(2, { pipe := [0, 7], reports := [(5, [0, 7])] })] }, eps := e }
  let s : State := s.setBreg 3 pEPS 0x200 0x80021040
  reg pWPB 0x240 0x80000009 (reg (pCTX 0) 0x100 0x40 s)

/-- Episode 4 of group 3, in slot 6, so. -/
def epi (st : EpState) (causes : BitVec 3 := 0) (husks : List (BitVec 12) := []) : Episode :=
  { id := 77, epoch := 1, ctx := 0, group := 3, state := st, causes := causes, fin := 0, slot := some 6, tensor := 5, off := 0
    len := 4, maxLen := 16, last := 0, summary := false, pauseAsk := false, recFrom := 0, recs := 0, husks := husks }

/-- The chip's only episode, so. -/
def with1 (e : Episode) : State :=
  reg pEPS 0x804 77 (reg pEPS 0x808 1 (eps { eps := [(4, some e)], groups := [(3, { slots := [(6, some 4)] })] }))

theorem test_wit_EpisodeCommands_start :
    let s := reg pEPS 0x804 0x300 (reg pEPS 0x808 5 (reg pEPS 0x814 4 (reg pEPS 0x818 16 (eps))))
    s.admits .host pEPS 0x800 = true ∧ s.pgEn pEPS = true ∧ s.freeIndex = some 0 ∧ fld (s.epsArg 0) 0 6 = 0 ∧
    fld (s.epsArg 0) 8 7 = 3 ∧ s.gOn 3 = true ∧ s.gHome 3 = true ∧ (s.gCtx 3).val = 0 ∧ s.ctxValid 0 = true ∧
    s.tensor 0 (fld (s.epsArg 1) 0 12) = some (7, rec1, true) ∧ 0 + 16 * (s.epsArg 5).toNat ≤ rec1.size ∧
    1 ≤ (s.epsArg 4).toNat ∧ (s.epsArg 4).toNat ≤ (s.epsArg 5).toNat ∧ s.tensor 0 6 = none ∧ s.argEpisode = none := by
  decide +kernel

theorem test_wit_EpisodeCommands_live :
    (∀ st ∈ [.active, .ready, .paused], ∀ c ∈ [0, 1], ((with1 (epi st (BitVec.ofNat 3 c))).argEpisode).map (fun e => e.1) = some 4 ∧
      ((with1 (epi st (BitVec.ofNat 3 c))).episode 4).isSome = true) ∧
    (let s := with1 (epi .paused 1)
     s.argEpisode = some (4, epi .paused 1) ∧ s.episode 4 = some (epi .paused 1) ∧ s.admits .host pEPS 0x800 = true ∧
      s.pgEn pEPS = true ∧ bit (epi .paused 1).causes 0 = true ∧ (epi .paused 1).len + (s.epsArg 2).toNat ≤ 16 ∧
      s.gKit 3 = false ∧ bit (epi .paused 2).causes 0 = false ∧ (epi .ready).recs = 0 ∧
      (s.setBreg 3 pEPS 0x220 0x10000).gKit 3 = true) := by decide +kernel

theorem test_wit_EpisodeCommands_registers :
    (State.reset.admits .host pEPS 0x10C = false ∧ (eps).admits .host pEPS 0x10C = true ∧ (eps).hwTmr 0x82 = none ∧
      (eps).freeTmr = some 0) ∧
    (let s := eps
     let full : State := { s with pw := { s.pw with claims := (List.range 8).map (fun n => (n, some .host)) } }
     full.hwTmr 0x82 = none ∧ full.freeTmr = none) ∧
    (let s := eps
     (reg pAON 0xA00 0x82 { s with pw := { s.pw with claims := [(0, some .hw)] } } : State).hwTmr 0x82 = some 0) ∧
    (let s := reg pEPS 0x830 4 (eps)
     let g := ((((s.setBreg 4 pEPS 0x20C 1).setBreg 4 pEPS 0x210 8).setBreg 4 pEPS 0x204 5).setBreg 4 pEPS 0x208 5)
     s.admits .host pEPS 0x200 = true ∧ s.gSel = 4 ∧ (s.egroup 4).spec = none ∧ s.gOn 4 = false ∧
      s.groupFails 4 0x80009040 = some stBOUND ∧ g.groupFails 4 0x80009040 = none ∧ fld (0x80009040 : Word32) 7 4 = 0 ∧
      bit (0x80009040 : Word32) 31 = true ∧ bit (0x9040 : Word32) 31 = false) ∧
    (let s := reg64 pKIT 0x800 640 (en pKIT)
     s.admits .host pKIT (0x808 + 0x20 * 0 + 0) = true ∧ (s.reg64 pKIT 0x808).toNat ≤ (putWord (s.reg64 pKIT 0x808) false 64).toNat ∧
      (putWord (s.reg64 pKIT 0x808) false 64).toNat ≤ (s.reg64 pKIT 0x800).toNat ∧
      (s.reg64 pKIT 0x800).toNat < (putWord (s.reg64 pKIT 0x808) false 641).toNat) := by decide +kernel

/-- A message of EPS's for group 3: step and version. -/
def epsMsg (kind : Byte) (num ver : Nat) (payload : List Byte := []) : Message :=
  msg kind (leBytes 2 3 ++ leBytes 2 0 ++ leBytes 8 num ++ leBytes 8 ver) payload

theorem test_wit_EpisodeSteps_messages :
    (let s := eps {}
     (∀ k ∈ [0x50, 0x52, 0x53, 0x51, 0x54],
        let m := epsMsg (BitVec.ofNat 8 k) 1 5
        s.domOn dEPS = true ∧ s.newTo m = true ∧ m.mc = false ∧ s.pgEn pEPS = true ∧ s.gOn (hdr m 0x24 2 % 128) = true ∧
        m.mseq.toNat ≤ 1024 ∧ m.mseq.toNat = 1 ∧ m.kind = BitVec.ofNat 8 k) ∧
      (let m : Message := { epsMsg 0x50 1 5 with mseq := 2 }
       s.newTo m = true ∧ (s.windowOf m).2 = { boot := m.bootId, h := 0, outs := [], seen := [] })) ∧
    (let s := eps { eps := [(4, some (epi .ready))], lastOpen := 2 }
     s.domOn dEPS = true ∧ s.pgEn pEPS = true ∧ s.openTurn 3 = true ∧ s.assignable (s.groupMdl 3) = some 5 ∧
      s.openTurn 4 = false) := by decide +kernel

/-- A step of group 3 whose slot 6 is in use. -/
def step1 : EStep :=
  { group := 3, num := 1, version := 5, block := List.replicate 0x100 0 ++ [1], home := 0, emits := [], poison := false }

theorem test_wit_EpisodeSteps_step :
    (let s := reg pEPS 0x180 0x85 (eps { ctxs := [(0, { queue := [step1] })] } (run {} { begun := true }))
     s.domOn dEPS = true ∧ s.epsReady 0 = true ∧ (s.bar 0 (s.epsBar 0 % 64)).ended = none ∧ (eps).epsReady 0 = false) ∧
    (let q : EmitEntry := { ctx := 0, slot := 6, token := 9, draft := 0, last := false, poison := false }
     let s := eps { ctxs := [(0, { cur := some step1 })] } (run {} {} { emitq := [q] })
     s.domOn dEPS = true ∧ (s.core 0).emitq = q :: [] ∧ (s.core 0).emitWait = none ∧ (s.epsCtx 0).cur = some step1 ∧
      step1.hasSlot 6 = true ∧ step1.emits = [] ∧ (eps).epsCtx 0 = {}) ∧
    (∀ d ∈ [[], [(0 : BitVec 12)]], let m := epsMsg 0x51 1 5
      let s := eps { opened := [3], groups := [(3, { flight := some (1, 5), dones := d })] }
      (s.egroup 3).flight = some (BitVec.ofNat 64 (hdr m 0x28 8), 5) ∧ s.eps.opened = [3] ∧
      decide (∃ c ∈ s.gPipe 3, c ≠ m.src ∧ c ∉ (s.egroup 3).dones) = decide (d = []) ∧
      decide (∀ c ∈ s.gPipe 3, c = m.src ∨ c ∈ (s.egroup 3).dones) = decide (d ≠ [])) := by decide +kernel

theorem test_wit_EpisodeSteps_husks :
    (let h : Husk := { home := 7, slot := 6, index := 4 }
     let s := eps { groups := [(3, { husks := [h] })] }
     s.domOn dEPS = true ∧ (s.egroup 3).husks.find? (fun h => h.slot == 6) = some h ∧ h.home.toNat ≠ s.myAddr) ∧
    (∀ n ∈ [0, 1], let hs : List (BitVec 12) := if n = 0 then [7] else [7, 9]
      let m := epsMsg 0x54 1 5 (leBytes 2 6)
      let s := with1 (epi .pausing 0 hs)
      ((7 : BitVec 12), (6 : Fin 256)) ∉ (s.egroup 3).gaveUp ∧ sget none (s.egroup 3).slots 6 = some 4 ∧
      Fin.ofNat 256 (lef m.payload 0 2) = (6 : Fin 256) ∧ s.episode 4 = some (epi .pausing 0 hs) ∧
      decide (∃ c ∈ hs, c ≠ m.src) = decide (n = 1)) := by decide +kernel

/-- A record of episode 4, so. -/
def krec (sent full : Bool) : KRec := { num := 8, ep := 4, first := 0, count := 2, reward := 0, final := false, sent := sent, full := full }

theorem test_wit_EpisodeSteps_kitty :
    (∀ f ∈ [true, false],
      let s := (eps { eps := [(4, some (epi .ready))], recq := [krec f f] }).setBreg 3 pEPS 0x220 0x10007
      s.domOn dEPS = true ∧ s.episode (krec f f).ep = some (epi .ready) ∧ fld (s.breg 3 pEPS 0x220) 0 12 ≠ s.myAddr ∧
      (s.eps.recq.filter (fun r => r.sent)).length < 16 ∧
      (if f then s.eps.recq.find? (fun r => r.num == 8 && r.full) = some (krec f f)
       else s.eps.recq.find? (fun r => !r.sent) = some (krec f f))) ∧
    (∀ h ∈ [0, 0x400000], let m := msg 0x30 [0] (List.replicate 64 0)
      let s := reg64 pKIT 0x800 (BitVec.ofNat 64 h) (reg pKIT 0x100 0x80000007 (en pKIT (mapped fabOn)))
      s.newTo m = true ∧ m.mc = false ∧ s.pgEn pKIT = true ∧ 64 ≤ m.payload.length ∧ bit (s.reg pKIT 0x100) 31 = true ∧
      s.trec (fld (s.reg pKIT 0x100) 0 15) = some rec1 ∧ 0x200000 ≤ rec1.size ∧
      h % rec1.size + m.payload.length ≤ rec1.size ∧
      decide (m.payload.length ≤ rec1.size - ((s.reg64 pKIT 0x800).toNat - (s.reg64 pKIT 0x808).toNat)) = decide (h = 0)) := by
  decide +kernel

/-- Annealer channel 0 so, the host's and VALID; ANL is ON and enabled. -/
def anl (a : AnlCh) : State :=
  let s := fabOn (reg pANL 0x200 0xC0 (en pANL (on [dANL])))
  { s with anl := { s.anl with chs := [(0, a)] } }

/-- A problem of one block and one sweep, with a peer. -/
def prob1 : Prob :=
  { blocks := 1, ghosts := 1, part := 0, curve := 1, sweeps := 1, k := 1, beta0 := 0, ratio := 0, seed := 0, runId := 6
    points := [], fields := [], dense := [], sparse := [], peers := [{ chip := 7, part := 2, exports := [], imports := [0] }] }

theorem test_wit_Annealer :
    (∀ st ∈ [.idle, .running], ∀ w ∈ [true, false], let s := anl { state := st, waiting := w, trig := 1 }
      s.domOn dANL = true ∧ 0 < (s.anlCh 0).trig ∧ (s.anlCh 0).state = st ∧ (s.anlCh 0).waiting = w ∧
      s.admits .host pANL 0x800 = true ∧ bit (0x80010000 : Word32) 31 = true ∧ s.pgEn pANL = true ∧
      anlChOf 0x80010000 = 0 ∧ bit (s.anlCfg 0) 7 = true ∧ s.anlHost 0 = true) ∧
    ((anl {}).anlCh 0).trig = 0 ∧
    (let s := anl {}
     let u : State := { s with anl := { s.anl with testPending := true } }
     s.anl.testPending = false ∧ s.anl.testRunning = false ∧ u.anl.testPending = true ∧
      ∀ k, k < 32 → (u.anlCh k).state ≠ .running) ∧
    (let s := anl {}
     s.admits .host pANL (0x200 + 0x10 * 0) = true ∧ bit (0x180 : Word32) 7 = true ∧
      (((List.range 32).filter (fun k => k != 0 && bit (s.anlCfg k) 7)).map (fun k => fld (s.anlCfg k) 8 9)).sum + 1 ≤ 256 ∧
      256 < fld (0x10180 : Word32) 8 9) ∧
    (let s := anl { state := .loading }
     (s.anlCh 0).state = .loading ∧ s.anlRec 0 false = none) ∧
    (let s := anl { state := .running, prob := some prob1 }
     s.anlTurn 0 = true ∧ (s.anlCh 0).prob = some prob1 ∧ ({ prob1 with peers := [] } : Prob).peers = [] ∧
      (anl { state := .finishing, prob := some prob1 }).anlTurn 0 = false ∧
      (let m := msg 0x40 (leBytes 4 6 ++ leBytes 4 2 ++ leBytes 4 0 ++ leBytes 4 1)
       s.newTo m = true ∧ prob1.runId = BitVec.ofNat 32 (hdr m 0x24 4) ∧
        prob1.peers.findIdx? (fun q => q.chip == m.src && q.part == BitVec.ofNat 8 (hdr m 0x28 1)) = some 0 ∧
        prob1.peers[0]?.map (fun q => q.imports.length) = some (hdr m 0x30 4) ∧
        (∀ d : Fin 32, d ≠ 0 → (s.anlCh d).prob = none) ∧ BitVec.ofNat 32 (hdr (msg 0x40 []) 0x24 4) ≠ prob1.runId)) := by
  decide +kernel

/-- Learner job 1 of context 0, VALID with M 4, in command mode or not, so; record 7 is its ring. -/
def trn (cfg : Word32) (t : TrnJob) (s : State := run {} { begun := true }) : State :=
  let s := mapped (reg pTRN 0x140 cfg (reg pTRN 0x170 0x80007 (en pTRN s)))
  { s with trn := [(1, t)] }

theorem test_wit_LearnerJobs_enable :
    (let s := en pTRN (mapped (run))
     let bad : Word32 := 0x80000000
     let good : Word32 := 0x80000400
     let u := reg pTRN 0x144 0x50005 s
     s.admits .host pTRN (0x100 + 0x40 * 1) = true ∧ bit bad 31 = true ∧ bit (s.trnCfg 1) 31 = false ∧
      s.jobFails 1 bad [] = some stDESC_INVALID ∧ fld good 17 6 = 0 ∧ u.jobFails 1 good [] = none ∧
      u.admits .host pTRN (0x100 + 0x40 * 1) = true) := by decide +kernel

theorem test_wit_LearnerJobs_phases :
    (let s := trn 0x80000400 { cur := some (.fwd, 0) }
     let tj := s.trnJob 1
     (bit (s.trnCfg 1) 31 && (s.ctx (s.trnCtx 1)).begun && decide ((s.ctx (s.trnCtx 1)).state ≠ .ending) && !tj.haltAsk
       && !tj.halted && !tj.arrived) = true ∧ s.trnCommand 1 = false ∧ nextPhase (s.trnM 1) tj.cur = (.fwd, 1) ∧
      (s.bar 0 (s.trnBar 1)).ended = none ∧ (State.reset.trnCfg 1).getLsbD 31 = false) ∧
    (∀ op ∈ [1, 2, 3, 4, 5, 9],
      let s := trn 0x80000440 { entries := [List.replicate 128 0] }
      let s := reg pTRN (trnOp 1 0x18) 1 { s with mem := { s.mem with bytes := [(3 * 2097152, BitVec.ofNat 8 op)] } }
      bit (s.trnCfg 1) 31 = true ∧ s.trnCommand 1 = true ∧ (s.trnJob 1).haltAsk = false ∧ (s.trnJob 1).halted = false ∧
      fld (s.reg pTRN (trnOp 1 0x18)) 0 16 ≠ fld (s.reg pTRN (trnOp 1 0x1C)) 0 16 ∧ lef (s.trnEntry 1).1 0 1 = op ∧
      s.entryBad 1 (s.trnEntry 1).1 = (if op = 9 then some stDESC_INVALID else none) ∧ (s.trnJob 1).next = none ∧
      (s.trnJob 1).kitTaken = false ∧ (s.trnJob 1).cur = none ∧ (s.trnJob 1).ckpt = false ∧ (s.trnJob 1).arrived = false ∧
      s.admits .host pTRN (trnOp 1 0x18) = true) ∧
    (let s := trn 0x80000400 { buckets := [(2, { report := some (stOK, 3) }), (3, { report := some (stSTALLED, 0) })], ckpt := true }
     ((s.trnJob 1).bucket 0).report = none ∧ ((s.trnJob 1).bucket 2).report = some (stOK, 3) ∧
      ((s.trnJob 1).bucket 3).report = some (stSTALLED, 0) ∧ stSTALLED ≠ stOK ∧ stSTALLED ≠ stLATE ∧
      (s.trnJob 1).ckpt = true ∧ (s.trnJob 1).haltAsk = false ∧ (State.reset.trnJob 1).ckpt = false) := by decide +kernel

theorem test_wit_LearnerJobs_commands :
    (let s := trn 0x80000400 {}
     s.admits .host pTRN 0xA00 = true ∧ bit (0x80000100 : Word32) 31 = true ∧ s.pgEn pTRN = true ∧ trnJobOf 0x80000100 = 1 ∧
      bit (s.trnCfg 1) 31 = true ∧ (s.trnJob 1).cur = none ∧ (s.trnJob 1).ckpt = false ∧ (s.trnJob 1).arrived = false ∧
      (s.trnJob 1).halted = false) ∧
    ((trn 0x80000400 { arrived := true }).trnJob 1).arrived = true ∧
    ((trn 0x80000400 { halted := true }).trnJob 1).halted = true := by decide +kernel

/-- A checkpoint of no tensors at the head of record 7. -/
def checkpointed : State :=
  let s := reg pTRN 0x164 0x70000 (trn 0x80000400 { halted := true })
  let b := 3 * 2097152
  let d := leNat (sha256 (leBytes 4 0x54504B43 ++ leBytes 2 0 ++ leBytes 2 0 ++ leBytes 8 6 ++ List.replicate 48 0))
  { s with mem := { s.mem with bytes := [(b, 0x43), (b + 1, 0x4B), (b + 2, 0x50), (b + 3, 0x54), (b + 8, 6)]
      ++ (List.range 32).filterMap (fun i => let v : Byte := BitVec.ofNat 8 (d / 256 ^ i); if v = 0 then none else some (b + 64 + i, v)) } }

theorem test_wit_LearnerJobs_restore :
    (checkpointed.trnJob 1).halted = true ∧ checkpointed.trec (checkpointed.ckptRec 1) = some rec1 ∧
    checkpointed.ckptList 1 = [] ∧ 0x80 + ckptBytes (checkpointed.ckptList 1) ≤ rec1.size ∧
    (let h := checkpointed.recRead (checkpointed.ckptRec 1) false .stream checkpointed.sysPart false 0 128
     let data := h.2.2.recRead (checkpointed.ckptRec 1) false .stream checkpointed.sysPart false 0x80 0
     lef h.1 0 4 = 0x54504B43 ∧ lef h.1 5 1 = 0 ∧ lef h.1 0x10 8 = 0 ∧ data.1 = [] ∧
      sha256 (h.1.take 64 ++ data.1) = slice h.1 0x40 32) := by decide +kernel

/-! ### Hypotheses that are met: sharing, receipts, errors, the host -/

/-- Bytes stored in device memory from an address. -/
def store (a : Nat) (bs : List Byte) (s : State) : State := { s with mem := { s.mem with bytes := ssets 0 s.mem.bytes a bs } }

/-- The smallest image: a header of 64 bytes without entries and a signature, R the identity and S 0. -/
def image1 : List Byte :=
  leBytes 4 0x4A494D47 ++ leBytes 4 1 ++ List.replicate 28 0 ++ leBytes 4 128 ++ List.replicate 24 0 ++ leBytes 32 1
    ++ List.replicate 32 0

/-- Context 0 is valid, of queue 0, in a state; a LOAD of the image at 0x1000 stands first in queue 0. No way of the hint
cache is allowed to the requester. -/
def loading1 (st : CtxState) (img : List Byte := image1) : State :=
  let s := (List.range 16).foldl (fun s k => reg (pHCC k) 0x100 0 s) State.reset
  let s := store 0x1000 img (reg (pCTX 0) 0x100 0x40 s)
  { s with
    ctxs := [(0, { state := st })]
    ques := [(0, { fetched := [{ cid := 8, op := 1, irq := false, idx := 0, image := 0x1000, desc := [] }] })]
    chk := { s.chk with devkey := some true }
    nv := { s.nv with fuses := [(48, 1)] } }

theorem test_wit_ContextsAndPrograms_load :
    (let s := loading1 .idle
     (s.mayBegin 0 1).map (fun e => e.image) = some 0x1000 ∧ s.queCtx 0 = some 0 ∧ (s.ctx 0).state = .idle ∧
      (s.ctx 0).loaded = false ∧ (loading1 .running).queCtx 0 = some 0 ∧ ((loading1 .running).ctx 0).loaded = true ∧
      ({ s with regs := [] } : State).queCtx 0 = none ∧ (s.mayBegin 1 1).isNone = true) ∧
    (loading1 .idle []).queCtx 0 = some 0 := by decide +kernel

/-- The entry that stands first. -/
def load1 : QEntry := { cid := 8, op := 1, irq := false, idx := 0, image := 0x1000, desc := [] }

theorem test_wit_ContextsAndPrograms_refused :
    (((loading1 .idle []).beginEntry 0 load1).loadImage 0 0 8 0x1000).1 = some stIMAGE_SIG := by decide +kernel

theorem test_wit_ContextsAndPrograms_loaded :
    (((loading1 .idle).beginEntry 0 load1).loadImage 0 0 8 0x1000).1 = none := by decide +kernel

theorem test_wit_ContextsAndPrograms :
    (let s := State.reset
     let u := reg (pCTX 1) 0x100 0x40 State.reset
     s.admits .host (pCTX 0) 0x100 = true ∧ bit (0x40 : Word32) 6 = true ∧ (∀ y, y < 64 → y ≠ 0 → s.ctxValid y = false) ∧
      u.ctxValid 1 = true ∧ fld (u.reg (pCTX 1) 0x100) 8 6 = fld (0x40 : Word32) 8 6 ∧ u.ctxValid 0 = false) ∧
    ((run).admits .mgmt (pCTX 0) 0x804 = true ∧ ((run).ctx 0).loaded = true ∧ (State.reset.ctx 0).loaded = false) ∧
    ((run { halted := true }).endDue 0 = some stOK ∧ (run).endDue 0 = none) ∧
    (let s := run
     let u : State := { s with cores := [], ctxs := [(0, { s.ctx 0 with state := .ready })] }
     u.coresFree 0 = true ∧ u.coresOn 0 = true ∧ (∀ y : CtxId, y ≠ 0 → u.coresFree y = false) ∧ s.coresFree 0 = false) := by
  decide +kernel

/-- Context 0 runs on core 0; context 1, of a priority, is READY for it. -/
def rivals (prio : Nat) (th : Thread := {}) (st : CtxState := .running) : State :=
  let s := run th { quantum := 1 }
  let c : Ctx := { state := .ready, cfg := BitVec.ofNat 32 (prio * 2 ^ 16), place := (s.ctx 0).place }
  { s with ctxs := [(0, { s.ctx 0 with state := st }), (1, c)] }

theorem test_wit_PreemptionLocksAccounts_preempt :
    (let s := rivals 0
     let u : State := { s with pw := { s.pw with aonTime := 0xFFFF } }
     (u.mayPreempt 0 1 && decide ((u.ctx 1).priority = (u.ctx 0).priority) && decide (fld (u.ctx 0).quantum 0 16 ≠ 0)
       && u.usPassed (u.dispatchTime 0) (fld (u.ctx 0).quantum 0 16)) = true ∧ s.mayPreempt 1 0 = false) ∧
    ((rivals 1).mayPreempt 0 1 = true ∧ ((rivals 1).ctx 0).priority < ((rivals 1).ctx 1).priority) ∧
    (∀ w ∈ [.bar 4 2 true none, .lock 4 3 0 true], let s := rivals 1 { wait := some w } .preempting
      (s.core 0).ctx = some 0 ∧ (s.ctx 0).state = .preempting ∧ (s.core 0).th.wait = some w ∧ (s.core 0).parked = false ∧
      (s.core 0).passes = [] ∧ (s.core 0).retrying = 0 ∧ (s.core 0).ungangWait = false ∧ (s.core 0).emitWait = none) ∧
    (∀ w ∈ [none, some (.fabSend 1 7 3 none false)], let s := rivals 1 { wait := w } .preempting
      let u : State := { s with pw := { s.pw with aonTime := 0x7FFFFFFF } }
      (decide ((u.ctx 0).state = .preempting) && !(u.ctx 0).late && u.usPassed (u.ctx 0).preemptAt (fld (u.reg pSCH 0x104) 0 16))
        = true ∧ (u.ctx 0).place.map (fun p => p.core) = [0] ∧ (u.core 0).ctx = some 0 ∧ (u.core 0).parked = false ∧
      (u.core 0).th.halted = false ∧ (u.core 0).th.wait = w) ∧
    (let s := rivals 1 {} .preempting
     let u : State := { s with cores := [(0, { s.core 0 with parked := true })] }
     u.allParked 0 = true ∧ (u.ctx 0).preemptFor = none ∧ s.allParked 0 = false) := by decide +kernel

/-- Lock 3 so, and core 0 waits for it. -/
def locked (l : Lock) (s : State := run { wait := some (.lock 4 3 0 true) }) : State := { en pSCH s with locks := [(3, l)] }

theorem test_wit_PreemptionLocksAccounts_locks :
    (∀ b ∈ [true, false], ∀ lease ∈ [0, 9], let s := locked { broken := b, waiters := [(0, 0, BitVec.ofNat 32 lease)] }
      (s.lock 3).owner = none ∧ (s.lock 3).waiters = (0, 0, BitVec.ofNat 32 lease) :: [] ∧ s.waitLive 0 = true ∧
      (s.core 0).ctx = some 0 ∧ (s.core 0).th.wait = some (.lock 4 3 0 true) ∧ s.freeTmr.isSome = true ∧
      s.leaseOf 0 (BitVec.ofNat 32 lease) ≠ 0 ∧ s.hwTmr 0x80 = none ∧
      ({ s with pw := { s.pw with claims := (List.range 8).map (fun n => (n, some .host)) } } : State).freeTmr = none) ∧
    (let s := locked { owner := some 0 }
     s.admits .host pSCH 0x814 = true ∧ s.pgEn pSCH = true ∧ fld (3 : Word32) 0 8 = 3 ∧ (s.lock 3).owner ≠ none ∧
      (s.lock 4).owner = none) ∧
    (let s := State.reset
     let len := max 1 (fld (s.reg pSCH 0x108) 0 16)
     let u : State := { s with pw := { s.pw with aonTime := 0xFFFF } }
     (s.pw.aonTime - s.chk.winAt).toNat < len ∧ len ≤ (u.pw.aonTime - u.chk.winAt).toNat) := by decide +kernel

/-- Context 0 has a live job, so; CHK_MODE, and the receipts made and acknowledged. -/
def jobbed (mode : Word32) (head tail jptr : Nat) (held : Bool := false) : State :=
  let s := reg64 pCHK 0x810 (BitVec.ofNat 64 head) (reg64 pCHK 0x818 (BitVec.ofNat 64 tail)
    (reg64 pCHK 0x820 (BitVec.ofNat 64 jptr) (reg pCHK 0x100 mode (en pCHK State.reset))))
  { s with chk := { s.chk with jobs := [(0, { live := true, sealHeld := held })] } }

theorem test_wit_Receipts :
    (∀ m ∈ [1, 9], ∀ h ∈ [5, 32768], let s := jobbed (BitVec.ofNat 32 m) h 0 0
      s.admits .host pCHK 0x800 = true ∧ bit (0x80000000 : Word32) 31 = true ∧ s.pgEn pCHK = true ∧
      bit (s.reg pCHK 0x804) 16 = false ∧ (s.job 0).live = true ∧ s.ringLow = decide (h = 32768) ∧ s.strict = decide (m = 9) ∧
      (s.job 1).live = false ∧ s.mem.hcc = [] ∧ (s.job 0).spans.length ≤ 64 ∧ s.ringSlot h + 0x2000 ≤ memBytes) ∧
    bit ((reg pCHK 0x804 0x10000 (jobbed 1 5 0 0)).reg pCHK 0x804) 16 = true ∧
    (let s := jobbed 9 5 0 0 true
     (s.job 0).sealHeld = true ∧ (s.job 0).live = true ∧ s.ringLow = false ∧ (jobbed 9 32768 0 0 true).genHalted = true) ∧
    (let s := jobbed 1 9 2 6
     s.admits .mgmt pCHK 0x818 = true ∧ (s.reg64 pCHK 0x818).toNat ≤ (putWord (s.reg64 pCHK 0x818) false 6).toNat ∧
      (putWord (s.reg64 pCHK 0x818) false 6).toNat ≤ (s.reg64 pCHK 0x820).toNat ∧
      (s.reg64 pCHK 0x820).toNat < (putWord (s.reg64 pCHK 0x818) false 7).toNat) ∧
    (let s := run
     s.ctxs.any (fun e => e.2.state != .free && e.2.state != .idle) = true ∧ s.admits .host pCHK 0x100 = true ∧
      bit (5 : Word32) 2 ≠ bit (s.reg pCHK 0x100) 2 ∧ bit (4 : Word32) 2 = true ∧ fld (4 : Word32) 0 2 = 0 ∧
      State.reset.ctxs = [] ∧ fld (5 : Word32) 0 2 ≠ 0) := by decide +kernel

/-- A flash of 64 MiB, a hold-up time, and staged entries; NVJ is enabled. -/
def journal (hold : Nat) (n : Nat) (refused : Bool := false) : State :=
  let s := en pNVJ (reg pAON 0x100 (BitVec.ofNat 32 hold) State.reset)
  { s with
    nv := { s.nv with flashBytes := 0x4000000, image := some 0 }
    chk := { s.chk with refused := refused, staged := List.replicate n (List.replicate 64 0, none) } }

theorem test_wit_ReceiptJournal_pages :
    (∀ hold ∈ [0, 0xFFFF], let s := journal hold 4
      let op : NvOp := .journal s.chk.nextPage []
      s.pgEn pNVJ = true ∧ s.journalDue = true ∧ s.chk.refused = false ∧ s.journalBusy = false ∧ s.journalFull = false ∧
      s.nv.op = none ∧ s.nv.queue = [] ∧ (s.nvGuard op).isNone = decide (hold ≠ 0) ∧
      s.flashBlank (journalOff s.chk.nextPage) = true ∧
      s.flashBlank (journalOff ((s.chk.nextPage + 1) % max 1 s.journalPages)) = true ∧
      ({ s with nv := { s.nv with flash := [(journalOff 0, 0)] } } : State).flashBlank (journalOff 0) = false) ∧
    (let s := journal 0xFFFF 4 true
     s.chk.refused = true ∧ s.nvBlocked = false ∧ s.chk.staged ≠ [] ∧ s.journalFull = false ∧
      s.chk.pages.all (fun p => s.sectorHeld (p.1 / 16)) = true ∧ (journal 0 4 true).nvBlocked = true) ∧
    (let s : State := { journal 0xFFFF 1 with nv := { (journal 0xFFFF 1).nv with op := some (.journal 3 [1, 2]) } }
     s.nv.op = some (.journal 3 [1, 2]) ∧ s.nv.queue = [] ∧ (journal 0xFFFF 1).nv.op = none) ∧
    (let s := reg64 pNVJ 0x800 9 (journal 0xFFFF 0)
     let u : State := { s with chk := { s.chk with pages := [(17, 1, 4)] } }
     u.admits .host pNVJ 0x808 = true ∧ (u.reg64 pNVJ 0x808).toNat ≤ (putWord (u.reg64 pNVJ 0x808) false 5).toNat ∧
      (putWord (u.reg64 pNVJ 0x808) false 5).toNat ≤ (u.reg64 pNVJ 0x800).toNat ∧ (∃ p ∈ u.chk.pages, p.1 / 16 = 1) ∧
      (∀ p ∈ u.chk.pages, p.1 / 16 = 1 → p.2.2 < 5)) := by decide +kernel

theorem test_wit_ReceiptJournal_commands :
    let s := reg pNVJ 0x904 0x400000 (journal 0xFFFF 0)
    s.admits .host pNVJ 0x900 = true ∧ s.pgEn pNVJ = true ∧ s.nvCmdCheck false = none ∧ s.nvCmdCheck true = none ∧
    s.nvGuard (.cmdErase 0x400000) = none ∧ s.flashBlank 0x400000 = true ∧ s.mem.hcc = [] ∧
    (reg pNVJ 0x904 1 s).nvCmdCheck false = some stBOUND ∧ (reg pNVJ 0x904 0x840000 s).nvCmdCheck true = some stDENIED := by
  decide +kernel

theorem test_wit_ReceiptJournal_guard (bs : List Byte) :
    (reg pNVJ 0x904 0x400000 (journal 0xFFFF 0)).nvGuard (.cmdProgram 0x400000 bs) = none := by
  have h : (reg pNVJ 0x904 0x400000 (journal 0xFFFF 0)).nvGuard (.cmdProgram 0x400000 []) = none := by decide +kernel
  exact h

/-- The log holds entry `n`, and entry `e` waits; `head` entries have been written. -/
def logged (head : Nat) (n e : LogEntry) : State :=
  let s := reg64 pAON 0x900 (BitVec.ofNat 64 head) State.reset
  { s with log := { s.log with ring := [((head - 1) % 1024, n)], queue := [e] } }

theorem test_wit_LogTelemetryThermal_log :
    (let e : LogEntry := { cls := cCORRECTED, status := 3, block := 8, count := 1 }
     (logged 1030 e e).log.queue = e :: [] ∧ (logged 1030 { e with seq := 1029 } e).merges e = true ∧
      (logged 1030 e { e with cls := cFATAL }).merges { e with cls := cFATAL } = false ∧ State.reset.log.queue = [] ∧
      bit (State.reset.reg pERR 0x8E0) 3 = false) ∧
    (State.reset.admits .host pAON 0x908 = true ∧ State.reset.admits .mgmt pAON 0x90C = true ∧
      State.reset.admits .host pAON 0x910 = true) ∧
    (∀ p ∈ [true, false],
      let s : State := reg pHIF 0x800 0x1000 { State.reset with msixPend := if p then BitVec.ofNat 256 (2 ^ 255) else 0 }
      s.mgt.d3 = false ∧ s.msixPend.getLsbD 255 = p ∧ s.busMaster = true) := by decide +kernel

theorem test_wit_LogTelemetryThermal_thermal :
    (let s := reg pTEL 0x100 9 (reg pTEL 0x10C 4 (en pTEL State.reset))
     s.reg pTEL 0x100 ≠ 0 ∧ s.pgEn pTEL = true ∧ fld (s.reg pTEL 0x10C) 0 20 ≠ 0 ∧ s.mem.hcc = [] ∧ State.reset.reg pTEL 0x100 = 0) ∧
    (let s : State := { State.reset with mgt := { State.reset.mgt with hot := true } }
     s.mgt.hot = true ∧ s.mgt.tripped = false ∧ State.reset.thrOn ≤ 115 ∧ State.reset.thrStage = 0) ∧
    (∀ st ∈ [0, 1, 2, 3], ∀ t ∈ [80, 105, 106, 107, 108],
      let s := reg pTEL 0x80C (BitVec.ofNat 32 st) (reg pTEL 0x808 (BitVec.ofNat 32 t) State.reset)
      s.tj = t ∧ s.thrStage = st ∧ 90 ≤ s.thrOn ∧ s.thrOn ≤ 105) := by decide +kernel

/-- Queue 0 of context 0 is valid, of 64 entries, TAIL at 1, the host's window valid and DMA enabled; its table so. -/
def fetching (k : Que := {}) : State :=
  let s := reg (pQUE 0) 0x110 0x80000006 (reg (pQUE 0) 0x800 1 (reg pHIF 0x800 0x1000 (reg (pCTX 0) 0x100 0x40 State.reset)))
  { reg pHIF 0x104 0x80000000 s with ques := [(0, k)] }

/-- A queue entry of an op code. -/
def entry1 (op : Byte) : List Byte := leBytes 8 8 ++ [op] ++ List.replicate 119 0

theorem test_wit_QueuesAndPcie_fetch :
    ((fetching).mayFetch 0 = true ∧ State.reset.mayFetch 0 = false ∧ (entry1 3).length = 128 ∧
      (fetching).entryFails 0 (entry1 3) = none ∧ (fetching).entryFails 0 (entry1 4) = some stDESC_INVALID ∧
      (((fetching).que 0).window.find? (fun w => w.1 == (parseEntry (entry1 3) 0).cid)).isNone = true ∧
      ((fetching).que 0).dups = []) ∧
    (∀ d ∈ [none, some ({ status := 0, op := 3, result := [] } : QDone)], let s := fetching { window := [(8, d)] }
      s.mayFetch 0 = true ∧ (s.que 0).window.find? (fun w => w.1 == (parseEntry (entry1 3) 0).cid) = some (8, d)) ∧
    (let e := parseEntry (entry1 3) 0
     let s := fetching { fetched := [e] }
     (s.que 0).fetched = e :: [] ∧ e.op = 3 ∧ (s.que 0).dups = [] ∧ (s.que 0).running = []) := by decide +kernel

theorem test_wit_QueuesAndPcie_access :
    (let s := fetching
     s.admits .host (pQUE 0) 0x800 = true ∧ s.queCtx 0 = some 0 ∧ (State.reset).queCtx 0 = none ∧
      ((64 : Word32) - s.reg (pQUE 0) 0x800).toNat ≤ s.queSize 0 - (s.reg (pQUE 0) 0x800 - s.reg (pQUE 0) 0x804).toNat ∧
      ¬ ((65 : Word32) - s.reg (pQUE 0) 0x800).toNat ≤ s.queSize 0 - (s.reg (pQUE 0) 0x800 - s.reg (pQUE 0) 0x804).toNat ∧
      s.admits .host (pQUE 0) 0x814 = true ∧ s.admits .host pHIF 0x804 = true ∧ fld (11 : Word32) 0 4 ≤ 11 ∧
      ¬ fld (12 : Word32) 0 4 ≤ 11) ∧
    (let s := reg pAON 0x890 0x10009 State.reset
     let r := reg pAON 0x890 0x80000 State.reset
     s.mgt.d3 = false ∧ s.booted = true ∧ s.recovering = false ∧ s.mem.hcc = [] ∧ s.bar2Addr 64 + 8 ≤ memBytes ∧
      r.recovering = true ∧ (64 : BitVec 36).toNat + 8 ≤ poolBytes ∧
      ({ s with mgt := { s.mgt with d3 := true } } : State).mgt.d3 = true ∧ (reg pHIF 0x800 0x1000 s).busMaster = true ∧
      s.busMaster = false) := by decide +kernel

/-- A rail's reading. -/
def rail3 (linear nacked : Bool) : RailReading :=
  { rail := 3, linear := linear, nacked := nacked, voutMv := 800, tempC := 40, iout := 9 }

theorem test_wit_Management :
    ((0x3FFFFFC : Word32).toNat % 4 = 0 ∧ (0x3FFFFFC : Word32).toNat < 0x4000000 ∧ (0x4000000 : Word32).toNat % 4 = 0 ∧
      (2 : Word32).toNat % 4 ≠ 0 ∧ bit (State.reset.reg pMGT 0x100) 0 = false ∧
      bit ((reg pMGT 0x100 3 State.reset).reg pMGT 0x100) 0 = true) ∧
    ((1023 : BitVec 16).toNat < 1024 ∧ 1024 ≤ (1024 : BitVec 16).toNat) ∧
    (let s := reg pMGT 0x100 3 (reg pERR 0x8E0 1 State.reset)
     bit (s.reg pMGT 0x100) 1 = true ∧ s.reg pERR 0x8E0 ≠ 0 ∧ bit (State.reset.reg pMGT 0x100) 1 = false) ∧
    (let s := reg pMGT 0x11C 0x80000040 (reg pMGT 0x104 0x0A00 (reg pMGT 0x13C 0x03840320 State.reset))
     let u : State := { s with mgt := { s.mgt with trim := some 3 } }
     bit (s.reg pMGT (0x110 + 4 * 3)) 31 = true ∧ s.mgt.badRails.getLsbD 3 = false ∧ fld (s.reg pMGT 0x104) 8 8 ≠ 0 ∧
      (rail3 true false).linear = true ∧ (rail3 true true).nacked = true ∧ (rail3 false false).linear = false ∧
      u.mgt.trim = some (rail3 true false).rail ∧ bit (State.reset.reg pMGT (0x110 + 4 * 3)) 31 = false ∧
      s.admits .host pMGT 0x900 = true ∧ s.railOk 3 = true ∧ s.mgt.trim = none ∧ u.mgt.trim.isSome = true ∧
      (let v : Word32 := 0x03200003
       fld v 0 3 = 3 ∧ ¬ (fld v 16 16 < fld (s.reg pMGT (0x130 + 4 * 3)) 0 16 ∨
         fld (s.reg pMGT (0x130 + 4 * 3)) 16 16 < fld v 16 16)) ∧
      fld (0x031F0003 : Word32) 16 16 < fld (s.reg pMGT (0x130 + 4 * 3)) 0 16) ∧
    (let s : State := { State.reset with mgt := { State.reset.mgt with fatalPin := true } }
     s.mgt.fatalPin = true ∧ s.log.fatal = false ∧ State.reset.mgt.fatalPin = false) ∧
    ((6 : Byte).toNat ∈ [0, 3, 4, 5, 6] ∧ (7 : Byte).toNat ∉ [0, 3, 4, 5, 6] ∧ State.reset.mgt.jtag = false ∧
      ({ State.reset with mgt := { State.reset.mgt with jtag := true } } : State).mgt.jtag = true) := by decide +kernel

theorem test_wit_Management_access (r : Requester) (off : BitVec 26) (v : Word32) (b : Bool) (s : State) :
    (∃ u, exec (.lowWordRead r off) s = .next u) ∧ (∃ u, exec (.registerWrite r off v b) s = .next u) :=
  ⟨⟨_, rfl⟩, ⟨_, rfl⟩⟩

theorem test_wit_GpioClaims :
    (let s := State.reset
     s.admits .host pMGT (0x810 + 4 * 15) = true ∧ fld (0x13F : Word32) 0 8 ≠ 0 ∧ fld (s.gpio 15) 0 8 = 0 ∧
      1 ≤ fld (0x13F : Word32) 0 8 ∧ fld (0x13F : Word32) 0 8 ≤ 0x3F ∧ gpioOffers 15 (fld (0x13F : Word32) 8 3) = true ∧
      0x3F < fld (0x140 : Word32) 0 8 ∧ gpioOffers 15 (fld (0x33F : Word32) 8 3) = false ∧ s.mgt.fatalPin = false ∧
      s.admits .mgmt pMGT 0x854 = true) ∧
    (let s := reg pMGT (0x810 + 4 * 15) 0x17F State.reset
     fld (s.gpio 15) 0 8 ≠ 0 ∧ 0x40 ≤ fld (s.gpio 15) 0 8 ∧ fld (s.gpio 15) 0 8 ≤ 0x7F ∧ fld (s.gpio 15) 8 3 = 1) := by
  decide +kernel

/-! ### Hypotheses that are met: the whole block -/

/-- A programming of fuse word 44 completes at the front of the queue. -/
def fusing : State :=
  { State.reset with pending := [.pcieLinkDown], nv := { State.reset.nv with op := some (.fuse 44 1) } }

theorem test_wit_AntiRollbackCount :
    (∃ t, step fusing = .next t) ∧ .fuse 44 1 ∈ fusing.nv.op.toList ++ fusing.nv.queue ∧ (44 : BitVec 7).toNat = 44 := by
  refine ⟨⟨_, rfl⟩, by decide +kernel, by decide⟩

theorem test_wit_StepKeepsMemoryForm : (∃ t, step fusing = .next t) ∧ fusing.memoryWf = true :=
  ⟨⟨_, rfl⟩, by decide +kernel⟩

theorem test_wit_StepsNeverStop :
    768 * 2 ^ 30 ≤ (acc (768 * 2 ^ 30)).addr.toNat ∧ 768 * 2 ^ 30 ≤ (acc (2 ^ 40 - 1)).addr.toNat ∧
    ¬ 768 * 2 ^ 30 ≤ (acc (768 * 2 ^ 30 - 1)).addr.toNat := by decide +kernel

/-! ### Ill-formed commands: one for each check of WellFormed.lean -/

theorem test_wf_memWrite_empty : (Instr.memWrite (acc 0x40) [] false).wf = false := by decide
theorem test_wf_memWrite_crosses_line : (Instr.memWrite (acc 0x7F) [1, 2] false).wf = false := by decide
theorem test_wf_bar2Read_empty : (Instr.bar2Read 0 0).wf = false := by decide
theorem test_wf_bar2Write_empty : (Instr.bar2Write 0 [] false).wf = false := by decide
theorem test_wf_frame_payload_short : (Instr.data 0 { frm with lines := 1, credits := List.replicate 8 0 }).wf = false := by
  decide +kernel
theorem test_wf_frame_lines : (Instr.ctrl 0 { frm with lines := 17, payload := List.replicate 1088 0
                                                       credits := List.replicate 8 0 }).wf = false := by decide +kernel
theorem test_wf_frame_credits : (Instr.nak 0 { frm with credits := [0] }).wf = false := by decide +kernel
theorem test_wf_frame_ok : (Instr.sleepReq 0 { frm with credits := List.replicate 8 0 }).wf = true := by decide +kernel
theorem test_wf_message_header : (Instr.tack { msg 1 [] [1] with poison := [false] }).wf = false := by decide +kernel
theorem test_wf_message_empty : (Instr.go (msg 1 (List.replicate 28 0) [])).wf = false := by decide +kernel
theorem test_wf_message_marks : (Instr.chunk { msg 1 (List.replicate 28 0) (List.replicate 65 1) with poison := [false] }).wf
    = false := by decide +kernel
theorem test_wf_message_long : ∀ bs : List Byte, 2 ^ 20 < bs.length → (msg 1 [] bs).wf = false := by
  intro bs h
  have : decide (bs.length ≤ 2 ^ 20) = false := decide_eq_false (by omega)
  simp [Message.wf, msg] at *
theorem test_wf_message_ok : (Instr.cancel { msg 1 (List.replicate 28 0) (List.replicate 65 1) with
    poison := [false, true] }).wf = true := by decide +kernel
theorem test_wf_reset_stacks : ∀ env : BootEnv, 8 < env.stackInfos.length → (Instr.resetRelease env).wf = false := by
  intro env h; simp [Instr.wf]; omega
theorem test_wf_pmbus_rails : ∀ rs : List RailReading, 8 < rs.length → (Instr.pmbusPoll rs).wf = false := by
  intro rs h; simp [Instr.wf]; omega

/-! ### Values of the spec's worked examples and of the standards it names -/

/-- 06_hj1_baseline.md, worked example: MMA a1, t2, accumulating, INT8, s4, s5, K 64. -/
theorem test_word_MMA : encM 0x40 { mop with arr := 1, tile := 2, acc := true, fmt := 1, sa := 4, sb := 5, k := 64 }
    = 0x0000000040291CC0 := by decide +kernel

/-- 06_hj1_baseline.md, worked example: VFMA v3 = v1 × v2 + v4 under p2, merging. -/
theorem test_word_VFMA : encV 0x20 3 { vop with vd := 3, va := 1, vb := 2, vc := 4, pred := 2, pe := true }
    = 0x00000003510411A0 := by decide +kernel

/-- 07_hj2_contract.md, worked example: F2E4 v10 from v9, draws in v5, SAT, quarter 0. -/
theorem test_word_F2E4 : encV 0x23 6 { vop with vd := 10, va := 9, vb := 0, vc := 5, sr := true, imm := 4 }
    = 0x0001100601409523 := by decide +kernel

/-- 06_hj1_baseline.md, worked example: FSUM of 2^24 in lane 0 and 1.0 in lanes 1 and 33. -/
theorem test_fsum_tree : (redTree fadd 6 ((List.range 64).map (fun l =>
    if l = 0 then 0x4B800000 else if l = 1 ∨ l = 33 then 0x3F800000 else 0)) 0).1 = 0x4B800001 := by decide +kernel

/-- 07_hj2_contract.md, worked example: 49.0 × 2.0 + 2.0 = 100.0. -/
theorem test_fma : ffma 0x42440000 0x40000000 0x40000000 = (0x42C80000, 0) := by decide +kernel

/-- 07_hj2_contract.md, worked example: 100.0 becomes 104 with draw 14,865, and 96 to nearest; both inexact. -/
theorem test_f2e4 : f2e4m3 (some 0x3A11) true 0x42C80000 = (0x6D, fNX) ∧ f2e4m3 none true 0x42C80000 = (0x6C, fNX) := by
  decide +kernel

/-- IEEE 754: 1.0 ÷ 3.0, √2.0 and 2^0.5 to nearest; 1.0 ÷ 0 raises division by zero. -/
theorem test_fp_values : fdiv 0x3F800000 0x40400000 = (0x3EAAAAAB, fNX) ∧ fsqrt 0x40000000 = (0x3FB504F3, fNX) ∧
    fexp2 0x3F000000 = (0x3FB504F3, fNX) ∧ (fdiv 0x3F800000 0).1 = 0x7F800000 := by decide +kernel

/-- 13_collectives.md, worked example: (2^24 + 1.0) + (1.0 + 1.0) in FP32. -/
theorem test_fixed_tree : combineEl 0 1 (combineEl 0 1 0x4B800000 0x3F800000) (combineEl 0 1 0x3F800000 0x3F800000)
    = 0x4B800001 := by decide +kernel

/-- 09_stacked_memory.md, worked example: stack, channel and offset of 0x12_3456_7880 under each map. -/
theorem test_locate : locate false 0x1234567880 = (0, 15, 0x2468AC80) ∧ locate true 0x1234567880 = (0, 1, 0xC68ACF80) := by
  decide +kernel

/-- 20_errors.md, worked example: 0x2A13_5340 lies in stack 3, channel 10. -/
theorem test_locate_error : (locate false 0x2A135340).1 = 3 ∧ (locate false 0x2A135340).2.1 = 10 := by decide +kernel

/-- 10_tiers_quotas.md, worked example: pages and granules needed, and the bytes short. -/
theorem test_units : unitsFor false 31675383808 = 15104 ∧ unitsFor true 9437184 = 144 ∧
    (15104 - (15360 - 512)) * unitBytes false = 0x20000000 ∧ (144 - (160 - 32)) * unitBytes true = 0x100000 := by
  decide +kernel

/-- 12_fabric_transport.md, worked example: from 0x631 to 0x60C by links 8, 1, 9 and 3; the escape route starts +x. -/
theorem test_route :
    let s (a : Nat) : State := reg pFAB 0x100 (BitVec.ofNat 32 a)
      { State.reset with links := [8, 1, 9, 3].map (fun l => (l, ({ state := .up } : Link))) }
    (s 0x631).classLink 0x60C none = some 8 ∧ (s 0x635).classLink 0x60C none = some 1 ∧
    (s 0x634).classLink 0x60C none = some 9 ∧ (s 0x614).classLink 0x60C none = some 3 ∧
    (s 0x60C).classLink 0x60C none = none ∧ (s 0x631).escapeLink 0x60C = some 0 := by decide +kernel

/-- 02_register_pages.md, worked example, step 5: management's write of a register of LNK 5's locked page (R26 puts page 0xF5 at offset 0xF5000). -/
theorem test_locked_write :
    let s := on [dLnk 5]
    let s := { s with pages := [(pLNK 5, { locked := true })] }
    (match Machine.execRegisterWrite .mgmt 0xF5140 1 false s with
     | .next t => decide (t.readHeader .host (pLNK 5) 0x14 = 0x102) && decide (t.readHeader .host (pLNK 5) 0x20 = 0x80006140)
         && decide (t.readHeader .host (pLNK 5) 0x24 = 1)
     | _ => false) = true := by decide +kernel

/-- 03_power_clocks.md, worked example: a page program of 1,200 µs fits a hold-up of 2,500 µs, and not one of 1,249. -/
theorem test_holdup : (reg pAON 0x818 1200 (reg pAON 0x100 2500)).nvGuard (.cmdProgram 0 []) = none ∧
    (reg pAON 0x818 1200 (reg pAON 0x100 1249)).nvGuard (.cmdProgram 0 []) = some stNV_HOLDUP := by decide +kernel

/-- 16_stochastic.md, worked example: the key of stream 5. -/
theorem test_stream_key : streamKey { seed := 0x0F1E2D3C4B5A69780123456789ABCDEF, cfg := 9 } 12 5
    = (0x0123456789ABCDEF, 0x0F1E2D3C4B53657D) := by decide +kernel

/-- 16_stochastic.md, worked example: EXP2T[1,022], and beta at sweep 333 of the table curve. -/
theorem test_annealer_tables : exp2t 1022 = 32812 ∧ exp2t 0 = 65535 ∧
    tableBeta [(0, 0x4000), (1000, 0x10000)] 333 = 32751 := by decide +kernel

/-- The check value of CRC-32 (IEEE 802.3) over "123456789". -/
theorem test_crc32 : crc32 [0x31, 0x32, 0x33, 0x34, 0x35, 0x36, 0x37, 0x38, 0x39] = 0xCBF43926 := by decide +kernel

/-- FIPS 180-4: SHA-256 of "abc". -/
theorem test_sha256 : sha256 [0x61, 0x62, 0x63] =
    (leBytes 32 0xBA7816BF8F01CFEA414140DE5DAE2223B00361A396177A9CB410FF61F20015AD).reverse := by decide +kernel

/-- RFC 8032, test 1: the empty message verifies, and with one bit of the signature changed it does not. -/
theorem test_ed25519 :
    let pub := (leBytes 32 0xD75A980182B10AB7D54BFED3C964073A0EE172F3DAA62325AF021A68F707511A).reverse
    let sig := (leBytes 64 0xE5564300C360AC729086E2CC806E828A84877F1EB8E5D974D873E065224901555FB8821590A33BACC61E39701CF9B46BD25BF5F0595BBE24655141438E7A100B).reverse
    edVerify pub [] sig = true ∧ edVerify pub [] ((leBytes 1 0xE4) ++ sig.drop 1) = false := by decide +kernel

end Sys2Proof.Tests
end

section
/-! PROOF. A register write by its register's access type: what storing a value changes, what signalling an event leaves,
and the two ways through the gate of a page. -/

namespace Sys2Proof.Machine

/-! ### 64-bit counters -/

/-- A 64-bit pair reads the value written to it. -/
@[simp] theorem State.reg64_setReg64_same (s : State) (p o : Nat) (v : Word64) : (s.setReg64 p o v).reg64 p o = v := by
  have hlow : (s.setReg64 p o v).reg p o = v.setWidth 32 := by
    rw [State.setReg64, State.reg_setReg_ne _ _ (by omega), State.reg_setReg_same]
  have hhigh : (s.setReg64 p o v).reg p (o + 4) = v.extractLsb' 32 32 := State.reg_setReg_same ..
  rw [State.reg64, hlow, hhigh, BitVec.setWidth_eq_extractLsb' (by omega),
    BitVec.extractLsb'_append_extractLsb'_eq_extractLsb' (by rfl)]
  exact BitVec.extractLsb'_eq_self

/-- A 64-bit counter has moved on by what was added to it. -/
@[simp] theorem State.reg64_inc_same (s : State) (p o n : Nat) :
    (s.inc p o n).reg64 p o = s.reg64 p o + BitVec.ofNat 64 n := State.reg64_setReg64_same ..

/-- Counting leaves every register outside the counter's two words. -/
theorem State.reg_inc_ne (s : State) {p o q k : Nat} (n : Nat) (hlow : q * 4096 + k ≠ p * 4096 + o)
    (hhigh : q * 4096 + k ≠ p * 4096 + (o + 4)) : (s.inc p o n).reg q k = s.reg q k := by
  rw [State.inc, State.setReg64, State.reg_setReg_ne _ _ hhigh, State.reg_setReg_ne _ _ hlow]

/-! ### Events and registers below the counters -/

/-- Sending or holding back an output leaves every register. -/
@[simp] theorem State.reg_dmaOut (s : State) (out : Output) (q k : Nat) : (s.dmaOut out).reg q k = s.reg q k :=
  State.reg_congr (by simp) q k

/-- A signalled vector counts in the HIF page's counters alone. -/
theorem State.reg_signalVec_of_lt (s : State) (v : Byte) {q k : Nat} (hk : k < 0xF00) :
    (s.signalVec v).reg q k = s.reg q k := by
  unfold State.signalVec
  split
  · rfl
  · rw [State.reg_dmaOut, State.reg_inc_ne _ _ (by omega) (by omega)]

/-- A change of a header, with the event it may signal, leaves every register below the counters. -/
theorem State.reg_modPage_of_lt (s : State) (p : Nat) (f : Page → Page) {q k : Nat} (hk : k < 0xF00) :
    (s.modPage p f).reg q k = s.reg q k := by
  unfold State.modPage
  simp only []
  split
  · exact State.reg_signalVec_of_lt _ _ hk
  · rfl

/-! ### The stored effect -/

/-- What a register of row `row` holds after a write of `v` over `old` (R8, R9). -/
def RegRow.stored (row : RegRow) (old v : Word32) : Word32 :=
  match row.acc with
  | .rw => v &&& BitVec.ofNat 32 row.mask
  | .rwl => v &&& BitVec.ofNat 32 row.mask
  | .wo => v &&& BitVec.ofNat 32 row.mask
  | .w1c => old &&& ~~~(v &&& BitVec.ofNat 32 row.mask)
  | .ro => old
  | .rc => old

/-- A write of a register that exists stores its value there, or leaves the state where it would store the old one. -/
theorem State.store_of_regRow (s : State) {p o : Nat} {row : RegRow} (v : Word32)
    (hrow : regRow (blockType p) o = some row) :
    (s.store p o v = s ∧ row.stored (s.reg p o) v = s.reg p o) ∨
      s.store p o v = s.setReg p o (row.stored (s.reg p o) v) := by
  cases hacc : row.acc with
  | ro | rc => left; simp [State.store, RegRow.stored, hrow, hacc]
  | rw | rwl | wo | w1c => right; simp [State.store, RegRow.stored, hrow, hacc]

/-- A write stores in its own register or changes nothing. -/
theorem State.store_cases (s : State) (p o : Nat) (v : Word32) :
    s.store p o v = s ∨ ∃ w, s.store p o v = s.setReg p o w := by
  cases hrow : regRow (blockType p) o with
  | none => left; simp [State.store, hrow]
  | some row => exact (s.store_of_regRow v hrow).imp And.left fun h => ⟨_, h⟩

/-- A stored write leaves its register with the value of the register's access type. -/
theorem State.reg_store_same (s : State) {p o : Nat} {row : RegRow} (v : Word32)
    (hrow : regRow (blockType p) o = some row) : (s.store p o v).reg p o = row.stored (s.reg p o) v := by
  obtain ⟨heq, hold⟩ | heq := s.store_of_regRow v hrow
  · rw [heq, hold]
  · rw [heq, State.reg_setReg_same]

/-- A stored write leaves every other register. -/
theorem State.reg_store_ne (s : State) {p o q k : Nat} (v : Word32) (h : q * 4096 + k ≠ p * 4096 + o) :
    (s.store p o v).reg q k = s.reg q k := by
  obtain heq | ⟨w, heq⟩ := s.store_cases p o v
  · rw [heq]
  · rw [heq, State.reg_setReg_ne _ _ h]

/-- A stored write changes the registers and nothing else. -/
theorem State.store_frame (s : State) (p o : Nat) (v : Word32) :
    s.store p o v = { s with regs := (s.store p o v).regs } := by
  obtain heq | ⟨w, heq⟩ := s.store_cases p o v
  · rw [heq]
  · rw [heq]; rfl

@[simp] theorem State.store_pages (s : State) (p o : Nat) (v : Word32) : (s.store p o v).pages = s.pages := by
  rw [State.store_frame]

@[simp] theorem State.page_store (s : State) (p o q : Nat) (v : Word32) : (s.store p o v).page q = s.page q := by
  simp [State.page]

/-- On CLK, ERR, TEL, DBG, SIG, MEM and ARR pages a write that has passed the gate stores and does nothing more. -/
theorem State.writeEffect_of_storing (go : State → State) (s : State) (r : Requester) {p : Nat} (o : Nat) (v : Word32)
    (hbt : [3, 8, 9, 0xA, 0x10, 0x19, 0x1D].contains (blockType p) = true) :
    s.writeEffect go r p o v = s.store p o v := by
  unfold State.writeEffect
  unfold blockType at hbt
  cases hinfo : pageInfo p with
  | none => simp [hinfo] at hbt
  | some bi =>
    obtain ⟨bt, i⟩ := bi
    simp only [hinfo, List.contains_eq_mem, List.mem_cons, List.not_mem_nil, or_false, decide_eq_true_eq] at hbt
    obtain rfl | rfl | rfl | rfl | rfl | rfl | rfl := hbt <;> rfl

/-! ### Through the gate -/

theorem State.reaches_of_admits {s : State} {r : Requester} {p o : Nat} (h : s.admits r p o = true) :
    s.reaches r p = true := by
  simp only [State.admits, Bool.and_eq_true] at h
  exact h.1.1

/-- A write that its page admits has its effect on a state that differs in the page headers alone, the requester's key
sequence disarmed. -/
theorem State.regGate_of_admits_frame {s : State} {r : Requester} {p o : Nat} (f : State → State)
    (h : s.admits r p o = true) :
    ∃ u : State, s.regGate r p o f = f u ∧ u = { s with pages := u.pages } ∧ (u.page p).armed r = false := by
  have harm : ((s.setArmed r p false).page p).armed r = false := by simp [State.page_setArmed]
  rw [State.regGate_of_admits f h]
  refine ⟨_, rfl, ?_, ?_⟩
  · split
    · rw [State.modPage_quiet _ _ _ id, State.setArmed_eq]
    · rw [State.setArmed_eq]
  · split
    · rw [State.page_modPage_same]; exact harm
    · exact harm

/-- A write of a written WO register, or of an RWL register of a locked page, is a violation of the disarmed page. -/
theorem State.regGate_of_refused {s : State} {r : Requester} {p o : Nat} {row : RegRow} (f : State → State)
    (hrst : ¬(0x800 ≤ o ∧ o < 0xF00 ∧ (s.page p).srst = true)) (hrow : regRow (blockType p) o = some row)
    (href : (row.acc = .wo ∧ (s.page p).written.contains o = true) ∨ (row.acc = .rwl ∧ (s.page p).locked = true)) :
    s.regGate r p o f = (s.setArmed r p false).violation r p o false true := by
  have hsrst : ((s.setArmed r p false).page p).srst = (s.page p).srst := by simp [State.page_setArmed]
  have hwritten : ((s.setArmed r p false).page p).written = (s.page p).written := by simp [State.page_setArmed]
  have hlocked : ((s.setArmed r p false).page p).locked = (s.page p).locked := by simp [State.page_setArmed]
  unfold State.regGate
  simp only [hsrst, hwritten, hlocked, if_neg hrst, hrow]
  obtain ⟨hacc, hw⟩ | ⟨hacc, hl⟩ := href
  · rw [if_pos hacc, if_pos hw]
  · rw [if_neg (by simp [hacc]), if_pos ⟨hacc, hl⟩]

/-- A recorded violation sets PG_STAT.WO_VIOL and its event, and leaves every register below the counters. -/
theorem State.violation_wo (s : State) (r : Requester) (p o : Nat) (w : Bool) :
    ((s.violation r p o false w).page p).woViol = true ∧ bit ((s.violation r p o false w).page p).evt 0 = true ∧
      ∀ q k, k < 0xF00 → (s.violation r p o false w).reg q k = s.reg q k := by
  refine ⟨?_, ?_, fun q k hk => State.reg_modPage_of_lt _ _ _ hk⟩
  · simp [State.violation]
  · simp [State.violation, bit]

/-- An aligned write beyond the header of a page that answers meets the page's gate. -/
theorem State.busWrite_of_reaches {s : State} {r : Requester} {off : Nat} (v : Word32) (halign : off % 4096 % 4 = 0)
    (hbody : 0x100 ≤ off % 4096) (hreach : s.reaches r (off / 4096) = true) :
    s.busWrite r off v = s.regGate r (off / 4096) (off % 4096)
      (fun u => u.writeEffect State.recoveryGo r (off / 4096) (off % 4096) v) := by
  have hoff : off / 4096 * 4096 + off % 4096 = off := Nat.div_add_mod' off 4096
  have hgo := fun f => State.reach_of_reaches (o := off % 4096) (Nat.mod_lt _ (by decide)) true f hreach
  rw [hoff] at hgo
  unfold State.busWrite State.busWriteWith
  simp only [hgo]
  rw [if_neg (by omega), if_neg (by omega)]

/-- REGISTER_WRITE answers the state after the access. -/
theorem exec_registerWrite (r : Requester) (off : Bar0) (v : Word32) (s : State) :
    exec (.registerWrite r off v false) s = .next (s.busWrite r off.toNat v) := rfl

/-- A poisoned REGISTER_WRITE outside D3hot is counted. -/
theorem exec_registerWrite_poisoned (r : Requester) (off : Bar0) (v : Word32) {s : State} (hd3 : s.mgt.d3 = false) :
    exec (.registerWrite r off v true) s = .next (s.inc pHIF 0xF20) := by
  change execRegisterWrite r off v true s = _
  simp [execRegisterWrite, hd3, ok]

/-- Settles O4: an admitted write stores on a disarmed page, a refused one is a violation, a poisoned one is counted. -/
theorem registerWriteByAccessType : Obligations.RegisterWriteByAccessType := by
  refine ⟨fun r off v s row => ?_, fun r off v s row => ?_, fun r off v s hd3 => ?_⟩
  · intro p o halign hbody hbt hrow hadm
    obtain ⟨u, hgate, hu, harm⟩ := State.regGate_of_admits_frame
      (fun u => u.writeEffect State.recoveryGo r p o v) hadm
    have hregs : u.regs = s.regs := by rw [hu]
    have hwrite : s.busWrite r off.toNat v = u.store p o v := by
      rw [State.busWrite_of_reaches v halign hbody (State.reaches_of_admits hadm), hgate,
        State.writeEffect_of_storing _ _ _ _ _ hbt]
    refine ⟨_, (exec_registerWrite r off v s).trans (congrArg _ hwrite), ?_, fun q k hne => ?_, ?_, ?_⟩
    · rw [State.reg_store_same u v hrow, State.reg_congr hregs]; rfl
    · rw [State.reg_store_ne u v hne, State.reg_congr hregs]
    · rwa [State.page_store]
    · rw [State.store_pages]
      exact (u.store_frame p o v).trans (congrArg (fun w => { w with regs := (u.store p o v).regs }) hu)
  · intro p o halign hbody hreach hrst hrow href
    refine ⟨_, exec_registerWrite r off v s, ?_⟩
    rw [State.busWrite_of_reaches v halign hbody hreach, State.regGate_of_refused _ hrst hrow href]
    obtain ⟨hviol, hevt, hregs⟩ := (s.setArmed r p false).violation_wo r p o true
    exact ⟨hviol, hevt, fun k hk => (hregs p k hk).trans (State.reg_modPage_of_lt _ _ _ hk)⟩
  · exact ⟨_, exec_registerWrite_poisoned r off v hd3, State.reg64_inc_same .., rfl⟩

end Sys2Proof.Machine
end

section
/-! PROOF. Accesses that reach no register and reads that do: dropped and wrongly sized accesses, the 64-bit latch and
read-to-clear. What the reads show does not depend on what a requester read before. -/

namespace Sys2Proof.Machine

/-! ### Fields of words -/

/-- A 16-bit count with a flag in the bit above it reads as the count. -/
theorem fld_count_of_flag (n : Nat) (b : Bool) (hn : n < 2 ^ 16) :
    fld (BitVec.ofNat 32 (n + bnat b * 2 ^ 16)) 0 16 = n := by
  have hb : bnat b ≤ 1 := by cases b <;> decide
  simp only [fld, BitVec.toNat_ofNat]
  omega

/-- A 16-bit count that stops at its largest value. -/
theorem toNat_satCount (c : BitVec 16) :
    (if c = 0xFFFF then c else c + 1).toNat = min 0xFFFF (c.toNat + 1) := by
  split
  case isTrue h => subst h; rfl
  case isFalse h => bv_omega

/-! ### What a requester's last read returned -/

/-- What requester `r` read last. -/
def State.lastRead (s : State) (r : Requester) : Word32 := if r = .host then s.rdHost else s.rdMgmt

@[simp] theorem State.lastRead_setRd (s : State) (r : Requester) (v : Word32) : (s.setRd r v).lastRead r = v := by
  cases r <;> rfl

@[simp] theorem State.lastRead_setReg (s : State) (r : Requester) (p o : Nat) (v : Word32) :
    (s.setReg p o v).lastRead r = s.lastRead r := rfl

@[simp] theorem State.lastRead_inc (s : State) (r : Requester) (p o n : Nat) :
    (s.inc p o n).lastRead r = s.lastRead r := rfl

@[simp] theorem State.lastRead_modDom (s : State) (r : Requester) (d : Nat) (f : Dom → Dom) :
    (s.modDom d f).lastRead r = s.lastRead r := rfl

@[simp] theorem State.lastRead_modPage (s : State) (r : Requester) (p : Nat) (f : Page → Page) :
    (s.modPage p f).lastRead r = s.lastRead r := by simp [State.lastRead]

/-- Returning a value to a requester changes what it read last and nothing else. -/
theorem State.setRd_frame (s : State) (r : Requester) (v : Word32) :
    s.setRd r v = { s with rdHost := (s.setRd r v).rdHost, rdMgmt := (s.setRd r v).rdMgmt } := by
  cases r <;> rfl

@[simp] theorem State.setRd_regs (s : State) (r : Requester) (v : Word32) : (s.setRd r v).regs = s.regs := by
  rw [State.setRd_frame]

@[simp] theorem State.setRd_pages (s : State) (r : Requester) (v : Word32) : (s.setRd r v).pages = s.pages := by
  rw [State.setRd_frame]

@[simp] theorem State.reg_setRd (s : State) (r : Requester) (v : Word32) (q k : Nat) :
    (s.setRd r v).reg q k = s.reg q k := State.reg_congr (s.setRd_regs r v) q k

@[simp] theorem State.page_setRd (s : State) (r : Requester) (v : Word32) (q : Nat) :
    (s.setRd r v).page q = s.page q := by simp [State.page]

/-! ### The register map -/

/-- A register of a row lies a multiple of `m` beyond its first, where the row's stride is one. -/
theorem RegRow.mod_of_covers {row : RegRow} {o m : Nat} (hm : m ∣ row.stride) (h : row.covers o = true) :
    o % m = row.first % m := by
  unfold RegRow.covers at h
  split at h
  case isTrue => rw [beq_iff_eq.1 h]
  case isFalse =>
    simp only [Bool.and_eq_true, decide_eq_true_eq, beq_iff_eq] at h
    obtain ⟨⟨hle, hstride⟩, -⟩ := h
    exact ((Nat.modEq_iff_dvd' hle).2 (hm.trans (Nat.dvd_of_mod_eq_zero hstride))).symm

/-- No register table reaches into the common header. -/
theorem regRow_header (bt : Nat) {o : Nat} (ho : o < 0x100) : regRow bt o = none := by
  have hfirst : ∀ row ∈ regRowsOf bt, 0x100 ≤ row.first := by
    by_cases hbt : bt < 30
    · have hall : ∀ b < 30, ∀ row ∈ regRowsOf b, 0x100 ≤ row.first := by decide
      exact hall bt hbt
    · obtain ⟨n, rfl⟩ := Nat.exists_eq_add_of_le (Nat.not_lt.1 hbt)
      rw [Nat.add_comm]
      intro row hrow
      cases hrow
  refine List.find?_eq_none.2 fun row hrow hcov => ?_
  have hle := hfirst row hrow
  unfold RegRow.covers at hcov
  split at hcov
  · have := beq_iff_eq.1 hcov; omega
  · simp only [Bool.and_eq_true, decide_eq_true_eq] at hcov; omega

/-- No header register is a write-once one. -/
theorem writeOnce_header (bt : Nat) {o : Nat} (ho : o < 0x100) : writeOnce bt o = false := by
  simp [writeOnce, regRow_header bt ho]

/-- No high word of a pair on the TRN page lies where a job's phase or the page's state is shown. -/
theorem high_word_trn {o : Nat} {row : RegRow} (hrow : regRow 0x14 o = some row) (hwide : row.wide = true) :
    (o + 4) % 0x40 ≠ 0 := by
  have htable : ∀ e ∈ regRowsTRN, e.wide = true → 0x40 ∣ e.stride ∧ e.first % 0x40 ≠ 0x3C := by decide
  obtain ⟨hstride, hfirst⟩ := htable row (List.mem_of_find?_eq_some hrow) hwide
  have hcov : row.covers o = true := List.find?_some (p := fun e : RegRow => e.covers o) hrow
  have hmod := RegRow.mod_of_covers hstride hcov
  omega

/-! ### Live values -/

/-- The TRN page shows its jobs' states at multiples of 0x40 alone. -/
theorem State.readTrn_eq_none (s : State) {o : Nat} (ho : o % 0x40 ≠ 0) : s.readTrn o = none := by
  unfold State.readTrn
  rw [if_neg (by omega), if_neg (by omega)]

/-- Outside the learner's jobs, what a status register shows does not depend on what a requester read last. A
job's status asks for its Kitty window, which is read through the memory; no pair's high word lies there. -/
theorem State.readStatus_setRd (s : State) (r : Requester) (v : Word32) {p o : Nat}
    (htrn : blockType p = 0x14 → o % 0x40 ≠ 0) : (s.setRd r v).readStatus r p o = s.readStatus r p o := by
  rw [State.setRd_frame]
  generalize (s.setRd r v).rdHost = a, (s.setRd r v).rdMgmt = b
  unfold State.readStatus
  unfold blockType at htrn
  cases hinfo : pageInfo p with
  | none => rfl
  | some x =>
    obtain ⟨bt, i⟩ := x
    rw [hinfo] at htrn
    dsimp only at htrn ⊢
    split
    case h_16 => simp only [State.readTrn_eq_none _ (htrn rfl)]
    all_goals rfl

/-- Outside the learner's jobs, a register's live value does not depend on what a requester read last. -/
theorem State.liveReg_setRd (s : State) (r : Requester) (v : Word32) {p o : Nat}
    (htrn : blockType p = 0x14 → o % 0x40 ≠ 0) : (s.setRd r v).liveReg r p o = s.liveReg r p o := by
  have hheader : (s.setRd r v).readHeader r p o = s.readHeader r p o := by cases r <;> rfl
  unfold State.liveReg
  rw [hheader, State.readStatus_setRd s r v htrn, State.reg_setRd]

/-! ### Registers beside domains -/

@[simp] theorem State.reg_modDom (s : State) (d : Nat) (f : Dom → Dom) (q k : Nat) :
    (s.modDom d f).reg q k = s.reg q k := rfl

@[simp] theorem State.reg64_modDom (s : State) (d : Nat) (f : Dom → Dom) (q k : Nat) :
    (s.modDom d f).reg64 q k = s.reg64 q k := rfl

/-! ### Dropped and wrongly sized accesses -/

/-- What a dropped or wrongly sized access returns: the filler to a read, nothing to a write. -/
def State.answered (s : State) (r : Requester) (v : Word32) (w : Bool) : State := if w then s else s.setRd r v

theorem State.lastRead_answered (s : State) (r : Requester) (v : Word32) {w : Bool} (hw : w = false) :
    (s.answered r v w).lastRead r = v := by
  subst hw; exact s.lastRead_setRd r v

@[simp] theorem State.reg_answered (s : State) (r : Requester) (v : Word32) (w : Bool) (q k : Nat) :
    (s.answered r v w).reg q k = s.reg q k := by
  cases w
  · exact s.reg_setRd r v q k
  · rfl

@[simp] theorem State.page_answered (s : State) (r : Requester) (v : Word32) (w : Bool) (q : Nat) :
    (s.answered r v w).page q = s.page q := by
  cases w
  · exact s.page_setRd r v q
  · rfl

/-- Nothing but registers and what the requesters read last has changed. -/
def State.OnlyReads (s t : State) : Prop := t = { s with regs := t.regs, rdHost := t.rdHost, rdMgmt := t.rdMgmt }

section
variable {s t : State}

theorem State.answered_onlyReads (s : State) (r : Requester) (v : Word32) (w : Bool) :
    s.OnlyReads (s.answered r v w) := by
  cases w
  · cases r <;> rfl
  · rfl

theorem State.OnlyReads.setReg (h : s.OnlyReads t) (p o : Nat) (v : Word32) : s.OnlyReads (t.setReg p o v) := by
  unfold State.OnlyReads at h
  exact congrArg (fun u : State => { u with regs := (t.setReg p o v).regs }) h

theorem State.OnlyReads.inc (h : s.OnlyReads t) (p o n : Nat) : s.OnlyReads (t.inc p o n) :=
  (h.setReg ..).setReg ..

theorem State.OnlyReads.dom (h : s.OnlyReads t) {d : Nat} : t.dom d = s.dom d := by
  rw [h]; rfl

theorem State.OnlyReads.modDom (h : s.OnlyReads t) (d : Nat) (f : Dom → Dom) :
    t.modDom d f = { s with regs := (t.modDom d f).regs, rdHost := (t.modDom d f).rdHost,
                            rdMgmt := (t.modDom d f).rdMgmt, pw := (t.modDom d f).pw } := by
  unfold State.OnlyReads at h
  exact congrArg (fun u : State => { u with pw := (t.modDom d f).pw }) h

end

/-- UNPOPULATED_ACCESS at an index that holds no page: what it answers (R28). -/
theorem exec_unpopulatedAccess (r : Requester) {off : Bar0} (w : Bool) (s : State)
    (hinfo : pageInfo (off.toNat / 4096) = none) :
    exec (.unpopulatedAccess r off w) s = .next (s.unpop r off.toNat w) := by
  change execUnpopulatedAccess r off w s = _
  simp [execUnpopulatedAccess, hinfo, ok]

/-- The record of a dropped access: its offset, whether the management controller made it, and VALID (R28, R52). -/
def accessRecord (r : Requester) (off : Nat) : Word32 :=
  BitVec.ofNat 32 (off + (if r = .mgmt then 2 ^ 30 else 0) + 2 ^ 31)

/-- DIR_UNPOP_CNT after one more access to no page. -/
def State.unpopCount (s : State) : Nat := min 0xFFFF (fld (s.reg pDIR 0xF00) 0 16 + 1)

/-- An access to no page is answered, recorded and counted. -/
theorem State.unpop_eq (s : State) (r : Requester) (off : Nat) (w : Bool) :
    s.unpop r off w = ((s.answered r 0 w).setReg pDIR 0x80C (accessRecord r off)).setReg pDIR 0xF00
      (BitVec.ofNat 32 (s.unpopCount + bnat (s.unpopCount == 0xFFFF) * 2 ^ 16)) := by
  have hold (v : Word32) : ((s.answered r 0 w).setReg pDIR 0x80C v).reg pDIR 0xF00 = s.reg pDIR 0xF00 := by
    rw [State.reg_setReg_ne _ _ (by decide), State.reg_answered]
  rw [State.unpopCount, ← hold (accessRecord r off)]
  rfl

/-- What an access to no page leaves (R28). -/
theorem State.unpop_spec {s t : State} {r : Requester} {off : Nat} {w : Bool} (ht : s.unpop r off w = t) :
    (w = false → t.lastRead r = 0) ∧ t.reg pDIR 0x80C = accessRecord r off ∧
      fld (t.reg pDIR 0xF00) 0 16 = min 0xFFFF (fld (s.reg pDIR 0xF00) 0 16 + 1) ∧
      t = { s with regs := t.regs, rdHost := t.rdHost, rdMgmt := t.rdMgmt } := by
  have hcount : s.unpopCount < 2 ^ 16 := by unfold State.unpopCount; omega
  rw [State.unpop_eq] at ht
  subst ht
  refine ⟨fun hw => ?_, ?_, ?_, ?_⟩
  · rw [State.lastRead_setReg, State.lastRead_setReg, State.lastRead_answered _ _ _ hw]
  · rw [State.reg_setReg_ne _ _ (by decide), State.reg_setReg_same]
  · rw [State.reg_setReg_same, fld_count_of_flag _ _ hcount, State.unpopCount]
  · exact ((s.answered_onlyReads r 0 w).setReg ..).setReg ..

/-- OFF_ACCESS to a page whose domain does not answer (R52). -/
theorem exec_offAccess (r : Requester) {off : Bar0} (w : Bool) {d : Nat} {s : State}
    (hdom : pageDomain (off.toNat / 4096) = some d) (hinfo : (pageInfo (off.toNat / 4096)).isSome = true)
    (hlive : s.domLive d = false) : exec (.offAccess r off w) s = .next (s.offDrop r off.toNat w) := by
  change execOffAccess r off w s = _
  simp [execOffAccess, State.pageLive, hdom, hinfo, hlive, ok]

/-- An access to a sleeping page is answered, recorded and counted, and marks the domain. -/
theorem State.offDrop_eq (s : State) (r : Requester) {off d : Nat} (w : Bool)
    (hdom : pageDomain (off / 4096) = some d) :
    s.offDrop r off w =
      (((s.answered r 0xFFFFFFFF w).setReg pAON 0x810 (accessRecord r off)).inc pAON 0xF00).modDom d
        (fun g => { g with offAcc := true }) := by
  simp only [State.offDrop, hdom]; rfl

/-- What an access to a sleeping page leaves (R52, R53). -/
theorem State.offDrop_spec {s t : State} {r : Requester} {off d : Nat} {w : Bool}
    (hdom : pageDomain (off / 4096) = some d) (ht : s.offDrop r off w = t) :
    (w = false → t.lastRead r = 0xFFFFFFFF) ∧ t.reg pAON 0x810 = accessRecord r off ∧
      t.reg64 pAON 0xF00 = s.reg64 pAON 0xF00 + 1 ∧ (t.dom d).offAcc = true ∧ (t.dom d).state = (s.dom d).state ∧
      t = { s with regs := t.regs, rdHost := t.rdHost, rdMgmt := t.rdMgmt, pw := t.pw } := by
  rw [State.offDrop_eq s r w hdom] at ht
  generalize accessRecord r off = v at ht ⊢
  subst ht
  refine ⟨fun hw => ?_, ?_, ?_, ?_, ?_, ?_⟩
  · rw [State.lastRead_modDom, State.lastRead_inc, State.lastRead_setReg, State.lastRead_answered _ _ _ hw]
  · rw [State.reg_modDom, State.reg_inc_ne _ _ (by decide) (by decide), State.reg_setReg_same]
  · rw [State.reg64_modDom, State.reg64_inc_same, State.reg64, State.reg_setReg_ne _ _ (by decide),
      State.reg_setReg_ne _ _ (by decide), State.reg_answered, State.reg_answered]
    rfl
  · rw [State.dom_modDom_same]
  · rw [State.dom_modDom_same, (((s.answered_onlyReads r 0xFFFFFFFF w).setReg ..).inc ..).dom]
  · exact (((s.answered_onlyReads r 0xFFFFFFFF w).setReg ..).inc ..).modDom ..

/-- SIZE_ERR on a page that answers is a violation of it (R30). -/
theorem exec_sizeErr (r : Requester) {off : Bar0} (w : Bool) {s : State}
    (hreach : s.reaches r (off.toNat / 4096) = true) :
    exec (.sizeErr r off w) s =
      .next ((s.answered r 0xFFFFFFFF w).violation r (off.toNat / 4096) off.toNat true w) := by
  have hgo := fun f => State.reach_of_reaches (o := off.toNat % 4096) (Nat.mod_lt _ (by decide)) w f hreach
  rw [Nat.div_add_mod'] at hgo
  exact congrArg Host.Outcome.next (hgo _)

/-- What a size error leaves in its page's header: PG_ERR_ADDR holds its capture (R34, R39). -/
theorem State.violation_size {s : State} {r : Requester} {p o : Nat} {w : Bool} {g : Page}
    (hg : (s.violation r p o true w).page p = g) :
    g.sizeErr = true ∧ bit g.evt 1 = true ∧ g.violCnt.toNat = min 0xFFFF ((s.page p).violCnt.toNat + 1) ∧
      (bit (s.page p).errAddr 31 = true → g.errAddr = (s.page p).errAddr) := by
  rw [State.violation, State.page_modPage_same] at hg
  subst hg
  exact ⟨Bool.or_true _, by simp [bit], toNat_satCount _, fun hvalid => if_pos hvalid⟩

/-! ### Reads of a page that answers -/

/-- Setting a latch changes the page's header and nothing else; no event rises. -/
theorem State.setLatch_frame (s : State) (r : Requester) (p : Nat) (l : Option (Nat × Word32)) :
    s.setLatch r p l = { s with pages := (s.setLatch r p l).pages } := by
  unfold State.setLatch
  rw [State.modPage_quiet]
  split <;> exact id

@[simp] theorem State.latch_setLatch (s : State) (r : Requester) (p : Nat) (l : Option (Nat × Word32)) :
    ((s.setLatch r p l).page p).latch r = l := by
  rw [State.setLatch, State.page_modPage_same]
  cases r <;> rfl

@[simp] theorem State.lastRead_setLatch (s : State) (r : Requester) (p : Nat) (l : Option (Nat × Word32)) :
    (s.setLatch r p l).lastRead r = s.lastRead r := State.lastRead_modPage ..

/-- An aligned read of a page that answers is the page's. -/
theorem State.busRead_of_reaches {s : State} {r : Requester} {off : Nat} (same : Option Word32)
    (halign : off % 4096 % 4 = 0) (hreach : s.reaches r (off / 4096) = true) :
    s.busRead r off same = s.pageRead r (off / 4096) (off % 4096) same := by
  have hgo := fun f => State.reach_of_reaches (o := off % 4096) (Nat.mod_lt _ (by decide)) false f hreach
  rw [Nat.div_add_mod'] at hgo
  rw [State.busRead, hgo, if_neg (by omega)]

/-- Outside a soft reset, a read with no latch pending reads the live register (R33, R37). -/
theorem State.pageRead_of_no_latch {s : State} {r : Requester} {p : Nat} (o : Nat) (same : Option Word32)
    (hrst : (s.page p).srst = false) (hlatch : (s.page p).latch r = none) :
    s.pageRead r p o same = s.plainRead r (blockType p) p o same := by
  rw [State.pageRead, if_neg (by simp [hrst]), hlatch]

/-- Outside a soft reset, a read of the high word whose latch is pending takes the latched value (R33, R37). -/
theorem State.pageRead_of_latch {s : State} {r : Requester} {p lo : Nat} {hi : Word32} (same : Option Word32)
    (hrst : (s.page p).srst = false) (hlatch : (s.page p).latch r = some (lo, hi)) :
    s.pageRead r p (lo + 4) same = (s.setLatch r p none).setRd r hi := by
  rw [State.pageRead, if_neg (by simp [hrst]), hlatch]
  exact if_pos rfl

/-- A read of a register without free bits returns its live value, latches a pair's high word, and clears a
read-to-clear register but for the measurement of the same cycle (R33, R56). -/
theorem State.plainRead_of_regRow {s : State} (r : Requester) {p o : Nat} {row : RegRow} (same : Option Word32)
    (hrow : regRow (blockType p) o = some row) (hfree : s.freeBits p o = 0) :
    s.plainRead r (blockType p) p o same =
      let t := s.setRd r (s.liveReg r p o)
      let u := if row.wide then t.setLatch r p (some (o, t.liveReg r p (o + 4))) else t
      if row.acc = .rc then u.setReg p o (same.getD 0) else u := by
  have hvalue : (s.liveReg r p o &&& ~~~0) ||| (BitVec.ofNat 32 0 &&& 0) = s.liveReg r p o := by
    have hones : ~~~(0 : Word32) = BitVec.allOnes 32 := by decide
    rw [hones, BitVec.and_allOnes]
    simp
  simp only [State.plainRead, hrow, hfree, if_true, hvalue]

/-- LOW_WORD_READ answers the state after the read. -/
theorem exec_lowWordRead (r : Requester) (off : Bar0) (s : State) :
    exec (.lowWordRead r off) s = .next (s.busRead r off.toNat none) := rfl

/-- RC_READ answers the state after the read. -/
theorem exec_rcRead (r : Requester) (off : Bar0) (m : Option Word32) (s : State) :
    exec (.rcRead r off m) s = .next (s.busRead r off.toNat m) := rfl

/-- Settles O3: the three dropped accesses leave their records, and a read goes through the requester's latch. -/
theorem accessesAndReads : Obligations.AccessesAndReads := by
  refine ⟨fun r off w s hinfo => ?_, fun r off w d s hdom hinfo hlive => ?_, fun r off w s hreach => ?_,
    fun r off s row => ?_, fun r off s hi => ?_, fun r off m s row => ?_⟩
  · exact ⟨_, exec_unpopulatedAccess r w s hinfo, State.unpop_spec rfl⟩
  · exact ⟨_, exec_offAccess r w hdom hinfo hlive, State.offDrop_spec hdom rfl⟩
  · obtain ⟨hsize, hevt, hcount, haddr⟩ :=
      State.violation_size (s := s.answered r 0xFFFFFFFF w) (r := r) (o := off.toNat) (w := w) rfl
    simp only [State.page_answered] at hcount haddr
    refine ⟨_, exec_sizeErr r w hreach, fun hw => ?_, hsize, hevt, hcount, haddr, fun q hq => ?_⟩
    · exact (State.lastRead_modPage ..).trans (s.lastRead_answered r 0xFFFFFFFF hw)
    · exact (State.page_modPage_ne _ _ hq).trans (State.page_answered ..)
  · intro p o halign hbody hreach hrst hlatch hrow hwide hacc hfree
    have hread : s.busRead r off.toNat none =
        (s.setRd r (s.liveReg r p o)).setLatch r p (some (o, s.liveReg r p (o + 4))) := by
      rw [State.busRead_of_reaches none halign hreach, State.pageRead_of_no_latch _ _ hrst hlatch,
        State.plainRead_of_regRow r none hrow hfree]
      simp only [hwide, hacc, if_true, if_false]
      rw [State.liveReg_setRd _ _ _ fun htrn => high_word_trn (htrn ▸ hrow) hwide]
    refine ⟨_, (exec_lowWordRead r off s).trans (congrArg _ hread), ?_, State.latch_setLatch .., ?_⟩
    · exact (State.lastRead_setLatch ..).trans (State.lastRead_setRd ..)
    · rw [State.setLatch_frame, State.setRd_frame]
  · intro p o halign hhigh hreach hrst hlatch
    have hread : s.busRead r off.toNat none = (s.setLatch r p none).setRd r hi := by
      have ho : o - 4 + 4 = o := by omega
      rw [State.busRead_of_reaches none halign hreach, ← State.pageRead_of_latch none hrst hlatch, ho]
    refine ⟨_, (exec_lowWordRead r off s).trans (congrArg _ hread), State.lastRead_setRd .., ?_⟩
    rw [State.page_setRd, State.latch_setLatch]
  · intro p o halign hbody hreach hrst hlatch hrow hacc hwide hfree
    have hread : s.busRead r off.toNat m = (s.setRd r (s.liveReg r p o)).setReg p o (m.getD 0) := by
      rw [State.busRead_of_reaches m halign hreach, State.pageRead_of_no_latch _ _ hrst hlatch,
        State.plainRead_of_regRow r m hrow hfree]
      simp [hwide, hacc]
    refine ⟨_, (exec_rcRead r off m s).trans (congrArg _ hread), State.lastRead_setRd .., State.reg_setReg_same ..,
      fun q k hne => ?_⟩
    rw [State.reg_setReg_ne _ _ hne, State.reg_setRd]

end Sys2Proof.Machine
end

section
/-! PROOF. What a write of a page's header does: PG_STAT clears, the soft reset and its end, and the two keys of
PG_LOCK. -/

namespace Sys2Proof.Machine

/-! ### PG_STAT -/

/-- A PG_STAT clear changes the page's header alone, and raises no event. -/
theorem State.statClear_frame (s : State) (p : Nat) (v hw : Word32) :
    s.statClear p v hw = { s with pages := (s.statClear p v hw).pages } := by
  unfold State.statClear
  rw [State.modPage_quiet _ _ _ id]

/-- Each sticky bit ends set where it was set and not written 1, or where the hardware sets it; PG_ERR_ADDR.VALID falls
with the last violation bit (R39, R55). -/
theorem State.statClear_spec (s : State) (p : Nat) (v hw : Word32) {g : Page} (hg : (s.statClear p v hw).page p = g) :
    g.woViol = (((s.page p).woViol && !bit v 8) || bit hw 8) ∧
      g.sizeErr = (((s.page p).sizeErr && !bit v 9) || bit hw 9) ∧
      g.offAccess = (((s.page p).offAccess && !bit v 10) || bit hw 10) ∧
      (g.woViol = false → g.sizeErr = false → bit g.errAddr 31 = false) := by
  rw [State.statClear, State.page_modPage_same] at hg
  subst hg
  refine ⟨rfl, rfl, rfl, fun hwo hsz => ?_⟩
  dsimp only at hwo hsz ⊢
  rw [hwo, hsz, if_neg (by decide)]
  simp [bit]

/-- PG_STAT_CLEAR that its page admits clears on the disarmed page. -/
theorem exec_pgStatClear {r : Requester} {page : Fin 16384} (v hw : Word32) {s : State}
    (hadm : s.admits r page 0x14 = true) :
    exec (.pgStatClear r page v hw) s = .next ((s.setArmed r page false).statClear page v hw) :=
  congrArg Host.Outcome.next
    (State.write_of_admits (by decide) (fun u => u.statClear page v hw) (writeOnce_header _ (by decide)) hadm)

/-! ### Soft reset -/

/-- The value at a key whose entries have been left out is the default. -/
theorem sget_filter_of_dropped {α : Type} (d : α) (f : Nat × α → Bool) (m : SMap α) {k : Nat}
    (hf : ∀ e : Nat × α, e.1 = k → f e = false) : sget d (m.filter f) k = d := by
  induction m with
  | nil => rfl
  | cons e m ih =>
    by_cases he : e.1 = k
    · rw [List.filter_cons_of_neg (by simp [hf e he]), ih]
    · rw [List.filter_cons]
      split
      · rw [sget, if_neg he, ih]
      · exact ih

/-- A register of the operation and status area that shows no condition of the chip reads its reset value (R35). -/
theorem State.reg_resetStatus (s : State) {p o : Nat} (hp : p < 16384) (hlo : 0x800 ≤ o) (hhi : o < 0xF00)
    (hkeep : s.keepsStatus (blockType p) o = false) : (s.resetStatus p).reg p o = regReset p o := by
  refine sget_filter_of_dropped _ _ _ fun e he => ?_
  have hpage : e.1 / 4096 % 16384 = p := by omega
  have hoff : e.1 % 4096 = o := by omega
  simp [hpage, hoff, hlo, hhi, hkeep]

/-- A soft reset of a page other than Directory and AON ends with the area reset and SRST set. -/
theorem State.softReset_eq (s : State) {p : Nat} (hbt : 2 ≤ blockType p) :
    ∃ u : State, s.softReset p = (u.resetStatus p).modPage p (fun g => { g with srst := true }) := by
  unfold blockType at hbt
  unfold State.softReset
  cases hinfo : pageInfo p with
  | none => simp [hinfo] at hbt
  | some x =>
    obtain ⟨bt, i⟩ := x
    rw [hinfo] at hbt
    exact ⟨s.blockReset bt i, if_neg (Nat.not_le.2 hbt)⟩

/-- SRST that its page admits resets the disarmed page. -/
theorem exec_srst {r : Requester} {page : Fin 16384} {s : State} (hadm : s.admits r page 0x10 = true) :
    exec (.srst r page) s = .next ((s.setArmed r page false).softReset page) :=
  congrArg Host.Outcome.next
    (State.write_of_admits (by decide) (fun u => u.softReset page) (writeOnce_header _ (by decide)) hadm)

/-- SOFT_RESET_END under a soft reset clears SRST. -/
theorem exec_softResetEnd {page : Fin 16384} {s : State} (hsrst : (s.page page).srst = true) :
    exec (.softResetEnd page) s = .next (s.modPage page (fun g => { g with srst := false })) :=
  congrArg Host.Outcome.next (if_pos hsrst)

/-- Settles O5: PG_STAT clears bit by bit, a soft reset empties the status area, and its end clears SRST alone. -/
theorem pageStatusAndSoftReset : Obligations.PageStatusAndSoftReset := by
  refine ⟨fun r page v hw s hadm => ?_, fun r page s hadm hbt => ?_, fun page s hsrst => ?_⟩
  · have hpage : (s.setArmed r page false).page page = (s.page page).arm r false := by simp [State.page_setArmed]
    obtain ⟨hwo, hsize, hoff, haddr⟩ := (s.setArmed r page false).statClear_spec page v hw rfl
    simp only [hpage, Page.arm_woViol, Page.arm_sizeErr, Page.arm_offAccess] at hwo hsize hoff
    refine ⟨_, exec_pgStatClear v hw hadm, hwo, hsize, hoff, haddr, ?_⟩
    rw [State.statClear_frame, State.setArmed_eq]
  · obtain ⟨u, hreset⟩ := (s.setArmed r page false).softReset_eq hbt
    refine ⟨_, (exec_srst hadm).trans (congrArg _ hreset), ?_, fun o hlo hhi hkeep => ?_⟩
    · rw [State.page_modPage_same]
    · rw [State.reg_modPage_of_lt _ _ _ hhi, State.reg_resetStatus u page.isLt hlo hhi (hkeep u)]
  · refine ⟨_, exec_softResetEnd hsrst, State.page_modPage_same .., fun q hq => State.page_modPage_ne _ _ hq, ?_⟩
    rw [State.modPage_quiet _ _ _ id]

/-! ### The two keys of PG_LOCK -/

/-- Only the power state and D3hot decide whether a page answers. -/
theorem State.reaches_congr {s t : State} (hpw : t.pw = s.pw) (hmgt : t.mgt = s.mgt) (r : Requester) (p : Nat) :
    t.reaches r p = s.reaches r p := by
  simp only [State.reaches, State.pageLive, State.domLive, State.dom, hpw, hmgt]

/-- The first key on a page that answers and is not locked arms it. -/
theorem exec_pgLockArm {r : Requester} {page : Fin 16384} {s : State} (hreach : s.reaches r page = true)
    (hlocked : (s.page page).locked = false) :
    exec (.pgLockArm r page) s = .next (s.setArmed r page true) := by
  have harm : s.lockArm r page = s.setArmed r page true := if_neg (by simp [hlocked])
  exact congrArg Host.Outcome.next ((State.reach_of_reaches (by decide) true _ hreach).trans harm)

/-- The second key on a page that answers is judged there. -/
theorem exec_pgLockLock {r : Requester} {page : Fin 16384} {s : State} (hreach : s.reaches r page = true) :
    exec (.pgLockLock r page) s = .next (s.lockLock r page) :=
  congrArg Host.Outcome.next (State.reach_of_reaches (by decide) true _ hreach)

/-- The second key on an unlocked page: it locks the disarmed page where the requester's sequence was armed. -/
theorem State.lockLock_of_unlocked {s : State} (r : Requester) {p : Nat} (hlocked : (s.page p).locked = false) :
    s.lockLock r p =
      if (s.page p).armed r then
        (s.setArmed r p false).modPage p (fun g => { g with locked := true, evt := g.evt ||| 8 })
      else s.setArmed r p false := by
  unfold State.lockLock
  exact if_neg (by simp [hlocked])

/-- The second key after the first locks the page, raises its event and ends the sequence (R44, R45). -/
theorem State.lockLock_of_armed {s : State} {r : Requester} {p : Nat} (hlocked : (s.page p).locked = false)
    (harmed : (s.page p).armed r = true) {g : Page} (hg : (s.lockLock r p).page p = g) :
    g.locked = true ∧ bit g.evt 3 = true ∧ g.armed r = false := by
  rw [State.lockLock_of_unlocked r hlocked, if_pos harmed, State.page_modPage_same, State.page_setArmed,
    if_pos rfl] at hg
  subst hg
  exact ⟨rfl, by simp [bit], (s.page p).arm_armed r false⟩

/-- Settles O6: the first key arms, the second locks an armed page and no other. -/
theorem lockKeySequence : Obligations.LockKeySequence := by
  refine ⟨fun r page s hreach hlocked => ?_, fun r page s hreach hlocked harmed => ?_,
    fun r page s hreach hlocked harmed => ?_⟩
  · have hpage : (s.setArmed r page true).page page = (s.page page).arm r true := by simp [State.page_setArmed]
    have harmed : ((s.setArmed r page true).page page).armed r = true := by rw [hpage, Page.arm_armed]
    have hopen : ((s.setArmed r page true).page page).locked = false := by rw [hpage, Page.arm_locked, hlocked]
    have hanswers : (s.setArmed r page true).reaches r page = true := by
      rw [State.setArmed_eq]
      exact (State.reaches_congr rfl rfl r page).trans hreach
    refine ⟨_, exec_pgLockArm hreach hlocked, harmed, hopen, ?_, _, exec_pgLockLock hanswers, ?_⟩
    · rw [State.setArmed_eq]
    · exact (State.lockLock_of_armed hopen harmed rfl).1
  · exact ⟨_, exec_pgLockLock hreach, State.lockLock_of_armed hlocked harmed rfl⟩
  · have hopen : ((s.lockLock r page).page page).locked = false := by
      rw [State.lockLock_of_unlocked r hlocked, if_neg (by simp [harmed]), State.page_setArmed, if_pos rfl,
        Page.arm_locked, hlocked]
    exact ⟨_, exec_pgLockLock hreach, hopen⟩

end Sys2Proof.Machine
end

section
/-! PROOF. What registers, events and log entries leave: the registers outside the words they write, and every part of
the state that is not theirs. What the bits of a word are after one of them is set or cleared. -/

namespace Sys2Proof.Machine

/-! ### Bits -/

/-- Setting a bit by a shifted one sets that bit and no other. -/
theorem getLsbD_or_shift {n : Nat} (w : BitVec n) {i : Nat} (hi : i < n) (j : Nat) :
    (w ||| 1#n <<< i).getLsbD j = (w.getLsbD j || decide (j = i)) := by
  rw [← BitVec.twoPow_eq, BitVec.getLsbD_or, BitVec.getLsbD_twoPow]
  simp [hi, eq_comm]

/-- Clearing a bit by a shifted one clears that bit and no other. -/
theorem getLsbD_and_not_shift {n : Nat} (w : BitVec n) (i j : Nat) :
    (w &&& ~~~(1#n <<< i)).getLsbD j = (w.getLsbD j && !decide (j = i)) := by
  by_cases hj : j < n
  · rw [← BitVec.twoPow_eq, BitVec.getLsbD_and, BitVec.getLsbD_not, BitVec.getLsbD_twoPow]
    by_cases hij : j = i
    · subst hij; simp [hj]
    · simp [hj, hij, Ne.symm hij]
  · simp [BitVec.getLsbD_of_ge _ _ (Nat.not_lt.1 hj)]

/-- A word with one bit set or cleared, bit by bit. -/
theorem bit_setBit {n : Nat} (w : BitVec n) {i : Nat} (hi : i < n) (b : Bool) (j : Nat) :
    bit (setBit w i b) j = if j = i then b else bit w j := by
  cases b
  · rw [bit, setBit, if_neg (by decide), getLsbD_and_not_shift]
    by_cases hij : j = i <;> simp [hij, bit]
  · rw [bit, setBit, if_pos rfl, getLsbD_or_shift w hi]
    by_cases hij : j = i <;> simp [hij, bit]

/-- A field below the bit that is set or cleared. -/
theorem fld_setBit_of_le (v : Word32) {i len : Nat} (hi : i < 32) (hle : len ≤ i) (b : Bool) :
    fld (setBit v i b) 0 len = fld v 0 len := by
  have hfld (w : Word32) : fld w 0 len = w.toNat % 2 ^ len := by simp [fld]
  rw [hfld, hfld]
  refine Nat.eq_of_testBit_eq fun j => ?_
  rw [Nat.testBit_mod_two_pow, Nat.testBit_mod_two_pow]
  by_cases hj : j < len
  · have hne : j ≠ i := by omega
    have := bit_setBit v hi b j
    simpa [hj, hne, bit, BitVec.getLsbD] using this
  · simp [hj]

/-- Bits that are cleared read 0 under their mask; bits that are set read their mask. -/
theorem and_not_and_self {n : Nat} (w m : BitVec n) : w &&& ~~~m &&& m = 0#n := by
  ext i hi
  simp

theorem or_and_self {n : Nat} (w m : BitVec n) : (w ||| m) &&& m = m := by
  refine BitVec.eq_of_getElem_eq fun i hi => ?_
  rw [BitVec.getElem_and, BitVec.getElem_or]
  cases m[i] <;> simp

/-- A word keeps every bit that it had when others are set. -/
theorem or_and_left_self {n : Nat} (w m : BitVec n) : (w ||| m) &&& w = w := by
  rw [BitVec.or_comm]; exact or_and_self m w

/-! ### Runs of writes -/

/-- A run of values at rising keys, read at one key: a value of the run, or what was there. -/
theorem sget_ssets {α : Type} [DecidableEq α] (d : α) : ∀ (vs : List α) (m : SMap α) (k q : Nat),
    sget d (ssets d m k vs) q = if k ≤ q ∧ q < k + vs.length then vs.getD (q - k) d else sget d m q
  | [], m, k, q => (if_neg (by simp only [List.length_nil]; omega)).symm
  | v :: vs, m, k, q => by
    rw [ssets, sget_ssets d vs, sget_sset, List.length_cons]
    by_cases hq : q = k
    · subst hq
      rw [if_neg (by omega), if_pos rfl, if_pos (by omega), Nat.sub_self, List.getD_cons_zero]
    · by_cases hrun : k + 1 ≤ q ∧ q < k + 1 + vs.length
      · obtain ⟨i, rfl⟩ := Nat.exists_eq_add_of_le hrun.1
        rw [if_pos hrun, if_pos (by omega), Nat.add_sub_cancel_left, show k + 1 + i - k = i + 1 by omega,
          List.getD_cons_succ]
      · rw [if_neg hrun, if_neg hq, if_neg (by omega)]

/-! ### Registers -/

theorem State.reg64_congr {s t : State} (h : t.regs = s.regs) (p o : Nat) : t.reg64 p o = s.reg64 p o := by
  simp [State.reg64, State.reg_congr h]

/-- A write of a register outside a pair leaves the pair. -/
theorem State.reg64_setReg_ne (s : State) {p o q k : Nat} (v : Word32)
    (h : q * 4096 + (k + 4) < p * 4096 + o ∨ p * 4096 + o < q * 4096 + k) :
    (s.setReg p o v).reg64 q k = s.reg64 q k := by
  rw [State.reg64, State.reg64, State.reg_setReg_ne _ _ (by omega), State.reg_setReg_ne _ _ (by omega)]

/-- A write of a pair leaves every register outside it. -/
theorem State.reg_setReg64_ne (s : State) {p o q k : Nat} (v : Word64)
    (h : q * 4096 + k < p * 4096 + o ∨ p * 4096 + (o + 4) < q * 4096 + k) :
    (s.setReg64 p o v).reg q k = s.reg q k := by
  rw [State.setReg64, State.reg_setReg_ne _ _ (by omega), State.reg_setReg_ne _ _ (by omega)]

/-- A write of a pair leaves every pair apart from it. -/
theorem State.reg64_setReg64_ne (s : State) {p o q k : Nat} (v : Word64)
    (h : q * 4096 + (k + 4) < p * 4096 + o ∨ p * 4096 + (o + 4) < q * 4096 + k) :
    (s.setReg64 p o v).reg64 q k = s.reg64 q k := by
  rw [State.reg64, State.reg64, State.reg_setReg64_ne _ _ (by omega), State.reg_setReg64_ne _ _ (by omega)]

/-- Counting leaves every register outside the counter. -/
theorem State.reg_inc_of_apart (s : State) {p o q k : Nat} (n : Nat)
    (h : q * 4096 + k < p * 4096 + o ∨ p * 4096 + (o + 4) < q * 4096 + k) : (s.inc p o n).reg q k = s.reg q k :=
  State.reg_setReg64_ne _ _ h

/-- Counting leaves every pair apart from the counter. -/
theorem State.reg64_inc_ne (s : State) {p o q k : Nat} (n : Nat)
    (h : q * 4096 + (k + 4) < p * 4096 + o ∨ p * 4096 + (o + 4) < q * 4096 + k) :
    (s.inc p o n).reg64 q k = s.reg64 q k := State.reg64_setReg64_ne _ _ h

/-- A change of a header, with the event it may signal, leaves every register but the HIF page's count of messages. -/
theorem State.reg_modPage_of_apart (s : State) (p : Nat) (f : Page → Page) {q k : Nat}
    (h : q * 4096 + k < pHIF * 4096 + 0xF38 ∨ pHIF * 4096 + (0xF38 + 4) < q * 4096 + k) :
    (s.modPage p f).reg q k = s.reg q k := by
  unfold State.modPage State.signalVec
  simp only []
  split
  · split
    · rfl
    · rw [State.reg_dmaOut, State.reg_inc_of_apart _ _ h]; rfl
  · rfl

theorem State.reg64_modPage_of_apart (s : State) (p : Nat) (f : Page → Page) {q k : Nat}
    (h : q * 4096 + (k + 4) < pHIF * 4096 + 0xF38 ∨ pHIF * 4096 + (0xF38 + 4) < q * 4096 + k) :
    (s.modPage p f).reg64 q k = s.reg64 q k := by
  rw [State.reg64, State.reg64, State.reg_modPage_of_apart _ _ _ (by omega),
    State.reg_modPage_of_apart _ _ _ (by omega)]

/-- An event leaves every register but the HIF page's count of messages. -/
theorem State.reg_raise_of_apart (s : State) (p b : Nat) {q k : Nat}
    (h : q * 4096 + k < pHIF * 4096 + 0xF38 ∨ pHIF * 4096 + (0xF38 + 4) < q * 4096 + k) :
    (s.raise p b).reg q k = s.reg q k := State.reg_modPage_of_apart _ _ _ h

theorem State.reg64_raise_of_apart (s : State) (p b : Nat) {q k : Nat}
    (h : q * 4096 + (k + 4) < pHIF * 4096 + 0xF38 ∨ pHIF * 4096 + (0xF38 + 4) < q * 4096 + k) :
    (s.raise p b).reg64 q k = s.reg64 q k := State.reg64_modPage_of_apart _ _ _ h

/-- An event leaves every register below the counters. -/
theorem State.reg_raise_of_lt (s : State) (p b : Nat) {q k : Nat} (hk : k < 0xF00) :
    (s.raise p b).reg q k = s.reg q k := State.reg_modPage_of_lt _ _ _ hk

/-- An event that is raised stands in its page's header. -/
theorem State.evt_raise (s : State) (p : Nat) {b : Nat} (hb : b < 32) : bit ((s.raise p b).page p).evt b = true := by
  rw [State.raise, State.page_modPage_same]
  exact (getLsbD_or_shift _ hb b).trans (by simp)

/-! ### What a noted state keeps

`State.noted` closes over the operations that count, store registers, raise events and log. -/

section
variable {s t u : State}

theorem State.noted.refl (s : State) : s.noted s := rfl

theorem State.noted.trans (h : s.noted t) (h' : t.noted u) : s.noted u := by
  unfold State.noted at h h'
  exact h'.trans (congrArg (fun x : State => { x with
    regs := u.regs, pages := u.pages, log := u.log, free := u.free, msixPend := u.msixPend, out := u.out,
    dmaWait := u.dmaWait }) h)

theorem State.setReg_noted (s : State) (p o : Nat) (v : Word32) : s.noted (s.setReg p o v) := rfl

theorem State.setReg64_noted (s : State) (p o : Nat) (v : Word64) : s.noted (s.setReg64 p o v) := rfl

theorem State.inc_noted (s : State) (p o n : Nat) : s.noted (s.inc p o n) := rfl

theorem State.modPage_noted (s : State) (p : Nat) (f : Page → Page) : s.noted (s.modPage p f) := by
  unfold State.modPage State.signalVec State.dmaOut
  simp only []
  repeat' split
  all_goals rfl

theorem State.raise_noted (s : State) (p b : Nat) : s.noted (s.raise p b) := s.modPage_noted p _

theorem State.noted.setReg (h : s.noted t) (p o : Nat) (v : Word32) : s.noted (t.setReg p o v) :=
  h.trans (t.setReg_noted p o v)

theorem State.noted.setReg64 (h : s.noted t) (p o : Nat) (v : Word64) : s.noted (t.setReg64 p o v) :=
  h.trans (t.setReg64_noted p o v)

theorem State.noted.inc (h : s.noted t) (p o n : Nat) : s.noted (t.inc p o n) := h.trans (t.inc_noted p o n)

theorem State.noted.raise (h : s.noted t) (p b : Nat) : s.noted (t.raise p b) := h.trans (t.raise_noted p b)

theorem State.noted.pw (h : s.noted t) : t.pw = s.pw := by rw [h]
theorem State.noted.nv (h : s.noted t) : t.nv = s.nv := by rw [h]
theorem State.noted.chk (h : s.noted t) : t.chk = s.chk := by rw [h]
theorem State.noted.mem (h : s.noted t) : t.mem = s.mem := by rw [h]

end

/-! ### Folds -/

/-- What every step of a fold keeps, the fold keeps. -/
theorem foldl_keeps {α β γ : Type} (view : α → γ) (f : α → β → α) (hf : ∀ a b, view (f a b) = view a) (l : List β)
    (a : α) : view (l.foldl f a) = view a := by
  induction l generalizing a with
  | nil => rfl
  | cons b l ih => rw [List.foldl_cons, ih, hf]

/-! ### Writes through the gate -/

/-- A write command that its page admits has its effect on a state that differs in the page headers alone. -/
theorem State.write_of_admits_frame {s : State} {r : Requester} {p o : Nat} (ho : o < 4096) (f : State → State)
    (h : s.admits r p o = true) : ∃ g : SMap Page, s.write r p o f = f { s with pages := g } := by
  obtain ⟨u, hgate, hu, -⟩ := State.regGate_of_admits_frame f h
  refine ⟨u.pages, ?_⟩
  rw [State.write, State.reach_of_reaches ho true _ (State.reaches_of_admits h), hgate, ← hu]

end Sys2Proof.Machine
end

section
/-! PROOF. The clock sources: PLL lock and loss, the slow clock and the PCI Express reference (03_power_clocks.md R58, R60,
R61). What detecting an error counts, and what it queues. -/

namespace Sys2Proof.Machine

/-! ### Detecting an error -/

/-- A FATAL error is detected: it stands in the queue, and the registers count it. -/
theorem State.detect_fatal (s : State) (st : BitVec 16) (b i : Nat) (x : Option CtxId) (n : Nat) {t : State}
    (ht : s.detect cFATAL st b i x n = t) :
    t.log.fatal = true ∧ (∃ e ∈ t.log.queue, e.cls = cFATAL ∧ e.status = st) ∧ t.regs = (s.inc pERR 0xF18).regs := by
  rw [State.detect, if_pos rfl] at ht
  subst ht
  exact ⟨rfl, ⟨_, List.mem_append_right _ (List.mem_cons_self ..), rfl, rfl⟩, rfl⟩

/-- A CORRECTED error is counted, beside the words that count an overflow of the log; it asks for no reset. -/
theorem State.detect_corrected (s : State) (st : BitVec 16) (b i : Nat) (x : Option CtxId) (n : Nat) {t : State}
    (ht : s.detect cCORRECTED st b i x n = t) :
    t.log.fatal = s.log.fatal ∧
      ∀ q k, (q * 4096 + k < pAON * 4096 + 0xF18 ∨ pAON * 4096 + 0xF1C < q * 4096 + k) →
        t.reg q k = (s.inc pERR 0xF00).reg q k := by
  rw [State.detect, if_neg (by decide)] at ht
  simp only [] at ht
  subst ht
  refine ⟨by repeat' split
             all_goals rfl, fun q k h => ?_⟩
  repeat' split
  · rfl
  · rw [State.reg_setReg_ne _ _ (by omega)]; rfl
  · rw [State.reg_setReg_ne _ _ (by omega), State.reg_setReg_ne _ _ (by omega)]; rfl
  · rw [State.reg_setReg_ne _ _ (by omega)]; rfl

theorem State.reg64_usedFree (s : State) (q k : Nat) : s.usedFree.reg64 q k = s.reg64 q k := rfl

/-! ### The commands -/

/-- PLL_LOCK of a running PLL sets its lock. -/
theorem exec_pllLock {p : Fin 26} {s : State} (hrun : s.pw.pllRun.getLsbD p = true) :
    exec (.pllLock p) s = .next { s with pw := { s.pw with pllLock := s.pw.pllLock ||| 1 <<< p.val } } :=
  congrArg Host.Outcome.next (if_pos hrun)

/-- What the loss of a PLL's lock leaves: the lock cleared, counted, its event and its FATAL error. -/
def State.pllLost (s : State) (p : Fin 26) : State :=
  let t : State := { s with pw := { s.pw with pllLock := s.pw.pllLock &&& ~~~(1#26 <<< p.val) } }
  ((t.inc pCLK 0xF00).raise pCLK 16).detectOpen cFATAL stPLL_UNLOCK 0x03 0 none

/-- PLL_UNLOCK of a running, locked PLL loses its lock. -/
theorem exec_pllUnlock {p : Fin 26} {s : State} (hrun : s.pw.pllRun.getLsbD p = true)
    (hlock : s.pw.pllLock.getLsbD p = true) : exec (.pllUnlock p) s = .next (s.pllLost p) :=
  congrArg Host.Outcome.next (if_pos ⟨hrun, hlock⟩)

/-- What the loss of the slow clock leaves: the fallback, the sticky bit, its event and its CORRECTED error. -/
def State.slowLost (s : State) : State :=
  let t : State := { s with pw := { s.pw with slowPresent := false, fallback := true } }
  ((t.setReg pCLK 0x80C (setBit (t.reg pCLK 0x80C) 0 true)).raise pCLK 17).detectOpen cCORRECTED stSLOWCLK_LOST
    0x03 0 none

/-- SLOWCLK_LOST with the slow clock present loses it. -/
theorem exec_slowclkLost {s : State} (hslow : s.pw.slowPresent = true) : exec .slowclkLost s = .next s.slowLost :=
  congrArg Host.Outcome.next (if_pos hslow)

/-- SLOWCLK_SWITCH goes back to the slow clock where it runs on the fallback and has not gone back before. -/
theorem exec_slowclkSwitch {s : State} (hslow : s.pw.slowPresent = true) (hfall : s.pw.fallback = true)
    (hswitched : s.pw.switched = false) :
    exec .slowclkSwitch s = .next { s with pw := { s.pw with fallback := false, switched := true } } :=
  congrArg Host.Outcome.next (if_pos ⟨hslow, hfall, by rw [hswitched]; rfl⟩)

/-- PCIE_REFERENCE_LOST records the loss. -/
theorem exec_pcieReferenceLost (s : State) :
    exec .pcieReferenceLost s = .next (({ s with pw := { s.pw with pcieRef := false } } : State).setReg pCLK 0x80C
      (setBit (s.reg pCLK 0x80C) 2 true)) := rfl

/-- What losing a lock leaves (R58, R587). -/
theorem State.pllLost_spec {s t : State} {p : Fin 26} (ht : s.pllLost p = t) :
    t.pw.pllLock = s.pw.pllLock &&& ~~~(1#26 <<< p.val) ∧ t.reg64 pCLK 0xF00 = s.reg64 pCLK 0xF00 + 1 ∧
      bit (t.page pCLK).evt 16 = true ∧ t.log.fatal = true ∧
      ∃ e ∈ t.log.queue, e.cls = cFATAL ∧ e.status = stPLL_UNLOCK := by
  unfold State.pllLost State.detectOpen at ht
  simp only [] at ht
  obtain ⟨hfatal, hentry, hregs⟩ := State.detect_fatal _ _ _ _ _ _ ht
  refine ⟨?_, ?_, ?_, hfatal, hentry⟩
  · rw [← ht]; simp [State.usedFree]
  · rw [State.reg64_congr hregs, State.reg64_inc_ne _ _ (by decide), State.reg64_usedFree,
      State.reg64_raise_of_apart _ _ _ (by decide), State.reg64_inc_same]
    rfl
  · rw [← ht, State.page, State.detect_pages]
    exact State.evt_raise _ pCLK (by decide)

/-- What losing the slow clock leaves (R60, R587). -/
theorem State.slowLost_spec {s t : State} (ht : s.slowLost = t) :
    t.pw = { s.pw with slowPresent := false, fallback := true } ∧ bit (t.reg pCLK 0x80C) 0 = true ∧
      t.reg64 pERR 0xF00 = s.reg64 pERR 0xF00 + 1 ∧ t.log.fatal = s.log.fatal := by
  unfold State.slowLost State.detectOpen at ht
  simp only [] at ht
  obtain ⟨hfatal, hregs⟩ := State.detect_corrected _ _ _ _ _ _ ht
  refine ⟨?_, ?_, ?_, ?_⟩
  · rw [← ht]; simp [State.usedFree]
  · rw [hregs _ _ (by decide), State.reg_inc_of_apart _ _ (by decide)]
    refine (congrArg (fun w => bit w 0) (State.reg_raise_of_lt _ _ _ (by decide))).trans ?_
    rw [State.reg_setReg_same, bit_setBit _ (by decide), if_pos rfl]
  · rw [State.reg64, hregs _ _ (by decide), hregs _ _ (by decide)]
    refine (State.reg64_inc_same _ pERR 0xF00 1).trans (congrArg (· + 1) ?_)
    rw [State.reg64_usedFree, State.reg64_raise_of_apart _ _ _ (by decide), State.reg64_setReg_ne _ _ (by decide)]
    rfl
  · rw [hfatal]; simp [State.usedFree]

/-- Settles O7: each clock command answers the state that its `exec_` lemma names. -/
theorem clockSources : Obligations.ClockSources := by
  refine ⟨fun p s hrun => ?_, fun p s hrun hlock => ?_, fun s hslow => ?_, fun s hslow hfall hswitched => ?_,
    fun s => ?_⟩
  · have hbits := getLsbD_or_shift s.pw.pllLock p.isLt
    refine ⟨_, exec_pllLock hrun, ?_, fun q hq => ?_, rfl⟩
    · exact (hbits p).trans (by simp)
    · exact (hbits q).trans (by simp [hq])
  · obtain ⟨hpll, hcount, hevt, hfatal, hentry⟩ := State.pllLost_spec (s := s) (p := p) rfl
    refine ⟨_, exec_pllUnlock hrun hlock, ?_, fun q hq => ?_, hcount, hevt, hfatal, hentry⟩
    · rw [hpll, getLsbD_and_not_shift]; simp
    · rw [hpll, getLsbD_and_not_shift]; simp [hq]
  · obtain ⟨hpw, hloss, hcount, hfatal⟩ := State.slowLost_spec (s := s) rfl
    exact ⟨_, exec_slowclkLost hslow, by rw [hpw], by rw [hpw], by rw [hpw], hloss, hcount, hfatal⟩
  · exact ⟨_, exec_slowclkSwitch hslow hfall hswitched, rfl, rfl, rfl⟩
  · refine ⟨_, exec_pcieReferenceLost s, rfl, ?_, rfl⟩
    rw [State.reg_setReg_same, bit_setBit _ (by decide), if_pos rfl]

end Sys2Proof.Machine
end

section
/-! PROOF. The switched domains: clock gating, sleep, wakes, holds and wake sets (03_power_clocks.md R63 to R76). A wake
request rouses its domain, and no later request undoes that. -/

namespace Sys2Proof.Machine

/-! ### A change of one domain -/

theorem State.dom_modDom (s : State) (d e : Nat) (f : Dom → Dom) :
    (s.modDom d f).dom e = if e = d then f (s.dom d) else s.dom e := sget_smod ..

/-- What the domains are rests on the power state alone. -/
theorem State.dom_congr {s t : State} (h : t.pw = s.pw) (d : Nat) : t.dom d = s.dom d := by
  simp [State.dom, h]

/-! ### Sleep -/

/-- The pages of a domain allow no state deeper than OFF. -/
theorem State.allowed_le (s : State) (d : Nat) : s.allowed d ≤ 3 := by
  have hfold : ∀ (ps : List Nat) (m : Nat), m ≤ 3 → ps.foldl (fun m p => min m (s.page p).allow.toNat) m ≤ 3 := by
    intro ps
    induction ps with
    | nil => exact fun m hm => hm
    | cons p ps ih => exact fun m hm => ih _ ((min_le_left _ _).trans hm)
  exact hfold _ 3 (le_refl 3)

/-- The deepest state is OFF. -/
theorem State.sleepDepth_le (s : State) (d : Nat) : s.sleepDepth d ≤ 3 := by
  unfold State.sleepDepth
  split
  · exact le_refl 3
  · exact (min_le_right _ _).trans (s.allowed_le d)

/-- A domain that is held may not sleep (R76). -/
theorem State.maySleep_of_hold {s : State} {d : Nat} (h : (s.dom d).hold = true) : s.maySleep d = false := by
  simp [State.maySleep, h]

/-- CLOCK_GATE_ENTRY gates an ON domain that may sleep so far. -/
theorem exec_clockGateEntry {d : DomId} {s : State} (hon : s.domOn d = true) (hmay : s.maySleep d = true)
    (hdepth : 1 ≤ s.sleepDepth d) :
    exec (.clockGateEntry d) s = .next (s.modDom d (fun g => { g with state := .cg })) :=
  congrArg Host.Outcome.next (if_pos ⟨hon, hmay, hdepth⟩)

/-- CLOCK_GATE_ENTRY of a domain that may not sleep changes nothing. -/
theorem exec_clockGateEntry_of_not {d : DomId} {s : State} (hmay : s.maySleep d = false) :
    exec (.clockGateEntry d) s = .next s :=
  congrArg Host.Outcome.next (if_neg (by simp [hmay]))

/-- DEEP_HYST_EXPIRY starts the sleep of a gated domain to the deepest state it may enter. -/
theorem exec_deepHystExpiry {d : DomId} {s : State} (hcg : (s.dom d).state = .cg) (hmay : s.maySleep d = true)
    (hdepth : 2 ≤ s.sleepDepth d) :
    exec (.deepHystExpiry d) s = .next (s.modDom d (fun g =>
      { g with sleepTo := some (if s.sleepDepth d = 3 then .off else .retain) })) := by
  change execDeepHystExpiry d s = _
  rw [execDeepHystExpiry, if_pos ⟨hcg, hmay⟩]
  by_cases hoff : s.sleepDepth d = 3
  · simp [hoff]
  · have hretain : s.sleepDepth d = 2 := by have := s.sleepDepth_le d; omega
    simp [hretain]

/-- DEEP_HYST_EXPIRY of a domain that may not sleep changes nothing. -/
theorem exec_deepHystExpiry_of_not {d : DomId} {s : State} (hmay : s.maySleep d = false) :
    exec (.deepHystExpiry d) s = .next s :=
  congrArg Host.Outcome.next (if_neg (by simp [hmay]))

/-- DOMAIN_SLEEP_DONE completes the sleep under way. -/
theorem exec_domainSleepDone {d : DomId} {s : State} {to_ : DState} (hsleep : (s.dom d).sleepTo = some to_) :
    exec (.domainSleepDone d) s = .next (s.sleepDone d to_) := by
  change execDomainSleepDone d s = _
  rw [execDomainSleepDone, hsleep]

/-- Stopping a cluster's PLL leaves the domains. -/
theorem State.dom_pllStop (s : State) (c e : Nat) : (s.pllStop c).dom e = s.dom e := by
  unfold State.pllStop
  split <;> rfl

/-- A sleep to RETAIN that no wake waits for ends in RETAIN. -/
theorem State.dom_sleepDone_retain {s : State} {d : Nat} (hwake : (s.dom d).wakeAfter = false) :
    (s.sleepDone d .retain).dom d = { s.dom d with state := .retain, sleepTo := none } := by
  have hlatches (l : List Nat) (u : State) :
      (l.foldl (fun (x : State) p => x.dropLatches p) u).dom d = u.dom d :=
    foldl_keeps (fun x : State => x.dom d) (fun (x : State) p => x.dropLatches p)
      (fun x p => State.dom_congr (x.modPage_pw p _) d) l u
  unfold State.sleepDone
  simp only [reduceCtorEq, if_false]
  generalize hu : (domainPages d).foldl (fun (x : State) p => x.dropLatches p) (s.modDom d _) = u
  have hdom : u.dom d = { s.dom d with state := .retain, sleepTo := none } := by
    rw [← hu, hlatches, State.dom_modDom_same]
  generalize hv : (if 984 ≤ d ∧ d < 992 then u.modStack (d - 984) _ else u) = v
  have hv' : v.dom d = u.dom d := by rw [← hv]; split <;> rfl
  generalize hw : (if 768 ≤ d ∧ d < 960 then v.pllStop ((d - 768) / 12)
    else if 960 ≤ d ∧ d < 976 then v.pllStop (d - 960) else v) = w
  have hw' : w.dom d = v.dom d := by
    rw [← hw]
    split
    · exact State.dom_pllStop ..
    · split
      · exact State.dom_pllStop ..
      · rfl
  have hall : w.dom d = { s.dom d with state := .retain, sleepTo := none } := by rw [hw', hv', hdom]
  rw [if_neg (by simp [hall, hwake]), hall]

/-- Settles O8: the three commands change their domain alone, and a held domain not at all. -/
theorem sleepEntry : Obligations.SleepEntry := by
  refine ⟨fun d s hon hmay hdepth => ?_, fun d s hcg hmay hdepth => ?_, fun d s hhold => ?_, fun d s hhold => ?_,
    fun d s hsleep hwake => ?_⟩
  · exact ⟨_, exec_clockGateEntry hon hmay hdepth, State.dom_modDom_same ..,
      fun e he => State.dom_modDom_ne _ _ he, rfl⟩
  · refine ⟨_, exec_deepHystExpiry hcg hmay hdepth, ?_, ?_, fun e he => State.dom_modDom_ne _ _ he, rfl⟩
    · rw [State.dom_modDom_same]
    · rw [State.dom_modDom_same]; exact hcg
  · exact ⟨_, exec_clockGateEntry_of_not (State.maySleep_of_hold hhold), rfl⟩
  · exact ⟨_, exec_deepHystExpiry_of_not (State.maySleep_of_hold hhold), rfl⟩
  · exact ⟨_, exec_domainSleepDone hsleep, State.dom_sleepDone_retain hwake⟩

/-! ### The wake that D-Deep holds back -/

/-- A link whose wake is under way while the device is in D-Deep. -/
def deepLinkWake : State := { pw := { doms := [(992, { waking := true })], deep := true } }

/-- Refutes O9: in D-Deep a wake does not complete (R79), which the clause on DOMAIN_WAKE_DONE does not except. In
`deepLinkWake` the link of domain 992 has no parent and needs no PLL, no message waits, and the domain stays OFF. -/
theorem not_wakeRequestsAndCompletion : ¬ Obligations.WakeRequestsAndCompletion := by
  rintro ⟨-, -, -, -, -, hdone, -⟩
  have hparents : ∀ e ∈ domParents (992 : DomId), deepLinkWake.domOn e = true := by decide
  obtain ⟨t, ht, hon, -⟩ := hdone 992 0 deepLinkWake (by decide) hparents (by decide) (by decide)
  have hstays : exec (.domainWakeDone 992 0) deepLinkWake = .next deepLinkWake :=
    congrArg Host.Outcome.next (if_neg (by decide))
  rw [hstays] at ht
  cases ht
  exact absurd hon (by decide)

/-! ### Wakes -/

/-- A domain that is ON, waking, or whose wake waits for the sleep under way. -/
def Dom.roused (g : Dom) : Prop := g.state = .on ∨ g.waking = true ∨ g.wakeAfter = true

@[simp] theorem State.fusedOff_wakeOne (s : State) (d a : Nat) : (s.wakeOne d).fusedOff a = s.fusedOff a := by
  simp [State.fusedOff, State.fuse]

@[simp] theorem State.isFenced_wakeOne (s : State) (d a : Nat) : (s.wakeOne d).isFenced a = s.isFenced a := by
  simp [State.isFenced, State.arr]

/-- A change of one domain that rouses it leaves every domain as it was or roused. -/
theorem State.modDom_rouses (s : State) (d e : Nat) {f : Dom → Dom} (hf : ∀ g, (f g).roused) :
    (s.modDom d f).dom e = s.dom e ∨ ((s.modDom d f).dom e).roused := by
  rw [State.dom_modDom]
  split
  · exact .inr (hf _)
  · exact .inl rfl

/-- A wake request leaves every domain as it was or roused. -/
theorem State.wakeOne_keeps_or_rouses (s : State) (d e : Nat) :
    (s.wakeOne d).dom e = s.dom e ∨ ((s.wakeOne d).dom e).roused := by
  unfold State.wakeOne
  simp only []
  split
  · exact .inl rfl
  split
  · exact .inl rfl
  split
  · split
    · exact s.usedFree.modDom_rouses d e fun g => .inl rfl
    · exact s.usedFree.modDom_rouses d e fun g => .inr (.inr rfl)
  split
  · exact .inl rfl
  · have hwaking := s.modDom_rouses d e (f := fun g => { g with waking := true }) fun g => .inr (.inl rfl)
    split <;> exact hwaking

/-- A wake request rouses its domain, unless that is an array fused off (R72, R75). -/
theorem State.wakeOne_rouses {s : State} {d : Nat} (hd : d < 1012) (hfuse : 768 ≤ d ∨ s.fusedOff d = false) :
    ((s.wakeOne d).dom d).roused := by
  unfold State.wakeOne
  simp only []
  rw [if_neg (by omega), if_neg (by rintro ⟨hlt, hoff⟩; rcases hfuse with h | h; omega; simp [h] at hoff)]
  split
  · split
    · left; rw [State.dom_modDom_same]
    · right; right; rw [State.dom_modDom_same]
  split
  · next h => exact h.imp_right .inl
  · have hwaking := congrArg Dom.waking (s.dom_modDom_same d (fun g => { g with waking := true }))
    split <;> exact .inr (.inl hwaking)

/-- What is roused stays so through wake requests. -/
theorem State.roused_foldl_wakeOne {s : State} {e : Nat} (h : (s.dom e).roused) (l : List Nat) :
    ((l.foldl (fun s d => s.wakeOne d) s).dom e).roused := by
  induction l generalizing s with
  | nil => exact h
  | cons d l ih =>
    refine ih ?_
    obtain hkeep | hrouse := s.wakeOne_keeps_or_rouses d e
    · rw [hkeep]; exact h
    · exact hrouse

theorem State.fusedOff_foldl_wakeOne (s : State) (l : List Nat) (a : Nat) :
    (l.foldl (fun s d => s.wakeOne d) s).fusedOff a = s.fusedOff a :=
  foldl_keeps (fun s : State => s.fusedOff a) _ (fun s d => s.fusedOff_wakeOne d a) l s

theorem State.isFenced_foldl_wakeOne (s : State) (l : List Nat) (a : Nat) :
    (l.foldl (fun s d => s.wakeOne d) s).isFenced a = s.isFenced a :=
  foldl_keeps (fun s : State => s.isFenced a) _ (fun s d => s.isFenced_wakeOne d a) l s

@[simp] theorem State.fusedOff_wakeDom (s : State) (d a : Nat) : (s.wakeDom d).fusedOff a = s.fusedOff a := by
  unfold State.wakeDom
  split
  · rfl
  · exact s.fusedOff_foldl_wakeOne ..

@[simp] theorem State.isFenced_wakeDom (s : State) (d a : Nat) : (s.wakeDom d).isFenced a = s.isFenced a := by
  unfold State.wakeDom
  split
  · rfl
  · exact s.isFenced_foldl_wakeOne ..

/-- What is roused stays so through a wake. -/
theorem State.roused_wakeDom {s : State} {e : Nat} (h : (s.dom e).roused) (d : Nat) : ((s.wakeDom d).dom e).roused := by
  unfold State.wakeDom
  split
  · exact h
  · exact State.roused_foldl_wakeOne h _

/-- A domain that a wake may name: no array that is fused off or fenced (R75, R143). -/
def State.Wakeable (s : State) (d : Nat) : Prop := 768 ≤ d ∨ (s.fusedOff d = false ∧ s.isFenced d = false)

theorem State.Wakeable.not_barred {s : State} {d : Nat} (h : s.Wakeable d) :
    ¬(d < 768 ∧ (s.fusedOff d = true ∨ s.isFenced d = true)) := by
  rintro ⟨hlt, hbarred⟩
  obtain hge | ⟨hfuse, hfence⟩ := h
  · omega
  · simp [hfuse, hfence] at hbarred

/-- A wake rouses its domain. -/
theorem State.wakeDom_rouses {s : State} {d : Nat} (hd : d < 1012) (h : s.Wakeable d) :
    ((s.wakeDom d).dom d).roused := by
  unfold State.wakeDom
  rw [if_neg h.not_barred, List.foldl_append]
  refine State.wakeOne_rouses hd (h.imp_right fun h => ?_)
  rw [State.fusedOff_foldl_wakeOne]
  exact h.1

/-- A wake of several domains rouses each that a wake may name. -/
theorem State.foldl_wakeDom_rouses {s : State} {l : List Nat} {d : Nat} (hmem : d ∈ l) (hd : d < 1012)
    (h : s.Wakeable d) : ((l.foldl (fun s d => s.wakeDom d) s).dom d).roused := by
  have hstays (l : List Nat) (s : State) (hs : (s.dom d).roused) :
      ((l.foldl (fun s d => s.wakeDom d) s).dom d).roused :=
    List.foldlRecOn (motive := fun s : State => (s.dom d).roused) l _ hs fun _ hs e _ => State.roused_wakeDom hs e
  induction l generalizing s with
  | nil => cases hmem
  | cons e l ih =>
    rw [List.foldl_cons]
    obtain rfl | hmem := List.mem_cons.1 hmem
    · exact hstays l _ (State.wakeDom_rouses hd h)
    · exact ih hmem (h.imp_right fun h => by rwa [State.fusedOff_wakeDom, State.isFenced_wakeDom])

/-- A wake set rouses each of its domains that a wake may name (R71, R72). -/
theorem State.wakeSet_rouses {s : State} {n d : Nat} (hd : d < 1012) (hset : (sget 0 s.pw.wsets n).getLsbD d = true)
    (h : s.Wakeable d) : ((s.wakeSet n).dom d).roused :=
  State.foldl_wakeDom_rouses (List.mem_filter.2 ⟨List.mem_range.2 hd, hset⟩) hd h

/-! ### Holds and wake sets -/

/-- A store leaves which domains a wake may name. -/
theorem State.wakeable_store {s : State} {d : Nat} (p o : Nat) (v : Word32) (h : s.Wakeable d) :
    (s.store p o v).Wakeable d := by
  rw [State.store_frame]; exact h

/-- PWR_WAKE with HOLD wakes its domain and holds it. -/
theorem State.pwrWake_hold {s : State} {v : Word32} (hd : fld v 0 10 < 1012) (hhold : bit v 16 = true)
    (h : s.Wakeable (fld v 0 10)) :
    s.pwrWake v = ((s.store pPWR 0x900 v).wakeDom (fld v 0 10)).modDom (fld v 0 10)
      (fun g => { g with hold := true }) := by
  unfold State.pwrWake
  simp only []
  rw [if_neg (by omega), if_pos hhold, if_neg (State.wakeable_store pPWR 0x900 v h).not_barred]

/-- PWR_WAKE with HOLD that names an array fused off stores its word and wakes nothing. -/
theorem State.pwrWake_fusedOff {s : State} {v : Word32} (hd : fld v 0 10 < 768) (hhold : bit v 16 = true)
    (hfuse : s.fusedOff (fld v 0 10) = true) : s.pwrWake v = s.store pPWR 0x900 v := by
  have hs : (s.store pPWR 0x900 v).fusedOff (fld v 0 10) = true := by rw [State.store_frame]; exact hfuse
  unfold State.pwrWake
  simp only []
  rw [if_neg (by omega), if_pos hhold, if_pos ⟨hd, .inl hs⟩]

/-- PWR_WAKE without HOLD releases its domain, restarts the D-Idle count, and wakes nothing (R76). -/
theorem State.pwrWake_release {s t : State} {v : Word32} (hd : fld v 0 10 < 1012) (hhold : bit v 16 = false)
    (ht : s.pwrWake v = t) :
    t.dom (fld v 0 10) = { s.dom (fld v 0 10) with hold := false } ∧ t.pw.idleTicks = 0 ∧
      (∀ e, e ≠ fld v 0 10 → t.dom e = s.dom e) ∧ t = { s with pw := t.pw, regs := t.regs } := by
  unfold State.pwrWake at ht
  simp only [] at ht
  rw [if_neg (by omega), if_neg (by simp [hhold]), State.store_frame] at ht
  subst ht
  exact ⟨State.dom_modDom_same s _ (fun g => { g with hold := false }), rfl,
    fun e he => State.dom_modDom_ne s (fun g => { g with hold := false }) he, rfl⟩

/-- The power state once the selected wake set is zeroed. -/
def State.wsetZeroed (s : State) : Power := { s.pw with wsets := sset 0 s.pw.wsets s.wsetSel 0 }

/-- The selected wake set is empty, and every other as it was. -/
theorem State.wsetZeroed_sets (s : State) :
    sget 0 s.wsetZeroed.wsets s.wsetSel = 0 ∧ ∀ n, n ≠ s.wsetSel → sget 0 s.wsetZeroed.wsets n = sget 0 s.pw.wsets n :=
  ⟨by rw [State.wsetZeroed, sget_sset_same], fun n hn => by rw [State.wsetZeroed, sget_sset_ne _ _ _ hn]⟩

/-- PWR_WAKE_HOLD that its page admits. -/
theorem exec_pwrWakeHold {r : Requester} (v : Word32) {s : State} (hadm : s.admits r pPWR 0x900 = true) :
    ∃ g, exec (.pwrWakeHold r v) s = .next (({ s with pages := g } : State).pwrWake (setBit v 16 true)) := by
  obtain ⟨g, hw⟩ := State.write_of_admits_frame (by decide) (fun s => s.pwrWake (setBit v 16 true)) hadm
  exact ⟨g, congrArg Host.Outcome.next hw⟩

/-- PWR_HOLD_RELEASE that its page admits. -/
theorem exec_pwrHoldRelease {r : Requester} (v : Word32) {s : State} (hadm : s.admits r pPWR 0x900 = true) :
    ∃ g, exec (.pwrHoldRelease r v) s = .next (({ s with pages := g } : State).pwrWake (setBit v 16 false)) := by
  obtain ⟨g, hw⟩ := State.write_of_admits_frame (by decide) (fun s => s.pwrWake (setBit v 16 false)) hadm
  exact ⟨g, congrArg Host.Outcome.next hw⟩

/-- WSET_WAKE that its page admits wakes the selected set. -/
theorem exec_wsetWake {r : Requester} {s : State} (hadm : s.admits r pPWR 0x908 = true) :
    ∃ g, exec (.wsetWake r) s = .next (({ s with pages := g } : State).wakeSet s.wsetSel) := by
  obtain ⟨g, hw⟩ := State.write_of_admits_frame (by decide) (fun s => s.wsetCmd 1) hadm
  exact ⟨g, congrArg Host.Outcome.next hw⟩

/-- WSET_CLEAR that its page admits empties the selected set. -/
theorem exec_wsetClear {r : Requester} {s : State} (hadm : s.admits r pPWR 0x908 = true) :
    ∃ g, exec (.wsetClear r) s = .next { s with pages := g, pw := s.wsetZeroed } := by
  obtain ⟨g, hw⟩ := State.write_of_admits_frame (by decide) (fun s => s.wsetCmd 2) hadm
  exact ⟨g, congrArg Host.Outcome.next hw⟩

/-- The hold bit of a word that is set or cleared, and the domain the word names. -/
theorem bit_setBit_hold (v : Word32) (b : Bool) : bit (setBit v 16 b) 16 = b := by
  rw [bit_setBit v (by decide), if_pos rfl]

theorem fld_setBit_hold (v : Word32) (b : Bool) : fld (setBit v 16 b) 0 10 = fld v 0 10 :=
  fld_setBit_of_le v (by decide) (by decide) b

/-- Settles O10: a hold wakes and holds its domain, a release lets it go, and the sets wake and clear. -/
theorem wakeHoldsAndSets : Obligations.WakeHoldsAndSets := by
  refine ⟨fun r v s hadm hd hwake => ?_, fun r v s hadm hd hfuse => ?_, fun r v s hadm hd => ?_, fun r s hadm => ?_,
    fun r s hadm => ?_⟩
  · obtain ⟨g, hexec⟩ := exec_pwrWakeHold v hadm
    rw [State.pwrWake_hold (by rwa [fld_setBit_hold]) (bit_setBit_hold v true) (by rw [fld_setBit_hold]; exact hwake),
      fld_setBit_hold] at hexec
    exact ⟨_, hexec, congrArg Dom.hold (State.dom_modDom_same _ _ (fun g => { g with hold := true }))⟩
  · obtain ⟨g, hexec⟩ := exec_pwrWakeHold v hadm
    rw [State.pwrWake_fusedOff (by rwa [fld_setBit_hold]) (bit_setBit_hold v true)
        (by rw [fld_setBit_hold]; exact hfuse),
      State.store_frame] at hexec
    exact ⟨_, hexec, fun e => rfl⟩
  · obtain ⟨g, hexec⟩ := exec_pwrHoldRelease v hadm
    obtain ⟨hdom, hidle, hothers, hframe⟩ :=
      State.pwrWake_release (by rwa [fld_setBit_hold]) (bit_setBit_hold v false)
        (rfl : ({ s with pages := g } : State).pwrWake _ = _)
    rw [fld_setBit_hold] at hdom hothers
    exact ⟨_, hexec, hdom, hidle, hothers, by rw [hframe]⟩
  · obtain ⟨g, hexec⟩ := exec_wsetWake hadm
    exact ⟨_, hexec, fun d hd hset hwake => State.wakeSet_rouses hd hset hwake⟩
  · obtain ⟨g, hexec⟩ := exec_wsetClear hadm
    exact ⟨_, hexec, s.wsetZeroed_sets.1, s.wsetZeroed_sets.2, by dsimp only [State.wsetZeroed]⟩

end Sys2Proof.Machine
end

section
/-! PROOF. D-Deep: its entry where nothing holds the device, and its exit with the chip's PLLs locked
(03_power_clocks.md R77 to R79). -/

namespace Sys2Proof.Machine

/-- What holds the part out of D-Deep: nothing, where every listed domain sleeps and is left alone (R78). -/
theorem State.deepReady_iff (s : State) : s.deepReady = true ↔
    bit (s.reg pPWR 0x108) 0 = true ∧ s.pw.deep = false ∧ fld (s.reg pPWR 0x108) 16 16 ≤ s.pw.idleTicks ∧
      s.queueHolds = false ∧ ∀ e ∈ s.pw.doms, e.2.hold = false ∧ e.2.waking = false ∧ e.2.sleepTo = none ∧
        (e.2.state = .retain ∨ e.2.state = .off) := by
  simp only [State.deepReady, Bool.and_eq_true, Bool.or_eq_true, Bool.not_eq_true', decide_eq_true_eq, beq_iff_eq,
    List.all_eq_true, Option.isNone_iff_eq_none, and_assoc]

/-- What entering D-Deep leaves: the chip's PLLs stopped, the link in L1.2, the entry counted, its event. -/
def State.deepEntered (s : State) : State :=
  let t : State := { s with pw := { s.pw with
    deep := true, exitDue := false, pllRun := s.pw.pllRun &&& ~~~chipPlls, pllLock := s.pw.pllLock &&& ~~~chipPlls } }
  ((t.setReg pHIF 0x800 (putFld (t.reg pHIF 0x800) 10 2 3)).inc pPWR 0xF08).raise pPWR 16

/-- What leaving D-Deep leaves: the chip's PLLs running and locked, the D-Idle count at 0, the exit counted, its event. -/
def State.deepLeft (s : State) : State :=
  let t : State := { s with pw := { s.pw with
    deep := false, exitDue := false, idleTicks := 0, pllRun := s.pw.pllRun ||| chipPlls,
    pllLock := s.pw.pllLock ||| chipPlls } }
  ((t.setReg pHIF 0x800 (putFld (t.reg pHIF 0x800) 10 2 0)).inc pCLK 0xF08 10).raise pPWR 17

/-- DEEP_ENTRY enters D-Deep where nothing holds the part. -/
theorem exec_deepEntry {s : State} (h : s.deepReady = true) : exec .deepEntry s = .next s.deepEntered :=
  congrArg Host.Outcome.next (if_pos h)

/-- DEEP_ENTRY changes nothing where something holds the part. -/
theorem exec_deepEntry_of_not {s : State} (h : ¬ s.deepReady = true) : exec .deepEntry s = .next s :=
  congrArg Host.Outcome.next (if_neg h)

/-- DEEP_EXIT leaves D-Deep once a wake source has asked for it. -/
theorem exec_deepExit {s : State} (hdeep : s.pw.deep = true) (hdue : s.pw.exitDue = true) :
    exec .deepExit s = .next s.deepLeft :=
  congrArg Host.Outcome.next (if_pos ⟨hdeep, hdue⟩)

theorem State.deepEntered_pw (s : State) :
    s.deepEntered.pw = { s.pw with
      deep := true, exitDue := false, pllRun := s.pw.pllRun &&& ~~~chipPlls,
      pllLock := s.pw.pllLock &&& ~~~chipPlls } := State.raise_pw ..

theorem State.deepLeft_pw (s : State) :
    s.deepLeft.pw = { s.pw with
      deep := false, exitDue := false, idleTicks := 0, pllRun := s.pw.pllRun ||| chipPlls,
      pllLock := s.pw.pllLock ||| chipPlls } := State.raise_pw ..

/-- Settles O11: the entry stops the chip's PLLs and the exit locks them; a held domain keeps the part out. -/
theorem deepSleepOfTheDevice : Obligations.DeepSleepOfTheDevice := by
  refine ⟨fun s hauto hdeep hidle hqueue hdoms => ?_, fun s d g hmem hhold => ?_, fun s hdeep hdue => ?_⟩
  · have hready := s.deepReady_iff.2 ⟨hauto, hdeep, hidle, hqueue, hdoms⟩
    refine ⟨_, exec_deepEntry hready, ?_, ?_, State.evt_raise _ pPWR (by decide), ?_, State.raise_nv ..,
      State.raise_mem ..⟩
    · rw [State.deepEntered_pw]
    · rw [State.deepEntered_pw]; exact and_not_and_self ..
    · rw [State.deepEntered_pw]
  · refine ⟨_, exec_deepEntry_of_not fun hready => ?_, rfl⟩
    obtain ⟨-, -, -, -, hdoms⟩ := s.deepReady_iff.1 hready
    simpa [hhold] using (hdoms _ hmem).1
  · refine ⟨_, exec_deepExit hdeep hdue, ?_, ?_, ?_, ?_, ?_, State.raise_nv .., State.raise_mem ..⟩
    · rw [State.deepLeft_pw]
    · rw [State.deepLeft_pw]; exact or_and_self ..
    · rw [State.deepLeft_pw]; exact or_and_self ..
    · rw [State.deepLeft_pw]
    · rw [State.deepLeft_pw]

end Sys2Proof.Machine
end

section
/-! PROOF. The AON timer channels and the device watchdog (03_power_clocks.md R80 to R83, 04_reset_boot.md R98, R99). A
channel's registers and its claim are spoken of by `tmr`, `cmp` and `claimOf` alone. -/

namespace Sys2Proof.Machine

/-! ### A channel's registers -/

/-- The registers of the channels rest on the registers alone. -/
theorem State.tmr_congr {s t : State} (h : t.regs = s.regs) (n o : Nat) : t.tmr n o = s.tmr n o :=
  State.reg_congr h _ _

@[simp] theorem State.tmr_setTmr_same (s : State) (n o : Nat) (v : Word32) : (s.setTmr n o v).tmr n o = v :=
  State.reg_setReg_same ..

theorem State.tmr_setTmr_ne (s : State) (n : Nat) {o k : Nat} (v : Word32) (h : k ≠ o) :
    (s.setTmr n o v).tmr n k = s.tmr n k := State.reg_setReg_ne _ _ (by omega)

/-- The registers of the channels leave those of the AON page below them. -/
theorem State.reg_setTmr_of_lt (s : State) (n o : Nat) (v : Word32) {k : Nat} (hk : k < 0xA00) :
    (s.setTmr n o v).reg pAON k = s.reg pAON k := State.reg_setReg_ne _ _ (by omega)

/-- An event leaves the registers of the channels. -/
theorem State.tmr_raise (s : State) (p b : Nat) {n o : Nat} (hn : n < 8) (ho : o < 0x20) :
    (s.raise p b).tmr n o = s.tmr n o := State.reg_raise_of_lt _ _ _ (by omega)

/-- A store in a register below the channels leaves them. -/
theorem State.tmr_store (s : State) (n o : Nat) {k : Nat} (v : Word32) (hk : k < 0xA00) :
    (s.store pAON k v).tmr n o = s.tmr n o := State.reg_store_ne _ _ (by omega)

/-- A channel's compare value is the one set. -/
@[simp] theorem State.cmp_setCmp (s : State) (n : Nat) (t : BitVec 48) : (s.setCmp n t).cmp n = t := by
  have hlow : (s.setCmp n t).tmr n 4 = t.setWidth 32 :=
    (State.tmr_setTmr_ne _ n _ (by decide)).trans (State.tmr_setTmr_same ..)
  have hhigh : (s.setCmp n t).tmr n 8 = BitVec.ofNat 32 (t.toNat / 2 ^ 32) := State.tmr_setTmr_same ..
  rw [State.cmp, hlow, hhigh]
  refine BitVec.eq_of_toNat_eq ?_
  simp only [fld, BitVec.toNat_ofNat, BitVec.toNat_setWidth]
  omega

/-- A compare value lies in two registers of the channel. -/
theorem State.tmr_setCmp (s : State) (n : Nat) {k : Nat} (t : BitVec 48) (h4 : k ≠ 4) (h8 : k ≠ 8) :
    (s.setCmp n t).tmr n k = s.tmr n k :=
  (State.tmr_setTmr_ne _ n _ h8).trans (State.tmr_setTmr_ne _ n _ h4)

theorem State.reg_setCmp_of_lt (s : State) (n : Nat) (t : BitVec 48) {k : Nat} (hk : k < 0xA00) :
    (s.setCmp n t).reg pAON k = s.reg pAON k :=
  (State.reg_setTmr_of_lt _ n 8 _ hk).trans (State.reg_setTmr_of_lt _ n 4 _ hk)

@[simp] theorem State.page_setCmp (s : State) (n : Nat) (t : BitVec 48) (p : Nat) : (s.setCmp n t).page p = s.page p :=
  rfl

@[simp] theorem State.setCmp_doms (s : State) (n : Nat) (t : BitVec 48) : (s.setCmp n t).pw.doms = s.pw.doms := rfl

@[simp] theorem State.setCmp_claims (s : State) (n : Nat) (t : BitVec 48) : (s.setCmp n t).pw.claims = s.pw.claims :=
  rfl

/-- The compare value is read from two registers of the channel. -/
theorem State.cmp_congr {s t : State} {n : Nat} (h4 : t.tmr n 4 = s.tmr n 4) (h8 : t.tmr n 8 = s.tmr n 8) :
    t.cmp n = s.cmp n := by rw [State.cmp, State.cmp, h4, h8]

/-! ### Claims -/

/-- Claims rest on what the power state holds of them alone. -/
theorem State.claimOf_congr {s t : State} (h : t.pw.claims = s.pw.claims) (n : Nat) : t.claimOf n = s.claimOf n := by
  simp [State.claimOf, h]

@[simp] theorem State.claimOf_takeTmr (s : State) (n : Nat) (c : Claimant) (code : Nat) :
    (s.takeTmr n c code).claimOf n = some c := by simp [State.claimOf, State.takeTmr, State.setTmr]

@[simp] theorem State.tmr_takeTmr (s : State) (n : Nat) (c : Claimant) (code : Nat) :
    (s.takeTmr n c code).tmr n 0 = BitVec.ofNat 32 code := State.tmr_setTmr_same ..

/-- A result shown to a requester changes its AON_TMR_RESULT, and no claim nor register. -/
@[simp] theorem State.claimOf_tmrResult (s : State) (r : Requester) (ch res n : Nat) :
    (s.tmrResult r ch res).claimOf n = s.claimOf n := by cases r <;> simp [State.claimOf, State.tmrResult]

@[simp] theorem State.tmr_tmrResult (s : State) (r : Requester) (ch res n o : Nat) :
    (s.tmrResult r ch res).tmr n o = s.tmr n o := State.tmr_congr (by simp [State.tmrResult]) n o

/-- The result that requester `r` reads. -/
def State.tmrShown (s : State) (r : Requester) : Word32 := if r = .host then s.pw.tmrResHost else s.pw.tmrResMgmt

theorem State.tmrShown_tmrResult (s : State) (r : Requester) (ch res : Nat) :
    (s.tmrResult r ch res).tmrShown r = BitVec.ofNat 32 (ch + res * 2 ^ 8 + 2 ^ 31) := by cases r <;> rfl

/-- A released channel has no claimant; the others keep theirs. -/
theorem State.claimOf_freeChannel (s : State) (n m : Nat) :
    (s.freeChannel n).claimOf m = if m = n then none else s.claimOf m := by
  simp only [State.claimOf, State.freeChannel, sget_sset]
  rfl

/-- An owner code is not 0. -/
theorem ownerCodeOk_pos {r : Requester} {c : Nat} (h : ownerCodeOk r c = true) : c ≠ 0 := by
  rintro rfl
  cases r <;> exact absurd h (by decide)

/-- A claim of a free channel (R81). -/
theorem State.tmrOwner_of_free {s : State} {r : Requester} {n : Nat} {v : Word32}
    (hcode : ownerCodeOk r (fld v 0 8) = true) (hfree : s.claimOf n = none) :
    s.tmrOwner r n v = (s.takeTmr n (claimantOf r) (fld v 0 8)).tmrResult r n 0 := by
  simp [State.tmrOwner, ownerCodeOk_pos hcode, hcode, hfree]

/-- A claim of a claimed channel (R82). -/
theorem State.tmrOwner_of_claimed {s : State} {r : Requester} {n : Nat} {v : Word32} {c : Claimant}
    (hcode : ownerCodeOk r (fld v 0 8) = true) (hclaim : s.claimOf n = some c) :
    s.tmrOwner r n v = s.tmrResult r n 1 := by
  simp [State.tmrOwner, ownerCodeOk_pos hcode, hcode, hclaim]

/-- A release (R82). -/
theorem State.tmrOwner_zero (s : State) (r : Requester) (n : Nat) :
    s.tmrOwner r n 0 = if s.claimOf n = some (claimantOf r) then s.freeChannel n else s := by
  rw [State.tmrOwner, if_pos (by decide)]

/-- An allocation, after its word is stored (R81, R83). -/
theorem State.tmrAlloc_of_code {s : State} {r : Requester} {v : Word32} (hcode : ownerCodeOk r (fld v 0 8) = true) :
    s.tmrAlloc r v = match s.freeTmr with
      | none => (s.store pAON 0x9F0 v).tmrResult r 0 2
      | some n => ((s.store pAON 0x9F0 v).takeTmr n (claimantOf r) (fld v 0 8)).tmrResult r n 0 := by
  have hfree : (s.store pAON 0x9F0 v).freeTmr = s.freeTmr := by rw [State.store_frame]; rfl
  simp only [State.tmrAlloc, hcode, hfree]
  rfl

/-- Each write command of a channel acts on a state that differs in the page headers alone. -/
theorem exec_timerClaim {r : Requester} {n : Fin 8} (v : Word32) {s : State}
    (hadm : s.admits r pAON (0xA00 + 0x20 * n.val) = true) :
    ∃ g, exec (.timerClaim r n v) s = .next (({ s with pages := g } : State).tmrOwner r n v) := by
  obtain ⟨g, hw⟩ := State.write_of_admits_frame (by omega) (fun s => s.tmrOwner r n v) hadm
  exact ⟨g, congrArg Host.Outcome.next hw⟩

theorem exec_timerRelease {r : Requester} {n : Fin 8} {s : State}
    (hadm : s.admits r pAON (0xA00 + 0x20 * n.val) = true) :
    ∃ g, exec (.timerRelease r n) s = .next (({ s with pages := g } : State).tmrOwner r n 0) := by
  obtain ⟨g, hw⟩ := State.write_of_admits_frame (by omega) (fun s => s.tmrOwner r n 0) hadm
  exact ⟨g, congrArg Host.Outcome.next hw⟩

theorem exec_aonTmrAlloc {r : Requester} (v : Word32) {s : State} (hadm : s.admits r pAON 0x9F0 = true) :
    ∃ g, exec (.aonTmrAlloc r v) s = .next (({ s with pages := g } : State).tmrAlloc r v) := by
  obtain ⟨g, hw⟩ := State.write_of_admits_frame (by decide) (fun s => s.tmrAlloc r v) hadm
  exact ⟨g, congrArg Host.Outcome.next hw⟩

theorem exec_aonWdogCtl {r : Requester} (v : Word32) {s : State} (hadm : s.admits r pAON 0x8B0 = true) :
    ∃ g, exec (.aonWdogCtl r v) s = .next (({ s with pages := g } : State).wdogCtl r v) := by
  obtain ⟨g, hw⟩ := State.write_of_admits_frame (by decide) (fun s => s.wdogCtl r v) hadm
  exact ⟨g, congrArg Host.Outcome.next hw⟩

theorem exec_aonWdogKick {r : Requester} (v : Word32) {s : State} (hadm : s.admits r pAON 0x8B4 = true) :
    ∃ g, exec (.aonWdogKick r v) s = .next (({ s with pages := g } : State).wdogKick v) := by
  obtain ⟨g, hw⟩ := State.write_of_admits_frame (by decide) (fun s => s.wdogKick v) hadm
  exact ⟨g, congrArg Host.Outcome.next hw⟩

/-! ### A channel's fire -/

/-- A channel that has fired, before its period is looked at: FIRED and its event (R80). -/
def State.tmrFired (s : State) (n : Nat) : State :=
  (s.setTmr n 0x10 (setBit (s.tmr n 0x10) 2 true)).raise pAON (16 + n)

theorem State.tmrFired_control (s : State) {n : Nat} (hn : n < 8) :
    (s.tmrFired n).tmr n 0x10 = setBit (s.tmr n 0x10) 2 true := by
  rw [State.tmrFired, State.tmr_raise _ _ _ hn (by decide), State.tmr_setTmr_same]

theorem State.tmr_tmrFired (s : State) {n o : Nat} (hn : n < 8) (ho : o < 0x10) :
    (s.tmrFired n).tmr n o = s.tmr n o := by
  rw [State.tmrFired, State.tmr_raise _ _ _ hn (by omega), State.tmr_setTmr_ne _ _ _ (by omega)]

theorem State.cmp_tmrFired (s : State) {n : Nat} (hn : n < 8) : (s.tmrFired n).cmp n = s.cmp n :=
  State.cmp_congr (s.tmr_tmrFired hn (by decide)) (s.tmr_tmrFired hn (by decide))

/-- A channel without a wake set fires: its compare value moves on by a period, and without one it is spent (R80). -/
theorem State.tmrFire_of_no_wset {s : State} {n : Nat} (hn : n < 8) (hwset : bit (s.tmr n 0x10) 1 = false) :
    s.tmrFire n = if s.tmr n 0xC = 0 then
        { s.tmrFired n with pw := { (s.tmrFired n).pw with spent := setBit (s.tmrFired n).pw.spent n true } }
      else (s.tmrFired n).setCmp n (s.cmp n + (s.tmr n 0xC).setWidth 48) := by
  have hctl : bit ((s.tmrFired n).tmr n 0x10) 1 = false := by
    rw [s.tmrFired_control hn, bit_setBit _ (by decide), if_neg (by decide), hwset]
  have hper : (s.tmrFired n).tmr n 0xC = s.tmr n 0xC := s.tmr_tmrFired hn (by decide)
  have hcmp := s.cmp_tmrFired hn
  unfold State.tmrFired at hctl hper hcmp ⊢
  unfold State.tmrFire
  simp only [hctl, Bool.false_eq_true, if_false, hper, hcmp]

/-- What such a fire leaves. -/
theorem State.tmrFire_spec {s t : State} {n : Nat} (hn : n < 8) (hwset : bit (s.tmr n 0x10) 1 = false)
    (ht : s.tmrFire n = t) :
    bit (t.tmr n 0x10) 2 = true ∧ bit (t.page pAON).evt (16 + n) = true ∧
      (s.tmr n 0xC ≠ 0 → t.cmp n = s.cmp n + (s.tmr n 0xC).setWidth 48) ∧ (s.tmr n 0xC = 0 → t.cmp n = s.cmp n) ∧
      t.pw.doms = s.pw.doms := by
  have hfired : bit ((s.tmrFired n).tmr n 0x10) 2 = true := by
    rw [s.tmrFired_control hn, bit_setBit _ (by decide), if_pos rfl]
  have hevt : bit ((s.tmrFired n).page pAON).evt (16 + n) = true := State.evt_raise _ pAON (by omega)
  have hdoms : (s.tmrFired n).pw.doms = s.pw.doms := by rw [State.tmrFired, State.raise_pw]; rfl
  rw [State.tmrFire_of_no_wset hn hwset] at ht
  by_cases hper : s.tmr n 0xC = 0
  · rw [if_pos hper] at ht
    have hregs (o : Nat) : t.tmr n o = (s.tmrFired n).tmr n o := State.tmr_congr (by rw [← ht]) n o
    refine ⟨?_, ?_, fun h => absurd hper h, fun _ => ?_, by rw [← ht]; exact hdoms⟩
    · rw [hregs]; exact hfired
    · rw [← ht]; exact hevt
    · rw [State.cmp_congr (hregs 4) (hregs 8), s.cmp_tmrFired hn]
  · rw [if_neg hper] at ht
    subst ht
    rw [State.tmr_setCmp _ _ _ (by decide) (by decide), State.page_setCmp, State.cmp_setCmp, State.setCmp_doms]
    exact ⟨hfired, hevt, fun _ => rfl, fun h => absurd h hper, hdoms⟩

/-- TIMER_FIRE of a due channel that no hardware owner holds: the channel fires, and may pulse its pin. -/
theorem exec_timerFire {n : Fin 8} {s : State} (hdue : s.tmrDue n = true) (howner : s.claimOf n ≠ some .hw) :
    ∃ o, exec (.timerFire n) s = .next { s.tmrFire n with out := o } := by
  have hexec : exec (.timerFire n) s = execTimerFire n s := rfl
  rw [hexec, execTimerFire]
  simp only [hdue, Bool.not_true, Bool.false_eq_true, if_false, if_neg howner]
  split
  · exact ⟨_, rfl⟩
  · exact ⟨_, rfl⟩

/-- TIMER_FIRE of a channel that is not due changes nothing. -/
theorem exec_timerFire_of_not_due {n : Fin 8} {s : State} (hdue : s.tmrDue n = false) :
    exec (.timerFire n) s = .next s :=
  congrArg Host.Outcome.next (if_pos (by rw [hdue]; rfl))

/-! ### The device watchdog -/

/-- AON_WDOG_CTL with EN takes the lowest free channel and arms it (R98). -/
theorem State.wdogCtl_of_free {s : State} (r : Requester) {v : Word32} {n : Nat} (hen : bit v 0 = true)
    (hfree : s.freeTmr = some n) :
    s.wdogCtl r v = (((s.takeTmr n .hw 0x83).store pAON 0x8B0 v).setCmp n
      (s.pw.aonTime + BitVec.ofNat 48 (fld v 8 24))).setTmr n 0x10 1 := by
  have htime : ((s.takeTmr n .hw 0x83).store pAON 0x8B0 v).pw.aonTime = s.pw.aonTime := by rw [State.store_frame]; rfl
  simp only [State.wdogCtl, State.claimHw, hfree, hen, Option.map_some, htime]
  rfl

/-- AON_WDOG_CTL is a register whose bit 0 is kept as written. -/
theorem State.wdogCtl_stored (s : State) {v : Word32} (hen : bit v 0 = true) :
    bit ((s.store pAON 0x8B0 v).reg pAON 0x8B0) 0 = true := by
  have hrow : regRow (blockType pAON) 0x8B0 = some ⟨0x8B0, 1, 0x0, .wo, 0x0, 0xFFFFFF01, false⟩ := by decide
  rw [s.reg_store_same v hrow]
  simpa [RegRow.stored, bit] using hen

/-- AON_WDOG_KICK with its key moves the watchdog's compare value (R99). -/
theorem State.wdogKick_of_key {s : State} {n : Nat} (hn : s.hwTmr 0x83 = some n) :
    s.wdogKick 0x4B49434B = s.setCmp n (s.pw.aonTime + BitVec.ofNat 48 (fld (s.reg pAON 0x8B0) 8 24)) := by
  simp [State.wdogKick, hn]

/-- Settles O12: claims, releases and allocations go by who holds the channel, a fire by its period, the watchdog by its
key. -/
theorem timerChannels : Obligations.TimerChannels := by
  refine ⟨fun r n v s hadm hcode hfree => ?_, fun r n v s c hadm hcode hclaim => ?_, fun r n s hadm => ?_,
    fun r v s hadm hcode => ?_, fun n s hdue howner hwset => ?_, fun n s hdue => ?_, fun r v n s hadm hen hfree => ?_,
    fun r n s hadm hhw => ?_, fun r v s hadm hkey => ?_⟩
  · obtain ⟨g, hexec⟩ := exec_timerClaim v hadm
    rw [State.tmrOwner_of_free (s := { s with pages := g }) hcode hfree] at hexec
    refine ⟨_, hexec, ?_, ?_, ?_⟩
    · rw [State.claimOf_tmrResult, State.claimOf_takeTmr]
    · rw [State.tmr_tmrResult, State.tmr_takeTmr]
    · exact (State.tmrShown_tmrResult ..).trans (by rw [Nat.zero_mul, Nat.add_zero])
  · obtain ⟨g, hexec⟩ := exec_timerClaim v hadm
    rw [State.tmrOwner_of_claimed (s := { s with pages := g }) hcode hclaim] at hexec
    refine ⟨_, hexec, ?_, rfl, ?_⟩
    · rw [State.claimOf_tmrResult]; exact hclaim
    · exact (State.tmrShown_tmrResult ..).trans (by rw [Nat.one_mul])
  · obtain ⟨g, hexec⟩ := exec_timerRelease hadm
    rw [State.tmrOwner_zero, show ({ s with pages := g } : State).claimOf n = s.claimOf n from rfl] at hexec
    refine ⟨_, hexec, ?_, fun m hm => ?_⟩
    · by_cases hmine : s.claimOf n = some (claimantOf r)
      · rw [if_pos hmine, if_pos hmine, State.claimOf_freeChannel, if_pos rfl]
      · rw [if_neg hmine, if_neg hmine]; rfl
    · by_cases hmine : s.claimOf n = some (claimantOf r)
      · rw [if_pos hmine, State.claimOf_freeChannel, if_neg hm]; rfl
      · rw [if_neg hmine]; rfl
  · obtain ⟨g, hexec⟩ := exec_aonTmrAlloc v hadm
    rw [State.tmrAlloc_of_code hcode, show ({ s with pages := g } : State).freeTmr = s.freeTmr from rfl] at hexec
    refine ⟨_, hexec, ?_⟩
    cases hfree : s.freeTmr with
    | none =>
      refine ⟨fun m => ?_, ?_⟩
      · exact (State.claimOf_tmrResult ..).trans (State.claimOf_congr (by rw [State.store_frame]) m)
      · exact (State.tmrShown_tmrResult ..).trans (by rw [Nat.zero_add])
    | some n =>
      refine ⟨?_, ?_⟩
      · exact (State.claimOf_tmrResult ..).trans (State.claimOf_takeTmr ..)
      · exact (State.tmr_tmrResult ..).trans (State.tmr_takeTmr ..)
  · obtain ⟨o, hexec⟩ := exec_timerFire hdue howner
    obtain ⟨hfired, hevt, hmoved, hstays, hdoms⟩ := State.tmrFire_spec (s := s) n.isLt hwset rfl
    exact ⟨_, hexec, hfired, hevt, hmoved, hstays, hdoms⟩
  · exact ⟨_, exec_timerFire_of_not_due hdue, rfl⟩
  · obtain ⟨g, hexec⟩ := exec_aonWdogCtl v hadm
    rw [State.wdogCtl_of_free (s := { s with pages := g }) r hen hfree] at hexec
    refine ⟨_, hexec, ?_, ?_, ?_, ?_⟩
    · refine Eq.trans (State.claimOf_congr ?_ n) (State.claimOf_takeTmr { s with pages := g } n .hw 0x83)
      rw [State.setTmr, State.setReg_pw, State.setCmp_claims, State.store_frame]
    · rw [State.tmr_setTmr_ne _ _ _ (by decide), State.tmr_setCmp _ _ _ (by decide) (by decide),
        State.tmr_store _ _ _ _ (by decide), State.tmr_takeTmr]
      rfl
    · rw [State.cmp_congr (State.tmr_setTmr_ne _ _ _ (by decide)) (State.tmr_setTmr_ne _ _ _ (by decide)),
        State.cmp_setCmp]
    · rw [State.reg_setTmr_of_lt _ _ _ _ (by decide), State.reg_setCmp_of_lt _ _ _ (by decide)]
      exact State.wdogCtl_stored _ hen
  · obtain ⟨g, hexec⟩ := exec_aonWdogKick 0x4B49434B hadm
    rw [State.wdogKick_of_key (s := { s with pages := g }) hhw] at hexec
    exact ⟨_, hexec, State.cmp_setCmp ..⟩
  · obtain ⟨g, hexec⟩ := exec_aonWdogKick v hadm
    rw [State.wdogKick, if_neg hkey] at hexec
    exact ⟨_, hexec, rfl⟩

end Sys2Proof.Machine
end

section
/-! PROOF. The supply warnings, and the completion of a fuse operation by the NV-write unit (03_power_clocks.md R85, R89,
R90; 04_reset_boot.md R111, R119). -/

namespace Sys2Proof.Machine

/-! ### Supply warnings -/

/-- What an asserted warning leaves: the warn, its sticky bit, its count and its event. -/
def State.warned (s : State) (i : Fin 3) : State :=
  let t : State := { s with pw := { s.pw with warn := setBit s.pw.warn i true } }
  ((t.setReg pAON 0x80C (setBit (t.reg pAON 0x80C) i true)).inc pAON 0xF08).raise pAON 24

/-- SUPPLY_WARN_ASSERT of a rail that does not warn yet; the third needs GPIO3 claimed for it. -/
theorem exec_supplyWarnAssert {i : Fin 3} {s : State} (hwarn : s.pw.warn.getLsbD i = false)
    (hsag : i.val = 2 → s.gpioSag = true) : exec (.supplyWarnAssert i) s = .next (s.warned i) := by
  refine congrArg Host.Outcome.next (if_neg ?_)
  rintro (h | ⟨rfl, hno⟩)
  · exact absurd (hwarn.symm.trans h) (by decide)
  · simp [hsag rfl] at hno

/-- SUPPLY_WARN_CLEAR clears the warn. -/
theorem exec_supplyWarnClear (i : Fin 3) (s : State) :
    exec (.supplyWarnClear i) s = .next { s with pw := { s.pw with warn := setBit s.pw.warn i false } } := rfl

/-- What an asserted warning shows (R85). -/
theorem State.warned_spec {s t : State} {i : Fin 3} (ht : s.warned i = t) :
    t.pw.warn = setBit s.pw.warn i true ∧ bit (t.reg pAON 0x80C) i = true ∧
      t.reg64 pAON 0xF08 = s.reg64 pAON 0xF08 + 1 ∧ bit (t.page pAON).evt 24 = true ∧ t.nv = s.nv := by
  unfold State.warned at ht
  simp only [] at ht
  subst ht
  refine ⟨?_, ?_, ?_, State.evt_raise _ pAON (by decide), State.raise_nv ..⟩
  · rw [State.raise_pw]; rfl
  · rw [State.reg_raise_of_lt _ _ _ (by decide), State.reg_inc_of_apart _ _ (by decide), State.reg_setReg_same,
      bit_setBit _ (by omega), if_pos rfl]
  · rw [State.reg64_raise_of_apart _ _ _ (by decide), State.reg64_inc_same, State.reg64_setReg_ne _ _ (by decide)]
    rfl

/-! ### The unit at rest -/

/-- With nothing waiting, the NV-write unit stays as it is. -/
theorem State.nvRun_of_queue_nil {s : State} (fuel : Nat) (h : s.nv.queue = []) : s.nvRun fuel = s := by
  cases fuel with
  | zero => rfl
  | succ fuel =>
    unfold State.nvRun
    split
    · next hq => rw [h] at hq; cases hq
    · rfl

theorem State.nvGo_of_queue_nil {s : State} (h : s.nv.queue = []) : s.nvGo = s := State.nvRun_of_queue_nil _ h

/-! ### Fuse words -/

/-- A fuse operation changes its word, and nothing else of the fuses, the flash and the unit. -/
theorem State.fuseDone_nv (s : State) (w : BitVec 7) (v : Word32) (rb : Option Word32) :
    (s.fuseDone w v rb).nv = { s.nv with
      fuses := sset 0 s.nv.fuses w.toNat (s.fuse w.toNat ||| rb.getD (s.fuse w.toNat ||| v)) } := by
  unfold State.fuseDone
  simp only []
  split <;> rfl

/-- The words after a fuse operation: its own has the bits that stood, and those that the read-back shows. -/
theorem State.fuse_fuseDone (s : State) (w : BitVec 7) (v : Word32) (rb : Option Word32) (x : Nat) :
    (s.fuseDone w v rb).fuse x =
      if x = w.toNat then s.fuse w.toNat ||| rb.getD (s.fuse w.toNat ||| v) else s.fuse x := by
  rw [State.fuse, State.fuseDone_nv, sget_sset]
  rfl

/-- A fuse operation whose read-back is the OR is counted (R119). -/
theorem State.fuseDone_counts {s : State} {w : BitVec 7} {v : Word32} {rb : Option Word32}
    (h : rb.getD (s.fuse w.toNat ||| v) = s.fuse w.toNat ||| v) :
    (s.fuseDone w v rb).reg64 pFUS 0xF00 = s.reg64 pFUS 0xF00 + 1 := by
  unfold State.fuseDone
  simp only []
  rw [if_pos h, State.reg64_setReg_ne _ _ (by decide), State.reg64_inc_same]
  rfl

/-- A fuse operation with another read-back fails (R119). -/
theorem State.fuseDone_fails {s : State} {w : BitVec 7} {v : Word32} {rb : Option Word32}
    (h : rb.getD (s.fuse w.toNat ||| v) ≠ s.fuse w.toNat ||| v) : (s.fuseDone w v rb).reg pFUS 0xA0C = 8 := by
  unfold State.fuseDone
  simp only []
  rw [if_neg h, State.reg_setReg_same]

/-- NV_OP_DONE of a fuse operation, with none waiting, completes it. -/
theorem exec_nvOpDone_fuse {w : BitVec 7} {v : Word32} (rb : Option Word32) {s : State}
    (hop : s.nv.op = some (.fuse w v)) (hqueue : s.nv.queue = []) :
    exec (.nvOpDone rb) s = .next (({ s with nv := { s.nv with op := none } } : State).fuseDone w v rb) := by
  change Host.Outcome.next (s.nvDone rb) = _
  unfold State.nvDone
  rw [hop]
  simp only []
  rw [State.nvGo_of_queue_nil]
  rw [State.fuseDone_nv]
  exact hqueue

/-- NV_OP_DONE with no operation under way changes nothing. -/
theorem exec_nvOpDone_none (rb : Option Word32) {s : State} (hop : s.nv.op = none) :
    exec (.nvOpDone rb) s = .next s := by
  change Host.Outcome.next (s.nvDone rb) = _
  unfold State.nvDone
  rw [hop]

/-- Settles O13: a warning is recorded and cleared, and a fuse operation only sets bits of its word. -/
theorem supplyWarningsAndNvUnit : Obligations.SupplyWarningsAndNvUnit := by
  refine ⟨fun i s hwarn hsag => ?_, fun i s => ?_, fun w v rb s hop hqueue => ?_, fun rb s hop => ?_⟩
  · obtain ⟨hpw, hsticky, hcount, hevt, hnv⟩ := State.warned_spec (s := s) (i := i) rfl
    refine ⟨_, exec_supplyWarnAssert hwarn hsag, ?_, hsticky, hcount, hevt, hnv⟩
    rw [hpw]
    exact (bit_setBit _ i.isLt true i).trans (if_pos rfl)
  · refine ⟨_, exec_supplyWarnClear i s, ?_, fun j hj => ?_, rfl⟩
    · exact (bit_setBit _ i.isLt false i).trans (if_pos rfl)
    · exact (bit_setBit _ i.isLt false j).trans (if_neg hj)
  · have hword (x : Nat) := State.fuse_fuseDone { s with nv := { s.nv with op := none } } w v rb x
    have hown := (hword w.toNat).trans (if_pos rfl)
    refine ⟨_, exec_nvOpDone_fuse rb hop hqueue, ?_, ?_, fun h => ⟨?_, State.fuseDone_counts h⟩,
      fun h => State.fuseDone_fails h, fun x hx => (hword x).trans (if_neg hx), ?_⟩
    · rw [State.fuseDone_nv]
    · rw [hown]; exact or_and_left_self ..
    · rw [hown]
      change s.fuse w.toNat ||| rb.getD (s.fuse w.toNat ||| v) = _
      rw [h, ← BitVec.or_assoc, BitVec.or_self]
    · rw [State.fuseDone_nv]
  · exact ⟨_, exec_nvOpDone_none rb hop, rfl⟩

end Sys2Proof.Machine
end

section
/-! PROOF. Accesses to device memory by a block, on which no code finds anything: what they leave of the registers and of
the rest of the state, which bytes a read gives, and that a write within a line is read back (09_stacked_memory.md
R261, R271 to R274; R72 for the wake of the controller and PHY). -/

namespace Sys2Proof.Machine

/-! ### What an access leaves -/

/-- A register that no count of memory accesses and of wakes touches. -/
def Uncounted (q k : Nat) : Prop := k < 0xF00 ∨ (q < 0xD0 ∧ q ≠ pCLK ∧ k < 0x1000)

/-- An access has changed the memories, the power state and the counters of accesses and wakes; the warns stand. -/
structure State.Accessed (s t : State) : Prop where
  frame : t = { s with mem := t.mem, pw := t.pw, regs := t.regs, free := t.free }
  warn : t.pw.warn = s.pw.warn
  reg : ∀ {q k : Nat}, Uncounted q k → t.reg q k = s.reg q k

section
variable {s t u : State}

theorem State.Accessed.refl (s : State) : s.Accessed s := ⟨rfl, rfl, fun _ => rfl⟩

theorem State.Accessed.trans (h : s.Accessed t) (h' : t.Accessed u) : s.Accessed u where
  frame := h'.frame.trans (congrArg (fun x : State => { x with
    mem := u.mem, pw := u.pw, regs := u.regs, free := u.free }) h.frame)
  warn := h'.warn.trans h.warn
  reg hq := (h'.reg hq).trans (h.reg hq)

theorem State.Accessed.nv (h : s.Accessed t) : t.nv = s.nv := by rw [h.frame]
theorem State.Accessed.chk (h : s.Accessed t) : t.chk = s.chk := by rw [h.frame]
theorem State.Accessed.pages (h : s.Accessed t) : t.pages = s.pages := by rw [h.frame]

theorem State.Accessed.reg64 (h : s.Accessed t) {q k : Nat} (hlow : Uncounted q k) (hhigh : Uncounted q (k + 4)) :
    t.reg64 q k = s.reg64 q k := by rw [State.reg64, State.reg64, h.reg hlow, h.reg hhigh]

theorem State.Accessed.grouped (h : s.Accessed t) : t.grouped = s.grouped := by
  rw [State.grouped, State.grouped, h.reg (.inl (by decide))]

theorem State.accessed_mem (s : State) (m : Mem) : s.Accessed { s with mem := m } := ⟨rfl, rfl, fun _ => rfl⟩

theorem State.accessed_usedFree (s : State) : s.Accessed s.usedFree := ⟨rfl, rfl, fun _ => rfl⟩

/-- Counting on a page of the memories, or the wakes on the CLK page. -/
theorem State.accessed_inc (s : State) {p o : Nat} (n : Nat) (hp : 0xD0 ≤ p ∨ p = pCLK) (ho : 0xF00 ≤ o)
    (ho' : o + 4 < 0x1000) : s.Accessed (s.inc p o n) where
  frame := rfl
  warn := rfl
  reg := by
    intro q k hq
    unfold Uncounted at hq
    have hclk : pCLK = 3 := rfl
    refine State.reg_inc_ne _ _ ?_ ?_ <;> omega

theorem State.accessed_wakeOne (s : State) (d : Nat) : s.Accessed (s.wakeOne d) := by
  have hclk (u : State) : u.Accessed (u.inc pCLK 0xF08) := u.accessed_inc 1 (.inr rfl) (by decide) (by decide)
  unfold State.wakeOne
  simp only []
  split
  · exact .refl s
  split
  · exact .refl s
  split
  · split <;> exact ⟨rfl, rfl, fun _ => rfl⟩
  split
  · exact .refl s
  split
  · refine State.Accessed.trans ?_ (hclk _)
    exact ⟨rfl, rfl, fun _ => rfl⟩
  · exact ⟨rfl, rfl, fun _ => rfl⟩

theorem State.accessed_wakeDom (s : State) (d : Nat) : s.Accessed (s.wakeDom d) := by
  unfold State.wakeDom
  split
  · exact .refl s
  · exact List.foldlRecOn (motive := s.Accessed) _ _ (.refl s) fun t h e _ => h.trans (t.accessed_wakeOne e)

theorem State.accessed_wakeFor (s : State) (pa : Nat) : s.Accessed (s.wakeFor pa) := by
  unfold State.wakeFor
  simp only []
  split
  · exact .refl s
  · exact s.accessed_wakeDom _

/-- Waking a domain leaves the memories. -/
theorem State.wakeFor_mem (s : State) (pa : Nat) : (s.wakeFor pa).mem = s.mem := by
  unfold State.wakeFor State.wakeDom
  simp only []
  split
  · rfl
  split
  · rfl
  · exact foldl_keeps State.mem (fun s e => s.wakeOne e) (fun s e => s.wakeOne_mem e) _ s

end

/-! ### One line -/

theorem State.accessed_writeBack (s : State) (line : Nat) (bs : List Byte) (p : Bool) :
    s.Accessed (s.writeBack line bs p) :=
  (s.accessed_mem _).trans (State.accessed_inc _ _ (.inl (Nat.le_add_right ..)) (by decide) (by decide))

/-- A fetch on which no code finds anything gives the stored bytes, and counts. -/
theorem State.fetchLine_clean (s : State) (line src : Nat) :
    (s.fetchLine line .clean src).1 = s.stored line ∧ (s.fetchLine line .clean src).2.2.mem = s.mem ∧
      s.Accessed (s.fetchLine line .clean src).2.2 := by
  unfold State.fetchLine
  simp only []
  generalize (locate s.grouped (64 * line)).1 = m
  have hinc (u : State) {o : Nat} (n : Nat) (ho : 0xF00 ≤ o) (ho' : o + 4 < 0x1000) : u.Accessed (u.inc (pMEM m) o n) :=
    u.accessed_inc n (.inl (Nat.le_add_right ..)) ho ho'
  have hread := hinc s 64 (o := 0xF00) (by decide) (by decide)
  split
  · exact ⟨rfl, by simp only [State.inc_mem], hread.trans (hinc _ _ (by decide) (by decide))⟩
  · exact ⟨rfl, by simp only [State.inc_mem], hread⟩

/-- A victim is chosen by reading, and may take a free value. -/
theorem State.victim_state (s : State) (sl set mask : Nat) :
    (s.victim sl set mask).2 = s ∨ (s.victim sl set mask).2 = s.usedFree := by
  unfold State.victim
  simp only []
  split
  · split
    · exact .inl rfl
    · exact .inl rfl
  · exact .inr rfl

/-- A victim's line is written back where it is dirty. -/
def State.evict (s : State) (sl set w : Nat) : State :=
  match s.way sl set w with
  | some l => if l.dirty then (s.writeBack l.line l.data l.poison).inc (pHCC sl) 0xF20 else s
  | none => s

theorem State.accessed_evict (s : State) (sl set w : Nat) : s.Accessed (s.evict sl set w) := by
  unfold State.evict
  split
  · split
    · exact (s.accessed_writeBack ..).trans
        (State.accessed_inc _ _ (.inl (by simp only [pHCC]; omega)) (by decide) (by decide))
    · exact .refl s
  · exact .refl s

/-- The place of a way in the hint cache. -/
def wayKey (sl set w : Nat) : Nat := (sl * 8192 + set) * 16 + w

/-- A line put into a way, after the clock has moved on. -/
def State.putLine (s : State) (key : Nat) (l : HccLine) : State :=
  { s with mem := { s.mem with
    hcc := sset none (sset none s.mem.hcc key none) key (some l), clock := s.mem.clock + 1 } }

/-- An allocation that finds a way puts the line there, once the victim is out. -/
theorem State.allocate_some {s t : State} {line part : Nat} {bs : List Byte} {d k p : Bool}
    (h : s.allocate line part bs d k p = some t) :
    let sl := (sliceSet s.grouped (64 * line)).1
    let set := (sliceSet s.grouped (64 * line)).2
    ∃ w u l, s.victim sl set (s.wayMask sl part) = (some w, u) ∧ l.line = line ∧ l.data = bs ∧ l.dirty = d ∧
      t = (u.evict sl set w).putLine (wayKey sl set w) l := by
  unfold State.allocate at h
  simp only [] at h ⊢
  generalize State.victim s _ _ _ = v at h ⊢
  obtain ⟨o, u⟩ := v
  cases o with
  | none => cases h
  | some w =>
    simp only [Option.some.injEq] at h
    subst h
    exact ⟨w, u, _, rfl, rfl, rfl, rfl, rfl⟩

theorem State.accessed_allocate {s t : State} {line part : Nat} {bs : List Byte} {d k p : Bool}
    (h : s.allocate line part bs d k p = some t) : s.Accessed t := by
  obtain ⟨w, u, l, hvictim, -, -, -, rfl⟩ := State.allocate_some h
  have hu : s.Accessed u := by
    have hstate := s.victim_state (sliceSet s.grouped (64 * line)).1 (sliceSet s.grouped (64 * line)).2
      (s.wayMask (sliceSet s.grouped (64 * line)).1 part)
    rw [hvictim] at hstate
    obtain rfl | rfl := hstate
    · exact .refl _
    · exact s.accessed_usedFree
  exact (hu.trans (u.accessed_evict ..)).trans (State.accessed_mem _ _)

/-! ### Reads and writes of one line -/

/-- A read that hits. -/
theorem State.lineRead_hit {s : State} {line : Nat} (part : Nat) {w : Nat} {l : HccLine}
    (h : s.findWay (sliceSet s.grouped (64 * line)).1 (sliceSet s.grouped (64 * line)).2 line = some (w, l)) :
    s.lineRead line .default part true .clean .clean =
      (l.data, l.poison, ((s.heatUp (sliceSet s.grouped (64 * line)).1 line).inc
        (pHCC (sliceSet s.grouped (64 * line)).1) 0xF00).touch (sliceSet s.grouped (64 * line)).1
          (sliceSet s.grouped (64 * line)).2 w l false) := by
  have hheat : (s.heatUp (sliceSet s.grouped (64 * line)).1 line).findWay (sliceSet s.grouped (64 * line)).1
      (sliceSet s.grouped (64 * line)).2 line = some (w, l) := h
  unfold State.lineRead
  simp only [State.effHint, reduceCtorEq, false_and, if_false, hheat, State.hccCheck]

/-- A read that misses. -/
theorem State.lineRead_miss {s : State} {line : Nat} (part : Nat)
    (h : s.findWay (sliceSet s.grouped (64 * line)).1 (sliceSet s.grouped (64 * line)).2 line = none) :
    let sl := (sliceSet s.grouped (64 * line)).1
    let f := ((s.heatUp sl line).inc (pHCC sl) 0xF08).fetchLine line .clean 0
    s.lineRead line .default part true .clean .clean =
      (f.1, f.2.1, (f.2.2.allocate line part f.1 false false f.2.1).getD f.2.2) := by
  have hheat : (s.heatUp (sliceSet s.grouped (64 * line)).1 line).findWay (sliceSet s.grouped (64 * line)).1
      (sliceSet s.grouped (64 * line)).2 line = none := h
  unfold State.lineRead
  simp only [State.effHint, reduceCtorEq, false_and, if_false, hheat, true_or, if_true]
  have hkeep : (Hint.default == Hint.keep) = false := by decide
  rw [hkeep]
  cases State.allocate _ _ _ _ _ _ _ <;> rfl

/-- A write that hits. -/
theorem State.lineWrite_hit {s : State} {line : Nat} (lo : Nat) (bs : List Byte) (po : Bool) (part : Nat) {w : Nat}
    {l : HccLine}
    (h : s.findWay (sliceSet s.grouped (64 * line)).1 (sliceSet s.grouped (64 * line)).2 line = some (w, l)) :
    s.lineWrite line lo bs po .default part true .clean .clean =
      ((s.heatUp (sliceSet s.grouped (64 * line)).1 line).inc (pHCC (sliceSet s.grouped (64 * line)).1) 0xF10).touch
        (sliceSet s.grouped (64 * line)).1 (sliceSet s.grouped (64 * line)).2 w
        { l with data := overlay l.data lo bs, dirty := true, poison := markAfter l.poison (bs.length == 64) po }
        false := by
  have hheat : (s.heatUp (sliceSet s.grouped (64 * line)).1 line).findWay (sliceSet s.grouped (64 * line)).1
      (sliceSet s.grouped (64 * line)).2 line = some (w, l) := h
  unfold State.lineWrite
  simp only [State.effHint, reduceCtorEq, false_and, if_false, hheat, State.hccCheck]

/-- What a write that misses lays its bytes over: the fetched line, or nothing where it writes the whole line. -/
def State.under (s : State) (line : Nat) (bs : List Byte) : List Byte × Bool × State :=
  if bs.length == 64 then (bs, false, s) else s.fetchLine line .clean 0

/-- A write that misses. -/
theorem State.lineWrite_miss {s : State} {line : Nat} (lo : Nat) (bs : List Byte) (po : Bool) (part : Nat)
    (h : s.findWay (sliceSet s.grouped (64 * line)).1 (sliceSet s.grouped (64 * line)).2 line = none) :
    let sl := (sliceSet s.grouped (64 * line)).1
    let f := ((s.heatUp sl line).inc (pHCC sl) 0xF18).under line bs
    let mark := markAfter f.2.1 (bs.length == 64) po
    s.lineWrite line lo bs po .default part true .clean .clean =
      (f.2.2.allocate line part (overlay f.1 lo bs) true false mark).getD
        (f.2.2.writeBack line (overlay f.1 lo bs) mark) := by
  have hheat : (s.heatUp (sliceSet s.grouped (64 * line)).1 line).findWay (sliceSet s.grouped (64 * line)).1
      (sliceSet s.grouped (64 * line)).2 line = none := h
  have hkeep : (Hint.default == Hint.keep) = false := by decide
  unfold State.lineWrite State.under
  simp only [State.effHint, reduceCtorEq, false_and, if_false, hheat, true_or, if_true, hkeep]
  cases State.allocate _ _ _ _ _ _ _ <;> rfl

end Sys2Proof.Machine
end

section
/-! PROOF. Runs of lines: what a block's reads and writes leave, the bytes that a read gives, and the bytes that a write
leaves to be read (09_stacked_memory.md R271 to R274). A cache whose lines are clean copies of the stored bytes serves
those bytes. -/

namespace Sys2Proof.Machine

/-! ### What a run of lines leaves -/

theorem State.accessed_touch (s : State) (sl set w : Nat) (l : HccLine) (keep : Bool) :
    s.Accessed (s.touch sl set w l keep) := ⟨rfl, rfl, fun _ => rfl⟩

/-- A count of a slice, after the heat. -/
theorem State.accessed_heatUp_inc (s : State) (sl line : Nat) {o : Nat} (n : Nat) (ho : 0xF00 ≤ o)
    (ho' : o + 4 < 0x1000) : s.Accessed ((s.heatUp sl line).inc (pHCC sl) o n) :=
  (s.accessed_mem _).trans (State.accessed_inc _ n (.inl (by simp only [pHCC]; omega)) ho ho')

/-- An allocation, or else the state it started from. -/
theorem State.accessed_allocate_getD {s t : State} (ht : s.Accessed t) (line part : Nat) (bs : List Byte)
    (d k p : Bool) : s.Accessed ((s.allocate line part bs d k p).getD t) := by
  cases h : s.allocate line part bs d k p with
  | none => exact ht
  | some u => exact State.accessed_allocate h

theorem State.accessed_lineRead (s : State) (line part : Nat) :
    s.Accessed (s.lineRead line .default part true .clean .clean).2.2 := by
  cases h : s.findWay (sliceSet s.grouped (64 * line)).1 (sliceSet s.grouped (64 * line)).2 line with
  | some e =>
    obtain ⟨w, l⟩ := e
    rw [State.lineRead_hit part h]
    exact (s.accessed_heatUp_inc _ line (o := 0xF00) 1 (by decide) (by decide)).trans (State.accessed_touch ..)
  | none =>
    rw [State.lineRead_miss part h]
    dsimp only
    generalize (sliceSet s.grouped (64 * line)).1 = sl
    refine (s.accessed_heatUp_inc sl line (o := 0xF08) 1 (by decide) (by decide)).trans ?_
    obtain ⟨-, -, hfetch⟩ := State.fetchLine_clean ((s.heatUp sl line).inc (pHCC sl) 0xF08) line 0
    exact hfetch.trans (State.accessed_allocate_getD (.refl _) ..)

theorem State.accessed_under (s : State) (line : Nat) (bs : List Byte) : s.Accessed (s.under line bs).2.2 := by
  unfold State.under
  split
  · exact .refl s
  · exact (s.fetchLine_clean line 0).2.2

theorem State.accessed_lineWrite (s : State) (line lo : Nat) (bs : List Byte) (po : Bool) (part : Nat) :
    s.Accessed (s.lineWrite line lo bs po .default part true .clean .clean) := by
  cases h : s.findWay (sliceSet s.grouped (64 * line)).1 (sliceSet s.grouped (64 * line)).2 line with
  | some e =>
    obtain ⟨w, l⟩ := e
    rw [State.lineWrite_hit lo bs po part h]
    exact (s.accessed_heatUp_inc _ line (o := 0xF10) 1 (by decide) (by decide)).trans (State.accessed_touch ..)
  | none =>
    rw [State.lineWrite_miss lo bs po part h]
    generalize (sliceSet s.grouped (64 * line)).1 = sl
    refine (s.accessed_heatUp_inc sl line (o := 0xF18) 1 (by decide) (by decide)).trans ?_
    exact (State.accessed_under _ line bs).trans (State.accessed_allocate_getD (State.accessed_writeBack ..) ..)

theorem State.accessed_memRd (part : Nat) : ∀ (fuel : Nat) (s : State) (a n : Nat),
    s.Accessed (s.memRd .default part true fuel a n).2.2 := by
  intro fuel
  induction fuel with
  | zero => exact fun s _ _ => .refl s
  | succ fuel ih =>
    intro s a n
    unfold State.memRd
    split
    · exact .refl s
    split
    · exact .refl s
    · exact ((s.accessed_wakeFor a).trans (State.accessed_lineRead ..)).trans (ih ..)

theorem State.accessed_memWr (part : Nat) (po : Bool) : ∀ (fuel : Nat) (s : State) (a : Nat) (bs : List Byte),
    s.Accessed (s.memWr .default part true po fuel a bs) := by
  intro fuel
  induction fuel with
  | zero => exact fun s _ _ => .refl s
  | succ fuel ih =>
    intro s a bs
    unfold State.memWr
    split
    · exact .refl s
    · exact ((s.accessed_wakeFor a).trans (State.accessed_lineWrite ..)).trans (ih ..)

theorem State.accessed_devRead (s : State) (part a n : Nat) : s.Accessed (s.devRead part a n).2.2 :=
  State.accessed_memRd ..

theorem State.accessed_devWrite (s : State) (part a : Nat) (bs : List Byte) (po : Bool) :
    s.Accessed (s.devWrite part a bs po) := State.accessed_memWr ..

/-! ### The lines of a slice -/

/-- The bytes of a line rest on the stored bytes alone. -/
theorem State.stored_congr {s t : State} (h : t.mem.bytes = s.mem.bytes) (line : Nat) :
    t.stored line = s.stored line := by
  rw [State.stored, State.stored, h]

theorem State.stored_eq (s : State) (line : Nat) :
    s.stored line = (List.range 64).map (fun i => sget 0 s.mem.bytes (64 * line + i)) := sgets_eq ..

/-- A way that is found holds the line. -/
theorem State.findWay_some {s : State} {sl set line w : Nat} {l : HccLine} (h : s.findWay sl set line = some (w, l)) :
    sget none s.mem.hcc (wayKey sl set w) = some l ∧ l.line = line := by
  obtain ⟨v, -, hv⟩ := List.exists_of_findSome?_eq_some h
  cases hway : s.way sl set v with
  | none => rw [hway] at hv; cases hv
  | some m =>
    rw [hway] at hv
    dsimp only at hv
    split at hv
    case isTrue hline =>
      cases hv
      exact ⟨hway, hline⟩
    case isFalse => cases hv

/-- An empty cache holds no line. -/
theorem State.findWay_of_hcc_nil {s : State} (h : s.mem.hcc = []) (sl set line : Nat) :
    s.findWay sl set line = none := by
  refine List.findSome?_eq_none_iff.2 fun w _ => ?_
  rw [State.way, h]
  rfl

/-- With an empty cache a byte is the stored one. -/
theorem State.devBytes_of_hcc_nil {s : State} (h : s.mem.hcc = []) (a n : Nat) :
    s.devBytes a n = (List.range n).map (fun i => sget 0 s.mem.bytes (a + i)) := by
  refine List.map_congr_left fun i _ => ?_
  simp only [State.devByte, State.findWay_of_hcc_nil h]

/-- The cache once a line is put into a way. -/
theorem State.hcc_putLine (s : State) (key q : Nat) (l : HccLine) :
    sget none (s.putLine key l).mem.hcc q = if q = key then some l else sget none s.mem.hcc q := by
  change sget none (sset none (sset none s.mem.hcc key none) key (some l)) q = _
  rw [sget_sset]
  split
  · rfl
  · next h => exact sget_sset_ne _ _ _ h

/-! ### Reading through a clean cache -/

/-- Every cached line is a clean copy of the stored one. -/
def State.CacheClean (s : State) : Prop :=
  ∀ k l, sget none s.mem.hcc k = some l → l.dirty = false ∧ l.data = s.stored l.line

theorem State.cacheClean_of_hcc_nil {s : State} (h : s.mem.hcc = []) : s.CacheClean := by
  intro k l hl
  rw [h] at hl
  cases hl

/-- The cache and the stored bytes decide whether the cache is clean. -/
theorem State.CacheClean.congr {s t : State} (h : s.CacheClean) (hhcc : t.mem.hcc = s.mem.hcc)
    (hbytes : t.mem.bytes = s.mem.bytes) : t.CacheClean := by
  intro k l hl
  rw [hhcc] at hl
  rw [State.stored_congr hbytes]
  exact h k l hl

/-- A clean copy of a line keeps a clean cache clean. -/
theorem State.CacheClean.putLine {s : State} (h : s.CacheClean) (key : Nat) {l : HccLine} (hdirty : l.dirty = false)
    (hdata : l.data = s.stored l.line) : (s.putLine key l).CacheClean := by
  intro k m hm
  rw [State.hcc_putLine] at hm
  split at hm
  · cases hm; exact ⟨hdirty, hdata⟩
  · exact h k m hm

/-- Use of a clean copy keeps a clean cache clean. -/
theorem State.CacheClean.touch {s : State} (h : s.CacheClean) (sl set w : Nat) {l : HccLine} (keep : Bool)
    (hdirty : l.dirty = false) (hdata : l.data = s.stored l.line) : (s.touch sl set w l keep).CacheClean := by
  intro k m hm
  change sget none (sset none s.mem.hcc (wayKey sl set w) (some _)) k = some m at hm
  rw [sget_sset] at hm
  split at hm
  · cases hm; exact ⟨hdirty, hdata⟩
  · exact h k m hm

/-- Nothing is written back from a clean cache. -/
theorem State.CacheClean.evict {s : State} (h : s.CacheClean) (sl set w : Nat) : s.evict sl set w = s := by
  unfold State.evict
  split
  · next l hl => rw [if_neg (by simp [(h _ l hl).1])]
  · rfl

/-- A read of a line through a clean cache gives the stored bytes, and leaves them and the cache clean. -/
theorem State.CacheClean.lineRead {s : State} (h : s.CacheClean) (line part : Nat) :
    (s.lineRead line .default part true .clean .clean).1 = s.stored line ∧
      (s.lineRead line .default part true .clean .clean).2.2.mem.bytes = s.mem.bytes ∧
      (s.lineRead line .default part true .clean .clean).2.2.CacheClean := by
  cases hway : s.findWay (sliceSet s.grouped (64 * line)).1 (sliceSet s.grouped (64 * line)).2 line with
  | some e =>
    obtain ⟨w, l⟩ := e
    obtain ⟨hl, hline⟩ := State.findWay_some hway
    obtain ⟨hdirty, hdata⟩ := h _ l hl
    rw [State.lineRead_hit part hway]
    exact ⟨by rw [hdata, hline], rfl,
      State.CacheClean.touch (s := (s.heatUp _ line).inc (pHCC _) 0xF00) (h.congr rfl rfl) _ _ _ _ hdirty hdata⟩
  | none =>
    rw [State.lineRead_miss part hway]
    dsimp only
    generalize hu : (s.heatUp (sliceSet s.grouped (64 * line)).1 line).inc (pHCC (sliceSet s.grouped (64 * line)).1)
      0xF08 = u
    obtain ⟨hbs, hmem, -⟩ := u.fetchLine_clean line 0
    have hbytes : (u.fetchLine line .clean 0).2.2.mem.bytes = s.mem.bytes := by rw [hmem, ← hu]; rfl
    have hhcc : (u.fetchLine line .clean 0).2.2.mem.hcc = s.mem.hcc := by rw [hmem, ← hu]; rfl
    have hstored : (u.fetchLine line .clean 0).1 = s.stored line := by
      rw [hbs]; exact State.stored_congr (by rw [← hu]; rfl) line
    generalize u.fetchLine line .clean 0 = f at hbytes hhcc hstored
    have hclean := h.congr hhcc hbytes
    refine ⟨hstored, ?_⟩
    cases halloc : f.2.2.allocate line part f.1 false false f.2.1 with
    | none => exact ⟨hbytes, hclean⟩
    | some t =>
      obtain ⟨w, v, l, hvictim, hline, hdata, hdirty, rfl⟩ := State.allocate_some halloc
      have hv : v.mem = f.2.2.mem := by
        have hstate := f.2.2.victim_state (sliceSet f.2.2.grouped (64 * line)).1
          (sliceSet f.2.2.grouped (64 * line)).2 (f.2.2.wayMask (sliceSet f.2.2.grouped (64 * line)).1 part)
        rw [hvictim] at hstate
        obtain rfl | rfl := hstate <;> rfl
      have hvclean : v.CacheClean := hclean.congr (by rw [hv]) (by rw [hv])
      have hvbytes : v.mem.bytes = s.mem.bytes := by rw [hv, hbytes]
      rw [hvclean.evict]
      refine ⟨hvbytes, hvclean.putLine _ hdirty ?_⟩
      rw [hdata, hstored, hline, State.stored_congr hvbytes]

/-- A run of a mapped range is the map of the run. -/
theorem take_drop_map_range {α : Type} (f : Nat → α) {n lo m : Nat} (h : lo + m ≤ n) :
    (((List.range n).map f).drop lo).take m = (List.range m).map (fun i => f (lo + i)) := by
  refine List.ext_getElem ?_ fun i _ _ => ?_
  · simp; omega
  · simp

/-- A run of lines read through a clean cache gives the stored bytes. -/
theorem State.CacheClean.memRd (part : Nat) : ∀ (fuel : Nat) {s : State} (a n : Nat), s.CacheClean →
    n ≤ 64 * fuel - a % 64 → a + n ≤ memBytes →
    (s.memRd .default part true fuel a n).1 = (List.range n).map (fun i => sget 0 s.mem.bytes (a + i)) := by
  intro fuel
  induction fuel with
  | zero =>
    intro s a n _ hn _
    obtain rfl : n = 0 := by omega
    rfl
  | succ fuel ih =>
    intro s a n h hn ha
    unfold State.memRd
    by_cases h0 : n = 0
    · subst h0; rfl
    rw [if_neg h0, if_neg (by omega)]
    have hwoken : (s.wakeFor a).CacheClean := h.congr (by rw [State.wakeFor_mem]) (by rw [State.wakeFor_mem])
    obtain ⟨hline, hbytes, hclean⟩ := hwoken.lineRead (a / 64) part
    dsimp only
    rw [hline, ih _ _ hclean (by omega) (by omega), hbytes, State.wakeFor_mem, State.stored_eq,
      take_drop_map_range _ (by omega), State.wakeFor_mem]
    obtain ⟨m, hm⟩ : ∃ m, m = min n (64 - a % 64) := ⟨_, rfl⟩
    obtain ⟨k, hk⟩ : ∃ k, n = m + k := ⟨n - m, by omega⟩
    rw [← hm, hk, Nat.add_sub_cancel_left, List.range_add, List.map_append, List.map_map]
    congr 1
    · refine List.map_congr_left fun i _ => ?_
      congr 1
      omega
    · refine List.map_congr_left fun i _ => ?_
      simp only [Function.comp_apply]
      congr 1
      omega

/-- A read of device memory with an empty cache gives the bytes that stand there. -/
theorem State.devRead_of_hcc_nil {s : State} (h : s.mem.hcc = []) (part : Nat) {a n : Nat} (ha : a + n ≤ memBytes) :
    (s.devRead part a n).1 = s.devBytes a n := by
  rw [State.devBytes_of_hcc_nil h]
  exact (State.cacheClean_of_hcc_nil h).memRd part _ a n (by omega) ha

/-! ### Writing within a line -/

/-- Every byte of a line lies in the line's slice and set. -/
theorem sliceSet_line (grouped : Bool) (a : Nat) : sliceSet grouped (64 * (a / 64)) = sliceSet grouped a := by
  have hmod : 64 * (a / 64) % 256 / 64 = a % 256 / 64 := by omega
  cases grouped
  · have hdiv : 64 * (a / 64) / 256 = a / 256 := by omega
    simp only [sliceSet, locate, Bool.false_eq_true, if_false, hdiv]
    refine Prod.ext rfl ?_
    simp only
    omega
  · have hchan : 64 * (a / 64) / 0xC00000000 = a / 0xC00000000 := by omega
    have hdiv : 64 * (a / 64) % 0xC00000000 / 256 = a % 0xC00000000 / 256 := by omega
    have hoff : 64 * (a / 64) % 0xC00000000 % 256 / 64 = a % 0xC00000000 % 256 / 64 := by omega
    simp only [sliceSet, locate, if_true, hchan, hdiv]
    refine Prod.ext rfl ?_
    simp only
    omega

/-- The bytes laid over a line are there. -/
theorem getD_overlay (old bs : List Byte) {lo i : Nat} (hlo : lo ≤ old.length) (hi : i < bs.length) :
    (overlay old lo bs).getD (lo + i) 0 = bs.getD i 0 := by
  have hlen : (old.take lo).length = lo := by simp [hlo]
  rw [overlay, List.append_assoc, List.getD_append_right _ _ _ _ (by omega), hlen, Nat.add_sub_cancel_left,
    List.getD_append _ _ _ _ hi]

/-- A line fetched whole has 64 bytes; what a write lays its bytes over reaches up to them. -/
theorem State.under_spec (s : State) (line : Nat) {lo : Nat} {bs : List Byte} (hlo : lo + bs.length ≤ 64) :
    lo ≤ (s.under line bs).1.length ∧ (s.under line bs).2.2.mem = s.mem := by
  unfold State.under
  split
  · next h => exact ⟨by simp at h; simp; omega, rfl⟩
  · obtain ⟨hbs, hmem, -⟩ := s.fetchLine_clean line 0
    exact ⟨by rw [hbs, State.stored_eq]; simp; omega, hmem⟩

/-- With an empty cache a victim is a way of the set. -/
theorem State.victim_of_hcc_nil {s u : State} (h : s.mem.hcc = []) {sl set mask w : Nat}
    (hv : s.victim sl set mask = (some w, u)) : w < 16 ∧ u.mem = s.mem := by
  have hway (v : Nat) : s.way sl set v = none := by rw [State.way, h]; rfl
  unfold State.victim at hv
  simp only [hway] at hv
  split at hv
  case isTrue hnil =>
    simp only [Option.map_none, List.filterMap_none, List.filter_nil, lruOf] at hv
    cases hv
  case isFalse =>
    obtain ⟨hget, rfl⟩ := Prod.mk.inj hv
    exact ⟨List.mem_range.1 (List.mem_filter.1 (List.mem_filter.1 (List.mem_of_getElem? hget)).1).1, rfl⟩

/-- A line put into a way of its set is found there, where the cache held nothing. -/
theorem State.findWay_putLine {s : State} (h : s.mem.hcc = []) (sl set : Nat) {w : Nat} (hw : w < 16) (l : HccLine) :
    (s.putLine (wayKey sl set w) l).findWay sl set l.line = some (w, l) := by
  have hway (v : Nat) : (s.putLine (wayKey sl set w) l).way sl set v = if v = w then some l else none := by
    rw [State.way, State.hcc_putLine, h]
    by_cases hv : v = w
    · rw [if_pos hv, if_pos (by rw [hv]; rfl)]
    · rw [if_neg hv, if_neg (by unfold wayKey; omega)]; rfl
  cases hfind : (s.putLine (wayKey sl set w) l).findWay sl set l.line with
  | none =>
    have hnone := List.findSome?_eq_none_iff.1 hfind w (List.mem_range.2 hw)
    rw [hway, if_pos rfl] at hnone
    simp at hnone
  | some e =>
    obtain ⟨v, m⟩ := e
    obtain ⟨hm, -⟩ := State.findWay_some hfind
    have hv : (s.putLine (wayKey sl set w) l).way sl set v = some m := hm
    rw [hway] at hv
    split at hv
    · next heq => cases hv; rw [heq]
    · cases hv

/-- A byte written within a line of an empty cache is read back. -/
theorem State.devByte_lineWrite {s : State} (h : s.mem.hcc = []) {line lo i : Nat} {bs : List Byte} (po : Bool)
    (part : Nat) (hlo : lo + bs.length ≤ 64) (hi : i < bs.length) :
    (s.lineWrite line lo bs po .default part true .clean .clean).devByte (64 * line + (lo + i)) = bs.getD i 0 := by
  have hline : (64 * line + (lo + i)) / 64 = line := by omega
  have hoff : (64 * line + (lo + i)) % 64 = lo + i := by omega
  have haccess := s.accessed_lineWrite line lo bs po part
  have hslot : sliceSet (s.lineWrite line lo bs po .default part true .clean .clean).grouped (64 * line + (lo + i)) =
      sliceSet s.grouped (64 * line) := by
    rw [haccess.grouped, ← sliceSet_line, hline]
  unfold State.devByte
  rw [hslot, hline, hoff, State.lineWrite_miss lo bs po part (State.findWay_of_hcc_nil h ..)]
  dsimp only
  generalize hu : (s.heatUp (sliceSet s.grouped (64 * line)).1 line).inc (pHCC (sliceSet s.grouped (64 * line)).1)
    0xF18 = u
  have hgroup : (u.under line bs).2.2.grouped = s.grouped := by
    rw [(u.accessed_under line bs).grouped, ← hu, (s.accessed_heatUp_inc _ line 1 (by decide) (by decide)).grouped]
  obtain ⟨hunder, hmem⟩ := u.under_spec line hlo
  have hnil : (u.under line bs).2.2.mem.hcc = [] := by rw [hmem, ← hu]; exact h
  generalize u.under line bs = f at hgroup hunder hnil
  have hbyte := getD_overlay f.1 bs hunder hi
  cases halloc : f.2.2.allocate line part (overlay f.1 lo bs) true false (markAfter f.2.1 (bs.length == 64) po) with
  | some t =>
    obtain ⟨w, v, l, hvictim, rfl, hdata, -, rfl⟩ := State.allocate_some halloc
    obtain ⟨hw, hv⟩ := State.victim_of_hcc_nil hnil hvictim
    have hvnil : v.mem.hcc = [] := by rw [hv, hnil]
    rw [(State.cacheClean_of_hcc_nil hvnil).evict, Option.getD_some, hgroup, State.findWay_putLine hvnil _ _ hw]
    simp only [hdata, hbyte]
  | none =>
    have hback : (f.2.2.writeBack line (overlay f.1 lo bs) (markAfter f.2.1 (bs.length == 64) po)).mem.bytes =
        ssets 0 f.2.2.mem.bytes (64 * line) ((overlay f.1 lo bs).take 64) := rfl
    rw [Option.getD_none, State.findWay_of_hcc_nil (by exact hnil)]
    dsimp only
    have hlen : lo + i < ((overlay f.1 lo bs).take 64).length := by simp [overlay]; omega
    rw [hback, sget_ssets, if_pos (by omega), Nat.add_sub_cancel_left, ← hbyte,
      List.getD_eq_getElem _ _ hlen, List.getElem_take, List.getD_eq_getElem]

/-- A write within a line is one write of the line. -/
theorem State.devWrite_within_line (s : State) (part : Nat) {a : Nat} {bs : List Byte} (po : Bool) (hbs : bs ≠ [])
    (hfit : a % 64 + bs.length ≤ 64) (ha : a < memBytes) :
    s.devWrite part a bs po = (s.wakeFor a).lineWrite (a / 64) (a % 64) bs po .default part true .clean .clean := by
  have hnil (fuel : Nat) (u : State) (b : Nat) : u.memWr .default part true po fuel b [] = u := by
    cases fuel <;> simp [State.memWr]
  have hlen : min bs.length (64 - a % 64) = bs.length := by omega
  rw [State.devWrite, State.memWr, if_neg (by simp [hbs]; omega)]
  dsimp only
  rw [hlen, List.take_length, List.drop_length, hnil]

/-- What is written within a line, with an empty cache, is read back. -/
theorem State.devBytes_devWrite {s : State} (h : s.mem.hcc = []) (part : Nat) {a : Nat} {bs : List Byte} (po : Bool)
    (hfit : a % 64 + bs.length ≤ 64) (ha : a < memBytes) : (s.devWrite part a bs po).devBytes a bs.length = bs := by
  refine List.ext_getElem (by simp [State.devBytes]) fun i _ hi => ?_
  have hbs : bs ≠ [] := List.ne_nil_of_length_pos (by omega)
  have hbyte : 64 * (a / 64) + (a % 64 + i) = a + i := by omega
  have hread := State.devByte_lineWrite (s := s.wakeFor a) (by rw [State.wakeFor_mem, h]) (line := a / 64) po part
    hfit hi
  rw [hbyte, ← State.devWrite_within_line s part po hbs hfit ha, List.getD_eq_getElem _ _ hi] at hread
  rw [← hread]
  simp only [State.devBytes, List.getElem_map, List.getElem_range]

end Sys2Proof.Machine
end

section
/-! PROOF. The NV-write unit: what its guard reads, how it starts or refuses an operation, and what no refusal touches
(03_power_clocks.md R88 to R92). -/

namespace Sys2Proof.Machine

/-! ### Parts of the state that stand as they were -/

theorem State.nv_queue_eta {s : State} {q : List NvOp} (h : s.nv.queue = q) :
    ({ s with nv := { s.nv with queue := q } } : State) = s := by
  subst h; rfl

theorem State.chk_refused_eta {s : State} (h : s.chk.refused = false) :
    ({ s with chk := { s.chk with refused := false } } : State) = s := by
  rw [← h]

section
variable {s t : State}

/-- The same change of the journal's state on both sides of a noted step. -/
theorem State.noted.withChk (h : s.noted t) (c : Chk) : ({ s with chk := c } : State).noted { t with chk := c } := by
  unfold State.noted at h
  exact congrArg (fun x : State => { x with chk := c }) h

/-- The same change of the NV storage on both sides of a noted step. -/
theorem State.noted.withNv (h : s.noted t) (n : Nv) : ({ s with nv := n } : State).noted { t with nv := n } := by
  unfold State.noted at h
  exact congrArg (fun x : State => { x with nv := n }) h

end

/-! ### The guard -/

/-- The guard reads the hold-up time, its measurement and the warns. -/
theorem State.nvGuard_congr {s t : State} (hhold : t.reg pAON 0x100 = s.reg pAON 0x100)
    (hmeas : t.reg pAON 0x818 = s.reg pAON 0x818) (hwarn : t.pw.warn = s.pw.warn) (op : NvOp) :
    t.nvGuard op = s.nvGuard op := by
  rw [State.nvGuard, State.nvGuard, hhold, hmeas, hwarn]

/-- The guard looks at the kind of an operation alone. -/
theorem State.nvGuard_of_kind (s : State) {op op' : NvOp} (h : op.kind = op'.kind) : s.nvGuard op = s.nvGuard op' := by
  rw [State.nvGuard, State.nvGuard, h]

/-- The guard refuses with NV_HOLDUP or NV_SAG. -/
theorem State.nvGuard_some {s : State} {op : NvOp} {st : BitVec 16} (h : s.nvGuard op = some st) :
    st = stNV_HOLDUP ∨ st = stNV_SAG := by
  unfold State.nvGuard at h
  simp only [] at h
  split at h
  · exact .inl (Option.some.inj h).symm
  split at h
  · exact .inr (Option.some.inj h).symm
  split at h
  · exact .inl (Option.some.inj h).symm
  split at h
  · exact .inl (Option.some.inj h).symm
  · cases h

/-- The guard lets an erase start where NV_BLOCKED reads 0. -/
theorem State.nvGuard_erase {s : State} (h : s.nvBlocked = false) {op : NvOp} (hkind : op.kind = 2) :
    s.nvGuard op = none := by
  simp only [State.nvBlocked, Bool.or_eq_false_iff, bne_eq_false_iff_eq, beq_eq_false_iff_ne] at h
  obtain ⟨hwarn, hhold⟩ := h
  simp [State.nvGuard, hwarn, hhold, hkind]

/-! ### One operation -/

/-- AON_NV_LAST shows an operation's kind and what became of it. -/
def State.nvShown (s : State) (op : NvOp) (d : Nat) : State :=
  s.setReg pAON 0x814 (BitVec.ofNat 32 (d + op.kind * 16))

theorem State.nvRun_starts {s : State} {op : NvOp} {rest : List NvOp} (fuel : Nat) (hop : s.nv.op = none)
    (hqueue : s.nv.queue = op :: rest) (hguard : s.nvGuard op = none)
    (hblank : ∀ off bs, op.page = some (off, bs) → s.flashBlank off = true) :
    s.nvRun (fuel + 1) =
      { s.nvShown op 0 with nv := { s.nv with queue := rest, op := some op } } := by
  have hguard' : ({ s with nv := { s.nv with queue := rest } } : State).nvGuard op = none := hguard
  unfold State.nvRun
  rw [hop, hqueue]
  simp only [hguard']
  cases hpage : op.page with
  | none => rfl
  | some e =>
    have hblank' : ({ s with nv := { s.nv with queue := rest } } : State).flashBlank e.1 = true := hblank _ _ hpage
    simp only [hblank', if_true]
    rfl

theorem State.nvRun_refuses {s : State} {op : NvOp} {rest : List NvOp} {st : BitVec 16} (fuel : Nat)
    (hop : s.nv.op = none) (hqueue : s.nv.queue = op :: rest) (hguard : s.nvGuard op = some st) :
    s.nvRun (fuel + 1) =
      ((((({ s with nv := { s.nv with queue := rest } } : State).nvShown op (if st = stNV_SAG then 1 else 2)).inc pAON
        0xF10).raise pAON 25).nvRefused op st).nvRun fuel := by
  have hguard' : ({ s with nv := { s.nv with queue := rest } } : State).nvGuard op = some st := hguard
  conv_lhs => unfold State.nvRun
  rw [hop, hqueue]
  simp only [hguard']
  rfl

theorem State.nvRun_not_blank {s : State} {op : NvOp} {rest : List NvOp} {off : Nat} {bs : List Byte} (fuel : Nat)
    (hop : s.nv.op = none) (hqueue : s.nv.queue = op :: rest) (hguard : s.nvGuard op = none)
    (hpage : op.page = some (off, bs)) (hblank : s.flashBlank off = false) :
    s.nvRun (fuel + 1) =
      ((({ s with nv := { s.nv with queue := rest } } : State).nvShown op 3).nvRefused op stNOT_BLANK).nvRun fuel := by
  have hguard' : ({ s with nv := { s.nv with queue := rest } } : State).nvGuard op = none := hguard
  have hblank' : ({ s with nv := { s.nv with queue := rest } } : State).flashBlank off = false := hblank
  conv_lhs => unfold State.nvRun
  rw [hop, hqueue]
  simp only [hguard', hpage, hblank', Bool.false_eq_true, if_false]
  rfl

/-- While an operation runs, the unit takes no other. -/
theorem State.nvRun_busy {s : State} (fuel : Nat) (hop : s.nv.op ≠ none) : s.nvRun fuel = s := by
  cases fuel with
  | zero => rfl
  | succ fuel =>
    unfold State.nvRun
    split
    · next h _ => exact absurd h hop
    · rfl

/-! ### Submission -/

/-- Nothing runs and nothing waits. -/
def State.NvIdle (s : State) : Prop := s.nv.op = none ∧ s.nv.queue = []

/-- An idle unit runs on the operation submitted. -/
theorem State.nvSubmit_of_idle {s : State} (h : s.NvIdle) (op : NvOp) :
    s.nvSubmit op = ({ s with nv := { s.nv with queue := [op] } } : State).nvRun (s.journalPages + 1 + 1) := by
  rw [State.nvSubmit, State.nvGo, h.2]
  change State.nvRun (1 + s.journalPages + 1) _ = _
  rw [Nat.add_comm 1]
  rfl

/-- A unit at rest starts an operation that its guard lets, on a page that is blank. -/
theorem State.nvSubmit_starts {s : State} {op : NvOp} (h : s.NvIdle) (hguard : s.nvGuard op = none)
    (hblank : ∀ off bs, op.page = some (off, bs) → s.flashBlank off = true) :
    s.nvSubmit op = { s.nvShown op 0 with nv := { s.nv with op := some op } } := by
  have hqueue : ({ s.nv with op := some op } : Nv) = { s.nv with queue := [], op := some op } := by rw [← h.2]
  rw [State.nvSubmit_of_idle h,
    State.nvRun_starts (s := { s with nv := { s.nv with queue := [op] } }) (rest := []) _ h.1 rfl hguard hblank, hqueue]
  rfl

/-- A unit at rest refuses an operation that its guard does not let. -/
theorem State.nvSubmit_refuses {s : State} {op : NvOp} {st : BitVec 16} (h : s.NvIdle)
    (hguard : s.nvGuard op = some st) :
    s.nvSubmit op = ((((s.nvShown op (if st = stNV_SAG then 1 else 2)).inc pAON 0xF10).raise pAON 25).nvRefused op
      st).nvRun (s.journalPages + 1) := by
  rw [State.nvSubmit_of_idle h,
    State.nvRun_refuses (s := { s with nv := { s.nv with queue := [op] } }) (rest := []) _ h.1 rfl hguard, State.nv_queue_eta h.2]

/-- A unit at rest refuses to program a page that is not blank. -/
theorem State.nvSubmit_not_blank {s : State} {op : NvOp} {off : Nat} {bs : List Byte} (h : s.NvIdle)
    (hguard : s.nvGuard op = none) (hpage : op.page = some (off, bs)) (hblank : s.flashBlank off = false) :
    s.nvSubmit op = ((s.nvShown op 3).nvRefused op stNOT_BLANK).nvRun (s.journalPages + 1) := by
  rw [State.nvSubmit_of_idle h,
    State.nvRun_not_blank (s := { s with nv := { s.nv with queue := [op] } }) (rest := []) _ h.1 rfl hguard hpage hblank,
    State.nv_queue_eta h.2]

/-- An operation submitted while another runs waits. -/
theorem State.nvSubmit_busy {s : State} (hop : s.nv.op ≠ none) (op : NvOp) :
    s.nvSubmit op = { s with nv := { s.nv with queue := s.nv.queue ++ [op] } } :=
  State.nvRun_busy (s := { s with nv := { s.nv with queue := s.nv.queue ++ [op] } }) _ hop

/-! ### What no refusal touches -/

/-- The registers of the NVJ page that neither a refusal nor the outcome of a command changes. -/
def NvjSteady (k : Nat) : Prop := k < 0x910 ∨ (0xF20 ≤ k ∧ k < 0xF30)

/-- The stored bits, the memories and the steady registers of the NVJ page stand as they were. -/
structure State.NvKept (s t : State) : Prop where
  flash : t.nv.flash = s.nv.flash
  fuses : t.nv.fuses = s.nv.fuses
  mem : t.mem = s.mem
  reg : ∀ {k : Nat}, NvjSteady k → t.reg pNVJ k = s.reg pNVJ k

section
variable {s t u : State}

theorem State.NvKept.refl (s : State) : s.NvKept s := ⟨rfl, rfl, rfl, fun _ => rfl⟩

theorem State.NvKept.trans (h : s.NvKept t) (h' : t.NvKept u) : s.NvKept u :=
  ⟨h'.flash.trans h.flash, h'.fuses.trans h.fuses, h'.mem.trans h.mem, fun hk => (h'.reg hk).trans (h.reg hk)⟩

theorem State.NvKept.reg64 (h : s.NvKept t) {k : Nat} (hlow : NvjSteady k) (hhigh : NvjSteady (k + 4)) :
    t.reg64 pNVJ k = s.reg64 pNVJ k := by rw [State.reg64, State.reg64, h.reg hlow, h.reg hhigh]

/-- Changes of the unit's queue, of the journal's state and of the headers. -/
theorem State.NvKept.of_parts (hflash : t.nv.flash = s.nv.flash) (hfuses : t.nv.fuses = s.nv.fuses)
    (hmem : t.mem = s.mem) (hregs : t.regs = s.regs) : s.NvKept t :=
  ⟨hflash, hfuses, hmem, fun _ => State.reg_congr hregs ..⟩

/-- Registers of other pages, and those of the NVJ page that are not steady. -/
theorem State.nvKept_setReg (s : State) {p o : Nat} (v : Word32)
    (h : p ≠ pNVJ ∧ o < 0x1000 ∨ 0x910 ≤ o ∧ o < 0xF20 ∨ 0xF30 ≤ o ∧ o < 0x1000) : s.NvKept (s.setReg p o v) where
  flash := rfl
  fuses := rfl
  mem := rfl
  reg := by
    intro k hk
    have hnvj : pNVJ = 5 := rfl
    unfold NvjSteady at hk
    exact State.reg_setReg_ne _ _ (by omega)

theorem State.nvKept_inc (s : State) {p o : Nat} (n : Nat)
    (h : p ≠ pNVJ ∧ o + 4 < 0x1000 ∨ 0x910 ≤ o ∧ o + 4 < 0xF20 ∨ 0xF30 ≤ o ∧ o + 4 < 0x1000) :
    s.NvKept (s.inc p o n) :=
  (s.nvKept_setReg _ (by omega)).trans (State.nvKept_setReg _ _ (by omega))

theorem State.nvKept_raise (s : State) (p b : Nat) : s.NvKept (s.raise p b) where
  flash := by rw [State.raise_nv]
  fuses := by rw [State.raise_nv]
  mem := State.raise_mem ..
  reg := by
    intro k hk
    refine State.reg_raise_of_apart _ _ _ ?_
    have hnvj : pNVJ = 5 := rfl
    have hhif : pHIF = 6 := rfl
    unfold NvjSteady at hk
    omega

theorem State.nvKept_nvCmdDone (s : State) (off : Nat) (st : BitVec 16) : s.NvKept (s.nvCmdDone off st) := by
  have hshown := s.nvKept_setReg (p := pNVJ) (o := 0x910) (BitVec.ofNat 32 (st.toNat * 2 ^ 16)) (by decide)
  have hcount (u : State) : u.NvKept (u.inc pNVJ 0xF30) := u.nvKept_inc 1 (by decide)
  have htries (u : State) (v : Word32) : u.NvKept (u.setReg pAON 0x8B8 v) := u.nvKept_setReg v (by decide)
  unfold State.nvCmdDone
  simp only []
  split
  · split
    · exact (hshown.trans (hcount _)).trans (htries _ _)
    split
    · exact (hshown.trans (hcount _)).trans (htries _ _)
    · exact hshown.trans (hcount _)
  · exact hshown

theorem State.nvKept_nvRefused (s : State) (op : NvOp) (st : BitVec 16) : s.NvKept (s.nvRefused op st) := by
  have hcounted : s.NvKept ((s.inc pNVJ 0xF18).raise pNVJ 17) :=
    (s.nvKept_inc 1 (by decide)).trans (State.nvKept_raise ..)
  cases op with
  | fuse w v => exact s.nvKept_setReg _ (by decide)
  | cmdErase off => exact s.nvKept_nvCmdDone off st
  | cmdProgram off bs => exact s.nvKept_nvCmdDone off st
  | journal p bs =>
    unfold State.nvRefused
    simp only []
    split
    · exact hcounted.trans (.of_parts rfl rfl rfl rfl)
    · exact hcounted.trans (.of_parts rfl rfl rfl rfl)
  | journalErase off => exact hcounted.trans (.of_parts rfl rfl rfl rfl)
  | train st sl r next => exact .refl s

/-- However long the unit runs on, it starts and refuses operations and completes none. -/
theorem State.nvKept_nvRun : ∀ (fuel : Nat) (s : State), s.NvKept (s.nvRun fuel) := by
  intro fuel
  induction fuel with
  | zero => exact State.NvKept.refl
  | succ fuel ih =>
    intro s
    have hshown (u : State) (op : NvOp) (d : Nat) : u.NvKept (u.nvShown op d) := u.nvKept_setReg _ (by decide)
    unfold State.nvRun
    split
    case h_2 => exact .refl s
    case h_1 op rest _ _ =>
      have hpopped : s.NvKept { s with nv := { s.nv with queue := rest } } := .of_parts rfl rfl rfl rfl
      simp only []
      split
      next st _ =>
        have hcounted (u : State) : u.NvKept ((u.inc pAON 0xF10).raise pAON 25) :=
          (u.nvKept_inc 1 (by decide)).trans (State.nvKept_raise ..)
        exact (((hpopped.trans (hshown _ op (if st = stNV_SAG then 1 else 2))).trans (hcounted _)).trans
          (State.nvKept_nvRefused ..)).trans (ih _)
      split
      · split
        · exact (hpopped.trans (hshown _ op 0)).trans (.of_parts rfl rfl rfl rfl)
        · exact ((hpopped.trans (hshown _ op 3)).trans (State.nvKept_nvRefused ..)).trans (ih _)
      · exact (hpopped.trans (hshown _ op 0)).trans (.of_parts rfl rfl rfl rfl)

theorem State.nvKept_nvSubmit (s : State) (op : NvOp) : s.NvKept (s.nvSubmit op) := by
  have hqueued : s.NvKept { s with nv := { s.nv with queue := s.nv.queue ++ [op] } } := .of_parts rfl rfl rfl rfl
  unfold State.nvSubmit State.nvGo
  exact hqueued.trans (State.nvKept_nvRun ..)

end

end Sys2Proof.Machine
end

section
/-! PROOF. Journal pages and flash commands handed to the NV-write unit at rest: what is started, what is refused, and
what a page that is not blank gives (19_receipts.md R564, R565; 04_reset_boot.md R114). -/

namespace Sys2Proof.Machine

/-! ### The page that the staged entries make -/

/-- The bytes of the page. -/
def State.stagedPage (s : State) : List Byte :=
  let bs := s.chk.staged.flatMap (fun e => e.1)
  bs ++ List.replicate (256 - bs.length) 0xFF

/-- The operation that programs it. -/
def State.stagedOp (s : State) : NvOp := .journal s.chk.nextPage s.stagedPage

/-- A page is due and nothing stands against it. -/
def State.mayWritePage (s : State) : Bool :=
  s.pgEn pNVJ && s.journalDue && !s.chk.refused && !s.journalBusy && !s.journalFull

/-- A page written after no refusal is the page submitted. -/
theorem State.journalWrite_of_not_refused {s : State} (h : s.chk.refused = false) :
    s.journalWrite = s.nvSubmit s.stagedOp := by
  unfold State.journalWrite
  simp only []
  rw [State.chk_refused_eta h]
  rfl

theorem State.not_refused_of_mayWritePage {s : State} (h : s.mayWritePage = true) : s.chk.refused = false := by
  simp only [State.mayWritePage, Bool.and_eq_true, Bool.not_eq_true'] at h
  exact h.1.1.2

/-- JOURNAL_PAGE_WRITE submits the page where it may. -/
theorem exec_journalPageWrite {s : State} (h : s.mayWritePage = true) :
    exec .journalPageWrite s = .next (s.nvSubmit s.stagedOp) := by
  rw [← State.journalWrite_of_not_refused (State.not_refused_of_mayWritePage h)]
  simp only [State.mayWritePage, Bool.and_eq_true, Bool.not_eq_true'] at h
  obtain ⟨⟨⟨⟨hen, hdue⟩, hrefused⟩, hbusy⟩, hfull⟩ := h
  exact congrArg Host.Outcome.next (if_pos (by simp only [hen, hdue, hrefused, hbusy, hfull]; decide))

theorem exec_journalPageWrite_not {s : State} (h : s.mayWritePage = false) : exec .journalPageWrite s = .next s := by
  refine congrArg Host.Outcome.next (if_neg ?_)
  rintro ⟨hen, hdue, hrefused, hbusy, hfull⟩
  simp [State.mayWritePage, hen, hdue, hrefused, hbusy, hfull] at h

/-! ### A page that does not start -/

/-- A page is programmed, whichever it is. -/
theorem NvOp.kind_journal (p : Nat) (bs : List Byte) : (NvOp.journal p bs).kind = 0 := rfl

/-- A refused page is counted, and raises its event (R565). -/
def State.pageCounted (s : State) : State := (s.inc pNVJ 0xF18).raise pNVJ 17

theorem State.pageCounted_noted (s : State) : s.noted s.pageCounted := (s.inc_noted ..).raise pNVJ 17

theorem State.pageCounted_count (s : State) : s.pageCounted.reg64 pNVJ 0xF18 = s.reg64 pNVJ 0xF18 + 1 := by
  rw [State.pageCounted, State.reg64_raise_of_apart _ _ _ (by decide), State.reg64_inc_same]
  rfl

theorem State.pageCounted_evt (s : State) : bit (s.pageCounted.page pNVJ).evt 17 = true :=
  State.evt_raise _ pNVJ (by decide)

/-- Refused by the guard, the entries stay staged. -/
theorem State.nvRefused_page {s : State} {st : BitVec 16} (hst : st ≠ stNOT_BLANK) (p : Nat) (bs : List Byte) :
    s.nvRefused (.journal p bs) st = { s.pageCounted with chk := { s.chk with refused := true } } := by
  rw [← s.pageCounted_noted.chk]
  exact if_neg hst

/-- Refused by a page that is not blank, the entries go to the next page. -/
theorem State.nvRefused_page_not_blank (s : State) (p : Nat) (bs : List Byte) :
    s.nvRefused (.journal p bs) stNOT_BLANK =
      ({ s.pageCounted with chk := { s.chk with nextPage := (p + 1) % max 1 s.journalPages } } : State).nvFront
        (.journal ((p + 1) % max 1 s.journalPages) bs) := by
  have hpages : s.pageCounted.journalPages = s.journalPages := by
    rw [State.journalPages, s.pageCounted_noted.nv, State.journalPages]
  unfold State.nvRefused
  simp only [if_true]
  rw [← s.pageCounted_noted.chk, ← hpages]
  rfl

/-- A page submitted to a unit at rest whose guard does not let it. -/
theorem State.nvSubmit_page_refused {s : State} {p : Nat} {bs : List Byte} {st : BitVec 16} (h : s.NvIdle)
    (hguard : s.nvGuard (.journal p bs) = some st) :
    ∃ u, s.noted u ∧ u.reg64 pNVJ 0xF18 = s.reg64 pNVJ 0xF18 ∧
      s.nvSubmit (.journal p bs) = { u.pageCounted with chk := { s.chk with refused := true } } := by
  have hst : st ≠ stNOT_BLANK := by
    obtain rfl | rfl := State.nvGuard_some hguard <;> decide
  rw [State.nvSubmit_refuses h hguard]
  generalize hu : ((s.nvShown (.journal p bs) (if st = stNV_SAG then 1 else 2)).inc pAON 0xF10).raise pAON 25 = u
  have hnoted : s.noted u := by
    rw [← hu]
    exact ((s.setReg_noted ..).inc ..).raise ..
  refine ⟨u, hnoted, ?_, ?_⟩
  · rw [← hu, State.reg64_raise_of_apart _ _ _ (by decide), State.reg64_inc_ne _ _ (by decide), State.nvShown,
      State.reg64_setReg_ne _ _ (by decide)]
  · rw [State.nvRefused_page hst, hnoted.chk]
    refine State.nvRun_of_queue_nil _ ?_
    change u.pageCounted.nv.queue = []
    rw [u.pageCounted_noted.nv, hnoted.nv, h.2]

/-- A page submitted to a unit at rest, where the page is not blank and the next one is. -/
theorem State.nvSubmit_page_not_blank {s : State} {p : Nat} {bs : List Byte} (h : s.NvIdle)
    (hguard : s.nvGuard (.journal p bs) = none) (hblank : s.flashBlank (journalOff p) = false) :
    let q := (p + 1) % max 1 s.journalPages
    s.flashBlank (journalOff q) = true →
    ∃ u, s.noted u ∧ u.reg64 pNVJ 0xF18 = s.reg64 pNVJ 0xF18 ∧
      s.nvSubmit (.journal p bs) = { u.pageCounted.nvShown (.journal q bs) 0 with
        nv := { s.nv with op := some (.journal q bs) }, chk := { s.chk with nextPage := q } } := by
  intro q hnext
  generalize hu : s.nvShown (.journal p bs) 3 = u
  have hnoted : s.noted u := hu ▸ s.setReg_noted ..
  have hreg {k a : Nat} (h : k * 4096 + a ≠ pAON * 4096 + 0x814) : u.reg k a = s.reg k a := by
    rw [← hu]; exact State.reg_setReg_ne _ _ h
  have hcounted : s.noted u.pageCounted := hnoted.trans u.pageCounted_noted
  have hguard' : u.pageCounted.nvGuard (.journal q bs) = none := by
    rw [← hguard, State.nvGuard_of_kind _ ((NvOp.kind_journal q bs).trans (NvOp.kind_journal p bs).symm)]
    refine State.nvGuard_congr ?_ ?_ (by rw [hcounted.pw]) _
    all_goals
      rw [State.pageCounted, State.reg_raise_of_lt _ _ _ (by decide), State.reg_inc_of_apart _ _ (by decide),
        hreg (by decide)]
  have hpages : u.journalPages = s.journalPages := by rw [State.journalPages, hnoted.nv, State.journalPages]
  refine ⟨u, hnoted, ?_, ?_⟩
  · rw [State.reg64, State.reg64, hreg (by decide), hreg (by decide)]
  rw [State.nvSubmit_not_blank h hguard rfl hblank, hu, State.nvRefused_page_not_blank, hpages, hnoted.chk]
  generalize hw : ({ u.pageCounted with chk := { s.chk with nextPage := q } } : State) = w
  have hnv : w.nv = s.nv := by rw [← hw]; exact hcounted.nv
  have hqueue : (w.nvFront (.journal q bs)).nv.queue = [.journal q bs] := by
    change NvOp.journal q bs :: w.nv.queue = _
    rw [hnv, h.2]
  have hop : (w.nvFront (.journal q bs)).nv.op = none := by
    change w.nv.op = none
    rw [hnv, h.1]
  have hstarted : ({ w.nv with queue := [], op := some (.journal q bs) } : Nv) =
      { s.nv with op := some (.journal q bs) } := by rw [hnv, ← h.2]
  have hstart : (w.nvFront (.journal q bs)).nvGuard (.journal q bs) = none := by
    rw [← hguard', ← hw]
    rfl
  rw [State.nvRun_starts s.journalPages hop hqueue hstart]
  · change ({ w.nvShown (.journal q bs) 0 with
      nv := { w.nv with queue := [], op := some (.journal q bs) } } : State) = _
    rw [hstarted, ← hw]
    rfl
  · intro off bs' hpage
    obtain ⟨rfl, -⟩ := Prod.mk.inj (Option.some.inj hpage)
    change (!w.nv.flash.any _) = true
    rw [hnv]
    exact hnext

/-! ### A page submitted again -/

/-- With an entry at or above TAIL in every sector, no sector is handed over. -/
theorem State.journalErases_of_held {s : State} (h : s.chk.pages.all (fun p => s.sectorHeld (p.1 / 16)) = true) :
    s.journalErases = s := by
  have hsecs : (s.chk.pages.map (fun p => p.1 / 16)).eraseDups.filter (fun k => !s.sectorHeld k) = [] := by
    refine List.filter_eq_nil_iff.2 fun k hk => ?_
    obtain ⟨p, hp, rfl⟩ := List.mem_map.1 (List.mem_eraseDups.1 hk)
    simp [List.all_eq_true.1 h p hp]
  rw [State.journalErases, hsecs, List.foldl_nil]

theorem State.journalBusy_of_idle {s : State} (h : s.NvIdle) : s.journalBusy = false := by
  simp [State.journalBusy, h.1, h.2]

/-- JOURNAL_RESUBMIT submits the refused page again (R565). -/
theorem exec_journalResubmit {s : State} (hrefused : s.chk.refused = true) (hblocked : s.nvBlocked = false)
    (hidle : s.NvIdle) (hstaged : s.chk.staged ≠ []) (hfull : s.journalFull = false)
    (hheld : s.chk.pages.all (fun p => s.sectorHeld (p.1 / 16)) = true) :
    exec .journalResubmit s =
      .next (({ s with chk := { s.chk with refused := false } } : State).nvSubmit s.stagedOp) := by
  refine (congrArg Host.Outcome.next (if_pos (by simp [hrefused, hblocked]))).trans ?_
  generalize hu : ({ s with chk := { s.chk with refused := false } } : State) = u
  have hheld' : u.journalErases = u := by subst hu; exact State.journalErases_of_held hheld
  have hready : ¬ (u.chk.staged.isEmpty = true ∨ u.journalBusy = true ∨ u.journalFull = true) := by
    have hbusy : u.journalBusy = false := by subst hu; exact State.journalBusy_of_idle hidle
    have hroom : u.journalFull = false := by subst hu; exact hfull
    have hsome : u.chk.staged ≠ [] := by subst hu; exact hstaged
    simp [hbusy, hroom, hsome]
  have hop : u.stagedOp = s.stagedOp := by subst hu; rfl
  simp only []
  rw [hheld', if_neg hready, State.journalWrite_of_not_refused (by subst hu; rfl), hop]

theorem exec_journalResubmit_not {s : State} (h : s.chk.refused = false ∨ s.nvBlocked = true) :
    exec .journalResubmit s = .next s := by
  refine congrArg Host.Outcome.next (if_neg ?_)
  obtain h | h := h <;> simp [h]

/-! ### The flash commands -/

/-- A command that the page admits is judged on a state whose headers alone may differ, with the page enabled. -/
theorem State.write_nvCmd {s : State} {r : Requester} (h : s.admits r pNVJ 0x900 = true) (hen : s.pgEn pNVJ = true)
    (program : Bool) :
    ∃ g, s.write r pNVJ 0x900 (fun s => s.nvCmd program) = ({ s with pages := g } : State).nvCmd program ∧
      ({ s with pages := g } : State).pgEn pNVJ = true := by
  refine ⟨sset {} s.pages pNVJ ((s.page pNVJ).arm r false), ?_, ?_⟩
  · rw [State.write_of_admits (by decide) _ (by decide) h, State.setArmed_eq]
  · have hpage := s.page_setArmed r pNVJ pNVJ false
    rw [State.setArmed_eq, if_pos rfl] at hpage
    rw [State.pgEn, hpage, Page.arm_en]
    exact hen

/-- A command refused by a check of R114 shows its status. -/
theorem State.nvCmd_refused {s : State} (hen : s.pgEn pNVJ = true) {program : Bool} {st : BitVec 16}
    (h : s.nvCmdCheck program = some st) :
    s.nvCmd program = s.setReg pNVJ 0x910 (BitVec.ofNat 32 (bnat s.nvCmdBusy + st.toNat * 2 ^ 16)) := by
  simp only [State.nvCmd, hen, h, Bool.not_true, Bool.false_eq_true, if_false]

/-- An ERASE that passes the checks is handed to the unit. -/
theorem State.nvCmd_erase {s : State} (hen : s.pgEn pNVJ = true) (h : s.nvCmdCheck false = none) :
    s.nvCmd false = (s.setReg pNVJ 0x910 1).nvSubmit (.cmdErase (s.reg pNVJ 0x904).toNat) := by
  simp only [State.nvCmd, hen, h, Bool.not_true, Bool.false_eq_true, if_false]

/-- A PROGRAM that passes the checks reads its page and hands it to the unit. -/
theorem State.nvCmd_program {s : State} (hen : s.pgEn pNVJ = true) (h : s.nvCmdCheck true = none) :
    let u := s.setReg pNVJ 0x910 1
    let d := u.devRead u.sysPart (s.reg64 pNVJ 0x908).toNat 256
    s.nvCmd true = d.2.2.nvSubmit (.cmdProgram (s.reg pNVJ 0x904).toNat d.1) := by
  intro u d
  have hsrc : u.reg64 pNVJ 0x908 = s.reg64 pNVJ 0x908 := State.reg64_setReg_ne _ _ (by decide)
  simp only [State.nvCmd, hen, h, Bool.not_true, Bool.false_eq_true, if_false, if_true]
  change (u.devRead u.sysPart (u.reg64 pNVJ 0x908).toNat 256).2.2.nvSubmit (.cmdProgram _
    (u.devRead u.sysPart (u.reg64 pNVJ 0x908).toNat 256).1) = _
  rw [hsrc]

/-- A PROGRAM that passes the checks reads inside device memory. -/
theorem State.program_source_fits {s : State} (h : s.nvCmdCheck true = none) :
    (s.reg64 pNVJ 0x908).toNat + 256 ≤ memBytes := by
  by_contra hlong
  have hbound : s.nvCmdCheck true = some stBOUND := if_pos (.inr (.inl ⟨rfl, .inr (Nat.not_le.1 hlong)⟩))
  rw [h] at hbound
  cases hbound

/-- An erase started by a unit at rest. -/
theorem State.nvCmd_erase_starts {s : State} (hen : s.pgEn pNVJ = true) (h : s.nvCmdCheck false = none)
    (hidle : s.NvIdle) (hguard : s.nvGuard (.cmdErase (s.reg pNVJ 0x904).toNat) = none) :
    let op : NvOp := .cmdErase (s.reg pNVJ 0x904).toNat
    s.nvCmd false = { (s.setReg pNVJ 0x910 1).nvShown op 0 with nv := { s.nv with op := some op } } := by
  have hguard' : (s.setReg pNVJ 0x910 1).nvGuard (.cmdErase (s.reg pNVJ 0x904).toNat) = none := by
    rw [← hguard]
    exact State.nvGuard_congr (State.reg_setReg_ne _ _ (by decide)) (State.reg_setReg_ne _ _ (by decide)) rfl _
  rw [State.nvCmd_erase hen h, State.nvSubmit_starts (s := s.setReg pNVJ 0x910 1) hidle hguard' (by rintro _ _ ⟨⟩)]
  rfl

/-- A program started by a unit at rest: an access of memory stands between the command and its start. -/
theorem State.nvCmd_program_starts {s : State} (hen : s.pgEn pNVJ = true) (h : s.nvCmdCheck true = none)
    (hidle : s.NvIdle) (hguard : ∀ bs, s.nvGuard (.cmdProgram (s.reg pNVJ 0x904).toNat bs) = none)
    (hblank : s.flashBlank (s.reg pNVJ 0x904).toNat = true) :
    ∃ bs v, (s.setReg pNVJ 0x910 1).Accessed v ∧
      (s.mem.hcc = [] → bs = s.devBytes (s.reg64 pNVJ 0x908).toNat 256) ∧
      s.nvCmd true = { v.nvShown (.cmdProgram (s.reg pNVJ 0x904).toNat bs) 0 with
        nv := { s.nv with op := some (.cmdProgram (s.reg pNVJ 0x904).toNat bs) } } := by
  rw [State.nvCmd_program hen h]
  generalize hu : s.setReg pNVJ 0x910 1 = u
  have haccess := u.accessed_devRead u.sysPart (s.reg64 pNVJ 0x908).toNat 256
  have hread := fun hcc => State.devRead_of_hcc_nil (s := u) hcc u.sysPart (State.program_source_fits h)
  generalize u.devRead u.sysPart (s.reg64 pNVJ 0x908).toNat 256 = d at haccess hread
  obtain ⟨bs, po, v⟩ := d
  have hunv : u.nv = s.nv := by rw [← hu]; rfl
  have humem : u.mem = s.mem := by rw [← hu]; rfl
  have hnv : v.nv = s.nv := haccess.nv.trans hunv
  have hguard' : v.nvGuard (.cmdProgram (s.reg pNVJ 0x904).toNat bs) = none := by
    rw [← hguard bs]
    refine State.nvGuard_congr ?_ ?_ (haccess.warn.trans (by rw [← hu]; rfl)) _
    all_goals rw [haccess.reg (.inl (by decide)), ← hu, State.reg_setReg_ne _ _ (by decide)]
  have hblank' (off : Nat) (bs' : List Byte)
      (hpage : (NvOp.cmdProgram (s.reg pNVJ 0x904).toNat bs).page = some (off, bs')) : v.flashBlank off = true := by
    obtain ⟨rfl, -⟩ := Prod.mk.inj (Option.some.inj hpage)
    rw [State.flashBlank, hnv]
    exact hblank
  have hidle' : v.NvIdle := by rw [State.NvIdle, hnv]; exact hidle
  refine ⟨bs, v, haccess, fun hcc => ?_, ?_⟩
  · have hbytes : u.devBytes (s.reg64 pNVJ 0x908).toNat 256 = s.devBytes (s.reg64 pNVJ 0x908).toNat 256 := by
      rw [State.devBytes_of_hcc_nil (by rw [humem, hcc]), State.devBytes_of_hcc_nil hcc, humem]
    rw [← hbytes]
    exact hread (by rw [humem, hcc])
  · rw [State.nvSubmit_starts hidle' hguard' hblank', hnv]

end Sys2Proof.Machine
end

section
/-! PROOF. The completion of a journal page: the flash, the receipt's slot and JPTR, HEAD, and the entries staged next
(19_receipts.md R564). -/

namespace Sys2Proof.Machine

/-! ### Events of conditions that a change brings -/

/-- Events have been raised: no register but the HIF page's count of messages has changed. -/
structure State.Signalled (s t : State) : Prop where
  noted : s.noted t
  reg : ∀ {q k : Nat}, q * 4096 + k < pHIF * 4096 + 0xF38 ∨ pHIF * 4096 + (0xF38 + 4) < q * 4096 + k →
    t.reg q k = s.reg q k

section
variable {s t u : State}

theorem State.Signalled.refl (s : State) : s.Signalled s := ⟨.refl s, fun _ => rfl⟩

theorem State.Signalled.raise (h : s.Signalled t) (p b : Nat) : s.Signalled (t.raise p b) where
  noted := h.noted.raise p b
  reg hq := (State.reg_raise_of_apart _ _ _ hq).trans (h.reg hq)

theorem State.Signalled.reg64 (h : s.Signalled t) {q k : Nat}
    (hq : q * 4096 + (k + 4) < pHIF * 4096 + 0xF38 ∨ pHIF * 4096 + (0xF38 + 4) < q * 4096 + k) :
    t.reg64 q k = s.reg64 q k := by
  rw [State.reg64, State.reg64, h.reg (by omega), h.reg (by omega)]

end

/-- The journal's watch raises events, and does nothing else to what a change leaves. -/
theorem State.signalled_chkWatch (s : State) (f : State → State) : (f s).Signalled (s.chkWatch f) := by
  have hwhen {t u : State} (h : t.Signalled u) (c : Prop) [Decidable c] (p b : Nat) :
      t.Signalled (if c then u.raise p b else u) := by
    split
    · exact h.raise p b
    · exact h
  have hfull : (f s).Signalled
      (if (f s).journalFull ∧ !s.journalFull then ((f s).raise pCHK 16).raise pNVJ 16 else f s) := by
    split
    · exact (State.Signalled.refl _ |>.raise ..).raise ..
    · exact .refl _
  exact hwhen (hwhen hfull ..) ..

/-! ### Entries staged next -/

/-- The journal's entries are no registers. -/
theorem State.reg_withChk (s : State) (c : Chk) (q k : Nat) :
    ({ s with chk := c } : State).reg q k = s.reg q k := State.reg_congr rfl ..

theorem State.reg64_withChk (s : State) (c : Chk) (q k : Nat) :
    ({ s with chk := c } : State).reg64 q k = s.reg64 q k := State.reg64_congr rfl ..

/-- Staging changes the journal's entries alone; it stages none where none waits. -/
theorem State.stageAll_eq (fuel : Nat) : ∀ s : State, ∃ c : Chk, s.stageAll fuel = { s with chk := c } ∧
    c.nextPage = s.chk.nextPage ∧ (s.chk.jwait = [] → s.chk.drops = 0 → c = s.chk) := by
  induction fuel with
  | zero => exact fun s => ⟨s.chk, rfl, rfl, fun _ _ => rfl⟩
  | succ fuel ih =>
    intro s
    unfold State.stageAll
    split
    · exact ⟨s.chk, rfl, rfl, fun _ _ => rfl⟩
    split
    case isTrue hdrops =>
      obtain ⟨c, hc, hnext, -⟩ := ih (({ s with chk := { s.chk with drops := 0 } } : State).stageEntry 2 0
        (leBytes 8 s.chk.drops) none)
      exact ⟨c, hc, hnext, fun _ h => by omega⟩
    split
    · exact ⟨s.chk, rfl, rfl, fun _ _ => rfl⟩
    case h_2 slot x d rest hwait =>
      obtain ⟨c, hc, hnext, -⟩ := ih (({ s with chk := { s.chk with jwait := rest } } : State).stageEntry 1 x d
        (some slot))
      exact ⟨c, hc, hnext, fun h => by rw [hwait] at h; cases h⟩

theorem State.stage_eq (s : State) : ∃ c : Chk, s.stage = { s with chk := c } ∧
    c.nextPage = s.chk.nextPage ∧ (s.chk.jwait = [] → s.chk.drops = 0 → c = s.chk) := s.stageAll_eq 4

/-! ### The receipts of a page -/

/-- Receipts have been marked journaled: registers outside the CHK page and the memories' counters stand. -/
structure State.Marked (s t : State) : Prop where
  frame : t = { s with mem := t.mem, pw := t.pw, regs := t.regs, free := t.free }
  reg : ∀ {q k : Nat}, Uncounted q k → q ≠ pCHK → t.reg q k = s.reg q k

section
variable {s t u : State}

theorem State.Marked.refl (s : State) : s.Marked s := ⟨rfl, fun _ _ => rfl⟩

theorem State.Marked.trans (h : s.Marked t) (h' : t.Marked u) : s.Marked u where
  frame := h'.frame.trans (congrArg (fun x : State => { x with
    mem := u.mem, pw := u.pw, regs := u.regs, free := u.free }) h.frame)
  reg hq hchk := (h'.reg hq hchk).trans (h.reg hq hchk)

theorem State.Accessed.marked (h : s.Accessed t) : s.Marked t := ⟨h.frame, fun hq _ => h.reg hq⟩

theorem State.Marked.nv (h : s.Marked t) : t.nv = s.nv := by rw [h.frame]
theorem State.Marked.chk (h : s.Marked t) : t.chk = s.chk := by rw [h.frame]

theorem State.Marked.reg64 (h : s.Marked t) {q k : Nat} (hlow : Uncounted q k) (hhigh : Uncounted q (k + 4))
    (hchk : q ≠ pCHK) : t.reg64 q k = s.reg64 q k := by
  rw [State.reg64, State.reg64, h.reg hlow hchk, h.reg hhigh hchk]

end

/-- The cached and stored bytes and the grouping decide what a read gives. -/
theorem State.devBytes_congr {s t : State} (hmem : t.mem = s.mem) (hgrouped : t.grouped = s.grouped) (a n : Nat) :
    t.devBytes a n = s.devBytes a n := by
  simp only [State.devBytes, State.devByte, State.findWay, State.way, hmem, hgrouped]

/-- The slot of a receipt with JSTATE and JSEQ of its entry written to it. -/
def State.slotMarked (s : State) (e : List Byte) (k : Nat) : State :=
  s.devWrite s.sysPart (s.ringSlot k + 0x1FF0) (leBytes 8 1 ++ slice e 8 8)

theorem State.accessed_slotMarked (s : State) (e : List Byte) (k : Nat) : s.Accessed (s.slotMarked e k) :=
  State.accessed_devWrite ..

/-- With an empty cache the slot reads as it was marked. -/
theorem State.devBytes_slotMarked (s : State) (e : List Byte) {k : Nat} (hcc : s.mem.hcc = [])
    (hfit : s.ringSlot k + 0x2000 ≤ memBytes) :
    (s.slotMarked e k).devBytes (s.ringSlot k + 0x1FF0) 16 = leBytes 8 1 ++ slice e 8 8 := by
  have hoff : (s.ringSlot k + 0x1FF0) % 64 = 48 := by unfold State.ringSlot; omega
  have hlen : (leBytes 8 1 ++ slice e 8 8).length = 16 := by simp [leBytes, slice]
  rw [← hlen]
  exact State.devBytes_devWrite hcc s.sysPart false (by omega) (by omega)

/-- A receipt below TAIL is left; another is marked, and JPTR goes above it. -/
theorem State.journaled_eq (s : State) (e : List Byte) (k : Nat) :
    s.journaled e k =
      if k < (s.reg64 pCHK 0x818).toNat then s
      else if ((s.slotMarked e k).reg64 pCHK 0x820).toNat ≤ k then
        (s.slotMarked e k).setReg64 pCHK 0x820 (BitVec.ofNat 64 (k + 1))
      else s.slotMarked e k := rfl

theorem State.marked_setJptr (s : State) (v : Word64) : s.Marked (s.setReg64 pCHK 0x820 v) where
  frame := rfl
  reg := by
    intro q k hq hchk
    have hpage : pCHK = 11 := rfl
    unfold Uncounted at hq
    exact State.reg_setReg64_ne _ _ (by omega)

theorem State.marked_journaled (s : State) (e : List Byte) (k : Nat) : s.Marked (s.journaled e k) := by
  rw [State.journaled_eq]
  split
  · exact .refl s
  split
  · exact (s.accessed_slotMarked e k).marked.trans (State.marked_setJptr ..)
  · exact (s.accessed_slotMarked e k).marked

/-- The receipts among the entries marked, each in turn. -/
def State.receiptsMarked (s : State) (es : List (List Byte × Option Nat)) : State :=
  es.foldl (fun s e => match e.2 with | some k => s.journaled e.1 k | none => s) s

theorem State.marked_receiptsMarked (s : State) (es : List (List Byte × Option Nat)) :
    s.Marked (s.receiptsMarked es) := by
  refine List.foldlRecOn (motive := s.Marked) _ _ (.refl s) fun t h e _ => ?_
  split
  · exact h.trans (t.marked_journaled ..)
  · exact h

/-! ### The page completed -/

/-- The journal once a page holds the staged entries. -/
def Chk.filed (c : Chk) (p pages : Nat) : Chk :=
  { c with
    staged := [], nextPage := (p + 1) % max 1 pages
    pages := (c.pages.filter (fun q => q.1 != p)) ++
      [(p, (c.staged.head?.map (fun e => lef e.1 8 8)).getD 0, (c.staged.getLast?.map (fun e => lef e.1 8 8)).getD 0)] }

/-- The page in the flash and among the journal's, before anything is counted. -/
def State.pageFiled (s : State) (p : Nat) (bs : List Byte) : State :=
  { s.flashWr (journalOff p) bs with chk := s.chk.filed p s.journalPages }

/-- The page filed and counted, and HEAD above its last entry, before its receipts are marked. -/
def State.pageStored (s : State) (p : Nat) (bs : List Byte) : State :=
  ({ ((s.flashWr (journalOff p) bs).inc pNVJ 0xF08).inc pNVJ 0xF00 s.chk.staged.length with
    chk := s.chk.filed p s.journalPages } : State).setReg64 pNVJ 0x800
    (BitVec.ofNat 64 ((s.chk.staged.getLast?.map (fun e => lef e.1 8 8)).getD 0 + 1))

theorem State.journalDone_eq (s : State) (p : Nat) (bs : List Byte) :
    s.journalDone p bs = ((s.pageStored p bs).receiptsMarked s.chk.staged).stage := by
  unfold State.journalDone State.receiptsMarked State.pageStored Chk.filed
  simp only [State.journalPages]
  rfl

section
variable (s : State) (p : Nat) (bs : List Byte)

theorem State.pageStored_flash (a : Nat) : (s.pageStored p bs).flash a =
    if journalOff p ≤ a ∧ a < journalOff p + bs.length then bs.getD (a - journalOff p) 0 else s.flash a := by
  change sget 0xFF (ssets 0xFF s.nv.flash (journalOff p) bs) a = _
  rw [sget_ssets]
  split
  · next h => rw [List.getD_eq_getElem _ _ (by omega), List.getD_eq_getElem _ _ (by omega)]
  · rfl

theorem State.pageStored_noted : (s.pageFiled p bs).noted (s.pageStored p bs) :=
  (((State.inc_noted ..).inc ..).withChk (s.chk.filed p s.journalPages)).setReg64 ..

theorem State.pageStored_reg {q k : Nat} (h : q ≠ pNVJ ∧ k < 0x1000 ∨ 0x804 < k ∧ k < 0xF00) :
    (s.pageStored p bs).reg q k = s.reg q k := by
  have hpage : pNVJ = 5 := rfl
  rw [State.pageStored, State.reg_setReg64_ne _ _ (by omega), State.reg_withChk, State.reg_inc_of_apart _ _ (by omega),
    State.reg_inc_of_apart _ _ (by omega)]
  rfl

/-- The pages and the entries are counted. -/
theorem State.pageStored_counts : (s.pageStored p bs).reg64 pNVJ 0xF08 = s.reg64 pNVJ 0xF08 + 1 ∧
    (s.pageStored p bs).reg64 pNVJ 0xF00 = s.reg64 pNVJ 0xF00 + BitVec.ofNat 64 s.chk.staged.length := by
  refine ⟨?_, ?_⟩
  · rw [State.pageStored, State.reg64_setReg64_ne _ _ (by decide), State.reg64_withChk,
      State.reg64_inc_ne _ _ (by decide), State.reg64_inc_same]
    rfl
  · rw [State.pageStored, State.reg64_setReg64_ne _ _ (by decide), State.reg64_withChk, State.reg64_inc_same,
      State.reg64_inc_ne _ _ (by decide)]
    rfl

/-- HEAD goes above the last entry. -/
theorem State.pageStored_head {e : List Byte × Option Nat} (h : s.chk.staged.getLast? = some e) :
    (s.pageStored p bs).reg64 pNVJ 0x800 = BitVec.ofNat 64 (lef e.1 8 8 + 1) := by
  rw [State.pageStored, State.reg64_setReg64_same, h]
  rfl

end

/-! ### The page completed and watched -/

/-- The page completed: its receipts marked, the next entries staged, and the conditions watched. -/
def State.pageCompleted (s : State) (p : Nat) (bs : List Byte) : State := s.chkWatch (fun s => s.journalDone p bs)

/-- What a completed page is made of. -/
theorem State.pageCompleted_parts (s : State) (p : Nat) (bs : List Byte) :
    ∃ c : Chk, ({ (s.pageStored p bs).receiptsMarked s.chk.staged with chk := c } : State).Signalled
        (s.pageCompleted p bs) ∧
      c.nextPage = (p + 1) % max 1 s.journalPages ∧ (s.chk.jwait = [] → s.chk.drops = 0 → c.staged = []) := by
  have hwatch := s.signalled_chkWatch (fun s => s.journalDone p bs)
  have hmarked := (s.pageStored p bs).marked_receiptsMarked s.chk.staged
  obtain ⟨c, hstage, hnext, hstaged⟩ := ((s.pageStored p bs).receiptsMarked s.chk.staged).stage_eq
  rw [hmarked.chk] at hnext hstaged
  refine ⟨c, ?_, hnext, fun hwait hdrops => by rw [hstaged hwait hdrops]; rfl⟩
  rw [← hstage, ← s.journalDone_eq p bs]
  exact hwatch

theorem State.pageCompleted_nv (s : State) (p : Nat) (bs : List Byte) :
    (s.pageCompleted p bs).nv = (s.pageStored p bs).nv := by
  obtain ⟨c, hsignalled, -, -⟩ := s.pageCompleted_parts p bs
  exact hsignalled.noted.nv.trans (State.marked_receiptsMarked ..).nv

theorem State.pageCompleted_chk (s : State) (p : Nat) (bs : List Byte) :
    (s.pageCompleted p bs).chk.nextPage = (p + 1) % max 1 s.journalPages ∧
      (s.chk.jwait = [] → s.chk.drops = 0 → (s.pageCompleted p bs).chk.staged = []) := by
  obtain ⟨c, hsignalled, hnext, hstaged⟩ := s.pageCompleted_parts p bs
  rw [hsignalled.noted.chk]
  exact ⟨hnext, hstaged⟩

theorem State.pageCompleted_reg64 (s : State) (p : Nat) (bs : List Byte) {k : Nat} (hk : k + 4 < 0x1000) :
    (s.pageCompleted p bs).reg64 pNVJ k = (s.pageStored p bs).reg64 pNVJ k := by
  obtain ⟨c, hsignalled, -, -⟩ := s.pageCompleted_parts p bs
  have hnvj : pNVJ = 5 := rfl
  have hhif : pHIF = 6 := rfl
  rw [hsignalled.reg64 (by omega), State.reg64_withChk]
  exact (State.marked_receiptsMarked ..).reg64 (.inr ⟨by decide, by decide, by omega⟩)
    (.inr ⟨by decide, by decide, by omega⟩) (by decide)

/-- Receipts marked and entries staged, beside what is noted. -/
theorem State.noted_of_marked {s d m t : State} {n : Nv} {c' c : Chk}
    (hd : ({ s with nv := n, chk := c' } : State).noted d) (hm : d.Marked m)
    (ht : ({ m with chk := c } : State).noted t) :
    ({ s with nv := t.nv, chk := t.chk, mem := t.mem, pw := t.pw } : State).noted t := by
  have hnv : m.nv = n := hm.nv.trans hd.nv
  rw [ht.nv, ht.chk, ht.mem, ht.pw]
  simp only []
  rw [hnv]
  unfold State.noted at hd ht ⊢
  exact ht.trans (congrArg (fun x : State => { x with
    chk := c, regs := t.regs, pages := t.pages, log := t.log, free := t.free, msixPend := t.msixPend, out := t.out,
    dmaWait := t.dmaWait }) (hm.frame.trans (congrArg (fun x : State => { x with
      mem := m.mem, pw := m.pw, regs := m.regs, free := m.free }) hd)))

theorem State.pageCompleted_noted (s : State) (p : Nat) (bs : List Byte) :
    let t := s.pageCompleted p bs
    ({ s with nv := t.nv, chk := t.chk, mem := t.mem, pw := t.pw } : State).noted t := by
  obtain ⟨c, hsignalled, -, -⟩ := s.pageCompleted_parts p bs
  exact State.noted_of_marked (s.pageStored_noted p bs) (State.marked_receiptsMarked ..) hsignalled.noted

/-- One receipt at JPTR marks its slot and advances JPTR. -/
theorem State.receiptsMarked_single {s : State} {e : List Byte} {k : Nat} (htail : (s.reg64 pCHK 0x818).toNat ≤ k)
    (hjptr : (s.reg64 pCHK 0x820).toNat = k) :
    s.receiptsMarked [(e, some k)] = (s.slotMarked e k).setReg64 pCHK 0x820 (BitVec.ofNat 64 (k + 1)) := by
  have hwritten : ((s.slotMarked e k).reg64 pCHK 0x820).toNat = k := by
    rw [(s.accessed_slotMarked e k).reg64 (.inl (by decide)) (.inl (by decide)), hjptr]
  rw [State.receiptsMarked, List.foldl_cons, List.foldl_nil]
  simp only []
  rw [State.journaled_eq, if_neg (Nat.not_lt.2 htail), if_pos (Nat.le_of_eq hwritten)]

/-- JPTR set, entries staged and events raised leave the memories as they read. -/
theorem State.signalled_setJptr {w t : State} {v : Word64} {c : Chk}
    (h : ({ w.setReg64 pCHK 0x820 v with chk := c } : State).Signalled t) :
    t.reg64 pCHK 0x820 = v ∧ t.mem = w.mem ∧ t.grouped = w.grouped := by
  refine ⟨?_, ?_, ?_⟩
  · rw [h.reg64 (by decide), State.reg64_withChk, State.reg64_setReg64_same]
  · rw [h.noted.mem, State.setReg64_mem]
  · rw [State.grouped, State.grouped, h.reg (by decide), State.reg_withChk, State.reg_setReg64_ne _ _ (by decide)]

/-- A page of one receipt that is at JPTR marks its slot and advances JPTR (R564). -/
theorem State.pageCompleted_receipt {s : State} {p : Nat} {bs e : List Byte} {k : Nat}
    (hstaged : s.chk.staged = [(e, some k)]) (htail : (s.reg64 pCHK 0x818).toNat ≤ k)
    (hjptr : (s.reg64 pCHK 0x820).toNat = k) :
    (s.pageCompleted p bs).reg64 pCHK 0x820 = BitVec.ofNat 64 (k + 1) ∧
      (s.mem.hcc = [] → s.ringSlot k + 0x2000 ≤ memBytes →
        (s.pageCompleted p bs).devBytes (s.ringSlot k + 0x1FF0) 16 = leBytes 8 1 ++ slice e 8 8) := by
  obtain ⟨c, hsignalled, -, -⟩ := s.pageCompleted_parts p bs
  have hreg64 {o : Nat} (ho : o + 4 < 0xF00) : (s.pageStored p bs).reg64 pCHK o = s.reg64 pCHK o := by
    rw [State.reg64, State.reg64, s.pageStored_reg p bs (.inl ⟨by decide, by omega⟩),
      s.pageStored_reg p bs (.inl ⟨by decide, by omega⟩)]
  have hslot : (s.pageStored p bs).ringSlot k = s.ringSlot k := by
    rw [State.ringSlot, hreg64 (by decide), State.ringSlot]
  have hmem : (s.pageStored p bs).mem = s.mem := (s.pageStored_noted p bs).mem
  rw [hstaged, State.receiptsMarked_single (by rw [hreg64 (by decide)]; exact htail)
    (by rw [hreg64 (by decide)]; exact hjptr)] at hsignalled
  obtain ⟨hset, hbytes, hgrouped⟩ := State.signalled_setJptr hsignalled
  refine ⟨hset, fun hcc hfit => ?_⟩
  rw [State.devBytes_congr hbytes hgrouped, ← hslot]
  exact State.devBytes_slotMarked _ e (by rw [hmem, hcc]) (by rw [hslot]; exact hfit)

/-! ### JOURNAL_PAGE_DONE -/

/-- With nothing waiting for the unit, the page is completed. -/
theorem exec_journalPageDone {p : Nat} {bs : List Byte} {s : State} (hop : s.nv.op = some (.journal p bs))
    (hqueue : s.nv.queue = []) :
    exec .journalPageDone s = .next (({ s with nv := { s.nv with op := none } } : State).pageCompleted p bs) := by
  have hdone : exec .journalPageDone s = .next (s.nvDone none) := by
    change Host.Outcome.next (match s.nv.op with | some (.journal ..) => s.nvDone none | _ => s) = _
    rw [hop]
  rw [hdone, State.nvDone, hop]
  refine congrArg Host.Outcome.next (State.nvGo_of_queue_nil ?_)
  change (State.pageCompleted { s with nv := { s.nv with op := none } } p bs).nv.queue = []
  rw [State.pageCompleted_nv]
  exact hqueue

/-- While no page is being programmed, JOURNAL_PAGE_DONE changes nothing. -/
theorem exec_journalPageDone_not {s : State} (h : ∀ p bs, s.nv.op ≠ some (.journal p bs)) :
    exec .journalPageDone s = .next s := by
  change Host.Outcome.next (match s.nv.op with | some (.journal ..) => s.nvDone none | _ => s) = _
  split
  · next hop => exact absurd hop (h _ _)
  · rfl

end Sys2Proof.Machine
end

section
/-! PROOF. The acknowledgement of journal entries, the sectors it hands over to be erased, and the journal's obligation
(19_receipts.md R564 to R567; 04_reset_boot.md R114). -/

namespace Sys2Proof.Machine

/-! ### Sectors handed over -/

/-- The operations that the NV-write unit has been handed: the one under way and those that wait. -/
def State.nvHanded (s : State) : List NvOp := s.nv.op.toList ++ s.nv.queue

/-- The unit takes an erase, to run or to wait. -/
def State.NvTakes (s : State) : Prop := s.nv.op ≠ none ∨ (s.nv.queue = [] ∧ s.nvBlocked = false)

/-- The operation that erases a sector. -/
def eraseOf (k : Nat) : NvOp := .journalErase (journalOff (16 * k))

/-- An erase submitted to a unit that takes it is handed over, and the unit goes on to take others. -/
theorem State.nvSubmit_erase {s : State} (h : s.NvTakes) (k : Nat) :
    (s.nvSubmit (eraseOf k)).NvTakes ∧ (s.nvSubmit (eraseOf k)).nvHanded = s.nvHanded ++ [eraseOf k] := by
  by_cases hop : s.nv.op = none
  · obtain hbusy | ⟨hqueue, hblocked⟩ := h
    · exact absurd hop hbusy
    have hstart := State.nvSubmit_starts ⟨hop, hqueue⟩ (State.nvGuard_erase hblocked (op := eraseOf k) rfl)
      (by rintro _ _ ⟨⟩)
    rw [hstart]
    exact ⟨.inl (Option.some_ne_none _), by simp [State.nvHanded, hop, hqueue]⟩
  · rw [State.nvSubmit_busy hop]
    exact ⟨.inl hop, (List.append_assoc ..).symm⟩

/-- A sector not yet handed over is handed over. -/
def State.handErase (s : State) (k : Nat) : State :=
  if (s.nv.op.toList ++ s.nv.queue).contains (eraseOf k) then s else s.nvSubmit (eraseOf k)

theorem State.nvKept_handErase (s : State) (k : Nat) : s.NvKept (s.handErase k) := by
  unfold State.handErase
  split
  · exact .refl s
  · exact s.nvKept_nvSubmit _

theorem State.handErase_hands {s : State} (h : s.NvTakes) (k : Nat) :
    (s.handErase k).NvTakes ∧ eraseOf k ∈ (s.handErase k).nvHanded ∧
      ∀ o ∈ s.nvHanded, o ∈ (s.handErase k).nvHanded := by
  unfold State.handErase
  split
  · next hin => exact ⟨h, List.contains_iff_mem.1 hin, fun _ ho => ho⟩
  · obtain ⟨htakes, hhanded⟩ := State.nvSubmit_erase h k
    rw [hhanded]
    exact ⟨htakes, List.mem_append_right _ (List.mem_singleton.2 rfl), fun _ ho => List.mem_append_left _ ho⟩

/-- The sectors whose entries all lie below TAIL. -/
def State.freeSectors (s : State) : List Nat :=
  (s.chk.pages.map (fun p => p.1 / 16)).eraseDups.filter (fun k => !s.sectorHeld k)

theorem State.nvKept_journalErases (s : State) : s.NvKept s.journalErases :=
  List.foldlRecOn (motive := s.NvKept) _ _ (.refl s) fun _ h k _ => h.trans (State.nvKept_handErase _ k)

/-- Sectors handed over in turn are all handed over. -/
theorem State.foldl_handErase_hands (ks : List Nat) : ∀ {s : State}, s.NvTakes → ∀ o,
    (o ∈ s.nvHanded ∨ ∃ k ∈ ks, o = eraseOf k) → o ∈ (ks.foldl State.handErase s).nvHanded := by
  induction ks with
  | nil =>
    rintro s - o (ho | ⟨_, hk, -⟩)
    · exact ho
    · cases hk
  | cons k ks ih =>
    intro s h o ho
    obtain ⟨htakes, hin, hold⟩ := State.handErase_hands h k
    refine ih htakes o ?_
    obtain ho | ⟨j, hj, rfl⟩ := ho
    · exact .inl (hold o ho)
    obtain rfl | hj := List.mem_cons.1 hj
    · exact .inl hin
    · exact .inr ⟨j, hj, rfl⟩

/-- A sector of which the journal knows pages, all below TAIL, is free. -/
theorem State.mem_freeSectors {s : State} {k : Nat} (hsome : ∃ p ∈ s.chk.pages, p.1 / 16 = k)
    (hbelow : ∀ p ∈ s.chk.pages, p.1 / 16 = k → p.2.2 < (s.reg64 pNVJ 0x808).toNat) : k ∈ s.freeSectors := by
  obtain ⟨p, hp, hk⟩ := hsome
  refine List.mem_filter.2 ⟨List.mem_eraseDups.2 (List.mem_map.2 ⟨p, hp, hk⟩), ?_⟩
  simp only [State.sectorHeld, Bool.not_eq_true', List.any_eq_false, Bool.and_eq_true, beq_iff_eq,
    decide_eq_true_eq, not_and, Nat.not_le]
  exact hbelow

/-! ### NVJ_TAIL -/

/-- Does a value lie from TAIL to HEAD? -/
def State.tailFits (s : State) (hi : Bool) (v : Word32) : Bool :=
  let new := putWord (s.reg64 pNVJ 0x808) hi v
  decide ((s.reg64 pNVJ 0x808).toNat ≤ new.toNat) && decide (new.toNat ≤ (s.reg64 pNVJ 0x800).toNat)

/-- TAIL taken, or the write counted and discarded. -/
def State.tailAcked (s : State) (hi : Bool) (v : Word32) : State :=
  if s.tailFits hi v then s.setReg64 pNVJ 0x808 (putWord (s.reg64 pNVJ 0x808) hi v) else s.inc pNVJ 0xF20

theorem State.nvjTail_eq (s : State) (hi : Bool) (v : Word32) :
    s.nvjTail hi v = s.chkWatch (fun s => (s.tailAcked hi v).journalErases.stage) := by
  have hacked (u : State) :
      u.ackWrite pNVJ 0x808 (u.reg64 pNVJ 0x800) hi v (fun s => s.inc pNVJ 0xF20) = u.tailAcked hi v := by
    unfold State.ackWrite State.tailAcked State.tailFits
    simp only [Bool.and_eq_true, decide_eq_true_eq]
    by_cases hfits : (u.reg64 pNVJ 0x808).toNat ≤ (putWord (u.reg64 pNVJ 0x808) hi v).toNat ∧
        (putWord (u.reg64 pNVJ 0x808) hi v).toNat ≤ (u.reg64 pNVJ 0x800).toNat
    · rw [if_pos hfits, if_neg (by omega)]
    · rw [if_neg hfits, if_pos (by omega)]
  unfold State.nvjTail
  simp only [hacked]

theorem State.tailAcked_reg64 (s : State) (hi : Bool) (v : Word32) :
    (s.tailAcked hi v).reg64 pNVJ 0x808 =
        (if s.tailFits hi v then putWord (s.reg64 pNVJ 0x808) hi v else s.reg64 pNVJ 0x808) ∧
      (s.tailAcked hi v).reg64 pNVJ 0xF20 = (if s.tailFits hi v then s.reg64 pNVJ 0xF20 else s.reg64 pNVJ 0xF20 + 1) ∧
      (s.tailAcked hi v).reg64 pNVJ 0x800 = s.reg64 pNVJ 0x800 := by
  unfold State.tailAcked
  split
  · exact ⟨State.reg64_setReg64_same .., State.reg64_setReg64_ne _ _ (by decide),
      State.reg64_setReg64_ne _ _ (by decide)⟩
  · exact ⟨State.reg64_inc_ne _ _ (by decide), State.reg64_inc_same .., State.reg64_inc_ne _ _ (by decide)⟩

theorem State.tailAcked_reg (s : State) (hi : Bool) (v : Word32) {k : Nat} (hk : k < 0x1000) :
    (s.tailAcked hi v).reg pAON k = s.reg pAON k := by
  have haon : pAON = 1 := rfl
  have hnvj : pNVJ = 5 := rfl
  unfold State.tailAcked
  split
  · exact State.reg_setReg64_ne _ _ (by omega)
  · exact State.reg_inc_of_apart _ _ (by omega)

/-- Neither outcome touches the unit, the journal or the memories. -/
theorem State.tailAcked_noted (s : State) (hi : Bool) (v : Word32) : s.noted (s.tailAcked hi v) := by
  unfold State.tailAcked
  split
  · exact s.setReg64_noted ..
  · exact s.inc_noted ..

/-- A write of TAIL keeps what the erases keep. -/
theorem State.nvKept_nvjTail (s : State) (hi : Bool) (v : Word32) :
    (s.tailAcked hi v).NvKept (s.nvjTail hi v) ∧ (s.nvjTail hi v).nv = (s.tailAcked hi v).journalErases.nv := by
  have hwatch := s.signalled_chkWatch (fun s => (s.tailAcked hi v).journalErases.stage)
  rw [← State.nvjTail_eq] at hwatch
  obtain ⟨c, hstage, -, -⟩ := (s.tailAcked hi v).journalErases.stage_eq
  simp only [hstage] at hwatch
  have hnv : (s.nvjTail hi v).nv = (s.tailAcked hi v).journalErases.nv := hwatch.noted.nv
  refine ⟨(State.nvKept_journalErases _).trans ⟨by rw [hnv], by rw [hnv], hwatch.noted.mem, fun hk => ?_⟩, hnv⟩
  unfold NvjSteady at hk
  have hnvj : pNVJ = 5 := rfl
  have hhif : pHIF = 6 := rfl
  rw [hwatch.reg (by omega), State.reg_withChk]

/-- Every sector whose entries all lie below the TAIL taken is handed to the NV-write unit (R566). -/
theorem State.nvjTail_hands {s : State} {hi : Bool} {v : Word32} (h : s.NvTakes) (hfits : s.tailFits hi v = true)
    {k : Nat} (hsome : ∃ p ∈ s.chk.pages, p.1 / 16 = k)
    (hbelow : ∀ p ∈ s.chk.pages, p.1 / 16 = k → p.2.2 < (putWord (s.reg64 pNVJ 0x808) hi v).toNat) :
    eraseOf k ∈ (s.nvjTail hi v).nvHanded := by
  obtain ⟨-, hnv⟩ := s.nvKept_nvjTail hi v
  obtain ⟨htail, -, -⟩ := s.tailAcked_reg64 hi v
  have hnoted := s.tailAcked_noted hi v
  rw [if_pos hfits] at htail
  have htakes : (s.tailAcked hi v).NvTakes := by
    unfold State.NvTakes State.nvBlocked
    rw [hnoted.nv, hnoted.pw, s.tailAcked_reg hi v (by decide)]
    exact h
  have hfree : k ∈ (s.tailAcked hi v).freeSectors := by
    refine State.mem_freeSectors ?_ ?_
    · rw [hnoted.chk]; exact hsome
    · rw [hnoted.chk, htail]; exact hbelow
  rw [State.nvHanded, hnv]
  exact State.foldl_handErase_hands _ htakes _ (.inr ⟨k, hfree, rfl⟩)

/-! ### The outcomes of each command -/

/-- The NV storage is no register. -/
theorem State.reg_withNv (s : State) (n : Nv) (q k : Nat) : ({ s with nv := n } : State).reg q k = s.reg q k :=
  State.reg_congr rfl ..

section
variable {s : State}

theorem journalPageWrite_starts (hmay : s.mayWritePage = true) (hidle : s.NvIdle) (hguard : s.nvGuard s.stagedOp = none)
    (hblank : s.flashBlank (journalOff s.chk.nextPage) = true) :
    Gives .journalPageWrite s fun t =>
      t.nv = { s.nv with op := some s.stagedOp } ∧ t = { s with nv := t.nv, regs := t.regs } := by
  refine ⟨_, exec_journalPageWrite hmay, ?_⟩
  rw [State.nvSubmit_starts hidle hguard fun off bs hpage => by
    obtain ⟨rfl, -⟩ := Prod.mk.inj (Option.some.inj hpage)
    exact hblank]
  exact ⟨rfl, rfl⟩

theorem journalPageWrite_refused {st : BitVec 16} (hmay : s.mayWritePage = true) (hidle : s.NvIdle)
    (hguard : s.nvGuard s.stagedOp = some st) :
    Gives .journalPageWrite s fun t =>
      t.nv = s.nv ∧ t.chk = { s.chk with refused := true } ∧ t.reg64 pNVJ 0xF18 = s.reg64 pNVJ 0xF18 + 1 ∧
      bit (t.page pNVJ).evt 17 = true ∧ ({ s with chk := t.chk } : State).noted t := by
  obtain ⟨u, hnoted, hcount, hsubmit⟩ := State.nvSubmit_page_refused hidle hguard
  have hcounted := hnoted.trans u.pageCounted_noted
  refine ⟨_, exec_journalPageWrite hmay, ?_⟩
  rw [State.stagedOp, hsubmit]
  refine ⟨hcounted.nv, rfl, ?_, u.pageCounted_evt, hcounted.withChk _⟩
  rw [State.reg64_withChk, u.pageCounted_count, hcount]

theorem journalPageWrite_not_blank (hmay : s.mayWritePage = true) (hidle : s.NvIdle)
    (hguard : s.nvGuard s.stagedOp = none) (hblank : s.flashBlank (journalOff s.chk.nextPage) = false) :
    let next := (s.chk.nextPage + 1) % max 1 s.journalPages
    s.flashBlank (journalOff next) = true →
    Gives .journalPageWrite s fun t =>
      t.nv = { s.nv with op := some (.journal next s.stagedPage) } ∧ t.chk = { s.chk with nextPage := next } ∧
      t.reg64 pNVJ 0xF18 = s.reg64 pNVJ 0xF18 + 1 ∧ ({ s with nv := t.nv, chk := t.chk } : State).noted t := by
  intro next hnext
  obtain ⟨u, hnoted, hcount, hsubmit⟩ := State.nvSubmit_page_not_blank hidle hguard hblank hnext
  have hshown : s.noted (u.pageCounted.nvShown (.journal next s.stagedPage) 0) :=
    (hnoted.trans u.pageCounted_noted).setReg ..
  refine ⟨_, exec_journalPageWrite hmay, ?_⟩
  rw [State.stagedOp, hsubmit]
  refine ⟨rfl, rfl, ?_, ?_⟩
  · refine (State.reg64_congr (s := u.pageCounted.nvShown (.journal next s.stagedPage) 0) rfl _ _).trans ?_
    rw [State.nvShown, State.reg64_setReg_ne _ _ (by decide), u.pageCounted_count, hcount]
  · exact (hshown.withNv { s.nv with op := some (.journal next s.stagedPage) }).withChk
      { s.chk with nextPage := next }

theorem journalPageDone_completes {p : Nat} {bs : List Byte} (hop : s.nv.op = some (.journal p bs))
    (hqueue : s.nv.queue = []) :
    Gives .journalPageDone s fun t =>
      (∀ a, t.flash a =
        if journalOff p ≤ a ∧ a < journalOff p + bs.length then bs.getD (a - journalOff p) 0 else s.flash a) ∧
      t.chk.nextPage = (p + 1) % max 1 s.journalPages ∧ t.reg64 pNVJ 0xF08 = s.reg64 pNVJ 0xF08 + 1 ∧
      t.reg64 pNVJ 0xF00 = s.reg64 pNVJ 0xF00 + BitVec.ofNat 64 s.chk.staged.length ∧
      (∀ e, s.chk.staged.getLast? = some e → t.reg64 pNVJ 0x800 = BitVec.ofNat 64 (lef e.1 8 8 + 1)) ∧
      (s.chk.jwait = [] → s.chk.drops = 0 → t.chk.staged = []) ∧
      (∀ e k, s.chk.staged = [(e, some k)] → (s.reg64 pCHK 0x818).toNat ≤ k → (s.reg64 pCHK 0x820).toNat = k →
        t.reg64 pCHK 0x820 = BitVec.ofNat 64 (k + 1) ∧
        (s.mem.hcc = [] → s.ringSlot k + 0x2000 ≤ memBytes →
          t.devBytes (s.ringSlot k + 0x1FF0) 16 = leBytes 8 1 ++ slice e 8 8)) ∧
      t.reg64 pNVJ 0x808 = s.reg64 pNVJ 0x808 ∧ t.nv.fuses = s.nv.fuses ∧ t.nv.op = none ∧
      ({ s with nv := t.nv, chk := t.chk, mem := t.mem, pw := t.pw } : State).noted t := by
  refine ⟨_, exec_journalPageDone hop hqueue, ?_⟩
  generalize hu : ({ s with nv := { s.nv with op := none } } : State) = u
  have hreg64 (q k : Nat) : u.reg64 q k = s.reg64 q k := by rw [← hu]; exact State.reg64_congr rfl ..
  have hchk : u.chk = s.chk := by rw [← hu]
  have hpages : u.journalPages = s.journalPages := by rw [← hu]; rfl
  have hslot (k : Nat) : u.ringSlot k = s.ringSlot k := by rw [State.ringSlot, State.ringSlot, hreg64]
  have hmem : u.mem = s.mem := by rw [← hu]
  obtain ⟨hnext, hstaged⟩ := u.pageCompleted_chk p bs
  obtain ⟨hcount, hentries⟩ := u.pageStored_counts p bs
  have hhead (e : List Byte × Option Nat) := u.pageStored_head p bs (e := e)
  have hkept := u.pageCompleted_noted p bs
  have hnv := u.pageCompleted_nv p bs
  rw [hpages] at hnext
  rw [hchk] at hstaged hentries
  refine ⟨fun a => ?_, hnext, ?_, ?_, fun e he => ?_, hstaged, fun e k hone htail hjptr => ?_, ?_, ?_, ?_, ?_⟩
  · rw [State.flash, hnv, ← hu]; exact State.pageStored_flash _ p bs a
  · rw [u.pageCompleted_reg64 p bs (by decide), hcount, hreg64]
  · rw [u.pageCompleted_reg64 p bs (by decide), hentries, hreg64]
  · rw [u.pageCompleted_reg64 p bs (by decide), hhead e (by rw [hchk, he])]
  · obtain ⟨hset, hbytes⟩ := State.pageCompleted_receipt (s := u) (p := p) (bs := bs) (e := e) (k := k)
      (by rw [hchk, hone]) (by rw [hreg64]; exact htail) (by rw [hreg64, hjptr])
    rw [hslot, hmem] at hbytes
    exact ⟨hset, hbytes⟩
  · rw [u.pageCompleted_reg64 p bs (by decide), State.reg64, u.pageStored_reg p bs (.inr (by decide)),
      u.pageStored_reg p bs (.inr (by decide)), ← State.reg64, hreg64]
  · rw [hnv, ← hu]; rfl
  · rw [hnv, ← hu]; rfl
  · rw [← hu] at hkept ⊢
    exact hkept

theorem journalResubmit_starts (hrefused : s.chk.refused = true) (hblocked : s.nvBlocked = false) (hidle : s.NvIdle)
    (hstaged : s.chk.staged ≠ []) (hfull : s.journalFull = false)
    (hheld : s.chk.pages.all (fun p => s.sectorHeld (p.1 / 16)) = true) (hguard : s.nvGuard s.stagedOp = none)
    (hblank : s.flashBlank (journalOff s.chk.nextPage) = true) :
    Gives .journalResubmit s fun t =>
      t.nv = { s.nv with op := some s.stagedOp } ∧ t.chk = { s.chk with refused := false } ∧
      t = { s with nv := t.nv, chk := t.chk, regs := t.regs } := by
  refine ⟨_, exec_journalResubmit hrefused hblocked hidle hstaged hfull hheld, ?_⟩
  rw [State.nvSubmit_starts (s := { s with chk := { s.chk with refused := false } }) hidle hguard fun off bs hpage => by
    obtain ⟨rfl, -⟩ := Prod.mk.inj (Option.some.inj hpage)
    exact hblank]
  exact ⟨rfl, rfl, rfl⟩

theorem nvjTail_answers {r : Requester} {hi : Bool} {v : Word32}
    (hadmits : s.admits r pNVJ (if hi then 0x80C else 0x808) = true) :
    let new := putWord (s.reg64 pNVJ 0x808) hi v
    let fits := s.tailFits hi v
    Gives (.nvjTail r hi v) s fun t =>
      t.reg64 pNVJ 0x808 = (if fits then new else s.reg64 pNVJ 0x808) ∧
      t.reg64 pNVJ 0xF20 = (if fits then s.reg64 pNVJ 0xF20 else s.reg64 pNVJ 0xF20 + 1) ∧
      t.reg64 pNVJ 0x800 = s.reg64 pNVJ 0x800 ∧ t.nv.flash = s.nv.flash ∧ t.nv.fuses = s.nv.fuses ∧ t.mem = s.mem ∧
      (s.NvTakes → fits = true → ∀ k, (∃ p ∈ s.chk.pages, p.1 / 16 = k) →
        (∀ p ∈ s.chk.pages, p.1 / 16 = k → p.2.2 < new.toNat) → eraseOf k ∈ t.nvHanded) := by
  intro new fits
  obtain ⟨g, hwrite⟩ := State.write_of_admits_frame (by cases hi <;> decide) (fun s => s.nvjTail hi v) hadmits
  refine ⟨_, congrArg Host.Outcome.next hwrite, ?_⟩
  generalize hu : ({ s with pages := g } : State) = u
  have hreg64 (k : Nat) : s.reg64 pNVJ k = u.reg64 pNVJ k := by rw [← hu]; exact (State.reg64_congr rfl ..).symm
  have hfits : fits = u.tailFits hi v := by simp only [fits, State.tailFits, hreg64]
  have hnew : new = putWord (u.reg64 pNVJ 0x808) hi v := by simp only [new, hreg64]
  obtain ⟨hkept, -⟩ := u.nvKept_nvjTail hi v
  obtain ⟨htail, hdiscarded, hhead⟩ := u.tailAcked_reg64 hi v
  have hnoted := u.tailAcked_noted hi v
  rw [hfits, hnew, hreg64, hreg64, hreg64]
  refine ⟨?_, ?_, ?_, ?_, ?_, ?_, fun htakes hfit k hsome hbelow => ?_⟩
  · rw [hkept.reg64 (.inl (by decide)) (.inl (by decide)), htail]
  · rw [hkept.reg64 (.inr (by decide)) (.inr (by decide)), hdiscarded]
  · rw [hkept.reg64 (.inl (by decide)) (.inl (by decide)), hhead]
  · rw [hkept.flash, hnoted.nv, ← hu]
  · rw [hkept.fuses, hnoted.nv, ← hu]
  · rw [hkept.mem, hnoted.mem, ← hu]
  · have htakes' : u.NvTakes := by rw [← hu]; exact htakes
    have hchk : u.chk = s.chk := by rw [← hu]
    exact State.nvjTail_hands htakes' hfit (by rw [hchk]; exact hsome) (by rw [hchk]; exact hbelow)

/-- A flash command that a check refuses. -/
theorem nvCmd_refuses {g : SMap Page} {program : Bool} {st : BitVec 16}
    (hen : ({ s with pages := g } : State).pgEn pNVJ = true) (hcheck : s.nvCmdCheck program = some st) :
    let t := ({ s with pages := g } : State).nvCmd program
    t.reg pNVJ 0x910 = BitVec.ofNat 32 (bnat s.nvCmdBusy + st.toNat * 2 ^ 16) ∧
      t = { s with regs := t.regs, pages := t.pages } := by
  intro t
  have ht : t = ({ s with pages := g } : State).setReg pNVJ 0x910
      (BitVec.ofNat 32 (bnat s.nvCmdBusy + st.toNat * 2 ^ 16)) := State.nvCmd_refused hen hcheck
  rw [ht]
  exact ⟨State.reg_setReg_same .., rfl⟩

/-- An ERASE that the unit starts. -/
theorem nvCmd_erases {g : SMap Page} (hen : ({ s with pages := g } : State).pgEn pNVJ = true)
    (hcheck : s.nvCmdCheck false = none) (hidle : s.NvIdle)
    (hguard : s.nvGuard (.cmdErase (s.reg pNVJ 0x904).toNat) = none) :
    let t := ({ s with pages := g } : State).nvCmd false
    t.nv = { s.nv with op := some (.cmdErase (s.reg pNVJ 0x904).toNat) } ∧ t.reg pNVJ 0x910 = 1 ∧
      t = { s with nv := t.nv, regs := t.regs, pages := t.pages } := by
  intro t
  have ht : t = _ := State.nvCmd_erase_starts (s := { s with pages := g }) hen hcheck hidle hguard
  rw [ht]
  refine ⟨rfl, ?_, rfl⟩
  rw [State.reg_withNv, State.nvShown, State.reg_setReg_ne _ _ (by decide), State.reg_setReg_same]

/-- A PROGRAM that the unit starts. -/
theorem nvCmd_programs {g : SMap Page} (hen : ({ s with pages := g } : State).pgEn pNVJ = true)
    (hcheck : s.nvCmdCheck true = none) (hidle : s.NvIdle)
    (hguard : ∀ bs, s.nvGuard (.cmdProgram (s.reg pNVJ 0x904).toNat bs) = none)
    (hblank : s.flashBlank (s.reg pNVJ 0x904).toNat = true) :
    let t := ({ s with pages := g } : State).nvCmd true
    ∃ bs, t.nv = { s.nv with op := some (.cmdProgram (s.reg pNVJ 0x904).toNat bs) } ∧ t.reg pNVJ 0x910 = 1 ∧
      (s.mem.hcc = [] → bs = s.devBytes (s.reg64 pNVJ 0x908).toNat 256) ∧
      t = { s with nv := t.nv, regs := t.regs, pages := t.pages, mem := t.mem, pw := t.pw, free := t.free } := by
  intro t
  obtain ⟨bs, v, haccess, hread, ht⟩ :=
    State.nvCmd_program_starts (s := { s with pages := g }) hen hcheck hidle hguard hblank
  change t = _ at ht
  rw [ht]
  refine ⟨bs, rfl, ?_, hread, ?_⟩
  · rw [State.reg_withNv, State.nvShown, State.reg_setReg_ne _ _ (by decide), haccess.reg (.inl (by decide)),
      State.reg_setReg_same]
  · rw [haccess.frame]
    rfl

end

/-- Settles O53: pages are programmed, refused and passed over, receipts marked, TAIL moved and the flash commands
answered as R114 and R563 to R567 say. -/
theorem receiptJournal : Obligations.ReceiptJournal := by
  refine ⟨fun s => ⟨fun hmay hidle hguard hblank => journalPageWrite_starts hmay hidle hguard hblank,
      fun st hmay hidle hguard => journalPageWrite_refused hmay hidle hguard,
      fun hmay hidle hguard hblank hnext => journalPageWrite_not_blank hmay hidle hguard hblank hnext,
      fun hmay => ⟨s, exec_journalPageWrite_not hmay, rfl⟩⟩,
    fun p bs s hop hqueue => journalPageDone_completes hop hqueue,
    fun s h => ⟨s, exec_journalPageDone_not h, rfl⟩,
    fun s => ⟨fun hrefused hblocked hidle hstaged hfull hheld hguard hblank =>
        journalResubmit_starts hrefused hblocked hidle hstaged hfull hheld hguard hblank,
      fun h => ⟨s, exec_journalResubmit_not h, rfl⟩⟩,
    fun r hi v s hadmits => nvjTail_answers hadmits, fun r s hadmits hen => ?_⟩
  intro off src refuses
  obtain ⟨ge, herase, hene⟩ := State.write_nvCmd hadmits hen false
  obtain ⟨gp, hprogram, henp⟩ := State.write_nvCmd hadmits hen true
  refine ⟨fun st h => ⟨_, congrArg Host.Outcome.next herase, nvCmd_refuses hene h⟩,
    fun st h => ⟨_, congrArg Host.Outcome.next hprogram, nvCmd_refuses henp h⟩,
    fun h hidle hguard => ⟨_, congrArg Host.Outcome.next herase, nvCmd_erases hene h hidle hguard⟩,
    fun h hidle hguard hblank => ⟨_, congrArg Host.Outcome.next hprogram, nvCmd_programs henp h hidle hguard hblank⟩⟩

end Sys2Proof.Machine
end

section
/-! PROOF. Fields of a word. -/
namespace Sys2Proof.Machine

/-- A field of a word, bit by bit. -/
theorem testBit_fld {n : Nat} (w : BitVec n) (lo len j : Nat) :
    (fld w lo len).testBit j = (decide (j < len) && bit w (lo + j)) := by
  rw [fld, Nat.testBit_mod_two_pow, Nat.testBit_div_two_pow, Nat.add_comm]; rfl

/-- A word with one field replaced, bit by bit. -/
theorem bit_putFld (w : Word32) {lo len : Nat} (v : Nat) (h : lo + len ≤ 32) (j : Nat) :
    bit (putFld w lo len v) j = if lo ≤ j ∧ j < lo + len then v.testBit (j - lo) else bit w j := by
  have hmask : bit (BitVec.ofNat 32 ((2 ^ len - 1) * 2 ^ lo)) j = decide (lo ≤ j ∧ j < lo + len) := by
    rw [bit, BitVec.getLsbD_ofNat, Nat.testBit_mul_two_pow, Nat.testBit_two_pow_sub_one, Bool.eq_iff_iff]
    simp only [Bool.and_eq_true, decide_eq_true_eq]
    omega
  have hvalue : bit (BitVec.ofNat 32 (v % 2 ^ len * 2 ^ lo)) j =
      (decide (lo ≤ j ∧ j < lo + len) && v.testBit (j - lo)) := by
    rw [bit, BitVec.getLsbD_ofNat, Nat.testBit_mul_two_pow, Nat.testBit_mod_two_pow, ← Bool.and_assoc, ← Bool.and_assoc]
    congr 1
    rw [Bool.eq_iff_iff]
    simp only [Bool.and_eq_true, decide_eq_true_eq]
    omega
  unfold bit at hmask hvalue
  rw [bit, putFld, BitVec.getLsbD_or, BitVec.getLsbD_and, BitVec.getLsbD_not, hmask, hvalue]
  by_cases hin : lo ≤ j ∧ j < lo + len
  · have hj : j < 32 := by omega
    simp [hin, hj]
  · by_cases hj : j < 32
    · simp [hin, hj, bit]
    · simp [hin, hj, bit, BitVec.getLsbD_of_ge w j (by omega)]

/-- The field that was replaced. -/
theorem fld_putFld_same (w : Word32) {lo len : Nat} (v : Nat) (h : lo + len ≤ 32) :
    fld (putFld w lo len v) lo len = v % 2 ^ len := by
  refine Nat.eq_of_testBit_eq fun j => ?_
  rw [testBit_fld, bit_putFld w v h, Nat.testBit_mod_two_pow]
  by_cases hj : j < len
  · rw [if_pos (by omega), Nat.add_sub_cancel_left]
  · simp [hj]

/-- A field apart from the one that was replaced. -/
theorem fld_putFld_apart (w : Word32) {lo len lo' len' : Nat} (v : Nat) (h : lo + len ≤ 32)
    (hapart : lo' + len' ≤ lo ∨ lo + len ≤ lo') : fld (putFld w lo len v) lo' len' = fld w lo' len' := by
  refine Nat.eq_of_testBit_eq fun j => ?_
  rw [testBit_fld, testBit_fld, bit_putFld w v h]
  by_cases hj : j < len'
  · rw [if_neg (by omega)]
  · simp [hj]

/-- A field apart from the bit that is set or cleared. -/
theorem fld_setBit_apart (w : Word32) {i lo len : Nat} (hi : i < 32) (b : Bool) (hapart : lo + len ≤ i ∨ i < lo) :
    fld (setBit w i b) lo len = fld w lo len := by
  refine Nat.eq_of_testBit_eq fun j => ?_
  rw [testBit_fld, testBit_fld, bit_setBit w hi]
  by_cases hj : j < len
  · rw [if_neg (by omega)]
  · simp [hj]

end Sys2Proof.Machine
end

section
/-! PROOF. What the state after reset holds, and the boot's confirmation, training records and fuse programming. -/

namespace Sys2Proof.Machine

/-- Settles O2: the state after reset is the default of every field. -/
theorem resetStateOfTheSpec : Obligations.ResetStateOfTheSpec :=
  ⟨rfl, rfl, fun _ _ => rfl, fun _ => ⟨rfl, rfl, rfl, rfl, rfl⟩, fun _ => ⟨rfl, rfl⟩, rfl, rfl, rfl, fun _ => rfl, rfl,
    rfl, State.memoryWf_reset⟩

/-! ### The tries of the images -/

/-- The tries of the two images stand in fields of their own. -/
theorem State.tries_setTries (s : State) (i j : Fin 2) (n : Nat) :
    (s.setTries i n).tries j = if j = i then n % 4 else s.tries j := by
  have hi : 2 * i.val + 2 ≤ 32 := by omega
  rw [State.tries, State.setTries, State.reg_setReg_same]
  split
  · next h => subst h; exact fld_putFld_same _ n hi
  · next h =>
    have hne : j.val ≠ i.val := fun hv => h (Fin.ext hv)
    exact fld_putFld_apart _ _ hi (by omega)

/-- The key confirms the boot and clears the tries of the image that runs. -/
theorem State.bootConfirm_key {s : State} {i : Fin 2} (h : s.nv.image = some i) :
    s.bootConfirm 0x4F4B4159 = { s.setTries i 0 with nv := { s.nv with confirmed := true } } := by
  rw [State.bootConfirm, if_pos rfl, h]

/-- AON_BOOT_CONFIRM with its key. -/
theorem aonBootConfirm_confirms {r : Requester} {i : Fin 2} {s : State} (h : s.admits r pAON 0x8BC = true)
    (himage : s.nv.image = some i) : Gives (.aonBootConfirm r 0x4F4B4159) s fun t =>
      t.nv.confirmed = true ∧ t.tries i = 0 ∧ (∀ j : Fin 2, j ≠ i → t.tries j = s.tries j) := by
  obtain ⟨g, hwrite⟩ := State.write_of_admits_frame (by decide) (fun s => s.bootConfirm 0x4F4B4159) h
  have hexec : exec (.aonBootConfirm r 0x4F4B4159) s =
      .next (s.write r pAON 0x8BC fun s => s.bootConfirm 0x4F4B4159) := rfl
  rw [hwrite, State.bootConfirm_key (by exact himage)] at hexec
  refine ⟨_, hexec, rfl, ?_, fun j hj => ?_⟩
  · exact (State.tries_setTries { s with pages := g } i i 0).trans (if_pos rfl)
  · exact (State.tries_setTries { s with pages := g } i j 0).trans (if_neg hj)

/-! ### Training records -/

/-- No record of the stack is due: nothing changes. -/
theorem trainingRecordWrite_none {k : Fin 8} {s : State} (h : ∀ e ∈ s.nv.trainDue, e.1 ≠ k.val) :
    Gives (.trainingRecordWrite k) s fun t => t = s := by
  have hfind : s.nv.trainDue.find? (fun e => e.1 == k.val) = none :=
    List.find?_eq_none.2 fun e he => by simpa using h e he
  refine ⟨s, ?_, rfl⟩
  change execTrainingRecordWrite k s = .next s
  unfold execTrainingRecordWrite
  rw [hfind, ite_self]

/-- A training operation with no sector erased yet is an erase, which the guard lets through with a hold-up time set
and no warn. -/
theorem State.nvGuard_train {s : State} (hwarn : s.pw.warn = 0) (hhold : fld (s.reg pAON 0x100) 0 16 ≠ 0)
    (st sl : Nat) (rec : List Byte) : s.nvGuard (.train st sl rec 0) = none :=
  State.nvGuard_erase (by rw [State.nvBlocked, hwarn, Bool.or_eq_false_iff]; exact ⟨rfl, beq_false_of_ne hhold⟩) rfl

/-- The slot that a stack's next training record goes into, the older or invalid one, and its sequence (R116). -/
def State.trainNext (s : State) (k : Nat) : Nat × Nat :=
  match s.trainNewest k with
  | some (slot, newest) => (1 - slot, newest.1 + 1)
  | none => (0, 1)

/-- A record that is due after READY is submitted for the stack's next slot, and is no longer due. -/
theorem exec_trainingRecordWrite {k : Fin 8} {due : List Byte} {s : State} (hready : bit (s.reg pAON 0x890) 16 = true)
    (hdue : (k.val, due) ∈ s.nv.trainDue) : ∃ rec, exec (.trainingRecordWrite k) s =
      .next (({ s with nv := { s.nv with trainDue := s.nv.trainDue.filter (fun e => e.1 != k.val) } } : State).nvSubmit
        (.train k.val (s.trainNext k.val).1 rec 0)) := by
  have hsome : (s.nv.trainDue.find? (fun e => e.1 == k.val)).isSome := by
    rw [List.find?_isSome]; exact ⟨_, hdue, beq_self_eq_true _⟩
  obtain ⟨e, hfind⟩ := Option.isSome_iff_exists.1 hsome
  refine ⟨trainRecord (s.trainNext k.val).2 (s.stack k.val).vendor.toNat (lef e.2 0 2) (e.2.drop 2), ?_⟩
  change execTrainingRecordWrite k s = _
  unfold execTrainingRecordWrite
  rw [hfind, hready]
  unfold State.trainNext
  cases s.trainNewest k.val with
  | none => simp [ok]
  | some newest => simp [ok]

/-- TRAINING_RECORD_WRITE with a record due. -/
theorem trainingRecordWrite_starts {k : Fin 8} {due : List Byte} {s : State} (hready : bit (s.reg pAON 0x890) 16 = true)
    (hdue : (k.val, due) ∈ s.nv.trainDue) (hidle : s.NvIdle) (hwarn : s.pw.warn = 0)
    (hhold : fld (s.reg pAON 0x100) 0 16 ≠ 0) : Gives (.trainingRecordWrite k) s fun t =>
      (∀ e ∈ t.nv.trainDue, e.1 ≠ k.val) ∧ (∃ sl rec, t.nv.op = some (.train k.val sl rec 0)) ∧
        t.nv.flash = s.nv.flash ∧ t.reg pAON 0x814 = 32 := by
  obtain ⟨rec, hexec⟩ := exec_trainingRecordWrite hready hdue
  rw [State.nvSubmit_starts (by exact hidle) (by exact State.nvGuard_train hwarn hhold k.val _ rec)
    (by rintro _ _ ⟨⟩)] at hexec
  refine ⟨_, hexec, fun e he => ?_, ⟨_, rec, rfl⟩, rfl, ?_⟩
  · simpa using (List.mem_filter.1 he).2
  · rw [State.reg_withNv, State.nvShown, State.reg_setReg_same]; rfl

/-! ### Fuse programming -/

/-- The key with FIELD_EN and a field-programmable word submits the fuse operation. -/
theorem State.fusProg_submits {s : State} (hbusy : bit (s.reg pFUS 0xA0C) 0 = false)
    (hen : bit (s.reg pFUS 0x100) 0 = true) (hfield : fuseField (fld (s.reg pFUS 0xA00) 0 7) = true) :
    s.fusProg 0x46555345 = (s.setReg pFUS 0xA0C 1).nvSubmit
      (.fuse (BitVec.ofNat 7 (fld (s.reg pFUS 0xA00) 0 7)) (s.reg pFUS 0xA04)) := by
  simp [State.fusProg, hbusy, hen, hfield]

/-- Without FIELD_EN, or for another word, the key is answered DENIED. -/
theorem State.fusProg_denied {s : State} (hbusy : bit (s.reg pFUS 0xA0C) 0 = false)
    (h : bit (s.reg pFUS 0x100) 0 = false ∨ fuseField (fld (s.reg pFUS 0xA00) 0 7) = false) :
    s.fusProg 0x46555345 = s.setReg pFUS 0xA0C 6 := by
  simp only [State.fusProg, hbusy]
  rw [if_neg (by simp), if_pos (by simpa using h)]

/-- The guard lets a fuse operation start with no warn and 450 microseconds of hold-up. -/
theorem State.nvGuard_fuse {s : State} (hwarn : s.pw.warn = 0) (hhold : 450 ≤ fld (s.reg pAON 0x100) 0 16)
    (w : BitVec 7) (v : Word32) : s.nvGuard (.fuse w v) = none := by
  have hnot : ¬ fld (s.reg pAON 0x100) 0 16 < 450 := by omega
  have hset : fld (s.reg pAON 0x100) 0 16 ≠ 0 := by omega
  simp [State.nvGuard, NvOp.kind, hwarn, hnot, hset]

/-- FUS_PROG_CMD with its key starts the fuse operation. -/
theorem fusProgCmd_starts {r : Requester} {s : State} (h : s.admits r pFUS 0xA08 = true)
    (hbusy : bit (s.reg pFUS 0xA0C) 0 = false) (hen : bit (s.reg pFUS 0x100) 0 = true)
    (hfield : fuseField (fld (s.reg pFUS 0xA00) 0 7) = true) (hidle : s.NvIdle) (hwarn : s.pw.warn = 0)
    (hhold : 450 ≤ fld (s.reg pAON 0x100) 0 16) : Gives (.fusProgCmd r 0x46555345) s fun t =>
      t.nv.op = some (.fuse (BitVec.ofNat 7 (fld (s.reg pFUS 0xA00) 0 7)) (s.reg pFUS 0xA04)) ∧
        t.nv.fuses = s.nv.fuses ∧ t.reg pFUS 0xA0C = 1 := by
  obtain ⟨g, hwrite⟩ := State.write_of_admits_frame (by decide) (fun s => s.fusProg 0x46555345) h
  have hexec : exec (.fusProgCmd r 0x46555345) s = .next (s.write r pFUS 0xA08 fun s => s.fusProg 0x46555345) := rfl
  have hhold' : 450 ≤ fld ((({ s with pages := g } : State).setReg pFUS 0xA0C 1).reg pAON 0x100) 0 16 := by
    rw [State.reg_setReg_ne _ _ (by decide)]; exact hhold
  rw [hwrite, State.fusProg_submits (s := { s with pages := g }) hbusy hen hfield,
    State.nvSubmit_starts (by exact hidle) (State.nvGuard_fuse (by exact hwarn) hhold' ..) (by rintro _ _ ⟨⟩)] at hexec
  refine ⟨_, hexec, rfl, rfl, ?_⟩
  rw [State.reg_withNv, State.nvShown, State.reg_setReg_ne _ _ (by decide), State.reg_setReg_same]

/-- FUS_PROG_CMD that is denied starts none. -/
theorem fusProgCmd_denied {r : Requester} {s : State} (h : s.admits r pFUS 0xA08 = true)
    (hbusy : bit (s.reg pFUS 0xA0C) 0 = false)
    (hden : bit (s.reg pFUS 0x100) 0 = false ∨ fuseField (fld (s.reg pFUS 0xA00) 0 7) = false) :
    Gives (.fusProgCmd r 0x46555345) s fun t => t.reg pFUS 0xA0C = 6 ∧ t.nv = s.nv := by
  obtain ⟨g, hwrite⟩ := State.write_of_admits_frame (by decide) (fun s => s.fusProg 0x46555345) h
  have hexec : exec (.fusProgCmd r 0x46555345) s = .next (s.write r pFUS 0xA08 fun s => s.fusProg 0x46555345) := rfl
  rw [hwrite, State.fusProg_denied (s := { s with pages := g }) hbusy hden] at hexec
  exact ⟨_, hexec, State.reg_setReg_same .., rfl⟩

/-- Settles O16: the confirmation, the training records and the fuse requests. -/
theorem bootConfirmAndNvRequests : Obligations.BootConfirmAndNvRequests :=
  ⟨fun _ _ _ h himage => aonBootConfirm_confirms h himage, fun _ _ h => trainingRecordWrite_none h,
    fun _ _ _ hready hdue hop hqueue hwarn hhold => trainingRecordWrite_starts hready hdue ⟨hop, hqueue⟩ hwarn hhold,
    fun _ _ h hbusy hen hfield hop hqueue hwarn hhold =>
      fusProgCmd_starts h hbusy hen hfield ⟨hop, hqueue⟩ hwarn hhold,
    fun _ _ h hbusy hden => fusProgCmd_denied h hbusy hden⟩

end Sys2Proof.Machine
end

section
/-! PROOF. The reset kinds: what each clears, and what a reset other than power-on keeps
(04_reset_boot.md R93 to R95). -/

namespace Sys2Proof.Machine

/-! ### What completing the operation under way leaves, and what the record of a reset writes -/

/-- Completing the operation under way changes the NV storage alone. -/
theorem State.nvFinish_eq (s : State) : s.nvFinish = { s with nv := s.nvFinish.nv } := by
  unfold State.nvFinish
  split
  case h_7 => split <;> rfl
  all_goals rfl

/-- With no operation under way nothing completes. -/
theorem State.nvFinish_of_none {s : State} (h : s.nv.op = none) : s.nvFinish = s := by
  unfold State.nvFinish
  rw [h]

/-- A counted try is a change of registers. -/
theorem State.countTry_eq (s : State) (cause : Nat) :
    s.countTry cause = { s with regs := (s.countTry cause).regs } := by
  unfold State.countTry
  split
  · split <;> rfl
  · rfl

/-- The cause and the time of a reset, recorded. -/
def State.resetNoted (s : State) (cause rails : Nat) : State :=
  (s.setReg pAON 0x880 (BitVec.ofNat 32 (cause + fld (s.reg pAON 0x880) 0 3 * 2 ^ 3 + rails * 2 ^ 6 +
    (if cause = 5 then s.log.fatalIdx.toNat else 0) * 2 ^ 8))).setReg64 pAON 0x884 (s.pw.aonTime.setWidth 64)

/-- AON_RST_CNT is written after the cause and the time. -/
theorem State.recordReset_counts (s : State) (cause rails : Nat) :
    ∃ n, s.recordReset cause rails = (s.resetNoted cause rails).setReg pAON 0x88C n :=
  (ite_eq_or_eq ..).elim (fun h => ⟨_, h⟩) (fun h => ⟨_, h⟩)

/-- The record of a reset is a change of registers. -/
theorem State.recordReset_eq (s : State) (cause rails : Nat) :
    s.recordReset cause rails = { s with regs := (s.recordReset cause rails).regs } := by
  obtain ⟨n, h⟩ := s.recordReset_counts cause rails
  simp only [h, State.resetNoted, State.setReg64, State.setReg]

/-- The count of resets stands apart from the cause and the time. -/
theorem State.reg_recordReset (s : State) {k : Nat} (cause rails : Nat) (hk : k < 0x88C) :
    (s.recordReset cause rails).reg pAON k = (s.resetNoted cause rails).reg pAON k := by
  obtain ⟨n, h⟩ := s.recordReset_counts cause rails
  rw [h, State.reg_setReg_ne _ _ (by omega)]

/-- AON_RST_CAUSE holds the cause. -/
theorem State.fld_recordReset_cause (s : State) {cause : Nat} (rails : Nat) (h : cause < 8) :
    fld ((s.recordReset cause rails).reg pAON 0x880) 0 3 = cause := by
  rw [State.reg_recordReset _ _ _ (by decide), State.resetNoted, State.reg_setReg64_ne _ _ (by decide),
    State.reg_setReg_same, fld, BitVec.toNat_ofNat]
  omega

/-- AON_RST_TIME holds the time of the reset. -/
theorem State.reg64_recordReset_time (s : State) (cause rails : Nat) :
    (s.recordReset cause rails).reg64 pAON 0x884 = s.pw.aonTime.setWidth 64 := by
  rw [State.reg64, State.reg_recordReset _ _ _ (by decide), State.reg_recordReset _ _ _ (by decide), ← State.reg64,
    State.resetNoted, State.reg64_setReg64_same]

/-! ### A reset other than power-on -/

/-- The state that a reset clears: its record is made, and what is to be kept is taken from it. -/
def State.atReset (s : State) (cause rails : Nat) : State := (s.nvFinish.countTry cause).recordReset cause rails

/-- The record of a reset leaves everything but the registers and the completed operation. -/
theorem State.atReset_eq (s : State) (cause rails : Nat) :
    s.atReset cause rails = { s with nv := s.nvFinish.nv, regs := (s.atReset cause rails).regs } := by
  rw [State.atReset, State.recordReset_eq, State.countTry_eq, State.nvFinish_eq]

/-- A kept key reads in the filtered map what it read before. -/
theorem sget_filter_of_kept {α : Type} (d : α) (f : Nat × α → Bool) {k : Nat} (hkept : ∀ v, f (k, v) = true) :
    ∀ m : SMap α, sget d (m.filter f) k = sget d m k
  | [] => rfl
  | (q, v) :: m => by
    have ih := sget_filter_of_kept d f hkept m
    by_cases hq : q = k
    · subst hq; simp [hkept, sget]
    · rw [List.filter_cons]
      split
      · simp only [sget, hq, if_false]; exact ih
      · simp only [sget, hq, if_false]; exact ih

/-- The kept registers of the AON page stand through a reset. -/
theorem State.reg_chipReset_kept (s : State) (cause rails : Nat) {k : Nat} (hk : k < 4096) (hkept : aonKept k = true) :
    (s.chipReset cause rails).reg pAON k = (s.atReset cause rails).reg pAON k := by
  refine sget_filter_of_kept _ _ (fun v => ?_) _
  have hpage : (pAON * 4096 + k) / 4096 = pAON := by omega
  have hoff : (pAON * 4096 + k) % 4096 = k := by omega
  simp only [State.keptKey, hpage, hoff, hkept, Bool.and_true, beq_self_eq_true, Bool.true_or]

/-- What every reset clears. -/
def State.Cleared (t : State) : Prop :=
  (∀ d, (t.dom d).state = .off ∧ (t.dom d).waking = false) ∧ t.pw.pllRun = 0 ∧ t.pw.pllLock = 0 ∧
  (∀ p, t.page p = {}) ∧ (∀ n, t.claimOf n = none) ∧ (∀ x, (t.ctx x).state = .free) ∧ t.tier = {} ∧ t.eps = {} ∧
  t.clx = {} ∧ t.anl = {} ∧ t.wpb = {} ∧ t.cores = []

/-- What a reset other than power-on leaves of a state, with its cause. -/
def State.ResetBy (s t : State) (cause : Nat) : Prop :=
  t.Cleared ∧ t.pw.aonTime = s.pw.aonTime ∧ t.log.ring = s.log.ring ∧ fld (t.reg pAON 0x880) 0 3 = cause ∧
  t.reg64 pAON 0x884 = s.pw.aonTime.setWidth 64 ∧ t.pending = s.pending ∧
  (s.nv.op = none → t.nv.fuses = s.nv.fuses ∧ t.nv.flash = s.nv.flash)

theorem State.cleared_chipReset (s : State) (cause rails : Nat) : (s.chipReset cause rails).Cleared :=
  ⟨fun _ => ⟨rfl, rfl⟩, rfl, rfl, fun _ => rfl, fun _ => rfl, fun _ => rfl, rfl, rfl, rfl, rfl, rfl, rfl⟩

theorem State.cleared_powerOn (s : State) (strap : BitVec 3) : (s.powerOn strap).Cleared :=
  ⟨fun _ => ⟨rfl, rfl⟩, rfl, rfl, fun _ => rfl, fun _ => rfl, fun _ => rfl, rfl, rfl, rfl, rfl, rfl, rfl⟩

/-- A reset other than power-on keeps the time, the log ring and the stored bits, and records its cause. -/
theorem State.resetBy_chipReset (s : State) {cause : Nat} (rails : Nat) (h : cause < 8) :
    s.ResetBy (s.chipReset cause rails) cause := by
  have hat := s.atReset_eq cause rails
  have htime : (s.nvFinish.countTry cause).pw.aonTime = s.pw.aonTime := by
    rw [State.countTry_eq, State.nvFinish_eq]
  have hstored : s.nv.op = none → (s.atReset cause rails).nv = s.nv := fun hop => by
    rw [hat, State.nvFinish_of_none hop]
  refine ⟨State.cleared_chipReset .., ?_, ?_, ?_, ?_, ?_, fun hop => ⟨?_, ?_⟩⟩
  · change (s.atReset cause rails).pw.aonTime = _; rw [hat]
  · change (s.atReset cause rails).log.ring = _; rw [hat]
  · rw [State.reg_chipReset_kept _ _ _ (by decide) (by decide)]
    exact State.fld_recordReset_cause _ _ h
  · rw [State.reg64, State.reg_chipReset_kept _ _ _ (by decide) (by decide),
      State.reg_chipReset_kept _ _ _ (by decide) (by decide), ← State.reg64, ← htime]
    exact State.reg64_recordReset_time ..
  · change (s.atReset cause rails).pending = _; rw [hat]
  · change (s.atReset cause rails).nv.fuses = _; rw [hstored hop]
  · change (s.atReset cause rails).nv.flash = _; rw [hstored hop]

/-- What a reset keeps is kept of every state with the same time, log ring, queue and stored bits. -/
theorem State.ResetBy.congr {s u t : State} {cause : Nat} (h : u.ResetBy t cause) (htime : u.pw.aonTime = s.pw.aonTime)
    (hring : u.log.ring = s.log.ring) (hqueue : u.pending = s.pending) (hnv : u.nv = s.nv) : s.ResetBy t cause := by
  unfold State.ResetBy at h ⊢
  rwa [htime, hring, hqueue, hnv] at h

/-! ### The kinds -/

/-- POWER_ON_RESET. -/
theorem powerOnReset_clears (k : BitVec 3) (s : State) : Gives (.powerOnReset k) s fun t =>
    t.Cleared ∧ t.pw.aonTime = 0 ∧ t.log = {} ∧ t.reg pMGT 0x800 = BitVec.ofNat 32 (0x58 + k.toNat) ∧
    (∀ p o, p * 4096 + o ≠ pMGT * 4096 + 0x800 → t.reg p o = regReset p o) ∧ t.pending = s.pending ∧
    (s.nv.op = none → t.nv.fuses = s.nv.fuses ∧ t.nv.flash = s.nv.flash) := by
  refine ⟨s.powerOn k, rfl, State.cleared_powerOn .., rfl, rfl, ?_, fun p o hne => ?_, ?_, fun hop => ⟨?_, ?_⟩⟩
  · exact State.reg_setReg_same ..
  · exact State.reg_setReg_ne _ _ hne
  · change s.nvFinish.pending = _; rw [State.nvFinish_eq]
  · change s.nvFinish.nv.fuses = _; rw [State.nvFinish_of_none hop]
  · change s.nvFinish.nv.flash = _; rw [State.nvFinish_of_none hop]

/-- SAG_RESET with a rail. -/
theorem sagReset_resets {rails : BitVec 2} (s : State) (h : rails ≠ 0) :
    Gives (.sagReset rails) s fun t => s.ResetBy t 1 := by
  refine ⟨s.chipReset 1 rails.toNat, ?_, State.resetBy_chipReset _ _ (by decide)⟩
  exact congrArg Host.Outcome.next (if_neg h)

/-- A write of AON_RST_REQ goes through the gate to the reset request. -/
theorem exec_aonRstReq {r : Requester} (v : Word32) {s : State} (h : s.admits r pAON 0x8A8 = true) :
    ∃ g : SMap Page, exec (.aonRstReq r v) s = .next (({ s with pages := g } : State).rstReq v) := by
  obtain ⟨g, hwrite⟩ := State.write_of_admits_frame (by decide) (fun s => s.rstReq v) h
  exact ⟨g, congrArg Host.Outcome.next hwrite⟩

/-- FATAL_RESET with the entry of the FATAL error written. -/
theorem fatalReset_resets {s : State} (hfatal : s.log.fatal = true) (hwritten : ∀ e ∈ s.log.queue, e.cls ≠ cFATAL) :
    Gives .fatalReset s fun t => s.ResetBy t 5 := by
  have hnone : s.log.queue.any (fun e => e.cls == cFATAL) = false :=
    List.any_eq_false.2 fun e he => by simpa using hwritten e he
  refine ⟨s.chipReset 5 0, ?_, State.resetBy_chipReset _ _ (by decide)⟩
  exact congrArg Host.Outcome.next (if_pos ⟨hfatal, by rw [hnone]; rfl⟩)

/-- FATAL_RESET with no FATAL error. -/
theorem fatalReset_none {s : State} (hfatal : s.log.fatal = false) : Gives .fatalReset s fun t => t = s :=
  ⟨s, congrArg Host.Outcome.next (if_neg fun h => by simp [hfatal] at h), rfl⟩

/-- REFCLK_LOST. -/
theorem refclkLost_resets {s : State} (h : s.pw.refPresent = true) :
    Gives .refclkLost s fun t => s.ResetBy t 5 ∧ t.pw.refPresent = false := by
  have hexec : exec .refclkLost s = .next (({ s.usedFree with
      pw := { s.usedFree.pw with refPresent := false }
      log := { s.usedFree.log with fatalIdx := BitVec.ofNat 10 s.freeVal } } : State).chipReset 5 0) :=
    congrArg Host.Outcome.next (if_pos h)
  refine ⟨_, hexec, (State.resetBy_chipReset _ _ (by decide)).congr rfl rfl rfl rfl, ?_⟩
  change (State.atReset _ 5 0).pw.refPresent = false
  rw [State.atReset_eq]

/-- Settles O14: each reset kind clears and keeps what R93 to R95 say. -/
theorem resetsKeepAndClear : Obligations.ResetsKeepAndClear := by
  refine ⟨powerOnReset_clears, fun _ s h => sagReset_resets s h, fun s => ⟨s.chipReset 2 0, rfl, ?_⟩, fun r s h => ?_,
    fun r v s h hv => ?_, fun s => fatalReset_resets, fun s => fatalReset_none, fun s => refclkLost_resets⟩
  · exact State.resetBy_chipReset _ _ (by decide)
  · obtain ⟨g, hexec⟩ := exec_aonRstReq 0x52534554 h
    exact ⟨_, hexec, (State.resetBy_chipReset _ _ (by decide)).congr rfl rfl rfl rfl⟩
  · obtain ⟨g, hexec⟩ := exec_aonRstReq v h
    exact ⟨_, hexec, by rw [State.rstReq, if_neg hv]⟩

end Sys2Proof.Machine
end

section
/-! PROOF. Boot from reset release: the step at which it stops, and what its later steps leave of AON_BOOT_STATUS and of
the version of the image that runs (04_reset_boot.md R100 to R109, R117). -/

namespace Sys2Proof.Machine

/-! ### AON_BOOT_STATUS -/

/-- The word of a boot that has stopped: its step, its status and FAILED. -/
def bootFailed (w : Word32) (step status : Nat) : Word32 :=
  setBit (putFld (putFld w 0 8 step) 8 8 status) 17 true

/-- A failed boot shows its step, its status and FAILED. -/
theorem bootFailed_fields (w : Word32) {step status : Nat} (hstep : step < 2 ^ 8) (hstatus : status < 2 ^ 8) :
    fld (bootFailed w step status) 0 8 = step ∧ fld (bootFailed w step status) 8 8 = status ∧
      bit (bootFailed w step status) 17 = true := by
  unfold bootFailed
  refine ⟨?_, ?_, ?_⟩
  · rw [fld_setBit_apart _ (by decide) _ (by decide), fld_putFld_apart _ _ (by decide) (by decide),
      fld_putFld_same _ _ (by decide), Nat.mod_eq_of_lt hstep]
  · rw [fld_setBit_apart _ (by decide) _ (by decide), fld_putFld_same _ _ (by decide), Nat.mod_eq_of_lt hstatus]
  · rw [bit_setBit _ (by decide), if_pos rfl]

/-- Boot stops with its step, its status and FAILED shown. -/
theorem State.reg_bootFail (s : State) (step status : Nat) :
    (s.bootFail step status).reg pAON 0x890 = bootFailed (s.reg pAON 0x890) step status := by
  rw [State.bootFail, State.reg_raise_of_lt _ _ _ (by decide), State.reg_setReg_same]
  rfl

/-- The step that boot reaches is shown. -/
theorem State.bootStep_setStep (s : State) {n : Nat} (h : n < 2 ^ 8) : (s.setStep n).bootStep = n := by
  rw [State.bootStep, State.setStep, State.reg_setReg_same, fld_putFld_same _ _ (by decide), Nat.mod_eq_of_lt h]

theorem State.bootStep_bootFail (s : State) {step status : Nat} (h : step < 2 ^ 8) (h' : status < 2 ^ 8) :
    (s.bootFail step status).bootStep = step := by
  rw [State.bootStep, State.reg_bootFail]
  exact (bootFailed_fields _ h h').1

/-! ### What the steps of boot leave -/

/-- The status of boot, the version of its image and the messages that wait stand as they were. -/
structure State.BootKept (s t : State) : Prop where
  status : t.reg pAON 0x890 = s.reg pAON 0x890
  version : t.reg pAON 0x898 = s.reg pAON 0x898
  deferred : t.deferred = s.deferred

section
variable {s t u : State}

theorem State.BootKept.refl (s : State) : s.BootKept s := ⟨rfl, rfl, rfl⟩

theorem State.BootKept.trans (h : s.BootKept t) (h' : t.BootKept u) : s.BootKept u :=
  ⟨h'.status.trans h.status, h'.version.trans h.version, h'.deferred.trans h.deferred⟩

theorem State.BootKept.bootStep (h : s.BootKept t) : t.bootStep = s.bootStep := by
  rw [State.bootStep, State.bootStep, h.status]

/-- Changes outside the registers. -/
theorem State.BootKept.of_regs (hregs : t.regs = s.regs) (hdeferred : t.deferred = s.deferred) : s.BootKept t :=
  ⟨State.reg_congr hregs .., State.reg_congr hregs .., hdeferred⟩

/-- What every step of a fold keeps, the fold keeps. -/
theorem State.BootKept.foldl {β : Type} {f : State → β → State} (hf : ∀ (s : State) b, s.BootKept (f s b))
    (l : List β) (s : State) : s.BootKept (l.foldl f s) :=
  List.foldlRecOn (motive := s.BootKept) l f (.refl s) fun t h b _ => h.trans (hf t b)

theorem State.bootKept_setReg (s : State) {p o : Nat} (v : Word32) (h : o < 0x890 ∨ 0x898 < o) (ho : o < 4096) :
    s.BootKept (s.setReg p o v) :=
  ⟨State.reg_setReg_ne _ _ (by omega), State.reg_setReg_ne _ _ (by omega), rfl⟩

theorem State.bootKept_inc (s : State) {p o : Nat} (n : Nat) (h : 0x898 < o) (ho : o + 4 < 4096) :
    s.BootKept (s.inc p o n) :=
  (s.bootKept_setReg _ (.inr h) (by omega)).trans (State.bootKept_setReg _ _ (.inr (by omega)) ho)

theorem State.bootKept_modPage (s : State) (p : Nat) (f : Page → Page) : s.BootKept (s.modPage p f) :=
  ⟨State.reg_modPage_of_lt _ _ _ (by decide), State.reg_modPage_of_lt _ _ _ (by decide), State.modPage_deferred ..⟩

theorem State.bootKept_raise (s : State) (p b : Nat) : s.BootKept (s.raise p b) := s.bootKept_modPage p _

theorem State.bootKept_wakeDom (s : State) (d : Nat) : s.BootKept (s.wakeDom d) := by
  have h := s.accessed_wakeDom d
  exact ⟨h.reg (.inl (by decide)), h.reg (.inl (by decide)), by rw [h.frame]⟩

theorem State.bootKept_tryTrain (s : State) (l : Nat) : s.BootKept (s.tryTrain l) := by
  unfold State.tryTrain
  dsimp only
  split
  · exact State.BootKept.trans (t := s.modLink l _) (.of_regs rfl rfl) (State.bootKept_wakeDom _ _)
  split
  · exact .of_regs rfl rfl
  · exact .refl s

theorem State.bootKept_trainStack (s : State) (k : Nat) (g : StackInfo) : s.BootKept (s.trainStack k g) := by
  have hready (v : Word32) : s.BootKept (s.setReg pAON 0x8A0 v) := s.bootKept_setReg v (.inr (by decide)) (by decide)
  unfold State.trainStack
  dsimp only
  split
  · exact hready _
  split
  · exact (hready _).trans (.of_regs rfl rfl)
  split
  · exact (hready _).trans (.of_regs rfl rfl)
  · exact hready _

theorem State.bootKept_bootLinks (s : State) (up : BitVec 16) : s.BootKept (s.bootLinks up) := by
  refine State.BootKept.trans (.foldl (fun s l => ?_) _ s) (State.bootKept_setReg _ _ (.inr (by decide)) (by decide))
  split
  · exact State.BootKept.trans (t := s.modLink l _) (.of_regs rfl rfl) (State.bootKept_tryTrain _ _)
  · exact s.bootKept_tryTrain l

theorem State.bootKept_fence (s : State) (a : Nat) (cause : FenceCause) : s.BootKept (s.fence a cause) := by
  have hoff (s : State) : s.BootKept (s.fencedOff a) := by
    unfold State.fencedOff
    dsimp only
    split
    · split <;> exact .of_regs rfl rfl
    · split
      · exact .of_regs rfl rfl
      · exact .refl s
  have hmark : s.BootKept (s.modArr a (fun r => { r with fenced := some cause })) := .of_regs rfl rfl
  unfold State.fence
  dsimp only
  split
  · exact .refl s
  split
  · exact (hmark.trans (State.bootKept_raise ..)).trans (hoff _)
  · exact hmark.trans (hoff _)

theorem State.bootKept_bootTests (s : State) (fails : List ArrId) : s.BootKept (s.bootTests fails) := by
  refine State.BootKept.trans (.foldl (fun s a => ?_) _ s) (.foldl (fun s a => ?_) _ _)
  · split
    · exact .refl s
    · exact s.bootKept_inc 1 (by decide) (by decide)
  · split
    · exact .refl s
    · exact s.bootKept_fence a _

theorem State.bootKept_scanJournal (s : State) : s.BootKept s.scanJournal := by
  have hpair (s : State) (v : Word64) {o : Nat} (ho : o + 4 < 0x890) : s.BootKept (s.setReg64 pNVJ o v) :=
    (s.bootKept_setReg _ (.inl (by omega)) (by omega)).trans (State.bootKept_setReg _ _ (.inl ho) (by omega))
  unfold State.scanJournal
  extract_lets ps hi lo top t chk u
  have ht : s.BootKept t := (hpair _ _ (by decide)).trans (hpair _ _ (by decide))
  have hu : t.BootKept u := .of_regs rfl rfl
  have hstage : u.BootKept (u.stageEntry 3 0 (leBytes 4 (t.reg pAON 0x880).toNat) none) := .of_regs rfl rfl
  exact (ht.trans hu).trans hstage

theorem State.bootKept_bootPlls (s : State) : s.BootKept s.bootPlls := by
  unfold State.bootPlls
  extract_lets pw t
  have ht : s.BootKept t := .of_regs rfl rfl
  exact ht.trans (t.bootKept_inc 10 (by decide) (by decide))

end

/-! ### Domains that boot powers -/

/-- With no message waiting, none is served. -/
theorem State.serveDeferred_nil {s : State} (h : s.deferred = []) (d : Nat) : s.serveDeferred d = s := by
  rw [State.serveDeferred, h]
  exact congrArg (fun q => ({ s with deferred := q } : State)) h.symm

/-- The pages of a domain that learn of a dropped access leave the domains and boot's status. -/
theorem State.bootKept_pagesOffAcc (s : State) (ps : List Nat) :
    s.BootKept (ps.foldl (fun (s : State) p => s.pageOffAcc p) s) ∧
      (ps.foldl (fun (s : State) p => s.pageOffAcc p) s).pw = s.pw :=
  ⟨.foldl (fun s p => s.bootKept_modPage p _) ps s,
    foldl_keeps State.pw (fun (s : State) p => s.pageOffAcc p) (fun s p => s.modPage_pw p _) ps s⟩

/-- With no message waiting, a wake that completes leaves the domain ON and boot's status as it was. -/
theorem State.bootKept_wakeDone {s : State} (h : s.deferred = []) (d sclk : Nat) :
    s.BootKept (s.wakeDone d sclk) ∧ (s.wakeDone d sclk).domOn d = true := by
  unfold State.wakeDone
  extract_lets g slept u v w x y
  have hu : s.BootKept u := by
    unfold u
    split
    · exact s.bootKept_inc 1 (by decide) (by decide)
    · exact .refl s
  have hv : u.BootKept v := by
    unfold v
    split
    · exact u.bootKept_setReg _ (.inr (by decide)) (by decide)
    · exact .refl u
  have hw : v.BootKept w := .of_regs rfl rfl
  have hon : w.domOn d = true := by
    rw [State.domOn, State.dom_modDom_same]; rfl
  have hx : w.BootKept x ∧ x.pw = w.pw := by
    unfold x
    split
    · exact w.bootKept_pagesOffAcc _
    · exact ⟨.refl w, rfl⟩
  have hy : x.BootKept y ∧ y.pw = x.pw := by
    unfold y
    split
    · exact ⟨.of_regs rfl rfl, rfl⟩
    · exact ⟨.refl x, rfl⟩
  have hall : s.BootKept y := (((hu.trans hv).trans hw).trans hx.1).trans hy.1
  rw [State.serveDeferred_nil (hall.deferred.trans h)]
  refine ⟨hall, ?_⟩
  rw [State.domOn, State.dom_congr (hy.2.trans hx.2)]
  exact hon

/-- With no message waiting, a domain that boot powers is ON, and boot's status stands. -/
theorem State.bootKept_bootOn {s : State} (h : s.deferred = []) (d : Nat) :
    s.BootKept (s.bootOn d) ∧ (s.bootOn d).domOn d = true := by
  unfold State.bootOn
  split
  · next hon => exact ⟨.refl s, hon⟩
  · obtain ⟨hkept, hon⟩ := State.bootKept_wakeDone (s := s.modDom d fun g => { g with waking := true }) h d 0
    have hwaking : s.BootKept (s.modDom d fun g => { g with waking := true }) := .of_regs rfl rfl
    exact ⟨hwaking.trans hkept, hon⟩

/-- The stacks' domains are powered one after the other. -/
theorem State.bootKept_powerStacks (s : State) (h : s.deferred = []) (l : List Nat) :
    s.BootKept (l.foldl (fun (s : State) k => (s.bootOn (dPhy k)).bootOn (dMem k)) s) := by
  refine List.foldlRecOn (motive := s.BootKept) l _ (.refl s) fun t ht k _ => ?_
  have hphy := (State.bootKept_bootOn (ht.deferred.trans h) (dPhy k)).1
  exact (ht.trans hphy).trans (State.bootKept_bootOn ((ht.trans hphy).deferred.trans h) (dMem k)).1

/-! ### Steps 6 to 9 -/

/-- The version of an image stands through a change of the status. -/
theorem State.reg_version_setStatus (s : State) (v : Word32) :
    (s.setReg pAON 0x890 v).reg pAON 0x898 = s.reg pAON 0x898 := State.reg_setReg_ne _ _ (by decide)

/-- READY is at step 9, and leaves the version. -/
theorem State.bootReady_shows (s : State) (ticks : Nat) :
    (s.bootReady ticks).bootStep = 9 ∧ (s.bootReady ticks).reg pAON 0x898 = s.reg pAON 0x898 := by
  unfold State.bootReady
  extract_lets pw t u
  have hstatus : u.bootStep = 9 := by
    unfold u
    rw [State.bootStep, State.reg_setReg_ne _ _ (by decide)]
    exact t.bootStep_setStep (n := 9) (by decide)
  have hversion : u.reg pAON 0x898 = s.reg pAON 0x898 := by
    unfold u
    rw [State.reg_setReg_ne _ _ (by decide), State.setStep, State.reg_version_setStatus]
    rfl
  rw [State.bootStep, State.reg_raise_of_lt _ _ _ (by decide), State.reg_raise_of_lt _ _ _ (by decide),
    State.reg_setReg_same, State.reg_version_setStatus, fld_setBit_apart _ (by decide) _ (by decide)]
  exact ⟨hstatus, hversion⟩

/-- A boot that fails leaves the version. -/
theorem State.reg_version_bootFail (s : State) (step status : Nat) :
    (s.bootFail step status).reg pAON 0x898 = s.reg pAON 0x898 := by
  rw [State.bootFail, State.reg_raise_of_lt _ _ _ (by decide), State.reg_version_setStatus, State.setStep,
    State.reg_version_setStatus]

/-- Boot reaches a step, and leaves the version and the messages that wait. -/
theorem State.setStep_keeps (s : State) (n : Nat) :
    (s.setStep n).reg pAON 0x898 = s.reg pAON 0x898 ∧ (s.setStep n).deferred = s.deferred :=
  ⟨s.reg_version_setStatus _, rfl⟩

/-- With no NV configuration there is nothing to apply. -/
theorem State.applyNv_nil {s : State} (h : s.nvEntries = []) : s.applyNv = s := by
  rw [State.applyNv, h, List.foldl_nil]

/-- With no NV configuration and no message waiting, an image that runs takes boot to step 7 or on, and its version
stands. -/
theorem State.bootRest_reaches {s : State} (hnv : s.nvEntries = []) (h : s.deferred = []) (env : BootEnv) :
    7 ≤ (s.bootRest env).bootStep ∧ (s.bootRest env).reg pAON 0x898 = s.reg pAON 0x898 := by
  unfold State.bootRest
  extract_lets t u v w x
  have ht : t = s.setStep 6 := State.applyNv_nil hnv
  have hstep : t.bootStep = 6 := by rw [ht, State.bootStep_setStep _ (by decide)]
  have htver : t.reg pAON 0x898 = s.reg pAON 0x898 := by rw [ht, (s.setStep_keeps 6).1]
  have htdef : t.deferred = [] := by rw [ht]; exact h
  have hplls := t.bootKept_bootPlls
  obtain ⟨hsetver, hsetdef⟩ := t.bootPlls.setStep_keeps 7
  have huver : u.reg pAON 0x898 = s.reg pAON 0x898 := (hsetver.trans hplls.version).trans htver
  have hudef : u.deferred = [] := (hsetdef.trans hplls.deferred).trans htdef
  have hv : u.BootKept v := u.bootKept_powerStacks hudef _
  have hfail (k : State) (status : Nat) (hk : u.BootKept k) (hstatus : status < 2 ^ 8) :
      7 ≤ (k.bootFail 7 status).bootStep ∧ (k.bootFail 7 status).reg pAON 0x898 = s.reg pAON 0x898 := by
    rw [State.bootStep_bootFail _ (by decide) hstatus, State.reg_version_bootFail, hk.version]
    exact ⟨le_refl 7, huver⟩
  rw [if_neg (by rw [hstep]; decide)]
  split
  · exact hfail v 4 hv (by decide)
  have hw : u.BootKept w :=
    hv.trans (.foldl (fun (s : State) (e : StackInfo × Nat) => s.bootKept_trainStack e.2 e.1) _ v)
  split
  · exact hfail w 5 hw (by decide)
  have hzero : w.BootKept w.zeroMemory := .of_regs rfl rfl
  have hx : u.BootKept x := (hw.trans hzero).trans (w.zeroMemory.bootKept_bootLinks env.linksUp)
  have hready := (((x.setStep 8).bootTests env.selfTestFails).scanJournal).bootReady_shows env.ticksToReady.toNat
  rw [hready.1, hready.2, (State.bootKept_scanJournal _).version, (State.bootKept_bootTests ..).version,
    (x.setStep_keeps 8).1, hx.version]
  exact ⟨by decide, huver⟩

/-! ### Fuses, flash and images -/

/-- Which image ROM starts depends on the flash, the fuses and the tries. -/
theorem State.chooseImage_congr {s t : State} (hflash : t.nv.flash = s.nv.flash) (hfuses : t.nv.fuses = s.nv.fuses)
    (htries : t.reg pAON 0x8B8 = s.reg pAON 0x8B8) : t.chooseImage = s.chooseImage := by
  have hfuse (w : Nat) : t.fuse w = s.fuse w := by rw [State.fuse, State.fuse, hfuses]
  have hrd (i : Nat) : t.imageRd i = s.imageRd i := by
    funext a n; rw [State.imageRd, State.imageRd, State.flashRd, State.flashRd, hflash]
  have hcount : t.antiRollback = s.antiRollback := by rw [State.antiRollback, State.antiRollback, hfuse, hfuse]
  have hok (rd : Nat → Nat → List Byte) : t.imageOk rd = s.imageOk rd := by
    simp only [State.imageOk, hcount, hfuse]
  have htry (i : Nat) : t.tries i = s.tries i := by rw [State.tries, State.tries, htries]
  simp only [State.chooseImage, hrd, hok, htry]

/-- The state in which boot judges the fuses: they are sensed. -/
def State.fusesSensed (s : State) (env : BootEnv) : State :=
  { s with nv := { s.nv with env := some env, sensed := true, fuseCorr := env.fuseCorrected } }

/-- The state in which boot looks for an image: the host's link has trained, and the flash is known. -/
def State.flashKnown (s : State) (env : BootEnv) : State :=
  let t := ((s.fusesSensed env).setStep 4).pcieUp
  ({ t with nv := { t.nv with flashBytes := env.flashBytes } }).setReg pAON 0x818 env.tProgUs

/-- The flash and the fuses stand until boot chooses an image. -/
theorem State.chooseImage_flashKnown (s : State) (env : BootEnv) : (s.flashKnown env).chooseImage = s.chooseImage := by
  refine State.chooseImage_congr rfl rfl ?_
  unfold State.flashKnown State.pcieUp State.setStep
  rw [State.reg_setReg_ne _ _ (by decide)]
  exact (State.reg_setReg_ne _ _ (by decide)).trans (State.reg_setReg_ne _ _ (by decide))

/-- A boot whose fuses fail stops at step 3. -/
theorem State.boot_fusesBad {s : State} {env : BootEnv} (h : env.fuseVoteFailed = true ∨ s.fusesOk = false) :
    s.boot env = (s.fusesSensed env).bootFail 3 1 :=
  if_pos (h.imp id fun hbad => by rw [← Bool.not_eq_true'] at hbad; exact hbad)

/-- Where the fuses hold, boot goes on. -/
theorem State.fuses_hold {s : State} {env : BootEnv} (hvote : env.fuseVoteFailed = false) (hok : s.fusesOk = true) :
    ¬ (env.fuseVoteFailed = true ∨ (!(s.fusesSensed env).fusesOk) = true) := by
  have hok' : (s.fusesSensed env).fusesOk = true := hok
  simp [hvote, hok']

/-- A boot whose flash is not usable stops at step 5. -/
theorem State.boot_flashBad {s : State} {env : BootEnv} (hvote : env.fuseVoteFailed = false) (hok : s.fusesOk = true)
    (h : env.sfdpOk = false ∨ env.sfdpErase4k = false ∨ env.sfdpAddr4 = false) :
    s.boot env = (((s.fusesSensed env).setStep 4).pcieUp).bootFail 5 2 := by
  refine (if_neg (State.fuses_hold hvote hok)).trans (if_pos ?_)
  simpa using h

/-- A boot with no image that can run enters recovery. -/
theorem State.boot_noImage {s : State} {env : BootEnv} (hvote : env.fuseVoteFailed = false) (hok : s.fusesOk = true)
    (hsfdp : env.sfdpOk = true) (herase : env.sfdpErase4k = true) (haddr : env.sfdpAddr4 = true)
    (himage : s.chooseImage = none) : s.boot env = (s.flashKnown env).enterRecovery := by
  have hnone := (s.chooseImage_flashKnown env).trans himage
  refine (if_neg (State.fuses_hold hvote hok)).trans ((if_neg (by simp [hsfdp, herase, haddr])).trans ?_)
  change (match (s.flashKnown env).chooseImage with
    | none => (s.flashKnown env).enterRecovery
    | some i => _) = _
  rw [hnone]

/-! ### RESET_RELEASE and AON_RECOVERY_GO -/

/-- ROM in recovery shows its stop at step 5 and RECOVERY, with the shared domain of cluster 0 powered. -/
theorem State.enterRecovery_shows {s : State} (h : s.deferred = []) :
    fld (s.enterRecovery.reg pAON 0x890) 0 8 = 5 ∧ fld (s.enterRecovery.reg pAON 0x890) 8 8 = 3 ∧
      bit (s.enterRecovery.reg pAON 0x890) 17 = true ∧ bit (s.enterRecovery.reg pAON 0x890) 19 = true ∧
      (s.enterRecovery.dom (dClu 0)).state = .on := by
  obtain ⟨hkept, hon⟩ := State.bootKept_bootOn (s := s.bootFail 5 3) ((State.raise_deferred ..).trans h) (dClu 0)
  obtain ⟨hstep, hstatus, hfailed⟩ :=
    bootFailed_fields (s.reg pAON 0x890) (step := 5) (status := 3) (by decide) (by decide)
  have hword : s.enterRecovery.reg pAON 0x890 = setBit (bootFailed (s.reg pAON 0x890) 5 3) 19 true := by
    rw [State.enterRecovery, State.reg_setReg_same, hkept.status, State.reg_bootFail]
  rw [hword, fld_setBit_apart _ (by decide) _ (by decide), fld_setBit_apart _ (by decide) _ (by decide),
    bit_setBit _ (by decide), bit_setBit _ (by decide)]
  exact ⟨hstep, hstatus, hfailed, rfl, eq_of_beq hon⟩

/-- RESET_RELEASE at a state that no boot has left. -/
theorem resetRelease_boots (env : BootEnv) {s : State} (h : s.bootStep = 0) :
    exec (.resetRelease env) s = .next (s.boot env) :=
  congrArg Host.Outcome.next (if_pos h)

/-- AON_RECOVERY_GO with 1 goes through the gate. -/
theorem exec_aonRecoveryGo {r : Requester} {s : State} (h : s.admits r pAON 0x8C0 = true) :
    ∃ g : SMap Page, exec (.aonRecoveryGo r 1) s = .next (({ s with pages := g } : State).recoveryGo) := by
  obtain ⟨g, hwrite⟩ :=
    State.write_of_admits_frame (by decide) (fun s => if (1 : Word32) = 1 then s.recoveryGo else s) h
  exact ⟨g, congrArg Host.Outcome.next hwrite⟩

/-- The state in which the image at BAR2 runs: FAILED and RECOVERY are gone. -/
def State.recoveryLeft (s : State) : State :=
  (s.setReg pAON 0x890 (putFld (putFld (setBit (s.reg pAON 0x890) 17 false) 8 8 0) 19 1 0)).runImage
    (fun a n => sgets 0 s.mem.pool a n) none

/-- In recovery the image at BAR2 offset 0 runs where it is eligible. -/
theorem State.recoveryGo_of_eligible {s : State} {env : BootEnv} (h : s.recovering = true) (henv : s.nv.env = some env)
    (himage : s.imageOk (fun a n => sgets 0 s.mem.pool a n) = true) : s.recoveryGo = s.recoveryLeft.bootRest env := by
  rw [State.recoveryGo, h, henv]
  dsimp only
  rw [himage]
  rfl

/-- ROM stays in recovery where the image is not eligible. -/
theorem State.recoveryGo_of_not_eligible {s : State} (h : s.imageOk (fun a n => sgets 0 s.mem.pool a n) = false) :
    s.recoveryGo = s := by
  rw [State.recoveryGo]
  dsimp only
  rw [h]
  split
  · rfl
  · cases s.nv.env <;> rfl

/-- AON_FW_VERSION holds the BUILD of the image that runs. -/
theorem State.reg_version_runImage (s : State) (rd : Nat → Nat → List Byte) (i : Option (Fin 2)) :
    (s.runImage rd i).reg pAON 0x898 = BitVec.ofNat 32 (lef (rd 0 0xA0) 0xC 4) := by
  unfold State.runImage
  rw [State.reg_withNv, State.reg_version_setStatus, State.reg_setReg_ne _ _ (by decide), State.reg_setReg_same]

/-- The NV configuration is read from the flash. -/
theorem State.nvEntries_congr {s t : State} (h : t.nv.flash = s.nv.flash) : t.nvEntries = s.nvEntries := by
  have hrd (a n : Nat) : t.flashRd a n = s.flashRd a n := by rw [State.flashRd, State.flashRd, h]
  have hcopy (a : Nat) : t.nvCopy a = s.nvCopy a := by rw [State.nvCopy, State.nvCopy, hrd, hrd]
  rw [State.nvEntries, State.nvEntries, hcopy, hcopy]

/-- An eligible image at BAR2 runs to step 7 or on, with its BUILD shown. -/
theorem State.recoveryLeft_runs {s : State} (hnv : s.nvEntries = []) (h : s.deferred = []) (env : BootEnv) :
    (s.recoveryLeft.bootRest env).reg pAON 0x898 = BitVec.ofNat 32 (lef (sgets 0 s.mem.pool 0 0xA0) 0xC 4) ∧
      7 ≤ (s.recoveryLeft.bootRest env).bootStep := by
  have hflash : s.recoveryLeft.nv.flash = s.nv.flash := by
    simp only [State.recoveryLeft, State.runImage, State.setReg_nv]
  have hnone : s.recoveryLeft.deferred = [] := by
    simp only [State.recoveryLeft, State.runImage, State.setReg_deferred, h]
  have hentries := (State.nvEntries_congr hflash).trans hnv
  obtain ⟨hreach, hkeep⟩ := State.bootRest_reaches hentries hnone env
  exact ⟨hkeep.trans (State.reg_version_runImage ..), hreach⟩

/-- Settles O15: boot stops where a check fails, and the image that recovery verifies runs. -/
theorem bootFromReset : Obligations.BootFromReset := by
  refine ⟨fun env s h => ⟨_, resetRelease_boots env h, fun hbad => ?_, fun hvote hok hflash => ?_,
      fun hvote hok hsfdp herase haddr himage hdef => ?_⟩,
    fun env s h => ⟨s, congrArg Host.Outcome.next (if_neg h), rfl⟩, fun r s h hrec himage => ?_,
    fun r s h hrec henv => ?_⟩
  · rw [State.boot_fusesBad hbad, State.reg_bootFail]
    obtain ⟨hstep, hstatus, hfailed⟩ :=
      bootFailed_fields ((s.fusesSensed env).reg pAON 0x890) (step := 3) (status := 1) (by decide) (by decide)
    exact ⟨hstep, hstatus, hfailed, congrArg Nv.sensed (State.raise_nv ..)⟩
  · rw [State.boot_flashBad hvote hok hflash, State.reg_bootFail]
    exact bootFailed_fields _ (by decide) (by decide)
  · rw [State.boot_noImage hvote hok hsfdp herase haddr himage]
    exact State.enterRecovery_shows hdef
  · obtain ⟨g, hexec⟩ := exec_aonRecoveryGo h
    rw [State.recoveryGo_of_not_eligible (s := { s with pages := g }) himage] at hexec
    exact ⟨_, hexec, rfl⟩
  · obtain ⟨g, hexec⟩ := exec_aonRecoveryGo h
    obtain ⟨env, henv⟩ := Option.isSome_iff_exists.1 henv
    refine ⟨_, hexec, fun himage hnv hdef => ?_⟩
    rw [State.recoveryGo_of_eligible (s := { s with pages := g }) hrec henv himage]
    exact State.recoveryLeft_runs (s := { s with pages := g }) hnv hdef env

end Sys2Proof.Machine
end

section
/-! PROOF. The NV storage stands: no operation outside the NV-write unit, fuse programming, the resets and boot changes
a fuse, a byte of the flash or what waits to be written there (03_power_clocks.md R88 to R92; 04_reset_boot.md R110,
R114, R116, R119). One equation per operation and per command, in the order of the model's own text. -/

namespace Sys2Proof.Machine

/-! ### Branches, folds and results -/

theorem ite_nv {c : Prop} [Decidable c] {a b : State} {n : Nv} (ha : a.nv = n) (hb : b.nv = n) :
    (if c then a else b).nv = n := by
  split
  · exact ha
  · exact hb

theorem foldl_nv {α : Type} {f : State → α → State} (h : ∀ s a, (f s a).nv = s.nv) (l : List α) (s : State) :
    (l.foldl f s).nv = s.nv := foldl_keeps State.nv f h l s

/-- As `foldl_nv`, for a step named by an equation. -/
theorem foldl_nv_of_eq {α : Type} {f : State → α → State} (h : ∀ s a t, f s a = t → t.nv = s.nv) (l : List α)
    (s : State) : (l.foldl f s).nv = s.nv := foldl_nv (fun s a => h s a _ rfl) l s

theorem foldl_fst_nv {α β : Type} {f : State × β → α → State × β} (h : ∀ p a, (f p a).1.nv = p.1.nv) (l : List α)
    (p : State × β) : (l.foldl f p).1.nv = p.1.nv := foldl_keeps (fun p => p.1.nv) f h l p

theorem foldl_snd_nv {α β : Type} {f : β × State → α → β × State} (h : ∀ p a, (f p a).2.nv = p.2.nv) (l : List α)
    (p : β × State) : (l.foldl f p).2.nv = p.2.nv := foldl_keeps (fun p => p.2.nv) f h l p

/-- The NV storage of a state, as a predicate that unfolding the state does not open. -/
def State.Stores (s : State) (n : Nv) : Prop := s.nv = n

theorem State.Stores.ite {c : Prop} [Decidable c] {a b : State} {n : Nv} (ha : a.Stores n) (hb : b.Stores n) :
    (if c then a else b).Stores n := ite_nv ha hb

/-- The state after an engine has taken or refused a piece. -/
def Taken.after : Taken → State
  | .accept _ s => s
  | .refuse _ s => s

@[simp] theorem Taken.after_accept (st : BitVec 16) (s : State) : (Taken.accept st s).after = s := rfl

@[simp] theorem Taken.after_refuse (st : BitVec 16) (s : State) : (Taken.refuse st s).after = s := rfl

/-- The effect of an instruction, if it has one, leaves the NV storage. -/
def IRes.Quiet : IRes → Prop
  | .trap .. => True
  | .go e => ∀ u : State, (e.onState u).nv = u.nv

@[simp] theorem IRes.quiet_trap (st : BitVec 16) (info : Nat) : (IRes.trap st info).Quiet := trivial

@[simp] theorem IRes.quiet_go (e : Eff) : (IRes.go e).Quiet ↔ ∀ u : State, (e.onState u).nv = u.nv := Iff.rfl

@[simp] theorem nextOr_ok (s t : State) : nextOr (ok t) s = t := rfl

theorem nextOr_nv {o : Host.Outcome State Fault Refusal} {s : State} (ho : ∀ t, o = .next t → t.nv = s.nv) :
    (nextOr o s).nv = s.nv := by
  cases o with
  | next t => exact ho t rfl
  | _ => rfl

/-! ### Registers, domains, cores and contexts -/

@[simp] theorem State.wakeDom_nv (s : State) (d : Nat) : (s.wakeDom d).nv = s.nv := by
  grind [State.wakeDom, foldl_nv, State.wakeOne_nv]

@[simp] theorem State.wakeAgent_nv (s : State) (d : Nat) : (s.wakeAgent d).nv = s.nv := by
  grind [State.wakeAgent, foldl_nv, State.wakeOne_nv]

@[simp] theorem State.wakeSet_nv (s : State) (n : Nat) : (s.wakeSet n).nv = s.nv := by
  simp [State.wakeSet, foldl_nv]

@[simp] theorem State.engineEvent_nv (s : State) (d : Nat) (f : State → State)
    (hf : ∀ s : State, (f s).nv = s.nv) : (s.engineEvent d f).nv = s.nv := by
  unfold State.engineEvent
  split <;> simp [hf]

@[simp] theorem State.engineMsg_nv (s : State) (d : Nat) (m : Message) (f : State → State)
    (hf : ∀ s : State, (f s).nv = s.nv) : (s.engineMsg d m f).nv = s.nv := by
  unfold State.engineMsg
  split <;> simp [hf]

@[simp] theorem State.modCounts_nv (s : State) (x : Nat) (f : Counts → Counts) : (s.modCounts x f).nv = s.nv := rfl

/-! ### Register pages -/

@[simp] theorem State.setRd_nv (s : State) (r : Requester) (v : Word32) : (s.setRd r v).nv = s.nv := by
  unfold State.setRd
  split <;> simp

@[simp] theorem State.unpop_nv (s : State) (r : Requester) (off : Nat) (write : Bool) :
    (s.unpop r off write).nv = s.nv := by
  unfold State.unpop
  refine (State.setReg_nv ..).trans ((State.setReg_nv ..).trans ?_)
  exact ite_nv rfl (State.setRd_nv ..)

@[simp] theorem State.offDrop_nv (s : State) (r : Requester) (off : Nat) (write : Bool) :
    (s.offDrop r off write).nv = s.nv := by
  grind [State.offDrop, State.setRd_nv, State.setReg_nv, State.inc_nv, State.modDom_nv]

@[simp] theorem State.reach_nv (s : State) (r : Requester) (off : Nat) (write : Bool) (f : State → State)
    (hf : ∀ s : State, (f s).nv = s.nv) : (s.reach r off write f).nv = s.nv := by
  grind [State.reach, State.unpop_nv, State.offDrop_nv]

@[simp] theorem State.setArmed_nv (s : State) (r : Requester) (p : Nat) (b : Bool) : (s.setArmed r p b).nv = s.nv := by
  simp [State.setArmed]

@[simp] theorem State.regGate_nv (s : State) (r : Requester) (p o : Nat) (f : State → State)
    (hf : ∀ s : State, (f s).nv = s.nv) : (s.regGate r p o f).nv = s.nv := by
  grind [State.regGate, State.setArmed_nv, State.violation_nv, State.modPage_nv]

@[simp] theorem State.write_nv (s : State) (r : Requester) (p o : Nat) (f : State → State)
    (hf : ∀ s : State, (f s).nv = s.nv) : (s.write r p o f).nv = s.nv := by simp [State.write, hf]

/-- As `State.write_nv`, for an effect named by an equation. -/
theorem State.write_nv_of_eq {s : State} {r : Requester} {p o : Nat} {f : State → State}
    (hf : ∀ u t, f u = t → t.nv = u.nv) : (s.write r p o f).nv = s.nv :=
  State.write_nv _ _ _ _ _ fun u => hf u _ rfl

@[simp] theorem State.store_nv (s : State) (p o : Nat) (v : Word32) : (s.store p o v).nv = s.nv := by
  grind [State.store, State.setReg_nv]

@[simp] theorem State.resetArea_nv (s : State) (p lo hi : Nat) : (s.resetArea p lo hi).nv = s.nv := rfl

@[simp] theorem State.statClear_nv (s : State) (p : Nat) (v hw : Word32) : (s.statClear p v hw).nv = s.nv := by
  simp [State.statClear]

@[simp] theorem State.lockArm_nv (s : State) (r : Requester) (p : Nat) : (s.lockArm r p).nv = s.nv := by
  unfold State.lockArm
  split <;> simp

@[simp] theorem State.lockLock_nv (s : State) (r : Requester) (p : Nat) : (s.lockLock r p).nv = s.nv := by
  grind [State.lockLock, State.setArmed_nv, State.violation_nv, State.modPage_nv]

@[simp] theorem execSizeErr_nv (r : Requester) (off : Bar0) (write : Bool) (s : State) :
    (nextOr (execSizeErr r off write s) s).nv = s.nv := by
  unfold execSizeErr
  split <;> simp

@[simp] theorem execUnpopulatedAccess_nv (r : Requester) (off : Bar0) (write : Bool) (s : State) :
    (nextOr (execUnpopulatedAccess r off write s) s).nv = s.nv := by
  unfold execUnpopulatedAccess
  split <;> simp

@[simp] theorem execOffAccess_nv (r : Requester) (off : Bar0) (write : Bool) (s : State) :
    (nextOr (execOffAccess r off write s) s).nv = s.nv := by
  unfold execOffAccess
  split <;> simp

@[simp] theorem execPgStatClear_nv (r : Requester) (page : Fin 16384) (v hwSet : Word32) (s : State) :
    (nextOr (execPgStatClear r page v hwSet s) s).nv = s.nv := by simp [execPgStatClear]

@[simp] theorem execSoftResetEnd_nv (page : Fin 16384) (s : State) :
    (nextOr (execSoftResetEnd page s) s).nv = s.nv := by
  unfold execSoftResetEnd
  split <;> simp

@[simp] theorem execPgLockArm_nv (r : Requester) (page : Fin 16384) (s : State) :
    (nextOr (execPgLockArm r page s) s).nv = s.nv := by simp [execPgLockArm]

@[simp] theorem execPgLockLock_nv (r : Requester) (page : Fin 16384) (s : State) :
    (nextOr (execPgLockLock r page s) s).nv = s.nv := by simp [execPgLockLock]

/-! ### Clocks, wakes and timer claims -/

@[simp] theorem State.tick_nv (s : State) : s.tick.nv = s.nv := rfl

@[simp] theorem execPllLock_nv (p : Fin 26) (s : State) : (nextOr (execPllLock p s) s).nv = s.nv := by
  unfold execPllLock
  split <;> simp

@[simp] theorem execPllUnlock_nv (p : Fin 26) (s : State) : (nextOr (execPllUnlock p s) s).nv = s.nv := by
  unfold execPllUnlock
  split <;> simp

@[simp] theorem execSlowclkLost_nv (s : State) : (nextOr (execSlowclkLost s) s).nv = s.nv := by
  unfold execSlowclkLost
  split <;> simp

@[simp] theorem execSlowclkSwitch_nv (s : State) : (nextOr (execSlowclkSwitch s) s).nv = s.nv := by
  unfold execSlowclkSwitch
  split <;> simp

@[simp] theorem execPcieReferenceLost_nv (s : State) : (nextOr (execPcieReferenceLost s) s).nv = s.nv := rfl

@[simp] theorem State.wakeBy_nv (s : State) (a : WakeSource) : (s.wakeBy a).nv = s.nv := by
  unfold State.wakeBy
  grind [State.wakeSet_nv, State.wakeDom_nv, State.wakeAgent_nv]

@[simp] theorem execDomainWake_nv (src : WakeSource) (s : State) : (nextOr (execDomainWake src s) s).nv = s.nv := by
  simp [execDomainWake]

@[simp] theorem State.pwrWake_nv (s : State) (v : Word32) : (s.pwrWake v).nv = s.nv := by
  grind [State.pwrWake, State.store_nv, State.modDom_nv, State.wakeDom_nv]

@[simp] theorem execPwrWakeHold_nv (r : Requester) (v : Word32) (s : State) :
    (nextOr (execPwrWakeHold r v s) s).nv = s.nv := by simp [execPwrWakeHold]

@[simp] theorem execPwrHoldRelease_nv (r : Requester) (v : Word32) (s : State) :
    (nextOr (execPwrHoldRelease r v s) s).nv = s.nv := by simp [execPwrHoldRelease]

@[simp] theorem State.wsetZero_nv (s : State) : s.wsetZero.nv = s.nv := by simp [State.wsetZero]

@[simp] theorem State.wsetCmd_nv (s : State) (v : Word32) : (s.wsetCmd v).nv = s.nv := by
  grind [State.wsetCmd, State.wakeSet_nv, State.wsetZero_nv]

@[simp] theorem State.wsetData_nv (s : State) (i : Nat) (v : Word32) : (s.wsetData i v).nv = s.nv := rfl

@[simp] theorem execWsetWake_nv (r : Requester) (s : State) : (nextOr (execWsetWake r s) s).nv = s.nv := by
  simp [execWsetWake]

@[simp] theorem execWsetClear_nv (r : Requester) (s : State) : (nextOr (execWsetClear r s) s).nv = s.nv := by
  simp [execWsetClear]

@[simp] theorem execDeepEntry_nv (s : State) : (nextOr (execDeepEntry s) s).nv = s.nv := by
  unfold execDeepEntry
  split <;> simp

@[simp] theorem execDeepExit_nv (s : State) : (nextOr (execDeepExit s) s).nv = s.nv := by
  unfold execDeepExit
  split <;> simp

@[simp] theorem State.setTmr_nv (s : State) (n o : Nat) (v : Word32) : (s.setTmr n o v).nv = s.nv := rfl

@[simp] theorem State.tmrResult_nv (s : State) (r : Requester) (ch res : Nat) : (s.tmrResult r ch res).nv = s.nv := rfl

@[simp] theorem State.takeTmr_nv (s : State) (n : Nat) (c : Claimant) (code : Nat) :
    (s.takeTmr n c code).nv = s.nv := rfl

theorem State.claimHw_nv {s t : State} {code n : Nat} (ht : s.claimHw code = some (n, t)) : t.nv = s.nv := by
  simp only [State.claimHw, Option.map_eq_some_iff, Prod.mk.injEq] at ht
  obtain ⟨_, -, rfl, rfl⟩ := ht
  exact State.takeTmr_nv ..

@[simp] theorem State.setCmp_nv (s : State) (n : Nat) (t : BitVec 48) : (s.setCmp n t).nv = s.nv := by
  simp [State.setCmp]

@[simp] theorem State.freeChannel_nv (s : State) (n : Nat) : (s.freeChannel n).nv = s.nv := by
  simp [State.freeChannel]

@[simp] theorem State.tmrOwner_nv (s : State) (r : Requester) (n : Nat) (v : Word32) :
    (s.tmrOwner r n v).nv = s.nv := by
  grind [State.tmrOwner, State.freeChannel_nv, State.tmrResult_nv, State.takeTmr_nv]

@[simp] theorem State.tmrAlloc_nv (s : State) (r : Requester) (v : Word32) : (s.tmrAlloc r v).nv = s.nv := by
  grind [State.tmrAlloc, State.store_nv, State.tmrResult_nv, State.takeTmr_nv]

@[simp] theorem State.tmrWrite_nv (s : State) (r : Requester) (n o : Nat) (v : Word32) :
    (s.tmrWrite r n o v).nv = s.nv := by
  grind [State.tmrWrite, State.setTmr_nv, State.store_nv]

@[simp] theorem execTimerClaim_nv (r : Requester) (n : Fin 8) (v : Word32) (s : State) :
    (nextOr (execTimerClaim r n v s) s).nv = s.nv := by simp [execTimerClaim]

@[simp] theorem execTimerRelease_nv (r : Requester) (n : Fin 8) (s : State) :
    (nextOr (execTimerRelease r n s) s).nv = s.nv := by simp [execTimerRelease]

@[simp] theorem execAonTmrAlloc_nv (r : Requester) (v : Word32) (s : State) :
    (nextOr (execAonTmrAlloc r v s) s).nv = s.nv := by simp [execAonTmrAlloc]

@[simp] theorem State.tmrFire_nv (s : State) (n : Nat) : (s.tmrFire n).nv = s.nv := by
  grind [State.tmrFire, State.setTmr_nv, State.raise_nv, State.wakeSet_nv, State.setCmp_nv]

@[simp] theorem State.wdogCtl_nv (s : State) (r : Requester) (v : Word32) : (s.wdogCtl r v).nv = s.nv := by
  grind [State.wdogCtl, State.claimHw_nv, State.store_nv, State.setCmp_nv, State.setTmr_nv, State.setReg_nv,
    State.tmrResult_nv]

@[simp] theorem State.wdogKick_nv (s : State) (v : Word32) : (s.wdogKick v).nv = s.nv := by
  grind [State.wdogKick, State.setCmp_nv]

@[simp] theorem execAonWdogCtl_nv (r : Requester) (v : Word32) (s : State) :
    (nextOr (execAonWdogCtl r v s) s).nv = s.nv := by simp [execAonWdogCtl]

@[simp] theorem execAonWdogKick_nv (r : Requester) (v : Word32) (s : State) :
    (nextOr (execAonWdogKick r v s) s).nv = s.nv := by simp [execAonWdogKick]

@[simp] theorem execSupplyWarnAssert_nv (src : Fin 3) (s : State) :
    (nextOr (execSupplyWarnAssert src s) s).nv = s.nv := by
  unfold execSupplyWarnAssert
  split <;> simp

@[simp] theorem execSupplyWarnClear_nv (src : Fin 3) (s : State) :
    (nextOr (execSupplyWarnClear src s) s).nv = s.nv := rfl

/-! ### Stacked memory and its cache -/

@[simp] theorem State.modStack_nv (s : State) (k : Nat) (f : Hbm → Hbm) : (s.modStack k f).nv = s.nv := rfl

@[simp] theorem State.setWay_nv (s : State) (sl set w : Nat) (l : Option HccLine) :
    (s.setWay sl set w l).nv = s.nv := rfl

@[simp] theorem State.storeLine_nv (s : State) (line : Nat) (bs : List Byte) (poison : Bool) :
    (s.storeLine line bs poison).nv = s.nv := rfl

@[simp] theorem State.writeBack_nv (s : State) (line : Nat) (bs : List Byte) (poison : Bool) :
    (s.writeBack line bs poison).nv = s.nv := by simp [State.writeBack]

@[simp] theorem State.recordUe_nv (s : State) (line src : Nat) (count : Bool) :
    (s.recordUe line src count).nv = s.nv := by
  grind [State.recordUe, State.inc_nv, State.setReg_nv, State.detect_nv, State.raise_nv]

@[simp] theorem State.fetchLine_nv (s : State) (line : Nat) (ecc : EccObs) (src : Nat) :
    (s.fetchLine line ecc src).2.2.nv = s.nv := by
  unfold State.fetchLine
  grind [State.inc_nv, State.detect_nv, State.recordUe_nv, State.storeLine_nv]

@[simp] theorem State.victim_nv (s : State) (sl set mask : Nat) : (s.victim sl set mask).2.nv = s.nv := by
  grind [State.victim, State.usedFree_nv]

theorem State.allocate_nv (s : State) (line part : Nat) (bs : List Byte) (dirty keep poison : Bool) {t}
    (ht : (s.allocate line part bs dirty keep poison) = some t) : t.nv = s.nv := by
  grind [State.allocate, State.victim_nv, State.inc_nv, State.writeBack_nv, State.setWay_nv]

@[simp] theorem State.heatUp_nv (s : State) (sl line : Nat) : (s.heatUp sl line).nv = s.nv := rfl

@[simp] theorem State.effHint_nv (s : State) (sl : Nat) (h : Hint) (write mayWrite : Bool) :
    (s.effHint sl h write mayWrite).2.nv = s.nv := by
  unfold State.effHint
  split <;> simp

@[simp] theorem State.hccCheck_nv (s : State) (sl set w : Nat) (l : HccLine) (obs : HccObs) :
    (s.hccCheck sl set w l obs).2.nv = s.nv := by
  unfold State.hccCheck
  grind [State.inc_nv, State.recordUe_nv, State.setWay_nv, State.detect_nv]

@[simp] theorem State.touch_nv (s : State) (sl set w : Nat) (l : HccLine) (keep : Bool) :
    (s.touch sl set w l keep).nv = s.nv := rfl

@[simp] theorem State.lineRead_nv (s : State) (line : Nat) (hint : Hint) (part : Nat) (mayWrite : Bool)
    (ecc : EccObs) (obs : HccObs) : (s.lineRead line hint part mayWrite ecc obs).2.2.nv = s.nv := by
  grind [State.lineRead, State.heatUp_nv, State.effHint_nv, State.hccCheck_nv, State.inc_nv, State.touch_nv,
    State.setWay_nv, State.fetchLine_nv, State.allocate_nv]

@[simp] theorem State.lineWrite_nv (s : State) (line lo : Nat) (bs : List Byte) (poison : Bool) (hint : Hint)
    (part : Nat) (mayWrite : Bool) (ecc : EccObs) (obs : HccObs) :
    (s.lineWrite line lo bs poison hint part mayWrite ecc obs).nv = s.nv := by
  grind [State.lineWrite, State.heatUp_nv, State.effHint_nv, State.hccCheck_nv, State.inc_nv, State.touch_nv,
    State.setWay_nv, State.fetchLine_nv, State.allocate_nv, State.writeBack_nv]

@[simp] theorem State.wakeFor_nv (s : State) (pa : Nat) : (s.wakeFor pa).nv = s.nv := by
  grind [State.wakeFor, State.wakeDom_nv]

@[simp] theorem State.memRd_nv (s : State) (hint : Hint) (part : Nat) (mayWrite : Bool) (a a5 a6 : Nat) :
    (s.memRd hint part mayWrite a a5 a6).2.2.nv = s.nv := by
  fun_induction State.memRd <;> grind [State.wakeFor_nv, State.lineRead_nv]

@[simp] theorem State.devRead_nv (s : State) (part a n : Nat) : (s.devRead part a n).2.2.nv = s.nv := by
  simp [State.devRead]

@[simp] theorem State.memWr_nv (s : State) (hint : Hint) (part : Nat) (mayWrite poison : Bool) (a a6 : Nat)
    (a7 : List Byte) : (s.memWr hint part mayWrite poison a a6 a7).nv = s.nv := by
  fun_induction State.memWr <;> grind [State.wakeFor_nv, State.lineWrite_nv]

@[simp] theorem State.devWrite_nv (s : State) (part a : Nat) (bs : List Byte) (poison : Bool) :
    (s.devWrite part a bs poison).nv = s.nv := by simp [State.devWrite]

@[simp] theorem State.zeroRange_nv (s : State) (a n : Nat) : (s.zeroRange a n).nv = s.nv := rfl

@[simp] theorem State.flushSlice_nv (s : State) (sl ways : Nat) (inval : Bool) :
    (s.flushSlice sl ways inval).nv = s.nv := by
  refine foldl_nv (fun s e => ?_) _ _
  grind [foldl_nv, State.inc_nv, State.writeBack_nv]

@[simp] theorem execTempReading_nv (stack : Fin 8) (t : Nat) (s : State) :
    (nextOr (execTempReading stack t s) s).nv = s.nv := by
  simp [execTempReading, apply_ite State.nv]

@[simp] theorem State.scrub_nv (s : State) (k : Nat) (ecc : EccObs) (raced : Bool) :
    (s.scrub k ecc raced).1.nv = s.nv := by
  grind [State.scrub, State.inc_nv, State.detect_nv, State.fetchLine_nv, State.writeBack_nv, State.raise_nv,
    State.modStack_nv]

@[simp] theorem State.hccFlush_nv (s : State) (sl : Nat) (v : Word32) : (s.hccFlush sl v).nv = s.nv := by
  grind [State.hccFlush, State.setReg_nv, State.flushSlice_nv]

@[simp] theorem execHccFlushCmd_nv (r : Requester) (sl : Fin 16) (v : Word32) (s : State) :
    (nextOr (execHccFlushCmd r sl v s) s).nv = s.nv := by simp [execHccFlushCmd]

@[simp] theorem execFlushDone_nv (sl : Fin 16) (s : State) : (nextOr (execFlushDone sl s) s).nv = s.nv := by
  unfold execFlushDone
  split <;> simp

/-! ### Command queues -/

@[simp] theorem State.modQue_nv (s : State) (q : Nat) (f : Que → Que) : (s.modQue q f).nv = s.nv := rfl

@[simp] theorem State.putCompletion_nv (s : State) (q : Nat) (e : QEntry) (d : QDone) (dup : Bool) :
    (s.putCompletion q e d dup).nv = s.nv := by
  grind [State.putCompletion, State.inc_nv, State.dmaOut_nv, State.setReg_nv, State.signalVec_nv]

@[simp] theorem State.completeEntry_nv (s : State) (q : Nat) (e : QEntry) (st : BitVec 16) (result : List Byte) :
    (s.completeEntry q e st result).nv = s.nv := by simp [State.completeEntry, foldl_nv]

@[simp] theorem State.completeRunning_nv (s : State) (q : Nat) (cid : Word64) (st : BitVec 16)
    (result : List Byte) : (s.completeRunning q cid st result).nv = s.nv := by
  unfold State.completeRunning
  split <;> simp

@[simp] theorem State.beginEntry_nv (s : State) (q : Nat) (e : QEntry) : (s.beginEntry q e).nv = s.nv := rfl

@[simp] theorem State.doorbell_nv (s : State) (q : Nat) (t : Word32) : (s.doorbell q t).nv = s.nv := by
  grind [State.doorbell, State.setReg_nv, State.wakeSet_nv, State.inc_nv]

@[simp] theorem execSqDoorbell_nv (r : Requester) (q : Fin 64) (v : Word32) (s : State) :
    (nextOr (execSqDoorbell r q v s) s).nv = s.nv := by simp [execSqDoorbell]

@[simp] theorem State.queHalt_nv (s : State) (q : Nat) (st : BitVec 16) : (s.queHalt q st).nv = s.nv := by
  unfold State.queHalt
  simp

@[simp] theorem State.takeEntry_nv (s : State) (q : Nat) (bs : List Byte) : (s.takeEntry q bs).nv = s.nv := by
  grind [State.takeEntry, State.inc_nv, State.setReg_nv, State.putCompletion_nv, State.modQue_nv,
    State.completeEntry_nv]

@[simp] theorem execEntryFetch_nv (q : Fin 64) (e : HostRead) (s : State) :
    (nextOr (execEntryFetch q e s) s).nv = s.nv := by
  unfold execEntryFetch
  repeat' split
  all_goals simp

@[simp] theorem execNopCommand_nv (q : Fin 64) (s : State) : (nextOr (execNopCommand q s) s).nv = s.nv := by
  unfold execNopCommand
  split <;> simp

@[simp] theorem State.queResume_nv (s : State) (q : Nat) : (s.queResume q).nv = s.nv := rfl

@[simp] theorem execQueCmdResume_nv (r : Requester) (q : Fin 64) (s : State) :
    (nextOr (execQueCmdResume r q s) s).nv = s.nv := by
  grind [execQueCmdResume, nextOr_ok, State.write_nv, State.queResume_nv]

@[simp] theorem State.queReset_nv (s : State) (q : Nat) : (s.queReset q).nv = s.nv := rfl

/-! ### The issue of an instruction -/

@[simp] theorem State.stopContext_nv (s : State) (x : CtxId) (st : BitVec 16) : (s.stopContext x st).nv = s.nv := by
  refine foldl_nv (fun s e => ?_) _ _
  grind [foldl_nv, State.modCore_nv, State.setReg_nv, State.modCtx_nv]

@[simp] theorem State.trap_nv (s : State) (c : CoreId) (x : CtxId) (st : BitVec 16) (info : Nat) :
    (s.trap c x st info).nv = s.nv := by simp [State.trap]

@[simp] theorem State.trapHazard_nv (s : State) (c : CoreId) (x : CtxId) (h : Loc × Bool × Nat) :
    (s.trapHazard c x h).nv = s.nv := by
  grind [State.trapHazard, State.setReg_nv, State.trap_nv, State.raise_nv, State.inc_nv]

@[simp] theorem State.frozen_nv (s : State) (c n : Nat) : (s.frozen c n).nv = s.nv := by
  unfold State.frozen
  split <;> simp

@[simp] theorem State.coreCycles_nv (s : State) (c n : Nat) : (s.coreCycles c n).nv = s.nv := by
  grind [State.coreCycles, State.setCore_nv, State.inc_nv]

@[simp] theorem State.finish_nv (s : State) (c : CoreId) (x : CtxId) (e : Eff)
    (he : ∀ u : State, (e.onState u).nv = u.nv) : (s.finish c x e).nv = s.nv := by
  grind [State.finish, State.frozen_nv, State.modCore_nv, State.coreCycles_nv, State.trap_nv]

@[simp] theorem issue_nv {f : State → CtxId → Core → IRes} (hf : ∀ s x k, (f s x k).Quiet) (c : CoreId) (w : Nat)
    (s : State) : (issue c w f s).nv = s.nv := by
  unfold issue
  refine ite_nv ?_ rfl
  extract_lets u k
  split
  · rfl
  · next x _ =>
    refine ite_nv (State.trap_nv ..) (ite_nv (State.trap_nv ..) ?_)
    have hres := hf u x k
    split
    · exact State.trap_nv ..
    · next e he =>
      rw [he] at hres
      split
      · exact State.trapHazard_nv ..
      · exact State.finish_nv _ _ _ _ hres

theorem nextOr_issue_nv {c : CoreId} {w : Nat} {f : State → CtxId → Core → IRes} {s : State}
    (hf : ∀ s x k, (f s x k).Quiet) : (nextOr (ok (issue c w f s)) s).nv = s.nv := issue_nv hf c w s

end Sys2Proof.Machine
end

section
/-! PROOF. The NV storage stands: links, fabric transport, the matrix, tiers, streams, manifests and locks. -/

namespace Sys2Proof.Machine

/-! ### Links -/

@[simp] theorem State.modLink_nv (s : State) (l : Nat) (f : Link → Link) : (s.modLink l f).nv = s.nv := rfl

@[simp] theorem State.putFrame_nv (s : State) (l : LinkId) (f : Frame) : (s.putFrame l f).nv = s.nv := rfl

@[simp] theorem State.putPm_nv (s : State) (l : LinkId) (sub arg : Nat) : (s.putPm l sub arg).nv = s.nv := rfl

@[simp] theorem State.creditBack_nv (s : State) (src : Option (LinkId × Fin 8)) (lines : Nat) :
    (s.creditBack src lines).nv = s.nv := by
  unfold State.creditBack
  split <;> simp

@[simp] theorem State.modQueue_nv (s : State) (l v : Nat) (f : List TxMsg → List TxMsg) :
    (s.modQueue l v f).nv = s.nv := rfl

theorem State.sendHead_nv {s t : State} {l : LinkId} {v : Fin 8} {n : Nat} (ht : s.sendHead l v = some (n, t)) :
    t.nv = s.nv := by
  grind [State.sendHead, State.modLink_nv, State.putFrame_nv, State.inc_nv, State.creditBack_nv]

@[simp] theorem State.sendVc_nv (s : State) (l : LinkId) (v : Fin 8) (fuel spent : Nat) :
    (s.sendVc l v fuel spent).nv = s.nv := by
  fun_induction State.sendVc <;> grind [State.sendHead_nv]

@[simp] theorem State.sendRounds_nv (s : State) (l : LinkId) (a : Nat) : (s.sendRounds l a).nv = s.nv := by
  fun_induction State.sendRounds <;> grind [foldl_nv, State.sendVc_nv]

@[simp] theorem State.pump_nv (s : State) (l : LinkId) : (s.pump l).nv = s.nv := by
  simp [State.pump]

@[simp] theorem State.pushFrame_nv (s : State) (l v : Nat) (src : Option (LinkId × Fin 8)) (f : Frame) :
    (s.pushFrame l v src f).nv = s.nv := rfl

@[simp] theorem State.mcPump_nv (s : State) (a : List (Option LinkId × Frame))
    (a2 : List (Option LinkId × Frame)) : (s.mcPump a a2).nv = s.nv := by
  fun_induction State.mcPump <;> grind [foldl_nv, State.pump_nv, State.pushFrame_nv,
    State.inc_nv, State.creditBack_nv]

@[simp] theorem State.launch_nv (s : State) (m : Message) (vc : Fin 8) : (s.launch m vc).nv = s.nv := by
  grind [State.launch, State.emitOut_nv, State.mcPump_nv, State.pump_nv, State.modQueue_nv]

@[simp] theorem State.rxDone_nv (s : State) (r : RxMsg) (abort : Bool) : (s.rxDone r abort).nv = s.nv := by
  unfold State.rxDone
  split <;> simp

@[simp] theorem State.routeIn_nv (s : State) (l : LinkId) (f : Frame) : (s.routeIn l f).2.nv = s.nv := by
  grind [State.routeIn, State.inc_nv]

@[simp] theorem State.carry_nv (s : State) (l : LinkId) (f : Frame) : (s.carry l f).nv = s.nv := by
  grind [State.carry, State.routeIn_nv, State.modLink_nv, State.rxDone_nv, State.creditBack_nv, State.pump_nv,
    State.inc_nv, State.pushFrame_nv]

@[simp] theorem State.nak_nv (s : State) (l : LinkId) : (s.nak l).nv = s.nv := by
  unfold State.nak
  split <;> simp

@[simp] theorem State.discard_nv (s : State) (l : LinkId) : (s.discard l).nv = s.nv := by
  simp [State.discard]

@[simp] theorem State.takeAck_nv (s : State) (l : LinkId) (f : Frame) : (s.takeAck l f).nv = s.nv := rfl

@[simp] theorem State.pumpAll_nv (s : State) : s.pumpAll.nv = s.nv := by
  simp [State.pumpAll, foldl_nv]

@[simp] theorem State.onFrame_nv (s : State) (l : LinkId) (f : Frame) (g : State → State)
    (hg : ∀ s : State, (g s).nv = s.nv) : (s.onFrame l f g).nv = s.nv := by
  grind [State.onFrame, State.discard_nv]

@[simp] theorem execData_nv (l : LinkId) (f : Frame) (s : State) : (nextOr (execData l f s) s).nv = s.nv := by
  simp [execData, apply_ite State.nv]

@[simp] theorem State.resend_nv (s : State) (l : LinkId) (fs : List Frame) : (s.resend l fs).nv = s.nv := by
  grind [State.resend, foldl_nv, State.inc_nv, State.detectOpen_nv, State.putFrame_nv]

@[simp] theorem execNak_nv (l : LinkId) (f : Frame) (s : State) : (nextOr (execNak l f s) s).nv = s.nv := by
  simp [execNak]

@[simp] theorem execCtrl_nv (l : LinkId) (f : Frame) (s : State) : (nextOr (execCtrl l f s) s).nv = s.nv := by
  simp [execCtrl]

@[simp] theorem execCreditCtrlSend_nv (l : LinkId) (s : State) : (nextOr (execCreditCtrlSend l s) s).nv = s.nv := by
  unfold execCreditCtrlSend
  split <;> simp

@[simp] theorem State.startTrain_nv (s : State) (l : Nat) : (s.startTrain l).nv = s.nv := by
  simp [State.startTrain]

@[simp] theorem State.tryTrain_nv (s : State) (l : Nat) : (s.tryTrain l).nv = s.nv := by
  grind [State.tryTrain, State.startTrain_nv, State.modLink_nv]

@[simp] theorem State.cutLink_nv (s : State) (l : LinkId) : (s.cutLink l).nv = s.nv := by
  grind [State.cutLink, foldl_nv, State.creditBack_nv, State.modLink_nv, State.rxDone_nv,
    State.pump_nv, State.pushFrame_nv]

@[simp] theorem State.leaveUp_nv (s : State) (l : LinkId) (to_ : LnkState) : (s.leaveUp l to_).nv = s.nv := by
  grind [State.leaveUp, State.cutLink_nv, State.modLink_nv, State.raise_nv, State.inc_nv]

@[simp] theorem execLinkSignalDetect_nv (l : LinkId) (s : State) :
    (nextOr (execLinkSignalDetect l s) s).nv = s.nv := by
  simp [execLinkSignalDetect, apply_ite State.nv]

@[simp] theorem execLinkTrainFail_nv (l : LinkId) (s : State) : (nextOr (execLinkTrainFail l s) s).nv = s.nv := by
  unfold execLinkTrainFail
  split <;> simp

@[simp] theorem execLinkTrainRetry_nv (l : LinkId) (s : State) : (nextOr (execLinkTrainRetry l s) s).nv = s.nv := by
  unfold execLinkTrainRetry
  split <;> simp

@[simp] theorem State.linkUp_nv (s : State) (l : LinkId) (t : TrainInfo) : (s.linkUp l t).nv = s.nv := by
  grind [State.linkUp, State.inc_nv, State.modLink_nv, State.setReg_nv, State.raise_nv, State.pumpAll_nv]

@[simp] theorem execLinkUp_nv (l : LinkId) (t : TrainInfo) (s : State) : (nextOr (execLinkUp l t s) s).nv = s.nv := by
  unfold execLinkUp
  split <;> simp

@[simp] theorem execFastRetrainDone_nv (l : LinkId) (good : Bool) (s : State) :
    (nextOr (execFastRetrainDone l good s) s).nv = s.nv := by
  simp [execFastRetrainDone, apply_ite State.nv]

@[simp] theorem execLinkDown_nv (l : LinkId) (s : State) : (nextOr (execLinkDown l s) s).nv = s.nv := by
  unfold execLinkDown
  split <;> simp

@[simp] theorem State.fastRetrain_nv (s : State) (l : Nat) : (s.fastRetrain l).nv = s.nv := by
  simp [State.fastRetrain]

@[simp] theorem execReplayTimeout_nv (l : LinkId) (s : State) : (nextOr (execReplayTimeout l s) s).nv = s.nv := by
  simp [execReplayTimeout, apply_ite State.nv]

@[simp] theorem State.lnkCfg_nv (s : State) (l : LinkId) (v : Word32) : (s.lnkCfg l v).nv = s.nv := by
  grind [State.lnkCfg, State.store_nv, State.tryTrain_nv, State.pumpAll_nv, State.leaveUp_nv]

@[simp] theorem execLnkCfgEn_nv (r : Requester) (l : LinkId) (v : Word32) (s : State) :
    (nextOr (execLnkCfgEn r l v s) s).nv = s.nv := by simp [execLnkCfgEn]

@[simp] theorem State.setFabId_nv (s : State) (v : Word32) : (s.setFabId v).nv = s.nv := by
  simp [State.setFabId, foldl_nv]

@[simp] theorem execFabId_nv (r : Requester) (v : Word32) (s : State) : (nextOr (execFabId r v s) s).nv = s.nv := by
  simp [execFabId]

@[simp] theorem State.askWidth_nv (s : State) (l : LinkId) (m : BitVec 4) : (s.askWidth l m).nv = s.nv := by
  unfold State.askWidth
  split <;> simp

@[simp] theorem execLaneDrop_nv (l : LinkId) (lane : Fin 4) (s : State) :
    (nextOr (execLaneDrop l lane s) s).nv = s.nv := by simp [execLaneDrop, apply_ite State.nv]

@[simp] theorem execWidthReq_nv (l : LinkId) (f : Frame) (s : State) : (nextOr (execWidthReq l f s) s).nv = s.nv := by
  simp [execWidthReq, apply_ite State.nv]

@[simp] theorem execWidthAck_nv (l : LinkId) (f : Frame) (s : State) : (nextOr (execWidthAck l f s) s).nv = s.nv := by
  simp [execWidthAck]

@[simp] theorem execWidthSwitch_nv (l : LinkId) (s : State) : (nextOr (execWidthSwitch l s) s).nv = s.nv := by
  grind [execWidthSwitch, nextOr_ok, State.modLink_nv, State.raise_nv, State.inc_nv, State.askWidth_nv]

@[simp] theorem execLaneReaddAttempt_nv (l : LinkId) (clean : BitVec 4) (s : State) :
    (nextOr (execLaneReaddAttempt l clean s) s).nv = s.nv := by
  simp [execLaneReaddAttempt, apply_ite State.nv]

@[simp] theorem execRecalStart_nv (l : LinkId) (tempC : Nat) (s : State) :
    (nextOr (execRecalStart l tempC s) s).nv = s.nv := by
  unfold execRecalStart
  split <;> simp

@[simp] theorem execRecalLaneDone_nv (l : LinkId) (s : State) : (nextOr (execRecalLaneDone l s) s).nv = s.nv := by
  unfold execRecalLaneDone
  repeat' split
  all_goals simp

@[simp] theorem State.lnkCmd_nv (s : State) (l : LinkId) (op : Nat) : (s.lnkCmd l op).nv = s.nv := by
  grind [State.lnkCmd, State.setReg_nv, State.modLink_nv, State.startTrain_nv, State.leaveUp_nv]

@[simp] theorem execRetrain_nv (r : Requester) (l : LinkId) (s : State) :
    (nextOr (execRetrain r l s) s).nv = s.nv := by simp [execRetrain]

@[simp] theorem execRecal_nv (r : Requester) (l : LinkId) (s : State) : (nextOr (execRecal r l s) s).nv = s.nv := by
  simp [execRecal]

@[simp] theorem execReadd_nv (r : Requester) (l : LinkId) (s : State) : (nextOr (execReadd r l s) s).nv = s.nv := by
  simp [execReadd]

@[simp] theorem State.linkSleep_nv (s : State) (l : LinkId) : (s.linkSleep l).nv = s.nv := by
  simp [State.linkSleep]

@[simp] theorem execLinkSleepHyst_nv (l : LinkId) (s : State) : (nextOr (execLinkSleepHyst l s) s).nv = s.nv := by
  unfold execLinkSleepHyst
  split <;> simp

@[simp] theorem execSleepReq_nv (l : LinkId) (f : Frame) (s : State) : (nextOr (execSleepReq l f s) s).nv = s.nv := by
  simp [execSleepReq, apply_ite State.nv]

@[simp] theorem execSleepAck_nv (l : LinkId) (f : Frame) (s : State) : (nextOr (execSleepAck l f s) s).nv = s.nv := by
  simp [execSleepAck, apply_ite State.nv]

@[simp] theorem execSleepNak_nv (l : LinkId) (f : Frame) (s : State) : (nextOr (execSleepNak l f s) s).nv = s.nv := by
  simp [execSleepNak]

@[simp] theorem execLinkWake_nv (l : LinkId) (s : State) : (nextOr (execLinkWake l s) s).nv = s.nv := by
  unfold execLinkWake
  split <;> simp

@[simp] theorem execEscapeSwitch_nv (l : LinkId) (vc : Fin 8) (s : State) :
    (nextOr (execEscapeSwitch l vc s) s).nv = s.nv := by
  unfold execEscapeSwitch
  repeat' split
  all_goals simp

@[simp] theorem execHopTimeout_nv (l : LinkId) (vc : Fin 8) (s : State) :
    (nextOr (execHopTimeout l vc s) s).nv = s.nv := by
  grind [execHopTimeout, nextOr_ok, foldl_nv, State.detectOpen_nv, State.raise_nv,
    State.inc_nv, State.modQueue_nv, State.creditBack_nv, State.modLink_nv, State.pumpAll_nv]

/-! ### Fabric transport -/

@[simp] theorem State.nextMseq_nv (s : State) (key : Nat) : (s.nextMseq key).2.nv = s.nv := rfl

@[simp] theorem State.transmit_nv (s : State) (m : Message) (vc : Fin 8) : (s.transmit m vc).nv = s.nv := by
  unfold State.transmit
  split <;> simp

@[simp] theorem State.sendWaiting_nv (s : State) (dest : BitVec 12) : (s.sendWaiting dest).nv = s.nv := by
  refine foldl_nv (fun s e => ?_) _ _
  grind [foldl_nv, State.transmit_nv, State.inc_nv]

@[simp] theorem State.sendMsg_nv (s : State) (m : Message) (vc : Fin 8) (by_ : Sender) :
    (s.sendMsg m vc by_).2.nv = s.nv := by
  grind [State.sendMsg, State.nextMseq_nv, State.transmit_nv, State.inc_nv, State.sendWaiting_nv]

@[simp] theorem State.sendPlain_nv (s : State) (m : Message) (vc : Fin 8) : (s.sendPlain m vc).nv = s.nv := by
  simp [State.sendPlain]

@[simp] theorem State.tackTo_nv (s : State) (m : Message) (st : BitVec 16) : (s.tackTo m st).nv = s.nv := by
  unfold State.tackTo
  split <;> simp

@[simp] theorem State.setWindow_nv (s : State) (key : Nat) (w : Window) : (s.setWindow key w).nv = s.nv := rfl

@[simp] theorem State.windowed_nv (s : State) (m : Message) {take : State → Taken}
    (htake : ∀ s, (take s).after.nv = s.nv) : (s.windowed m take).nv = s.nv := by
  unfold State.windowed
  grind [Taken.after, State.setWindow_nv, State.tackTo_nv, State.inc_nv]

@[simp] theorem State.modThread_nv (s : State) (c : CoreId) (x : CtxId) (f : Thread → Thread) :
    (s.modThread c x f).nv = s.nv := by
  unfold State.modThread
  split <;> simp

@[simp] theorem State.sendOutcome_nv (s : State) (c : CoreId) (x : CtxId) (dest : BitVec 12) (mseq : BitVec 48)
    (st : BitVec 16) : (s.sendOutcome c x dest mseq st).nv = s.nv := by simp [State.sendOutcome]

@[simp] theorem State.complete_nv (s : State) (h : Held) (st : BitVec 16) : (s.complete h st).nv = s.nv := by
  grind [State.complete, State.raise_nv, State.inc_nv, State.detectOpen_nv, State.sendOutcome_nv, State.sendWaiting_nv]

@[simp] theorem State.modHeld_nv (s : State) (dest : BitVec 12) (mseq : BitVec 48) (f : Held → Held) :
    (s.modHeld dest mseq f).nv = s.nv := rfl

@[simp] theorem State.resendMsg_nv (s : State) (h : Held) (f : Held → Held) : (s.resendMsg h f).nv = s.nv := by
  simp [State.resendMsg]

@[simp] theorem State.resendTmo_nv (s : State) (dest : BitVec 12) (mseq : BitVec 48) :
    (s.resendTmo dest mseq).nv = s.nv := by
  grind [State.resendTmo, State.resendMsg_nv, State.complete_nv]

@[simp] theorem State.sendTmo_nv (s : State) (dest : BitVec 12) (mseq : BitVec 48) :
    (s.sendTmo dest mseq).nv = s.nv := by
  grind [State.sendTmo, State.complete_nv]

@[simp] theorem State.onTack_nv (s : State) (m : Message) : (s.onTack m).2.nv = s.nv := by
  grind [State.onTack, State.inc_nv, State.modHeld_nv]

@[simp] theorem State.takeData_nv (s : State) (m : Message) : (s.takeData m).after.nv = s.nv := by
  unfold State.takeData
  grind [Taken.after, State.modThread_nv, State.modCore_nv]

@[simp] theorem State.cancelSend_nv (s : State) (dest : BitVec 12) (mseq : BitVec 48) (keep : Bool) :
    (s.cancelSend dest mseq keep).nv = s.nv := by
  unfold State.cancelSend
  split <;> simp

@[simp] theorem State.reissue_nv (s : State) (dest : BitVec 12) (mseq : BitVec 48) :
    (s.reissue dest mseq).nv = s.nv := by simp [State.reissue]

@[simp] theorem execCancel_nv (m : Message) (s : State) : (nextOr (execCancel m s) s).nv = s.nv := rfl

@[simp] theorem State.fabCfg_nv (s : State) (v : Word32) : (s.fabCfg v).nv = s.nv := by
  grind [State.fabCfg, State.claimHw_nv, State.store_nv, State.setReg_nv, State.freeChannel_nv]

@[simp] theorem execFabEnable_nv (r : Requester) (v : Word32) (s : State) :
    (nextOr (execFabEnable r v s) s).nv = s.nv := by simp [execFabEnable]

/-! ### Scalar instructions -/

@[simp] theorem execNop_nv (o : SOp) (s : State) : (nextOr (execNop o s) s).nv = s.nv := by
  simp [execNop]

@[simp] theorem aluRes_quiet (lat : Nat) (o : SOp) (f : Word64 → Word64 → Word64) (k : Core) :
    (aluRes lat o f k).Quiet := fun _ => rfl

@[simp] theorem execAdd_nv (o : SOp) (s : State) : (nextOr (execAdd o s) s).nv = s.nv := by
  simp [execAdd]

@[simp] theorem execSub_nv (o : SOp) (s : State) : (nextOr (execSub o s) s).nv = s.nv := by
  simp [execSub]

@[simp] theorem execAnd_nv (o : SOp) (s : State) : (nextOr (execAnd o s) s).nv = s.nv := by
  simp [execAnd]

@[simp] theorem execOr_nv (o : SOp) (s : State) : (nextOr (execOr o s) s).nv = s.nv := by
  simp [execOr]

@[simp] theorem execXor_nv (o : SOp) (s : State) : (nextOr (execXor o s) s).nv = s.nv := by
  simp [execXor]

@[simp] theorem execSll_nv (o : SOp) (s : State) : (nextOr (execSll o s) s).nv = s.nv := by
  simp [execSll]

@[simp] theorem execSrl_nv (o : SOp) (s : State) : (nextOr (execSrl o s) s).nv = s.nv := by
  simp [execSrl]

@[simp] theorem execSra_nv (o : SOp) (s : State) : (nextOr (execSra o s) s).nv = s.nv := by
  simp [execSra]

@[simp] theorem execMul_nv (o : SOp) (s : State) : (nextOr (execMul o s) s).nv = s.nv := by
  simp [execMul]

@[simp] theorem execMulhu_nv (o : SOp) (s : State) : (nextOr (execMulhu o s) s).nv = s.nv := by
  simp [execMulhu]

@[simp] theorem execMulh_nv (o : SOp) (s : State) : (nextOr (execMulh o s) s).nv = s.nv := by
  simp [execMulh]

@[simp] theorem execMin_nv (o : SOp) (s : State) : (nextOr (execMin o s) s).nv = s.nv := by
  simp [execMin]

@[simp] theorem execMax_nv (o : SOp) (s : State) : (nextOr (execMax o s) s).nv = s.nv := by
  simp [execMax]

@[simp] theorem execMinu_nv (o : SOp) (s : State) : (nextOr (execMinu o s) s).nv = s.nv := by
  simp [execMinu]

@[simp] theorem execMaxu_nv (o : SOp) (s : State) : (nextOr (execMaxu o s) s).nv = s.nv := by
  simp [execMaxu]

@[simp] theorem execSlt_nv (o : SOp) (s : State) : (nextOr (execSlt o s) s).nv = s.nv := by
  simp [execSlt]

@[simp] theorem execSltu_nv (o : SOp) (s : State) : (nextOr (execSltu o s) s).nv = s.nv := by
  simp [execSltu]

@[simp] theorem execSeq_nv (o : SOp) (s : State) : (nextOr (execSeq o s) s).nv = s.nv := by
  simp [execSeq]

@[simp] theorem execLuih_nv (o : SOp) (s : State) : (nextOr (execLuih o s) s).nv = s.nv := by
  simp [execLuih]

@[simp] theorem execLd_nv (o : SOp) (fn : BitVec 6) (s : State) : (nextOr (execLd o fn s) s).nv = s.nv := by
  refine nextOr_issue_nv fun s x k => ?_
  dsimp only
  repeat' split
  all_goals simp

@[simp] theorem execSt_nv (o : SOp) (fn : BitVec 6) (s : State) : (nextOr (execSt o fn s) s).nv = s.nv := by
  refine nextOr_issue_nv fun s x k => ?_
  dsimp only
  repeat' split
  all_goals simp

@[simp] theorem brRes_quiet (o : SOp) (f : Word64 → Word64 → Bool) (k : Core) : (brRes o f k).Quiet := by
  unfold brRes
  split <;> simp

@[simp] theorem execBeq_nv (o : SOp) (s : State) : (nextOr (execBeq o s) s).nv = s.nv := by
  simp [execBeq]

@[simp] theorem execBne_nv (o : SOp) (s : State) : (nextOr (execBne o s) s).nv = s.nv := by
  simp [execBne]

@[simp] theorem execBlt_nv (o : SOp) (s : State) : (nextOr (execBlt o s) s).nv = s.nv := by
  simp [execBlt]

@[simp] theorem execBge_nv (o : SOp) (s : State) : (nextOr (execBge o s) s).nv = s.nv := by
  simp [execBge]

@[simp] theorem execBltu_nv (o : SOp) (s : State) : (nextOr (execBltu o s) s).nv = s.nv := by
  simp [execBltu]

@[simp] theorem execBgeu_nv (o : SOp) (s : State) : (nextOr (execBgeu o s) s).nv = s.nv := by
  simp [execBgeu]

@[simp] theorem execJal_nv (o : SOp) (s : State) : (nextOr (execJal o s) s).nv = s.nv := by
  simp [execJal]

@[simp] theorem execJr_nv (o : SOp) (s : State) : (nextOr (execJr o s) s).nv = s.nv := by
  refine nextOr_issue_nv fun s x k => ?_
  repeat' split
  all_goals simp

@[simp] theorem execSpr_nv (o : SOp) (s : State) : (nextOr (execSpr o s) s).nv = s.nv := by
  simp [execSpr]

@[simp] theorem execIllegalInstr_nv (c : CoreId) (w : Word64) (s : State) :
    (nextOr (execIllegalInstr c w s) s).nv = s.nv := by
  unfold execIllegalInstr
  split <;> simp

/-! ### Matrix instructions and passes -/

@[simp] theorem State.modArr_nv (s : State) (a : Nat) (f : Arr → Arr) : (s.modArr a f).nv = s.nv := rfl

@[simp] theorem State.fencedOff_nv (s : State) (a : Nat) : (s.fencedOff a).nv = s.nv := by
  grind [State.fencedOff, State.modDom_nv]

@[simp] theorem State.fence_nv (s : State) (a : Nat) (cause : FenceCause) : (s.fence a cause).nv = s.nv := by
  grind [State.fence, State.modArr_nv, State.raise_nv, State.fencedOff_nv]

@[simp] theorem State.mismatch_nv (s : State) (a : Nat) : (s.mismatch a).nv = s.nv := by
  grind [State.mismatch, State.modArr_nv, State.fence_nv]

@[simp] theorem State.abandon_nv (s : State) (a : Nat) : (s.abandon a).nv = s.nv := by
  grind [State.abandon, State.inc_nv, State.modClu_nv]

@[simp] theorem State.tileEcc_nv (s : State) (a : Nat) (ecc : List TileEcc) : (s.tileEcc a ecc).1.nv = s.nv := by
  grind [State.tileEcc, foldl_fst_nv, State.detectOpen_nv, State.raise_nv, State.inc_nv]

@[simp] theorem State.commitBlock_nv (s : State) (c : CoreId) (p : Pass) (q : Fin 4) (b : Block)
    (bad : BitVec 32) : (s.commitBlock c p q b bad).nv = s.nv := rfl

@[simp] theorem State.lastMismatch_nv (s : State) (a : Nat) (p : Pass) (k : Checks) (action : Nat) :
    (s.lastMismatch a p k action).nv = s.nv := by
  grind [State.lastMismatch, State.setReg64_nv, State.setReg_nv]

@[simp] theorem State.mismatchHalt_nv (s : State) (a : Nat) (x : CtxId) : (s.mismatchHalt a x).nv = s.nv := by
  simp [State.mismatchHalt]

@[simp] theorem State.passOver_nv (s : State) (c : CoreId) (a : Nat) : (s.passOver c a).nv = s.nv := by
  grind [State.passOver, State.setCore_nv, State.frozen_nv, State.fencedOff_nv]

@[simp] theorem State.judge_nv (s : State) (a : ArrId) (c : CoreId) (q : Fin 4) (p : Pass)
    (faults : List CellFault) (ecc : List TileEcc) : (s.judge a c q p faults ecc).nv = s.nv := by
  grind [State.judge, State.inc_nv, State.tileEcc_nv, State.commitBlock_nv, State.modCounts_nv, State.raise_nv,
    State.lastMismatch_nv, State.detectOpen_nv, State.modClu_nv, State.modCore_nv, State.mismatchHalt_nv,
    State.mismatch_nv]

@[simp] theorem execPassVerdict_nv (a : ArrId) (faults : List CellFault) (ecc : List TileEcc) (s : State) :
    (nextOr (execPassVerdict a faults ecc s) s).nv = s.nv := by
  grind [execPassVerdict, nextOr_ok, State.passOver_nv, State.judge_nv, State.setCore_nv]

@[simp] theorem matEffect_nv (c : Nat) (qs : List Nat) (s : State) : (matEffect c qs s).nv = s.nv := by
  simp [matEffect, foldl_nv]

@[simp] theorem execMma_nv (o : MOp) (s : State) : (nextOr (execMma o s) s).nv = s.nv := by
  refine nextOr_issue_nv fun s x k => ?_
  dsimp only
  repeat' split
  all_goals simp

@[simp] theorem execMtrd_nv (o : MOp) (ecc : List TileEcc) (s : State) : (nextOr (execMtrd o ecc s) s).nv = s.nv := by
  refine nextOr_issue_nv fun s x k => ?_
  repeat' split
  all_goals simp

@[simp] theorem execMtwr_nv (o : MOp) (s : State) : (nextOr (execMtwr o s) s).nv = s.nv := by
  refine nextOr_issue_nv fun s x k => ?_
  repeat' split
  all_goals simp

@[simp] theorem execMtzero_nv (o : MOp) (s : State) : (nextOr (execMtzero o s) s).nv = s.nv := by
  refine nextOr_issue_nv fun s x k => ?_
  repeat' split
  all_goals simp

@[simp] theorem execGang_nv (o : MOp) (s : State) : (nextOr (execGang o s) s).nv = s.nv := by
  refine nextOr_issue_nv fun s x k => ?_
  dsimp only
  repeat' split
  all_goals simp

@[simp] theorem execUngang_nv (o : MOp) (s : State) : (nextOr (execUngang o s) s).nv = s.nv := by
  refine nextOr_issue_nv fun s x k => ?_
  repeat' split
  all_goals simp

/-! ### Tiers, quotas and moves -/

@[simp] theorem State.zeroUnit_nv (s : State) (pool : Bool) (u : Nat) : (s.zeroUnit pool u).nv = s.nv := by
  unfold State.zeroUnit
  split <;> simp

theorem State.allocUnits_nv {s t : State} {pool : Bool} {home owner n : Nat} {l us : List Nat}
    (ht : s.allocUnits pool home owner n l = some (us, t)) : t.nv = s.nv := by
  fun_induction State.allocUnits <;> grind [State.usedFree_nv, State.zeroUnit_nv]

@[simp] theorem State.freeUnits_nv (s : State) (pool : Bool) (owner : Nat) (us : List Nat) :
    (s.freeUnits pool owner us).nv = s.nv := rfl

@[simp] theorem State.setRec_nv (s : State) (n : Nat) (r : Option Rec) : (s.setRec n r).nv = s.nv := rfl

@[simp] theorem State.modRec_nv (s : State) (n : Nat) (f : Rec → Rec) : (s.modRec n f).nv = s.nv := rfl

@[simp] theorem State.poolHit_nv (s : State) (n : Nat) : (s.poolHit n).nv = s.nv := rfl

@[simp] theorem State.poolWr_nv (s : State) (key : Nat) (bs : List Byte) (poison : Bool) :
    (s.poolWr key bs poison).nv = s.nv := rfl

@[simp] theorem State.recRd_nv (s : State) (rn : Nat) (bankB : Bool) (hint : Hint) (part : Nat) (mayWrite : Bool)
    (a a7 a8 : Nat) : (s.recRd rn bankB hint part mayWrite a a7 a8).2.2.nv = s.nv := by
  fun_induction State.recRd <;> grind [State.poolHit_nv, State.memRd_nv]

@[simp] theorem State.recRead_nv (s : State) (rn : Nat) (bankB : Bool) (hint : Hint) (part : Nat)
    (mayWrite : Bool) (off n : Nat) : (s.recRead rn bankB hint part mayWrite off n).2.2.nv = s.nv := by
  simp [State.recRead]

@[simp] theorem State.recWr_nv (s : State) (rn : Nat) (bankB : Bool) (hint : Hint) (part : Nat) (poison : Bool)
    (a a7 : Nat) (a8 : List Byte) : (s.recWr rn bankB hint part poison a a7 a8).nv = s.nv := by
  fun_induction State.recWr <;> grind [State.poolHit_nv, State.poolWr_nv, State.memWr_nv]

@[simp] theorem State.recWrite_nv (s : State) (rn : Nat) (bankB : Bool) (hint : Hint) (part : Nat)
    (poison : Bool) (off : Nat) (bs : List Byte) : (s.recWrite rn bankB hint part poison off bs).nv = s.nv := by
  simp [State.recWrite]

@[simp] theorem State.tierPoison_nv (s : State) (line : Nat) : (s.tierPoison line).nv = s.nv := by
  grind [State.tierPoison, State.modRec_nv, State.raise_nv, State.setReg_nv]

theorem State.claimPool_nv {s t : State} {o c k n : Nat} {us : List Nat}
    (ht : s.claimPool o c k n = some (us, t)) : t.nv = s.nv := by
  grind [State.claimPool, State.allocUnits_nv]

@[simp] theorem State.unclaimPool_nv (s : State) (o c k : Nat) (us : List Nat) :
    (s.unclaimPool o c k us).nv = s.nv := rfl

@[simp] theorem State.openStatus_nv (s : State) : (s.openStatus).2.nv = s.nv := rfl

@[simp] theorem State.tierDone_nv (s : State) (st : BitVec 16) : (s.tierDone st).nv = s.nv := by
  grind [State.tierDone, State.raise_nv, State.setReg_nv]

@[simp] theorem State.tierOpen_nv (s : State) : s.tierOpen.nv = s.nv := by simp [State.tierOpen]

@[simp] theorem State.tierQuota_nv (s : State) : s.tierQuota.nv = s.nv := by
  simp [State.tierQuota]

@[simp] theorem State.newNumber_nv (s : State) (taken : List Nat) (lo n : Nat) :
    (s.newNumber taken lo n).2.nv = s.nv := rfl

@[simp] theorem State.tierAdmit_nv (s : State) : s.tierAdmit.nv = s.nv := by
  change s.tierAdmit.Stores s.nv
  unfold State.tierAdmit
  extract_lets o a
  clear_value a
  have hread := State.devRead_nv s s.sysPart (a / 64 * 64) 256
  refine .ite (State.tierOpen_nv ..) ?_
  split
  next bs po u hu =>
    rw [hu] at hread
    extract_lets need short is _ _ _ v w
    clear_value need short is
    have hnew := State.newNumber_nv u (u.tier.handles.map (fun e => e.1)) 1 255
    refine .ite ?_ ?_
    · split
      · next hw =>
        rw [hw] at hnew
        exact (State.tierDone_nv ..).trans (hnew.trans hread)
      · next hw =>
        rw [hw] at hnew
        exact (State.tierDone_nv ..).trans (hnew.trans hread)
    · exact (State.tierDone_nv ..).trans ((State.inc_nv ..).trans ((State.setReg_nv ..).trans
        ((State.setReg64_nv ..).trans ((State.setReg64_nv ..).trans hread))))

@[simp] theorem State.tierRelease_nv (s : State) : s.tierRelease.nv = s.nv := by
  grind [State.tierRelease, State.tierOpen_nv, State.tierDone_nv]

@[simp] theorem State.tierMap_nv (s : State) : s.tierMap.nv = s.nv := by
  grind [State.tierMap, State.tierDone_nv, State.tierOpen_nv, State.tierQuota_nv, State.newNumber_nv,
    State.allocUnits_nv, State.setRec_nv, State.setReg_nv]

@[simp] theorem State.tierShare_nv (s : State) : s.tierShare.nv = s.nv := by
  grind [State.tierShare, State.tierOpen_nv, State.tierDone_nv, State.setReg_nv]

@[simp] theorem State.freeRec_nv (s : State) (rn : Nat) : (s.freeRec rn).nv = s.nv := by
  grind [State.freeRec, State.setRec_nv, State.freeUnits_nv]

@[simp] theorem State.tierUnmap_nv (s : State) : s.tierUnmap.nv = s.nv := by
  grind [State.tierUnmap, State.tierOpen_nv, State.tierDone_nv, State.freeRec_nv]

theorem State.askMove_nv {s t : State} {rn home : Nat} {pool hw : Bool} (ht : s.askMove rn pool home hw = some t) :
    t.nv = s.nv := by
  grind [State.askMove, State.allocUnits_nv]

@[simp] theorem State.tierMove_nv (s : State) : s.tierMove.nv = s.nv := by
  grind [State.tierMove, State.tierOpen_nv, State.modRec_nv, State.tierDone_nv, State.askMove_nv, State.tierQuota_nv]

@[simp] theorem State.tierStart_nv (s : State) (op : Nat) (f : State → State) (hf : ∀ s : State, (f s).nv = s.nv) :
    (s.tierStart op f).nv = s.nv := by
  grind [State.tierStart, State.setReg_nv]

@[simp] theorem State.tierCmd_nv (s : State) (v : Word32) : (s.tierCmd v).nv = s.nv := by
  grind [State.tierCmd, State.setReg_nv, State.tierStart_nv, State.tierAdmit_nv, State.tierRelease_nv, State.tierMap_nv,
    State.tierShare_nv, State.tierUnmap_nv, State.tierMove_nv, State.tierOpen_nv]

@[simp] theorem execTierAdmit_nv (r : Requester) (s : State) : (nextOr (execTierAdmit r s) s).nv = s.nv := by
  simp [execTierAdmit]

@[simp] theorem execTierRelease_nv (r : Requester) (s : State) : (nextOr (execTierRelease r s) s).nv = s.nv := by
  simp [execTierRelease]

@[simp] theorem execMap_nv (r : Requester) (s : State) : (nextOr (execMap r s) s).nv = s.nv := by
  simp [execMap]

@[simp] theorem execShare_nv (r : Requester) (s : State) : (nextOr (execShare r s) s).nv = s.nv := by
  simp [execShare]

@[simp] theorem execUnmap_nv (r : Requester) (s : State) : (nextOr (execUnmap r s) s).nv = s.nv := by
  simp [execUnmap]

@[simp] theorem execMove_nv (r : Requester) (s : State) : (nextOr (execMove r s) s).nv = s.nv := by
  simp [execMove]

@[simp] theorem State.setQpool_nv (s : State) (v : Word32) : (s.setQpool v).nv = s.nv := by
  grind [State.setQpool, State.tierDone_nv]

@[simp] theorem State.setQstack_nv (s : State) (v : Word32) : (s.setQstack v).nv = s.nv := by
  grind [State.setQstack, State.tierDone_nv]

@[simp] theorem execTierQpool_nv (r : Requester) (v : Word32) (s : State) :
    (nextOr (execTierQpool r v s) s).nv = s.nv := by simp [execTierQpool]

@[simp] theorem execTierQstack_nv (r : Requester) (v : Word32) (s : State) :
    (nextOr (execTierQstack r v s) s).nv = s.nv := by simp [execTierQstack]

@[simp] theorem State.copyRec_nv (s : State) (rn : Nat) (r dst : Rec) (bankB : Bool) :
    (s.copyRec rn r dst bankB).nv = s.nv := by
  refine foldl_nv (fun s e => ?_) _ _
  grind [foldl_nv, State.poolHit_nv, State.memRd_nv, State.poolWr_nv, State.memWr_nv]

@[simp] theorem execMoveStart_nv (s : State) : (nextOr (execMoveStart s) s).nv = s.nv := by
  unfold execMoveStart
  grind [nextOr_ok, State.allocUnits_nv]

@[simp] theorem execMoveDone_nv (s : State) : (nextOr (execMoveDone s) s).nv = s.nv := by
  grind [execMoveDone, nextOr_ok, State.copyRec_nv, State.setRec_nv, State.freeUnits_nv, State.inc_nv]

@[simp] theorem execMoveAbandon_nv (s : State) : (nextOr (execMoveAbandon s) s).nv = s.nv := by
  unfold execMoveAbandon
  split <;> simp

@[simp] theorem State.demoteAll_nv (s : State) (a : List Nat) (a2 : Nat) : (s.demoteAll a a2).1.nv = s.nv := by
  fun_induction State.demoteAll <;> grind [State.askMove_nv]

@[simp] theorem State.promote_nv (s : State) (dens : List (Nat × Nat)) (d rn n : Nat) :
    (s.promote dens d rn n).1.nv = s.nv := by
  grind [State.promote, State.askMove_nv, State.demoteAll_nv]

@[simp] theorem State.promoteAll_nv (s : State) (dens : List (Nat × Nat)) (a : List (Nat × Nat)) (a3 : Nat) :
    (s.promoteAll dens a a3).nv = s.nv := by
  fun_induction State.promoteAll <;> grind [State.promote_nv]

@[simp] theorem execHeatEpochEnd_nv (s : State) : (nextOr (execHeatEpochEnd s) s).nv = s.nv := by
  grind [execHeatEpochEnd, nextOr_ok, foldl_nv, State.modRec_nv, State.demoteAll_nv,
    State.promoteAll_nv]

/-! ### Stream channels -/

@[simp] theorem State.bankFor_nv (s : State) (x : CtxId) (r : Rec) : (s.bankFor x r).2.nv = s.nv := by
  grind [State.bankFor, State.usedFree_nv]

@[simp] theorem State.resolve_nv (s : State) (x : CtxId) (d : Desc) : (s.resolve x d).2.nv = s.nv := by
  unfold State.resolve
  split <;> simp

@[simp] theorem execStrPost_nv (o : COp) (s : State) : (nextOr (execStrPost o s) s).nv = s.nv := by
  refine nextOr_issue_nv fun s x k => ?_
  dsimp only
  repeat' split
  all_goals simp

@[simp] theorem execStrWait_nv (o : COp) (s : State) : (nextOr (execStrWait o s) s).nv = s.nv := by
  refine nextOr_issue_nv fun s x k => ?_
  repeat' split
  all_goals simp

@[simp] theorem execStrAck_nv (o : COp) (s : State) : (nextOr (execStrAck o s) s).nv = s.nv := by
  refine nextOr_issue_nv fun s x k => ?_
  split <;> simp

@[simp] theorem execStrStat_nv (o : COp) (s : State) : (nextOr (execStrStat o s) s).nv = s.nv := by
  refine nextOr_issue_nv fun s x k => ?_
  split <;> simp

@[simp] theorem State.endWait_nv (s : State) (c waited : Nat) (ls : List (Nat × LandVal)) :
    (s.endWait c waited ls).nv = s.nv := by simp [State.endWait]

@[simp] theorem execStrWaitComplete_nv (c : CoreId) (waited : Nat) (s : State) :
    (nextOr (execStrWaitComplete c waited s) s).nv = s.nv := by
  unfold execStrWaitComplete
  repeat' split
  all_goals simp

@[simp] theorem State.retire_nv (s : State) (c : CoreId) (ch : Fin 8) (second : Bool) (st : BitVec 16) :
    (s.retire c ch second st).nv = s.nv := by
  grind [State.retire, State.modCore_nv, State.modThread_nv, State.modCounts_nv, State.inc_nv, State.raise_nv,
    State.setReg_nv]

@[simp] theorem State.abortChan_nv (s : State) (c : CoreId) (ch : Fin 8) (a : Nat) :
    (s.abortChan c ch a).nv = s.nv := by
  fun_induction State.abortChan <;> grind [State.retire_nv]

@[simp] theorem State.abortChans_nv (s : State) (c : CoreId) (x : CtxId) : (s.abortChans c x).nv = s.nv := by
  refine foldl_nv (fun s e => ?_) _ _
  grind [foldl_nv, State.abortChan_nv]

@[simp] theorem execDescSetup_nv (c : CoreId) (ch : Fin 8) (s : State) :
    (nextOr (execDescSetup c ch s) s).nv = s.nv := by
  grind [execDescSetup, nextOr_ok, State.retire_nv, State.resolve_nv, State.modCore_nv]

@[simp] theorem State.fillLines_nv (s : State) (c : CoreId) (rn : Nat) (bankB : Bool) (h : Hint) (part : Nat)
    (rw : Bool) (a a8 a9 a10 : Nat) (a11 : Bool) : (s.fillLines c rn bankB h part rw a a8 a9 a10 a11).2.nv = s.nv := by
  fun_induction State.fillLines <;> grind [State.recRead_nv, State.modCore_nv]

@[simp] theorem State.drainLines_nv (s : State) (c : CoreId) (rn : Nat) (bankB : Bool) (h : Hint)
    (part a a7 a8 a9 : Nat) : (s.drainLines c rn bankB h part a a7 a8 a9).nv = s.nv := by
  fun_induction State.drainLines <;> grind [State.recWrite_nv]

@[simp] theorem State.slotDone_nv (s : State) (c : CoreId) (ch : Fin 8) (d : Desc) (n written : Nat) (po : Bool) :
    (s.slotDone c ch d n written po).nv = s.nv := rfl

@[simp] theorem execSlotFilled_nv (c : CoreId) (ch : Fin 8) (s : State) :
    (nextOr (execSlotFilled c ch s) s).nv = s.nv := by
  grind [execSlotFilled, nextOr_ok, State.modCore_nv, State.recRead_nv, State.slotDone_nv, State.fillLines_nv]

@[simp] theorem execSlotDrained_nv (c : CoreId) (ch : Fin 8) (s : State) :
    (nextOr (execSlotDrained c ch s) s).nv = s.nv := by
  grind [execSlotDrained, nextOr_ok, State.modCore_nv, State.drainLines_nv, State.slotDone_nv]

@[simp] theorem execDescRetire_nv (c : CoreId) (ch : Fin 8) (s : State) :
    (nextOr (execDescRetire c ch s) s).nv = s.nv := by
  grind [execDescRetire, nextOr_ok, State.modCore_nv, State.retire_nv]

/-! ### Manifests and banks -/

@[simp] theorem State.modMdl_nv (s : State) (m : Nat) (f : Mdl → Mdl) : (s.modMdl m f).nv = s.nv := rfl

@[simp] theorem State.modBank_nv (s : State) (m : Nat) (b : Bool) (f : Bank → Bank) : (s.modBank m b f).nv = s.nv := rfl

@[simp] theorem State.wpbSend_nv (s : State) (m : Message) : (s.wpbSend m).nv = s.nv := by
  simp [State.wpbSend]

@[simp] theorem State.askChunks_nv (s : State) (m : Nat) (v : Word64) (repair : Bool) (a : Nat) (a5 : List Nat) :
    (s.askChunks m v repair a a5).nv = s.nv := by
  fun_induction State.askChunks <;> grind [State.wpbSend_nv, State.inc_nv]

@[simp] theorem State.askMissing_nv (s : State) (m : Nat) (b : Bool) : (s.askMissing m b).nv = s.nv := by
  simp [State.askMissing]

@[simp] theorem State.noteHold_nv (s : State) (m : Nat) (chip : BitVec 12) (op : Nat) :
    (s.noteHold m chip op).nv = s.nv := rfl

@[simp] theorem State.sendHold_nv (s : State) (m op : Nat) : (s.sendHold m op).nv = s.nv := by
  grind [State.sendHold, State.noteHold_nv, State.wpbSend_nv]

@[simp] theorem State.beginHold_nv (s : State) (m : Nat) : (s.beginHold m).nv = s.nv := by
  unfold State.beginHold
  split <;> simp

@[simp] theorem State.endHold_nv (s : State) (m : Nat) (tell : Bool) : (s.endHold m tell).nv = s.nv := by
  grind [State.endHold, State.inc_nv, State.modMdl_nv, State.sendHold_nv]

@[simp] theorem State.noteReady_nv (s : State) (m : Nat) (chip : BitVec 12) (v : Word64) :
    (s.noteReady m chip v).nv = s.nv := by
  grind [State.noteReady, State.modMdl_nv, State.noteHold_nv]

@[simp] theorem State.sendReady_nv (s : State) (m : Nat) (v : Word64) : (s.sendReady m v).nv = s.nv := by
  grind [State.sendReady, State.noteReady_nv, State.wpbSend_nv]

@[simp] theorem State.freeReady_nv (s : State) (m : Nat) (v : Word64) : (s.freeReady m v).nv = s.nv := by
  grind [State.freeReady, State.modBank_nv]

@[simp] theorem State.withdrawOlder_nv (s : State) (m : Nat) (v : Word64) : (s.withdrawOlder m v).nv = s.nv := by
  refine foldl_nv (fun s e => ?_) _ _
  grind [foldl_nv, State.modMdl_nv, State.freeReady_nv, State.inc_nv, State.wpbSend_nv]

@[simp] theorem State.becomeReady_nv (s : State) (m : Nat) (b : Bool) (v : Word64) :
    (s.becomeReady m b v).nv = s.nv := by
  grind [State.becomeReady, State.raise_nv, State.modBank_nv, State.endHold_nv, State.modMdl_nv, State.sendReady_nv]

@[simp] theorem State.openBuild_nv (s : State) (m : Nat) (b : Bool) (mf : Manif) : (s.openBuild m b mf).nv = s.nv := by
  grind [State.openBuild, State.modBank_nv, State.becomeReady_nv]

@[simp] theorem State.acceptBuild_nv (s : State) (m : Nat) (mf : Manif) : (s.acceptBuild m mf).nv = s.nv := by
  grind [State.acceptBuild, State.openBuild_nv, State.inc_nv, State.modMdl_nv]

@[simp] theorem State.mdlErr_nv (s : State) (m : Nat) (st : BitVec 16) : (s.mdlErr m st).nv = s.nv := by
  grind [State.mdlErr, State.setReg_nv]

@[simp] theorem State.refuseMfst_nv (s : State) (m : Nat) (st : BitVec 16) : (s.refuseMfst m st).nv = s.nv := by
  simp [State.refuseMfst]

@[simp] theorem State.hashed_nv (s : State) (n : Nat) : (s.hashed n).nv = s.nv := rfl

@[simp] theorem State.earlyChecks_nv (s : State) (m : Nat) (mf : Manif) : (s.earlyChecks m mf).nv = s.nv := by
  grind [State.earlyChecks, State.refuseMfst_nv, State.hashed_nv, State.inc_nv, State.modMdl_nv]

@[simp] theorem State.lateChecks_nv (s : State) (m : Nat) (mf : Manif) : (s.lateChecks m mf).nv = s.nv := by
  grind [State.lateChecks, State.inc_nv, State.refuseMfst_nv, State.modMdl_nv, State.withdrawOlder_nv,
    State.acceptBuild_nv]

@[simp] theorem State.repairDone_nv (s : State) (m : Nat) (b : Bool) : (s.repairDone m b).nv = s.nv := by
  grind [State.repairDone, State.modBank_nv, State.modMdl_nv, State.endHold_nv, State.raise_nv, State.inc_nv,
    State.openBuild_nv]

@[simp] theorem State.bankWhole_nv (s : State) (m : Nat) (b : Bool) : (s.bankWhole m b).nv = s.nv := by
  grind [State.bankWhole, State.becomeReady_nv, State.endHold_nv, State.repairDone_nv]

@[simp] theorem State.enterChunk_nv (s : State) (m : Nat) (b : Bool) (c : Nat) (bs : List Byte) :
    (s.enterChunk m b c bs).nv = s.nv := by
  grind [State.enterChunk, State.recWrite_nv, State.modBank_nv, State.bankWhole_nv, State.inc_nv]

@[simp] theorem State.settleBanks_nv (s : State) (m : Nat) : (s.settleBanks m).nv = s.nv := by
  grind [State.settleBanks, State.modBank_nv]

@[simp] theorem State.batchEnter_nv (s : State) (m : Nat) (v : Word64) : (s.batchEnter m v).nv = s.nv := by
  grind [State.batchEnter, State.modBank_nv, State.modMdl_nv, State.settleBanks_nv, State.raise_nv, State.inc_nv]

@[simp] theorem State.loseChunks_nv (s : State) (m : Nat) (b : Bool) (cs : List Nat) :
    (s.loseChunks m b cs).nv = s.nv := rfl

@[simp] theorem State.wpbPoison_nv (s : State) (m rn : Nat) (b : Bool) (off : Nat) :
    (s.wpbPoison m rn b off).nv = s.nv := by
  grind [State.wpbPoison, State.setReg_nv, State.beginHold_nv, State.raise_nv, State.inc_nv, State.modMdl_nv,
    State.loseChunks_nv, State.askChunks_nv, State.askMissing_nv]

@[simp] theorem State.openRepair_nv (s : State) (m : Nat) (live : Bool) : (s.openRepair m live).nv = s.nv := by
  grind [State.openRepair, State.modMdl_nv, State.modBank_nv, State.askMissing_nv]

@[simp] theorem State.goOffline_nv (s : State) (m : Nat) : (s.goOffline m).nv = s.nv := by
  grind [State.goOffline, foldl_nv, State.modBank_nv, State.modMdl_nv, State.sendHold_nv,
    State.raise_nv, State.inc_nv, State.detectOpen_nv]

/-! ### Trick locks -/

@[simp] theorem State.modLock_nv (s : State) (n : Nat) (f : Lock → Lock) : (s.modLock n f).nv = s.nv := rfl

@[simp] theorem State.armLease_nv (s : State) : s.armLease.nv = s.nv := by
  grind [State.armLease, State.setTmr_nv, State.setCmp_nv]

@[simp] theorem State.setLease_nv (s : State) (n ticks : Nat) : (s.setLease n ticks).nv = s.nv := by
  simp [State.setLease]

@[simp] theorem State.breakLock_nv (s : State) (n : Nat) (why : BitVec 3) : (s.breakLock n why).nv = s.nv := by
  unfold State.breakLock
  split <;> simp

@[simp] theorem State.lapseLeases_nv (s : State) : s.lapseLeases.nv = s.nv := by
  refine foldl_nv (fun s e => ?_) _ _
  grind [foldl_nv, State.breakLock_nv]

@[simp] theorem State.breakLocksOf_nv (s : State) (x : CtxId) : (s.breakLocksOf x).nv = s.nv := by
  grind [State.breakLocksOf, foldl_nv, State.modLock_nv, State.breakLock_nv]

@[simp] theorem execLockAcq_nv (o : YOp) (s : State) : (nextOr (execLockAcq o s) s).nv = s.nv := by
  refine nextOr_issue_nv fun s x k => ?_
  dsimp only
  repeat' split
  all_goals simp

@[simp] theorem execLockRel_nv (o : YOp) (s : State) : (nextOr (execLockRel o s) s).nv = s.nv := by
  refine nextOr_issue_nv fun s x k => ?_
  dsimp only
  repeat' split
  all_goals simp

@[simp] theorem State.ownerAgain_nv (s : State) (n : Fin 256) (y : CtxId) (waited : Nat) :
    (s.ownerAgain n y waited).nv = s.nv := by
  grind [State.ownerAgain, State.modLock_nv, State.endWait_nv, State.setLease_nv]

@[simp] theorem execLockGrant_nv (n : Fin 256) (w : Nat) (s : State) : (nextOr (execLockGrant n w s) s).nv = s.nv := by
  have hclaim {u t : State} {code : Nat} (h : (u.claimHw code).map (fun e => e.2) = some t) : t.nv = u.nv := by
    obtain ⟨⟨n, t⟩, hn, rfl⟩ := Option.map_eq_some_iff.1 h
    exact State.claimHw_nv hn
  unfold execLockGrant
  grind [nextOr_ok, State.modLock_nv, State.endWait_nv, State.inc_nv, State.setLease_nv, State.ownerAgain_nv]

@[simp] theorem State.lockDone_nv (s : State) (st : BitVec 16) : (s.lockDone st).nv = s.nv := by
  grind [State.lockDone, State.setReg_nv]

@[simp] theorem State.lockCmd_nv (s : State) (v : Word32) : (s.lockCmd v).nv = s.nv := by
  grind [State.lockCmd, State.lockDone_nv, State.breakLock_nv, State.modLock_nv, State.openStatus_nv]

@[simp] theorem execBrk_nv (r : Requester) (v : Word32) (s : State) : (nextOr (execBrk r v s) s).nv = s.nv := by
  simp [execBrk]

@[simp] theorem execClear_nv (r : Requester) (v : Word32) (s : State) : (nextOr (execClear r v s) s).nv = s.nv := by
  simp [execClear]

end Sys2Proof.Machine
end

section
/-! PROOF. The NV storage stands: the error log, receipts, barriers, episodes, weights and the vector unit. -/

namespace Sys2Proof.Machine

/-! ### The error log and telemetry -/

@[simp] theorem State.classPend_nv (s : State) (c : BitVec 2) : (s.classPend c).nv = s.nv := by
  grind [State.classPend, State.setReg_nv, State.signalVec_nv]

@[simp] theorem State.logOvf_nv (s : State) : s.logOvf.nv = s.nv := by
  grind [State.logOvf, State.setReg_nv]

@[simp] theorem State.fatalOut_nv (s : State) : s.fatalOut.nv = s.nv := by
  grind [State.fatalOut, State.emitOut_nv]

@[simp] theorem State.writeLog_nv (s : State) : s.writeLog.nv = s.nv := by
  grind [State.writeLog, State.classPend_nv, State.logOvf_nv, State.setReg64_nv, State.fatalOut_nv]

@[simp] theorem execLogEntryWrite_nv (s : State) : (nextOr (execLogEntryWrite s) s).nv = s.nv := by
  simp [execLogEntryWrite]

@[simp] theorem State.ackWrite_nv (s : State) (p o : Nat) (top : Word64) (hi : Bool) (v : Word32)
    (bad : State → State) (hbad : ∀ s : State, (bad s).nv = s.nv) : (s.ackWrite p o top hi v bad).nv = s.nv := by
  grind [State.ackWrite, State.setReg64_nv]

@[simp] theorem execAonLogTail_nv (r : Requester) (hi : Bool) (v : Word32) (s : State) :
    (nextOr (execAonLogTail r hi v s) s).nv = s.nv := by simp [execAonLogTail]

@[simp] theorem State.logSel_nv (s : State) (v : Word32) : (s.logSel v).nv = s.nv := rfl

@[simp] theorem execAonLogSel_nv (r : Requester) (v : Word32) (s : State) :
    (nextOr (execAonLogSel r v s) s).nv = s.nv := by
  grind [execAonLogSel, nextOr_ok, State.write_nv, State.logSel_nv]

@[simp] theorem execTelSample_nv (s : State) : (nextOr (execTelSample s) s).nv = s.nv := by
  simp [execTelSample, apply_ite State.nv]

@[simp] theorem execMsixUnmask_nv (vec : Fin 256) (s : State) : (nextOr (execMsixUnmask vec s) s).nv = s.nv := by
  simp [execMsixUnmask, apply_ite State.nv]

/-! ### The receipt journal beside the NV-write unit -/

@[simp] theorem State.chkWatch_nv (s : State) {f : State → State} (hf : ∀ s, (f s).nv = s.nv) :
    (s.chkWatch f).nv = s.nv := (s.signalled_chkWatch f).noted.nv.trans (hf s)

@[simp] theorem State.nvCmdDone_nv (s : State) (off : Nat) (st : BitVec 16) : (s.nvCmdDone off st).nv = s.nv := by
  grind [State.nvCmdDone, State.setReg_nv, State.inc_nv]

@[simp] theorem State.stageEntry_nv (s : State) (kind : Nat) (ctx : Byte) (body : List Byte) (slot : Option Nat) :
    (s.stageEntry kind ctx body slot).nv = s.nv := rfl

@[simp] theorem State.stageAll_nv (s : State) (a : Nat) : (s.stageAll a).nv = s.nv := by
  fun_induction State.stageAll <;> grind [State.stageEntry_nv]

@[simp] theorem State.stage_nv (s : State) : s.stage.nv = s.nv := by simp [State.stage]

@[simp] theorem State.journaled_nv (s : State) (e : List Byte) (slot : Nat) : (s.journaled e slot).nv = s.nv := by
  grind [State.journaled, State.devWrite_nv, State.setReg64_nv]

/-! ### Jobs and receipts -/

@[simp] theorem State.ringDrop_nv (s : State) : s.ringDrop.nv = s.nv := by
  grind [State.ringDrop, State.inc_nv, State.raise_nv, State.setReg64_nv]

@[simp] theorem State.regionDigest_nv (s : State) (x : CtxId) (b : Binding) : (s.regionDigest x b).2.nv = s.nv := by
  grind [State.regionDigest, State.bankFor_nv, State.recRead_nv, State.hashed_nv, State.usedFree_nv]

@[simp] theorem State.roleDigest_nv (s : State) (x : CtxId) (bs : List Binding) (out : Bool) :
    (s.roleDigest x bs out).2.nv = s.nv := by
  grind [State.roleDigest, foldl_snd_nv, State.regionDigest_nv]

@[simp] theorem State.newInterval_nv (s : State) (x : CtxId) : (s.newInterval x).nv = s.nv := rfl

@[simp] theorem State.sealOne_nv (s : State) (x : CtxId) (final : Bool) (st : BitVec 16) :
    (s.sealOne x final st).nv = s.nv := by
  grind [State.sealOne, State.chkWatch_nv, State.ringDrop_nv, State.roleDigest_nv, State.inc_nv, State.devWrite_nv,
    State.setReg64_nv, State.modJob_nv, State.setReg_nv, State.stage_nv, State.newInterval_nv]

@[simp] theorem State.sealDue_nv (s : State) (x : CtxId) : (s.sealDue x).nv = s.nv := by
  unfold State.sealDue
  split <;> simp

@[simp] theorem execDeferredSeal_nv (x : CtxId) (s : State) : (nextOr (execDeferredSeal x s) s).nv = s.nv := by
  unfold execDeferredSeal
  split <;> simp

@[simp] theorem State.sealCmd_nv (s : State) (v : Word32) : (s.sealCmd v).nv = s.nv := by
  grind [State.sealCmd, State.setReg_nv, State.openStatus_nv, State.sealDue_nv]

@[simp] theorem execChkSealCmd_nv (r : Requester) (v : Word32) (s : State) :
    (nextOr (execChkSealCmd r v s) s).nv = s.nv := by simp [execChkSealCmd]

@[simp] theorem State.ringTail_nv (s : State) (hi : Bool) (v : Word32) : (s.ringTail hi v).nv = s.nv := by
  grind [State.ringTail, State.chkWatch_nv, State.ackWrite_nv, State.inc_nv]

@[simp] theorem execChkRingTail_nv (r : Requester) (hi : Bool) (v : Word32) (s : State) :
    (nextOr (execChkRingTail r hi v s) s).nv = s.nv := by
  unfold execChkRingTail
  rw [nextOr_ok]
  exact State.write_nv_of_eq fun u t (h : State.ringTail u hi v = t) => h ▸ State.ringTail_nv u hi v

@[simp] theorem State.setMode_nv (s : State) (v : Word32) : (s.setMode v).nv = s.nv := by
  grind [State.setMode, foldl_nv, State.setReg_nv, State.chkWatch_nv, State.store_nv,
    State.modJob_nv]

@[simp] theorem execChkMode_nv (r : Requester) (v : Word32) (s : State) :
    (nextOr (execChkMode r v s) s).nv = s.nv := by simp [execChkMode]

@[simp] theorem State.spanBegin_nv (s : State) (x : CtxId) (g : Fin 128) (slot : Fin 16) (v num : Word64)
    (dig : List Byte) : (s.spanBegin x g slot v num dig).nv = s.nv := rfl

@[simp] theorem State.spanAdd_nv (s : State) (x : CtxId) (slot : Fin 16) (v num : Word64) (dig : List Byte)
    (poison : Bool) : (s.spanAdd x slot v num dig poison).nv = s.nv := by
  grind [State.spanAdd, State.modJob_nv, State.sealOne_nv, State.sealDue_nv]

@[simp] theorem State.spanEnd_nv (s : State) (x : CtxId) (g : Fin 128) (num : Word64) (poison : Bool) :
    (s.spanEnd x g num poison).nv = s.nv := by
  unfold State.spanEnd
  split <;> simp

@[simp] theorem State.sealFinal_nv (s : State) (x : CtxId) (st : BitVec 16) : (s.sealFinal x st).nv = s.nv := by
  simp [State.sealFinal, foldl_nv]

@[simp] theorem State.chainAdd_nv (s : State) (x : CtxId) (r : List Byte) (tokens : Nat) :
    (s.chainAdd x r tokens).nv = s.nv := rfl

/-! ### Barriers -/

@[simp] theorem State.modBar_nv (s : State) (x b : Nat) (f : Barrier → Barrier) : (s.modBar x b f).nv = s.nv := rfl

@[simp] theorem State.barTell_nv (s : State) (x : CtxId) (b : Nat) (st : BitVec 16) (c : CoreId) :
    (s.barTell x b st c).nv = s.nv := by simp [State.barTell]

@[simp] theorem State.barTurn_nv (s : State) (x b : Nat) : (s.barTurn x b).nv = s.nv := by
  grind [State.barTurn, State.modBar_nv]

@[simp] theorem State.engAgain_nv (s : State) (x : CtxId) (b : Nat) : (s.engAgain x b).nv = s.nv := by
  grind [State.engAgain, foldl_nv]

@[simp] theorem State.barEnd_nv (s : State) (x : CtxId) (b : Nat) (st : BitVec 16) : (s.barEnd x b st).nv = s.nv := by
  simp [State.barEnd, foldl_nv]

@[simp] theorem State.barFirst_nv (s : State) (x b : Nat) (eps : Bool) : (s.barFirst x b eps).nv = s.nv := by
  unfold State.barFirst
  split <;> simp

@[simp] theorem State.setPod_nv (s : State) (gid b : Nat) (p : Pod) : (s.setPod gid b p).nv = s.nv := rfl

@[simp] theorem State.podReleased_nv (s : State) (gid b : Nat) : (s.podReleased gid b).nv = s.nv := by
  unfold State.podReleased
  split <;> simp

@[simp] theorem State.podArrive_nv (s : State) (gid b : Nat) (chip : BitVec 12) :
    (s.podArrive gid b chip).nv = s.nv := by
  grind [State.podArrive, foldl_nv, State.setPod_nv, State.podReleased_nv, State.sendMsg_nv]

@[simp] theorem State.podCheck_nv (s : State) (x : CtxId) (b : Nat) : (s.podCheck x b).nv = s.nv := by
  grind [State.podCheck, State.modBar_nv, State.podArrive_nv, State.sendMsg_nv]

@[simp] theorem State.coreArrive_nv (s : State) (x : CtxId) (b : Nat) (c : CoreId) :
    (s.coreArrive x b c).nv = s.nv := by
  grind [State.coreArrive, State.barTell_nv, State.modBar_nv, State.barTurn_nv, State.podCheck_nv, State.barFirst_nv]

@[simp] theorem State.engArrive_nv (s : State) (x : CtxId) (b : Nat) (e : Engine) : (s.engArrive x b e).nv = s.nv := by
  grind [State.engArrive, State.barTurn_nv, State.modBar_nv, State.podCheck_nv, State.barFirst_nv]

@[simp] theorem execBar_nv (o : YOp) (s : State) : (nextOr (execBar o s) s).nv = s.nv := by
  refine nextOr_issue_nv fun s x k => ?_
  repeat' split
  all_goals simp

@[simp] theorem State.barStalled_nv (s : State) (x : CtxId) (b chip core : Nat) :
    (s.barStalled x b chip core).nv = s.nv := by
  grind [State.barStalled, State.setReg_nv, State.barEnd_nv, State.detect_nv, State.inc_nv]

@[simp] theorem execBarrierStall_nv (x : CtxId) (b : Fin 64) (s : State) :
    (nextOr (execBarrierStall x b s) s).nv = s.nv := by simp [execBarrierStall, apply_ite State.nv]

@[simp] theorem State.podStalled_nv (s : State) (gid b chip : Nat) : (s.podStalled gid b chip).nv = s.nv := by
  grind [State.podStalled, State.barStalled_nv, State.usedFree_nv]

@[simp] theorem State.sendBarAbort_nv (s : State) (dest : BitVec 12) (gid chip b : Nat) (st : BitVec 16) :
    (s.sendBarAbort dest gid chip b st).nv = s.nv := by simp [State.sendBarAbort]

@[simp] theorem State.podWatch_nv (s : State) (gid b : Nat) : (s.podWatch gid b).nv = s.nv := by
  grind [State.podWatch, foldl_nv, State.setPod_nv, State.podStalled_nv,
    State.sendBarAbort_nv]

@[simp] theorem State.barAbort_nv (s : State) (x : CtxId) (b : Nat) : (s.barAbort x b).nv = s.nv := by
  simp [State.barAbort, foldl_nv]

@[simp] theorem State.onBarAbort_nv (s : State) (m : Message) : (s.onBarAbort m).nv = s.nv := by
  grind [State.onBarAbort, State.podStalled_nv, State.setPod_nv, State.barAbort_nv]

@[simp] theorem State.barsEnd_nv (s : State) (x : CtxId) : (s.barsEnd x).nv = s.nv := by
  refine foldl_nv (fun s e => ?_) _ _
  grind [foldl_nv, State.setPod_nv, State.sendBarAbort_nv, State.modCtx_nv]

/-! ### Episodes -/

@[simp] theorem State.setBreg64_nv (s : State) (n p o : Nat) (v : Word64) : (s.setBreg64 n p o v).nv = s.nv := rfl

@[simp] theorem State.modGroup_nv (s : State) (g : Nat) (f : EGroup → EGroup) : (s.modGroup g f).nv = s.nv := rfl

@[simp] theorem State.modEpsCtx_nv (s : State) (x : Nat) (f : EpsCtx → EpsCtx) : (s.modEpsCtx x f).nv = s.nv := rfl

@[simp] theorem State.engRead_nv (s : State) (x tid off n : Nat) : (s.engRead x tid off n).2.2.nv = s.nv := by
  grind [State.engRead, State.recRead_nv]

@[simp] theorem State.engWrite_nv (s : State) (h : Hint) (x tid off : Nat) (bs : List Byte) (poison : Bool) :
    (s.engWrite h x tid off bs poison).nv = s.nv := by
  grind [State.engWrite, State.recWrite_nv]

@[simp] theorem State.engCopy_nv (s : State) (h : Hint) (x src dst a a6 a7 : Nat) :
    (s.engCopy h x src dst a a6 a7).nv = s.nv := by
  fun_induction State.engCopy <;> grind [State.engRead_nv, State.engWrite_nv]

@[simp] theorem State.engOut_nv (s : State) (x src a a4 a5 : Nat) : (s.engOut x src a a4 a5).nv = s.nv := by
  fun_induction State.engOut <;> grind [State.engRead_nv, State.devWrite_nv]

@[simp] theorem State.setEpisode_nv (s : State) (i : Nat) (e : Option Episode) : (s.setEpisode i e).nv = s.nv := rfl

@[simp] theorem State.modEpisode_nv (s : State) (i : Nat) (f : Episode → Episode) : (s.modEpisode i f).nv = s.nv := rfl

@[simp] theorem State.epsEvent_nv (s : State) (kind cause : Nat) (st : BitVec 16) (e : Episode) :
    (s.epsEvent kind cause st e).nv = s.nv := by
  grind [State.epsEvent, State.inc_nv, State.raise_nv, State.setReg64_nv, State.devWrite_nv]

@[simp] theorem State.eventOf_nv (s : State) (i kind : Nat) (st : BitVec 16) : (s.eventOf i kind st).nv = s.nv := by
  unfold State.eventOf
  split <;> simp

@[simp] theorem State.queueRec_nv (s : State) (i : Nat) (reward : Word32) (final : Bool) :
    (s.queueRec i reward final).nv = s.nv := by
  grind [State.queueRec, State.modEpisode_nv, State.raise_nv]

@[simp] theorem State.freeEpisode_nv (s : State) (i : Nat) : (s.freeEpisode i).nv = s.nv := by
  grind [State.freeEpisode, State.setEpisode_nv]

@[simp] theorem State.endEpisode_nv (s : State) (i : Nat) (fin : BitVec 2) (st : BitVec 16) :
    (s.endEpisode i fin st).nv = s.nv := by
  grind [State.endEpisode, State.modGroup_nv, State.modEpisode_nv, State.eventOf_nv, State.inc_nv, State.freeEpisode_nv,
    State.queueRec_nv]

@[simp] theorem State.setCredit_nv (s : State) (t n : Nat) : (s.setCredit t n).nv = s.nv := rfl

@[simp] theorem State.epsSend_nv (s : State) (kind dest g flags : Nat) (num ver : Word64) (payload : List Byte) :
    (s.epsSend kind dest g flags num ver payload).nv = s.nv := by simp [State.epsSend]

@[simp] theorem State.startHusk_nv (s : State) (i : Nat) (e : Episode) (slot : Fin 256) :
    (s.startHusk i e slot).nv = s.nv := by
  refine foldl_nv (fun s e => ?_) _ _
  grind [foldl_nv, State.modGroup_nv, State.epsSend_nv]

@[simp] theorem State.pauseEpisode_nv (s : State) (i : Nat) (causes : BitVec 3) :
    (s.pauseEpisode i causes).nv = s.nv := by
  grind [State.pauseEpisode, State.modEpisode_nv, State.inc_nv, State.queueRec_nv, State.startHusk_nv]

@[simp] theorem State.unpause_nv (s : State) (i : Nat) : (s.unpause i).nv = s.nv := by
  grind [State.unpause, State.eventOf_nv, State.modEpisode_nv]

@[simp] theorem State.huskDoneAt_nv (s : State) (g : Fin 128) (stage : BitVec 12) (slot : Fin 256) :
    (s.huskDoneAt g stage slot).nv = s.nv := by
  grind [State.huskDoneAt, State.modGroup_nv, State.modEpisode_nv, State.eventOf_nv]

@[simp] theorem State.epsCmdDone_nv (s : State) (st : BitVec 16) : (s.epsCmdDone st).nv = s.nv := by
  grind [State.epsCmdDone, State.setReg_nv]

@[simp] theorem State.epsOpen_nv (s : State) : s.epsOpen.nv = s.nv := rfl

@[simp] theorem State.newIdentity_nv (s : State) : (s.newIdentity).2.2.nv = s.nv := rfl

@[simp] theorem State.markExternal_nv (s : State) (x tid a a4 : Nat) : (s.markExternal x tid a a4).nv = s.nv := by
  fun_induction State.markExternal <;> grind [State.engWrite_nv]

@[simp] theorem State.epsStart_nv (s : State) : s.epsStart.nv = s.nv := by
  unfold State.epsStart
  grind [State.epsCmdDone_nv, State.markExternal_nv, State.engRead_nv, State.newIdentity_nv, State.setEpisode_nv,
    State.setReg_nv, State.eventOf_nv]

@[simp] theorem State.epsCancel_nv (s : State) : s.epsCancel.nv = s.nv := by
  grind [State.epsCancel, State.epsCmdDone_nv, State.openStatus_nv, State.endEpisode_nv, State.modGroup_nv]

@[simp] theorem State.epsPause_nv (s : State) : s.epsPause.nv = s.nv := by
  grind [State.epsPause, State.epsCmdDone_nv, State.modEpisode_nv, State.eventOf_nv, State.inc_nv]

@[simp] theorem State.epsReply_nv (s : State) : s.epsReply.nv = s.nv := by
  grind [State.epsReply, State.epsCmdDone_nv, State.markExternal_nv, State.engRead_nv, State.modEpisode_nv,
    State.unpause_nv]

@[simp] theorem State.epsScore_nv (s : State) : s.epsScore.nv = s.nv := by
  grind [State.epsScore, State.epsCmdDone_nv, State.queueRec_nv]

@[simp] theorem State.epsGo_nv (s : State) (f : State → State) (hf : ∀ s : State, (f s).nv = s.nv) :
    (s.epsGo f).nv = s.nv := by
  unfold State.epsGo
  split <;> simp [hf]

@[simp] theorem State.epsCmd_nv (s : State) (v : Word32) : (s.epsCmd v).nv = s.nv := by
  grind [State.epsCmd, State.epsGo_nv, State.epsStart_nv, State.epsCancel_nv, State.epsPause_nv, State.epsReply_nv,
    State.epsScore_nv, State.epsOpen_nv]

@[simp] theorem execStart_nv (r : Requester) (s : State) : (nextOr (execStart r s) s).nv = s.nv := by
  simp [execStart]

@[simp] theorem execEpsCancel_nv (r : Requester) (s : State) : (nextOr (execEpsCancel r s) s).nv = s.nv := by
  simp [execEpsCancel]

@[simp] theorem execPause_nv (r : Requester) (s : State) : (nextOr (execPause r s) s).nv = s.nv := by
  simp [execPause]

@[simp] theorem execReply_nv (r : Requester) (s : State) : (nextOr (execReply r s) s).nv = s.nv := by
  simp [execReply]

@[simp] theorem execScore_nv (r : Requester) (s : State) : (nextOr (execScore r s) s).nv = s.nv := by
  simp [execScore]

@[simp] theorem State.dropSpec_nv (s : State) (g : Nat) : (s.dropSpec g).nv = s.nv := by
  grind [State.dropSpec, State.unclaimPool_nv, State.freeRec_nv, State.modGroup_nv]

theorem State.takeSpec_nv {s t : State} {g : Nat} {x : CtxId} (ht : s.takeSpec g x = some t) : t.nv = s.nv := by
  grind [State.takeSpec, State.claimPool_nv, State.newNumber_nv, State.setRec_nv, State.modGroup_nv]

@[simp] theorem State.groupCfg_nv (s : State) (g : Nat) (w : Word32) : (s.groupCfg g w).nv = s.nv := by
  grind [State.groupCfg, State.setBreg_nv, State.dropSpec_nv, State.takeSpec_nv]

@[simp] theorem execEpsGroupValid_nv (r : Requester) (v : Word32) (s : State) :
    (nextOr (execEpsGroupValid r v s) s).nv = s.nv := by simp [execEpsGroupValid]

@[simp] theorem State.epsPeriod_nv (s : State) (v : Word32) : (s.epsPeriod v).nv = s.nv := by
  grind [State.epsPeriod, State.claimHw_nv, State.setReg_nv, State.freeChannel_nv, State.setTmr_nv, State.setCmp_nv]

@[simp] theorem execEpsPeriod_nv (r : Requester) (v : Word32) (s : State) :
    (nextOr (execEpsPeriod r v s) s).nv = s.nv := by simp [execEpsPeriod]

@[simp] theorem State.refill_nv (s : State) : s.refill.nv = s.nv := by
  unfold State.refill
  exact (foldl_nv (fun s e => by simp) _ _).trans (foldl_nv (fun s t => by simp) _ _)

/-! ### Steps of batch groups -/

@[simp] theorem State.seeSlot_nv (s : State) (g k : Nat) (e : List Byte) : (s.seeSlot g k e).nv = s.nv := by
  grind [State.seeSlot, State.modGroup_nv]

@[simp] theorem State.takeStep_nv (s : State) (g : Fin 128) (num ver : Word64) (block : List Byte)
    (home : BitVec 12) : (s.takeStep g num ver block home).nv = s.nv := by
  simp [State.takeStep, foldl_nv]

@[simp] theorem State.fillSlots_nv (s : State) (g a : Nat) (a3 : List Nat) : (s.fillSlots g a a3).1.nv = s.nv := by
  fun_induction State.fillSlots <;> grind [State.modGroup_nv, State.modEpisode_nv]

@[simp] theorem State.reserveSlots_nv (s : State) (g a : Nat) (a3 : List StepSlot) (a4 : List Nat) :
    (s.reserveSlots g a a3 a4).1.nv = s.nv := by
  fun_induction State.reserveSlots <;> grind [State.setCredit_nv]

@[simp] theorem State.openStep_nv (s : State) (g : Fin 128) : (s.openStep g).nv = s.nv := by
  grind [State.openStep, foldl_nv, State.modMdl_nv, State.fillSlots_nv,
    State.reserveSlots_nv, State.pauseEpisode_nv, State.setBreg64_nv, State.modGroup_nv, State.epsSend_nv,
    State.takeStep_nv]

@[simp] theorem execStepOpen_nv (g : Fin 128) (s : State) : (nextOr (execStepOpen g s) s).nv = s.nv := by
  unfold execStepOpen
  split <;> simp

@[simp] theorem State.commitSlot_nv (s : State) (g : Nat) (ver : Word64) (poison : Bool) (emits : List EmitRec)
    (t : StepSlot) : (s.commitSlot g ver poison emits t).2.nv = s.nv := by
  grind [State.commitSlot, State.inc_nv, State.setCredit_nv, State.epsEvent_nv, State.engWrite_nv, State.modEpisode_nv,
    State.setBreg64_nv]

@[simp] theorem State.commitSlots_nv (s : State) (g : Nat) (ver : Word64) (poison : Bool) (emits : List EmitRec)
    (a : List StepSlot) : (s.commitSlots g ver poison emits a).2.nv = s.nv := by
  fun_induction State.commitSlots <;> grind [State.commitSlot_nv]

@[simp] theorem State.applySlot_nv (s : State) (g : Nat) (ver : Word64) (slot k : Nat) :
    (s.applySlot g ver slot k).nv = s.nv := by
  grind [State.applySlot, foldl_nv, State.engCopy_nv, State.modGroup_nv]

@[simp] theorem State.applyCommit_nv (s : State) (g : Fin 128) (num ver : Word64) (poison : Bool)
    (bytes : List Byte) : (s.applyCommit g num ver poison bytes).nv = s.nv := by
  grind [State.applyCommit, foldl_nv, State.applySlot_nv, State.spanEnd_nv]

@[simp] theorem State.commitStep_nv (s : State) (g : Fin 128) : (s.commitStep g).nv = s.nv := by
  grind [State.commitStep, foldl_nv, State.commitSlots_nv, State.inc_nv, State.raise_nv,
    State.chainAdd_nv, State.epsSend_nv, State.modGroup_nv, State.applyCommit_nv, State.engWrite_nv,
    State.endEpisode_nv, State.pauseEpisode_nv]

@[simp] theorem State.commitDue_nv (s : State) (a : Nat) : (s.commitDue a).nv = s.nv := by
  fun_induction State.commitDue <;> grind [State.commitStep_nv]

@[simp] theorem State.stepDoneAt_nv (s : State) (g : Fin 128) (num : Word64) (stage : BitVec 12) (poison : Bool)
    (emits : List EmitRec) : (s.stepDoneAt g num stage poison emits).nv = s.nv := by
  grind [State.stepDoneAt, State.modGroup_nv, State.commitDue_nv]

@[simp] theorem State.closeStep_nv (s : State) (x : CtxId) : (s.closeStep x).nv = s.nv := by
  grind [State.closeStep, State.modEpsCtx_nv, State.settleBanks_nv, State.stepDoneAt_nv, State.epsSend_nv]

@[simp] theorem State.nextStep_nv (s : State) (x : CtxId) : (s.nextStep x).nv = s.nv := by
  grind [State.nextStep, State.modEpsCtx_nv, State.settleBanks_nv, State.batchEnter_nv, State.spanBegin_nv]

@[simp] theorem State.stepTurn_nv (s : State) (x : CtxId) : (s.stepTurn x).nv = s.nv := by
  simp [State.stepTurn]

@[simp] theorem execEpsStepArrive_nv (x : CtxId) (s : State) : (nextOr (execEpsStepArrive x s) s).nv = s.nv := by
  unfold execEpsStepArrive
  split <;> simp

@[simp] theorem execEmit_nv (o : YOp) (s : State) : (nextOr (execEmit o s) s).nv = s.nv := by
  refine nextOr_issue_nv fun s x k => ?_
  split <;> simp

@[simp] theorem State.keepEmit_nv (s : State) (q : EmitEntry) : (s.keepEmit q).nv = s.nv := by
  grind [State.keepEmit, State.inc_nv, State.modEpsCtx_nv]

@[simp] theorem execEmitDrain_nv (c : CoreId) (s : State) : (nextOr (execEmitDrain c s) s).nv = s.nv := by
  grind [execEmitDrain, nextOr_ok, State.engineEvent_nv, State.usedFree_nv, State.inc_nv, State.modCore_nv,
    State.keepEmit_nv]

@[simp] theorem State.takeHusk_nv (s : State) (g : Fin 128) (home : BitVec 12) (slot : Fin 256) (i : Nat) :
    (s.takeHusk g home slot i).nv = s.nv := rfl

@[simp] theorem State.epsApply_nv (s : State) (m : Message) : (s.epsApply m).nv = s.nv := by
  grind [State.epsApply, State.takeStep_nv, State.applyCommit_nv, State.takeHusk_nv]

@[simp] theorem State.epsRelease_nv (s : State) (a : Nat) : (s.epsRelease a).nv = s.nv := by
  fun_induction State.epsRelease <;> grind [State.epsApply_nv]

@[simp] theorem State.windowedE_nv (s : State) (m : Message) {take : State → Taken}
    (htake : ∀ s, (take s).after.nv = s.nv) : (s.windowedE m take).nv = s.nv :=
  (State.epsRelease_nv ..).trans (State.windowed_nv s m htake)

@[simp] theorem State.engineTakeE_nv (s : State) (m : Message) (page : Nat) {f : State → State}
    (hf : ∀ s, (f s).nv = s.nv) : (s.engineTakeE m page f).nv = s.nv :=
  State.windowedE_nv s m fun u => by split <;> simp [Taken.after, hf]

@[simp] theorem State.epsOrdered_nv (s : State) (m : Message) : (s.epsOrdered m).nv = s.nv := by
  simp [State.epsOrdered]

@[simp] theorem execStepOpenRx_nv (m : Message) (s : State) : (nextOr (execStepOpenRx m s) s).nv = s.nv := by
  simp [execStepOpenRx]

@[simp] theorem execCommit_nv (m : Message) (s : State) : (nextOr (execCommit m s) s).nv = s.nv := by
  simp [execCommit]

@[simp] theorem execHusk_nv (m : Message) (s : State) : (nextOr (execHusk m s) s).nv = s.nv := by
  simp [execHusk]

@[simp] theorem execStepDone_nv (m : Message) (s : State) : (nextOr (execStepDone m s) s).nv = s.nv := by
  simp [execStepDone]

@[simp] theorem execHuskDone_nv (m : Message) (s : State) : (nextOr (execHuskDone m s) s).nv = s.nv := by
  simp [execHuskDone]

@[simp] theorem State.slotKnown_nv (s : State) (g slot : Nat) : (s.slotKnown g slot).2.nv = s.nv := by
  unfold State.slotKnown
  split <;> simp

@[simp] theorem State.runHusk_nv (s : State) (g : Fin 128) (h : Husk) : (s.runHusk g h).nv = s.nv := by
  grind [State.runHusk, foldl_nv, State.slotKnown_nv, State.devWrite_nv, State.engOut_nv,
    State.inc_nv, State.modGroup_nv, State.huskDoneAt_nv, State.epsSend_nv]

@[simp] theorem execHuskComplete_nv (g : Fin 128) (slot : Fin 256) (s : State) :
    (nextOr (execHuskComplete g slot s) s).nv = s.nv := by
  unfold execHuskComplete
  split <;> simp

@[simp] theorem State.epsCtxEnd_nv (s : State) (x : CtxId) (st : BitVec 16) : (s.epsCtxEnd x st).nv = s.nv := by
  grind [State.epsCtxEnd, foldl_nv, State.modGroup_nv, State.setCredit_nv,
    State.modEpsCtx_nv, State.endEpisode_nv, State.settleBanks_nv, State.commitDue_nv]

/-! ### Weight publication -/

@[simp] theorem State.makeBanked_nv (s : State) (rn : Nat) : (s.makeBanked rn).nv = s.nv := by
  grind [State.makeBanked, State.allocUnits_nv, State.modRec_nv]

@[simp] theorem State.mdlOpen_nv (s : State) (m : Nat) : (s.mdlOpen m).nv = s.nv := by
  simp [State.mdlOpen, foldl_nv]

@[simp] theorem State.mdlClose_nv (s : State) (m : Nat) : (s.mdlClose m).nv = s.nv := by
  unfold State.mdlClose
  exact (State.modMdl_nv ..).trans ((foldl_nv (fun s g => by simp) _ _).trans (State.endHold_nv ..))

@[simp] theorem State.mdlIdWrite_nv (s : State) (m : Nat) (v : Word32) : (s.mdlIdWrite m v).nv = s.nv := by
  grind [State.mdlIdWrite, State.mdlClose_nv, State.store_nv, State.mdlOpen_nv]

@[simp] theorem State.wpbDone_nv (s : State) (st : BitVec 16) : (s.wpbDone st).nv = s.nv := by
  grind [State.wpbDone, State.setReg_nv]

@[simp] theorem State.wpbOpen_nv (s : State) : s.wpbOpen.nv = s.nv := rfl

@[simp] theorem State.wpbStart_nv (s : State) (f : State → State) (hf : ∀ s : State, (f s).nv = s.nv) :
    (s.wpbStart f).nv = s.nv := by
  grind [State.wpbStart, State.setReg_nv]

@[simp] theorem State.sendParts_nv (s : State) (tree model len : Nat) (v : Word64) (a a6 : Nat) (a7 : List Byte) :
    (s.sendParts tree model len v a a6 a7).nv = s.nv := by
  fun_induction State.sendParts <;> grind [State.wpbSend_nv]

@[simp] theorem State.sendPub_nv (s : State) (m : Fin 16) (mb : List Byte) (list : List (Nat × Nat))
    (cs : List HostChunk) : (s.sendPub m mb list cs).nv = s.nv := by
  grind [State.sendPub, foldl_nv, State.sendParts_nv, State.wpbSend_nv, State.inc_nv,
    State.modMdl_nv, State.setReg_nv]

@[simp] theorem State.publish_nv (s : State) (m : Fin 16) (manifest list : HostRead) (cs : List HostChunk) :
    (s.publish m manifest list cs).nv = s.nv := by
  unfold State.publish
  extract_lets
  refine ite_nv (State.wpbDone_nv ..) (ite_nv (State.wpbOpen_nv ..) ?_)
  split
  · exact ite_nv ((State.wpbDone_nv ..).trans (State.inc_nv ..)) ((State.sendPub_nv ..).trans (State.inc_nv ..))
  · exact State.wpbOpen_nv ..

@[simp] theorem execPublish_nv (r : Requester) (slot : Fin 16) (manifest list : HostRead)
    (chunks : List HostChunk) (s : State) : (nextOr (execPublish r slot manifest list chunks s) s).nv = s.nv := by
  unfold execPublish
  split <;> simp

@[simp] theorem execPublishComplete_nv (s : State) : (nextOr (execPublishComplete s) s).nv = s.nv := by
  unfold execPublishComplete
  split <;> simp

@[simp] theorem State.pubRelease_nv (s : State) (m : Nat) : (s.pubRelease m).nv = s.nv := by
  grind [State.pubRelease, State.wpbOpen_nv, State.wpbDone_nv, State.modMdl_nv]

@[simp] theorem execWpbRelease_nv (r : Requester) (slot : Fin 16) (s : State) :
    (nextOr (execWpbRelease r slot s) s).nv = s.nv := by simp [execWpbRelease]

@[simp] theorem State.wpbAbandon_nv (s : State) (m : Nat) : (s.wpbAbandon m).nv = s.nv := by
  grind [State.wpbAbandon, State.modBank_nv, State.wpbDone_nv, State.modMdl_nv]

@[simp] theorem execAbandon_nv (r : Requester) (slot : Fin 16) (s : State) :
    (nextOr (execAbandon r slot s) s).nv = s.nv := by simp [execAbandon]

@[simp] theorem State.wpbCmd_nv (s : State) (v : Word32) : (s.wpbCmd v).nv = s.nv := by
  grind [State.wpbCmd, State.wpbStart_nv, State.wpbDone_nv, State.setReg_nv, State.pubRelease_nv, State.wpbAbandon_nv,
    State.wpbOpen_nv]

@[simp] theorem State.wpbTake_nv (s : State) (m : Message) (f : Nat → State → State)
    (hf : ∀ (v0 : Nat) (v1 : State), (f v0 v1).nv = v1.nv) : (s.wpbTake m f).nv = s.nv := by
  grind [State.wpbTake, State.engineMsg_nv, State.engineTakeE_nv, State.inc_nv]

@[simp] theorem State.onManifest_nv (s : State) (m : Nat) (msg : Message) : (s.onManifest m msg).nv = s.nv := by
  unfold State.onManifest
  extract_lets off len v fresh u
  have hu : u.nv = s.nv := by
    refine ite_nv rfl (ite_nv ((State.refuseMfst_nv ..).trans (State.modMdl_nv ..)) ?_)
    split
    · exact State.modMdl_nv ..
    · exact (State.modMdl_nv ..).trans (State.modMdl_nv ..)
  clear_value u
  split
  · exact hu
  · refine ite_nv hu ?_
    extract_lets w a'
    split
    · exact (State.modMdl_nv ..).trans ((State.devWrite_nv ..).trans hu)
    · exact (State.earlyChecks_nv ..).trans ((State.modMdl_nv ..).trans ((State.devWrite_nv ..).trans hu))

@[simp] theorem execManifest_nv (m : Message) (s : State) : (nextOr (execManifest m s) s).nv = s.nv := by
  simp [execManifest]

@[simp] theorem execSigVerifyDone_nv (slot : Fin 16) (s : State) :
    (nextOr (execSigVerifyDone slot s) s).nv = s.nv := by
  unfold execSigVerifyDone
  split <;> simp

@[simp] theorem State.stageBytes_nv (s : State) (us : List Nat) (a a3 : Nat) (a4 : List Byte) (a5 : List Bool) :
    (s.stageBytes us a a3 a4 a5).nv = s.nv := by
  fun_induction State.stageBytes <;> grind [State.poolWr_nv]

@[simp] theorem State.dropChunk_nv (s : State) : s.dropChunk.nv = s.nv := rfl

@[simp] theorem State.onChunk_nv (s : State) (m : Nat) (msg : Message) : (s.onChunk m msg).nv = s.nv := by
  unfold State.onChunk
  grind [State.modMdl_nv, State.modBank_nv, State.dropChunk_nv, State.claimPool_nv, State.mdlErr_nv,
    State.stageBytes_nv]

@[simp] theorem execChunk_nv (m : Message) (s : State) : (nextOr (execChunk m s) s).nv = s.nv := by
  simp [execChunk]

@[simp] theorem State.badChunk_nv (s : State) (m : Nat) (g : Staged) : (s.badChunk m g).nv = s.nv := by
  unfold State.badChunk
  split <;> simp

@[simp] theorem State.chunkHashed_nv (s : State) (m : Nat) (g : Staged) : (s.chunkHashed m g).nv = s.nv := by
  grind [State.chunkHashed, State.modMdl_nv, State.unclaimPool_nv, State.badChunk_nv, State.hashed_nv, State.recRead_nv,
    State.dropChunk_nv, State.enterChunk_nv]

@[simp] theorem execChunkHashDone_nv (slot : Fin 16) (idx : Nat) (s : State) :
    (nextOr (execChunkHashDone slot idx s) s).nv = s.nv := by
  unfold execChunkHashDone
  split <;> simp

@[simp] theorem State.onPubEnd_nv (s : State) (m : Nat) (v : Word64) : (s.onPubEnd m v).nv = s.nv := by
  grind [State.onPubEnd, State.askMissing_nv]

@[simp] theorem execPubEnd_nv (m : Message) (s : State) : (nextOr (execPubEnd m s) s).nv = s.nv := by
  simp [execPubEnd]

@[simp] theorem execRestreamRetryTimer_nv (slot : Fin 16) (s : State) :
    (nextOr (execRestreamRetryTimer slot s) s).nv = s.nv := by
  simp [execRestreamRetryTimer, apply_ite State.nv]

@[simp] theorem State.serveChunk_nv (s : State) (m : Nat) (msg : Message) (p : Pub) (cs : List HostChunk)
    (c : Nat) : (s.serveChunk m msg p cs c).nv = s.nv := by
  unfold State.serveChunk
  split <;> simp

@[simp] theorem execRestreamReq_nv (m : Message) (chunks : List HostChunk) (s : State) :
    (nextOr (execRestreamReq m chunks s) s).nv = s.nv := by
  grind [execRestreamReq, nextOr_ok, foldl_nv, State.wpbTake_nv, State.wpbSend_nv,
    State.serveChunk_nv]

@[simp] theorem State.onRefuse_nv (s : State) (m : Nat) (v : Word64) : (s.onRefuse m v).nv = s.nv := by
  grind [State.onRefuse, State.goOffline_nv, State.endHold_nv, State.mdlErr_nv, State.modBank_nv]

@[simp] theorem execRestreamRefuse_nv (m : Message) (s : State) : (nextOr (execRestreamRefuse m s) s).nv = s.nv := by
  simp [execRestreamRefuse]

@[simp] theorem execReady_nv (m : Message) (s : State) : (nextOr (execReady m s) s).nv = s.nv := by
  simp [execReady, apply_ite State.nv]

@[simp] theorem execWithdraw_nv (m : Message) (s : State) : (nextOr (execWithdraw m s) s).nv = s.nv := by
  simp [execWithdraw]

@[simp] theorem execHold_nv (m : Message) (s : State) : (nextOr (execHold m s) s).nv = s.nv := by
  simp [execHold, apply_ite State.nv]

@[simp] theorem execPendingBuildOpen_nv (slot : Fin 16) (s : State) :
    (nextOr (execPendingBuildOpen slot s) s).nv = s.nv := by
  unfold execPendingBuildOpen
  split <;> simp

@[simp] theorem execRepairOpen_nv (slot : Fin 16) (s : State) : (nextOr (execRepairOpen slot s) s).nv = s.nv := by
  grind [execRepairOpen, nextOr_ok, State.engineEvent_nv, State.openRepair_nv]

@[simp] theorem execRestreamDeadline_nv (slot : Fin 16) (s : State) :
    (nextOr (execRestreamDeadline slot s) s).nv = s.nv := by
  simp [execRestreamDeadline, apply_ite State.nv]

/-! ### Access commands and the scrub -/

@[simp] theorem State.poisonFound_nv (s : State) (line : Nat) : (s.poisonFound line).nv = s.nv := by
  grind [State.poisonFound, State.tierPoison_nv, State.wpbPoison_nv, State.wakeDom_nv]

/-- A whole access leaves the NV storage where its effect does. -/
@[simp] theorem State.memAccess_nv (s : State) (a : MemAccess) {f : State → State} (hf : ∀ s, (f s).nv = s.nv) :
    (nextOr (s.memAccess a f) s).nv = s.nv := by
  unfold State.memAccess
  grind [nextOr, nextOr_ok, State.wakeFor_nv, State.poisonFound_nv]

@[simp] theorem execMemRead_nv (a : MemAccess) (s : State) : (nextOr (execMemRead a s) s).nv = s.nv := by
  simp [execMemRead]

@[simp] theorem execMemWrite_nv (a : MemAccess) (d p) (s : State) : (nextOr (execMemWrite a d p s) s).nv = s.nv := by
  simp [execMemWrite]

@[simp] theorem execScrubLine_nv (stack : Fin 8) (ecc : EccObs) (raced : Bool) (s : State) :
    (nextOr (execScrubLine stack ecc raced s) s).nv = s.nv := by
  grind [execScrubLine, nextOr_ok, State.scrub_nv, State.poisonFound_nv]

/-! ### Vector instructions -/

@[simp] theorem vres_quiet (lat : Nat) (o : VOp) (k : Core) (f : Nat → Word32 × FFlags) (po : Bool)
    (reads : List (Loc × Nat)) : (vres lat o k f po reads).Quiet := fun _ => rfl

@[simp] theorem vbin_quiet (lat : Nat) (o : VOp) (k : Core) (f : Word32 → Word32 → Word32 × FFlags) :
    (vbin lat o k f).Quiet := fun _ => rfl

@[simp] theorem vtri_quiet (lat : Nat) (o : VOp) (k : Core) (f : Word32 → Word32 → Word32 → Word32 × FFlags) :
    (vtri lat o k f).Quiet := fun _ => rfl

@[simp] theorem vun_quiet (lat : Nat) (o : VOp) (k : Core) (f : Word32 → Word32 × FFlags) : (vun lat o k f).Quiet :=
  fun _ => rfl

@[simp] theorem vint_quiet (lat : Nat) (o : VOp) (k : Core) (f : Word32 → Word32 → Word32) :
    (vint lat o k f).Quiet := fun _ => rfl

@[simp] theorem vcmp_quiet (lat : Nat) (o : VOp) (k : Core) (f : Word32 → Word32 → Bool × FFlags) :
    (vcmp lat o k f).Quiet := fun _ => rfl

@[simp] theorem execVadd_nv (o : VOp) (s : State) : (nextOr (execVadd o s) s).nv = s.nv := by
  simp [execVadd]

@[simp] theorem execVsub_nv (o : VOp) (s : State) : (nextOr (execVsub o s) s).nv = s.nv := by
  simp [execVsub]

@[simp] theorem execVmul_nv (o : VOp) (s : State) : (nextOr (execVmul o s) s).nv = s.nv := by
  simp [execVmul]

@[simp] theorem execVfma_nv (o : VOp) (s : State) : (nextOr (execVfma o s) s).nv = s.nv := by
  simp [execVfma]

@[simp] theorem execVfms_nv (o : VOp) (s : State) : (nextOr (execVfms o s) s).nv = s.nv := by
  simp [execVfms]

@[simp] theorem execVmin_nv (o : VOp) (s : State) : (nextOr (execVmin o s) s).nv = s.nv := by
  simp [execVmin]

@[simp] theorem execVmax_nv (o : VOp) (s : State) : (nextOr (execVmax o s) s).nv = s.nv := by
  simp [execVmax]

@[simp] theorem execVabs_nv (o : VOp) (s : State) : (nextOr (execVabs o s) s).nv = s.nv := by
  simp [execVabs]

@[simp] theorem execVneg_nv (o : VOp) (s : State) : (nextOr (execVneg o s) s).nv = s.nv := by
  simp [execVneg]

@[simp] theorem execVdiv_nv (o : VOp) (s : State) : (nextOr (execVdiv o s) s).nv = s.nv := by
  simp [execVdiv]

@[simp] theorem execVsqrt_nv (o : VOp) (s : State) : (nextOr (execVsqrt o s) s).nv = s.nv := by
  simp [execVsqrt]

@[simp] theorem execVrsqrt_nv (o : VOp) (s : State) : (nextOr (execVrsqrt o s) s).nv = s.nv := by
  simp [execVrsqrt]

@[simp] theorem execVexp2_nv (o : VOp) (s : State) : (nextOr (execVexp2 o s) s).nv = s.nv := by
  simp [execVexp2]

@[simp] theorem execVlog2_nv (o : VOp) (s : State) : (nextOr (execVlog2 o s) s).nv = s.nv := by
  simp [execVlog2]

@[simp] theorem execVintAdd_nv (o : VOp) (s : State) : (nextOr (execVintAdd o s) s).nv = s.nv := by
  simp [execVintAdd]

@[simp] theorem execVintSub_nv (o : VOp) (s : State) : (nextOr (execVintSub o s) s).nv = s.nv := by
  simp [execVintSub]

@[simp] theorem execVintMul_nv (o : VOp) (s : State) : (nextOr (execVintMul o s) s).nv = s.nv := by
  simp [execVintMul]

@[simp] theorem execVintAnd_nv (o : VOp) (s : State) : (nextOr (execVintAnd o s) s).nv = s.nv := by
  simp [execVintAnd]

@[simp] theorem execVintOr_nv (o : VOp) (s : State) : (nextOr (execVintOr o s) s).nv = s.nv := by
  simp [execVintOr]

@[simp] theorem execVintXor_nv (o : VOp) (s : State) : (nextOr (execVintXor o s) s).nv = s.nv := by
  simp [execVintXor]

@[simp] theorem execVintSll_nv (o : VOp) (s : State) : (nextOr (execVintSll o s) s).nv = s.nv := by
  simp [execVintSll]

@[simp] theorem execVintSrl_nv (o : VOp) (s : State) : (nextOr (execVintSrl o s) s).nv = s.nv := by
  simp [execVintSrl]

@[simp] theorem execVintSra_nv (o : VOp) (s : State) : (nextOr (execVintSra o s) s).nv = s.nv := by
  simp [execVintSra]

@[simp] theorem execVintMin_nv (o : VOp) (s : State) : (nextOr (execVintMin o s) s).nv = s.nv := by
  simp [execVintMin]

@[simp] theorem execVintMax_nv (o : VOp) (s : State) : (nextOr (execVintMax o s) s).nv = s.nv := by
  simp [execVintMax]

@[simp] theorem execVintMinu_nv (o : VOp) (s : State) : (nextOr (execVintMinu o s) s).nv = s.nv := by
  simp [execVintMinu]

@[simp] theorem execVintMaxu_nv (o : VOp) (s : State) : (nextOr (execVintMaxu o s) s).nv = s.nv := by
  simp [execVintMaxu]

@[simp] theorem execFeq_nv (o : VOp) (s : State) : (nextOr (execFeq o s) s).nv = s.nv := by
  simp [execFeq]

@[simp] theorem execFne_nv (o : VOp) (s : State) : (nextOr (execFne o s) s).nv = s.nv := by
  simp [execFne]

@[simp] theorem execFlt_nv (o : VOp) (s : State) : (nextOr (execFlt o s) s).nv = s.nv := by
  simp [execFlt]

@[simp] theorem execFle_nv (o : VOp) (s : State) : (nextOr (execFle o s) s).nv = s.nv := by
  simp [execFle]

@[simp] theorem execIeq_nv (o : VOp) (s : State) : (nextOr (execIeq o s) s).nv = s.nv := by
  simp [execIeq]

@[simp] theorem execIne_nv (o : VOp) (s : State) : (nextOr (execIne o s) s).nv = s.nv := by
  simp [execIne]

@[simp] theorem execIlt_nv (o : VOp) (s : State) : (nextOr (execIlt o s) s).nv = s.nv := by
  simp [execIlt]

@[simp] theorem execIle_nv (o : VOp) (s : State) : (nextOr (execIle o s) s).nv = s.nv := by
  simp [execIle]

@[simp] theorem execIltu_nv (o : VOp) (s : State) : (nextOr (execIltu o s) s).nv = s.nv := by
  simp [execIltu]

@[simp] theorem execIleu_nv (o : VOp) (s : State) : (nextOr (execIleu o s) s).nv = s.nv := by
  simp [execIleu]

@[simp] theorem vpack_quiet (lat wd base : Nat) (o : VOp) (k : Core) (f : Nat → Nat × FFlags) :
    (vpack lat wd base o k f).Quiet := fun _ => rfl

@[simp] theorem vunpack_quiet (lat wd base : Nat) (o : VOp) (k : Core) (f : Nat → Word32) :
    (vunpack lat wd base o k f).Quiet := fun _ => rfl

@[simp] theorem execF2i_nv (o : VOp) (s : State) : (nextOr (execF2i o s) s).nv = s.nv := by
  simp [execF2i]

@[simp] theorem execI2f_nv (o : VOp) (s : State) : (nextOr (execI2f o s) s).nv = s.nv := by
  simp [execI2f]

@[simp] theorem execF2b_nv (o : VOp) (s : State) : (nextOr (execF2b o s) s).nv = s.nv := by
  simp [execF2b]

@[simp] theorem execB2f_nv (o : VOp) (s : State) : (nextOr (execB2f o s) s).nv = s.nv := by
  simp [execB2f]

@[simp] theorem execI2b8_nv (o : VOp) (s : State) : (nextOr (execI2b8 o s) s).nv = s.nv := by
  simp [execI2b8]

@[simp] theorem execB82i_nv (o : VOp) (s : State) : (nextOr (execB82i o s) s).nv = s.nv := by
  simp [execB82i]

@[simp] theorem execF2e4_nv (o : VOp) (s : State) : (nextOr (execF2e4 o s) s).nv = s.nv := by
  simp [execF2e4]

@[simp] theorem execE42f_nv (o : VOp) (s : State) : (nextOr (execE42f o s) s).nv = s.nv := by
  simp [execE42f]

@[simp] theorem execF2e5_nv (o : VOp) (s : State) : (nextOr (execF2e5 o s) s).nv = s.nv := by
  simp [execF2e5]

@[simp] theorem execE52f_nv (o : VOp) (s : State) : (nextOr (execE52f o s) s).nv = s.nv := by
  simp [execE52f]

@[simp] theorem vred_quiet (latV latS : Nat) (ident : Word32) (signed : Bool) (o : VOp) (k : Core)
    (f : Word32 → Word32 → Word32 × FFlags) : (vred latV latS ident signed o k f).Quiet := fun _ => rfl

@[simp] theorem execFsum_nv (o : VOp) (s : State) : (nextOr (execFsum o s) s).nv = s.nv := by
  simp [execFsum]

@[simp] theorem execFmax_nv (o : VOp) (s : State) : (nextOr (execFmax o s) s).nv = s.nv := by
  simp [execFmax]

@[simp] theorem execFmin_nv (o : VOp) (s : State) : (nextOr (execFmin o s) s).nv = s.nv := by
  simp [execFmin]

@[simp] theorem execFargmax_nv (o : VOp) (s : State) : (nextOr (execFargmax o s) s).nv = s.nv := by
  simp [execFargmax]

@[simp] theorem execIsum_nv (o : VOp) (s : State) : (nextOr (execIsum o s) s).nv = s.nv := by
  simp [execIsum]

@[simp] theorem execImax_nv (o : VOp) (s : State) : (nextOr (execImax o s) s).nv = s.nv := by
  simp [execImax]

@[simp] theorem execImin_nv (o : VOp) (s : State) : (nextOr (execImin o s) s).nv = s.nv := by
  simp [execImin]

@[simp] theorem execMov_nv (o : VOp) (s : State) : (nextOr (execMov o s) s).nv = s.nv := by
  simp [execMov]

@[simp] theorem execBcast_nv (o : VOp) (s : State) : (nextOr (execBcast o s) s).nv = s.nv := by
  simp [execBcast]

@[simp] theorem execSel_nv (o : VOp) (s : State) : (nextOr (execSel o s) s).nv = s.nv := by
  simp [execSel]

@[simp] theorem execGet_nv (o : VOp) (s : State) : (nextOr (execGet o s) s).nv = s.nv := by
  simp [execGet]

@[simp] theorem execPut_nv (o : VOp) (s : State) : (nextOr (execPut o s) s).nv = s.nv := by
  simp [execPut]

@[simp] theorem execPerm_nv (o : VOp) (s : State) : (nextOr (execPerm o s) s).nv = s.nv := by
  simp [execPerm]

@[simp] theorem execIota_nv (o : VOp) (s : State) : (nextOr (execIota o s) s).nv = s.nv := by
  simp [execIota]

@[simp] theorem ppair_quiet (o : VOp) (k : Core) (f : BitVec 64 → BitVec 64 → BitVec 64) : (ppair o k f).Quiet :=
  fun _ => rfl

@[simp] theorem pconst_quiet (o : VOp) (v : BitVec 64) : (pconst o v).Quiet := fun _ => rfl

@[simp] theorem pcount_quiet (o : VOp) (k : Core) (f : BitVec 64 → Nat) : (pcount o k f).Quiet := fun _ => rfl

@[simp] theorem execVpredAnd_nv (o : VOp) (s : State) : (nextOr (execVpredAnd o s) s).nv = s.nv := by
  simp [execVpredAnd]

@[simp] theorem execVpredOr_nv (o : VOp) (s : State) : (nextOr (execVpredOr o s) s).nv = s.nv := by
  simp [execVpredOr]

@[simp] theorem execVpredXor_nv (o : VOp) (s : State) : (nextOr (execVpredXor o s) s).nv = s.nv := by
  simp [execVpredXor]

@[simp] theorem execVpredAndn_nv (o : VOp) (s : State) : (nextOr (execVpredAndn o s) s).nv = s.nv := by
  simp [execVpredAndn]

@[simp] theorem execVpredSet_nv (o : VOp) (s : State) : (nextOr (execVpredSet o s) s).nv = s.nv := by
  simp [execVpredSet]

@[simp] theorem execVpredClr_nv (o : VOp) (s : State) : (nextOr (execVpredClr o s) s).nv = s.nv := by
  simp [execVpredClr]

@[simp] theorem execVpredCnt_nv (o : VOp) (s : State) : (nextOr (execVpredCnt o s) s).nv = s.nv := by
  simp [execVpredCnt]

@[simp] theorem execVpredFirst_nv (o : VOp) (s : State) : (nextOr (execVpredFirst o s) s).nv = s.nv := by
  simp [execVpredFirst]

@[simp] theorem execVld_nv (o) (s : State) : (nextOr (execVld o s) s).nv = s.nv := by
  refine nextOr_issue_nv fun s x k => ?_
  split
  · simp
  · exact fun _ => rfl

@[simp] theorem execVst_nv (o : VOp) (s : State) : (nextOr (execVst o s) s).nv = s.nv := by
  refine nextOr_issue_nv fun s x k => ?_
  split <;> simp

@[simp] theorem vmask_quiet (o : VOp) (s : State) (x : CtxId) (f : (Nat → Nat) → Eff) : (vmask o s x f).Quiet := by
  unfold vmask
  dsimp only
  split <;> simp

@[simp] theorem execVmaskMask_nv (o : VOp) (s : State) : (nextOr (execVmaskMask o s) s).nv = s.nv := by
  simp [execVmaskMask]

@[simp] theorem execVmaskDraw_nv (o : VOp) (s : State) : (nextOr (execVmaskDraw o s) s).nv = s.nv := by
  simp [execVmaskDraw]

@[simp] theorem execCksumCmp_nv (o : VOp) (s : State) : (nextOr (execCksumCmp o s) s).nv = s.nv := by
  simp [execCksumCmp]

@[simp] theorem execCksumLog_nv (o : VOp) (s : State) : (nextOr (execCksumLog o s) s).nv = s.nv := by
  refine nextOr_issue_nv fun s x k => ?_
  dsimp only
  repeat' split
  all_goals simp

@[simp] theorem execMomqLd_nv (o : VOp) (s : State) : (nextOr (execMomqLd o s) s).nv = s.nv := by
  refine nextOr_issue_nv fun s x k => ?_
  split <;> simp

@[simp] theorem execMomqSt_nv (o : VOp) (s : State) : (nextOr (execMomqSt o s) s).nv = s.nv := by
  refine nextOr_issue_nv fun s x k => ?_
  split <;> simp

@[simp] theorem execMomqUpd_nv (o : VOp) (s : State) : (nextOr (execMomqUpd o s) s).nv = s.nv := by
  simp [execMomqUpd]

end Sys2Proof.Machine
end

section
/-! PROOF. The NV storage stands: the annealer, the arrays, the host, collectives and learner jobs. -/

namespace Sys2Proof.Machine

/-! ### The annealer -/

@[simp] theorem State.modAnl_nv (s : State) (c : Nat) (f : AnlCh → AnlCh) : (s.modAnl c f).nv = s.nv := rfl

@[simp] theorem State.anlArrive_nv (s : State) (c : Fin 32) : (s.anlArrive c).nv = s.nv := by
  grind [State.anlArrive, State.modAnl_nv, State.engArrive_nv]

@[simp] theorem State.anlOwed_nv (s : State) (x : CtxId) (b : Nat) : (s.anlOwed x b).nv = s.nv := by
  refine foldl_nv (fun s e => ?_) _ _
  grind [foldl_nv, State.anlArrive_nv, State.modAnl_nv]

@[simp] theorem State.anlStatus_nv (s : State) (c : Nat) (st : BitVec 16) : (s.anlStatus c st).nv = s.nv := by
  simp [State.anlStatus]

@[simp] theorem State.endRun_nv (s : State) (c : Fin 32) (st : BitVec 16) : (s.endRun c st).nv = s.nv := by
  grind [State.endRun, State.anlStatus_nv, State.inc_nv, State.raise_nv, State.modAnl_nv, State.anlArrive_nv]

@[simp] theorem State.anlWrite_nv (s : State) (c off : Nat) (bs : List Byte) : (s.anlWrite c off bs).nv = s.nv := by
  grind [State.anlWrite, State.recWrite_nv]

@[simp] theorem State.endRunStatus_nv (s : State) (c : Fin 32) (st : BitVec 16) : (s.endRunStatus c st).nv = s.nv := by
  simp [State.endRunStatus]

@[simp] theorem State.anlTrigger_nv (s : State) (c : Fin 32) : (s.anlTrigger c).2.nv = s.nv := by
  grind [State.anlTrigger, State.anlArrive_nv, State.inc_nv, State.anlStatus_nv, State.modAnl_nv]

@[simp] theorem execAnlTrigger_nv (ch : Fin 32) (s : State) : (nextOr (execAnlTrigger ch s) s).nv = s.nv := by
  unfold execAnlTrigger
  split <;> simp

@[simp] theorem State.anlSplit_nv (s : State) (c : Fin 32) : (s.anlSplit c).2.nv = s.nv := by
  grind [State.anlSplit, State.recRead_nv]

@[simp] theorem State.anlCheck_nv (s : State) (c : Fin 32) : (s.anlCheck c).2.nv = s.nv := by
  grind [State.anlCheck, State.recRead_nv]

@[simp] theorem State.anlLoad_nv (s : State) (c : Fin 32) : (s.anlLoad c).2.nv = s.nv := by
  grind [State.anlLoad, State.anlSplit_nv, State.anlCheck_nv]

@[simp] theorem execAnlLoadDone_nv (ch : Fin 32) (s : State) : (nextOr (execAnlLoadDone ch s) s).nv = s.nv := by
  grind [execAnlLoadDone, nextOr_ok, State.engineEvent_nv, State.anlLoad_nv, State.endRun_nv, State.endRunStatus_nv,
    State.setReg_nv, State.modJob_nv, State.modAnl_nv]

@[simp] theorem State.applyBoundaries_nv (s : State) (c : Fin 32) (p : Prob) (n : Nat) :
    (s.applyBoundaries c p n).nv = s.nv := by
  refine foldl_nv (fun s e => ?_) _ _
  grind [foldl_nv, State.modAnl_nv, State.inc_nv]

@[simp] theorem State.sendBoundaries_nv (s : State) (p : Prob) (sp : List Bool) (sweep : Nat) :
    (s.sendBoundaries p sp sweep).nv = s.nv := by simp [State.sendBoundaries, foldl_nv]

@[simp] theorem State.anlSweep_nv (s : State) (c : Fin 32) (p : Prob) : (s.anlSweep c p).nv = s.nv := by
  grind [State.anlSweep, State.applyBoundaries_nv, State.inc_nv, State.modAnl_nv, State.setReg_nv,
    State.sendBoundaries_nv]

@[simp] theorem execAnlSweep_nv (ch : Fin 32) (s : State) : (nextOr (execAnlSweep ch s) s).nv = s.nv := by
  unfold execAnlSweep
  repeat' split
  all_goals simp

@[simp] theorem State.onBoundary_nv (s : State) (m : Message) : (s.onBoundary m).nv = s.nv := by
  grind [State.onBoundary, State.inc_nv, State.endRunStatus_nv, State.modAnl_nv]

@[simp] theorem execBoundary_nv (m : Message) (s : State) : (nextOr (execBoundary m s) s).nv = s.nv := by
  simp [execBoundary]

@[simp] theorem State.anlFinish_nv (s : State) (c : Fin 32) (p : Prob) : (s.anlFinish c p).nv = s.nv := by
  grind [State.anlFinish, State.hashed_nv, State.anlWrite_nv, State.modJob_nv, State.endRun_nv]

@[simp] theorem execAnlRunEnd_nv (ch : Fin 32) (s : State) : (nextOr (execAnlRunEnd ch s) s).nv = s.nv := by
  unfold execAnlRunEnd
  split <;> simp

@[simp] theorem State.anlAbort_nv (s : State) (c : Fin 32) : (s.anlAbort c).nv = s.nv := by
  grind [State.anlAbort, State.endRunStatus_nv]

@[simp] theorem State.anlCtxEnd_nv (s : State) (x : CtxId) : (s.anlCtxEnd x).nv = s.nv := by
  refine foldl_nv (fun s e => ?_) _ _
  grind [foldl_nv, State.modAnl_nv, State.anlAbort_nv]

@[simp] theorem State.anlDone_nv (s : State) (st : BitVec 16) : (s.anlDone st).nv = s.nv := by
  grind [State.anlDone, State.setReg_nv]

@[simp] theorem State.anlOpen_nv (s : State) : s.anlOpen.nv = s.nv := rfl

@[simp] theorem State.anlGo_nv (s : State) (v : Word32) (f : State → State) (hf : ∀ s : State, (f s).nv = s.nv) :
    (s.anlGo v f).nv = s.nv := by
  unfold State.anlGo
  split <;> simp [hf]

@[simp] theorem State.anlRun_nv (s : State) (v : Word32) : (s.anlRun v).nv = s.nv := by
  grind [State.anlRun, State.anlOpen_nv, State.anlTrigger_nv, State.anlDone_nv]

@[simp] theorem execRun_nv (r : Requester) (v : Word32) (s : State) : (nextOr (execRun r v s) s).nv = s.nv := by
  simp [execRun]

@[simp] theorem State.anlAbortCmd_nv (s : State) (v : Word32) : (s.anlAbortCmd v).nv = s.nv := by
  simp [State.anlAbortCmd]

@[simp] theorem execAnlAbort_nv (r : Requester) (v : Word32) (s : State) :
    (nextOr (execAnlAbort r v s) s).nv = s.nv := by simp [execAnlAbort]

@[simp] theorem State.anlSelftest_nv (s : State) (v : Word32) : (s.anlSelftest v).nv = s.nv := by
  grind [State.anlSelftest, State.anlDone_nv, State.setReg_nv]

@[simp] theorem execSelftest_nv (r : Requester) (v : Word32) (s : State) :
    (nextOr (execSelftest r v s) s).nv = s.nv := by simp [execSelftest]

@[simp] theorem execAnlSelftestDone_nv (good : Bool) (s : State) :
    (nextOr (execAnlSelftestDone good s) s).nv = s.nv := by
  simp [execAnlSelftestDone, apply_ite State.nv]

@[simp] theorem State.anlConfig_nv (s : State) (c : Fin 32) (v : Word32) : (s.anlConfig c v).nv = s.nv := by
  grind [State.anlConfig, State.anlStatus_nv, State.store_nv]

@[simp] theorem execAnlChannelConfig_nv (r : Requester) (ch : Fin 32) (v : Word32) (s : State) :
    (nextOr (execAnlChannelConfig r ch v s) s).nv = s.nv := by simp [execAnlChannelConfig]

@[simp] theorem State.anlCmd_nv (s : State) (v : Word32) : (s.anlCmd v).nv = s.nv := by
  grind [State.anlCmd, State.anlGo_nv, State.anlRun_nv, State.anlAbortCmd_nv, State.anlSelftest_nv, State.anlOpen_nv]

/-! ### The services around the arrays -/

@[simp] theorem State.retryOver_nv (s : State) (c : CoreId) (freeze : Nat) : (s.retryOver c freeze).nv = s.nv := by
  simp [State.retryOver]

@[simp] theorem State.retryLost_nv (s : State) (j : RetryJob) : (s.retryLost j).nv = s.nv := by
  simp [State.retryLost]

@[simp] theorem execRetryStart_nv (cl : Fin 16) (s : State) : (nextOr (execRetryStart cl s) s).nv = s.nv := by
  unfold execRetryStart
  repeat' split
  all_goals simp

@[simp] theorem execRetryComplete_nv (cl : Fin 16) (faults : List CellFault) (ecc : List TileEcc) (freeze : Nat)
    (s : State) : (nextOr (execRetryComplete cl faults ecc freeze s) s).nv = s.nv := by
  grind [execRetryComplete, nextOr_ok, State.modClu_nv, State.inc_nv, State.setReg_nv, State.modCounts_nv,
    State.detectOpen_nv, State.tileEcc_nv, State.commitBlock_nv, State.mismatch_nv, State.mismatchHalt_nv,
    State.fencedOff_nv, State.passOver_nv, State.retryOver_nv]

@[simp] theorem State.testStat_nv (s : State) (cl slot result slices : Nat) :
    (s.testStat cl slot result slices).nv = s.nv := by simp [State.testStat]

@[simp] theorem State.askTest_nv (s : State) (cl slot : Nat) (nowait unfence : Bool) :
    (s.askTest cl slot nowait unfence).nv = s.nv := by
  grind [State.askTest, State.setReg_nv, State.testStat_nv, State.wakeAgent_nv, State.modClu_nv]

@[simp] theorem State.fenceCmd_nv (s : State) (cl : Nat) (v : Word32) : (s.fenceCmd cl v).nv = s.nv := by
  grind [State.fenceCmd, State.fence_nv, State.askTest_nv]

@[simp] theorem State.selftestCmd_nv (s : State) (cl : Nat) (v : Word32) : (s.selftestCmd cl v).nv = s.nv := by
  unfold State.selftestCmd
  split <;> simp

@[simp] theorem execCluFence_nv (r : Requester) (cl : Fin 16) (v : Word32) (s : State) :
    (nextOr (execCluFence r cl v s) s).nv = s.nv := by simp [execCluFence]

@[simp] theorem execCluUnfence_nv (r : Requester) (cl : Fin 16) (v : Word32) (s : State) :
    (nextOr (execCluUnfence r cl v s) s).nv = s.nv := by simp [execCluUnfence]

@[simp] theorem execCluSelftestCmd_nv (r : Requester) (cl : Fin 16) (v : Word32) (s : State) :
    (nextOr (execCluSelftestCmd r cl v s) s).nv = s.nv := by simp [execCluSelftestCmd]

@[simp] theorem execSelftestSliceStart_nv (cl : Fin 16) (s : State) :
    (nextOr (execSelftestSliceStart cl s) s).nv = s.nv := by
  grind [execSelftestSliceStart, nextOr_ok, State.modClu_nv]

@[simp] theorem State.testOver_nv (s : State) (cl : Nat) (t : SelfTest) (pass : Bool) :
    (s.testOver cl t pass).nv = s.nv := by
  grind [State.testOver, State.modClu_nv, State.raise_nv, State.inc_nv, State.testStat_nv, State.fence_nv,
    State.modArr_nv, State.fencedOff_nv]

@[simp] theorem execSelftestSliceDone_nv (cl : Fin 16) (pass : Bool) (s : State) :
    (nextOr (execSelftestSliceDone cl pass s) s).nv = s.nv := by
  grind [execSelftestSliceDone, nextOr_ok, State.testStat_nv, State.modClu_nv, State.testOver_nv]

/-! ### PCI Express, SMBus, PMBus, GPIO and JTAG -/

@[simp] theorem State.freeBytes_nv (s : State) (n : Nat) : (s.freeBytes n).2.nv = s.nv := rfl

@[simp] theorem State.pcieUp_nv (s : State) : s.pcieUp.nv = s.nv := rfl

@[simp] theorem State.linkLost_nv (s : State) : s.linkLost.nv = s.nv := by simp [State.linkLost]

@[simp] theorem execPcieLinkDown_nv (s : State) : (nextOr (execPcieLinkDown s) s).nv = s.nv := by
  simp [execPcieLinkDown]

@[simp] theorem State.flushDma_nv (s : State) : s.flushDma.nv = s.nv := by
  unfold State.flushDma
  split <;> simp

@[simp] theorem execBusMasterEnable_nv (s : State) : (nextOr (execBusMasterEnable s) s).nv = s.nv := by
  unfold execBusMasterEnable
  split <;> simp

@[simp] theorem execPcieD3hot_nv (enter : Bool) (s : State) : (nextOr (execPcieD3hot enter s) s).nv = s.nv := by
  simp [execPcieD3hot]

@[simp] theorem State.bar2Win_nv (s : State) (v : Word32) : (s.bar2Win v).nv = s.nv := by
  unfold State.bar2Win
  split <;> simp

@[simp] theorem execHifBar2Win_nv (r : Requester) (v : Word32) (s : State) :
    (nextOr (execHifBar2Win r v s) s).nv = s.nv := by simp [execHifBar2Win]

@[simp] theorem execBar2Read_nv (off : BitVec 36) (len : Nat) (s : State) :
    (nextOr (execBar2Read off len s) s).nv = s.nv := by
  grind [execBar2Read, nextOr_ok, State.inc_nv, State.memRd_nv, State.freeBytes_nv, State.emitOut_nv]

@[simp] theorem State.bar2Store_nv (s : State) (a : Nat) (bs : List Byte) (ep : Bool) :
    (s.bar2Store a bs ep).nv = s.nv := by simp [State.bar2Store]

@[simp] theorem execBar2Write_nv (off : BitVec 36) (bytes : List Byte) (ep : Bool) (s : State) :
    (nextOr (execBar2Write off bytes ep s) s).nv = s.nv := by
  simp [execBar2Write, apply_ite State.nv]

@[simp] theorem State.smbServed_nv (s : State) (code : Nat) (st : BitVec 16) : (s.smbServed code st).nv = s.nv := by
  simp [State.smbServed]

@[simp] theorem State.smbPec_nv (s : State) (pec : Pec) (write : Bool) (f : State → State)
    (hf : ∀ s : State, (f s).nv = s.nv) : (s.smbPec pec write f).nv = s.nv := by
  unfold State.smbPec
  grind [State.inc_nv]

@[simp] theorem State.smbRead_nv (s : State) (code : Nat) (bs : List Byte) : (s.smbRead code bs).nv = s.nv := rfl

@[simp] theorem execGetStatus_nv (s : State) : (nextOr (execGetStatus s) s).nv = s.nv := rfl

@[simp] theorem execGetIdent_nv (s : State) : (nextOr (execGetIdent s) s).nv = s.nv := rfl

@[simp] theorem execGetThermal_nv (s : State) : (nextOr (execGetThermal s) s).nv = s.nv := rfl

@[simp] theorem execGetPower_nv (s : State) : (nextOr (execGetPower s) s).nv = s.nv := rfl

@[simp] theorem execGetLog_nv (slot : BitVec 16) (pec : Pec) (s : State) :
    (nextOr (execGetLog slot pec s) s).nv = s.nv := by simp [execGetLog, apply_ite State.nv]

@[simp] theorem execGetReset_nv (s : State) : (nextOr (execGetReset s) s).nv = s.nv := rfl

@[simp] theorem execSmbusTimeout_nv (s : State) : (nextOr (execSmbusTimeout s) s).nv = s.nv := rfl

@[simp] theorem execAlertResponse_nv (s : State) : (nextOr (execAlertResponse s) s).nv = s.nv := by
  unfold execAlertResponse
  split <;> simp

@[simp] theorem State.pmbXfers_nv (s : State) (n k : Nat) : (s.pmbXfers n k).nv = s.nv := by
  simp [State.pmbXfers]

@[simp] theorem State.trimDone_nv (s : State) (st : BitVec 16) : (s.trimDone st).nv = s.nv := by
  simp [State.trimDone]

@[simp] theorem State.pmbGiveUp_nv (s : State) : s.pmbGiveUp.nv = s.nv := by
  simp [State.pmbGiveUp]

@[simp] theorem State.railStale_nv (s : State) (n : Nat) : (s.railStale n).nv = s.nv := rfl

@[simp] theorem State.pollRail_nv (s : State) (r : RailReading) : (s.pollRail r).nv = s.nv := by
  grind [State.pollRail, State.setReg_nv, State.pmbXfers_nv, State.railStale_nv, State.pmbGiveUp_nv, State.trimDone_nv]

@[simp] theorem execPmbusPoll_nv (rs : List RailReading) (s : State) : (nextOr (execPmbusPoll rs s) s).nv = s.nv := by
  simp [execPmbusPoll, apply_ite State.nv, foldl_nv]

@[simp] theorem State.pmbTrim_nv (s : State) (v : Word32) : (s.pmbTrim v).nv = s.nv := by
  grind [State.pmbTrim, State.store_nv, State.setReg_nv, State.usedFree_nv, State.pmbXfers_nv, State.emitOut_nv]

@[simp] theorem execMgtPmbTrim_nv (r : Requester) (v : Word32) (s : State) :
    (nextOr (execMgtPmbTrim r v s) s).nv = s.nv := by simp [execMgtPmbTrim]

@[simp] theorem execPmbusArbLost_nv (trim : Bool) (rail : Fin 8) (retries : Fin 4) (s : State) :
    (nextOr (execPmbusArbLost trim rail retries s) s).nv = s.nv := by
  simp [execPmbusArbLost, apply_ite State.nv]

@[simp] theorem State.gpioResult_nv (s : State) (r : Requester) (n : Nat) (st : BitVec 16) :
    (s.gpioResult r n st).nv = s.nv := rfl

@[simp] theorem State.sagPinGone_nv (s : State) (n : Nat) : (s.sagPinGone n).nv = s.nv := by
  unfold State.sagPinGone
  split <;> simp

@[simp] theorem State.fatalPinGone_nv (s : State) (n : Nat) : (s.fatalPinGone n).nv = s.nv := by
  unfold State.fatalPinGone
  split <;> simp

@[simp] theorem State.gpioWrite_nv (s : State) (r : Requester) (n : Nat) (v : Word32) :
    (s.gpioWrite r n v).nv = s.nv := by
  grind [State.gpioWrite, State.setReg_nv, State.fatalPinGone_nv, State.sagPinGone_nv, State.raise_nv, State.inc_nv,
    State.gpioResult_nv, State.store_nv]

@[simp] theorem execGpioClaim_nv (r : Requester) (n : Fin 16) (v : Word32) (s : State) :
    (nextOr (execGpioClaim r n v s) s).nv = s.nv := by simp [execGpioClaim]

@[simp] theorem execGpioRelease_nv (r : Requester) (n : Fin 16) (s : State) :
    (nextOr (execGpioRelease r n s) s).nv = s.nv := by simp [execGpioRelease]

@[simp] theorem State.gpioOut_nv (s : State) (r : Requester) (v : Word32) : (s.gpioOut r v).nv = s.nv := by
  refine foldl_nv (fun s e => ?_) _ _
  grind [foldl_nv, State.setReg_nv]

@[simp] theorem execMgtGpioOut_nv (r : Requester) (v : Word32) (s : State) :
    (nextOr (execMgtGpioOut r v s) s).nv = s.nv := by simp [execMgtGpioOut]

@[simp] theorem execFatalOutRelease_nv (s : State) : (nextOr (execFatalOutRelease s) s).nv = s.nv := by
  unfold execFatalOutRelease
  split <;> simp

@[simp] theorem execJtagTestInstr_nv (code : Byte) (s : State) : (nextOr (execJtagTestInstr code s) s).nv = s.nv := by
  simp [execJtagTestInstr, apply_ite State.nv, foldl_nv]

@[simp] theorem execJtagTestExit_nv (code : Byte) (s : State) : (nextOr (execJtagTestExit code s) s).nv = s.nv := by
  simp [execJtagTestExit, apply_ite State.nv, foldl_nv]

/-! ### Collectives -/

@[simp] theorem State.clxRd_nv (s : State) (rn part : Nat) (rw : Bool) (a a5 a6 : Nat) :
    (s.clxRd rn part rw a a5 a6).2.nv = s.nv := by
  fun_induction State.clxRd <;> grind [State.recRead_nv]

@[simp] theorem State.clxRead_nv (s : State) (x tid off n : Nat) : (s.clxRead x tid off n).2.nv = s.nv := by
  grind [State.clxRead, State.clxRd_nv]

@[simp] theorem State.clxWr_nv (s : State) (rn part a a4 : Nat) (a5 : List (Byte × Bool)) :
    (s.clxWr rn part a a4 a5).nv = s.nv := by
  fun_induction State.clxWr <;> grind [State.recWrite_nv]

@[simp] theorem State.clxWrite_nv (s : State) (x tid off : Nat) (ps : List (Byte × Bool)) :
    (s.clxWrite x tid off ps).nv = s.nv := by
  grind [State.clxWrite, State.clxWr_nv]

@[simp] theorem State.readCounts_nv (s : State) (d : List Byte) (n : Nat) : (s.readCounts d n).2.nv = s.nv := by
  unfold State.readCounts
  split <;> simp

@[simp] theorem State.modColl_nv (s : State) (g : Fin 64) (cseq : Word32) (f : Coll → Coll) :
    (s.modColl g cseq f).nv = s.nv := rfl

@[simp] theorem State.readBlock_nv (s : State) (c : Coll) (dst : Bool) (b : Nat) :
    (s.readBlock c dst b).2.nv = s.nv := by simp [State.readBlock]

@[simp] theorem State.writeBlock_nv (s : State) (c : Coll) (dst : Bool) (b : Nat) (ps : List (Byte × Bool)) :
    (s.writeBlock c dst b ps).nv = s.nv := by
  grind [State.writeBlock, State.clxWrite_nv, State.modColl_nv]

@[simp] theorem State.takeCks_nv (s : State) (c : Coll) (a a3 : Nat) (a4 : List (Nat × Nat × Nat × Nat)) :
    (s.takeCks c a a3 a4).2.nv = s.nv := by
  fun_induction State.takeCks <;> grind [State.readBlock_nv]

/-! ### The course of collectives -/

@[simp] theorem State.clxSend_nv (s : State) (kind dest : Nat) (g : Fin 64) (rank : Nat) (cseq : Word32)
    (off : Nat) (payload : List Byte) (marks : List Bool) (tag final : Nat) :
    (s.clxSend kind dest g rank cseq off payload marks tag final).nv = s.nv := by
  simp [State.clxSend]

@[simp] theorem State.sendCollAbort_nv (s : State) (dest : BitVec 12) (g : Fin 64) (rank : Nat) (cseq : Word32)
    (st : BitVec 16) : (s.sendCollAbort dest g rank cseq st).nv = s.nv := by
  simp [State.sendCollAbort]

@[simp] theorem State.collReport_nv (s : State) (g : Fin 64) (cseq : Word32) (x : CtxId) (by_ : Poster)
    (st : BitVec 16) (rank present : Nat) : (s.collReport g cseq x by_ st rank present).nv = s.nv := by
  unfold State.collReport
  grind [State.inc_nv, State.raise_nv, State.setReg_nv, State.detect_nv, State.completeRunning_nv]

@[simp] theorem State.serveLate_nv (s : State) (c : Coll) (late : Nat) : (s.serveLate c late).nv = s.nv := by
  simp [State.serveLate, foldl_nv]

@[simp] theorem State.collEnd_nv (s : State) (c : Coll) (st : BitVec 16) (rank : Nat) :
    (s.collEnd c st rank).nv = s.nv := by
  have hserve := foldl_nv_of_eq fun s q t (ht : State.serveLate s c q = t) => ht ▸ State.serveLate_nv s c q
  unfold State.collEnd
  extract_lets _ _ _ u
  have hu : u.nv = s.nv := (State.collReport_nv ..).trans (State.modJob_nv ..)
  exact ite_nv ((hserve ..).trans hu) hu

@[simp] theorem State.relayAbort_nv (s : State) (g : Fin 64) (cseq : Word32) (st : BitVec 16) (rank : Nat)
    (but_ : Option (BitVec 12)) : (s.relayAbort g cseq st rank but_).nv = s.nv := by
  refine foldl_nv (fun s e => ?_) _ _
  grind [foldl_nv, State.sendCollAbort_nv]

@[simp] theorem State.collFail_nv (s : State) (c : Coll) (st : BitVec 16) (rank : Nat) :
    (s.collFail c st rank).nv = s.nv := by
  grind [State.collFail, State.collEnd_nv, State.relayAbort_nv, State.sendCollAbort_nv]

@[simp] theorem State.onCollAbort_nv (s : State) (m : Message) : (s.onCollAbort m).nv = s.nv := by
  grind [State.onCollAbort, State.collEnd_nv, State.relayAbort_nv]

@[simp] theorem State.sendRun_nv (s : State) (c : Coll) (peer off via relay a : Nat) (a7 : List (Byte × Bool)) :
    (s.sendRun c peer off via relay a a7).nv = s.nv := by
  fun_induction State.sendRun <;> grind [State.clxSend_nv]

@[simp] theorem State.sendTransfer_nv (s : State) (c : Coll) (peer off : Nat) (ps : List (Byte × Bool)) :
    (s.sendTransfer c peer off ps).nv = s.nv := by
  grind [State.sendTransfer, foldl_nv, State.sendRun_nv]

@[simp] theorem State.readBlocks_nv (s : State) (c : Coll) (dst : Bool) (a : List Nat) :
    (s.readBlocks c dst a).2.nv = s.nv := by
  fun_induction State.readBlocks <;> grind [State.readBlock_nv]

@[simp] theorem State.freeRun_nv (s : State) (w a : Nat) (a3 : List (Byte × Bool)) :
    (s.freeRun w a a3).2.nv = s.nv := by
  fun_induction State.freeRun <;> grind [State.usedFree_nv]

@[simp] theorem State.ownBlock_nv (s : State) (c : Coll) (b : Nat) : (s.ownBlock c b).2.nv = s.nv := by
  grind [State.ownBlock, State.readBlock_nv, State.inc_nv, State.modCounts_nv, State.detectOpen_nv, State.raise_nv,
    State.freeRun_nv, State.writeBlock_nv]

@[simp] theorem State.ownBlocks_nv (s : State) (c : Coll) (a : List Nat) : (s.ownBlocks c a).2.nv = s.nv := by
  fun_induction State.ownBlocks <;> grind [State.ownBlock_nv]

@[simp] theorem State.startStage_nv (s : State) (c : Coll) (st : CollStage) : (s.startStage c st).nv = s.nv := by
  grind [State.startStage, foldl_nv, State.ownBlocks_nv, State.collFail_nv,
    State.readBlocks_nv, State.inc_nv, State.modColl_nv, State.sendTransfer_nv]

@[simp] theorem State.takeBlocks_nv (s : State) (c : Coll) (e : Exch) (a : List Nat) (a4 : List (Byte × Bool)) :
    (s.takeBlocks c e a a4).nv = s.nv := by
  fun_induction State.takeBlocks <;> grind [State.readBlock_nv, State.writeBlock_nv]

@[simp] theorem State.endStage_nv (s : State) (c : Coll) (st : CollStage) : (s.endStage c st).nv = s.nv := by
  refine foldl_nv (fun s e => ?_) _ _
  grind [foldl_nv, State.takeBlocks_nv, State.modColl_nv]

@[simp] theorem State.startData_nv (s : State) (c : Coll) : (s.startData c).nv = s.nv := by
  grind [State.startData, State.inc_nv, State.modJob_nv, State.takeCks_nv, State.modColl_nv, State.readBlock_nv,
    State.writeBlock_nv]

theorem State.collTurn_nv {s t : State} (ht : s.collTurn = some t) : t.nv = s.nv := by
  unfold State.collTurn at ht
  split at ht
  · next hfound =>
    obtain ⟨c, -, hc⟩ := List.exists_of_findSome?_eq_some hfound
    grind [State.collEnd_nv, State.startStage_nv, State.endStage_nv]
  · grind [State.startData_nv, Option.map_eq_some_iff]

@[simp] theorem State.goAt_nv (s : State) (g : Fin 64) (cseq : Word32) (present rcounts : List Nat) :
    (s.goAt g cseq present rcounts).nv = s.nv := by
  grind [State.goAt, State.modColl_nv, State.inc_nv]

@[simp] theorem State.decideRound_nv (s : State) (r : Round) : (s.decideRound r).nv = s.nv := by
  grind [State.decideRound, foldl_nv, State.collEnd_nv, State.relayAbort_nv, State.goAt_nv,
    State.clxSend_nv]

theorem State.roundTurn_nv (s : State) {t} (ht : (s.roundTurn) = some t) : t.nv = s.nv := by
  grind [State.roundTurn, State.decideRound_nv]

@[simp] theorem State.clxRun_nv (a : Nat) (a1 : State) : (State.clxRun a a1).nv = a1.nv := by
  fun_induction State.clxRun <;> grind [State.collTurn_nv, State.roundTurn_nv]

@[simp] theorem State.clxGo_nv (s : State) : s.clxGo.nv = s.nv := by simp [State.clxGo]

@[simp] theorem State.lateGo_nv (s : State) (g : Fin 64) (cseq : Word32) (server late present : Nat)
    {take serve : State → State} (htake : ∀ s, (take s).nv = s.nv) (hserve : ∀ s, (serve s).nv = s.nv) :
    (s.lateGo g cseq server late present take serve).nv = s.nv := by
  simp [State.lateGo, apply_ite State.nv, htake, hserve]

@[simp] theorem State.takeLate_nv (s : State) (g : Fin 64) (cseq : Word32) (server present : Nat) :
    (s.takeLate g cseq server present).nv = s.nv := rfl

@[simp] theorem State.serveGo_nv (s : State) (g : Fin 64) (cseq : Word32) (late : Nat) :
    (s.serveGo g cseq late).nv = s.nv := by
  grind [State.serveGo, State.modColl_nv, State.serveLate_nv]

@[simp] theorem State.abortRank_nv (s : State) (g : Fin 64) (cseq : Word32) (q : Nat) (st : BitVec 16)
    (named : Nat) : (s.abortRank g cseq q st named).nv = s.nv := by
  grind [State.abortRank, State.collEnd_nv, State.sendCollAbort_nv]

@[simp] theorem State.arriveAt_nv (s : State) (g : Fin 64) (cseq : Word32) (a : Arrival) :
    (s.arriveAt g cseq a).nv = s.nv := by
  have hlate (u : State) (server present : Nat) : (u.lateGo g cseq server a.rank present
      (fun s => s.takeLate g cseq server present) (fun s => s.serveGo g cseq a.rank)).nv = u.nv :=
    State.lateGo_nv _ _ _ _ _ _ (by simp) (by simp)
  unfold State.arriveAt
  grind [State.abortRank_nv]

@[simp] theorem State.loseRank_nv (s : State) (g : Fin 64) (cseq : Word32) (q : Nat) :
    (s.loseRank g cseq q).nv = s.nv := by
  grind [State.loseRank, State.setReg_nv, State.abortRank_nv]

@[simp] theorem State.collWatch_nv (s : State) (g : Fin 64) (cseq : Word32) : (s.collWatch g cseq).nv = s.nv := by
  have hlose := foldl_nv_of_eq fun s q t (ht : State.loseRank s g cseq q = t) => ht ▸ State.loseRank_nv s g cseq q
  unfold State.collWatch
  split
  · rfl
  · refine ite_nv rfl (ite_nv ((State.clxGo_nv ..).trans (hlose ..)) ?_)
    refine (State.clxGo_nv ..).trans ((State.relayAbort_nv ..).trans ?_)
    split
    · exact State.collEnd_nv ..
    · rfl

@[simp] theorem State.sendArrive_nv (s : State) (c : Coll) (st : BitVec 16) : (s.sendArrive c st).nv = s.nv := by
  grind [State.sendArrive, State.arriveAt_nv, State.clxSend_nv]

@[simp] theorem State.postColl_nv (s : State) (d : List Byte) (mode deadline : Nat) (by_ : Poster) :
    (s.postColl d mode deadline by_).nv = s.nv := by
  grind [State.postColl, State.collReport_nv, State.readCounts_nv, State.clxGo_nv, State.sendArrive_nv]

@[simp] theorem execCollective_nv (q : Fin 64) (s : State) : (nextOr (execCollective q s) s).nv = s.nv := by
  unfold execCollective
  repeat' split
  all_goals simp

@[simp] theorem State.onArrive_nv (s : State) (m : Message) : (s.onArrive m).nv = s.nv := by
  unfold State.onArrive
  split <;> simp

@[simp] theorem execArrive_nv (m : Message) (s : State) : (nextOr (execArrive m s) s).nv = s.nv := by
  simp [execArrive]

@[simp] theorem State.onGo_nv (s : State) (m : Message) : (s.onGo m).nv = s.nv := by
  unfold State.onGo
  split <;> simp

@[simp] theorem execGo_nv (m : Message) (s : State) : (nextOr (execGo m s) s).nv = s.nv := by
  simp [execGo]

theorem State.takePiece_nv {s t : State} {m : Message} (ht : s.takePiece m = some t) : t.nv = s.nv := by
  unfold State.takePiece at ht
  split at ht
  · cases ht
  split at ht
  · cases ht
  split at ht
  · extract_lets peer off at ht
    split at ht
    · cases ht
    · extract_lets lo u at ht
      obtain ⟨-, h⟩ := Option.ite_none_right_eq_some.1 ht
      rw [← Option.some.inj h]
      exact (State.modColl_nv ..).trans (State.inc_nv ..)
  · cases ht

@[simp] theorem State.takePieces_nv (s : State) (m : Message) : (s.takePieces m).after.nv = s.nv := by
  grind [State.takePieces, Taken.after, State.takePiece_nv, State.clxGo_nv]

@[simp] theorem execCollData_nv (m : Message) (s : State) : (nextOr (execCollData m s) s).nv = s.nv := by
  simp [execCollData]

@[simp] theorem State.onStripe_nv (s : State) (m : Message) : (s.onStripe m).after.nv = s.nv := by
  grind [State.onStripe, Taken.after, State.takePieces_nv, State.sendMsg_nv, State.inc_nv]

@[simp] theorem execRelayStripe_nv (m : Message) (s : State) : (nextOr (execRelayStripe m s) s).nv = s.nv := by
  simp [execRelayStripe]

@[simp] theorem State.onLateGo_nv (s : State) (m : Message) : (s.onLateGo m).nv = s.nv := by
  grind [State.onLateGo, State.clxGo_nv, State.takeLate_nv, State.serveGo_nv]

@[simp] theorem execLateGo_nv (m : Message) (s : State) : (nextOr (execLateGo m s) s).nv = s.nv := by
  simp [execLateGo]

@[simp] theorem execCollLocalTimeout_nv (g : Fin 64) (cseq : Word32) (s : State) :
    (nextOr (execCollLocalTimeout g cseq s) s).nv = s.nv := by
  unfold execCollLocalTimeout
  repeat' split
  all_goals simp

@[simp] theorem execStragglerDeadline_nv (g : Fin 64) (cseq : Word32) (s : State) :
    (nextOr (execStragglerDeadline g cseq s) s).nv = s.nv := by
  grind [execStragglerDeadline, nextOr_ok, State.engineEvent_nv, State.clxGo_nv]

@[simp] theorem State.clxUndelivered_nv (s : State) (m : Message) (st : BitVec 16) :
    (s.clxUndelivered m st).nv = s.nv := by
  grind [State.clxUndelivered, State.clxGo_nv, State.collEnd_nv, State.collFail_nv]

@[simp] theorem State.collAbortAll_nv (s : State) (p : Coll → Bool) : (s.collAbortAll p).nv = s.nv := by
  simp [State.collAbortAll, foldl_nv]

@[simp] theorem State.groupRewrite_nv (s : State) (n : Fin 64) (v : Word32) : (s.groupRewrite n v).nv = s.nv := by
  simp [State.groupRewrite]

@[simp] theorem execClxGroupRewrite_nv (r : Requester) (n : Fin 64) (v : Word32) (s : State) :
    (nextOr (execClxGroupRewrite r n v s) s).nv = s.nv := by simp [execClxGroupRewrite]

@[simp] theorem State.groupForget_nv (s : State) (g : Fin 64) : (s.groupForget g).nv = s.nv := rfl

/-! ### Kitty records and rings -/

@[simp] theorem State.kitTake_nv (s : State) (n : Nat) (bs : List Byte) (po : List Bool) :
    (s.kitTake n bs po).2.nv = s.nv := by
  grind [State.kitTake, foldl_nv, State.raise_nv, State.inc_nv, State.recWrite_nv,
    State.setReg64_nv]

@[simp] theorem State.readHistory_nv (s : State) (x tid a a4 : Nat) (a5 : List Byte) (a6 : List Bool) :
    (s.readHistory x tid a a4 a5 a6).2.2.nv = s.nv := by
  fun_induction State.readHistory <;> grind [State.engRead_nv]

@[simp] theorem State.buildRec_nv (s : State) (r : KRec) (e : Episode) : (s.buildRec r e).2.2.nv = s.nv := by
  simp [State.buildRec]

@[simp] theorem State.recOutcome_nv (s : State) (num : Nat) (st : BitVec 16) : (s.recOutcome num st).nv = s.nv := by
  grind [State.recOutcome, State.inc_nv, State.freeEpisode_nv, State.modEpisode_nv]

@[simp] theorem State.sendRec_nv (s : State) (r : KRec) : (s.sendRec r).nv = s.nv := by
  grind [State.sendRec, State.buildRec_nv, State.kitTake_nv, State.recOutcome_nv, State.sendMsg_nv]

@[simp] theorem execKittyRecordSend_nv (s : State) : (nextOr (execKittyRecordSend s) s).nv = s.nv := by
  unfold execKittyRecordSend
  repeat' split
  all_goals simp

@[simp] theorem execKittyResend_nv (id : Nat) (s : State) : (nextOr (execKittyResend id s) s).nv = s.nv := by
  unfold execKittyResend
  split <;> simp

@[simp] theorem execKittyRecordRx_nv (o) (s : State) : (nextOr (execKittyRecordRx o s) s).nv = s.nv := by
  simp [execKittyRecordRx, apply_ite Taken.after]

@[simp] theorem execKitRingnTail_nv (r : Requester) (n : Fin 16) (hi : Bool) (v : Word32) (s : State) :
    (nextOr (execKitRingnTail r n hi v s) s).nv = s.nv := by
  grind [execKitRingnTail, nextOr_ok, State.write_nv, State.ackWrite_nv, State.inc_nv]

/-! ### Learner jobs -/

@[simp] theorem State.modTrn_nv (s : State) (j : Nat) (f : TrnJob → TrnJob) : (s.modTrn j f).nv = s.nv := rfl

@[simp] theorem State.modBucket_nv (s : State) (j b : Nat) (f : Bucket → Bucket) : (s.modBucket j b f).nv = s.nv := rfl

@[simp] theorem State.trnStatus_nv (s : State) (j : Nat) (st : BitVec 16) : (s.trnStatus j st).nv = s.nv := rfl

@[simp] theorem State.trnEnable_nv (s : State) (j : Fin 8) (w : Word32) : (s.trnEnable j w).nv = s.nv := by
  grind [State.trnEnable, State.modTrn_nv, State.setReg_nv, State.trnStatus_nv, State.setReg64_nv]

@[simp] theorem execTrnJobEnable_nv (r : Requester) (j : Fin 8) (v : Word32) (s : State) :
    (nextOr (execTrnJobEnable r j v s) s).nv = s.nv := by simp [execTrnJobEnable]

@[simp] theorem State.windowFrom_nv (s : State) (rn size head mx a a6 a7 a8 : Nat) :
    (s.windowFrom rn size head mx a a6 a7 a8).2.nv = s.nv := by
  fun_induction State.windowFrom <;> grind [State.recRead_nv]

@[simp] theorem State.kitWindow_nv (s : State) (j : Nat) : (s.kitWindow j).2.nv = s.nv := by
  grind [State.kitWindow, State.windowFrom_nv]

@[simp] theorem State.kitAdvance_nv (s : State) (j : Nat) : (s.kitAdvance j).nv = s.nv := by
  grind [State.kitAdvance, State.inc_nv, State.setReg64_nv]

@[simp] theorem State.ckptCopy_nv (s : State) (x rn : Nat) (a : List (Nat × Nat)) (a4 : Nat) :
    (s.ckptCopy x rn a a4).nv = s.nv := by
  fun_induction State.ckptCopy <;> grind [State.clxRead_nv, State.clxWr_nv]

@[simp] theorem State.closeTrnStep_nv (s : State) (j : Nat) : (s.closeTrnStep j).nv = s.nv := by
  grind [State.closeTrnStep, State.kitAdvance_nv, State.raise_nv, State.inc_nv, State.setReg64_nv, State.modTrn_nv,
    State.ckptCopy_nv]

@[simp] theorem State.closePhase_nv (s : State) (j : Nat) : (s.closePhase j).nv = s.nv := by
  grind [State.closePhase, State.modTrn_nv, State.closeTrnStep_nv]

@[simp] theorem State.trnSettle_nv (s : State) (j : Nat) : (s.trnSettle j).nv = s.nv := by
  grind [State.trnSettle, State.closePhase_nv, State.modTrn_nv]

@[simp] theorem State.haltJob_nv (s : State) (j : Nat) (st : BitVec 16) : (s.haltJob j st).nv = s.nv := by
  simp [State.haltJob]

@[simp] theorem execCheckpointDone_nv (j : Fin 8) (s : State) : (nextOr (execCheckpointDone j s) s).nv = s.nv := by
  unfold execCheckpointDone
  split <;> simp

@[simp] theorem State.presentPhase_nv (s : State) (j : Fin 8) (ph : PhaseKind × Nat) :
    (s.presentPhase j ph).nv = s.nv := by simp [State.presentPhase]

@[simp] theorem State.phaseArrive_nv (s : State) (j : Fin 8) : (s.phaseArrive j).nv = s.nv := by
  unfold State.phaseArrive
  extract_lets t ph inOpt close u t'
  have hu : u.nv = s.nv := ite_nv (State.closePhase_nv ..) rfl
  clear_value u ph
  cases ph with
  | none => rfl
  | some ph =>
    refine ite_nv (ite_nv (State.presentPhase_nv ..) rfl) (ite_nv (State.presentPhase_nv ..) ?_)
    refine ite_nv hu (ite_nv ((State.presentPhase_nv ..).trans ((State.modTrn_nv ..).trans hu)) ?_)
    grind [State.presentPhase_nv, State.modTrn_nv, State.kitWindow_nv, State.inc_nv]

@[simp] theorem execTrnPhaseArrive_nv (j : Fin 8) (s : State) : (nextOr (execTrnPhaseArrive j s) s).nv = s.nv := by
  simp [execTrnPhaseArrive, apply_ite State.nv]

@[simp] theorem State.phaseTurn_nv (s : State) (j : Fin 8) : (s.phaseTurn j).nv = s.nv := by
  grind [State.phaseTurn, State.closePhase_nv, State.trnSettle_nv, State.modTrn_nv]

@[simp] theorem State.trnEntry_nv (s : State) (j : Nat) : (s.trnEntry j).2.nv = s.nv := by
  simp [State.trnEntry]

@[simp] theorem State.trnPass_nv (s : State) (j : Nat) : (s.trnPass j).nv = s.nv := rfl

@[simp] theorem State.trnEffect_nv (s : State) (j : Fin 8) (e : List Byte) : (s.trnEffect j e).nv = s.nv := by
  grind [State.trnEffect, State.trnPass_nv, State.modTrn_nv, State.modBucket_nv, State.closeTrnStep_nv]

@[simp] theorem State.trnTake_nv (s : State) (j : Fin 8) (op : Nat) : (s.trnTake j op).nv = s.nv := by
  grind [State.trnTake, State.trnEntry_nv, State.haltJob_nv, State.trnEffect_nv]

@[simp] theorem execFwd_nv (j : Fin 8) (s : State) : (nextOr (execFwd j s) s).nv = s.nv := by
  simp [execFwd]

@[simp] theorem execBwd_nv (j : Fin 8) (s : State) : (nextOr (execBwd j s) s).nv = s.nv := by
  simp [execBwd]

@[simp] theorem execOpt_nv (j : Fin 8) (s : State) : (nextOr (execOpt j s) s).nv = s.nv := by
  simp [execOpt]

@[simp] theorem execPost_nv (j : Fin 8) (s : State) : (nextOr (execPost j s) s).nv = s.nv := by
  simp [execPost]

@[simp] theorem execStepEnd_nv (j : Fin 8) (s : State) : (nextOr (execStepEnd j s) s).nv = s.nv := by
  simp [execStepEnd]

@[simp] theorem execTrnCqHead_nv (r : Requester) (j : Fin 8) (v : Word32) (s : State) :
    (nextOr (execTrnCqHead r j v s) s).nv = s.nv := by simp [execTrnCqHead]

@[simp] theorem State.postBucket_nv (s : State) (j : Fin 8) (b : Fin 62) : (s.postBucket j b).nv = s.nv := by
  grind [State.postBucket, State.inc_nv, State.setReg_nv, State.modBucket_nv, State.wakeDom_nv, State.postColl_nv]

@[simp] theorem State.bucketTurn_nv (s : State) (j : Fin 8) (bar : Nat) : (s.bucketTurn j bar).nv = s.nv := by
  refine foldl_nv (fun s e => ?_) _ _
  grind [foldl_nv, State.modBucket_nv, State.postBucket_nv]

@[simp] theorem State.bucketLate_nv (s : State) (j b : Nat) (e : List Byte) : (s.bucketLate j b e).nv = s.nv := by
  unfold State.bucketLate
  split <;> simp

@[simp] theorem execBucketComplete_nv (j : Fin 8) (b : Fin 62) (s : State) :
    (nextOr (execBucketComplete j b s) s).nv = s.nv := by
  grind [execBucketComplete, nextOr_ok, State.bucketLate_nv, State.modBucket_nv, State.podCheck_nv, State.haltJob_nv]

@[simp] theorem State.trnDone_nv (s : State) (st : BitVec 16) : (s.trnDone st).nv = s.nv := by
  grind [State.trnDone, State.setReg_nv]

@[simp] theorem State.trnGo_nv (s : State) (v : Word32) (f : State → Fin 8 → State)
    (hf : ∀ (v0 : State) (v1 : Fin 8), (f v0 v1).nv = v0.nv) : (s.trnGo v f).nv = s.nv := by
  grind [State.trnGo, State.openStatus_nv, State.trnDone_nv]

@[simp] theorem State.trnHaltCmd_nv (s : State) (j : Fin 8) : (s.trnHaltCmd j).nv = s.nv := by
  simp [State.trnHaltCmd]

@[simp] theorem execTrnHalt_nv (r : Requester) (v : Word32) (s : State) :
    (nextOr (execTrnHalt r v s) s).nv = s.nv := by simp [execTrnHalt]

@[simp] theorem State.ckptBack_nv (s : State) (x rn : Nat) (a : List (Nat × Nat)) (a4 : Nat) :
    (s.ckptBack x rn a a4).nv = s.nv := by
  fun_induction State.ckptBack <;> grind [State.clxRd_nv, State.clxWrite_nv]

@[simp] theorem State.trnRestore_nv (s : State) (j : Fin 8) : (s.trnRestore j).nv = s.nv := by
  grind [State.trnRestore, foldl_nv, State.trnDone_nv, State.recRead_nv, State.hashed_nv,
    State.ckptBack_nv, State.setReg64_nv, State.inc_nv, State.setReg_nv, State.groupForget_nv, State.modTrn_nv]

@[simp] theorem execRestore_nv (r : Requester) (v : Word32) (s : State) :
    (nextOr (execRestore r v s) s).nv = s.nv := by simp [execRestore]

@[simp] theorem State.trnResume_nv (s : State) (j : Fin 8) : (s.trnResume j).nv = s.nv := by
  unfold State.trnResume
  split <;> simp

@[simp] theorem execResume_nv (r : Requester) (v : Word32) (s : State) : (nextOr (execResume r v s) s).nv = s.nv := by
  simp [execResume]

@[simp] theorem State.trnCmd_nv (s : State) (v : Word32) : (s.trnCmd v).nv = s.nv := by
  grind [State.trnCmd, State.trnGo_nv, State.trnHaltCmd_nv, State.trnRestore_nv, State.trnResume_nv,
    State.openStatus_nv, State.trnDone_nv]

@[simp] theorem State.trnCtxEnd_nv (s : State) (x : CtxId) : (s.trnCtxEnd x).nv = s.nv := by
  refine foldl_nv (fun s e => ?_) _ _
  grind [foldl_nv, State.modTrn_nv, State.setReg_nv]

end Sys2Proof.Machine
end

section
/-! PROOF. The NV storage stands: contexts, fabric messages, sleep, registers, boot, and one AON cycle. -/

namespace Sys2Proof.Machine

/-! ### Arrivals and completions of barriers -/

@[simp] theorem execBarArrival_nv (c : CoreId) (s : State) : (nextOr (execBarArrival c s) s).nv = s.nv := by
  grind [execBarArrival, nextOr_ok, foldl_nv, State.coreArrive_nv, State.modCore_nv,
    State.trnSettle_nv]

@[simp] theorem State.barHooks_nv (s : State) (x : CtxId) (b : Nat) : (s.barHooks x b).nv = s.nv := by
  grind [State.barHooks, foldl_nv, State.stepTurn_nv, State.phaseTurn_nv,
    State.bucketTurn_nv, State.modAnl_nv, State.anlOwed_nv]

@[simp] theorem State.barDone_nv (s : State) (x : CtxId) (b : Nat) : (s.barDone x b).nv = s.nv := by
  grind [State.barDone, foldl_nv, State.barTell_nv, State.modBar_nv, State.emitOut_nv,
    State.barHooks_nv]

@[simp] theorem State.barWake_nv (s : State) (c : CoreId) (x : CtxId) (b waited : Nat) :
    (s.barWake c x b waited).nv = s.nv := by
  grind [State.barWake, State.inc_nv, State.endWait_nv]

@[simp] theorem execBarComplete_nv (x : CtxId) (b : Fin 64) (waits : List (CoreId × Nat)) (s : State) :
    (nextOr (execBarComplete x b waits s) s).nv = s.nv := by
  simp [execBarComplete, foldl_nv]

@[simp] theorem execBarArrive_nv (o) (s : State) : (nextOr (execBarArrive o s) s).nv = s.nv := by
  simp [execBarArrive]

@[simp] theorem execBarRelease_nv (o) (s : State) : (nextOr (execBarRelease o s) s).nv = s.nv := by
  simp [execBarRelease]

/-! ### Contexts -/

@[simp] theorem State.ctxCfg_nv (s : State) (x : CtxId) (v : Word32) : (s.ctxCfg x v).nv = s.nv := by
  grind [State.ctxCfg, State.setReg_nv, State.store_nv, State.modCtx_nv]

@[simp] theorem execCtxValidSet_nv (r : Requester) (x : CtxId) (v : Word32) (s : State) :
    (nextOr (execCtxValidSet r x v s) s).nv = s.nv := by simp [execCtxValidSet]

@[simp] theorem State.beginProgram_nv (s : State) (x : CtxId) (q : Fin 64) (cid : Word64) (im : Image)
    (binds : List Binding) : (s.beginProgram x q cid im binds).nv = s.nv := by
  grind [State.beginProgram, foldl_nv, State.setReg_nv, State.modCtx_nv, State.modCore_nv,
    State.roleDigest_nv, State.modJob_nv, State.wakeSet_nv, State.newInterval_nv]

@[simp] theorem State.devkeyOk_nv (s : State) : (s.devkeyOk).2.nv = s.nv := by
  unfold State.devkeyOk
  split <;> simp

@[simp] theorem State.loadImage_nv (s : State) (x : CtxId) (q : Fin 64) (cid : Word64) (addr : Nat) :
    (s.loadImage x q cid addr).2.nv = s.nv := by
  grind [State.loadImage, State.devkeyOk_nv, State.devRead_nv, State.inc_nv, State.hashed_nv, State.beginProgram_nv]

@[simp] theorem execLoad_nv (q : Fin 64) (s : State) : (nextOr (execLoad q s) s).nv = s.nv := by
  grind [execLoad, nextOr_ok, State.beginEntry_nv, State.completeRunning_nv, State.loadImage_nv]

@[simp] theorem State.ctxKill_nv (s : State) (x : CtxId) : (s.ctxKill x).nv = s.nv := by
  unfold State.ctxKill
  split <;> simp

@[simp] theorem execKill_nv (r : Requester) (x : CtxId) (s : State) : (nextOr (execKill r x s) s).nv = s.nv := by
  simp [execKill]

@[simp] theorem State.endEffects_nv (s : State) (x : CtxId) (st : BitVec 16) : (s.endEffects x st).nv = s.nv := by
  grind [State.endEffects, foldl_nv, State.modCtx_nv, State.abortChans_nv,
    State.breakLocksOf_nv, State.cancelSend_nv, State.barsEnd_nv, State.collAbortAll_nv, State.trnCtxEnd_nv,
    State.anlCtxEnd_nv, State.epsCtxEnd_nv]

@[simp] theorem State.zeroCore_nv (s : State) (x : CtxId) (p : Place) : (s.zeroCore x p).nv = s.nv := rfl

@[simp] theorem State.dropRetries_nv (s : State) (x : CtxId) : (s.dropRetries x).nv = s.nv := rfl

@[simp] theorem State.endProgram_nv (s : State) (x : CtxId) (st : BitVec 16) : (s.endProgram x st).nv = s.nv := by
  grind [State.endProgram, foldl_nv, State.sealFinal_nv, State.endEffects_nv,
    State.zeroCore_nv, State.dropRetries_nv, State.modCtx_nv, State.completeRunning_nv]

@[simp] theorem execProgramEnd_nv (x : CtxId) (s : State) : (nextOr (execProgramEnd x s) s).nv = s.nv := by
  unfold execProgramEnd
  split <;> simp

@[simp] theorem State.resumeCore_nv (s : State) (x : CtxId) (c : CoreId) : (s.resumeCore x c).nv = s.nv := by
  grind [State.resumeCore, State.modLock_nv, State.reissue_nv, State.modCore_nv]

@[simp] theorem State.dispatchNow_nv (s : State) (x : CtxId) : (s.dispatchNow x).nv = s.nv := by
  simp [State.dispatchNow, foldl_nv]

@[simp] theorem State.tryDispatch_nv (s : State) (x : CtxId) : (s.tryDispatch x).nv = s.nv := by
  grind [State.tryDispatch, State.dispatchNow_nv, State.wakeSet_nv]

@[simp] theorem execDispatch_nv (x : CtxId) (s : State) : (nextOr (execDispatch x s) s).nv = s.nv := by
  simp [execDispatch]

@[simp] theorem State.askPreempt_nv (s : State) (v c : CtxId) : (s.askPreempt v c).nv = s.nv := rfl

@[simp] theorem execQuantumExpiry_nv (v c : CtxId) (s : State) : (nextOr (execQuantumExpiry v c s) s).nv = s.nv := by
  simp [execQuantumExpiry, apply_ite State.nv]

@[simp] theorem execPreemptRequest_nv (v c : CtxId) (s : State) : (nextOr (execPreemptRequest v c s) s).nv = s.nv := by
  unfold execPreemptRequest
  split <;> simp

@[simp] theorem State.parkNow_nv (s : State) (c : CoreId) : (s.parkNow c).nv = s.nv := rfl

@[simp] theorem State.park_nv (s : State) (x : CtxId) (c : CoreId) : (s.park x c).nv = s.nv := by
  have hnow : (s.parkNow c).nv = s.nv := State.parkNow_nv ..
  unfold State.park
  extract_lets k
  generalize k.th.wait = w
  clear_value k
  refine ite_nv rfl ?_
  cases w with
  | none => rfl
  | some w =>
    cases w with
    | fabSend _ _ _ done _ => cases done with
      | none => rfl
      | some _ => exact hnow
    | yield => exact (State.parkNow_nv ..).trans (State.inc_nv ..)
    | lock _ _ _ queued => cases queued with
      | true => exact (State.parkNow_nv ..).trans ((State.modCore_nv ..).trans (State.modLock_nv ..))
      | false => exact hnow
    | _ => exact hnow

@[simp] theorem execCorePark_nv (c : CoreId) (s : State) : (nextOr (execCorePark c s) s).nv = s.nv := by
  unfold execCorePark
  repeat' split
  all_goals simp

@[simp] theorem State.cancelPark_nv (s : State) (x : CtxId) (c : CoreId) : (s.cancelPark x c).2.nv = s.nv := by
  grind [State.cancelPark, State.inc_nv, State.cancelSend_nv, State.modCore_nv, State.parkNow_nv]

@[simp] theorem execPreemptDeadline_nv (x : CtxId) (s : State) : (nextOr (execPreemptDeadline x s) s).nv = s.nv := by
  grind [execPreemptDeadline, nextOr_ok, foldl_snd_nv, State.modCtx_nv, State.cancelPark_nv,
    State.inc_nv, State.raise_nv]

@[simp] theorem execContextSwitch_nv (x : CtxId) (sclk : BitVec 31) (s : State) :
    (nextOr (execContextSwitch x sclk s) s).nv = s.nv := by
  grind [execContextSwitch, nextOr_ok, foldl_nv, State.modCore_nv, State.modCtx_nv,
    State.inc_nv, State.setReg_nv, State.tryDispatch_nv]

@[simp] theorem State.account_nv (s : State) (x : CtxId) : (s.account x).nv = s.nv := by
  grind [State.account, State.modCtx_nv, State.inc_nv, State.setReg_nv, State.raise_nv]

@[simp] theorem execAcctWindowEnd_nv (s : State) : (nextOr (execAcctWindowEnd s) s).nv = s.nv := by
  simp [execAcctWindowEnd, apply_ite State.nv, foldl_nv]

@[simp] theorem State.schMode_nv (s : State) (v : Word32) : (s.schMode v).nv = s.nv := by
  grind [State.schMode, foldl_nv, State.store_nv, State.modJob_nv]

/-! ### Temperature -/

@[simp] theorem State.setStage_nv (s : State) (n : Nat) : (s.setStage n).nv = s.nv := by
  unfold State.setStage
  split <;> simp

@[simp] theorem State.trip_nv (s : State) (hot : Bool) : (s.trip hot).nv = s.nv := by
  grind [State.trip, State.emitOut_nv]

@[simp] theorem execTjSample_nv (t : Nat) (s : State) : (nextOr (execTjSample t s) s).nv = s.nv := by
  simp [execTjSample, apply_ite State.nv]

@[simp] theorem execThrottleStage2Enter_nv (s : State) : (nextOr (execThrottleStage2Enter s) s).nv = s.nv := by
  unfold execThrottleStage2Enter
  split <;> simp

@[simp] theorem execThrottleStageExit_nv (s : State) : (nextOr (execThrottleStageExit s) s).nv = s.nv := by
  simp [execThrottleStageExit, apply_ite State.nv]

/-! ### Fabric messages -/

@[simp] theorem execFabSend_nv (o : YOp) (s : State) : (nextOr (execFabSend o s) s).nv = s.nv := by
  refine nextOr_issue_nv fun s x k => ?_
  repeat' split
  all_goals simp

@[simp] theorem execFabRecv_nv (o : YOp) (s : State) : (nextOr (execFabRecv o s) s).nv = s.nv := by
  refine nextOr_issue_nv fun s x k => ?_
  repeat' split
  all_goals simp

@[simp] theorem execFabSendComplete_nv (c : CoreId) (waited : Nat) (s : State) :
    (nextOr (execFabSendComplete c waited s) s).nv = s.nv := by
  unfold execFabSendComplete
  repeat' split
  all_goals simp

@[simp] theorem execFabRecvComplete_nv (c : CoreId) (waited : Nat) (s : State) :
    (nextOr (execFabRecvComplete c waited s) s).nv = s.nv := by
  unfold execFabRecvComplete
  repeat' split
  all_goals simp

@[simp] theorem State.tellSender_nv (s : State) (h : Held) (st : BitVec 16) : (s.tellSender h st).nv = s.nv := by
  grind [State.tellSender, State.recOutcome_nv, State.clxGo_nv, State.clxUndelivered_nv]

@[simp] theorem State.tacked_nv (s : State) (m : Message) : (s.tacked m).nv = s.nv := by
  grind [State.tacked, State.onTack_nv, State.tellSender_nv, State.complete_nv]

@[simp] theorem execTack_nv (m : Message) (s : State) : (nextOr (execTack m s) s).nv = s.nv := by
  simp [execTack]

@[simp] theorem State.heldTimeout_nv (s t : State) (dest : BitVec 12) (mseq : BitVec 48) (st : BitVec 16) :
    (s.heldTimeout t dest mseq st).nv = t.nv := by
  unfold State.heldTimeout
  split <;> simp

@[simp] theorem execResendTimeout_nv (dest : BitVec 12) (mseq : BitVec 48) (s : State) :
    (nextOr (execResendTimeout dest mseq s) s).nv = s.nv := by simp [execResendTimeout]

@[simp] theorem execSendTmoExpiry_nv (dest : BitVec 12) (mseq : BitVec 48) (s : State) :
    (nextOr (execSendTmoExpiry dest mseq s) s).nv = s.nv := by simp [execSendTmoExpiry]

@[simp] theorem execProgressWatchdog_nv (isColl : Bool) (gid : BitVec 16) (seqOrBar : Word32) (s : State) :
    (nextOr (execProgressWatchdog isColl gid seqOrBar s) s).nv = s.nv := by
  unfold execProgressWatchdog
  repeat' split
  all_goals simp

@[simp] theorem State.opAborted_nv (s : State) (m : Message) : (s.opAborted m).nv = s.nv := by
  grind [State.opAborted, State.clxGo_nv, State.onCollAbort_nv, State.onBarAbort_nv]

@[simp] theorem execOpAbort_nv (m : Message) (s : State) : (nextOr (execOpAbort m s) s).nv = s.nv := by
  simp [execOpAbort]

@[simp] theorem State.deliver_nv (s : State) (m : Message) : (s.deliver m).nv = s.nv := by
  grind [State.deliver, State.tacked_nv, nextOr_nv, execCancel_nv, execBarArrive_nv, execBarRelease_nv,
    State.opAborted_nv, execArrive_nv, execGo_nv, execCollData_nv, execRelayStripe_nv, execLateGo_nv, execManifest_nv,
    execChunk_nv, execPubEnd_nv, execRestreamReq_nv, execReady_nv, execHold_nv, execRestreamRefuse_nv, execWithdraw_nv,
    execKittyRecordRx_nv, execBoundary_nv, execStepOpenRx_nv, execStepDone_nv, execCommit_nv, execHusk_nv,
    execHuskDone_nv, State.engineTakeE_nv, State.windowedE_nv, State.takeData_nv]

@[simp] theorem execMsgRx_nv (m : Message) (s : State) : (nextOr (execMsgRx m s) s).nv = s.nv := by
  simp [execMsgRx]

@[simp] theorem State.serveDeferred_nv (s : State) (d : Nat) : (s.serveDeferred d).nv = s.nv := by
  simp [State.serveDeferred, foldl_nv]

/-! ### Sleep and the completion of a wake -/

@[simp] theorem execClockGateEntry_nv (d : DomId) (s : State) : (nextOr (execClockGateEntry d s) s).nv = s.nv := by
  unfold execClockGateEntry
  split <;> simp

@[simp] theorem execDeepHystExpiry_nv (d : DomId) (s : State) : (nextOr (execDeepHystExpiry d s) s).nv = s.nv := by
  simp [execDeepHystExpiry, apply_ite State.nv]

@[simp] theorem State.pageOff_nv (s : State) (p : Nat) : (s.pageOff p).nv = s.nv := by
  grind [State.pageOff, State.resetArea_nv]

@[simp] theorem State.dropLatches_nv (s : State) (p : Nat) : (s.dropLatches p).nv = s.nv := by
  simp [State.dropLatches]

@[simp] theorem State.hccOff_nv (s : State) (k : Nat) : (s.hccOff k).nv = s.nv := by
  simp [State.hccOff]

@[simp] theorem State.blockOff_nv (s : State) (d : Nat) : (s.blockOff d).nv = s.nv := by
  grind [State.blockOff, State.modCore_nv, State.setCore_nv, State.hccOff_nv, State.modLink_nv]

@[simp] theorem State.pllStop_nv (s : State) (c : Nat) : (s.pllStop c).nv = s.nv := by
  unfold State.pllStop
  split <;> simp

@[simp] theorem State.sleepDone_nv (s : State) (d : Nat) (to_ : DState) : (s.sleepDone d to_).nv = s.nv := by
  grind [State.sleepDone, foldl_nv, State.modDom_nv, State.dropLatches_nv, State.pageOff_nv,
    State.blockOff_nv, State.modStack_nv, State.pllStop_nv, State.wakeAgent_nv]

@[simp] theorem execDomainSleepDone_nv (d : DomId) (s : State) : (nextOr (execDomainSleepDone d s) s).nv = s.nv := by
  unfold execDomainSleepDone
  split <;> simp

@[simp] theorem State.coreWakeMax_nv (s : State) (sclk : Nat) : (s.coreWakeMax sclk).nv = s.nv := by
  grind [State.coreWakeMax, State.setReg_nv]

@[simp] theorem State.pageOffAcc_nv (s : State) (p : Nat) : (s.pageOffAcc p).nv = s.nv := by
  simp [State.pageOffAcc]

@[simp] theorem State.wakeDone_nv (s : State) (d sclk : Nat) : (s.wakeDone d sclk).nv = s.nv := by
  grind [State.wakeDone, foldl_nv, State.inc_nv, State.coreWakeMax_nv, State.modDom_nv, State.pageOffAcc_nv,
    State.modStack_nv, State.serveDeferred_nv]

@[simp] theorem execDomainWakeDone_nv (d : DomId) (sclk : BitVec 31) (s : State) :
    (nextOr (execDomainWakeDone d sclk s) s).nv = s.nv := by
  unfold execDomainWakeDone
  split <;> simp

/-! ### Resets -/

@[simp] theorem State.setTries_nv (s : State) (i n : Nat) : (s.setTries i n).nv = s.nv := rfl

@[simp] theorem State.countTry_nv (s : State) (cause : Nat) : (s.countTry cause).nv = s.nv := by
  grind [State.countTry, State.setTries_nv]

@[simp] theorem State.recordReset_nv (s : State) (cause rails : Nat) : (s.recordReset cause rails).nv = s.nv := by
  grind [State.recordReset, State.setReg_nv, State.setReg64_nv]

/-! ### Register reads -/

@[simp] theorem State.setLatch_nv (s : State) (r : Requester) (p : Nat) (l : Option (Nat × Word32)) :
    (s.setLatch r p l).nv = s.nv := by simp [State.setLatch]

@[simp] theorem State.plainRead_nv (s : State) (r : Requester) (bt p o : Nat) (same : Option Word32) :
    (s.plainRead r bt p o same).nv = s.nv := by
  grind [State.plainRead, State.usedFree_nv, State.setRd_nv, State.setLatch_nv, State.setReg_nv]

@[simp] theorem State.pageRead_nv (s : State) (r : Requester) (p o : Nat) (same : Option Word32) :
    (s.pageRead r p o same).nv = s.nv := by
  grind [State.pageRead, State.setRd_nv, State.setLatch_nv, State.plainRead_nv]

@[simp] theorem State.busRead_nv (s : State) (r : Requester) (off : Nat) (same : Option Word32) :
    (s.busRead r off same).nv = s.nv := by
  unfold State.busRead
  split <;> simp

@[simp] theorem execLowWordRead_nv (r : Requester) (off : Bar0) (s : State) :
    (nextOr (execLowWordRead r off s) s).nv = s.nv := by simp [execLowWordRead]

@[simp] theorem execRcRead_nv (r : Requester) (off : Bar0) (sameCycle : Option Word32) (s : State) :
    (nextOr (execRcRead r off sameCycle s) s).nv = s.nv := by simp [execRcRead]

/-! ### Soft resets -/

@[simp] theorem State.resetStatus_nv (s : State) (p : Nat) : (s.resetStatus p).nv = s.nv := rfl

@[simp] theorem State.coreAbort_nv (s : State) (c : CoreId) : (s.coreAbort c).nv = s.nv := by
  grind [State.coreAbort, foldl_nv, State.abortChan_nv, State.stopContext_nv]

@[simp] theorem State.fabAbort_nv (s : State) : s.fabAbort.nv = s.nv := by
  grind [State.fabAbort, foldl_nv, State.complete_nv, State.freeChannel_nv]

@[simp] theorem State.blockReset_nv (s : State) (bt i : Nat) : (s.blockReset bt i).nv = s.nv := by
  unfold State.blockReset
  grind [foldl_nv, State.fabAbort_nv, State.collAbortAll_nv, State.dropSpec_nv,
    State.anlAbort_nv, State.queReset_nv, State.ctxKill_nv, State.modClu_nv, State.modStack_nv, State.pumpAll_nv,
    State.tryTrain_nv, State.modLink_nv, State.leaveUp_nv, State.coreAbort_nv, State.abandon_nv]

@[simp] theorem State.softReset_nv (s : State) (p : Nat) : (s.softReset p).nv = s.nv := by
  grind [State.softReset, State.modPage_nv, State.resetStatus_nv, State.blockReset_nv]

@[simp] theorem State.writeCtl_nv (s : State) (p : Nat) (v : Word32) : (s.writeCtl p v).nv = s.nv := by
  unfold State.writeCtl
  split <;> simp

@[simp] theorem execSrst_nv (r : Requester) (page : Fin 16384) (s : State) :
    (nextOr (execSrst r page s) s).nv = s.nv := by simp [execSrst]

/-! ### Register writes -/

@[simp] theorem State.writeHeader_nv (s : State) (r : Requester) (p o : Nat) (v : Word32) :
    (s.writeHeader r p o v).nv = s.nv := by
  grind [State.writeHeader, State.lockArm_nv, State.lockLock_nv, State.setArmed_nv, State.writeCtl_nv,
    State.statClear_nv, State.modPage_nv, State.violation_nv]

@[simp] theorem State.nvjRead_nv (s : State) (v : Word32) : (s.nvjRead v).nv = s.nv := by
  grind [State.nvjRead, foldl_nv, State.store_nv, State.freeBytes_nv, State.setReg_nv]

/-! ### Boot and whole register accesses -/

@[simp] theorem State.setStep_nv (s : State) (n : Nat) : (s.setStep n).nv = s.nv := rfl

@[simp] theorem State.bootFail_nv (s : State) (step status : Nat) : (s.bootFail step status).nv = s.nv := by
  simp [State.bootFail]

@[simp] theorem State.bootOn_nv (s : State) (d : Nat) : (s.bootOn d).nv = s.nv := by
  unfold State.bootOn
  split <;> simp

@[simp] theorem State.bootPlls_nv (s : State) : s.bootPlls.nv = s.nv := rfl

@[simp] theorem State.zeroMemory_nv (s : State) : s.zeroMemory.nv = s.nv := rfl

@[simp] theorem State.bootLinks_nv (s : State) (up : BitVec 16) : (s.bootLinks up).nv = s.nv := by
  grind [State.bootLinks, foldl_nv, State.modLink_nv, State.tryTrain_nv, State.setReg_nv]

@[simp] theorem State.bootTests_nv (s : State) (fails : List ArrId) : (s.bootTests fails).nv = s.nv := by
  grind [State.bootTests, foldl_nv, State.inc_nv, State.fence_nv]

@[simp] theorem State.scanJournal_nv (s : State) : s.scanJournal.nv = s.nv := by
  simp [State.scanJournal]

@[simp] theorem State.bootReady_nv (s : State) (ticks : Nat) : (s.bootReady ticks).nv = s.nv := by
  simp [State.bootReady]

@[simp] theorem State.enterRecovery_nv (s : State) : s.enterRecovery.nv = s.nv := by
  simp [State.enterRecovery]

@[simp] theorem execRegRead_nv (off : Word32) (pec : Pec) (s : State) :
    (nextOr (execRegRead off pec s) s).nv = s.nv := by simp [execRegRead, apply_ite State.nv]

/-! ### Synchronisation instructions -/

@[simp] theorem execFence_nv (o : YOp) (s : State) : (nextOr (execFence o s) s).nv = s.nv := by
  simp [execFence]

@[simp] theorem execHalt_nv (o : YOp) (s : State) : (nextOr (execHalt o s) s).nv = s.nv := by
  simp [execHalt]

@[simp] theorem execTrap_nv (o : YOp) (s : State) : (nextOr (execTrap o s) s).nv = s.nv := by
  simp [execTrap]

@[simp] theorem execYield_nv (o : YOp) (s : State) : (nextOr (execYield o s) s).nv = s.nv := by
  simp [execYield]

@[simp] theorem execSentinelSweep_nv (c : CoreId) (s : State) : (nextOr (execSentinelSweep c s) s).nv = s.nv := by
  simp [execSentinelSweep, apply_ite State.nv]

/-! ### Timer channels -/

@[simp] theorem State.incIf_nv (s : State) (b : Bool) (p o n : Nat) : (s.incIf b p o n).nv = s.nv := by
  unfold State.incIf
  split <;> simp

@[simp] theorem State.ctxTick_nv (s : State) (x : CtxId) : (s.ctxTick x).nv = s.nv := by
  grind [State.ctxTick, State.incIf_nv, State.modCtx_nv]

@[simp] theorem State.tickCounters_nv (s : State) : s.tickCounters.nv = s.nv := by
  simp [State.tickCounters, foldl_nv]

@[simp] theorem State.clockTick_nv (s : State) : s.clockTick.nv = s.nv := by
  grind [State.clockTick, State.tick_nv, State.tickCounters_nv]

end Sys2Proof.Machine
end

section
/-! PROOF. Fuse programming by the NV-write unit and the resets: a fuse bit that is 1 stays 1, and a word changes only
through an operation that was handed to the unit (04_reset_boot.md R110, R111, R119; log entry 56). -/

namespace Sys2Proof.Machine

/-! ### What a step may do to the fuses -/

/-- The operations of the NV-write unit: the one under way and those that wait. -/
def State.nvOps (s : State) : List NvOp := s.nv.op.toList ++ s.nv.queue

/-- Fuse bits stay, and a word that changes was to be programmed, unless `B` holds. -/
structure State.Burned (B : Prop) (s t : State) : Prop where
  keeps : ∀ w i, (s.fuse w).getLsbD i = true → (t.fuse w).getLsbD i = true
  burns : ∀ w, t.fuse w ≠ s.fuse w → (∃ (x : BitVec 7) (v : Word32), x.toNat = w ∧ .fuse x v ∈ s.nvOps) ∨ B

/-- Moreover no fuse operation joins those of the unit, unless `E` holds. -/
structure State.Programs (E B : Prop) (s t : State) : Prop extends State.Burned B s t where
  queues : ∀ x v, .fuse x v ∈ t.nvOps → .fuse x v ∈ s.nvOps ∨ E

section
variable {E B : Prop} {s t u : State}

/-- The fuses stand, and the unit's fuse operations are among those of before. -/
theorem State.Programs.of_kept (hfuses : t.nv.fuses = s.nv.fuses)
    (hops : ∀ x v, .fuse x v ∈ t.nvOps → .fuse x v ∈ s.nvOps) : s.Programs E B t := by
  have hword (w : Nat) : t.fuse w = s.fuse w := by rw [State.fuse, State.fuse, hfuses]
  exact ⟨⟨fun w i h => by rw [hword]; exact h, fun w h => absurd (hword w) h⟩, fun x v h => .inl (hops x v h)⟩

/-- The fuses and the unit's operations stand. -/
theorem State.Programs.of_parts (hfuses : t.nv.fuses = s.nv.fuses) (hop : t.nv.op = s.nv.op)
    (hqueue : t.nv.queue = s.nv.queue) : s.Programs E B t :=
  .of_kept hfuses fun x v h => by rwa [State.nvOps, hop, hqueue] at h

/-- The NV storage stands. -/
theorem State.Programs.of_nv (h : t.nv = s.nv) : s.Programs E B t := .of_parts (by rw [h]) (by rw [h]) (by rw [h])

theorem State.Programs.refl (s : State) : s.Programs E B s := .of_nv rfl

theorem State.Programs.mono {E' B' : Prop} (h : s.Programs E B t) (hE : E → E') (hB : B → B') : s.Programs E' B' t :=
  ⟨⟨h.keeps, fun w hw => (h.burns w hw).imp_right hB⟩, fun x v hx => (h.queues x v hx).imp_right hE⟩

theorem State.Programs.ite {c : Prop} [Decidable c] (ht : s.Programs E B t) (hu : s.Programs E B u) :
    s.Programs E B (if c then t else u) := by
  split
  · exact ht
  · exact hu

/-- Two changes, where what joins the unit in the first may excuse what the second programs. -/
theorem State.Programs.trans (hEB : E → B) (h : s.Programs E B t) (h' : t.Programs E B u) : s.Programs E B u where
  keeps w i hi := h'.keeps w i (h.keeps w i hi)
  burns w hw := by
    by_cases ht : t.fuse w = s.fuse w
    · rcases h'.burns w (by rwa [ht]) with ⟨x, v, hx, hop⟩ | hB
      · rcases h.queues x v hop with hop | hE
        · exact .inl ⟨x, v, hx, hop⟩
        · exact .inr (hEB hE)
      · exact .inr hB
    · exact h.burns w ht
  queues x v hx := (h'.queues x v hx).elim (h.queues x v) .inr

/-- A change of the NV storage's other parts goes before. -/
theorem State.Programs.after_nv (h : t.nv = s.nv) (h' : t.Programs E B u) : s.Programs E B u := by
  obtain ⟨⟨hkeeps, hburns⟩, hqueues⟩ := h'
  have hword (w : Nat) : t.fuse w = s.fuse w := by rw [State.fuse, State.fuse, h]
  have hops : t.nvOps = s.nvOps := by rw [State.nvOps, State.nvOps, h]
  simp only [hword, hops] at hkeeps hburns hqueues
  exact ⟨⟨hkeeps, hburns⟩, hqueues⟩

/-- What leaves the NV storage goes after. -/
theorem State.Programs.then_nv (h : s.Programs E B t) (h' : u.nv = t.nv) : s.Programs E B u := by
  obtain ⟨⟨hkeeps, hburns⟩, hqueues⟩ := h
  have hword (w : Nat) : u.fuse w = t.fuse w := by rw [State.fuse, State.fuse, h']
  have hops : u.nvOps = t.nvOps := by rw [State.nvOps, State.nvOps, h']
  simp only [← hword, ← hops] at hkeeps hburns hqueues
  exact ⟨⟨hkeeps, hburns⟩, hqueues⟩

/-- A fold of changes, each by an element of the list. -/
theorem State.Programs.foldl {α : Type} (hEB : E → B) {f : State → α → State} {l : List α}
    (hf : ∀ t, s.Programs E B t → ∀ a ∈ l, t.Programs E B (f t a)) : s.Programs E B (l.foldl f s) :=
  List.foldlRecOn (motive := s.Programs E B) l f (.refl s) fun t ht a ha => ht.trans hEB (hf t ht a ha)

end

/-- An operation that programs no fuse. -/
def NvOp.sparesFuses : NvOp → Prop
  | .fuse .. => False
  | _ => True

/-! ### The NV-write unit -/

section
variable {s : State}

/-- No fuse operation joins the unit, and no fuse changes. -/
abbrev State.Spares (s t : State) : Prop := s.Programs False False t

theorem State.Spares.then {t u : State} (h : s.Spares t) (h' : t.Spares u) : s.Spares u := h.trans id h'

theorem State.spares_flashWr (s : State) (a : Nat) (bs : List Byte) : s.Spares (s.flashWr a bs) := .of_parts rfl rfl rfl

theorem State.spares_flashErase (s : State) (a : Nat) : s.Spares (s.flashErase a) := .of_parts rfl rfl rfl

theorem State.spares_nvFront {s u : State} (hu : u.nv = s.nv) {op : NvOp} (h : op.sparesFuses) :
    s.Spares (u.nvFront op) :=
  .of_kept (by rw [← hu]; rfl) fun x v hx => by
    simp only [State.nvOps, State.nvFront, hu, List.mem_append, List.mem_cons] at hx ⊢
    rcases hx with hx | rfl | hx
    · exact .inl hx
    · exact h.elim
    · exact .inr hx

theorem State.spares_nvRefused (s : State) (op : NvOp) (st : BitVec 16) : s.Spares (s.nvRefused op st) := by
  cases op with
  | fuse w v => exact .of_nv rfl
  | cmdErase off => exact .of_nv (State.nvCmdDone_nv ..)
  | cmdProgram off bs => exact .of_nv (State.nvCmdDone_nv ..)
  | journal p bs =>
    unfold State.nvRefused
    dsimp only
    have hcount : ((s.inc pNVJ 0xF18).raise pNVJ 17).nv = s.nv := State.raise_nv ..
    generalize (s.inc pNVJ 0xF18).raise pNVJ 17 = u at hcount ⊢
    split
    · exact State.spares_nvFront (by exact hcount) (by exact trivial)
    · exact .of_nv hcount
  | journalErase off => exact .of_nv (State.raise_nv ..)
  | train st sl r next => exact .refl s

/-- However long the unit runs on, it takes what waits, and the operation that it starts is one of those. -/
theorem State.spares_nvRun (fuel : Nat) : ∀ s : State, s.Spares (s.nvRun fuel) := by
  induction fuel with
  | zero => exact State.Programs.refl
  | succ fuel ih =>
    intro s
    unfold State.nvRun
    split
    · next op rest hop hqueue =>
      have hpopped : s.Spares { s with nv := { s.nv with queue := rest } } := .of_kept rfl fun x v hx => by
        simp only [State.nvOps, List.mem_append] at hx ⊢
        exact hx.imp_right fun hx => hqueue ▸ List.mem_cons_of_mem _ hx
      have hrefused {t u : State} {st : BitVec 16} (hu : u.nv = t.nv) : t.Spares (u.nvRefused op st) :=
        .after_nv hu (u.spares_nvRefused op st)
      have hstarts {u : State} (hu : u.nv = { s.nv with queue := rest, op := some op }) : s.Spares u := by
        refine .of_kept (by rw [hu]) fun x v hx => ?_
        simpa [State.nvOps, hu, hop, hqueue] using hx
      dsimp only
      split
      · refine hpopped.then (State.Spares.then (hrefused ?_) (ih _))
        exact State.raise_nv ..
      · split
        · split
          · exact hstarts rfl
          · refine hpopped.then (State.Spares.then (hrefused ?_) (ih _))
            rfl
        · exact hstarts rfl
    · exact .refl s

theorem State.spares_nvGo (s : State) : s.Spares s.nvGo := s.spares_nvRun _

/-- Submitting an operation adds it alone. -/
theorem State.programs_nvSubmit {E : Prop} (s : State) {op : NvOp} (h : op.sparesFuses ∨ E) :
    s.Programs E False (s.nvSubmit op) := by
  have hrun := State.spares_nvGo { s with nv := { s.nv with queue := s.nv.queue ++ [op] } }
  refine ⟨⟨hrun.keeps, fun w hw => ?_⟩, fun x v hx => ?_⟩
  · refine absurd ?_ hw
    exact congrArg (fun m => sget 0 m w) (State.nvKept_nvSubmit s op).fuses
  · rcases hrun.queues x v hx with hx | hfalse
    · simp only [State.nvOps, List.mem_append, List.mem_singleton] at hx ⊢
      rcases hx with hx | hx | rfl
      · exact .inl (.inl hx)
      · exact .inl (.inr hx)
      · exact .inr (h.resolve_left id)
    · exact hfalse.elim

theorem State.spares_nvSubmit (s : State) {op : NvOp} (h : op.sparesFuses) : s.Spares (s.nvSubmit op) :=
  s.programs_nvSubmit (.inl h)

/-! ### Completion -/

theorem State.fuse_or_keeps {a b : Word32} {i : Nat} (h : a.getLsbD i = true) : (a ||| b).getLsbD i = true := by
  rw [BitVec.getLsbD_or, h, Bool.true_or]

/-- A fuse operation that completes was one of the unit's. -/
theorem State.programs_fuse {t : State} {x : BitVec 7} {v got : Word32} (hop : s.nv.op = some (.fuse x v))
    (hfuses : t.nv.fuses = sset 0 s.nv.fuses x.toNat (s.fuse x.toNat ||| got)) (hops : ∀ op ∈ t.nvOps, op ∈ s.nvOps) :
    s.Spares t := by
  have hword (w : Nat) : t.fuse w = if w = x.toNat then s.fuse x.toNat ||| got else s.fuse w := by
    rw [State.fuse, hfuses, sget_sset]; rfl
  refine ⟨⟨fun w i hi => ?_, fun w hw => ?_⟩, fun y u hy => .inl (hops _ hy)⟩
  · rw [hword]
    split
    · next h => subst h; exact State.fuse_or_keeps hi
    · exact hi
  · by_cases h : w = x.toNat
    · exact .inl ⟨x, v, h.symm, by simp [State.nvOps, hop]⟩
    · exact absurd ((hword w).trans (if_neg h)) hw

/-- Completing the operation under way. -/
theorem State.spares_nvFinish (s : State) : s.Spares s.nvFinish := by
  unfold State.nvFinish
  split
  case h_2 x v hop => exact State.programs_fuse hop rfl fun op h => h
  case h_7 => split <;> exact .of_parts rfl rfl rfl
  all_goals exact .of_parts rfl rfl rfl

theorem State.journalDone_nv (s : State) (p : Nat) (bs : List Byte) :
    (s.journalDone p bs).nv = (s.flashWr (journalOff p) bs).nv := by
  unfold State.journalDone
  extract_lets es lo hi t u chk v w
  have hv : v.nv = u.nv := rfl
  have hu : u.nv = t.nv := (State.inc_nv ..).trans (State.inc_nv ..)
  have hw : w.nv = t.nv := (State.setReg64_nv ..).trans (hv.trans hu)
  refine (State.stage_nv _).trans ((foldl_nv (fun s e => ?_) es w).trans hw)
  split
  · exact State.journaled_nv ..
  · rfl

theorem State.chkWatch_keeps_nv (s : State) (f : State → State) : (s.chkWatch f).nv = (f s).nv :=
  (s.signalled_chkWatch f).noted.nv

/-- The completion of an operation, and what the unit starts next. -/
theorem State.spares_nvDone (s : State) (rb : Option Word32) : s.Spares (s.nvDone rb) := by
  unfold State.nvDone
  split
  · exact .refl s
  next op hop =>
  have hidle : s.Spares { s with nv := { s.nv with op := none } } := .of_kept rfl fun x v hx => by
    simp only [State.nvOps, List.mem_append] at hx ⊢
    exact .inr (hx.resolve_left List.not_mem_nil)
  refine State.Spares.then ?_ (State.spares_nvGo _)
  cases op with
  | fuse w v =>
    refine State.programs_fuse (got := rb.getD (s.fuse w.toNat ||| v)) hop ?_ fun op h => ?_
    · exact congrArg Nv.fuses (State.fuseDone_nv ..)
    · rw [State.nvOps, State.fuseDone_nv] at h
      exact List.mem_append_right _ h
  | cmdErase off => exact hidle.then ((State.spares_flashErase _ off).then_nv (State.nvCmdDone_nv ..))
  | cmdProgram off bs => exact hidle.then ((State.spares_flashWr _ off bs).then_nv (State.nvCmdDone_nv ..))
  | journal p bs =>
    refine hidle.then ((State.spares_flashWr _ (journalOff p) bs).then_nv ?_)
    exact (State.chkWatch_keeps_nv ..).trans (State.journalDone_nv ..)
  | journalErase off =>
    refine hidle.then ((State.spares_flashErase _ off).then_nv ?_)
    exact (State.chkWatch_keeps_nv ..).trans (State.stage_nv _)
  | train st sl r next =>
    dsimp only
    have hnext {u t : State} (hu : u.Spares t) :
        u.Spares (if next < 1 + (r.length + 255) / 256 then t.nvFront (.train st sl r (next + 1)) else t) := by
      split
      · exact hu.then (State.spares_nvFront rfl (by exact trivial))
      · exact hu
    refine hidle.then (hnext ?_)
    split
    · exact State.spares_flashWr ..
    · exact State.spares_flashErase ..

end

/-! ### What the journal and the flash commands hand to the unit -/

section

theorem State.spares_journalErases (s : State) : s.Spares s.journalErases := by
  unfold State.journalErases
  refine .foldl id fun t _ k _ => ?_
  dsimp only
  split
  · exact .refl t
  · exact t.spares_nvSubmit (by exact trivial)

theorem State.spares_journalWrite (s : State) : s.Spares s.journalWrite := by
  unfold State.journalWrite
  exact .after_nv (t := { s with chk := { s.chk with refused := false } }) rfl
    (State.spares_nvSubmit _ (by exact trivial))

theorem State.spares_nvjTail (s : State) (hi : Bool) (v : Word32) : s.Spares (s.nvjTail hi v) := by
  have hack : (s.ackWrite pNVJ 0x808 (s.reg64 pNVJ 0x800) hi v fun s => s.inc pNVJ 0xF20).nv = s.nv :=
    State.ackWrite_nv _ _ _ _ _ _ _ fun u => u.inc_nv ..
  refine .then_nv (.after_nv hack (State.spares_journalErases _)) ?_
  exact (State.chkWatch_keeps_nv ..).trans (State.stage_nv _)

theorem State.spares_nvCmd (s : State) (program : Bool) : s.Spares (s.nvCmd program) := by
  unfold State.nvCmd
  split
  · exact .refl s
  split
  · exact .of_nv (State.setReg_nv ..)
  · dsimp only
    split
    · refine .after_nv ?_ (State.spares_nvSubmit _ (by exact trivial))
      exact (State.devRead_nv ..).trans (State.setReg_nv ..)
    · exact .after_nv (State.setReg_nv ..) (State.spares_nvSubmit _ (by exact trivial))

theorem State.spares_nvCmdWrite (s : State) (v : Word32) : s.Spares (s.nvCmdWrite v) := by
  have hstore := s.store_nv pNVJ 0x900 v
  unfold State.nvCmdWrite
  dsimp only
  split
  · exact .of_nv hstore
  split
  · exact .after_nv hstore (State.spares_nvCmd _ false)
  · exact .after_nv hstore (State.spares_nvCmd _ true)
  · exact .of_nv ((State.setReg_nv ..).trans ((State.openStatus_nv _).trans hstore))

/-- A write of FUS_PROG_CMD submits a fuse operation, if it is the key. -/
theorem State.programs_fusProg {E : Prop} (s : State) (v : Word32) (h : v = 0x46555345 → E) :
    s.Programs E False (s.fusProg v) := by
  unfold State.fusProg
  dsimp only
  split
  · exact .refl s
  next hkey =>
  split
  · exact .of_nv (State.setReg_nv ..)
  · refine .after_nv (State.setReg_nv ..) (State.programs_nvSubmit _ (.inr (h ?_)))
    exact not_not.1 (not_or.1 hkey).1

end

/-! ### Resets -/

/-- A reset keeps the fuses of the state that it completes, and drops the unit's operations. -/
theorem State.Spares.cleared {s t u : State} (h : s.Spares t) (hfuses : u.nv.fuses = t.nv.fuses) (hops : u.nvOps = []) :
    s.Spares u :=
  h.then (.of_kept hfuses fun x v hx => by rw [hops] at hx; exact absurd hx List.not_mem_nil)

theorem State.spares_chipReset (s : State) (cause rails : Nat) : s.Spares (s.chipReset cause rails) := by
  refine s.spares_nvFinish.cleared ?_ rfl
  change (s.atReset cause rails).nv.fuses = _
  rw [State.atReset_eq]

theorem State.spares_powerOn (s : State) (strap : BitVec 3) : s.Spares (s.powerOn strap) :=
  s.spares_nvFinish.cleared rfl rfl

theorem State.spares_rstReq (s : State) (v : Word32) : s.Spares (s.rstReq v) :=
  .ite (s.spares_chipReset 3 0) (.refl s)

theorem State.spares_bootConfirm (s : State) (v : Word32) : s.Spares (s.bootConfirm v) := by
  unfold State.bootConfirm
  split
  · split <;> exact .of_parts rfl rfl rfl
  · exact .refl s

end Sys2Proof.Machine
end

section
/-! PROOF. What a register write, and a boot with the NV configuration that it applies, hand to the NV-write unit
(04_reset_boot.md R110 to R112, R119; log entry 69). -/

namespace Sys2Proof.Machine

/-! ### Register writes -/

section
variable {E B : Prop} {s : State}

/-- An access takes effect, or leaves the NV storage. -/
theorem State.Programs.reach {f : State → State} (hf : s.Programs E B (f s)) (r : Requester) (off : Nat) (w : Bool) :
    s.Programs E B (s.reach r off w f) := by
  unfold State.reach
  split
  · exact .refl s
  split
  · exact .of_nv (State.unpop_nv ..)
  · split
    · exact hf
    · exact .of_nv (State.offDrop_nv ..)

/-- A gated write takes effect on a state with the same NV storage, or leaves the NV storage. -/
theorem State.Programs.regGate {f : State → State} (hf : ∀ u : State, u.nv = s.nv → u.Programs E B (f u))
    (r : Requester) (p o : Nat) : s.Programs E B (s.regGate r p o f) := by
  have harm := s.setArmed_nv r p false
  have heffect {u : State} (hu : u.nv = s.nv) : s.Programs E B (f u) := .after_nv hu (hf u hu)
  unfold State.regGate
  dsimp only
  split
  · exact .of_nv harm
  split
  · exact heffect harm
  split
  · split
    · exact .of_nv ((State.violation_nv ..).trans harm)
    · exact heffect ((State.modPage_nv ..).trans harm)
  split
  · exact .of_nv ((State.violation_nv ..).trans harm)
  · exact heffect harm

theorem State.Programs.write {f : State → State} (hf : ∀ u : State, u.nv = s.nv → u.Programs E B (f u)) (r : Requester)
    (p o : Nat) : s.Programs E B (s.write r p o f) :=
  .reach (.regGate hf r p o) r _ true

/-- Only FUS has its block type. -/
theorem pageInfo_fus {p i : Nat} (hp : pageInfo p = some (4, i)) : p = pFUS := by
  grind [pageInfo]

/-- A register write may submit a fuse operation where it is the key of FUS_PROG_CMD, and does what `go` does; beside
these, only registers of the AON and NVJ pages reach the NV storage. -/
theorem State.programs_writeEffect {go : State → State} (hgo : s.Programs E B (go s)) (r : Requester) (p o : Nat)
    (v : Word32) (hkey : p = pFUS → o = 0xA08 → v = 0x46555345 → E) : s.Programs E B (s.writeEffect go r p o v) := by
  have hspares {t : State} (h : s.Spares t) : s.Programs E B t := h.mono False.elim False.elim
  unfold State.writeEffect
  split
  · exact .refl s
  next bt i hp =>
  split
  case h_1 =>
    have hquiet {t : State} (h : t.nv = s.nv) : s.Programs E B t := .of_nv h
    exact .ite (hspares (s.spares_rstReq v)) <| .ite (hquiet (State.wdogCtl_nv ..)) <|
      .ite (hquiet (State.wdogKick_nv ..)) <| .ite (hspares (s.spares_bootConfirm v)) <| .ite (.ite hgo (.refl s)) <|
      .ite (hquiet (State.ackWrite_nv _ _ _ _ _ _ _ fun _ => rfl)) <| .ite (hquiet (State.logSel_nv ..)) <|
      .ite (hquiet (State.tmrAlloc_nv ..)) <|
      .ite (.ite (hquiet (State.tmrOwner_nv ..)) <| .ite (hquiet (State.tmrWrite_nv ..)) <| .refl s) <|
      hquiet (State.store_nv ..)
  case h_3 =>
    split
    · next ho => exact (s.programs_fusProg v (hkey (pageInfo_fus hp) ho)).mono id False.elim
    · exact .of_nv (State.store_nv ..)
  case h_4 =>
    split
    · exact hspares (State.spares_nvjTail ..)
    split
    · exact .of_nv (State.nvjRead_nv ..)
    split
    · exact hspares (State.spares_nvCmdWrite ..)
    · exact .of_nv (State.store_nv ..)
  case h_13 =>
    split
    · exact .of_nv (State.ackWrite_nv _ _ _ _ _ _ _ fun u => u.inc_nv ..)
    · exact .of_nv (State.store_nv ..)
  all_goals
    refine .of_nv ?_
    repeat' split
    all_goals simp

/-- A write of any offset, likewise. -/
theorem State.programs_busWriteWith {go : State → State} (hgo : ∀ u : State, u.nv = s.nv → u.Programs E B (go u))
    (r : Requester) (off : Nat) (v : Word32) (hkey : off = pFUS * 4096 + 0xA08 → v = 0x46555345 → E) :
    s.Programs E B (s.busWriteWith go r off v) := by
  unfold State.busWriteWith
  refine .reach ?_ r off true
  split
  · exact .of_nv (State.violation_nv ..)
  split
  · exact .of_nv (State.writeHeader_nv ..)
  · refine .regGate (fun u hu => State.programs_writeEffect (hgo u hu) r _ _ v fun hp ho => hkey ?_) r _ _
    rw [← Nat.div_add_mod' off 4096, hp, ho]

end

/-! ### Boot -/

/-- One of the NV configuration's writes is that of the key of FUS_PROG_CMD. -/
def State.ConfigProgramsFuses (s : State) : Prop :=
  ∃ e ∈ s.nvEntries, e.1 % 0x4000000 = pFUS * 4096 + 0xA08 ∧ e.2 = 0x46555345

section
variable {s t : State}

theorem State.configProgramsFuses_congr (h : t.nv.flash = s.nv.flash) :
    t.ConfigProgramsFuses ↔ s.ConfigProgramsFuses := by
  rw [State.ConfigProgramsFuses, State.ConfigProgramsFuses, State.nvEntries_congr h]

/-- What boot does: a fuse is programmed, or an operation is submitted, where the configuration has one. -/
abbrev State.Boots (s t : State) : Prop := s.Programs s.ConfigProgramsFuses s.ConfigProgramsFuses t

/-- What boot does after a change that leaves the flash, the fuses and the unit's operations. -/
theorem State.Boots.after {u : State} (hflash : t.nv.flash = s.nv.flash) (hfuses : t.nv.fuses = s.nv.fuses)
    (hop : t.nv.op = s.nv.op) (hqueue : t.nv.queue = s.nv.queue) (h : t.Boots u) : s.Boots u :=
  (State.Programs.of_parts hfuses hop hqueue).trans id
    (h.mono (State.configProgramsFuses_congr hflash).1 (State.configProgramsFuses_congr hflash).1)

theorem State.boots_applyNv (s : State) : s.Boots s.applyNv := by
  unfold State.applyNv
  refine .foldl id fun t _ e he => ?_
  split
  · exact .refl t
  · exact State.programs_busWriteWith (fun u _ => .refl u) .mgmt _ _ fun hoff hv => ⟨e, he, hoff, hv⟩

theorem State.programs_trainStack {E B : Prop} (s : State) (k : Nat) (g : StackInfo) :
    s.Programs E B (s.trainStack k g) := by
  unfold State.trainStack
  dsimp only
  split
  · exact .of_nv (State.setReg_nv ..)
  split
  · exact .of_nv ((State.modStack_nv ..).trans (State.setReg_nv ..))
  split
  · exact .of_parts rfl rfl rfl
  · exact .of_nv (State.setReg_nv ..)

theorem State.boots_bootRest (s : State) (env : BootEnv) : s.Boots (s.bootRest env) := by
  unfold State.bootRest
  extract_lets t u v w x
  have ht : s.Boots t := .after (t := s.setStep 6) rfl rfl rfl rfl (s.setStep 6).boots_applyNv
  have hv : s.Boots v := by
    refine ht.then_nv ((foldl_nv (fun s k => ?_) _ u).trans ?_)
    · exact (State.bootOn_nv ..).trans (State.bootOn_nv ..)
    · exact (State.setStep_nv ..).trans (State.bootPlls_nv _)
  have hw : s.Boots w := hv.trans id (.foldl id fun t _ e _ => t.programs_trainStack e.2 e.1)
  split
  · exact ht
  split
  · exact hv.then_nv (State.bootFail_nv ..)
  split
  · exact hw.then_nv (State.bootFail_nv ..)
  · refine hw.then_nv ?_
    calc _ = x.nv := (State.bootReady_nv ..).trans ((State.scanJournal_nv _).trans ((State.bootTests_nv ..).trans
        (State.setStep_nv ..)))
      _ = w.nv := (State.bootLinks_nv ..).trans (State.zeroMemory_nv _)

theorem State.runImage_nv (s : State) (rd : Nat → Nat → List Byte) (i : Option (Fin 2)) :
    (s.runImage rd i).nv = { s.nv with image := i, confirmed := false } := by
  simp only [State.runImage, State.setReg_nv]

theorem State.boots_runImage (s : State) (rd : Nat → Nat → List Byte) (i : Option (Fin 2)) (env : BootEnv) :
    s.Boots ((s.runImage rd i).bootRest env) := by
  have h := s.runImage_nv rd i
  exact .after (by rw [h]) (by rw [h]) (by rw [h]) (by rw [h]) (State.boots_bootRest _ env)

theorem State.boots_boot (s : State) (env : BootEnv) : s.Boots (s.boot env) := by
  unfold State.boot
  extract_lets nv t u nv' v
  have hu : u.nv = t.nv := (State.pcieUp_nv _).trans (State.setStep_nv ..)
  have hv : v.nv = { t.nv with flashBytes := env.flashBytes } := hu ▸ State.setReg_nv ..
  have hafter {w : State} (h : v.Boots w) : s.Boots w :=
    .after (t := v) (by rw [hv]) (by rw [hv]) (by rw [hv]) (by rw [hv]) h
  have ht : s.Boots t := .of_parts rfl rfl rfl
  split
  · exact ht.then_nv (State.bootFail_nv ..)
  split
  · exact ht.then_nv ((State.bootFail_nv ..).trans hu)
  split
  · exact hafter (.of_nv (State.enterRecovery_nv v))
  · exact hafter (.after (t := v.setStep 5) rfl rfl rfl rfl (State.boots_runImage ..))

theorem State.boots_recoveryGo (s : State) : s.Boots s.recoveryGo := by
  unfold State.recoveryGo
  split
  · exact .refl s
  dsimp only
  split
  · exact .refl s
  split
  · exact .refl s
  · exact .after (t := s.setReg pAON 0x890 _) rfl rfl rfl rfl (State.boots_runImage ..)

end

end Sys2Proof.Machine
end

section
/-! PROOF. The anti-rollback count: no command clears a fuse bit, and a word changes only through an operation that was
handed to the NV-write unit, or that the NV configuration hands to it within the same boot (04_reset_boot.md R110, R111). -/

namespace Sys2Proof.Machine

/-! ### Commands -/

/-- What a command that answers a next state has done to the fuses. -/
def State.BurnedBy (s : State) (o : Host.Outcome State Fault Refusal) : Prop :=
  ∀ t, o = .next t → s.Burned s.ConfigProgramsFuses t

section
variable {E : Prop} {s t : State}

theorem State.burnedBy_ok (h : s.Programs E s.ConfigProgramsFuses t) : s.BurnedBy (ok t) := by
  rintro _ ⟨⟩
  exact h.toBurned

theorem State.burnedBy_spares (h : s.Spares t) : s.BurnedBy (ok t) :=
  State.burnedBy_ok (h.mono id False.elim)

theorem State.burnedBy_nv {o : Host.Outcome State Fault Refusal} (h : (nextOr o s).nv = s.nv) : s.BurnedBy o := by
  rintro t rfl
  exact (State.Programs.of_nv (E := True) (show t.nv = s.nv from h)).toBurned

/-- A write command whose effect spares the fuses. -/
theorem State.burnedBy_write {f : State → State} (hf : ∀ u : State, u.Spares (f u)) (r : Requester) (p o : Nat) :
    s.BurnedBy (ok (s.write r p o f)) :=
  State.burnedBy_spares (.write (fun u _ => hf u) r p o)

/-- A write of any register: what it hands to the unit does not complete within the command, but for a boot that
AON_RECOVERY_GO brings. -/
theorem State.programs_busWrite (s : State) (r : Requester) (off : Nat) (v : Word32) :
    s.Programs True s.ConfigProgramsFuses (s.busWrite r off v) := by
  refine State.programs_busWriteWith (fun u hu => ?_) r off v fun _ _ => trivial
  exact u.boots_recoveryGo.mono (fun _ => trivial) (State.configProgramsFuses_congr (by rw [hu])).1

theorem burnedBy_timerFire (n : Fin 8) (s : State) : s.BurnedBy (execTimerFire n s) := by
  refine State.burnedBy_spares ?_
  split
  · exact .refl s
  · extract_lets owner code t pin u
    have ht : t.nv = s.nv := State.tmrFire_nv ..
    have hu : u.nv = s.nv := by
      unfold u
      split
      · exact (State.emitOut_nv ..).trans ht
      · exact ht
    exact .ite (.ite (.of_nv ((State.lapseLeases_nv _).trans hu)) <| .ite (.of_nv ((State.refill_nv _).trans hu)) <|
      .ite (.after_nv hu (State.spares_chipReset ..)) (.of_nv hu)) (.of_nv hu)

theorem burnedBy_trainingRecordWrite (k : Fin 8) (s : State) : s.BurnedBy (execTrainingRecordWrite k s) := by
  refine State.burnedBy_spares ?_
  split
  · exact .refl s
  split
  · exact .refl s
  next due _ =>
  have hdue : s.Spares { s with nv := { s.nv with trainDue := s.nv.trainDue.filter (fun e => e.1 != k.val) } } :=
    .of_parts rfl rfl rfl
  exact hdue.then (State.spares_nvSubmit _ (by exact trivial))

theorem burnedBy_journalResubmit (s : State) : s.BurnedBy (execJournalResubmit s) := by
  refine State.burnedBy_spares ?_
  split
  · extract_lets chk t
    have ht : s.Spares t := .after_nv (t := { s with chk := { s.chk with refused := false } }) rfl
      (State.spares_journalErases _)
    split
    · exact ht
    · exact ht.then t.spares_journalWrite
  · exact .refl s

theorem burnedBy_perstReset (b : Bool) (s : State) : s.BurnedBy (execPerstReset b s) := by
  have hused := State.usedFree_nv s
  exact State.burnedBy_spares (.ite (s.spares_chipReset 2 0) (.ite (.after_nv hused (State.spares_chipReset ..))
    (.of_nv hused)))

theorem burnedBy_aonRecoveryGo (r : Requester) (v : Word32) (s : State) : s.BurnedBy (execAonRecoveryGo r v s) := by
  refine State.burnedBy_ok (E := s.ConfigProgramsFuses) (.write (fun u hu => ?_) r _ _)
  have hconfig := (State.configProgramsFuses_congr (t := u) (s := s) (by rw [hu])).1
  exact .ite (u.boots_recoveryGo.mono hconfig hconfig) (.refl u)

theorem burnedBy_refclkLost (s : State) : s.BurnedBy (execRefclkLost s) :=
  State.burnedBy_spares (.ite (.after_nv (t := { s.usedFree with
    pw := { s.usedFree.pw with refPresent := false }
    log := { s.usedFree.log with fatalIdx := BitVec.ofNat 10 s.freeVal } }) rfl (State.spares_chipReset ..)) (.refl s))

theorem burnedBy_registerWrite (r : Requester) (off : Bar0) (v : Word32) (ep : Bool) (s : State) :
    s.BurnedBy (execRegisterWrite r off v ep s) := by
  refine State.burnedBy_ok (E := True) ?_
  split
  · exact .of_nv (ite_nv rfl (State.inc_nv ..))
  · exact s.programs_busWrite r off.toNat v

theorem burnedBy_regWrite (off v : Word32) (pec : Pec) (s : State) : s.BurnedBy (execRegWrite off v pec s) := by
  refine State.burnedBy_ok (E := True) ?_
  have hwritten : s.Programs True s.ConfigProgramsFuses (if off.toNat % 4 ≠ 0 ∨ 0x4000000 ≤ off.toNat then
      s.smbServed 0x02 stDESC_INVALID else (s.busWrite .mgmt off.toNat v).smbServed 0x02 stOK) :=
    .ite (.of_nv (State.smbServed_nv ..)) ((s.programs_busWrite .mgmt off.toNat v).then_nv (State.smbServed_nv ..))
  unfold State.smbPec
  split
  · exact .of_nv (State.inc_nv ..)
  · exact .ite (.refl s) hwritten
  · exact hwritten

theorem burnedBy_journalPageDone (s : State) : s.BurnedBy (execJournalPageDone s) := by
  refine State.burnedBy_spares ?_
  split
  · exact s.spares_nvDone none
  · exact .refl s

/-- No command clears a fuse bit, or changes a word that was not to be programmed. -/
theorem exec_burnedBy (i : Instr) (s : State) : s.BurnedBy (exec i s) := by
  cases i with
  | nvOpDone rb => exact State.burnedBy_spares (s.spares_nvDone rb)
  | journalPageDone => exact burnedBy_journalPageDone s
  | journalPageWrite => exact State.burnedBy_spares (.ite s.spares_journalWrite (.refl s))
  | journalResubmit => exact burnedBy_journalResubmit s
  | nvjTail r hi v => exact State.burnedBy_write (fun u => u.spares_nvjTail hi v) r _ _
  | erase r => exact State.burnedBy_write (fun u => u.spares_nvCmd false) r _ _
  | nvProgram r => exact State.burnedBy_write (fun u => u.spares_nvCmd true) r _ _
  | fusProgCmd r v =>
    refine State.burnedBy_ok (E := True) (.write (fun u _ => ?_) r _ _)
    exact (u.programs_fusProg v fun _ => trivial).mono id False.elim
  | trainingRecordWrite k => exact burnedBy_trainingRecordWrite k s
  | powerOnReset strap => exact State.burnedBy_spares (s.spares_powerOn strap)
  | sagReset rails => exact State.burnedBy_spares (.ite (.refl s) (s.spares_chipReset 1 rails.toNat))
  | perstReset long => exact burnedBy_perstReset long s
  | aonRstReq r v => exact State.burnedBy_write (fun u => u.spares_rstReq v) r _ _
  | fatalReset => exact State.burnedBy_spares (.ite (s.spares_chipReset 5 0) (.refl s))
  | refclkLost => exact burnedBy_refclkLost s
  | timerFire n => exact burnedBy_timerFire n s
  | aonBootConfirm r v => exact State.burnedBy_write (fun u => u.spares_bootConfirm v) r _ _
  | resetRelease env => exact State.burnedBy_ok (.ite (s.boots_boot env) (.refl s))
  | aonRecoveryGo r v => exact burnedBy_aonRecoveryGo r v s
  | registerWrite r off v ep => exact burnedBy_registerWrite r off v ep s
  | regWrite off v pec => exact burnedBy_regWrite off v pec s
  | _ => exact State.burnedBy_nv (by simp [exec])

end

/-! ### The count -/

/-- A word that keeps the bits of another has at least as many. -/
theorem popcount_le_of_keeps {a b : Word32} (h : ∀ i, a.getLsbD i = true → b.getLsbD i = true) :
    popcount a ≤ popcount b :=
  (List.monotone_filter_right _ h).length_le

/-- A command sees the NV storage as it stood before it was taken from the queue. -/
theorem State.Burned.of_front {s t u : State} (hnv : u.nv = s.nv) (h : u.Burned u.ConfigProgramsFuses t) :
    s.Burned s.ConfigProgramsFuses t := by
  have hword (w : Nat) : u.fuse w = s.fuse w := by rw [State.fuse, State.fuse, hnv]
  have hops : u.nvOps = s.nvOps := by rw [State.nvOps, State.nvOps, hnv]
  have hconfig := State.configProgramsFuses_congr (t := u) (s := s) (by rw [hnv])
  obtain ⟨hkeeps, hburns⟩ := h
  simp only [hword, hops, hconfig] at hkeeps hburns
  exact ⟨hkeeps, hburns⟩

/-- What a step has done to the fuses. -/
theorem step_burned {s t : State} (h : step s = .next t) : s.Burned s.ConfigProgramsFuses t := by
  unfold step at h
  split at h
  · cases h
    exact (State.Programs.of_nv (E := True) (State.clockTick_nv s)).toBurned
  · next c rest hpending => exact .of_front (u := { s with pending := rest }) rfl (exec_burnedBy c _ t h)

/-- Settles O58: no command clears a fuse bit, and a word changes only through an operation that was the unit's, or
that the NV configuration of a boot hands to it. -/
theorem antiRollbackCount : Obligations.AntiRollbackCount := by
  refine ⟨fun s => rfl, fun s t h => ?_⟩
  have hburned := step_burned h
  refine ⟨hburned.keeps, ?_, fun hne => ?_⟩
  · exact Nat.add_le_add (popcount_le_of_keeps (hburned.keeps 44)) (popcount_le_of_keeps (hburned.keeps 45))
  · have hword : t.fuse 44 ≠ s.fuse 44 ∨ t.fuse 45 ≠ s.fuse 45 := by
      by_contra hsame
      rw [not_or, not_not, not_not] at hsame
      exact hne (by rw [State.antiRollback, State.antiRollback, hsame.1, hsame.2])
    rcases hword with hword | hword
    · exact (hburned.burns 44 hword).imp_left fun ⟨x, v, hx, hop⟩ => ⟨x, v, .inl hx, hop⟩
    · exact (hburned.burns 45 hword).imp_left fun ⟨x, v, hx, hop⟩ => ⟨x, v, .inr hx, hop⟩

end Sys2Proof.Machine
end

section
/-! PROOF. How an instruction that a core can issue ends: the results that land first, the core it leaves, and a trap
(06_hj1_baseline.md R150 to R155, R184, R185; 07_hj2_contract.md R211 to R216). -/

namespace Sys2Proof.Machine

/-! ### What landing leaves -/

/-- Results have landed on a core: its thread, scratch with its marks, its channels and what its passes have read may
have changed; no pass has come. -/
structure Core.Landed (k k' : Core) : Prop where
  frame : k' = { k with th := k'.th, scratch := k'.scratch, marks := k'.marks, chans := k'.chans, passes := k'.passes }
  passes : k.passes = [] → k'.passes = []

section
variable {k k' k'' : Core}

theorem Core.Landed.refl (k : Core) : k.Landed k := ⟨rfl, id⟩

theorem Core.Landed.trans (h : k.Landed k') (h' : k'.Landed k'') : k.Landed k'' where
  frame := h'.frame.trans (congrArg (fun x : Core => { x with
    th := k''.th, scratch := k''.scratch, marks := k''.marks, chans := k''.chans, passes := k''.passes }) h.frame)
  passes := h'.passes ∘ h.passes

theorem Core.landed_thread (k : Core) (t : Thread) : k.Landed { k with th := t } := ⟨rfl, id⟩

theorem Core.Landed.ctx (h : k.Landed k') : k'.ctx = k.ctx := by rw [h.frame]
theorem Core.Landed.parked (h : k.Landed k') : k'.parked = k.parked := by rw [h.frame]
theorem Core.Landed.retrying (h : k.Landed k') : k'.retrying = k.retrying := by rw [h.frame]
theorem Core.Landed.ungangWait (h : k.Landed k') : k'.ungangWait = k.ungangWait := by rw [h.frame]
theorem Core.Landed.emitWait (h : k.Landed k') : k'.emitWait = k.emitWait := by rw [h.frame]

end

/-- One result lands. -/
theorem Core.landed_land (k : Core) (l : Landing) : k.Landed (k.land l) := by
  unfold Core.land
  split
  case h_1 => split <;> exact ⟨rfl, id⟩
  case h_4 => exact ⟨rfl, fun h => by simp [Core.wrScratch, Core.captureAll, h]⟩
  all_goals exact ⟨rfl, id⟩

theorem Core.landed_landUpTo (n fuel : Nat) (k : Core) : k.Landed (k.landUpTo n fuel) := by
  induction fuel generalizing k with
  | zero => exact .refl k
  | succ fuel ih =>
    unfold Core.landUpTo
    split
    · exact .refl k
    split
    · exact ((k.landed_thread _).trans (Core.landed_land _ _)).trans (ih _)
    · exact .refl k

theorem Core.landed_settle (k : Core) : k.Landed k.settle := k.landed_landUpTo _ _

theorem Core.landed_drain (k : Core) : k.Landed k.drain := (k.landed_thread _).trans (Core.landed_landUpTo _ _ _)

/-! ### The end of a context -/

/-- A register of a page that is no core's. -/
def OffCores (q k : Nat) : Prop := (q < 0x100 ∨ 0x1C0 ≤ q) ∧ k < 0x1000

/-- Cores have stopped: results have landed on them, and registers of their pages may have changed. -/
structure State.Stopped (s t : State) : Prop where
  frame : t = { s with regs := t.regs, cores := t.cores }
  core : ∀ c, (s.core c).Landed (t.core c)
  reg : ∀ {q k}, OffCores q k → t.reg q k = s.reg q k

section
variable {s t u : State}

theorem State.Stopped.refl (s : State) : s.Stopped s := ⟨rfl, fun _ => .refl _, fun _ => rfl⟩

theorem State.Stopped.trans (h : s.Stopped t) (h' : t.Stopped u) : s.Stopped u where
  frame := h'.frame.trans (congrArg (fun x : State => { x with regs := u.regs, cores := u.cores }) h.frame)
  core c := (h.core c).trans (h'.core c)
  reg hq := (h'.reg hq).trans (h.reg hq)

theorem State.stopped_setReg (s : State) (c : CoreId) {o : Nat} (v : Word32) (ho : o < 0x1000) :
    s.Stopped (s.setReg (pCORE c) o v) where
  frame := rfl
  core _ := .refl _
  reg := by
    intro q k hq
    have hc := c.isLt
    unfold OffCores at hq
    exact State.reg_setReg_ne _ _ (by simp only [pCORE]; omega)

theorem State.stopped_modCore (s : State) (c : Nat) {f : Core → Core} (hf : ∀ k : Core, k.Landed (f k)) :
    s.Stopped (s.modCore c f) where
  frame := rfl
  core e := by
    by_cases he : e = c
    · subst he; rw [State.core_modCore_same]; exact hf _
    · rw [State.core_modCore_ne _ _ he]; exact .refl _
  reg _ := rfl

end

/-- The cores of a context stop: their status registers show why, and what is in flight on them lands. -/
def State.coresStopped (s : State) (x : CtxId) (st : BitVec 16) : State :=
  (s.ctx x).place.foldl (fun s p =>
    (s.setReg (pCORE p.core) 0x804 (st.setWidth 32)).modCore p.core (fun k => if k.ctx = some x then k.drain else k)) s

theorem State.stopped_coresStopped (s : State) (x : CtxId) (st : BitVec 16) : s.Stopped (s.coresStopped x st) := by
  refine List.foldlRecOn (motive := s.Stopped) _ _ (.refl s) fun t h p _ => ?_
  refine (h.trans (t.stopped_setReg p.core _ (by decide))).trans (State.stopped_modCore _ _ fun k => ?_)
  split
  · exact k.landed_drain
  · exact .refl k

/-- A context ends once its cores have stopped; a first status stands. -/
theorem State.stopContext_eq (s : State) (x : CtxId) (st : BitVec 16) :
    s.stopContext x st = (s.coresStopped x st).modCtx x (fun g =>
      { g with state := .ending, endWith := some (g.endWith.getD st) }) := rfl

/-- The status with which a context ends that was not to end before. -/
theorem State.ctx_stopContext (s : State) {x : CtxId} (st : BitVec 16) (h : (s.ctx x).endWith = none) :
    ((s.stopContext x st).ctx x).state = .ending ∧ ((s.stopContext x st).ctx x).endWith = some st := by
  have hctx : (s.coresStopped x st).ctx x = s.ctx x := by
    rw [State.ctx, (s.stopped_coresStopped x st).frame]; rfl
  rw [State.stopContext_eq, State.ctx_modCtx_same, hctx, h]
  exact ⟨rfl, rfl⟩

/-! ### Issue -/

/-- A core that runs the word can issue it, as it stands once the results due have landed. -/
theorem State.runs_iff (s : State) (c : CoreId) (x : CtxId) (w : Nat) : s.runs c x w = true ↔
    s.canIssue c = true ∧ (s.found c).ctx = some x ∧ (s.ctx x).inCode c (s.found c).th.pc = true ∧
      legalWord w = true ∧ (s.found c).th.sentinel = false := by
  simp [State.runs, and_assoc]

/-- A core that can issue waits for no ungang. -/
theorem State.ungangWait_of_canIssue {s : State} {c : Nat} (h : s.canIssue c = true) :
    (s.core c).ungangWait = false := by
  unfold State.canIssue at h
  simp only [] at h
  split at h
  · cases h
  · simp only [Bool.and_eq_true, Bool.not_eq_true'] at h
    exact h.1.1.1.2

/-- What the result of an instruction that meets no hazard makes of the state. -/
def State.answer (s : State) (c : CoreId) (x : CtxId) : IRes → State
  | .trap st info => s.trap c x st info
  | .go e => s.finish c x e

/-- An instruction that its core can issue answers its result, once the results due have landed. -/
theorem State.issue_of_runs {s : State} {c : CoreId} {x : CtxId} {w : Nat} (f : State → CtxId → Core → IRes)
    (h : s.runs c x w = true) :
    issue c w f s = (s.modCore c Core.settle).answer c x (f (s.modCore c Core.settle) x (s.found c)) := by
  obtain ⟨hcan, hctx, hcode, hlegal, hsentinel⟩ := (s.runs_iff c x w).1 h
  have hcore : (s.modCore c Core.settle).core c = s.found c := State.core_modCore_same ..
  have hplace : (s.modCore c Core.settle).ctx x = s.ctx x := rfl
  have hhazard (e : Eff) : (s.found c).hazard e = none := by
    rw [Core.hazard, hsentinel]; rfl
  unfold issue
  simp only [hcan, if_true, hcore, hctx, hplace, hcode, hlegal, Bool.not_true, Bool.false_eq_true, if_false, hhazard]
  cases f (s.modCore c Core.settle) x (s.found c) <;> rfl

/-- A trap ends the context with its status. -/
theorem State.ctx_trap (s : State) (c : CoreId) {x : CtxId} (st : BitVec 16) (info : Nat)
    (h : (s.ctx x).endWith = none) :
    ((s.trap c x st info).ctx x).state = .ending ∧ ((s.trap c x st info).ctx x).endWith = some st := by
  refine State.ctx_stopContext _ st ?_
  rw [State.ctx, State.detect_ctxs, State.setReg_ctxs]
  exact h

/-! ### Instructions of one cycle -/

/-- A core that has issued an instruction with this effect: its results are in flight, its flags raised, its PC the next
word's. -/
def Core.issued (k : Core) (e : Eff) : Core :=
  { k with
    th := { (k.th.push e.lands).raiseFlags e.flags with pc := k.th.pc + 8 }
    banks := k.banks ++ e.banks.map (fun b => (k.th.cyc + b.1, b.2)) }

/-- An effect that goes on to the next word in the next cycle, and freezes nothing. -/
structure Eff.Straight (e : Eff) : Prop where
  target : e.target = none
  busy : e.busy = 1
  freeze : e.freeze = 0

/-- Core `c` has passed a cycle, in which its thread and its bank accesses alone have changed and cycles were counted. -/
structure State.Cycled (s : State) (c : CoreId) (t : State) : Prop where
  frame : t = { s with cores := t.cores, regs := t.regs }
  core : ∃ b, t.core c = { s.core c with
    th := { (s.core c).th with cyc := (s.core c).th.cyc + 1 }, banks := b }
  others : ∀ e, e ≠ c.val → t.core e = s.core e
  reg64 : ∀ {q k}, (q * 4096 + (k + 4) < pCORE c * 4096 + 0xF00 ∨ pCORE c * 4096 + 0xF14 < q * 4096 + k) →
    t.reg64 q k = s.reg64 q k

/-- Unfrozen cycles have passed on a core, before they are counted. -/
def State.ticked (s : State) (c n : Nat) : State :=
  s.setCore c { s.core c with
    th := { (s.core c).th with cyc := (s.core c).th.cyc + n }
    banks := (s.core c).banks.filter (fun b => decide ((s.core c).th.cyc + n ≤ b.1)) }

/-- Cycles are counted, and the bank conflicts they met. -/
theorem State.coreCycles_cases (s : State) (c n : Nat) :
    s.coreCycles c n = (s.ticked c n).inc (pCORE c) 0xF00 n ∨
      ∃ st, s.coreCycles c n = (((s.ticked c n).inc (pCORE c) 0xF00 n).inc (pCORE c) 0xF10 st).inc (pCORE c) 0xF08 st := by
  unfold State.coreCycles
  dsimp only
  split
  · exact .inl rfl
  · exact .inr ⟨_, rfl⟩

theorem State.cycled_ticked (s : State) (c : CoreId) : s.Cycled c (s.ticked c 1) where
  frame := rfl
  core := ⟨_, State.core_setCore_same ..⟩
  others _ he := State.core_setCore_ne _ _ he
  reg64 _ := State.reg64_congr rfl _ _

/-- Counting cycles of a core on its page. -/
theorem State.Cycled.inc {s t : State} {c : CoreId} (h : s.Cycled c t) {o : Nat} (n : Nat) (ho : 0xF00 ≤ o)
    (ho' : o ≤ 0xF10) : s.Cycled c (t.inc (pCORE c) o n) where
  frame := congrArg (fun u : State => { u with regs := (t.inc (pCORE c) o n).regs }) h.frame
  core := h.core
  others := h.others
  reg64 hq := (State.reg64_inc_ne _ _ (by omega)).trans (h.reg64 hq)

theorem State.cycled_coreCycles (s : State) (c : CoreId) : s.Cycled c (s.coreCycles c 1) := by
  have hcycles := (s.cycled_ticked c).inc 1 (o := 0xF00) (by decide) (by decide)
  obtain h | ⟨st, h⟩ := s.coreCycles_cases c 1
  · exact h ▸ hcycles
  · exact h ▸ (hcycles.inc st (by decide) (by decide)).inc st (by decide) (by decide)

/-- An instruction of one cycle: its core goes on, and then come its further changes to the machine. -/
theorem State.finish_straight (s : State) (c : CoreId) (x : CtxId) {e : Eff} (he : e.Straight) :
    ∃ t, (s.modCore c (fun k => e.onCore (k.issued e))).Cycled c t ∧ s.finish c x e = e.onState t := by
  refine ⟨_, State.cycled_coreCycles _ c, ?_⟩
  unfold State.finish
  simp only [he.target, he.busy, he.freeze]
  rfl

/-- An instruction of one cycle with no further change of its core has run it. -/
theorem State.Cycled.ran {s t : State} {c : CoreId} {e : Eff}
    (h : ((s.modCore c Core.settle).modCore c (fun k => e.onCore (k.issued e))).Cycled c t)
    (hcore : e.onCore ((s.found c).issued e) = (s.found c).issued e) : s.ran t c e.lands e.flags := by
  have hfound : (s.modCore c Core.settle).core c = s.found c := State.core_modCore_same ..
  obtain ⟨b, hb⟩ := h.core
  rw [State.core_modCore_same, hfound, hcore] at hb
  refine ⟨⟨b, hb⟩, fun d hd => ?_⟩
  rw [h.others d hd, State.core_modCore_ne _ _ hd, State.core_modCore_ne _ _ hd]

/-- What is said of the cores holds of a state with the same cores. -/
theorem State.ran_congr {s t u : State} {c : CoreId} {lands : List (Nat × LandVal)} {flags : FFlags}
    (h : s.ran t c lands flags) (hcores : u.cores = t.cores) : s.ran u c lands flags := by
  have hcore (e : Nat) : u.core e = t.core e := by rw [State.core, hcores]; rfl
  obtain ⟨⟨b, hb⟩, hother⟩ := h
  exact ⟨⟨b, (hcore c).trans hb⟩, fun e he => (hcore e).trans (hother e he)⟩

end Sys2Proof.Machine
end

section
/-! PROOF. The matrix instructions: what each leaves of its core, its passes and its results in flight
(06_hj1_baseline.md R168 to R170; 07_hj2_contract.md R204, R205, R212, R216). -/

namespace Sys2Proof.Machine

/-! ### Results in flight -/

theorem all_insLand (f : Landing → Bool) (l : Landing) (ls : List Landing) :
    (insLand l ls).all f = (f l && ls.all f) := by
  induction ls with
  | nil => rfl
  | cons a ls ih =>
    unfold insLand
    split
    · rfl
    · rw [List.all_cons, ih, List.all_cons, Bool.and_left_comm]

/-- What holds of every value in flight once more are put there. -/
theorem Thread.all_push (t : Thread) (f : LandVal → Bool) (ls : List (Nat × LandVal)) :
    (t.push ls).lands.all (fun l => f l.val) = (ls.all (fun e => f e.2) && t.lands.all (fun l => f l.val)) := by
  have hfold (q : List Landing) :
      (ls.foldl (fun q l => insLand ⟨t.cyc + l.1, t.seqNo, l.2⟩ q) q).all (fun l => f l.val) =
        (ls.all (fun e => f e.2) && q.all (fun l => f l.val)) := by
    induction ls generalizing q with
    | nil => rfl
    | cons e ls ih => rw [List.foldl_cons, ih, all_insLand, List.all_cons, Bool.and_left_comm, Bool.and_assoc]
  exact hfold t.lands

/-- Is a value in flight something other than a gang change? -/
def LandVal.noGang : LandVal → Bool
  | .gang _ => false
  | _ => true

theorem Core.gangSettled_iff (k : Core) : k.gangSettled = k.th.lands.all (fun l => l.val.noGang) := by
  unfold Core.gangSettled
  congr 1

/-- No gang change is under way where none was and none is put in flight. -/
theorem Core.gangSettled_issued {k : Core} (h : k.gangSettled = true) {e : Eff}
    (he : e.lands.all (fun l => l.2.noGang) = true) : (k.issued e).gangSettled = true := by
  rw [Core.gangSettled_iff] at h ⊢
  exact (k.th.all_push LandVal.noGang e.lands).trans (by rw [he, h]; rfl)

/-- Where no gang change is under way, none takes effect at once. -/
theorem Core.gangNow_of_settled {k : Core} (h : k.gangSettled = true) : k.gangNow = (k, 0) := by
  rw [Core.gangSettled_iff, List.all_eq_true] at h
  unfold Core.gangNow
  split
  · rfl
  · next l hl =>
    have hgang := List.find?_some hl
    have hno := h l (List.mem_of_find?_eq_some hl)
    cases hval : l.val <;> simp [hval, LandVal.noGang] at hgang hno

/-! ### Self-test slices abandoned -/

/-- Self-test slices have been abandoned and counted; no retry has changed. -/
structure State.Abandoned (s t : State) : Prop where
  frame : t = { s with clus := t.clus, regs := t.regs }
  clu : ∀ k, (t.clu k).retryQ = (s.clu k).retryQ ∧ (t.clu k).serving = (s.clu k).serving

section
variable {s t u : State}

theorem State.Abandoned.refl (s : State) : s.Abandoned s := ⟨rfl, fun _ => ⟨rfl, rfl⟩⟩

theorem State.Abandoned.trans (h : s.Abandoned t) (h' : t.Abandoned u) : s.Abandoned u where
  frame := h'.frame.trans (congrArg (fun x : State => { x with clus := u.clus, regs := u.regs }) h.frame)
  clu k := ⟨(h'.clu k).1.trans (h.clu k).1, (h'.clu k).2.trans (h.clu k).2⟩

theorem State.abandoned_inc (s : State) (p o n : Nat) : s.Abandoned (s.inc p o n) := ⟨rfl, fun _ => ⟨rfl, rfl⟩⟩

theorem State.clu_modClu (s : State) (k e : Nat) (f : Clu → Clu) :
    (s.modClu k f).clu e = if e = k then f (s.clu k) else s.clu e := sget_smod ..

/-- A matrix instruction leaves a self-test slice, or abandons and counts it. -/
theorem State.abandon_cases (s : State) (a : Nat) :
    s.abandon a = s ∨ ∃ u, s.abandon a = (s.modClu (a / 48) (fun c => { c with test := some u })).inc (pCLU (a / 48)) 0xF18 := by
  unfold State.abandon
  split
  · split
    · exact .inr ⟨_, rfl⟩
    · exact .inl rfl
  · exact .inl rfl

theorem State.abandoned_abandon (s : State) (a : Nat) : s.Abandoned (s.abandon a) := by
  obtain h | ⟨u, h⟩ := s.abandon_cases a
  · rw [h]; exact .refl s
  · have hclu : s.Abandoned (s.modClu (a / 48) (fun c => { c with test := some u })) := by
      refine ⟨rfl, fun k => ?_⟩
      rw [State.clu_modClu]
      split
      · next hk => subst hk; exact ⟨rfl, rfl⟩
      · exact ⟨rfl, rfl⟩
    rw [h]
    exact hclu.trans (State.abandoned_inc ..)

/-- Abandoning a slice counts on a cluster's page. -/
theorem State.reg64_abandon (s : State) {a : Nat} (ha : a < 768) {q k : Nat} (hq : 0xD0 ≤ q) :
    (s.abandon a).reg64 q k = s.reg64 q k := by
  obtain h | ⟨u, h⟩ := s.abandon_cases a
  · rw [h]
  · rw [h, State.reg64_inc_ne _ _ (by simp only [pCLU]; omega)]
    exact State.reg64_congr rfl q k

end

/-! ### What every matrix instruction does -/

theorem State.abandoned_matEffect (s : State) (c : Nat) (qs : List Nat) : s.Abandoned (matEffect c qs s) :=
  List.foldlRecOn (motive := s.Abandoned) qs _ (s.abandoned_inc ..) fun t h _ _ => h.trans (t.abandoned_abandon _)

/-- A matrix instruction is counted once. -/
theorem State.reg64_matEffect (s : State) (c : CoreId) {qs : List Nat} (hqs : ∀ q ∈ qs, q < 4) :
    (matEffect c qs s).reg64 (pCORE c) 0xF20 = s.reg64 (pCORE c) 0xF20 + 1 := by
  have hc := c.isLt
  refine List.foldlRecOn (motive := fun t : State => t.reg64 (pCORE c) 0xF20 = s.reg64 (pCORE c) 0xF20 + 1) qs _
    (State.reg64_inc_same ..) fun t h q hq => ?_
  have hlt := hqs q hq
  rw [State.reg64_abandon _ (by omega) (by simp only [pCORE]; omega), h]

/-- Arrays that an instruction may use one by one it may use together. -/
theorem State.arrTrap_eq_none {s : State} {c : Nat} {qs : List Nat} (h : ∀ q ∈ qs, s.arrTrap c [q] = none) :
    s.arrTrap c qs = none := by
  refine List.findSome?_eq_none_iff.2 fun q hq => ?_
  exact List.findSome?_eq_none_iff.1 (h q hq) q (List.mem_singleton_self q)

theorem quads_lt (g : Bool) (a : Fin 4) : ∀ q ∈ quads g a, q < 4 := by
  cases g
  · intro q hq
    rw [List.mem_singleton.1 hq]
    exact a.isLt
  · simp [quads]

/-! ### Instructions that start no pass -/

/-- The effect of a matrix instruction that reaches the arrays `qs` and puts results in flight, with no change of the
gang. -/
def matEff (c : Nat) (qs : List Nat) (lands : List (Nat × LandVal)) (reads : List (Loc × Nat)) : Eff :=
  { lands := lands, reads := reads, onCore := fun k => k.gangNow.1, onState := matEffect c qs }

/-- What an instruction of one cycle does after its core has gone on, when that is what every matrix instruction
does. -/
theorem State.Cycled.matEffect {s u : State} {c : CoreId} {f : Core → Core}
    (h : ((s.modCore c Core.settle).modCore c f).Cycled c u) (qs : List Nat) :
    let t := Machine.matEffect c qs u
    t = { s with cores := t.cores, regs := t.regs, clus := t.clus } ∧ t.cores = u.cores ∧
      (qs = [] → s.onlyCores t) := by
  intro t
  have honly : s.onlyCores u := h.frame.trans (by simp)
  have habandoned : u.Abandoned t := u.abandoned_matEffect c qs
  have hcores : t.cores = u.cores := by rw [habandoned.frame]
  refine ⟨?_, hcores, fun hqs => ?_⟩
  · rw [hcores]
    exact habandoned.frame.trans (congrArg (fun x : State => { x with clus := t.clus, regs := t.regs }) honly)
  · subst hqs
    exact congrArg (fun x : State => { x with regs := t.regs }) honly

section
variable {o : MOp} {x : CtxId} {s : State}

/-- The arrays that an instruction may use, once the results due have landed, are those it may use before. -/
theorem State.arrTrap_settle (s : State) (d c : Nat) (qs : List Nat) :
    (s.modCore d Core.settle).arrTrap c qs = s.arrTrap c qs := rfl

/-- Clean check bits leave a tile as it was read. -/
theorem State.tileEcc_clean (s : State) (a : Nat) {ecc : List TileEcc} (h : ∀ e ∈ ecc, e.obs = .clean) :
    s.tileEcc a ecc = (s, 0) := by
  induction ecc with
  | nil => rfl
  | cons e ecc ih =>
    have hstep : s.tileEcc a (e :: ecc) = s.tileEcc a ecc := by
      rw [State.tileEcc, List.foldl_cons, h e (List.mem_cons_self ..)]
      rfl
    rw [hstep, ih fun e he => h e (List.mem_cons_of_mem _ he)]

/-- MTRD of a row whose check bits are clean puts the row in flight. -/
theorem exec_mtrd {ecc : List TileEcc} (hruns : s.runs o.core x (encM 0x41 o) = true)
    (hgang : (s.found o.core).gangSettled = true) (hfree : s.arrTrap o.core [o.arr.val] = none)
    (hecc : ∀ e ∈ ecc, e.row = o.row → e.obs = .clean) :
    let k := s.found o.core
    let v := k.rowAt (k.th.cyc + 2) o.arr o.tile o.row
    let sh := if o.half then 1024 else 0
    exec (.mtrd o ecc) s = .next ((s.modCore o.core Core.settle).finish o.core x (matEff o.core [o.arr.val]
      [(4, .vreg o.vr ((BitVec.allOnes 1024).setWidth 2048 <<< sh) (v.1.setWidth 2048 <<< sh) (v.2 || k.th.vp o.vr))]
      [(Loc.t o.arr o.tile (some o.row.val), 2)])) := by
  have hmine : ∀ e ∈ ecc.filter (fun e => e.row == o.row), e.obs = .clean := fun e he =>
    hecc e (List.mem_filter.1 he).1 (eq_of_beq (List.mem_filter.1 he).2)
  have hbad : (ecc.filter (fun e => e.row == o.row)).any (fun e => e.obs == .uncorrectable) = false := by
    rw [List.any_eq_false]
    intro e he
    rw [hmine e he]
    decide
  refine congrArg Host.Outcome.next ?_
  rw [State.issue_of_runs _ hruns]
  simp only [Core.gangNow_of_settled hgang, State.arrTrap_settle, hfree, hbad, State.tileEcc_clean _ _ hmine,
    Bool.or_false]
  rfl

/-- MTWR puts a half of VR in flight for the row. -/
theorem exec_mtwr (hruns : s.runs o.core x (encM 0x42 o) = true) (hgang : (s.found o.core).gangSettled = true)
    (hfree : s.arrTrap o.core [o.arr.val] = none) :
    let k := s.found o.core
    exec (.mtwr o) s = .next ((s.modCore o.core Core.settle).finish o.core x (matEff o.core [o.arr.val]
      [(3, .trow o.arr o.tile o.row ((k.th.v o.vr).extractLsb' (if o.half then 1024 else 0) 1024) (k.th.vp o.vr))]
      [(Loc.v o.vr, 0)])) := by
  refine congrArg Host.Outcome.next ?_
  rw [State.issue_of_runs _ hruns]
  simp only [Core.gangNow_of_settled hgang, State.arrTrap_settle, hfree]
  rfl

/-- MTZERO puts a tile of zeros in flight. -/
theorem exec_mtzero (hruns : s.runs o.core x (encM 0x43 o) = true) (hgang : (s.found o.core).gangSettled = true)
    (hfree : s.arrTrap o.core [o.arr.val] = none) :
    exec (.mtzero o) s = .next ((s.modCore o.core Core.settle).finish o.core x
      (matEff o.core [o.arr.val] [(2, .tzero o.arr o.tile)] [])) := by
  refine congrArg Host.Outcome.next ?_
  rw [State.issue_of_runs _ hruns]
  simp only [Core.gangNow_of_settled hgang, State.arrTrap_settle, hfree]
  rfl

/-- GANG on a ganged core puts nothing in flight. -/
theorem exec_gang_of_ganged (hruns : s.runs o.core x (encM 0x44 o) = true)
    (hgang : (s.found o.core).gangSettled = true) (hganged : (s.found o.core).th.ganged = true) :
    exec (.gang o) s = .next ((s.modCore o.core Core.settle).finish o.core x (matEff o.core [] [] [])) := by
  refine congrArg Host.Outcome.next ?_
  rw [State.issue_of_runs _ hruns]
  simp only [Core.gangNow_of_settled hgang, hganged, if_true]
  rfl

/-- UNGANG on a core that is not ganged puts nothing in flight. -/
theorem exec_ungang_of_unganged (hruns : s.runs o.core x (encM 0x45 o) = true)
    (hgang : (s.found o.core).gangSettled = true) (hganged : (s.found o.core).th.ganged = false) :
    exec (.ungang o) s = .next ((s.modCore o.core Core.settle).finish o.core x (matEff o.core [] [] [])) := by
  refine congrArg Host.Outcome.next ?_
  rw [State.issue_of_runs _ hruns]
  simp only [Core.gangNow_of_settled hgang, hganged, Bool.false_eq_true, if_false]
  rfl

end

/-- An instruction on arrays that puts no gang change in flight has run, and has changed cores, registers and self-tests
alone. -/
theorem State.finish_matEff {s : State} {c : CoreId} (x : CtxId) (qs : List Nat) {lands : List (Nat × LandVal)}
    (reads : List (Loc × Nat)) (hgang : (s.found c).gangSettled = true)
    (hlands : lands.all (fun l => l.2.noGang) = true) {t : State}
    (ht : (s.modCore c Core.settle).finish c x (matEff c qs lands reads) = t) :
    s.ran t c lands 0 ∧ t = { s with cores := t.cores, regs := t.regs, clus := t.clus } ∧ (qs = [] → s.onlyCores t) := by
  obtain ⟨u, hu, hfinish⟩ := State.finish_straight (s.modCore c Core.settle) c x (e := matEff c qs lands reads) ⟨rfl, rfl, rfl⟩
  obtain rfl : Machine.matEffect c qs u = t := hfinish.symm.trans ht
  obtain ⟨hframe, hcores, honly⟩ := hu.matEffect qs
  have hissued := Core.gangSettled_issued (e := matEff c qs lands reads) hgang hlands
  refine ⟨State.ran_congr (hu.ran ?_) hcores, hframe, honly⟩
  exact congrArg Prod.fst (Core.gangNow_of_settled hissued)

end Sys2Proof.Machine
end

section
/-! PROOF. GANG, UNGANG and MMA: the change of the gang in flight, the pass that begins, and the trap of a fenced array
(05_cores_arrays.md R143, R144; 06_hj1_baseline.md R168, R169; 07_hj2_contract.md R204, R205, R216). -/

namespace Sys2Proof.Machine

/-! ### A change of the gang -/

/-- The effect of GANG on a core that is not ganged. -/
def gangEff (c : Nat) : Eff :=
  { lands := [(8, .gang true)], onState := matEffect c [0, 1, 2, 3]
    onCore := fun k => { k with th := { k.th with
      ganged := false, lands := k.th.lands.filter (fun l => match l.val with | .gang b => b | _ => true) } } }

/-- A core that UNGANG leaves ganged until its change lands. -/
def Core.ungangs (k : Core) : Core :=
  { k with th := { k.th with
    ganged := true, lands := k.th.lands.filter (fun l => match l.val with | .gang b => !b | _ => true) } }

/-- Does a core still have a pass, or the commit of one, in flight? -/
def Core.commitsDue (k : Core) : Bool :=
  k.passes.any (fun _ => true) || k.th.lands.any (fun l => match l.val with | .commit .. => true | _ => false)

/-- The effect of UNGANG on a ganged core. -/
def ungangEff (c : CoreId) : Eff :=
  { lands := [(8, .gang false)]
    onCore := fun k => { k.ungangs with ungangWait := k.ungangs.commitsDue }
    onState := fun s => (matEffect c [] s).passOver c (4 * c.val) }

/-- What a settled core has in flight once one result more is there: where the new one is kept, all are. -/
theorem Core.filter_lands_issued {k : Core} (h : k.gangSettled = true) {e : Eff} (f : LandVal → Bool)
    (hf : ∀ v : LandVal, v.noGang = true → f v = true) (he : e.lands.all (fun l => f l.2) = true) :
    (k.issued e).th.lands.filter (fun l => f l.val) = (k.issued e).th.lands := by
  rw [Core.gangSettled_iff, List.all_eq_true] at h
  refine List.filter_eq_self.2 (List.all_eq_true.1 ((k.th.all_push f e.lands).trans ?_))
  rw [he, Bool.true_and, List.all_eq_true]
  exact fun l hl => hf _ (h l hl)

section
variable {o : MOp} {x : CtxId} {s : State}

theorem exec_gang (hruns : s.runs o.core x (encM 0x44 o) = true) (hgang : (s.found o.core).gangSettled = true)
    (hganged : (s.found o.core).th.ganged = false)
    (hquads : ∀ q, q < 4 → s.usable (4 * o.core + q) = true ∧
      (s.modCore o.core Core.settle).inFlight (4 * o.core + q) = false) :
    exec (.gang o) s = .next ((s.modCore o.core Core.settle).finish o.core x (gangEff o.core)) := by
  have hall : [0, 1, 2, 3].all (fun q => (s.modCore o.core Core.settle).usable (4 * o.core + q) &&
      !(s.modCore o.core Core.settle).inFlight (4 * o.core + q)) = true := by
    rw [List.all_eq_true]
    intro q hq
    obtain ⟨husable, hflight⟩ := hquads q (by simp at hq; omega)
    rw [hflight]
    exact (Bool.and_true _).trans husable
  refine congrArg Host.Outcome.next ?_
  rw [State.issue_of_runs _ hruns]
  simp only [Core.gangNow_of_settled hgang, hganged, Bool.false_eq_true, if_false, hall, if_true]
  rfl

theorem exec_ungang (hruns : s.runs o.core x (encM 0x45 o) = true) (hgang : (s.found o.core).gangSettled = true)
    (hganged : (s.found o.core).th.ganged = true) :
    exec (.ungang o) s = .next ((s.modCore o.core Core.settle).finish o.core x (ungangEff o.core)) := by
  refine congrArg Host.Outcome.next ?_
  rw [State.issue_of_runs _ hruns]
  simp only [Core.gangNow_of_settled hgang, hganged, if_true]
  rfl

end

/-- A core whose gang and results in flight are written as they stand. -/
theorem Core.gang_lands_eta {k : Core} {g : Bool} {ls : List Landing} (hg : k.th.ganged = g) (hl : ls = k.th.lands) :
    ({ k with th := { k.th with ganged := g, lands := ls } } : Core) = k := by
  subst hg hl; rfl

/-- GANG puts the change in flight, and leaves the gang and what else is in flight as they were. -/
theorem Core.gangEff_issued {k : Core} (c : Nat) (h : k.gangSettled = true) (hganged : k.th.ganged = false) :
    (gangEff c).onCore (k.issued (gangEff c)) = k.issued (gangEff c) := by
  refine Core.gang_lands_eta hganged
    (Core.filter_lands_issued h (fun v => match v with | .gang b => b | _ => true) (fun v hv => ?_) rfl)
  cases v with
  | gang on => cases hv
  | _ => rfl

theorem Core.ungangs_issued {k : Core} (c : CoreId) (h : k.gangSettled = true) (hganged : k.th.ganged = true) :
    (k.issued (ungangEff c)).ungangs = k.issued (ungangEff c) := by
  refine Core.gang_lands_eta hganged
    (Core.filter_lands_issued h (fun v => match v with | .gang b => !b | _ => true) (fun v hv => ?_) rfl)
  cases v with
  | gang on => cases hv
  | _ => rfl

theorem Core.commitsDue_issued {k : Core} (c : CoreId) (hpasses : k.passes = [])
    (hcommits : k.th.lands.all (fun l => match l.val with | .commit .. => false | _ => true) = true) :
    (k.issued (ungangEff c)).commitsDue = false := by
  have hall := (k.th.all_push (fun v => match v with | .commit .. => false | _ => true) (ungangEff c).lands).trans
    hcommits
  have hnone : (k.issued (ungangEff c)).passes = [] := hpasses
  rw [Core.commitsDue, hnone, List.any_nil, Bool.false_or, List.any_eq_false]
  intro l hl hcommit
  have hno := List.all_eq_true.1 hall l hl
  cases hval : l.val <;> simp [hval] at hno hcommit

/-- UNGANG puts the change in flight; with no pass in flight it waits for none. -/
theorem Core.ungangEff_issued {k : Core} (c : CoreId) (h : k.gangSettled = true) (hganged : k.th.ganged = true)
    (hpasses : k.passes = []) (hwait : k.ungangWait = false)
    (hcommits : k.th.lands.all (fun l => match l.val with | .commit .. => false | _ => true) = true) :
    (ungangEff c).onCore (k.issued (ungangEff c)) = k.issued (ungangEff c) := by
  have hwait' : (k.issued (ungangEff c)).ungangWait = false := hwait
  change { (k.issued (ungangEff c)).ungangs with ungangWait := (k.issued (ungangEff c)).ungangs.commitsDue } = _
  rw [Core.ungangs_issued c h hganged, Core.commitsDue_issued c hpasses hcommits, ← hwait']

/-! ### Domains of fenced arrays -/

/-- An array that is not fenced keeps its domain. -/
theorem State.fencedOff_of_not {s : State} {a : Nat} (h : s.isFenced a = false) : s.fencedOff a = s := by
  unfold State.fencedOff
  rw [h]
  simp

/-- After a verdict or a retry of a core where no UNGANG waits, a fenced array's domain may go OFF. -/
theorem State.passOver_of_not_waiting {s : State} {c : CoreId} (h : (s.core c).ungangWait = false) (a : Nat) :
    s.passOver c a = s.fencedOff a := by
  unfold State.passOver
  simp only [h, Bool.false_eq_true, false_and, if_false]

/-! ### MMA -/

/-- The pass that MMA starts on a core as it finds it. -/
def mmaPass (o : MOp) (x : CtxId) (s : State) (k : Core) : Pass :=
  { arr := o.arr, tile := o.tile, acc := o.acc, fmt := o.fmt, ae := o.ae, be := o.be, k := o.k.toNat
    f := passF k.th.ganged o.fmt o.k.toNat, gang := k.th.ganged, sa := (k.th.s o.sa).toNat, sb := (k.th.s o.sb).toNat
    cyc := k.th.cyc, seq := k.th.seqNo, ctx := x, action := s.action, tol := s.tolExp, capA := [], capB := []
    poison := false, judged := 0 }

/-- MMA's pass joins those of its core; the feeders of the passes before it on its arrays have read on. -/
def mmaStart (o : MOp) (p : Pass) (k : Core) : Core :=
  { k with passes := k.passes.map (fun r => if r.gang || p.gang || r.arr == o.arr then k.capture r.f r.f r else r) ++ [p] }

/-- The effect of MMA where it need not wait. -/
def mmaEff (o : MOp) (p : Pass) : Eff :=
  { reads := [(Loc.s o.sa, 0), (Loc.s o.sb, 0)]
    later := (quads p.gang o.arr).map (fun q => (Loc.t q o.tile none, p.lat))
    banks := feedBanks p.gang p.sa p.f ++ feedBanks p.gang p.sb p.f
    onCore := fun k => mmaStart o p k.gangNow.1
    onState := matEffect o.core (quads p.gang o.arr) }

/-- Operands that lie in scratch, aligned, trap nothing. -/
theorem operandTrap_eq_none {a : Word64} {n : Nat} (hbound : a.toNat + n ≤ 0x300000) (halign : a.toNat % 64 = 0) :
    operandTrap a n = none := by
  rw [operandTrap, if_neg (Nat.not_lt.2 hbound), if_neg (by rw [halign]; decide)]

theorem exec_mma {o : MOp} {x : CtxId} {s : State} (hruns : s.runs o.core x (encM 0x40 o) = true)
    (hgang : (s.found o.core).gangSettled = true) (hpasses : (s.found o.core).passes = [])
    (harr : (s.found o.core).th.ganged = true → o.arr = 0)
    (hfree : ∀ q ∈ quads (s.found o.core).th.ganged o.arr, s.arrTrap o.core [q] = none)
    (hsa : (s.found o.core).th.sp o.sa = false) (hsb : (s.found o.core).th.sp o.sb = false) {n : Nat}
    (hn : n = (if (s.found o.core).th.ganged then 128 else 64) * passF (s.found o.core).th.ganged o.fmt o.k.toNat)
    (hta : operandTrap ((s.found o.core).th.s o.sa) n = none) (htb : operandTrap ((s.found o.core).th.s o.sb) n = none) :
    exec (.mma o) s =
      .next ((s.modCore o.core Core.settle).finish o.core x (mmaEff o (mmaPass o x s (s.found o.core)))) := by
  subst hn
  have hgang0 : ¬((s.found o.core).th.ganged = true ∧ o.arr ≠ 0) := fun h => h.2 (harr h.1)
  have htrap : s.arrTrap o.core (quads (s.found o.core).th.ganged o.arr) = none := State.arrTrap_eq_none hfree
  refine congrArg Host.Outcome.next ?_
  rw [State.issue_of_runs _ hruns]
  simp only [Core.gangNow_of_settled hgang, if_neg hgang0, State.arrTrap_settle, htrap, hsa, hsb, hta, htb, hpasses]
  rfl

/-- MMA on an array that is fenced, and neither disabled nor the retry array, traps. -/
theorem exec_mma_fenced {o : MOp} {x : CtxId} {s : State} (hruns : s.runs o.core x (encM 0x40 o) = true)
    (hgang : (s.found o.core).gangSettled = true) (hganged : (s.found o.core).th.ganged = false)
    (htrap : s.arrTrap o.core [o.arr.val] = some stARRAY_FENCED) :
    exec (.mma o) s = .next ((s.modCore o.core Core.settle).trap o.core x stARRAY_FENCED 0) := by
  refine congrArg Host.Outcome.next ?_
  rw [State.issue_of_runs _ hruns]
  simp only [Core.gangNow_of_settled hgang, hganged, Bool.false_eq_true, false_and, if_false, quads,
    State.arrTrap_settle, htrap]
  rfl

/-- An instruction on arrays that puts no gang change in flight gives these results, and changes cores, registers and
self-tests alone. -/
theorem gives_matEff {i : Instr} {s : State} {c : CoreId} {x : CtxId} {qs : List Nat} {lands : List (Nat × LandVal)}
    {reads : List (Loc × Nat)}
    (hexec : exec i s = .next ((s.modCore c Core.settle).finish c x (matEff c qs lands reads)))
    (hgang : (s.found c).gangSettled = true) (hlands : lands.all (fun l => l.2.noGang) = true) :
    Gives i s fun t =>
      s.ran t c lands 0 ∧ t = { s with cores := t.cores, regs := t.regs, clus := t.clus } ∧ (qs = [] → s.onlyCores t) :=
  ⟨_, hexec, State.finish_matEff x qs reads hgang hlands rfl⟩

/-- What GANG leaves on a core that is not ganged. -/
theorem State.finish_gangEff {s : State} {c : CoreId} (x : CtxId) (hgang : (s.found c).gangSettled = true)
    (hganged : (s.found c).th.ganged = false) {t : State}
    (ht : (s.modCore c Core.settle).finish c x (gangEff c) = t) :
    s.ran t c [(8, .gang true)] 0 ∧ t = { s with cores := t.cores, regs := t.regs, clus := t.clus } := by
  obtain ⟨u, hu, hfinish⟩ := State.finish_straight (s.modCore c Core.settle) c x (e := gangEff c) ⟨rfl, rfl, rfl⟩
  obtain rfl : matEffect c [0, 1, 2, 3] u = t := hfinish.symm.trans ht
  obtain ⟨hframe, hcores, -⟩ := hu.matEffect [0, 1, 2, 3]
  exact ⟨State.ran_congr (hu.ran (Core.gangEff_issued c hgang hganged)) hcores, hframe⟩

/-- What UNGANG leaves on a ganged core that has no pass in flight. -/
theorem State.finish_ungangEff {s : State} {c : CoreId} (x : CtxId) (hgang : (s.found c).gangSettled = true)
    (hganged : (s.found c).th.ganged = true) (hpasses : (s.found c).passes = [])
    (hwait : (s.found c).ungangWait = false) (hfenced : s.isFenced (4 * c) = false)
    (hcommits : (s.found c).th.lands.all (fun l => match l.val with | .commit .. => false | _ => true) = true)
    {t : State} (ht : (s.modCore c Core.settle).finish c x (ungangEff c) = t) :
    s.ran t c [(8, .gang false)] 0 ∧ s.onlyCores t := by
  obtain ⟨u, hu, hfinish⟩ := State.finish_straight (s.modCore c Core.settle) c x (e := ungangEff c) ⟨rfl, rfl, rfl⟩
  obtain ⟨-, hcores, honly⟩ := hu.matEffect []
  have hran := State.ran_congr (hu.ran (Core.ungangEff_issued c hgang hganged hpasses hwait hcommits)) hcores
  have hcore : ((matEffect c [] u).core c).ungangWait = false := by
    obtain ⟨⟨b, hb⟩, -⟩ := hran
    rw [hb]
    exact hwait
  have harrs : (matEffect c [] u).isFenced (4 * c) = false := by
    rw [State.isFenced, State.arr, honly rfl]
    exact hfenced
  obtain rfl : matEffect c [] u = t := by
    rw [← ht, hfinish]
    change _ = (matEffect c [] u).passOver c (4 * c.val)
    rw [State.passOver_of_not_waiting hcore, State.fencedOff_of_not harrs]
  exact ⟨hran, honly rfl⟩

/-- A core on which MMA, with no other pass in flight, has started its pass. -/
theorem mmaEff_issued {o : MOp} {p : Pass} {k : Core} (h : k.gangSettled = true) (hpasses : k.passes = []) :
    (mmaEff o p).onCore (k.issued (mmaEff o p)) = { k.issued (mmaEff o p) with passes := [p] } := by
  have hnow := Core.gangNow_of_settled (Core.gangSettled_issued (e := mmaEff o p) h rfl)
  have hnone : (k.issued (mmaEff o p)).passes = [] := hpasses
  change mmaStart o p (k.issued (mmaEff o p)).gangNow.1 = _
  rw [hnow, mmaStart, hnone]
  rfl

/-- What MMA leaves, with no other pass in flight. -/
theorem State.finish_mmaEff {s : State} {o : MOp} (x : CtxId) {p : Pass} (hgang : (s.found o.core).gangSettled = true)
    (hpasses : (s.found o.core).passes = []) {t : State}
    (ht : (s.modCore o.core Core.settle).finish o.core x (mmaEff o p) = t) :
    (∃ b, t.core o.core = { s.found o.core with
      passes := [p], banks := b
      th := { (s.found o.core).th with
        pc := (s.found o.core).th.pc + 8, cyc := (s.found o.core).th.cyc + 1
        seqNo := (s.found o.core).th.seqNo + 1 } }) ∧
      t.reg64 (pCORE o.core) 0xF20 = s.reg64 (pCORE o.core) 0xF20 + 1 ∧
      t = { s with cores := t.cores, regs := t.regs, clus := t.clus } := by
  obtain ⟨u, hu, hfinish⟩ := State.finish_straight (s.modCore o.core Core.settle) o.core x (e := mmaEff o p)
    ⟨rfl, rfl, rfl⟩
  obtain rfl : matEffect o.core (quads p.gang o.arr) u = t := hfinish.symm.trans ht
  obtain ⟨hframe, hcores, -⟩ := hu.matEffect (quads p.gang o.arr)
  have hfound : (s.modCore o.core Core.settle).core o.core = s.found o.core := State.core_modCore_same ..
  obtain ⟨b, hb⟩ := hu.core
  rw [State.core_modCore_same, hfound, mmaEff_issued hgang hpasses] at hb
  have hcount : u.reg64 (pCORE o.core) 0xF20 = s.reg64 (pCORE o.core) 0xF20 :=
    (hu.reg64 (by omega)).trans (State.reg64_congr rfl _ _)
  refine ⟨⟨b, ?_⟩, ?_, hframe⟩
  · rw [State.core, hcores, ← State.core, hb]
    simp [Core.issued, mmaEff, Thread.push, Thread.raiseFlags]
  · rw [State.reg64_matEffect _ _ (quads_lt _ _), hcount]

/-! ### The obligation -/

theorem Thread.trow_setTrow (t : Thread) (a i : Nat) (r q : Nat) (v : BitVec 1024) (po : Bool) :
    (t.setTrow a i r v po).trow a i q = if q = r then v else t.trow a i q := by
  have hkey : tkey a i q = tkey a i r ↔ q = r := by unfold tkey; omega
  rw [Thread.trow, Thread.setTrow, sget_sset]
  simp only [hkey, Thread.trow]

/-- The rows of a tile that have been zeroed. -/
theorem Thread.trow_zeroed (t : Thread) (a i : Nat) {n r : Nat} (h : r < n) :
    ((List.range n).foldl (fun t r => t.setTrow a i r 0 false) t).trow a i r = 0 := by
  induction n with
  | zero => omega
  | succ n ih =>
    rw [List.range_succ, List.foldl_append, List.foldl_cons, List.foldl_nil, Thread.trow_setTrow]
    split
    · rfl
    · exact ih (by omega)

/-- A core whose one result in flight is due. -/
theorem Core.settle_of_single {k : Core} {l : Landing} (h : k.th.lands = [l]) (hdue : l.cyc ≤ k.th.cyc) :
    k.settle = ({ k with th := { k.th with lands := [] } } : Core).land l := by
  simp only [Core.settle, h, List.length_singleton, Core.landUpTo, hdue, if_true]

/-- Settles O25: each instruction answers the effect that its `exec_` lemma names. -/
theorem matrixInstructions : Obligations.MatrixInstructions := by
  refine ⟨fun o x s hruns => ?_, fun o ecc x s hruns => ?_, fun o x s hruns => ?_, fun o x s hruns hgang hfree => ?_,
    fun k n q a i hlands hdue r hr => ?_, fun o x s hruns hgang hganged hquads => ?_, fun o x s hruns => ?_,
    fun o x s hgang => ⟨fun hruns hganged => ?_, fun hruns hganged => ?_⟩,
    fun o x s hruns hgang hganged hfuse hretry hfenced hend => ?_⟩
  · intro k f n inside hgang hpasses harr hfree ⟨habound, haalign, hapo⟩ ⟨hbbound, hbalign, hbpo⟩
    have hquads : ∀ q ∈ quads (s.found o.core).th.ganged o.arr, s.arrTrap o.core [q] = none := by
      intro q hq
      refine hfree q (quads_lt _ _ q hq) ?_
      cases hg : (s.found o.core).th.ganged with
      | true => exact .inl rfl
      | false => rw [hg] at hq; exact .inr (List.mem_singleton.1 hq)
    obtain ⟨⟨b, hcore⟩, hcount, hframe⟩ := State.finish_mmaEff x (p := mmaPass o x s (s.found o.core)) hgang hpasses rfl
    refine ⟨_, exec_mma hruns hgang hpasses harr hquads hapo hbpo rfl (operandTrap_eq_none habound haalign)
      (operandTrap_eq_none hbbound hbalign), ?_, ?_, ?_, hcount, hframe⟩
    · rw [hcore]; rfl
    · rw [hcore]
    · rw [hcore]
  · intro k hgang hfree hecc
    obtain ⟨t, ht, hran, hframe, -⟩ := gives_matEff (exec_mtrd hruns hgang hfree hecc) hgang rfl
    exact ⟨t, ht, hran, hframe⟩
  · intro k hgang hfree
    obtain ⟨t, ht, hran, hframe, -⟩ := gives_matEff (exec_mtwr hruns hgang hfree) hgang rfl
    exact ⟨t, ht, hran, hframe⟩
  · obtain ⟨t, ht, hran, hframe, -⟩ := gives_matEff (exec_mtzero hruns hgang hfree) hgang rfl
    exact ⟨t, ht, hran, hframe⟩
  · rw [Core.settle_of_single hlands hdue]
    exact Thread.trow_zeroed _ _ _ hr
  · exact ⟨_, exec_gang hruns hgang hganged hquads, State.finish_gangEff x hgang hganged rfl⟩
  · intro k hgang hganged hpasses hfenced hcommits
    have hwait : (s.found o.core).ungangWait = false := by
      rw [State.found, (Core.landed_settle _).ungangWait]
      exact State.ungangWait_of_canIssue ((s.runs_iff ..).1 hruns).1
    exact ⟨_, exec_ungang hruns hgang hganged,
      State.finish_ungangEff x hgang hganged hpasses hwait hfenced hcommits rfl⟩
  · obtain ⟨t, ht, hran, -, honly⟩ := gives_matEff (exec_gang_of_ganged hruns hgang hganged) hgang rfl
    exact ⟨t, ht, hran, honly rfl⟩
  · obtain ⟨t, ht, hran, -, honly⟩ := gives_matEff (exec_ungang_of_unganged hruns hgang hganged) hgang rfl
    exact ⟨t, ht, hran, honly rfl⟩
  · have htrap : s.arrTrap o.core [o.arr.val] = some stARRAY_FENCED := by
      simp [State.arrTrap, hfuse, hretry, hfenced]
    exact ⟨_, exec_mma_fenced hruns hgang hganged htrap, State.ctx_trap _ _ _ _ hend⟩

end Sys2Proof.Machine
end

section
/-! PROOF. Fences and self-tests of arrays: what fencing an array leaves, what a request for a test does, and how a test
ends (05_cores_arrays.md R142, R143, R145, R147 to R149). -/

namespace Sys2Proof.Machine

/-! ### What fencing leaves -/

/-- Arrays may have been fenced and counted and domains may be to go OFF; events may have been raised, and none has been
cleared. -/
structure State.Watched (s t : State) : Prop where
  frame : t = { s with
    arrs := t.arrs, pw := t.pw, regs := t.regs, pages := t.pages, log := t.log, free := t.free,
    msixPend := t.msixPend, out := t.out, dmaWait := t.dmaWait }
  reg : ∀ {q k}, q * 4096 + k < pHIF * 4096 + 0xF38 ∨ pHIF * 4096 + (0xF38 + 4) < q * 4096 + k →
    t.reg q k = s.reg q k
  evt : ∀ {p i}, bit (s.page p).evt i = true → bit (t.page p).evt i = true

/-- Raising an event clears none. -/
theorem State.evt_raise_of (s : State) (p b : Nat) {q i : Nat} (h : bit (s.page q).evt i = true) :
    bit ((s.raise p b).page q).evt i = true := by
  by_cases hq : q = p
  · subst hq
    rw [State.raise, State.page_modPage_same]
    exact (BitVec.getLsbD_or ..).trans (by rw [show (s.page q).evt.getLsbD i = true from h]; rfl)
  · rw [State.raise, State.page_modPage_ne _ _ hq]
    exact h

section
variable {s t u : State}

theorem State.Watched.refl (s : State) : s.Watched s := ⟨rfl, fun _ => rfl, id⟩

theorem State.Watched.trans (h : s.Watched t) (h' : t.Watched u) : s.Watched u where
  frame := h'.frame.trans (congrArg (fun x : State => { x with
    arrs := u.arrs, pw := u.pw, regs := u.regs, pages := u.pages, log := u.log, free := u.free,
    msixPend := u.msixPend, out := u.out, dmaWait := u.dmaWait }) h.frame)
  reg hq := (h'.reg hq).trans (h.reg hq)
  evt hevt := h'.evt (h.evt hevt)

theorem State.Watched.noted (h : s.Watched t) : ({ s with arrs := t.arrs, pw := t.pw } : State).noted t := h.frame
theorem State.Watched.cores (h : s.Watched t) : t.cores = s.cores := by rw [h.frame]
theorem State.Watched.clus (h : s.Watched t) : t.clus = s.clus := by rw [h.frame]
theorem State.Watched.ctxs (h : s.Watched t) : t.ctxs = s.ctxs := by rw [h.frame]

theorem State.Watched.reg64 (h : s.Watched t) {q k : Nat}
    (hq : q * 4096 + (k + 4) < pHIF * 4096 + 0xF38 ∨ pHIF * 4096 + (0xF38 + 4) < q * 4096 + k) :
    t.reg64 q k = s.reg64 q k := by
  rw [State.reg64, State.reg64, h.reg (by omega), h.reg (by omega)]

theorem State.watched_modArr (s : State) (a : Nat) (f : Arr → Arr) : s.Watched (s.modArr a f) :=
  ⟨rfl, fun _ => rfl, id⟩

theorem State.watched_raise (s : State) (p b : Nat) : s.Watched (s.raise p b) where
  frame := by rw [State.raise_arrs, State.raise_pw]; exact s.raise_noted p b
  reg hq := State.reg_raise_of_apart _ _ _ hq
  evt hevt := s.evt_raise_of p b hevt

/-- A fenced array's domain alone may be to go OFF. -/
theorem State.fencedOff_frame (s : State) (a : Nat) : s.fencedOff a = { s with pw := (s.fencedOff a).pw } := by
  unfold State.fencedOff
  dsimp only
  repeat' split
  all_goals rfl

theorem State.watched_fencedOff (s : State) (a : Nat) : s.Watched (s.fencedOff a) := by
  rw [State.fencedOff_frame]
  exact ⟨rfl, fun _ => rfl, id⟩

/-- A fused-off array is not fenced. -/
theorem State.fence_of_fusedOff {a : Nat} (h : s.fusedOff a = true) (cause : FenceCause) : s.fence a cause = s := by
  rw [State.fence, if_pos h]

/-- An enabled array is fenced, an event tells of it where it was not fenced before, and its domain may go OFF. -/
theorem State.fence_of_enabled {a : Nat} (h : s.fusedOff a = false) (cause : FenceCause) :
    s.fence a cause =
      (if s.isFenced a then s.modArr a (fun r => { r with fenced := some cause })
        else (s.modArr a (fun r => { r with fenced := some cause })).raise (pCLU (a / 48)) 16).fencedOff a := by
  rw [State.fence, h]
  cases s.isFenced a <;> rfl

theorem State.watched_fence (s : State) (a : Nat) (cause : FenceCause) : s.Watched (s.fence a cause) := by
  have hmark := s.watched_modArr a (fun r => { r with fenced := some cause })
  cases hfuse : s.fusedOff a with
  | true => rw [State.fence_of_fusedOff hfuse]; exact .refl s
  | false =>
    rw [State.fence_of_enabled hfuse]
    split
    · exact hmark.trans (State.watched_fencedOff ..)
    · exact (hmark.trans (State.watched_raise ..)).trans (State.watched_fencedOff ..)

theorem State.arr_congr (h : t.arrs = s.arrs) (a : Nat) : t.arr a = s.arr a := by rw [State.arr, h]; rfl

theorem State.arr_modArr (s : State) (a e : Nat) (f : Arr → Arr) :
    (s.modArr a f).arr e = if e = a then f (s.arr a) else s.arr e := sget_smod ..

/-- Fencing an enabled array changes its fence alone. -/
theorem State.arr_fence {a : Nat} (h : s.fusedOff a = false) (cause : FenceCause) (e : Nat) :
    (s.fence a cause).arr e = if e = a then { s.arr a with fenced := some cause } else s.arr e := by
  have harrs : (s.fence a cause).arrs = (s.modArr a (fun r => { r with fenced := some cause })).arrs := by
    rw [State.fence_of_enabled h, State.fencedOff_frame]
    split
    · rfl
    · exact State.raise_arrs ..
  rw [State.arr_congr harrs, State.arr_modArr]

/-- An array that is fenced anew raises its cluster's event. -/
theorem State.evt_fence {a : Nat} (hfuse : s.fusedOff a = false) (hfenced : s.isFenced a = false) (cause : FenceCause) :
    bit ((s.fence a cause).page (pCLU (a / 48))).evt 16 = true := by
  rw [State.fence_of_enabled hfuse, hfenced]
  exact (State.watched_fencedOff _ a).evt (State.evt_raise _ _ (by decide))

end

/-! ### Requests for a test -/

theorem State.accessed_wakeAgent (s : State) (d : Nat) : s.Accessed (s.wakeAgent d) := by
  unfold State.wakeAgent
  split
  · exact .refl s
  · exact List.foldlRecOn (motive := s.Accessed) _ _ (.refl s) fun t h e _ => h.trans (t.accessed_wakeOne e)

@[simp] theorem State.clu_modClu_same (s : State) (k : Nat) (f : Clu → Clu) : (s.modClu k f).clu k = f (s.clu k) := by
  rw [State.clu_modClu, if_pos rfl]

theorem State.clu_congr {s t : State} (h : t.clus = s.clus) (k : Nat) : t.clu k = s.clu k := by rw [State.clu, h]; rfl

/-- CLU_SELFTEST_STAT is a register. -/
theorem State.testStat_arrs (s : State) (cl slot result slices : Nat) :
    (s.testStat cl slot result slices).arrs = s.arrs := by rw [State.testStat, State.setReg_arrs]

theorem State.clu_testStat (s : State) (cl slot result slices k : Nat) :
    (s.testStat cl slot result slices).clu k = s.clu k :=
  State.clu_congr (by rw [State.testStat, State.setReg_clus]) k


section
variable {s t : State} {cl slot : Nat}

/-- With a test of the cluster under way a request changes the RESULT of CLU_SELFTEST_STAT alone. -/
theorem State.askTest_of_test {u : SelfTest} (h : (s.clu cl).test = some u) (slot : Nat) (nowait unfence : Bool) :
    s.askTest cl slot nowait unfence = s.setReg (pCLU cl) 0x828 (putFld (s.reg (pCLU cl) 0x828) 10 3 3) := by
  rw [State.askTest, h]
  rfl

/-- With NOWAIT a test of an array with a pass in flight is refused. -/
theorem State.askTest_refused (htest : (s.clu cl).test = none) (hslot : slot < 48)
    (hfuse : s.fusedOff (48 * cl + slot) = false) (hflight : s.inFlight (48 * cl + slot) = true) (unfence : Bool) :
    s.askTest cl slot true unfence = s.testStat cl slot 3 0 := by
  simp [State.askTest, htest, hslot, hfuse, hflight]

/-- The test that a request leaves under way. -/
def testAsked (slot : Fin 48) (unfence : Bool) : SelfTest :=
  { slot := slot, unfence := unfence, running := false, slices := 0, bad := false }

/-- What the request for a test leaves where none is under way. -/
theorem State.askTest_spec {nowait unfence : Bool} (htest : (s.clu cl).test = none) (hslot : slot < 48)
    (hfuse : s.fusedOff (48 * cl + slot) = false) (hgo : ¬(nowait = true ∧ s.inFlight (48 * cl + slot) = true))
    (ht : s.askTest cl slot nowait unfence = t) :
    t.arrs = s.arrs ∧ (t.clu cl).test = some (testAsked ⟨slot, hslot⟩ unfence) ∧
      t.reg (pCLU cl) 0x828 = BitVec.ofNat 32 slot := by
  obtain ⟨u, hu, rfl⟩ : ∃ u : State, u = (s.modClu cl (fun c => { c with test := some (testAsked ⟨slot, hslot⟩ unfence) })).testStat
      cl slot 0 0 ∧ u.wakeAgent (48 * cl + slot) = t := by
    refine ⟨_, rfl, ht ▸ ?_⟩
    simp only [State.askTest, htest, Option.isSome_none, Bool.false_eq_true, if_false, hslot, dite_true, hfuse,
      if_neg hgo, testAsked]
  have hwake := u.accessed_wakeAgent (48 * cl + slot)
  refine ⟨?_, ?_, ?_⟩
  · rw [hwake.frame, hu]; rfl
  · have hclus : (u.wakeAgent (48 * cl + slot)).clus = u.clus := by rw [hwake.frame]
    rw [State.clu_congr hclus, hu, State.clu_testStat, State.clu_modClu_same]
  · rw [hwake.reg (.inl (by decide)), hu, State.testStat, State.reg_setReg_same]
    simp

end

/-! ### The commands -/

theorem blockType_clu (cl : Fin 16) : blockType (pCLU cl) = 0x18 := by
  revert cl
  decide

/-- Disarming a page keeps its enable. -/
theorem State.pgEn_setArmed (s : State) (r : Requester) (p q : Nat) (b : Bool) :
    (s.setArmed r p b).pgEn q = s.pgEn q := by
  have hen : ((s.setArmed r p b).page q).en = (s.page q).en := by
    rw [State.page_setArmed]
    split
    · next h => subst h; exact Page.arm_en ..
    · rfl
  rw [State.pgEn, State.pgEn, hen]

theorem State.watched_setArmed (s : State) (r : Requester) (p : Nat) (b : Bool) : s.Watched (s.setArmed r p b) where
  frame := by rw [State.setArmed_eq]
  reg _ := State.reg_congr (by rw [State.setArmed_eq]) _ _
  evt {q i} h := by
    rw [State.page_setArmed]
    split
    · next hq => subst hq; rw [Page.arm_evt]; exact h
    · exact h

/-- Arrays and their passes are as they were when a page is disarmed. -/
theorem State.arrs_setArmed (s : State) (r : Requester) (p : Nat) (b : Bool) : (s.setArmed r p b).arrs = s.arrs := by
  rw [State.setArmed_eq]

theorem State.clu_setArmed (s : State) (r : Requester) (p : Nat) (b : Bool) (k : Nat) :
    (s.setArmed r p b).clu k = s.clu k := State.clu_congr (by rw [State.setArmed_eq]) k

theorem State.fusedOff_setArmed (s : State) (r : Requester) (p : Nat) (b : Bool) (a : Nat) :
    (s.setArmed r p b).fusedOff a = s.fusedOff a := by rw [State.setArmed_eq]; rfl

theorem State.isFenced_setArmed (s : State) (r : Requester) (p : Nat) (b : Bool) (a : Nat) :
    (s.setArmed r p b).isFenced a = s.isFenced a := by rw [State.setArmed_eq]; rfl

theorem State.inFlight_setArmed (s : State) (r : Requester) (p : Nat) (b : Bool) (a : Nat) :
    (s.setArmed r p b).inFlight a = s.inFlight a := by
  have hregs : (s.setArmed r p b).regs = s.regs := by rw [State.setArmed_eq]
  have hcores : (s.setArmed r p b).cores = s.cores := by rw [State.setArmed_eq]
  simp only [State.inFlight, State.core, State.retryArr, State.clu_setArmed, State.reg_congr hregs, hcores]

section
variable {r : Requester} {cl : Fin 16} {s : State}

theorem exec_cluFence (v : Word32) (h : s.admits r (pCLU cl) 0x820 = true) :
    exec (.cluFence r cl v) s = .next ((s.setArmed r (pCLU cl) false).fenceCmd cl (putFld v 8 2 1)) :=
  congrArg Host.Outcome.next (State.write_of_admits (by decide) _ (by rw [blockType_clu]; decide) h)

theorem exec_cluUnfence (v : Word32) (h : s.admits r (pCLU cl) 0x820 = true) :
    exec (.cluUnfence r cl v) s = .next ((s.setArmed r (pCLU cl) false).fenceCmd cl (putFld v 8 2 2)) :=
  congrArg Host.Outcome.next (State.write_of_admits (by decide) _ (by rw [blockType_clu]; decide) h)

theorem exec_cluSelftestCmd (v : Word32) (h : s.admits r (pCLU cl) 0x824 = true) :
    exec (.cluSelftestCmd r cl v) s = .next ((s.setArmed r (pCLU cl) false).selftestCmd cl v) :=
  congrArg Host.Outcome.next (State.write_of_admits (by decide) _ (by rw [blockType_clu]; decide) h)

end

/-- The fields of a command word whose OP is set. -/
theorem fenceCmd_fields (v : Word32) {op : Nat} (h : op < 4) :
    fld (putFld v 8 2 op) 0 6 = fld v 0 6 ∧ fld (putFld v 8 2 op) 8 2 = op :=
  ⟨fld_putFld_apart _ _ (by decide) (by decide), (fld_putFld_same _ _ (by decide)).trans (Nat.mod_eq_of_lt h)⟩

section
variable {s : State} {cl : Nat} {v : Word32}

theorem State.fenceCmd_fence (hen : s.pgEn (pCLU cl) = true) (hslot : fld v 0 6 < 48) :
    s.fenceCmd cl (putFld v 8 2 1) = s.fence (48 * cl + fld v 0 6) .driver := by
  obtain ⟨hfslot, hfop⟩ := fenceCmd_fields v (op := 1) (by decide)
  simp [State.fenceCmd, hfslot, hfop, hen, hslot]

theorem State.fenceCmd_no_array (h : 48 ≤ fld v 0 6 ∨ s.fusedOff (48 * cl + fld v 0 6) = true) :
    s.fenceCmd cl (putFld v 8 2 1) = s := by
  obtain ⟨hfslot, hfop⟩ := fenceCmd_fields v (op := 1) (by decide)
  by_cases hslot : 48 ≤ fld v 0 6
  · simp [State.fenceCmd, hfslot, hslot]
  · have hfuse := h.resolve_left hslot
    simp [State.fenceCmd, hfslot, hfop, State.fence_of_fusedOff hfuse]

theorem State.fenceCmd_unfence (hen : s.pgEn (pCLU cl) = true) (hslot : fld v 0 6 < 48)
    (hfenced : s.isFenced (48 * cl + fld v 0 6) = true) :
    s.fenceCmd cl (putFld v 8 2 2) = s.askTest cl (fld v 0 6) false true := by
  obtain ⟨hfslot, hfop⟩ := fenceCmd_fields v (op := 2) (by decide)
  simp [State.fenceCmd, hfslot, hfop, hen, hslot, hfenced]

theorem State.selftestCmd_go (hen : s.pgEn (pCLU cl) = true) (hgo : bit v 9 = true) :
    s.selftestCmd cl v = s.askTest cl (fld v 0 6) (bit v 8) false := by
  rw [State.selftestCmd, if_pos ⟨hgo, hen⟩]

end

/-! ### Slices -/

/-- A slice starts on an array that is drained and ON. -/
theorem exec_selftestSliceStart {cl : Fin 16} {u : SelfTest} {s : State} (htest : (s.clu cl).test = some u)
    (hrunning : u.running = false) (hflight : s.inFlight (48 * cl.val + u.slot.val) = false)
    (hon : s.domOn (48 * cl.val + u.slot.val) = true) :
    exec (.selftestSliceStart cl) s = .next (s.modClu cl (fun c => { c with test := some { u with running := true } })) := by
  refine congrArg Host.Outcome.next ?_
  simp only [htest, hrunning, hflight, hon, Bool.false_eq_true, Bool.not_true, or_self, if_false]

/-- A test after one slice more. -/
def SelfTest.sliced (u : SelfTest) (pass : Bool) : SelfTest :=
  { u with running := false, slices := u.slices + 1, bad := u.bad || !pass }

/-- A slice below the 32nd is counted in the test. -/
theorem exec_selftestSliceDone {cl : Fin 16} {u : SelfTest} {s : State} (pass : Bool)
    (htest : (s.clu cl).test = some u) (hrunning : u.running = true) :
    exec (.selftestSliceDone cl pass) s = .next (
      if u.slices + 1 < 32 then
        (s.modClu cl (fun c => { c with test := some (u.sliced pass) })).testStat cl u.slot 0 (u.slices + 1)
      else s.testOver cl (u.sliced pass) (!(u.bad || !pass))) := by
  refine congrArg Host.Outcome.next ?_
  simp only [htest, hrunning, Bool.not_true, Bool.false_eq_true, if_false]
  rfl

/-- A test is over, its result shown and counted and its event raised, before the array is fenced or unfenced. -/
def State.testEnded (s : State) (cl : Nat) (u : SelfTest) (pass : Bool) : State :=
  (((s.modClu cl (fun c => { c with test := none })).testStat cl u.slot (if pass then 1 else 2) 32).inc
    (pCLU cl) 0xF10).raise (pCLU cl) 17

theorem State.testOver_eq (s : State) (cl : Nat) (u : SelfTest) (pass : Bool) :
    s.testOver cl u pass =
      if !pass then (s.testEnded cl u pass).fence (48 * cl + u.slot) .selfTest
      else if u.unfence then (s.testEnded cl u pass).modArr (48 * cl + u.slot) (fun r => { r with fenced := none })
      else (s.testEnded cl u pass).fencedOff (48 * cl + u.slot) := rfl

/-- The end of a test fences the array or unfences it, or leaves its fence. -/
theorem State.watched_testOver (s : State) (cl : Nat) (u : SelfTest) (pass : Bool) :
    (s.testEnded cl u pass).Watched (s.testOver cl u pass) := by
  rw [State.testOver_eq]
  split
  · exact State.watched_fence ..
  split
  · exact State.watched_modArr ..
  · exact State.watched_fencedOff ..

/-- What a test leaves that is over. -/
theorem State.testEnded_spec (s : State) {cl : Nat} (u : SelfTest) (pass : Bool) {t : State}
    (ht : s.testEnded cl u pass = t) :
    (t.clu cl).test = none ∧ t.reg64 (pCLU cl) 0xF10 = s.reg64 (pCLU cl) 0xF10 + 1 ∧
      bit (t.page (pCLU cl)).evt 17 = true ∧ t.arrs = s.arrs ∧ t.nv = s.nv := by
  subst ht
  unfold State.testEnded
  refine ⟨?_, ?_, State.evt_raise _ _ (by decide), ?_, ?_⟩
  · rw [State.clu_congr (State.raise_clus ..), State.clu_congr (State.inc_clus ..), State.clu_testStat,
      State.clu_modClu_same]
  · rw [State.reg64_raise_of_apart _ _ _ (by simp only [pCLU, pHIF]; omega), State.reg64_inc_same, State.testStat,
      State.reg64_setReg_ne _ _ (by omega)]
    rfl
  · rw [State.raise_arrs, State.inc_arrs, State.testStat_arrs, State.modClu_arrs]
  · rw [State.raise_nv, State.inc_nv, State.testStat, State.setReg_nv, State.modClu_nv]

/-- What the end of a test leaves of its array. -/
theorem State.testOver_arrs (s : State) (cl : Nat) (u : SelfTest) (pass : Bool) {t : State}
    (ht : s.testOver cl u pass = t) :
    (pass = false → s.fusedOff (48 * cl + u.slot) = false → (t.arr (48 * cl + u.slot)).fenced = some .selfTest) ∧
      (pass = true → u.unfence = true → (t.arr (48 * cl + u.slot)).fenced = none) ∧
      (pass = true → u.unfence = false → t.arrs = s.arrs) := by
  obtain ⟨-, -, -, harrs, hnv⟩ := s.testEnded_spec (cl := cl) u pass rfl
  rw [State.testOver_eq] at ht
  refine ⟨fun hpass hfuse => ?_, fun hpass hunfence => ?_, fun hpass hunfence => ?_⟩
  · have hfuse' : (s.testEnded cl u pass).fusedOff (48 * cl + u.slot) = false := by
      rw [State.fusedOff, State.fuse, hnv]; exact hfuse
    rw [hpass] at ht hfuse'
    rw [← ht]
    exact (congrArg Arr.fenced ((State.arr_fence hfuse' ..).trans (if_pos rfl)))
  · rw [hpass, hunfence] at ht
    change (s.testEnded cl u true).modArr (48 * cl + u.slot) (fun r => { r with fenced := none }) = t at ht
    rw [← ht, State.arr_modArr, if_pos rfl]
  · rw [hpass, hunfence] at ht
    rw [hpass] at harrs
    change (s.testEnded cl u true).fencedOff (48 * cl + u.slot) = t at ht
    rw [← ht, State.fencedOff_frame, harrs]

/-- Settles O27: each command answers the state that its `exec_` lemma names. -/
theorem fencesAndSelfTests : Obligations.FencesAndSelfTests := by
  refine ⟨fun r cl v s => ?_, fun r cl v s hadm hno => ?_, fun r cl v s => ?_, fun r cl v s => ?_,
    fun cl u s htest hrunning hflight hon => ?_, fun cl pass u s htest hrunning => ?_⟩
  · intro a hadm hen hslot hfuse
    have hexec := exec_cluFence v hadm
    rw [State.fenceCmd_fence ((s.pgEn_setArmed ..).trans hen) hslot] at hexec
    have hfuse' := (s.fusedOff_setArmed r (pCLU cl) false a).trans hfuse
    have harr := State.arr_fence hfuse' .driver
    have hold := State.arr_congr (s.arrs_setArmed r (pCLU cl) false)
    have hclu : a / 48 = cl := by omega
    refine ⟨_, hexec, ?_, ?_, fun e he => ?_, fun hfenced => ?_,
      ((s.watched_setArmed ..).trans (State.watched_fence ..)).noted⟩
    · rw [harr a, if_pos rfl]
    · rw [harr a, if_pos rfl, hold]
    · rw [harr e, if_neg he, hold]
    · have hevt := State.evt_fence hfuse' ((s.isFenced_setArmed ..).trans hfenced) .driver
      rwa [hclu] at hevt
  · refine ⟨_, exec_cluFence v hadm, ?_⟩
    rw [State.fenceCmd_no_array (by rw [State.fusedOff_setArmed]; exact hno), State.setArmed_eq]
  · intro a hadm hen hslot hfuse hfenced
    have hexec := exec_cluUnfence v hadm
    rw [State.fenceCmd_unfence ((s.pgEn_setArmed ..).trans hen) hslot ((s.isFenced_setArmed ..).trans hfenced)] at hexec
    have hclu := s.clu_setArmed r (pCLU cl) false cl
    cases htest : (s.clu cl).test with
    | none =>
      obtain ⟨harrs, hasked, -⟩ := State.askTest_spec (nowait := false) (unfence := true)
        (by rw [hclu]; exact htest) hslot ((s.fusedOff_setArmed ..).trans hfuse) (fun h => nomatch h.1) rfl
      exact ⟨_, hexec, by rw [harrs, State.arrs_setArmed], _, hasked, rfl, rfl, rfl, rfl, rfl⟩
    | some u =>
      rw [State.askTest_of_test (by rw [hclu]; exact htest)] at hexec
      refine ⟨_, hexec, s.arrs_setArmed .., hclu ▸ htest, ?_⟩
      rw [State.reg_setReg_same]
      exact fld_putFld_same _ _ (by decide)
  · intro a hadm hen hgo hslot hfuse htest
    have hexec := exec_cluSelftestCmd v hadm
    rw [State.selftestCmd_go ((s.pgEn_setArmed ..).trans hen) hgo] at hexec
    have htest' : ((s.setArmed r (pCLU cl) false).clu cl).test = none := by rw [State.clu_setArmed]; exact htest
    have hfuse' := (s.fusedOff_setArmed r (pCLU cl) false a).trans hfuse
    have hflight := s.inFlight_setArmed r (pCLU cl) false a
    by_cases hrefuse : bit v 8 = true ∧ s.inFlight a = true
    · rw [hrefuse.1, State.askTest_refused htest' hslot hfuse' (hflight.trans hrefuse.2)] at hexec
      refine ⟨_, hexec, by rw [State.testStat_arrs, State.arrs_setArmed], ?_⟩
      rw [if_pos hrefuse]
      refine ⟨by rw [State.clu_testStat]; exact htest', ?_⟩
      rw [State.testStat, State.reg_setReg_same]
      simp
    · obtain ⟨harrs, hasked, hstat⟩ := State.askTest_spec (unfence := false) htest' hslot hfuse'
        (by rw [hflight]; exact hrefuse) rfl
      refine ⟨_, hexec, by rw [harrs, State.arrs_setArmed], ?_⟩
      rw [if_neg hrefuse]
      exact ⟨_, hasked, rfl, rfl, rfl, rfl, rfl, hstat⟩
  · have hclu (e : Nat) := s.clu_modClu cl e (fun c => { c with test := some { u with running := true } })
    refine ⟨_, exec_selftestSliceStart htest hrunning hflight hon, ?_, ?_, fun e he => ?_, rfl⟩
    · rw [hclu, if_pos rfl]
    · rw [hclu, if_pos rfl]
    · rw [hclu, if_neg he]
  · refine ⟨_, exec_selftestSliceDone pass htest hrunning, fun hslices => ?_, fun hslices => ?_⟩
    · rw [if_pos (by omega)]
      refine ⟨?_, State.testStat_arrs .., by rw [State.testStat]; rfl⟩
      rw [State.clu_testStat, State.clu_modClu_same]
      rfl
    · rw [if_neg (by omega)]
      have hwatched := s.watched_testOver cl (u.sliced pass) (!(u.bad || !pass))
      obtain ⟨hnone, hcount, hevt, -, -⟩ := s.testEnded_spec (cl := cl) (u.sliced pass) (!(u.bad || !pass)) rfl
      obtain ⟨hbad, hunfence, hkeep⟩ := s.testOver_arrs cl (u.sliced pass) (!(u.bad || !pass)) rfl
      refine ⟨?_, ?_, hwatched.evt hevt, fun h => hbad (by rw [h]; rfl), fun h => hunfence (by rw [h]; rfl),
        fun h => hkeep (by rw [h]; rfl)⟩
      · rw [State.clu_congr hwatched.clus, hnone]
      · rw [hwatched.reg64 (by simp only [pCLU, pHIF]; omega), hcount]

end Sys2Proof.Machine
end

section
/-! PROOF. Verdicts and retries: what counting, logging and handling a mismatch leave, the commit that a pass puts in
flight, and the end of a retry (05_cores_arrays.md R125, R132 to R142). -/

namespace Sys2Proof.Machine

/-! ### What happens beside the arrays' pages -/

/-- A register of a cluster's or an array's page. -/
def OnArrays (q k : Nat) : Prop := ((0xC0 ≤ q ∧ q < 0xD0) ∨ 0x400 ≤ q) ∧ k < 0x1000

/-- No register of a cluster's or an array's page, no page header and no array's fence or count has changed. -/
structure State.Beside (s t : State) : Prop where
  reg : ∀ {q k}, OnArrays q k → t.reg q k = s.reg q k
  pages : t.pages = s.pages
  arrs : t.arrs = s.arrs

section
variable {s t u : State}

theorem State.Beside.trans (h : s.Beside t) (h' : t.Beside u) : s.Beside u where
  reg hq := (h'.reg hq).trans (h.reg hq)
  pages := h'.pages.trans h.pages
  arrs := h'.arrs.trans h.arrs

theorem State.Beside.reg64 (h : s.Beside t) {q k : Nat} (hq : OnArrays q (k + 4)) : t.reg64 q k = s.reg64 q k := by
  rw [State.reg64, State.reg64, h.reg hq, h.reg ⟨hq.1, by have := hq.2; omega⟩]

theorem State.Beside.page (h : s.Beside t) (p : Nat) : t.page p = s.page p := by rw [State.page, h.pages]; rfl

theorem State.beside_modClu (s : State) (k : Nat) (f : Clu → Clu) : s.Beside (s.modClu k f) := ⟨fun _ => rfl, rfl, rfl⟩

theorem State.beside_modCore (s : State) (c : Nat) (f : Core → Core) : s.Beside (s.modCore c f) :=
  ⟨fun _ => rfl, rfl, rfl⟩

/-- Counting on a core's page. -/
theorem State.beside_incCore (s : State) (c : CoreId) {o : Nat} (n : Nat) (ho : o + 4 < 0x1000) :
    s.Beside (s.inc (pCORE c) o n) where
  reg {q k} hq := by
    have hc := c.isLt
    unfold OnArrays at hq
    exact State.reg_inc_of_apart _ _ (by simp only [pCORE]; omega)
  pages := rfl
  arrs := rfl

/-- Detecting an error writes registers of the ERR and AON pages alone. -/
theorem State.reg_detect_of_page (s : State) (cls : BitVec 2) (st : BitVec 16) (b i : Nat) (x : Option CtxId) (n : Nat)
    {q k : Nat} (hq : pERR < q) : (s.detect cls st b i x n).reg q k = s.reg q k := by
  have hcls := cls.isLt
  have hinc : (s.inc pERR (0xF00 + 8 * cls.toNat)).reg q k = s.reg q k :=
    State.reg_inc_of_apart _ _ (by simp only [pERR] at hq ⊢; omega)
  have haon (u : State) (o : Nat) (v : Word32) (ho : o < 0x1000) : (u.setReg pAON o v).reg q k = u.reg q k :=
    State.reg_setReg_ne _ _ (by simp only [pERR, pAON] at hq ⊢; omega)
  unfold State.detect
  dsimp only
  split
  · exact hinc
  split
  · exact hinc
  split
  · rw [haon _ _ _ (by decide), hinc]
  split
  · rw [haon _ _ _ (by decide), haon _ _ _ (by decide), hinc]
  · rw [haon _ _ _ (by decide), hinc]

theorem State.beside_detectOpen (s : State) (cls : BitVec 2) (st : BitVec 16) (b i : Nat) (x : Option CtxId) :
    s.Beside (s.detectOpen cls st b i x) where
  reg hq := by
    unfold OnArrays at hq
    exact State.reg_detect_of_page _ _ _ _ _ _ _ (by simp only [pERR]; omega)
  pages := State.detectOpen_pages ..
  arrs := State.detectOpen_arrs ..

theorem State.beside_stopContext (s : State) (x : CtxId) (st : BitVec 16) : s.Beside (s.stopContext x st) := by
  have hstop := s.stopped_coresStopped x st
  refine ⟨fun {q k} hq => ?_, ?_, ?_⟩
  · exact hstop.reg (by unfold OnArrays at hq; unfold OffCores; omega)
  · rw [State.stopContext_eq, State.modCtx_pages, hstop.frame]
  · rw [State.stopContext_eq, State.modCtx_arrs, hstop.frame]

end

/-! ### Commits -/

/-- The landing of a block that a pass commits. -/
def Pass.landing (p : Pass) (q : Fin 4) (b : Block) : Landing :=
  ⟨p.cyc + p.lat, p.seq, .commit q p.tile p.acc p.fmt b.cells.flatten (if p.poison then BitVec.allOnes 32 else 0)⟩

/-- A core with the commit of a block in flight. -/
def Core.committing (k : Core) (p : Pass) (q : Fin 4) (b : Block) : Core :=
  { k with th := { k.th with lands := insLand (p.landing q b) k.th.lands } }

/-- A block of a pass of which no row is uncorrectable is in flight. -/
theorem State.commitBlock_eq (s : State) (c : CoreId) (p : Pass) (q : Fin 4) (b : Block) :
    s.commitBlock c p q b 0 = s.modCore c (fun k => k.committing p q b) := rfl

/-- Before a commit the tile is read; where no check bit finds anything, nothing is logged and no row is lost. -/
theorem State.tileEcc_nil (s : State) (a : Nat) (acc : Bool) : (if acc then s.tileEcc a [] else (s, 0)) = (s, 0) :=
  ite_self _

/-! ### Mismatches counted -/

theorem State.mism_fence (s : State) (a : Nat) (cause : FenceCause) (e : Nat) :
    ((s.fence a cause).arr e).mism = (s.arr e).mism := by
  cases hfuse : s.fusedOff a with
  | true => rw [State.fence_of_fusedOff hfuse]
  | false =>
    rw [State.arr_fence hfuse]
    split
    · next he => rw [he]
    · rfl

/-- A mismatch is counted, and may fence the array. -/
theorem State.mismatch_cases (s : State) (a : Nat) :
    let u := s.modArr a (fun r => { r with mism := r.mism + 1 })
    s.mismatch a = u ∨ s.mismatch a = u.fence a .threshold := by
  unfold State.mismatch
  dsimp only
  split
  · exact .inr rfl
  · exact .inl rfl

theorem State.watched_mismatch (s : State) (a : Nat) : s.Watched (s.mismatch a) := by
  have hcount := s.watched_modArr a (fun r => { r with mism := r.mism + 1 })
  obtain h | h := s.mismatch_cases a
  · rw [h]; exact hcount
  · rw [h]; exact hcount.trans (State.watched_fence ..)

theorem State.mism_mismatch (s : State) (a : Nat) : ((s.mismatch a).arr a).mism = (s.arr a).mism + 1 := by
  have hcount : ((s.modArr a (fun r => { r with mism := r.mism + 1 })).arr a).mism = (s.arr a).mism + 1 := by
    rw [State.arr_modArr, if_pos rfl]
  obtain h | h := s.mismatch_cases a
  · rw [h, hcount]
  · rw [h, State.mism_fence, hcount]

/-- What remains after a verdict or a retry: the mismatch is counted, and the array's domain may go OFF. -/
theorem State.mism_fencedOff (s : State) (a e : Nat) : ((s.fencedOff a).arr e).mism = (s.arr e).mism := by
  rw [State.fencedOff_frame]; rfl

/-! ### The verdict -/

/-- What a verdict does about a mismatch: 0 commit and log, 1 retry, 2 halt (R137, R141). -/
def Pass.act (p : Pass) (avail : Bool) : Nat :=
  if p.action = 0 then 0 else if p.action = 1 ∧ avail = true then 1 else 2

/-- A mismatch has been counted and recorded. -/
def State.mismatchSeen (s : State) (a : ArrId) (p : Pass) (h : Checks) (act : Nat) : State :=
  ((((s.inc (pARR a) 0xF00).inc (pARR a) 0xF10).raise (pARR a) 16).modCounts p.ctx
    (fun n => { n with arrMismatch := n.arrMismatch + 1 })).lastMismatch a p h act

/-- A pass waits for the retry array, and holds its core. -/
def State.retryAsked (s : State) (cl : Nat) (j : RetryJob) : State :=
  ((s.modClu cl (fun u => { u with retryQ := u.retryQ ++ [j] })).inc (pCORE j.core) 0xF18).modCore j.core
    (fun k => { k with retrying := k.retrying + 1 })

/-- What is done about a mismatch. -/
def State.mismatchHandled (s : State) (a : ArrId) (c : CoreId) (q : Fin 4) (p : Pass) (b : Block) (act : Nat) : State :=
  if act = 0 then
    (s.detectOpen cCONTAINED stCKSUM_MISMATCH 0x1D a (some p.ctx)).modCore c (fun k => k.committing p q b)
  else if act = 1 then s.retryAsked (a.val / 48) { core := c, quad := q, pass := p }
  else s.mismatchHalt a p.ctx

section
variable {s : State} {a : ArrId} {c : CoreId} {q : Fin 4} {p : Pass} {faults : List CellFault}

/-- A pass that cannot be compared is counted so, and its block is in flight. -/
theorem State.judge_unchecked (h : p.check (p.block q faults) = none) :
    s.judge a c q p faults [] =
      (((s.inc (pARR a) 0xF00).inc (pARR a) 0xF18).modCounts p.ctx
        (fun n => { n with arrUnchecked := n.arrUnchecked + 1 })).modCore c
          (fun k => k.committing p q (p.block q faults)) := by
  simp only [State.judge, h, State.tileEcc_nil, State.commitBlock_eq]

/-- A pass whose checks hold is counted so, and its block is in flight. -/
theorem State.judge_clean {h : Checks} (hcheck : p.check (p.block q faults) = some h) (hclean : h.clean = true) :
    s.judge a c q p faults [] =
      (((s.inc (pARR a) 0xF00).inc (pARR a) 0xF08).modCounts p.ctx (fun n => { n with arrOk := n.arrOk + 1 })).modCore c
        (fun k => k.committing p q (p.block q faults)) := by
  simp only [State.judge, hcheck, hclean, if_true, State.tileEcc_nil, State.commitBlock_eq]

/-- The retry array is there as before once a mismatch is counted. -/
theorem State.retryAvail_congr {s t : State} {cl : Nat} (hreg : t.reg (pCLU cl) 0x100 = s.reg (pCLU cl) 0x100)
    (hnv : t.nv = s.nv) (harrs : t.arrs = s.arrs) : t.retryAvail cl = s.retryAvail cl := by
  simp only [State.retryAvail, State.retryArr, hreg, State.fusedOff, State.fuse, hnv, State.isFenced, State.arr, harrs]

/-- A mismatch is counted, recorded and handled as CHK_MODE had it, and may fence the array. -/
theorem State.judge_mismatch {h : Checks} (hcheck : p.check (p.block q faults) = some h) (hclean : h.clean = false) :
    s.judge a c q p faults [] =
      ((s.mismatchSeen a p h (p.act (s.retryAvail (a.val / 48)))).mismatchHandled a c q p (p.block q faults)
        (p.act (s.retryAvail (a.val / 48)))).mismatch a := by
  have havail : ((((s.inc (pARR a) 0xF00).inc (pARR a) 0xF10).raise (pARR a) 16).modCounts p.ctx
      (fun n => { n with arrMismatch := n.arrMismatch + 1 })).retryAvail (a.val / 48) = s.retryAvail (a.val / 48) := by
    have ha := a.isLt
    refine State.retryAvail_congr ?_ (by simp) (by simp [State.modCounts])
    refine (State.reg_raise_of_lt _ _ _ (by decide)).trans ?_
    rw [State.reg_inc_of_apart _ _ (by simp only [pCLU, pARR]; omega),
      State.reg_inc_of_apart _ _ (by simp only [pCLU, pARR]; omega)]
  simp only [State.judge, hcheck, hclean, Bool.false_eq_true, if_false, havail, State.tileEcc_nil, State.commitBlock_eq]
  rfl

end

/-! ### What a verdict leaves -/

theorem State.core_modCore (s : State) (c e : Nat) (f : Core → Core) :
    (s.modCore c f).core e = if e = c then f (s.core c) else s.core e := by
  split
  · next h => rw [h, State.core_modCore_same]
  · next h => exact State.core_modCore_ne _ _ h

theorem State.core_congr {s t : State} (h : t.cores = s.cores) (c : Nat) : t.core c = s.core c := by
  rw [State.core, h]; rfl

theorem State.ctx_congr {s t : State} (h : t.ctxs = s.ctxs) (x : Nat) : t.ctx x = s.ctx x := by
  rw [State.ctx, h]; rfl

/-- Counting changes registers alone. -/
theorem State.inc_frame (s : State) (p o n : Nat) : s.inc p o n = { s with regs := (s.inc p o n).regs } := rfl

/-- Two counters of an array's page have been counted. -/
theorem State.counted_twice (s : State) (a : ArrId) {o : Nat} (ho : 0xF08 ≤ o) :
    ∃ u : State, (s.inc (pARR a) 0xF00).inc (pARR a) o = u ∧ u = { s with regs := u.regs } ∧
      u.reg64 (pARR a) 0xF00 = s.reg64 (pARR a) 0xF00 + 1 ∧ u.reg64 (pARR a) o = s.reg64 (pARR a) o + 1 := by
  have hframe := s.inc_frame (pARR a) 0xF00 1
  have hpasses := s.reg64_inc_same (pARR a) 0xF00 1
  have hother := State.reg64_inc_ne s 1 (p := pARR a) (o := 0xF00) (q := pARR a) (k := o) (by omega)
  generalize s.inc (pARR a) 0xF00 = v at *
  have hkeep := State.reg64_inc_ne v 1 (p := pARR a) (o := o) (q := pARR a) (k := 0xF00) (by omega)
  have hcount := v.reg64_inc_same (pARR a) o 1
  have hframe' := v.inc_frame (pARR a) o 1
  generalize v.inc (pARR a) o = u at *
  exact ⟨u, rfl, hframe'.trans (congrArg (fun x : State => { x with regs := u.regs }) hframe),
    hkeep.trans hpasses, hcount.trans (congrArg (· + 1#64) hother)⟩

/-- What is left once a pass that is to commit has been counted. -/
theorem State.counted_spec {s t : State} {a : ArrId} {c : CoreId} {o : Nat} {x : CtxId} {f : Counts → Counts}
    {g : Core → Core} (ho : 0xF08 ≤ o) (hwait : (g (s.core c)).ungangWait = false)
    (ht : ((((s.inc (pARR a) 0xF00).inc (pARR a) o).modCounts x f).modCore c g).passOver c a = t) :
    t.reg64 (pARR a) 0xF00 = s.reg64 (pARR a) 0xF00 + 1 ∧ t.reg64 (pARR a) o = s.reg64 (pARR a) o + 1 ∧
      t.core c = g (s.core c) ∧ (∀ e, e ≠ c.val → t.core e = s.core e) ∧
      t = { s with cores := t.cores, regs := t.regs, chk := t.chk, pw := t.pw } := by
  obtain ⟨u, hu, hframe, hpasses, hcount⟩ := s.counted_twice a ho
  rw [hu] at ht
  obtain ⟨v, hv⟩ : ∃ v, v = (u.modCounts x f).modCore c g := ⟨_, rfl⟩
  have hvu : v = { u with cores := v.cores, chk := v.chk } := by rw [hv]; rfl
  have hcore (e : Nat) : v.core e = if e = c.val then g (s.core c) else s.core e := by
    have hcores : (u.modCounts x f).cores = s.cores := (State.modJob_cores ..).trans (by rw [hframe])
    rw [hv, State.core_modCore, State.core_congr hcores, State.core_congr hcores]
  rw [← hv, State.passOver_of_not_waiting (by rw [hcore, if_pos rfl]; exact hwait)] at ht
  have hwatched := ht ▸ v.watched_fencedOff a
  have hregs : v.regs = u.regs := by rw [hvu]
  refine ⟨?_, ?_, ?_, fun e he => ?_, ?_⟩
  · rw [hwatched.reg64 (by simp only [pARR, pHIF]; omega), State.reg64_congr hregs, hpasses]
  · rw [hwatched.reg64 (by simp only [pARR, pHIF]; omega), State.reg64_congr hregs, hcount]
  · rw [State.core_congr hwatched.cores, hcore, if_pos rfl]
  · rw [State.core_congr hwatched.cores, hcore, if_neg he]
  · have hoff : t = { v with pw := t.pw } := ht ▸ v.fencedOff_frame a
    have htv : t.cores = v.cores ∧ t.regs = v.regs ∧ t.chk = v.chk := by rw [hoff]; exact ⟨rfl, rfl, rfl⟩
    rw [htv.1, htv.2.1, htv.2.2, hregs]
    exact hoff.trans (congrArg (fun x : State => { x with pw := t.pw })
      (hvu.trans (congrArg (fun x : State => { x with cores := v.cores, chk := v.chk }) hframe)))

section
variable {s t : State} {a : ArrId} {c : CoreId} {q : Fin 4} {p : Pass} {h : Checks} {b : Block} {act : Nat}

/-- A mismatch is recorded in registers of the array's page below its counters. -/
theorem State.lastMismatch_eq (s : State) (a : Nat) (p : Pass) (h : Checks) (act : Nat) :
    ∃ v w, s.lastMismatch a p h act = (s.setReg (pARR a) 0x804 v).setReg64 (pARR a) 0x808 w := ⟨_, _, rfl⟩

/-- What counting and recording a mismatch leaves. -/
theorem State.mismatchSeen_spec (ht : s.mismatchSeen a p h act = t) :
    t.reg64 (pARR a) 0xF00 = s.reg64 (pARR a) 0xF00 + 1 ∧ t.reg64 (pARR a) 0xF10 = s.reg64 (pARR a) 0xF10 + 1 ∧
      bit (t.page (pARR a)).evt 16 = true ∧
      t.arrs = s.arrs ∧ t.clus = s.clus ∧ t.cores = s.cores ∧ t.ctxs = s.ctxs := by
  obtain ⟨u, hu, hframe, hpasses, hcount⟩ := s.counted_twice a (o := 0xF10) (by decide)
  obtain ⟨v, hv⟩ : ∃ v, v = (u.raise (pARR a) 16).modCounts p.ctx (fun n => { n with arrMismatch := n.arrMismatch + 1 }) :=
    ⟨_, rfl⟩
  obtain ⟨w1, w2, hlast⟩ := v.lastMismatch_eq a p h act
  have hvregs : v.regs = (u.raise (pARR a) 16).regs := by rw [hv, State.modCounts, State.modJob_regs]
  have hreg64 {o : Nat} (ho : 0xF00 ≤ o) : t.reg64 (pARR a) o = u.reg64 (pARR a) o := by
    rw [← ht, State.mismatchSeen, hu, ← hv, hlast, State.reg64_setReg64_ne _ _ (by omega),
      State.reg64_setReg_ne _ _ (by omega), State.reg64_congr hvregs,
      State.reg64_raise_of_apart _ _ _ (by simp only [pARR, pHIF]; omega)]
  have htv : t.pages = v.pages ∧ t.arrs = v.arrs ∧ t.clus = v.clus ∧ t.cores = v.cores ∧ t.ctxs = v.ctxs := by
    rw [← ht, State.mismatchSeen, hu, ← hv, hlast]
    simp
  have hvu : v.pages = (u.raise (pARR a) 16).pages ∧ v.arrs = u.arrs ∧ v.clus = u.clus ∧ v.cores = u.cores ∧
      v.ctxs = u.ctxs := by
    rw [hv, State.modCounts]
    simp
  obtain ⟨hpages, harrs, hclus, hcores, hctxs⟩ := htv
  obtain ⟨hpages', harrs', hclus', hcores', hctxs'⟩ := hvu
  refine ⟨(hreg64 (by decide)).trans hpasses, (hreg64 (by decide)).trans hcount, ?_, ?_, ?_, ?_, ?_⟩
  · rw [State.page, hpages, hpages']
    exact State.evt_raise _ _ (by decide)
  · rw [harrs, harrs', hframe]
  · rw [hclus, hclus', hframe]
  · rw [hcores, hcores', hframe]
  · rw [hctxs, hctxs', hframe]

/-- A pass that asks for a retry waits behind the others, and its core is held. -/
theorem State.retryAsked_spec {cl : Nat} {j : RetryJob} (ht : s.retryAsked cl j = t) :
    (t.clu cl).retryQ = (s.clu cl).retryQ ++ [j] ∧
      t.core j.core = { s.core j.core with retrying := (s.core j.core).retrying + 1 } ∧ s.Beside t := by
  subst ht
  refine ⟨?_, ?_, ((s.beside_modClu ..).trans (State.beside_incCore _ _ _ (by decide))).trans (State.beside_modCore ..)⟩
  · have hclus : (s.retryAsked cl j).clus = (s.modClu cl (fun u => { u with retryQ := u.retryQ ++ [j] })).clus := by
      simp [State.retryAsked]
    rw [State.clu_congr hclus, State.clu_modClu_same]
  · rw [State.retryAsked, State.core_modCore_same, State.core_congr (s := s) (by simp)]

/-- A mismatch handled as under HALT ends its context; results land on the context's cores. -/
theorem State.mismatchHalt_spec {n : Nat} {x : CtxId} (ht : s.mismatchHalt n x = t) :
    s.Beside t ∧ t.clus = s.clus ∧ (∀ e, (s.core e).Landed (t.core e)) ∧
      ((s.ctx x).endWith = none → (t.ctx x).state = .ending ∧ (t.ctx x).endWith = some stCKSUM_HALT) := by
  obtain ⟨u, hu⟩ : ∃ u, u = s.detectOpen cCONTAINED stCKSUM_MISMATCH 0x1D n (some x) := ⟨_, rfl⟩
  have hbeside : s.Beside u := hu ▸ s.beside_detectOpen ..
  have hcores : u.cores = s.cores := by rw [hu, State.detectOpen_cores]
  have hclus : u.clus = s.clus := by rw [hu, State.detectOpen_clus]
  have hctxs : u.ctxs = s.ctxs := by rw [hu, State.detectOpen_ctxs]
  have hstop := u.stopped_coresStopped x stCKSUM_HALT
  rw [State.mismatchHalt, ← hu] at ht
  subst ht
  refine ⟨hbeside.trans (u.beside_stopContext ..), ?_, fun e => ?_, fun hend => ?_⟩
  · rw [State.stopContext_eq, State.modCtx_clus, hstop.frame, hclus]
  · have hland := hstop.core e
    rw [State.core_congr hcores] at hland
    exact hland
  · exact u.ctx_stopContext _ (by rw [State.ctx_congr hctxs]; exact hend)

/-- What handling a mismatch leaves, as it is logged, retried or halted. -/
theorem State.mismatchHandled_spec (ht : s.mismatchHandled a c q p b act = t) :
    s.Beside t ∧ ((s.core c).passes = [] → (t.core c).passes = []) ∧
      (t.core c).ungangWait = (s.core c).ungangWait ∧
      (act = 0 → t.core c = (s.core c).committing p q b) ∧
      (act = 1 → (t.clu (a.val / 48)).retryQ = (s.clu (a.val / 48)).retryQ ++ [{ core := c, quad := q, pass := p }] ∧
        t.core c = { s.core c with retrying := (s.core c).retrying + 1 }) ∧
      (act ≠ 0 → act ≠ 1 → (s.ctx p.ctx).endWith = none →
        (t.ctx p.ctx).state = .ending ∧ (t.ctx p.ctx).endWith = some stCKSUM_HALT) := by
  unfold State.mismatchHandled at ht
  split at ht
  · next h0 =>
    have hcore : t.core c = (s.core c).committing p q b := by
      rw [← ht, State.core_modCore_same, State.core_congr (State.detectOpen_cores ..)]
    refine ⟨ht ▸ (s.beside_detectOpen ..).trans (State.beside_modCore ..), ?_, ?_, fun _ => hcore, fun h1 => ?_,
      fun h => absurd h0 h⟩
    · rw [hcore]; exact id
    · rw [hcore]; rfl
    · omega
  · next h0 =>
    split at ht
    · next h1 =>
      obtain ⟨hqueue, hcore, hbeside⟩ := State.retryAsked_spec ht
      refine ⟨hbeside, ?_, ?_, fun h => absurd h h0, fun _ => ⟨hqueue, hcore⟩, fun _ h => absurd h1 h⟩
      · rw [hcore]; exact id
      · rw [hcore]
    · next h1 =>
      obtain ⟨hbeside, -, hland, hend⟩ := State.mismatchHalt_spec ht
      exact ⟨hbeside, (hland c).passes, (hland c).ungangWait, fun h => absurd h h0, fun h => absurd h h1,
        fun _ _ => hend⟩

/-- What the verdict of a pass that mismatches leaves. -/
theorem State.mismatched_spec (hpasses : (s.core c).passes = []) (hwait : (s.core c).ungangWait = false)
    (ht : (((s.mismatchSeen a p h act).mismatchHandled a c q p b act).mismatch a).passOver c a = t) :
    t.reg64 (pARR a) 0xF00 = s.reg64 (pARR a) 0xF00 + 1 ∧ t.reg64 (pARR a) 0xF10 = s.reg64 (pARR a) 0xF10 + 1 ∧
      (t.arr a).mism = (s.arr a).mism + 1 ∧ bit (t.page (pARR a)).evt 16 = true ∧ (t.core c).passes = [] ∧
      (act = 0 → t.core c = (s.core c).committing p q b) ∧
      (act = 1 → (t.clu (a.val / 48)).retryQ = (s.clu (a.val / 48)).retryQ ++ [{ core := c, quad := q, pass := p }] ∧
        t.core c = { s.core c with retrying := (s.core c).retrying + 1 }) ∧
      (act ≠ 0 → act ≠ 1 → (s.ctx p.ctx).endWith = none →
        (t.ctx p.ctx).state = .ending ∧ (t.ctx p.ctx).endWith = some stCKSUM_HALT) := by
  obtain ⟨u, hu⟩ : ∃ u, s.mismatchSeen a p h act = u := ⟨_, rfl⟩
  obtain ⟨w, hw⟩ : ∃ w, u.mismatchHandled a c q p b act = w := ⟨_, rfl⟩
  obtain ⟨hcount, hmism, hevt, harrs, hclus, hcores, hctxs⟩ := State.mismatchSeen_spec hu
  obtain ⟨hbeside, hempty, hgang, hlog, hretry, hhalt⟩ := State.mismatchHandled_spec hw
  rw [State.core_congr hcores] at hempty hgang hlog hretry
  rw [State.clu_congr hclus] at hretry
  rw [State.ctx_congr hctxs] at hhalt
  have hcounted := w.watched_mismatch a
  rw [hu, hw, State.passOver_of_not_waiting (by rw [State.core_congr hcounted.cores, hgang, hwait])] at ht
  have hwatched : w.Watched t := ht ▸ hcounted.trans (State.watched_fencedOff ..)
  have hreg64 {o : Nat} (ho : o + 4 < 0x1000) : t.reg64 (pARR a) o = u.reg64 (pARR a) o :=
    (hwatched.reg64 (by simp only [pARR, pHIF]; omega)).trans
      (hbeside.reg64 ⟨by simp only [pARR]; omega, ho⟩)
  rw [State.core_congr hwatched.cores, State.clu_congr hwatched.clus, State.ctx_congr hwatched.ctxs]
  refine ⟨(hreg64 (by decide)).trans hcount, (hreg64 (by decide)).trans hmism, ?_, ?_, hempty hpasses, hlog, hretry,
    hhalt⟩
  · rw [← ht, State.mism_fencedOff, State.mism_mismatch, State.arr_congr hbeside.arrs, State.arr_congr harrs]
  · exact hwatched.evt (by rw [hbeside.page]; exact hevt)

end

/-! ### PASS_VERDICT -/

/-- Reading feed vectors leaves a pass as it began. -/
theorem Core.gang_capture (k : Core) (n fuel : Nat) (p : Pass) : (k.capture n fuel p).gang = p.gang := by
  induction fuel generalizing p with
  | zero => rfl
  | succ fuel ih =>
    unfold Core.capture
    split
    · exact ih _
    · rfl

/-- The verdict of a core's only pass, due and of one array. -/
theorem exec_passVerdict {s : State} {a : ArrId} {p : Pass} (faults : List CellFault) (ecc : List TileEcc)
    (hpasses : (s.core (coreOf a)).passes = [p]) (hgang : p.gang = false) (harr : p.arr = quadOf a) (hjudged : p.judged = 0)
    (hdue : (s.core (coreOf a)).verdictDue p = true) :
    exec (.passVerdict a faults ecc) s =
      .next (((s.setCore (coreOf a) { s.core (coreOf a) with passes := [] }).judge a (coreOf a) (quadOf a)
        ((s.core (coreOf a)).capture p.f p.f p) faults ecc).passOver (coreOf a) a) := by
  refine congrArg Host.Outcome.next ?_
  simp [hpasses, harr, hjudged, hdue, hgang, Core.gang_capture]

/-- RETRY_START gives the free retry array the oldest waiting pass. -/
theorem retryStart_gives {s : State} {cl : Fin 16} {j : RetryJob} {rest : List RetryJob}
    (hfree : (s.clu cl).serving = none) (hqueue : (s.clu cl).retryQ = j :: rest) (havail : s.retryAvail cl = true) :
    Gives (.retryStart cl) s fun t =>
      (t.clu cl).serving = some j ∧ (t.clu cl).retryQ = rest ∧ t = { s with clus := t.clus, regs := t.regs } := by
  obtain ⟨u, hu⟩ : ∃ u, u = s.modClu cl (fun v => { v with retryQ := rest, serving := some j }) := ⟨_, rfl⟩
  have hclu : u.clu cl = { s.clu cl with retryQ := rest, serving := some j } := by rw [hu, State.clu_modClu_same]
  have habandoned := u.abandoned_abandon ((s.retryArr cl).getD 0)
  obtain ⟨hrest, hserving⟩ := habandoned.clu cl
  have hexec : exec (.retryStart cl) s = .next (u.abandon ((s.retryArr cl).getD 0)) := by
    refine congrArg Host.Outcome.next ?_
    simp only [hfree, hqueue, havail, if_true, hu]
  refine ⟨_, hexec, ?_, ?_, ?_⟩
  · rw [hserving, hclu]
  · rw [hrest, hclu]
  · exact habandoned.frame.trans (by rw [hu]; rfl)

section
variable {s t : State} {a : ArrId} {c : CoreId} {q : Fin 4} {p : Pass} {faults : List CellFault} {h : Checks}

/-- What the verdict of a pass leaves that cannot be compared. -/
theorem State.judged_unchecked (hwait : (s.core c).ungangWait = false) (hcheck : p.check (p.block q faults) = none)
    (ht : (s.judge a c q p faults []).passOver c a = t) :
    t.reg64 (pARR a) 0xF00 = s.reg64 (pARR a) 0xF00 + 1 ∧ t.reg64 (pARR a) 0xF18 = s.reg64 (pARR a) 0xF18 + 1 ∧
      t.core c = (s.core c).committing p q (p.block q faults) ∧ (∀ e, e ≠ c.val → t.core e = s.core e) ∧
      t = { s with cores := t.cores, regs := t.regs, chk := t.chk, pw := t.pw } := by
  rw [State.judge_unchecked hcheck] at ht
  exact State.counted_spec (by decide) hwait ht

/-- What the verdict of a pass leaves whose checks hold. -/
theorem State.judged_clean (hwait : (s.core c).ungangWait = false) (hcheck : p.check (p.block q faults) = some h)
    (hclean : h.clean = true) (ht : (s.judge a c q p faults []).passOver c a = t) :
    t.reg64 (pARR a) 0xF00 = s.reg64 (pARR a) 0xF00 + 1 ∧ t.reg64 (pARR a) 0xF08 = s.reg64 (pARR a) 0xF08 + 1 ∧
      t.core c = (s.core c).committing p q (p.block q faults) ∧ (∀ e, e ≠ c.val → t.core e = s.core e) ∧
      t = { s with cores := t.cores, regs := t.regs, chk := t.chk, pw := t.pw } := by
  rw [State.judge_clean hcheck hclean] at ht
  exact State.counted_spec (by decide) hwait ht

/-- The cases of what is done about a mismatch. -/
theorem Pass.act_eq_zero {avail : Bool} (h : p.action = 0) : p.act avail = 0 := if_pos h

theorem Pass.act_eq_one (h : p.action = 1) : p.act true = 1 := by
  rw [Pass.act, if_neg (by rw [h]; decide), if_pos ⟨h, rfl⟩]

theorem Pass.act_eq_two {avail : Bool} (h0 : p.action ≠ 0) (h1 : p.action ≠ 1 ∨ avail = false) : p.act avail = 2 := by
  rw [Pass.act, if_neg h0, if_neg]
  rintro ⟨hretry, havail⟩
  obtain h | h := h1
  · exact h hretry
  · rw [h] at havail; cases havail

end

/-- What PASS_VERDICT of a core's only pass, due and of one array, leaves. -/
theorem passVerdict_gives (a : ArrId) (faults : List CellFault) (p0 : Pass) (s : State) :
    let c := coreOf a
    let q := quadOf a
    let k := s.core c
    let p := k.capture p0.f p0.f p0
    let b := p.block q faults
    k.passes = [p0] → p0.gang = false → p0.arr = q → p0.judged = 0 → k.verdictDue p0 = true → k.ungangWait = false →
    Gives (.passVerdict a faults []) s fun t =>
      t.reg64 (pARR a) 0xF00 = s.reg64 (pARR a) 0xF00 + 1 ∧ (t.core c).passes = [] ∧
      (∀ e, e ≠ c.val → (p.check b).any (fun h => !h.clean) = false → t.core e = s.core e) ∧
      (p.check b = none → (t.core c).th.lands = (k.committing p q b).th.lands ∧
        t.reg64 (pARR a) 0xF18 = s.reg64 (pARR a) 0xF18 + 1) ∧
      (∀ h, p.check b = some h → h.clean = true →
        (t.core c).th.lands = (k.committing p q b).th.lands ∧ t.reg64 (pARR a) 0xF08 = s.reg64 (pARR a) 0xF08 + 1 ∧
        t = { s with cores := t.cores, regs := t.regs, chk := t.chk, pw := t.pw }) ∧
      (∀ h, p.check b = some h → h.clean = false →
        t.reg64 (pARR a) 0xF10 = s.reg64 (pARR a) 0xF10 + 1 ∧ (t.arr a).mism = (s.arr a).mism + 1 ∧
        bit (t.page (pARR a)).evt 16 = true ∧
        (p.action = 0 → (t.core c).th.lands = (k.committing p q b).th.lands) ∧
        (p.action = 1 → s.retryAvail (a.val / 48) = true →
          (t.clu (a.val / 48)).retryQ = (s.clu (a.val / 48)).retryQ ++ [{ core := c, quad := q, pass := p }] ∧
          (t.core c).retrying = k.retrying + 1 ∧ (t.core c).th.lands = k.th.lands) ∧
        (p.action ≠ 0 → (p.action ≠ 1 ∨ s.retryAvail (a.val / 48) = false) → (s.ctx p.ctx).endWith = none →
          (t.ctx p.ctx).state = .ending ∧ (t.ctx p.ctx).endWith = some stCKSUM_HALT)) := by
  intro c q k p b hpasses hgang harr hjudged hdue hwait
  refine ⟨_, exec_passVerdict faults [] hpasses hgang harr hjudged hdue, ?_⟩
  obtain ⟨s', hs'⟩ : ∃ s', s.setCore c { k with passes := [] } = s' := ⟨_, rfl⟩
  obtain ⟨t, ht⟩ : ∃ t, (s'.judge a c q p faults []).passOver c a = t := ⟨_, rfl⟩
  have hframe : s' = { s with cores := s'.cores } := by rw [← hs']; rfl
  have hregs (o : Nat) : s'.reg64 (pARR a) o = s.reg64 (pARR a) o := State.reg64_congr (by rw [hframe]) _ _
  have hcore : s'.core c = { k with passes := [] } := by rw [← hs', State.core_setCore_same]
  have hothers (e : Nat) (he : e ≠ c.val) : s'.core e = s.core e := by rw [← hs', State.core_setCore_ne _ _ he]
  have hwait' : (s'.core c).ungangWait = false := by rw [hcore]; exact hwait
  rw [hs', ht]
  simp only [← hregs]
  cases hcheck : p.check b with
  | none =>
    obtain ⟨hcount, hkind, hcommit, hkeep, -⟩ := State.judged_unchecked hwait' hcheck ht
    rw [hcore] at hcommit
    refine ⟨hcount, by rw [hcommit]; rfl, fun e he _ => (hkeep e he).trans (hothers e he),
      fun _ => ⟨by rw [hcommit]; rfl, hkind⟩, ?_, ?_⟩ <;> exact fun _ h => nomatch h
  | some h =>
    cases hclean : h.clean with
    | true =>
      obtain ⟨hcount, hkind, hcommit, hkeep, honly⟩ := State.judged_clean hwait' hcheck hclean ht
      rw [hcore] at hcommit
      refine ⟨hcount, by rw [hcommit]; rfl, fun e he _ => (hkeep e he).trans (hothers e he), nofun, fun _ _ _ => ?_, ?_⟩
      · exact ⟨by rw [hcommit]; rfl, hkind, honly.trans (by rw [hframe])⟩
      · rintro _ ⟨⟩ h'
        rw [hclean] at h'
        cases h'
    | false =>
      rw [State.judge_mismatch hcheck hclean] at ht
      obtain ⟨hcount, hkind, hmism, hevt, hempty, hlog, hretry, hhalt⟩ :=
        State.mismatched_spec (by rw [hcore]) hwait' ht
      have havail : s'.retryAvail (a.val / 48) = s.retryAvail (a.val / 48) := by rw [hframe]; rfl
      have harrs : s'.arr a = s.arr a := by rw [hframe]; rfl
      have hclus : s'.clu (a.val / 48) = s.clu (a.val / 48) := by rw [hframe]; rfl
      have hctxs : s'.ctx p.ctx = s.ctx p.ctx := by rw [hframe]; rfl
      rw [havail] at hlog hretry hhalt
      rw [hcore] at hlog hretry
      rw [hclus] at hretry
      rw [hctxs] at hhalt
      rw [harrs] at hmism
      refine ⟨hcount, hempty, fun e he hany => ?_, nofun, ?_, ?_⟩
      · simp [hclean] at hany
      · rintro _ ⟨⟩ h'
        rw [hclean] at h'
        cases h'
      · refine fun _ _ _ => ⟨hkind, hmism, hevt, fun h0 => ?_, fun h1 h => ?_, fun h0 h1 hend => ?_⟩
        · rw [hlog (Pass.act_eq_zero h0)]
          rfl
        · obtain ⟨hqueue, hheld⟩ := hretry (by rw [h]; exact Pass.act_eq_one h1)
          exact ⟨hqueue, by rw [hheld], by rw [hheld]⟩
        · have hact := Pass.act_eq_two h0 h1
          exact hhalt (by rw [hact]; decide) (by rw [hact]; decide) hend

/-! ### RETRY_COMPLETE -/

/-- The retry array is free again, and its recompute counted. -/
def State.recomputed (s : State) (cl ra : Nat) : State :=
  (s.modClu cl (fun u => { u with serving := none })).inc (pARR ra) 0xF20

/-- The recompute of a pass holds: it is counted, marked and logged, and its block is in flight. -/
def State.retryHeld (s : State) (cl a : Nat) (j : RetryJob) (b : Block) : State :=
  ((((s.setReg (pARR a) 0x804 (setBit (s.reg (pARR a) 0x804) 16 true)).inc (pCLU cl) 0xF00).modCounts j.pass.ctx
    (fun n => { n with arrRetryOk := n.arrRetryOk + 1 })).detectOpen cCORRECTED stCKSUM_MISMATCH 0x1D a
      (some j.pass.ctx)).modCore j.core (fun k => k.committing j.pass j.quad b)

/-- The recompute of a pass fails again: it is counted and handled as under HALT. -/
def State.retryFailed (s : State) (cl a ra : Nat) (j : RetryJob) : State :=
  ((s.inc (pCLU cl) 0xF08).mismatchHalt a j.pass.ctx).mismatch ra

/-- The core of a retried pass is released, and domains of fenced arrays may go OFF. -/
def State.retryEnded (s : State) (j : RetryJob) (n a ra : Nat) : State :=
  ((s.retryOver j.core n).passOver j.core a).fencedOff ra

/-- Does the recompute hold, or can it not be compared? -/
def Pass.holds (p : Pass) (b : Block) : Bool := match p.check b with | none => true | some h => h.clean

theorem exec_retryComplete {s : State} {cl : Fin 16} {j : RetryJob} (faults : List CellFault) (n : Nat)
    (h : (s.clu cl).serving = some j) :
    let a := 4 * j.core.val + j.quad.val
    let ra := (s.retryArr cl).getD a
    let b := j.pass.block j.quad faults
    exec (.retryComplete cl faults [] n) s =
      .next ((if j.pass.holds b then (s.recomputed cl ra).retryHeld cl a j b
        else (s.recomputed cl ra).retryFailed cl a ra j).retryEnded j n a ra) := by
  refine congrArg Host.Outcome.next ?_
  simp only [h, State.tileEcc_nil, State.commitBlock_eq]
  rfl

theorem State.beside_fencedOff (s : State) (a : Nat) : s.Beside (s.fencedOff a) := by
  rw [State.fencedOff_frame]
  exact ⟨fun _ => rfl, rfl, rfl⟩

theorem State.beside_frozen (s : State) (c : CoreId) (n : Nat) : s.Beside (s.frozen c n) := by
  unfold State.frozen
  split
  · exact ⟨fun _ => rfl, rfl, rfl⟩
  · exact s.beside_incCore c n (by decide)

section
variable {s t : State} {cl : Fin 16} {a ra n : Nat} {j : RetryJob} {b : Block}

/-- What the end of a retry leaves. -/
theorem State.retryEnded_spec (hwait : (s.core j.core).ungangWait = false) (ht : s.retryEnded j n a ra = t) :
    t.core j.core = { s.core j.core with retrying := (s.core j.core).retrying - 1 } ∧ s.Beside t ∧ t.clus = s.clus ∧
      t.ctxs = s.ctxs := by
  have hfrozen : (s.frozen j.core n).cores = s.cores := by unfold State.frozen; split <;> simp
  obtain ⟨u, hu⟩ : ∃ u, s.retryOver j.core n = u := ⟨_, rfl⟩
  have hcore : u.core j.core = { s.core j.core with retrying := (s.core j.core).retrying - 1 } := by
    rw [← hu, State.retryOver, State.core_modCore_same, State.core_congr hfrozen]
  have hclus : u.clus = s.clus ∧ u.ctxs = s.ctxs := by
    rw [← hu, State.retryOver, State.frozen]
    split <;> simp
  have hbeside : s.Beside u := hu ▸ (s.beside_frozen j.core n).trans (State.beside_modCore ..)
  rw [State.retryEnded, hu, State.passOver_of_not_waiting (by rw [hcore]; exact hwait)] at ht
  have hoff : u.Beside t := ht ▸ (u.beside_fencedOff a).trans (State.beside_fencedOff ..)
  have hwatched : u.Watched t := ht ▸ (u.watched_fencedOff a).trans (State.watched_fencedOff ..)
  exact ⟨(State.core_congr hwatched.cores _).trans hcore, hbeside.trans hoff, hwatched.clus.trans hclus.1,
    hwatched.ctxs.trans hclus.2⟩

/-- What a recompute that holds leaves. -/
theorem State.retryHeld_spec (ht : s.retryHeld cl a j b = t) :
    t.core j.core = (s.core j.core).committing j.pass j.quad b ∧ t.clus = s.clus ∧
      t.reg64 (pCLU cl) 0xF00 = s.reg64 (pCLU cl) 0xF00 + 1 ∧ bit (t.reg (pARR a) 0x804) 16 = true := by
  have hcl := cl.isLt
  obtain ⟨u, hu⟩ : ∃ u, s.setReg (pARR a) 0x804 (setBit (s.reg (pARR a) 0x804) 16 true) = u := ⟨_, rfl⟩
  obtain ⟨v, hv⟩ : ∃ v, (u.inc (pCLU cl) 0xF00).modCounts j.pass.ctx (fun n => { n with arrRetryOk := n.arrRetryOk + 1 }) = v :=
    ⟨_, rfl⟩
  rw [State.retryHeld, hu, hv] at ht
  have hregs : v.regs = (u.inc (pCLU cl) 0xF00).regs := by rw [← hv, State.modCounts, State.modJob_regs]
  have hkept : v.cores = s.cores ∧ v.clus = s.clus := by
    rw [← hv, ← hu, State.modCounts]
    simp
  have hbeside : v.Beside t := ht ▸ (v.beside_detectOpen ..).trans (State.beside_modCore ..)
  refine ⟨?_, ?_, ?_, ?_⟩
  · rw [← ht, State.core_modCore_same, State.core_congr (State.detectOpen_cores ..), State.core_congr hkept.1]
  · rw [← ht, State.modCore_clus, State.detectOpen_clus, hkept.2]
  · rw [hbeside.reg64 (by simp only [OnArrays, pCLU]; omega), State.reg64_congr hregs, State.reg64_inc_same, ← hu,
      State.reg64_setReg_ne _ _ (by simp only [pCLU, pARR]; omega)]
    rfl
  · rw [hbeside.reg (by simp only [OnArrays, pARR]; omega), State.reg_congr hregs,
      State.reg_inc_of_apart _ _ (by simp only [pCLU, pARR]; omega), ← hu, State.reg_setReg_same, bit_setBit_hold]

/-- What a recompute that fails again leaves. -/
theorem State.retryFailed_spec (ht : s.retryFailed cl a ra j = t) :
    (s.core j.core).Landed (t.core j.core) ∧ t.clus = s.clus ∧
      t.reg64 (pCLU cl) 0xF08 = s.reg64 (pCLU cl) 0xF08 + 1 ∧
      ((s.ctx j.pass.ctx).endWith = none →
        (t.ctx j.pass.ctx).state = .ending ∧ (t.ctx j.pass.ctx).endWith = some stCKSUM_HALT) := by
  have hcl := cl.isLt
  obtain ⟨u, hu⟩ : ∃ u, (s.inc (pCLU cl) 0xF08).mismatchHalt a j.pass.ctx = u := ⟨_, rfl⟩
  obtain ⟨hbeside, hclus, hland, hend⟩ := State.mismatchHalt_spec hu
  have hcount := s.reg64_inc_same (pCLU cl) 0xF08 1
  rw [State.retryFailed, hu] at ht
  have hwatched : u.Watched t := ht ▸ u.watched_mismatch ra
  rw [State.core_congr hwatched.cores, State.ctx_congr hwatched.ctxs]
  refine ⟨hland j.core, hwatched.clus.trans hclus, ?_, hend⟩
  rw [hwatched.reg64 (by simp only [pCLU, pHIF]; omega), hbeside.reg64 (by simp only [OnArrays, pCLU]; omega)]
  exact hcount

/-- What counting the recompute leaves. -/
theorem State.recomputed_spec (ht : s.recomputed cl ra = t) :
    (t.clu cl).serving = none ∧ t.cores = s.cores ∧ t.ctxs = s.ctxs ∧
      t.reg64 (pCLU cl) 0xF00 = s.reg64 (pCLU cl) 0xF00 ∧ t.reg64 (pCLU cl) 0xF08 = s.reg64 (pCLU cl) 0xF08 := by
  have hcl := cl.isLt
  have hreg64 {o : Nat} (ho : o < 0x1000) : t.reg64 (pCLU cl) o = s.reg64 (pCLU cl) o := by
    rw [← ht, State.recomputed, State.reg64_inc_ne _ _ (by simp only [pCLU, pARR]; omega)]
    exact State.reg64_congr rfl _ _
  have hclus : t.clus = (s.modClu cl (fun u => { u with serving := none })).clus := by
    rw [← ht, State.recomputed, State.inc_clus]
  refine ⟨?_, by simp [← ht, State.recomputed], by simp [← ht, State.recomputed], hreg64 (by decide), hreg64 (by decide)⟩
  rw [State.clu_congr hclus, State.clu_modClu_same]

end

/-- What RETRY_COMPLETE leaves, the recompute good or not. -/
theorem retryComplete_gives (cl : Fin 16) (faults : List CellFault) (n : Nat) (j : RetryJob) (s : State) :
    let b := j.pass.block j.quad faults
    let good := j.pass.holds b
    (s.clu cl).serving = some j → (s.core j.core).ungangWait = false →
    Gives (.retryComplete cl faults [] n) s fun t =>
      (t.clu cl).serving = none ∧ (t.core j.core).retrying = (s.core j.core).retrying - 1 ∧
      (good = true → (t.core j.core).th.lands = ((s.core j.core).committing j.pass j.quad b).th.lands ∧
        t.reg64 (pCLU cl) 0xF00 = s.reg64 (pCLU cl) 0xF00 + 1 ∧
        bit (t.reg (pARR (4 * j.core.val + j.quad.val)) 0x804) 16 = true) ∧
      (good = false → (s.ctx j.pass.ctx).endWith = none →
        t.reg64 (pCLU cl) 0xF08 = s.reg64 (pCLU cl) 0xF08 + 1 ∧
        (t.ctx j.pass.ctx).state = .ending ∧ (t.ctx j.pass.ctx).endWith = some stCKSUM_HALT) := by
  intro b good hserving hwait
  have hclu {o : Nat} (ho : o + 4 < 0x1000) : OnArrays (pCLU cl) (o + 4) := by simp only [OnArrays, pCLU]; omega
  refine ⟨_, exec_retryComplete faults n hserving, ?_⟩
  generalize 4 * j.core.val + j.quad.val = a
  generalize (s.retryArr cl).getD a = ra
  obtain ⟨u, hu⟩ : ∃ u, s.recomputed cl ra = u := ⟨_, rfl⟩
  obtain ⟨hfree, hcores, hctxs, hheld, hfailed⟩ := State.recomputed_spec hu
  rw [hu, ← State.core_congr hcores, ← State.ctx_congr hctxs, ← hheld, ← hfailed]
  rw [← State.core_congr hcores] at hwait
  cases hgood : good with
  | true =>
    rw [if_pos hgood]
    obtain ⟨v, hv⟩ : ∃ v, u.retryHeld cl a j b = v := ⟨_, rfl⟩
    obtain ⟨hcore, hclus, hcount, hmark⟩ := State.retryHeld_spec hv
    obtain ⟨t, ht⟩ : ∃ t, v.retryEnded j n a ra = t := ⟨_, rfl⟩
    obtain ⟨hcore', hbeside, hclus', -⟩ := State.retryEnded_spec (by rw [hcore]; exact hwait) ht
    rw [hv, ht]
    refine ⟨?_, ?_, fun _ => ⟨?_, ?_, ?_⟩, nofun⟩
    · rw [State.clu_congr (hclus'.trans hclus), hfree]
    · rw [hcore', hcore]
      rfl
    · rw [hcore', hcore]
    · rw [hbeside.reg64 (hclu (by decide)), hcount]
    · rw [hbeside.reg (by simp only [OnArrays, pARR]; omega), hmark]
  | false =>
    rw [if_neg (Bool.eq_false_iff.mp hgood)]
    obtain ⟨v, hv⟩ : ∃ v, u.retryFailed cl a ra j = v := ⟨_, rfl⟩
    obtain ⟨hland, hclus, hcount, hend⟩ := State.retryFailed_spec hv
    obtain ⟨t, ht⟩ : ∃ t, v.retryEnded j n a ra = t := ⟨_, rfl⟩
    obtain ⟨hcore', hbeside, hclus', hctxs'⟩ := State.retryEnded_spec (hland.ungangWait.trans hwait) ht
    rw [hv, ht]
    refine ⟨?_, ?_, nofun, fun _ hnone => ⟨?_, ?_⟩⟩
    · rw [State.clu_congr (hclus'.trans hclus), hfree]
    · rw [hcore', hland.retrying]
    · rw [hbeside.reg64 (hclu (by decide)), hcount]
    · rw [State.ctx_congr hctxs']
      exact hend hnone

/-- Settles O26: a verdict counts the pass, and commits, retries or halts it by its checks and CHK_MODE (R125, R132 to
R137); the free retry array takes the oldest waiting pass and, done, commits it or ends its context (R139 to R142). -/
theorem passVerdictsAndRetries : Obligations.PassVerdictsAndRetries := by
  unfold Obligations.PassVerdictsAndRetries
  exact ⟨passVerdict_gives, fun _ _ _ _ => retryStart_gives, retryComplete_gives⟩

end Sys2Proof.Machine
end

section
/-! PROOF. What an instruction of a core leaves: the cycles that pass, results in flight with nothing else changed, jumps
and traps (06_hj1_baseline.md R155, R160, R184, R185; 07_hj2_contract.md R211, R216). -/

namespace Sys2Proof.Machine

/-! ### Cycles of a core -/

/-- `n` cycles have passed on core `c`, in which its thread's cycle and its bank accesses alone have changed and cycles
were counted on its page. -/
structure State.Passed (s : State) (c : CoreId) (n : Nat) (t : State) : Prop where
  frame : s.onlyCores t
  core : ∃ b, t.core c = { s.core c with
    th := { (s.core c).th with cyc := (s.core c).th.cyc + n }, banks := b }
  others : ∀ e, e ≠ c.val → t.core e = s.core e
  reg : ∀ {q k}, (q * 4096 + k < pCORE c * 4096 + 0xF00 ∨ pCORE c * 4096 + 0xF14 < q * 4096 + k) →
    t.reg q k = s.reg q k

section
variable {s t : State} {c : CoreId} {n : Nat}

theorem State.passed_ticked (s : State) (c : CoreId) (n : Nat) : s.Passed c n (s.ticked c n) where
  frame := rfl
  core := ⟨_, State.core_setCore_same ..⟩
  others _ he := State.core_setCore_ne _ _ he
  reg _ := rfl

/-- Counting cycles of a core on its page. -/
theorem State.Passed.inc (h : s.Passed c n t) {o : Nat} (m : Nat) (ho : 0xF00 ≤ o) (ho' : o ≤ 0xF10) :
    s.Passed c n (t.inc (pCORE c) o m) where
  frame := by
    have hframe : t = _ := h.frame
    exact congrArg (fun u : State => { u with regs := (t.inc (pCORE c) o m).regs }) hframe
  core := h.core
  others := h.others
  reg hq := (State.reg_inc_of_apart _ _ (by omega)).trans (h.reg hq)

theorem State.passed_coreCycles (s : State) (c : CoreId) (n : Nat) : s.Passed c n (s.coreCycles c n) := by
  have hcycles := (s.passed_ticked c n).inc n (o := 0xF00) (by decide) (by decide)
  obtain h | ⟨m, h⟩ := s.coreCycles_cases c n
  · exact h ▸ hcycles
  · exact h ▸ (hcycles.inc m (by decide) (by decide)).inc m (by decide) (by decide)

theorem State.Passed.ctx (h : s.Passed c n t) (x : Nat) : t.ctx x = s.ctx x := by rw [State.ctx, h.frame]; rfl

theorem State.Passed.reg64 (h : s.Passed c n t) {q k : Nat}
    (hq : q * 4096 + (k + 4) < pCORE c * 4096 + 0xF00 ∨ pCORE c * 4096 + 0xF14 < q * 4096 + k) :
    t.reg64 q k = s.reg64 q k := by
  rw [State.reg64, State.reg64, h.reg (by omega), h.reg (by omega)]

/-- What has changed cores and registers alone since the results due have landed has done so before. -/
theorem State.onlyCores_of_settled {f : Core → Core} (h : ((s.modCore c Core.settle).modCore c f).onlyCores t) :
    s.onlyCores t :=
  h.trans (by simp)

/-- An instruction that does not jump has gone on after its cycles, and then come its further changes to the machine. -/
theorem State.finish_of_no_target (s : State) (c : CoreId) (x : CtxId) {e : Eff} (htarget : e.target = none)
    (hfreeze : e.freeze = 0) :
    ∃ t, (s.modCore c (fun k => e.onCore (k.issued e))).Passed c e.busy t ∧ s.finish c x e = e.onState t := by
  refine ⟨_, State.passed_coreCycles _ c _, ?_⟩
  unfold State.finish
  simp only [htarget, hfreeze]
  rfl

/-- What core `c` holds once `n` cycles have passed after an instruction on it. -/
theorem State.Passed.thread {f : Core → Core} (h : ((s.modCore c Core.settle).modCore c f).Passed c n t) :
    (t.core c).th = { (f (s.found c)).th with cyc := (f (s.found c)).th.cyc + n } := by
  have hfound : (s.modCore c Core.settle).core c = s.found c := State.core_modCore_same ..
  obtain ⟨b, hb⟩ := h.core
  rw [hb, State.core_modCore_same, hfound]

theorem State.Passed.chans {f : Core → Core} (h : ((s.modCore c Core.settle).modCore c f).Passed c n t) :
    (t.core c).chans = (f (s.found c)).chans := by
  have hfound : (s.modCore c Core.settle).core c = s.found c := State.core_modCore_same ..
  obtain ⟨b, hb⟩ := h.core
  rw [hb, State.core_modCore_same, hfound]

theorem State.Passed.elsewhere {f : Core → Core} (h : ((s.modCore c Core.settle).modCore c f).Passed c n t) :
    ∀ e, e ≠ c.val → t.core e = s.core e := fun e he => by
  rw [h.others e he, State.core_modCore_ne _ _ he, State.core_modCore_ne _ _ he]

end

/-! ### What an instruction answers -/

section
variable {i : Instr} {s : State} {c : CoreId} {x : CtxId} {w : Nat} {f : State → CtxId → Core → IRes} {e : Eff}

/-- An instruction that its core can issue and that does not trap answers its effect. -/
theorem exec_of_go (hexec : exec i s = ok (issue c w f s)) (hruns : s.runs c x w = true)
    (hres : f (s.modCore c Core.settle) x (s.found c) = .go e) :
    exec i s = .next ((s.modCore c Core.settle).finish c x e) := by
  rw [hexec, State.issue_of_runs f hruns, hres]
  rfl

/-- An instruction that its core can issue and that traps ends its context with the trap's status. -/
theorem gives_of_trap {st : BitVec 16} {info : Nat} (hexec : exec i s = ok (issue c w f s)) (hruns : s.runs c x w = true)
    (hres : f (s.modCore c Core.settle) x (s.found c) = .trap st info) (hend : (s.ctx x).endWith = none) :
    Gives i s fun t => (t.ctx x).state = .ending ∧ (t.ctx x).endWith = some st := by
  refine ⟨_, ?_, State.ctx_trap (s.modCore c Core.settle) c st info hend⟩
  rw [hexec, State.issue_of_runs f hruns, hres]
  rfl

/-- An effect of one cycle that puts results in flight and raises flags, and changes nothing else. -/
structure Eff.Plain (e : Eff) : Prop extends Eff.Straight e where
  onCore : e.onCore = id
  onState : e.onState = id

/-- An instruction with such an effect has run, and nothing outside the cores and the registers has changed. -/
theorem gives_of_plain (hexec : exec i s = ok (issue c w f s)) (hruns : s.runs c x w = true)
    (hres : f (s.modCore c Core.settle) x (s.found c) = .go e) (he : e.Plain) :
    Gives i s fun t => s.ran t c e.lands e.flags ∧ s.onlyCores t := by
  obtain ⟨t, ht, hfinish⟩ := State.finish_straight (s.modCore c Core.settle) c x he.toStraight
  refine ⟨t, ?_, ht.ran (by rw [he.onCore]; rfl), State.onlyCores_of_settled ht.frame⟩
  rw [exec_of_go hexec hruns hres, hfinish, he.onState]
  rfl

/-- What is said of the thread once an instruction that takes `n` cycles, changes its core by `f` and does not jump has
issued. -/
theorem gives_of_no_target (hexec : exec i s = ok (issue c w f s)) (hruns : s.runs c x w = true)
    (hres : f (s.modCore c Core.settle) x (s.found c) = .go e) (htarget : e.target = none) (hfreeze : e.freeze = 0) :
    ∃ t, ((s.modCore c Core.settle).modCore c (fun k => e.onCore (k.issued e))).Passed c e.busy t ∧
      exec i s = .next (e.onState t) := by
  obtain ⟨t, ht, hfinish⟩ := State.finish_of_no_target (s.modCore c Core.settle) c x htarget hfreeze
  exact ⟨t, ht, by rw [exec_of_go hexec hruns hres, hfinish]⟩

end

/-! ### Jumps -/

/-- What a core holds after a jump. -/
def State.went (s t : State) (c : CoreId) (pc : Word64) (lands : List (Nat × LandVal)) : Prop :=
  (t.core c).th = { (s.found c).th.push lands with pc := pc, cyc := (s.found c).th.cyc + 3 } ∧
  (∀ e, e ≠ c.val → t.core e = s.core e) ∧ s.onlyCores t

/-- The effect of a jump. -/
def jumpEff (target : Word64) (lands : List (Nat × LandVal)) (reads : List (Loc × Nat)) : Eff :=
  { lands := lands, target := some target, reads := reads }

section
variable {i : Instr} {s : State} {c : CoreId} {x : CtxId} {w : Nat} {f : State → CtxId → Core → IRes}
  {target : Word64} {lands : List (Nat × LandVal)} {reads : List (Loc × Nat)}

/-- Before the target is looked at, three cycles have passed on the core that jumps. -/
theorem State.finish_jump (s : State) (c : CoreId) (x : CtxId) (target : Word64) (lands : List (Nat × LandVal))
    (reads : List (Loc × Nat)) :
    ∃ t, (s.modCore c (fun k => { k with
        th := { (k.th.push lands).raiseFlags 0 with pc := target }, banks := k.banks ++ [] })).Passed c 3 t ∧
      s.finish c x (jumpEff target lands reads) =
        if (t.ctx x).inCode c target then t else t.trap c x stFETCH_BOUND 0 :=
  ⟨_, State.passed_coreCycles _ c 3, rfl⟩

/-- A jump inside the code goes to its target. -/
theorem gives_of_jump (hexec : exec i s = ok (issue c w f s)) (hruns : s.runs c x w = true)
    (hres : f (s.modCore c Core.settle) x (s.found c) = .go (jumpEff target lands reads))
    (hcode : (s.ctx x).inCode c target = true) : Gives i s fun t => s.went t c target lands := by
  obtain ⟨t, ht, hfinish⟩ := State.finish_jump (s.modCore c Core.settle) c x target lands reads
  refine ⟨t, ?_, ?_, ht.elsewhere, State.onlyCores_of_settled ht.frame⟩
  · have hctx : t.ctx x = s.ctx x := ht.ctx x
    rw [exec_of_go hexec hruns hres, hfinish, hctx, hcode]
    rfl
  · rw [ht.thread]
    simp [Thread.raiseFlags, Thread.push]

/-- A jump outside the code traps. -/
theorem gives_of_jump_outside (hexec : exec i s = ok (issue c w f s)) (hruns : s.runs c x w = true)
    (hres : f (s.modCore c Core.settle) x (s.found c) = .go (jumpEff target lands reads))
    (hcode : (s.ctx x).inCode c target = false) (hend : (s.ctx x).endWith = none) :
    Gives i s fun t => (t.ctx x).state = .ending ∧ (t.ctx x).endWith = some stFETCH_BOUND := by
  obtain ⟨t, ht, hfinish⟩ := State.finish_jump (s.modCore c Core.settle) c x target lands reads
  have hctx : t.ctx x = s.ctx x := ht.ctx x
  refine ⟨t.trap c x stFETCH_BOUND 0, ?_, State.ctx_trap t c _ _ (by rw [hctx, hend])⟩
  rw [exec_of_go hexec hruns hres, hfinish, hctx, hcode]
  rfl

end

end Sys2Proof.Machine
end

section
/-! PROOF. The scalar instructions: arithmetic and its landing, branches, jumps and illegal words, loads, stores and
special values (06_hj1_baseline.md R160 to R162). -/

namespace Sys2Proof.Machine

/-! ### Arithmetic -/

theorem aluEff_plain (lat : Nat) (o : SOp) (v : Word64) (po : Bool) (reads : List (Loc × Nat)) :
    ({ lands := [(lat, .sreg o.rd v po)], reads := reads } : Eff).Plain := ⟨⟨rfl, rfl, rfl⟩, rfl, rfl⟩

/-- An arithmetic instruction whose function is `f` puts its value in flight for RD. -/
theorem alu_gives {mk : SOp → Instr} {fn lat : Nat} {g f : Word64 → Word64 → Word64}
    (hexec : ∀ o s, exec (mk o) s = ok (issue o.core (encS 0x02 fn o) (fun _ _ k => aluRes lat o g k) s))
    (hfun : ∀ a b, g a b = f a b) (o : SOp) (x : CtxId) (s : State) (hruns : s.runs o.core x (encS 0x02 fn o) = true) :
    Gives (mk o) s fun t =>
      let k := s.found o.core
      let b := if o.i then o.imm.signExtend 64 else k.th.s o.rb
      s.ran t o.core [(lat, .sreg o.rd (f (k.th.s o.ra) b) (k.th.sp o.ra || (!o.i && k.th.sp o.rb)))] 0 ∧ s.onlyCores t := by
  simp only [← hfun]
  exact gives_of_plain (hexec o s) hruns rfl (aluEff_plain ..)

theorem mulhu_eq (a b : Word64) :
    BitVec.ofNat 64 (a.toNat * b.toNat / 2 ^ 64) = (a.setWidth 128 * b.setWidth 128).extractLsb' 64 64 := by
  have hlt : a.toNat * b.toNat < 2 ^ 128 :=
    (Nat.mul_lt_mul'' a.isLt b.isLt).trans_eq (by norm_num)
  apply BitVec.eq_of_toNat_eq
  simp only [BitVec.toNat_ofNat, BitVec.extractLsb'_toNat, BitVec.toNat_mul,
    BitVec.toNat_setWidth_of_le (by decide : 64 ≤ 128), Nat.shiftRight_eq_div_pow, Nat.mod_eq_of_lt hlt]

theorem toInt_signExtend_double (a : Word64) : (a.signExtend 128).toInt = a.toInt :=
  BitVec.toInt_signExtend_of_le (by decide)

/-- The high half of a product of words, taken signed. -/
theorem mulh_eq (a b : Word64) :
    BitVec.ofInt 64 (a.toInt * b.toInt / 2 ^ 64) = (a.signExtend 128 * b.signExtend 128).extractLsb' 64 64 := by
  have hprod : a.signExtend 128 * b.signExtend 128 = BitVec.ofInt 128 (a.toInt * b.toInt) := by
    rw [BitVec.ofInt_mul, ← toInt_signExtend_double a, ← toInt_signExtend_double b, BitVec.ofInt_toInt,
      BitVec.ofInt_toInt]
  rw [hprod]
  apply BitVec.eq_of_toNat_eq
  simp only [BitVec.extractLsb'_toNat, BitVec.toNat_ofInt, Nat.shiftRight_eq_div_pow]
  omega

theorem slt_iff_toInt {n : Nat} (a b : BitVec n) : a.slt b = true ↔ a.toInt < b.toInt := BitVec.slt_iff_toInt_lt

/-- The smaller of two words, either way of comparing them. -/
theorem ite_slt_eq_ite_le {n : Nat} (a b : BitVec n) : (if a.slt b then a else b) = if a.toInt ≤ b.toInt then a else b := by
  simp only [slt_iff_toInt]
  split_ifs with h1 h2 h2
  · rfl
  · omega
  · exact BitVec.eq_of_toInt_eq (by omega)
  · rfl

theorem ite_slt_eq_ite_le' {n : Nat} (a b : BitVec n) : (if a.slt b then b else a) = if a.toInt ≤ b.toInt then b else a := by
  simp only [slt_iff_toInt]
  split_ifs with h1 h2 h2
  · rfl
  · omega
  · exact BitVec.eq_of_toInt_eq (by omega)
  · rfl

theorem ite_ult_eq_ite_le {n : Nat} (a b : BitVec n) : (if a.ult b then a else b) = if a ≤ b then a else b := by
  simp only [BitVec.ult_iff_lt]
  split_ifs with h1 h2 h2
  · rfl
  · exact absurd (BitVec.le_of_lt h1) h2
  · exact BitVec.le_antisymm (BitVec.not_lt.1 h1) h2
  · rfl

theorem ite_ult_eq_ite_le' {n : Nat} (a b : BitVec n) : (if a.ult b then b else a) = if a ≤ b then b else a := by
  simp only [BitVec.ult_iff_lt]
  split_ifs with h1 h2 h2
  · rfl
  · exact absurd (BitVec.le_of_lt h1) h2
  · exact BitVec.le_antisymm h2 (BitVec.not_lt.1 h1)
  · rfl

theorem toNat_mod_64 (b : Word64) : b.toNat % 64 = (b &&& 63).toNat := by
  rw [BitVec.toNat_and]
  exact (Nat.and_two_pow_sub_one_eq_mod _ 6).symm

theorem shiftLeft_mod_64 (a b : Word64) : a <<< (b.toNat % 64) = a <<< (b &&& 63).toNat := by rw [toNat_mod_64]

theorem ushiftRight_mod_64 (a b : Word64) : a >>> (b.toNat % 64) = a >>> (b &&& 63).toNat := by rw [toNat_mod_64]

theorem sshiftRight_mod_64 (a b : Word64) : a.sshiftRight (b.toNat % 64) = a.sshiftRight (b &&& 63).toNat := by
  rw [toNat_mod_64]

theorem slt_value (a b : Word64) : (if a.slt b then (1 : Word64) else 0) = if a.toInt < b.toInt then 1 else 0 := by
  simp only [slt_iff_toInt]

theorem ult_value (a b : Word64) : (if a.ult b then (1 : Word64) else 0) = if a < b then 1 else 0 := by
  simp only [BitVec.ult_iff_lt]

/-- LUIH's word: IMM32 above the low word of RA. -/
theorem append_setWidth_eq (a : Word32) (b : Word64) :
    a ++ b.setWidth 32 = (a.setWidth 64 <<< 32) ||| (b &&& 0xFFFFFFFF) := by
  have hmask : (0xFFFFFFFF : Word64) = (BitVec.allOnes 32).setWidth 64 := by decide
  apply BitVec.eq_of_getLsbD_eq
  intro i hi
  simp only [hmask, BitVec.getLsbD_append, BitVec.getLsbD_or, BitVec.getLsbD_shiftLeft, BitVec.getLsbD_and,
    BitVec.getLsbD_setWidth, BitVec.getLsbD_allOnes]
  by_cases h : i < 32
  · simp [h, hi]
  · simp [h, hi]; omega

/-- A result that is due, the only one in flight, lands: its register reads it, s0 reads 0, and no other changes. -/
theorem Core.settle_sreg {k : Core} {n q : Nat} {r : Fin 32} {v : Word64} {p : Bool}
    (hlands : k.th.lands = [⟨n, q, .sreg r v p⟩]) (hdue : n ≤ k.th.cyc) :
    k.settle.th.s r = (if r = 0 then 0 else v) ∧ k.settle.th.sp r = (r != 0 && p) ∧ k.settle.th.lands = [] ∧
      ∀ i, i ≠ r → k.settle.th.s i = k.th.s i := by
  rw [Core.settle_of_single hlands hdue]
  by_cases hr : r = 0
  · subst hr
    exact ⟨rfl, rfl, rfl, fun _ _ => rfl⟩
  · have hne (i : Fin 32) (hi : i ≠ r) : i.val ≠ r.val := fun h => hi (Fin.ext h)
    refine ⟨?_, ?_, ?_, fun i hi => ?_⟩
    · simp [Core.land, Thread.s, hr]
    · have hbit := bit_setBit k.th.spo r.isLt p r
      simp only [if_true, bit] at hbit
      simp only [Core.land, Thread.sp, hr, if_false, hbit]
    · simp [Core.land, hr]
    · simp [Core.land, Thread.s, hr, sget_sset_ne _ _ _ (hne i hi)]

/-- Settles O17: each operation is `alu_gives` at its function; a result lands by `Core.settle_sreg`. -/
theorem scalarResults : Obligations.ScalarResults := by
  unfold Obligations.ScalarResults
  intro alu
  have halu {mk : SOp → Instr} {fn lat : Nat} {g f : Word64 → Word64 → Word64}
      (hexec : ∀ o s, exec (mk o) s = ok (issue o.core (encS 0x02 fn o) (fun _ _ k => aluRes lat o g k) s))
      (hfun : ∀ a b, g a b = f a b) : alu mk fn lat f := alu_gives hexec hfun
  clear_value alu
  refine ⟨halu (fun _ _ => rfl) fun _ _ => rfl, halu (fun _ _ => rfl) fun _ _ => rfl,
    halu (fun _ _ => rfl) fun _ _ => rfl, halu (fun _ _ => rfl) fun _ _ => rfl,
    halu (fun _ _ => rfl) fun _ _ => rfl, halu (fun _ _ => rfl) shiftLeft_mod_64,
    halu (fun _ _ => rfl) ushiftRight_mod_64, halu (fun _ _ => rfl) sshiftRight_mod_64,
    halu (fun _ _ => rfl) fun _ _ => rfl, halu (fun _ _ => rfl) mulhu_eq,
    halu (fun _ _ => rfl) mulh_eq, halu (fun _ _ => rfl) ite_slt_eq_ite_le,
    halu (fun _ _ => rfl) ite_slt_eq_ite_le', halu (fun _ _ => rfl) ite_ult_eq_ite_le,
    halu (fun _ _ => rfl) ite_ult_eq_ite_le', halu (fun _ _ => rfl) slt_value,
    halu (fun _ _ => rfl) ult_value, halu (fun _ _ => rfl) fun _ _ => rfl,
    fun o x s hruns => ?_, fun o x s hruns => ?_, fun k n q r v p => Core.settle_sreg⟩
  · simp only [← append_setWidth_eq]
    exact gives_of_plain (e := { lands := [_], reads := [_] }) rfl hruns rfl (aluEff_plain ..)
  · exact gives_of_plain (e := {}) rfl hruns rfl ⟨⟨rfl, rfl, rfl⟩, rfl, rfl⟩

end Sys2Proof.Machine
end

section
/-! PROOF. Branches, jumps and illegal words; loads, stores and special values (06_hj1_baseline.md R159 to R162, R216;
20_errors.md R576). -/

namespace Sys2Proof.Machine

/-! ### Branches and jumps -/

/-- A conditional branch with clean operands: where it goes, where it goes on, and the trap of a target outside. -/
theorem br_gives {mk : SOp → Instr} {fn : Nat} {g f : Word64 → Word64 → Bool}
    (hexec : ∀ o s, exec (mk o) s = ok (issue o.core (encS 0x08 fn o) (fun _ _ k => brRes o g k) s))
    (hfun : ∀ a b, g a b = f a b) (o : SOp) (x : CtxId) (s : State) (hruns : s.runs o.core x (encS 0x08 fn o) = true)
    (hra : (s.found o.core).th.sp o.ra = false) (hrb : (s.found o.core).th.sp o.rb = false) :
    let k := s.found o.core
    let rel := k.th.pc + o.imm.signExtend 64 * 8
    (f (k.th.s o.ra) (k.th.s o.rb) = true → (s.ctx x).inCode o.core rel = true →
      Gives (mk o) s fun t => s.went t o.core rel []) ∧
    (f (k.th.s o.ra) (k.th.s o.rb) = false → Gives (mk o) s fun t => s.ran t o.core [] 0 ∧ s.onlyCores t) ∧
    (f (k.th.s o.ra) (k.th.s o.rb) = true → (s.ctx x).inCode o.core rel = false → (s.ctx x).endWith = none →
      Gives (mk o) s fun t => (t.ctx x).state = .ending ∧ (t.ctx x).endWith = some stFETCH_BOUND) := by
  intro k rel
  have hres : brRes o g k = .go { target := if f (k.th.s o.ra) (k.th.s o.rb) then some rel else none
                                  reads := [(Loc.s o.ra, 0), (Loc.s o.rb, 0)] } := by
    unfold brRes
    rw [hra, hrb, hfun]
    rfl
  refine ⟨fun htaken hcode => ?_, fun htaken => ?_, fun htaken hcode hend => ?_⟩
  all_goals
    simp only [htaken, if_true, Bool.false_eq_true, if_false] at hres
  · exact gives_of_jump (hexec o s) hruns hres hcode
  · exact gives_of_plain (hexec o s) hruns hres ⟨⟨rfl, rfl, rfl⟩, rfl, rfl⟩
  · exact gives_of_jump_outside (hexec o s) hruns hres hcode hend

theorem jr_gives {o : SOp} {x : CtxId} {s : State} (hruns : s.runs o.core x (encS 0x0A 0 o) = true)
    (hra : (s.found o.core).th.sp o.ra = false)
    (halign : ((s.found o.core).th.s o.ra + o.imm.signExtend 64).toNat % 8 = 0)
    (hcode : (s.ctx x).inCode o.core ((s.found o.core).th.s o.ra + o.imm.signExtend 64) = true) :
    Gives (.jr o) s fun t => s.went t o.core ((s.found o.core).th.s o.ra + o.imm.signExtend 64)
      [(1, .sreg o.rd ((s.found o.core).th.pc + 8) false)] := by
  refine gives_of_jump (reads := [(Loc.s o.ra, 0)]) rfl hruns ?_ hcode
  have haddr : (saddr (s.found o.core).th o).toNat % 8 = 0 := halign
  simp only [hra, haddr, Bool.false_eq_true, if_false, ne_eq, not_true_eq_false]
  rfl

/-! ### Words that are not permitted -/

/-- A contained error is counted. -/
theorem State.reg64_detect_contained (s : State) (st : BitVec 16) (b i : Nat) (x : Option CtxId) (n : Nat) :
    (s.detect cCONTAINED st b i x n).reg64 pERR 0xF08 = s.reg64 pERR 0xF08 + 1 := by
  have hcount : (s.inc pERR 0xF08).reg64 pERR 0xF08 = s.reg64 pERR 0xF08 + 1 := s.reg64_inc_same pERR 0xF08 1
  have haon (u : State) {o : Nat} (ho : o < 0x1000) (v : Word32) :
      (u.setReg pAON o v).reg64 pERR 0xF08 = u.reg64 pERR 0xF08 :=
    State.reg64_setReg_ne _ _ (by simp only [pERR, pAON]; omega)
  unfold State.detect
  simp only [show ¬cCONTAINED = cFATAL by decide, if_false]
  split
  · exact (State.reg64_congr rfl _ _).trans hcount
  split
  · exact (haon _ (by decide) _).trans hcount
  split
  · exact ((haon _ (by decide) _).trans (haon _ (by decide) _)).trans hcount
  · exact (haon _ (by decide) _).trans hcount

/-- A trap is a contained error. -/
theorem State.reg64_trap (s : State) (c : CoreId) (x : CtxId) (st : BitVec 16) (info : Nat) :
    (s.trap c x st info).reg64 pERR 0xF08 = s.reg64 pERR 0xF08 + 1 := by
  have hstopped (u : State) : (u.stopContext x st).reg64 pERR 0xF08 = u.reg64 pERR 0xF08 := by
    have h := u.stopped_coresStopped x st
    rw [State.stopContext_eq, State.reg64_congr (State.modCtx_regs ..), State.reg64, State.reg64,
      h.reg (by unfold OffCores; decide), h.reg (by unfold OffCores; decide)]
  unfold State.trap
  rw [hstopped, State.reg64_detect_contained, State.reg64_setReg_ne _ _ (by simp only [pERR, pCORE]; omega)]

/-- A word that is not permitted traps. -/
theorem illegalInstr_gives {c : CoreId} {w : Word64} {x : CtxId} {s : State} (hcan : s.canIssue c = true)
    (hctx : (s.found c).ctx = some x) (hcode : (s.ctx x).inCode c (s.found c).th.pc = true)
    (hlegal : legalWord w.toNat = false) (hend : (s.ctx x).endWith = none) :
    Gives (.illegalInstr c w) s fun t => (t.ctx x).state = .ending ∧ (t.ctx x).endWith = some stILLEGAL_INSTR ∧
      t.reg64 pERR 0xF08 = s.reg64 pERR 0xF08 + 1 := by
  have hcore : (s.modCore c Core.settle).core c = s.found c := State.core_modCore_same ..
  have hplace : (s.modCore c Core.settle).ctx x = s.ctx x := rfl
  have hexec : exec (.illegalInstr c w) s = ok (if legalWord w.toNat then s
      else issue c w.toNat (fun _ _ _ => .trap stILLEGAL_INSTR 0) s) := rfl
  have hissue : issue c w.toNat (fun _ _ _ => .trap stILLEGAL_INSTR 0) s =
      (s.modCore c Core.settle).trap c x stILLEGAL_INSTR 0 := by
    unfold issue
    simp only [hcan, if_true, hcore, hctx, hplace, hcode, hlegal, Bool.not_true, Bool.not_false, Bool.false_eq_true,
      if_false]
  have hended := State.ctx_trap (s.modCore c Core.settle) c (x := x) stILLEGAL_INSTR 0 hend
  refine ⟨_, by rw [hexec, hlegal, hissue]; rfl, hended.1, hended.2, ?_⟩
  exact (State.reg64_trap ..).trans (congrArg (· + 1) (State.reg64_congr rfl _ _))

theorem blt_value (a b : Word64) : a.slt b = decide (a.toInt < b.toInt) := by rw [BitVec.slt_eq_decide]

theorem bge_value (a b : Word64) : (!a.slt b) = decide (b.toInt ≤ a.toInt) := by
  rw [BitVec.slt_eq_decide, ← decide_not, decide_eq_decide, not_lt]

theorem bltu_value (a b : Word64) : a.ult b = decide (a < b) := BitVec.ult_eq_decide_lt

theorem bgeu_value (a b : Word64) : (!a.ult b) = decide (b ≤ a) := by
  rw [bltu_value, ← decide_not, decide_eq_decide, BitVec.not_lt]

theorem bne_value (a b : Word64) : (a != b) = decide (a ≠ b) := by rw [bne, beq_eq_decide, decide_not]

theorem beq_value (a b : Word64) : (a == b) = decide (a = b) := beq_eq_decide ..

/-- Settles O19: a branch is `br_gives` at its relation, JAL and JR are jumps, and a word that is not permitted traps. -/
theorem branchesAndJumps : Obligations.BranchesAndJumps := by
  unfold Obligations.BranchesAndJumps
  intro rel went br
  have hbr {mk : SOp → Instr} {fn : Nat} {g f : Word64 → Word64 → Bool}
      (hexec : ∀ o s, exec (mk o) s = ok (issue o.core (encS 0x08 fn o) (fun _ _ k => brRes o g k) s))
      (hfun : ∀ a b, g a b = f a b) : br mk fn f := fun o x s hruns => br_gives hexec hfun o x s hruns
  clear_value br
  exact ⟨hbr (fun _ _ => rfl) beq_value, hbr (fun _ _ => rfl) bne_value, hbr (fun _ _ => rfl) blt_value,
    hbr (fun _ _ => rfl) bge_value, hbr (fun _ _ => rfl) bltu_value, hbr (fun _ _ => rfl) bgeu_value,
    fun o _ _ hruns hcode => gives_of_jump (reads := []) rfl hruns rfl hcode,
    fun _ _ _ hruns hra halign hcode => jr_gives hruns hra halign hcode,
    fun _ _ _ _ hcan hctx hcode hlegal hend => illegalInstr_gives hcan hctx hcode hlegal hend⟩

end Sys2Proof.Machine
end

section
/-! PROOF. Scalar loads, stores and special values, and the traps of a scratch address (06_hj1_baseline.md R160 to R162;
20_errors.md R575, R576). -/

namespace Sys2Proof.Machine

/-! ### The bytes of a load -/

theorem leNat_lt (bs : List Byte) : leNat bs < 2 ^ (8 * bs.length) := by
  induction bs with
  | nil => decide
  | cons b bs ih =>
    have hb := b.isLt
    rw [leNat, List.length_cons, Nat.mul_add, Nat.pow_add]
    omega

theorem length_sgets {α : Type} (d : α) (m : SMap α) (k n : Nat) : (sgets d m k n).length = n := by
  rw [sgets_eq, List.length_map, List.length_range]

theorem leNat_rd_lt (k : Core) (a n : Nat) : leNat (k.rd a n) < 2 ^ (8 * n) := by
  simpa only [Core.rd, length_sgets] using leNat_lt (k.rd a n)

/-- What a load of `n` bytes holds, zero- or sign-extended. -/
theorem extended_eq {n v : Nat} (hn : 0 < n) (hn' : n ≤ 8) (hv : v < 2 ^ (8 * n)) (sign : Bool) :
    BitVec.ofNat 64 (if sign = true ∧ 2 ^ (8 * n - 1) ≤ v then v + (2 ^ 64 - 2 ^ (8 * n)) else v) =
      if sign then (BitVec.ofNat (8 * n) v).signExtend 64 else (BitVec.ofNat (8 * n) v).setWidth 64 := by
  have hpow : 2 ^ (8 * n) ≤ 2 ^ 64 := Nat.pow_le_pow_right (by decide) (by omega)
  have htoNat : (BitVec.ofNat (8 * n) v).toNat = v := by rw [BitVec.toNat_ofNat, Nat.mod_eq_of_lt hv]
  apply BitVec.eq_of_toNat_eq
  cases sign with
  | false =>
    simp only [Bool.false_eq_true, false_and, if_false, BitVec.toNat_setWidth, htoNat, BitVec.toNat_ofNat]
  | true =>
    have hmsb : (BitVec.ofNat (8 * n) v).msb = decide (2 ^ (8 * n - 1) ≤ v) := by
      rw [BitVec.msb_eq_decide, htoNat]
    simp only [true_and, if_true, BitVec.toNat_signExtend, BitVec.toNat_setWidth, htoNat, BitVec.toNat_ofNat, hmsb,
      decide_eq_true_eq]
    split
    · rw [Nat.mod_eq_of_lt (by omega), Nat.mod_eq_of_lt (by omega)]
    · rfl

theorem accessWidth_bounds (fn : BitVec 6) : 0 < 2 ^ (fn.toNat % 4) ∧ 2 ^ (fn.toNat % 4) ≤ 8 :=
  ⟨Nat.two_pow_pos _, (Nat.pow_le_pow_right two_pos (by omega : fn.toNat % 4 ≤ 3)).trans_eq rfl⟩

/-! ### Traps of an address -/

theorem scalarTrap_eq_none {t : Thread} {o : SOp} {n : Nat} (hclean : t.sp o.ra = false)
    (hbound : (saddr t o).toNat + n ≤ 0x300000) (halign : (saddr t o).toNat % n = 0) : scalarTrap t o n = none := by
  unfold scalarTrap
  simp only [hclean, Bool.false_eq_true, if_false, not_lt.2 hbound, halign, ne_eq, not_true_eq_false]

/-- The trap of an address that is not clean, inside scratch and aligned. -/
theorem scalarTrap_eq_some {t : Thread} {o : SOp} {n : Nat}
    (h : t.sp o.ra = true ∨ 0x300000 < (saddr t o).toNat + n ∨ (saddr t o).toNat % n ≠ 0) :
    scalarTrap t o n = some (if t.sp o.ra then stPOISON_CONSUMED
      else if 0x300000 < (saddr t o).toNat + n then stSCRATCH_BOUND else stMISALIGNED) := by
  unfold scalarTrap
  by_cases hpoison : t.sp o.ra = true
  · simp only [hpoison, if_true]
  by_cases hbound : 0x300000 < (saddr t o).toNat + n
  · simp only [hpoison, hbound, Bool.false_eq_true, if_false, if_true]
  · have halign := (h.resolve_left hpoison).resolve_left hbound
    simp only [hpoison, hbound, halign, ne_eq, not_false_eq_true, Bool.false_eq_true, if_false, if_true]

/-! ### The instructions -/

section
variable {o : SOp} {fn : BitVec 6} {x : CtxId} {s : State}

theorem ld_gives (hruns : s.runs o.core x (encS 0x04 fn.toNat o) = true)
    (hclean : (s.found o.core).th.sp o.ra = false)
    (hbound : (saddr (s.found o.core).th o).toNat + 2 ^ (fn.toNat % 4) ≤ 0x300000)
    (halign : (saddr (s.found o.core).th o).toNat % 2 ^ (fn.toNat % 4) = 0) :
    Gives (.ld o fn) s fun t =>
      let k := s.found o.core
      let n := 2 ^ (fn.toNat % 4)
      let q := k.viewAt (k.th.cyc + 2)
      let raw := BitVec.ofNat (8 * n) (leNat (q.rd (saddr k.th o).toNat n))
      s.ran t o.core [(4, .sreg o.rd (if fn.getLsbD 2 then raw.signExtend 64 else raw.setWidth 64)
        (q.marked (saddr k.th o).toNat n))] 0 ∧ s.onlyCores t := by
  obtain ⟨hn, hn'⟩ := accessWidth_bounds fn
  simp only [← extended_eq hn hn' (leNat_rd_lt ..)]
  refine gives_of_plain (e := {
    lands := [_], reads := [(Loc.s o.ra, 0)], banks := [(2, scratchBank (saddr (s.found o.core).th o).toNat)] }) rfl hruns ?_
    ⟨⟨rfl, rfl, rfl⟩, rfl, rfl⟩
  simp only [scalarTrap_eq_none hclean hbound halign]
  rfl

theorem st_gives (hruns : s.runs o.core x (encS 0x05 fn.toNat o) = true)
    (hclean : (s.found o.core).th.sp o.ra = false)
    (hbound : (saddr (s.found o.core).th o).toNat + 2 ^ (fn.toNat % 4) ≤ 0x300000)
    (halign : (saddr (s.found o.core).th o).toNat % 2 ^ (fn.toNat % 4) = 0) :
    Gives (.st o fn) s fun t =>
      let k := s.found o.core
      s.ran t o.core [(3, .scratch (saddr k.th o).toNat ((leBytes (2 ^ (fn.toNat % 4)) (k.th.s o.rb).toNat).map some)
        (k.th.sp o.rb))] 0 ∧ s.onlyCores t := by
  refine gives_of_plain
    (e := { lands := [_], reads := [(Loc.s o.ra, 0), (Loc.s o.rb, 0)]
            banks := [(2, scratchBank (saddr (s.found o.core).th o).toNat)] }) rfl hruns ?_
    ⟨⟨rfl, rfl, rfl⟩, rfl, rfl⟩
  simp only [scalarTrap_eq_none hclean hbound halign]

/-- A load whose address traps ends the program with that trap's status. -/
theorem ld_traps (hruns : s.runs o.core x (encS 0x04 fn.toNat o) = true) {st : BitVec 16}
    (htrap : scalarTrap (s.found o.core).th o (2 ^ (fn.toNat % 4)) = some st) (hend : (s.ctx x).endWith = none) :
    Gives (.ld o fn) s fun t => (t.ctx x).state = .ending ∧ (t.ctx x).endWith = some st := by
  refine gives_of_trap rfl hruns (info := 0) ?_ hend
  simp only [htrap]

theorem spr_gives (hruns : s.runs o.core x (encS 0x0B 0 o) = true) :
    Gives (.spr o) s fun t =>
      let k := s.found o.core
      (t.core o.core).th.lands =
        (k.th.push [(2, .sreg o.rd (BitVec.ofNat 64 (sprValue s o.core x k o.imm.toNat)) false)]).lands ∧
      (t.core o.core).th.fpf = (if o.imm = 7 then 0 else k.th.fpf) ∧ (t.core o.core).th.pc = k.th.pc + 8 ∧
      s.onlyCores t := by
  obtain ⟨t, ht, hnext⟩ := gives_of_no_target (i := .spr o) (e :=
    { lands := [_], onCore := fun k => if o.imm = 7 then { k with th := { k.th with fpf := 0 } } else k })
    rfl hruns rfl rfl rfl
  refine ⟨t, hnext, ?_⟩
  dsimp only
  rw [ht.thread]
  refine ⟨?_, ?_, ?_, State.onlyCores_of_settled ht.frame⟩
  · split <;> rfl
  · split
    · rfl
    · exact BitVec.or_zero
  · split <;> rfl

end

/-- Settles O18: a load and a store each have their value where the address does not trap, and SPR clears the flags it
reads. -/
theorem scalarMemoryAndSpecialValues : Obligations.ScalarMemoryAndSpecialValues := by
  unfold Obligations.ScalarMemoryAndSpecialValues
  intro addr
  exact ⟨fun _ _ _ _ hruns hclean hbound halign => ld_gives hruns hclean hbound halign,
    fun _ _ _ _ hruns hclean hbound halign => st_gives hruns hclean hbound halign,
    fun _ _ _ hruns => spr_gives hruns,
    fun _ _ _ _ hruns hend htrap => ld_traps hruns (scalarTrap_eq_some htrap) hend⟩

end Sys2Proof.Machine
end

section
/-! PROOF. The lanes of vector values, and the vector arithmetic of the VFP and VINT instructions
(06_hj1_baseline.md R163, R164, R178 to R183; 07_hj2_contract.md R216). -/

namespace Sys2Proof.Machine

/-! ### Packed lanes -/

theorem packLanes_lt (w : Nat) (f : Nat → Nat) (n : Nat) : packLanes w f n < 2 ^ (w * n) := by
  induction n with
  | zero => simp [packLanes]
  | succ n ih =>
    have hlane : f n % 2 ^ w < 2 ^ w := Nat.mod_lt _ (Nat.two_pow_pos w)
    calc packLanes w f n + f n % 2 ^ w * 2 ^ (w * n)
        < 2 ^ (w * n) + f n % 2 ^ w * 2 ^ (w * n) := by omega
      _ = (f n % 2 ^ w + 1) * 2 ^ (w * n) := by ring
      _ ≤ 2 ^ w * 2 ^ (w * n) := Nat.mul_le_mul_right _ hlane
      _ = 2 ^ (w * (n + 1)) := by rw [← Nat.pow_add]; ring_nf

/-- One lane of packed lanes. -/
theorem packLanes_lane (w : Nat) (f : Nat → Nat) {n l : Nat} (hl : l < n) :
    packLanes w f n / 2 ^ (w * l) % 2 ^ w = f l % 2 ^ w := by
  induction n with
  | zero => omega
  | succ n ih =>
    rw [packLanes]
    obtain rfl | hlt := Nat.eq_or_lt_of_le (Nat.le_of_lt_succ hl)
    · rw [Nat.add_mul_div_right _ _ (Nat.two_pow_pos _), Nat.div_eq_of_lt (packLanes_lt w f l), Nat.zero_add,
        Nat.mod_mod]
    · obtain ⟨d, rfl⟩ : ∃ d, n = l + (d + 1) := ⟨n - l - 1, by omega⟩
      have hsplit : f (l + (d + 1)) % 2 ^ w * 2 ^ (w * (l + (d + 1))) =
          f (l + (d + 1)) % 2 ^ w * 2 ^ (w * d) * 2 ^ w * 2 ^ (w * l) := by
        rw [Nat.mul_add, Nat.mul_add, Nat.mul_one, Nat.pow_add, Nat.pow_add]; ring
      rw [hsplit, Nat.add_mul_div_right _ _ (Nat.two_pow_pos _), Nat.add_mul_mod_self_right, ih hlt]

theorem packLanes_shifted_lt {w base n : Nat} (hfit : base + 64 * w ≤ n) (f : Nat → Nat) :
    packLanes w f 64 * 2 ^ base < 2 ^ n := by
  calc packLanes w f 64 * 2 ^ base
      < 2 ^ (w * 64) * 2 ^ base := Nat.mul_lt_mul_of_pos_right (packLanes_lt w f 64) (Nat.two_pow_pos base)
    _ = 2 ^ (w * 64 + base) := (Nat.pow_add ..).symm
    _ ≤ 2 ^ n := Nat.pow_le_pow_right two_pos (by omega)

/-- One field of 64 packed fields that lie from bit `base` on. -/
theorem extractLsb'_packed {w base n : Nat} (hfit : base + 64 * w ≤ n) (f : Nat → Nat) {l : Nat} (hl : l < 64) :
    (BitVec.ofNat n (packLanes w f 64 * 2 ^ base)).extractLsb' (base + w * l) w = BitVec.ofNat w (f l) := by
  apply BitVec.eq_of_toNat_eq
  rw [BitVec.extractLsb'_toNat, BitVec.toNat_ofNat, Nat.mod_eq_of_lt (packLanes_shifted_lt hfit f),
    Nat.shiftRight_eq_div_pow, Nat.pow_add, Nat.mul_comm, Nat.mul_div_mul_left _ _ (Nat.two_pow_pos base),
    packLanes_lane w f hl, BitVec.toNat_ofNat]

/-- Packed fields leave every bit outside them 0. -/
theorem getLsbD_packed (w base : Nat) (f : Nat → Nat) {b : Nat} (hb : b < base ∨ base + 64 * w ≤ b) :
    (BitVec.ofNat 2048 (packLanes w f 64 * 2 ^ base)).getLsbD b = false := by
  have hbit : (packLanes w f 64 * 2 ^ base).testBit b = false := by
    rw [Nat.testBit_mul_two_pow]
    rcases hb with hb | hb
    · simp [Nat.not_le.2 hb]
    · have hlt : packLanes w f 64 < 2 ^ (b - base) :=
        (packLanes_lt w f 64).trans_le (Nat.pow_le_pow_right two_pos (by omega))
      simp [Nat.testBit_lt_two_pow hlt]
  rw [BitVec.getLsbD_ofNat, hbit, Bool.and_false]

section
variable (f : Nat → Word32) (g : Nat → Bool) {l : Nat} (hl : l < 64)
include hl

theorem vlane_vecOf : vlane (vecOf f) l = f l := by
  have h := extractLsb'_packed (w := 32) (base := 0) (n := 2048) (by decide) (fun l => (f l).toNat) hl
  rw [Nat.pow_zero, Nat.mul_one, Nat.zero_add] at h
  exact h.trans (by simp)

theorem vlane_laneMask : vlane (laneMask g) l = if g l then 0xFFFFFFFF else 0 := by
  have h := extractLsb'_packed (w := 32) (base := 0) (n := 2048) (by decide) (fun l => if g l then 0xFFFFFFFF else 0) hl
  rw [Nat.pow_zero, Nat.mul_one, Nat.zero_add] at h
  refine h.trans ?_
  cases g l <;> rfl

theorem vlane_allOnes : vlane (BitVec.allOnes 2048) l = 0xFFFFFFFF := by
  have hones : (0xFFFFFFFF : Word32) = BitVec.allOnes 32 := by decide
  rw [hones]
  apply BitVec.eq_of_getLsbD_eq
  intro i hi
  rw [vlane, BitVec.getLsbD_extractLsb', BitVec.getLsbD_allOnes, BitVec.getLsbD_allOnes]
  simp only [hi, decide_true, Bool.true_and, decide_eq_true_eq]
  omega

theorem getLsbD_predOf : (predOf g).getLsbD l = g l := by
  have h := packLanes_lane 1 (fun l => bnat (g l)) hl
  rw [Nat.one_mul] at h
  rw [predOf, BitVec.getLsbD_ofNat, decide_eq_true hl, Bool.true_and, Nat.testBit_eq_decide_div_mod_eq]
  simp only [Nat.pow_one] at h
  rw [h]
  cases g l <;> rfl

end

/-! ### Masked values -/

theorem vlane_vmaskOf (o : VOp) (act : Nat → Bool) {l : Nat} (hl : l < 64) :
    vlane (vmaskOf o act) l = if o.pz || act l then 0xFFFFFFFF else 0 := by
  unfold vmaskOf
  cases o.pz
  · exact vlane_laneMask act hl
  · exact vlane_allOnes hl

/-- What a lane function puts in flight holds it. -/
theorem lanesHold_vecOf (k : Core) (o : VOp) (f : Nat → Word32) :
    LanesHold k o f (vmaskOf o (k.th.active o)) (vecOf (fun l => if k.th.active o l then f l else 0)) := by
  intro l hl
  rw [vlane_vmaskOf _ _ hl, vlane_vecOf _ hl]
  cases k.th.active o l with
  | false => cases o.pz <;> simp
  | true => simp

/-- What a relation of the lanes puts in flight holds it. -/
theorem bitsHold_predOf (k : Core) (o : VOp) (f : Nat → Bool) :
    BitsHold k o f (if o.pz then BitVec.allOnes 64 else predOf (k.th.active o))
      (predOf (fun l => k.th.active o l && f l)) := by
  intro l hl
  have hmask : (if o.pz then BitVec.allOnes 64 else predOf (k.th.active o)).getLsbD l = (o.pz || k.th.active o l) := by
    cases o.pz
    · exact getLsbD_predOf _ hl
    · exact BitVec.getLsbD_allOnes.trans (decide_eq_true hl)
  rw [hmask, getLsbD_predOf _ hl]
  cases k.th.active o l with
  | false => cases o.pz <;> simp
  | true => simp

/-! ### Lane functions -/

/-- What a command gives, it gives in a weaker form. -/
theorem Gives.imp {i : Instr} {s : State} {P Q : State → Prop} (h : Gives i s P) (hPQ : ∀ t, P t → Q t) : Gives i s Q := by
  obtain ⟨t, hnext, hP⟩ := h
  exact ⟨t, hnext, hPQ t hP⟩

/-- The effect of a lane function. -/
def vresEff (lat : Nat) (o : VOp) (k : Core) (f : Nat → Word32 × FFlags) (po : Bool) (reads : List (Loc × Nat)) : Eff :=
  { lands := [(lat, .vreg o.vd (vmaskOf o (k.th.active o)) (vecOf (fun l => if k.th.active o l then (f l).1 else 0))
      (po || k.th.ap o || (merges o && k.th.vp o.vd)))]
    flags := laneFlags (k.th.active o) (fun l => (f l).2) 64
    reads := predRead o ++ reads }

theorem vresEff_plain (lat : Nat) (o : VOp) (k : Core) (f : Nat → Word32 × FFlags) (po : Bool)
    (reads : List (Loc × Nat)) : (vresEff lat o k f po reads).Plain := ⟨⟨rfl, rfl, rfl⟩, rfl, rfl⟩

/-- An instruction of a lane function puts it in flight for VD. -/
theorem lanes_gives {i : Instr} {s : State} {o : VOp} {x : CtxId} {w lat : Nat} {g : State → CtxId → Core → IRes}
    {f : Nat → Word32 × FFlags} {po : Bool} {reads : List (Loc × Nat)}
    (hexec : exec i s = ok (issue o.core w g s)) (hruns : s.runs o.core x w = true)
    (hres : g (s.modCore o.core Core.settle) x (s.found o.core) = vres lat o (s.found o.core) f po reads) :
    Gives i s fun t =>
      let k := s.found o.core
      ∃ m v, LanesHold k o (fun l => (f l).1) m v ∧
        s.ran t o.core [(lat, .vreg o.vd m v (po || k.th.ap o || mergePoison k o))]
          (laneFlags (k.th.active o) (fun l => (f l).2) 64) ∧ s.onlyCores t :=
  (gives_of_plain hexec hruns hres (vresEff_plain lat o _ f po reads)).imp fun _ ht =>
    ⟨_, _, lanesHold_vecOf _ o fun l => (f l).1, ht⟩

section
variable {mk : VOp → Instr} {op fn lat : Nat}

theorem vbin_gives {g f : Word32 → Word32 → Word32 × FFlags}
    (hexec : ∀ o s, exec (mk o) s = ok (issue o.core (encV op fn o) (fun _ _ k => vbin lat o k g) s))
    (hfun : ∀ a b, g a b = f a b) (o : VOp) (x : CtxId) (s : State) (hruns : s.runs o.core x (encV op fn o) = true) :
    Gives (mk o) s fun t =>
      let k := s.found o.core
      let r (l : Nat) := f (vlane (k.th.v o.va) l) (if o.bs then (k.th.s o.ss).setWidth 32 else vlane (k.th.v o.vb) l)
      ∃ m v, LanesHold k o (fun l => (r l).1) m v ∧
        s.ran t o.core [(lat, .vreg o.vd m v (k.th.vp o.va || (if o.bs then k.th.sp o.ss else k.th.vp o.vb) || k.th.ap o
          || mergePoison k o))] (laneFlags (k.th.active o) (fun l => (r l).2) 64) ∧ s.onlyCores t := by
  obtain rfl : g = f := funext₂ hfun
  exact lanes_gives (hexec o s) hruns rfl

theorem vun_gives {g : Word32 → Word32 × FFlags}
    (hexec : ∀ o s, exec (mk o) s = ok (issue o.core (encV op fn o) (fun _ _ k => vun lat o k g) s))
    (o : VOp) (x : CtxId) (s : State) (hruns : s.runs o.core x (encV op fn o) = true) :
    Gives (mk o) s fun t =>
      let k := s.found o.core
      ∃ m v, LanesHold k o (fun l => (g (vlane (k.th.v o.va) l)).1) m v ∧
        s.ran t o.core [(lat, .vreg o.vd m v (k.th.vp o.va || k.th.ap o || mergePoison k o))]
          (laneFlags (k.th.active o) (fun l => (g (vlane (k.th.v o.va) l)).2) 64) ∧ s.onlyCores t :=
  lanes_gives (hexec o s) hruns rfl

theorem vtri_gives {g : Word32 → Word32 → Word32 → Word32 × FFlags}
    (hexec : ∀ o s, exec (mk o) s = ok (issue o.core (encV op fn o) (fun _ _ k => vtri lat o k g) s))
    (o : VOp) (x : CtxId) (s : State) (hruns : s.runs o.core x (encV op fn o) = true) :
    Gives (mk o) s fun t =>
      let k := s.found o.core
      let r (l : Nat) := g (vlane (k.th.v o.va) l) (if o.bs then (k.th.s o.ss).setWidth 32 else vlane (k.th.v o.vb) l)
        (vlane (k.th.v o.vc) l)
      ∃ m v, LanesHold k o (fun l => (r l).1) m v ∧
        s.ran t o.core [(lat, .vreg o.vd m v (k.th.vp o.va || (if o.bs then k.th.sp o.ss else k.th.vp o.vb) || k.th.vp o.vc
          || k.th.ap o || mergePoison k o))] (laneFlags (k.th.active o) (fun l => (r l).2) 64) ∧ s.onlyCores t :=
  lanes_gives (hexec o s) hruns rfl

end

/-! ### Integer functions of a lane -/

theorem toNat_mod_32 (b : Word32) : b.toNat % 32 = (b &&& 31).toNat := by
  rw [BitVec.toNat_and]
  exact (Nat.and_two_pow_sub_one_eq_mod _ 5).symm

theorem vsll_value (a b : Word32) : (a <<< (b.toNat % 32), (0 : FFlags)) = (a <<< (b &&& 31).toNat, 0) := by
  rw [toNat_mod_32]

theorem vsrl_value (a b : Word32) : (a >>> (b.toNat % 32), (0 : FFlags)) = (a >>> (b &&& 31).toNat, 0) := by
  rw [toNat_mod_32]

theorem vsra_value (a b : Word32) :
    (a.sshiftRight (b.toNat % 32), (0 : FFlags)) = (a.sshiftRight (b &&& 31).toNat, 0) := by rw [toNat_mod_32]

theorem vmin_value (a b : Word32) :
    (if a.slt b then a else b, (0 : FFlags)) = (if a.toInt ≤ b.toInt then a else b, 0) := by rw [ite_slt_eq_ite_le]

theorem vmax_value (a b : Word32) :
    (if a.slt b then b else a, (0 : FFlags)) = (if a.toInt ≤ b.toInt then b else a, 0) := by rw [ite_slt_eq_ite_le']

theorem vminu_value (a b : Word32) :
    (if a.ult b then a else b, (0 : FFlags)) = (if a ≤ b then a else b, 0) := by rw [ite_ult_eq_ite_le]

theorem vmaxu_value (a b : Word32) :
    (if a.ult b then b else a, (0 : FFlags)) = (if a ≤ b then b else a, 0) := by rw [ite_ult_eq_ite_le']

/-- Settles O20: each instruction is a lane function of one, two or three operands (`vun_gives`, `vbin_gives`,
`vtri_gives`). -/
theorem vectorLaneArithmetic : Obligations.VectorLaneArithmetic := by
  unfold Obligations.VectorLaneArithmetic
  intro bin un tri
  have hbin {mk : VOp → Instr} {op fn lat : Nat} {g f : Word32 → Word32 → Word32 × FFlags}
      (hexec : ∀ o s, exec (mk o) s = ok (issue o.core (encV op fn o) (fun _ _ k => vbin lat o k g) s))
      (hfun : ∀ a b, g a b = f a b) : bin mk op fn lat f := vbin_gives hexec hfun
  have hun {mk : VOp → Instr} {op fn lat : Nat} {g : Word32 → Word32 × FFlags}
      (hexec : ∀ o s, exec (mk o) s = ok (issue o.core (encV op fn o) (fun _ _ k => vun lat o k g) s)) :
      un mk op fn lat g := vun_gives hexec
  have htri {mk : VOp → Instr} {op fn lat : Nat} {g : Word32 → Word32 → Word32 → Word32 × FFlags}
      (hexec : ∀ o s, exec (mk o) s = ok (issue o.core (encV op fn o) (fun _ _ k => vtri lat o k g) s)) :
      tri mk op fn lat g := vtri_gives hexec
  clear_value bin un tri
  exact ⟨hbin (fun _ _ => rfl) fun _ _ => rfl, hbin (fun _ _ => rfl) fun _ _ => rfl,
    hbin (fun _ _ => rfl) fun _ _ => rfl, htri fun _ _ => rfl, htri fun _ _ => rfl,
    hbin (fun _ _ => rfl) fun _ _ => rfl, hbin (fun _ _ => rfl) fun _ _ => rfl, hun fun _ _ => rfl,
    hun fun _ _ => rfl, hbin (fun _ _ => rfl) fun _ _ => rfl, hun fun _ _ => rfl, hun fun _ _ => rfl,
    hun fun _ _ => rfl, hun fun _ _ => rfl, hbin (fun _ _ => rfl) fun _ _ => rfl,
    hbin (fun _ _ => rfl) fun _ _ => rfl, hbin (fun _ _ => rfl) fun _ _ => rfl,
    hbin (fun _ _ => rfl) fun _ _ => rfl, hbin (fun _ _ => rfl) fun _ _ => rfl,
    hbin (fun _ _ => rfl) fun _ _ => rfl, hbin (fun _ _ => rfl) vsll_value, hbin (fun _ _ => rfl) vsrl_value,
    hbin (fun _ _ => rfl) vsra_value, hbin (fun _ _ => rfl) vmin_value, hbin (fun _ _ => rfl) vmax_value,
    hbin (fun _ _ => rfl) vminu_value, hbin (fun _ _ => rfl) vmaxu_value⟩

end Sys2Proof.Machine
end

section
/-! PROOF. Vector compares, predicate operations and checksum residues (06_hj1_baseline.md R164; 07_hj2_contract.md
R198, R199, R216). -/

namespace Sys2Proof.Machine

/-! ### Compares -/

/-- The effect of a comparison. -/
def vcmpEff (lat : Nat) (o : VOp) (k : Core) (f : Nat → Bool × FFlags) (po : Bool) (reads : List (Loc × Nat)) : Eff :=
  { lands := [(lat, .preg (pfld o.vd) (if o.pz then BitVec.allOnes 64 else predOf (k.th.active o))
      (predOf (fun l => k.th.active o l && (f l).1)) po)]
    flags := laneFlags (k.th.active o) (fun l => (f l).2) 64
    reads := reads }

theorem vcmpEff_plain (lat : Nat) (o : VOp) (k : Core) (f : Nat → Bool × FFlags) (po : Bool)
    (reads : List (Loc × Nat)) : (vcmpEff lat o k f po reads).Plain := ⟨⟨rfl, rfl, rfl⟩, rfl, rfl⟩

theorem vcmp_gives {mk : VOp → Instr} {fn : Nat} {g f : Word32 → Word32 → Bool × FFlags}
    (hexec : ∀ o s, exec (mk o) s = ok (issue o.core (encV 0x22 fn o) (fun _ _ k => vcmp 2 o k g) s))
    (hfun : ∀ a b, g a b = f a b) (o : VOp) (x : CtxId) (s : State) (hruns : s.runs o.core x (encV 0x22 fn o) = true) :
    Gives (mk o) s fun t =>
      let k := s.found o.core
      let r (l : Nat) := f (vlane (k.th.v o.va) l) (if o.bs then (k.th.s o.ss).setWidth 32 else vlane (k.th.v o.vb) l)
      ∃ m v, BitsHold k o (fun l => (r l).1) m v ∧
        s.ran t o.core [(2, .preg (pfld o.vd) m v (k.th.vp o.va || (if o.bs then k.th.sp o.ss else k.th.vp o.vb)
          || k.th.ap o || (o.pe && !o.pz && k.th.pp (pfld o.vd))))]
          (laneFlags (k.th.active o) (fun l => (r l).2) 64) ∧ s.onlyCores t := by
  obtain rfl : g = f := funext₂ hfun
  exact (gives_of_plain (hexec o s) hruns rfl (vcmpEff_plain 2 o _ _ _ _)).imp fun _ ht =>
    ⟨_, _, bitsHold_predOf _ o fun l =>
      (g (vlane ((s.found o.core).th.v o.va) l) ((s.found o.core).th.vb o l)).1, ht⟩

theorem ieq_value (a b : Word32) : (a == b, (0 : FFlags)) = (decide (a = b), 0) := by rw [beq_eq_decide]

theorem ine_value (a b : Word32) : (a != b, (0 : FFlags)) = (decide (a ≠ b), 0) := by rw [bne, beq_eq_decide, decide_not]

theorem ilt_value (a b : Word32) : (a.slt b, (0 : FFlags)) = (decide (a.toInt < b.toInt), 0) := by
  rw [BitVec.slt_eq_decide]

theorem ile_value (a b : Word32) : (!b.slt a, (0 : FFlags)) = (decide (a.toInt ≤ b.toInt), 0) := by
  rw [BitVec.slt_eq_decide, ← decide_not, Prod.mk.injEq, decide_eq_decide, not_lt]
  exact ⟨.rfl, rfl⟩

theorem iltu_value (a b : Word32) : (a.ult b, (0 : FFlags)) = (decide (a < b), 0) := by rw [BitVec.ult_eq_decide_lt]

theorem ileu_value (a b : Word32) : (!b.ult a, (0 : FFlags)) = (decide (a ≤ b), 0) := by
  rw [BitVec.ult_eq_decide_lt, ← decide_not, Prod.mk.injEq, decide_eq_decide, BitVec.not_lt]
  exact ⟨.rfl, rfl⟩

/-! ### Predicates -/

theorem pland_plain (lat : Nat) (r : Fin 8) (m v : BitVec 64) (po : Bool) (reads : List (Loc × Nat)) :
    ({ lands := [(lat, .preg r m v po)], reads := reads } : Eff).Plain := ⟨⟨rfl, rfl, rfl⟩, rfl, rfl⟩

theorem sland_plain (lat : Nat) (r : Fin 32) (v : Word64) (po : Bool) (reads : List (Loc × Nat)) :
    ({ lands := [(lat, .sreg r v po)], reads := reads } : Eff).Plain := ⟨⟨rfl, rfl, rfl⟩, rfl, rfl⟩

/-- An operation on two predicates whose bits are `f` of theirs. -/
theorem ppair_gives {mk : VOp → Instr} {fn : Nat} {g : BitVec 64 → BitVec 64 → BitVec 64} {f : Bool → Bool → Bool}
    (hexec : ∀ o s, exec (mk o) s = ok (issue o.core (encV 0x26 fn o) (fun _ _ k => ppair o k g) s))
    (hbit : ∀ a b l, l < 64 → (g a b).getLsbD l = f (a.getLsbD l) (b.getLsbD l)) (o : VOp) (x : CtxId) (s : State)
    (hruns : s.runs o.core x (encV 0x26 fn o) = true) :
    Gives (mk o) s fun t =>
      let k := s.found o.core
      ∃ v : BitVec 64, (∀ l, l < 64 → v.getLsbD l = f ((k.th.p (pfld o.va)).getLsbD l) ((k.th.p (pfld o.vb)).getLsbD l)) ∧
        s.ran t o.core [(1, .preg (pfld o.vd) (BitVec.allOnes 64) v (k.th.pp (pfld o.va) || k.th.pp (pfld o.vb)))] 0 ∧
        s.onlyCores t :=
  (gives_of_plain (hexec o s) hruns rfl (pland_plain ..)).imp fun _ ht => ⟨_, hbit _ _, ht⟩

theorem pand_bit (a b : BitVec 64) (l : Nat) (_ : l < 64) : (a &&& b).getLsbD l = (a.getLsbD l && b.getLsbD l) :=
  BitVec.getLsbD_and

theorem por_bit (a b : BitVec 64) (l : Nat) (_ : l < 64) : (a ||| b).getLsbD l = (a.getLsbD l || b.getLsbD l) :=
  BitVec.getLsbD_or

theorem pxor_bit (a b : BitVec 64) (l : Nat) (_ : l < 64) : (a ^^^ b).getLsbD l = (a.getLsbD l != b.getLsbD l) :=
  BitVec.getLsbD_xor

theorem pandn_bit (a b : BitVec 64) (l : Nat) (hl : l < 64) : (a &&& ~~~b).getLsbD l = (a.getLsbD l && !b.getLsbD l) := by
  rw [BitVec.getLsbD_and, BitVec.getLsbD_not, decide_eq_true hl, Bool.true_and]

/-- Every bit below the lowest 1 bit of a predicate is 0. -/
theorem getLsbD_of_lt_firstOne {p : BitVec 64} {l : Nat} (h : l < firstOne p) (hl : l < 64) : p.getLsbD l = false := by
  unfold firstOne at h
  cases hfind : (List.range 64).find? (fun l => p.getLsbD l) with
  | none => simpa using List.find?_eq_none.1 hfind l (List.mem_range.2 hl)
  | some n =>
    rw [hfind, Option.getD_some] at h
    simpa using (List.find?_range_eq_some.1 hfind).2.2 l h

/-- The lowest 1 bit of a predicate is 1. -/
theorem getLsbD_firstOne {p : BitVec 64} (h : firstOne p < 64) : p.getLsbD (firstOne p) = true := by
  unfold firstOne at h ⊢
  cases hfind : (List.range 64).find? (fun l => p.getLsbD l) with
  | none => rw [hfind] at h; exact absurd h (by decide)
  | some n => exact List.find?_some hfind

theorem firstOne_le (p : BitVec 64) : firstOne p ≤ 64 := by
  unfold firstOne
  cases hfind : (List.range 64).find? (fun l => p.getLsbD l) with
  | none => exact le_rfl
  | some n => exact (List.mem_range.1 (List.mem_of_find?_eq_some hfind)).le

/-- The 1 bits of a predicate from its bits. -/
theorem countOnes_predOf (f : Nat → Bool) : countOnes (predOf f) = ((List.range 64).filter f).length :=
  congrArg List.length (List.filter_congr fun _ hl => getLsbD_predOf f (List.mem_range.1 hl))

section
variable {o : VOp} {x : CtxId} {s : State}

theorem vpredSet_gives (hruns : s.runs o.core x (encV 0x26 4 o) = true) :
    Gives (.vpredSet o) s fun t =>
      s.ran t o.core [(1, .preg (pfld o.vd) (BitVec.allOnes 64) (BitVec.allOnes 64) false)] 0 ∧ s.onlyCores t :=
  gives_of_plain rfl hruns rfl (pland_plain _ _ _ _ _ [])

theorem vpredClr_gives (hruns : s.runs o.core x (encV 0x26 5 o) = true) :
    Gives (.vpredClr o) s fun t =>
      s.ran t o.core [(1, .preg (pfld o.vd) (BitVec.allOnes 64) 0 false)] 0 ∧ s.onlyCores t :=
  gives_of_plain rfl hruns rfl (pland_plain _ _ _ _ _ [])

theorem vpredCnt_gives (hruns : s.runs o.core x (encV 0x26 6 o) = true) :
    Gives (.vpredCnt o) s fun t =>
      let k := s.found o.core
      let n := ((List.range 64).filter (fun l => (k.th.p (pfld o.va)).getLsbD l)).length
      s.ran t o.core [(2, .sreg o.ss (BitVec.ofNat 64 n) (k.th.pp (pfld o.va)))] 0 ∧ s.onlyCores t :=
  gives_of_plain rfl hruns rfl (sland_plain _ _ _ _ [_])

theorem vpredFirst_gives (hruns : s.runs o.core x (encV 0x26 7 o) = true) :
    Gives (.vpredFirst o) s fun t =>
      let k := s.found o.core
      ∃ n : Nat, (∀ l, l < n → l < 64 → (k.th.p (pfld o.va)).getLsbD l = false) ∧
        (n < 64 → (k.th.p (pfld o.va)).getLsbD n = true) ∧ n ≤ 64 ∧
        s.ran t o.core [(2, .sreg o.ss (BitVec.ofNat 64 n) (k.th.pp (pfld o.va)))] 0 ∧ s.onlyCores t :=
  (gives_of_plain rfl hruns rfl (sland_plain 2 o.ss
    (BitVec.ofNat 64 (firstOne ((s.found o.core).th.p (pfld o.va)))) _ [_])).imp fun _ ht =>
    ⟨_, fun _ => getLsbD_of_lt_firstOne, getLsbD_firstOne, firstOne_le _, ht⟩

end

/-! ### Checksum residues -/

section
variable {o : VOp} {x : CtxId} {s : State}

/-- The effect of CKSUM.CMP without the tolerance form, for the lanes that differ. -/
def cksumCmpEff (o : VOp) (k : Core) (differ : Nat → Bool) (po : Bool) : Eff :=
  { lands := [(5, .preg (pfld o.vd) (if o.pz then BitVec.allOnes 64 else predOf (k.th.active o))
        (predOf (fun l => k.th.active o l && differ l)) (po || (merges o && k.th.pp (pfld o.vd)))),
      (6, .sreg o.ss (BitVec.ofNat 64 (countOnes (predOf (fun l => k.th.active o l && differ l)))) po)]
    reads := predRead o ++ [(Loc.v o.va, 0), (Loc.v o.vb, 0)] }

theorem bne_word (a b : Word32) : (a != b) = decide (a ≠ b) := by rw [bne, beq_eq_decide, decide_not]

theorem cksumCmp_gives (hruns : s.runs o.core x (encV 0x2A 0 o) = true) (htol : o.imm.getLsbD 0 = false) :
    Gives (.cksumCmp o) s fun t =>
      let k := s.found o.core
      let po := k.th.vp o.va || k.th.vp o.vb || k.th.ap o
      let differ (l : Nat) : Bool := decide (vlane (k.th.v o.va) l ≠ vlane (k.th.v o.vb) l)
      ∃ m v, BitsHold k o differ m v ∧
        s.ran t o.core [(5, .preg (pfld o.vd) m v (po || (o.pe && !o.pz && k.th.pp (pfld o.vd)))),
          (6, .sreg o.ss (BitVec.ofNat 64 ((List.range 64).filter (fun l => k.th.active o l && differ l)).length) po)] 0 ∧
        s.onlyCores t := by
  let k := s.found o.core
  let differ (l : Nat) : Bool := decide (vlane (k.th.v o.va) l ≠ vlane (k.th.v o.vb) l)
  refine (gives_of_plain (e := cksumCmpEff o k differ (k.th.vp o.va || k.th.vp o.vb || k.th.ap o)) rfl hruns ?_
    ⟨⟨rfl, rfl, rfl⟩, rfl, rfl⟩).imp fun t ht => ⟨_, _, bitsHold_predOf k o differ, ?_⟩
  · simp only [htol, Bool.false_and, Bool.or_false, Bool.false_eq_true, if_false, List.append_nil, bne_word]
    rfl
  · rwa [cksumCmpEff, countOnes_predOf] at ht

/-- Counts go to the receipt of a live job. -/
theorem State.counts_modCounts (s : State) {x : Nat} (f : Counts → Counts) (h : (s.job x).live = true) :
    ((s.modCounts x f).job x).counts = f (s.job x).counts := by
  have hjob : (s.modCounts x f).job x = if (s.job x).live then { s.job x with counts := f (s.job x).counts } else s.job x :=
    sget_smod_same ..
  rw [hjob, if_pos h]

/-- The effect of CKSUM.LOG without a mismatch. -/
def cksumLogEff (o : VOp) (x : CtxId) (n : Nat) : Eff :=
  { reads := [(Loc.s o.ss, 0)]
    onState := fun s => s.modCounts x (fun c => { c with swChecks := c.swChecks + n }) }

theorem cksumLog_gives (hruns : s.runs o.core x (encV 0x2A 1 o) = true) (hclean : (s.found o.core).th.sp o.ss = false)
    (hlow : ((s.found o.core).th.s o.ss).toNat < 2 ^ 32) :
    Gives (.cksumLog o) s fun t =>
      s.ran t o.core [] 0 ∧ t = { s with cores := t.cores, regs := t.regs, chk := t.chk } ∧
      ((s.job x).live = true → (t.job x).counts = { (s.job x).counts with
        swChecks := (s.job x).counts.swChecks + ((s.found o.core).th.s o.ss).toNat }) := by
  have hdiv : ((s.found o.core).th.s o.ss).toNat / 2 ^ 32 = 0 := Nat.div_eq_of_lt hlow
  have hmod : ((s.found o.core).th.s o.ss).toNat % 2 ^ 32 = ((s.found o.core).th.s o.ss).toNat := Nat.mod_eq_of_lt hlow
  let e := cksumLogEff o x ((s.found o.core).th.s o.ss).toNat
  obtain ⟨t, ht, hfinish⟩ := State.finish_straight (s.modCore o.core Core.settle) o.core x (e := e) ⟨rfl, rfl, rfl⟩
  have hexec : exec (.cksumLog o) s = .next (e.onState t) := by
    rw [exec_of_go (i := .cksumLog o) (e := e) rfl hruns ?_, hfinish]
    simp only [hclean, hdiv, hmod, Bool.false_eq_true, if_false, ne_eq, not_true_eq_false, false_and, if_true]
    rfl
  have honly : s.onlyCores t := State.onlyCores_of_settled ht.frame
  have hjob : t.job x = s.job x := by rw [State.job, honly]; rfl
  refine ⟨_, hexec, State.ran_congr (ht.ran rfl) rfl, ?_, fun hlive => ?_⟩
  · exact congrArg (fun u : State => { u with chk := (e.onState t).chk }) honly
  · rw [← hjob] at hlive ⊢
    exact State.counts_modCounts t _ hlive

end

/-- Settles O21: the compares and the operations on two predicates are lane by lane; the counts are those of
`countOnes` and `firstOne`; the checksum instructions follow. -/
theorem vectorComparesAndPredicates : Obligations.VectorComparesAndPredicates := by
  unfold Obligations.VectorComparesAndPredicates
  intro cmp pair
  have hcmp {mk : VOp → Instr} {fn : Nat} {g f : Word32 → Word32 → Bool × FFlags}
      (hexec : ∀ o s, exec (mk o) s = ok (issue o.core (encV 0x22 fn o) (fun _ _ k => vcmp 2 o k g) s))
      (hfun : ∀ a b, g a b = f a b) : cmp mk fn f := vcmp_gives hexec hfun
  have hpair {mk : VOp → Instr} {fn : Nat} {g : BitVec 64 → BitVec 64 → BitVec 64} {f : Bool → Bool → Bool}
      (hexec : ∀ o s, exec (mk o) s = ok (issue o.core (encV 0x26 fn o) (fun _ _ k => ppair o k g) s))
      (hbit : ∀ a b l, l < 64 → (g a b).getLsbD l = f (a.getLsbD l) (b.getLsbD l)) : pair mk fn f :=
    ppair_gives hexec hbit
  clear_value cmp pair
  exact ⟨hcmp (fun _ _ => rfl) fun _ _ => rfl, hcmp (fun _ _ => rfl) fun _ _ => rfl,
    hcmp (fun _ _ => rfl) fun _ _ => rfl, hcmp (fun _ _ => rfl) fun _ _ => rfl, hcmp (fun _ _ => rfl) ieq_value,
    hcmp (fun _ _ => rfl) ine_value, hcmp (fun _ _ => rfl) ilt_value, hcmp (fun _ _ => rfl) ile_value,
    hcmp (fun _ _ => rfl) iltu_value, hcmp (fun _ _ => rfl) ileu_value, hpair (fun _ _ => rfl) pand_bit,
    hpair (fun _ _ => rfl) por_bit, hpair (fun _ _ => rfl) pxor_bit, hpair (fun _ _ => rfl) pandn_bit,
    fun _ _ _ hruns => vpredSet_gives hruns, fun _ _ _ hruns => vpredClr_gives hruns,
    fun _ _ _ hruns => vpredCnt_gives hruns, fun _ _ _ hruns => vpredFirst_gives hruns,
    fun _ _ _ hruns htol => cksumCmp_gives hruns htol,
    fun _ _ _ hruns hclean hlow => cksumLog_gives hruns hclean hlow⟩

end Sys2Proof.Machine
end

section
/-! PROOF. The vector conversions, reductions and moves (06_hj1_baseline.md R164 to R166, R181; 07_hj2_contract.md R191
to R194, R216). -/

namespace Sys2Proof.Machine

/-! ### Packed fields -/

theorem ofNat_two_pow_sub_one (w : Nat) : BitVec.ofNat w (2 ^ w - 1) = BitVec.allOnes w := by
  apply BitVec.eq_of_toNat_eq
  rw [BitVec.toNat_ofNat, BitVec.toNat_allOnes, Nat.mod_eq_of_lt (Nat.sub_lt (Nat.two_pow_pos w) one_pos)]

/-- The mask of a packing conversion selects the fields of the lanes that it writes. -/
theorem extractLsb'_packMask {w base : Nat} (hfit : base + 64 * w ≤ 2048) (g : Nat → Bool) {l : Nat} (hl : l < 64) :
    (BitVec.ofNat 2048 (packLanes w (fun l => if g l then 2 ^ w - 1 else 0) 64 * 2 ^ base)).extractLsb' (base + w * l) w =
      if g l then BitVec.allOnes w else 0 := by
  rw [extractLsb'_packed hfit _ hl]
  cases g l
  · rfl
  · exact ofNat_two_pow_sub_one w

/-- The effect of a packing conversion. -/
def vpackEff (lat wd base : Nat) (o : VOp) (k : Core) (f : Nat → Nat × FFlags) : Eff :=
  { lands := [(lat, .vreg o.vd
        (BitVec.ofNat 2048 (packLanes wd (fun l => if o.pz || k.th.active o l then 2 ^ wd - 1 else 0) 64 * 2 ^ base))
        (BitVec.ofNat 2048 (packLanes wd (fun l => if k.th.active o l then (f l).1 else 0) 64 * 2 ^ base))
        (k.th.vp o.va || (o.sr && k.th.vp o.vc) || k.th.ap o || k.th.vp o.vd))]
    flags := laneFlags (k.th.active o) (fun l => (f l).2) 64
    reads := predRead o ++ (Loc.v o.va, 0) :: (if o.sr then [(Loc.v o.vc, 0)] else []) }

theorem vpackEff_plain (lat wd base : Nat) (o : VOp) (k : Core) (f : Nat → Nat × FFlags) :
    (vpackEff lat wd base o k f).Plain := ⟨⟨rfl, rfl, rfl⟩, rfl, rfl⟩

/-- A packing conversion puts its field of VD in flight, the other bits left alone. -/
theorem vpack_gives {mk : VOp → Instr} {fn lat wd n : Nat} {f : Core → VOp → Nat → Nat × FFlags} (hn : 0 < n)
    (hfit : 64 * wd * n ≤ 2048)
    (hexec : ∀ o s, exec (mk o) s =
      ok (issue o.core (encV 0x23 fn o) (fun _ _ k => vpack lat wd (64 * wd * (o.imm.toNat % n)) o k (f k o)) s))
    (o : VOp) (x : CtxId) (s : State) (hruns : s.runs o.core x (encV 0x23 fn o) = true) :
    Gives (mk o) s fun t =>
      let k := s.found o.core
      let base := 64 * wd * (o.imm.toNat % n)
      ∃ m v : BitVec 2048,
        (∀ l, l < 64 → m.extractLsb' (base + wd * l) wd = (if o.pz || k.th.active o l then BitVec.allOnes wd else 0) ∧
          (k.th.active o l → v.extractLsb' (base + wd * l) wd = BitVec.ofNat wd (f k o l).1) ∧
          (o.pz → k.th.active o l = false → v.extractLsb' (base + wd * l) wd = 0)) ∧
        (∀ b, b < base ∨ base + 64 * wd ≤ b → m.getLsbD b = false) ∧
        s.ran t o.core [(lat, .vreg o.vd m v (k.th.vp o.va || (o.sr && k.th.vp o.vc) || k.th.ap o || k.th.vp o.vd))]
          (laneFlags (k.th.active o) (fun l => (f k o l).2) 64) ∧ s.onlyCores t := by
  have hbase : 64 * wd * (o.imm.toNat % n) + 64 * wd ≤ 2048 := by
    calc 64 * wd * (o.imm.toNat % n) + 64 * wd = 64 * wd * (o.imm.toNat % n + 1) := by ring
      _ ≤ 64 * wd * n := Nat.mul_le_mul_left _ (Nat.mod_lt _ hn)
      _ ≤ 2048 := hfit
  refine (gives_of_plain (hexec o s) hruns rfl (vpackEff_plain lat wd _ o _ _)).imp fun t ht =>
    ⟨_, _, fun l hl => ⟨extractLsb'_packMask hbase _ hl, fun hact => ?_, fun _ hact => ?_⟩,
      fun b hb => getLsbD_packed wd _ _ hb, ht⟩
  · rw [extractLsb'_packed hbase _ hl, if_pos hact]
  · rw [extractLsb'_packed hbase _ hl, if_neg (by rw [hact]; decide)]
    rfl

/-! ### Reductions -/

/-- The effect of a reduction whose result is `v`, and `w` in a scalar register. -/
def vredEff (latV latS : Nat) (o : VOp) (k : Core) (v : Word32) (w : Word64) (fl : FFlags) : Eff :=
  { lands := [(latV, .vreg o.vd (BitVec.allOnes 2048) (vecOf (fun _ => v)) (k.th.vp o.va || k.th.ap o)),
      (latS, .sreg o.ss w (k.th.vp o.va || k.th.ap o))]
    flags := fl
    reads := predRead o ++ [(Loc.v o.va, 0)] }

theorem vredEff_plain (latV latS : Nat) (o : VOp) (k : Core) (v : Word32) (w : Word64) (fl : FFlags) :
    (vredEff latV latS o k v w fl).Plain := ⟨⟨rfl, rfl, rfl⟩, rfl, rfl⟩

/-- A reduction puts the value of its tree in flight for every lane of VD and for SS. -/
theorem vred_gives {mk : VOp → Instr} {fn latV latS : Nat} {ident : Word32} {sgn : Bool}
    {g f : Word32 → Word32 → Word32 × FFlags}
    (hexec : ∀ o s, exec (mk o) s =
      ok (issue o.core (encV 0x24 fn o) (fun _ _ k => vred latV latS ident sgn o k g) s))
    (hfun : ∀ a b, g a b = f a b) (o : VOp) (x : CtxId) (s : State) (hruns : s.runs o.core x (encV 0x24 fn o) = true) :
    Gives (mk o) s fun t =>
      let k := s.found o.core
      let r := redTree f 6 ((List.range 64).map (fun l => if k.th.active o l then vlane (k.th.v o.va) l else ident)) 0
      let po := k.th.vp o.va || k.th.ap o
      ∃ v : BitVec 2048, (∀ l, l < 64 → vlane v l = r.1) ∧
        s.ran t o.core [(latV, .vreg o.vd (BitVec.allOnes 2048) v po),
          (latS, .sreg o.ss (if sgn then r.1.signExtend 64 else r.1.setWidth 64) po)] r.2 ∧ s.onlyCores t := by
  obtain rfl : g = f := funext₂ hfun
  exact (gives_of_plain (hexec o s) hruns rfl (vredEff_plain latV latS o _ _ _ _)).imp fun _ ht =>
    ⟨_, fun _ hl => vlane_vecOf _ hl, ht⟩

theorem fargmax_gives {o : VOp} {x : CtxId} {s : State} (hruns : s.runs o.core x (encV 0x24 3 o) = true) :
    Gives (.fargmax o) s fun t =>
      let k := s.found o.core
      let r := (argmax (k.th.active o) (k.th.v o.va)).getD (0x7FC00000, 64)
      let po := k.th.vp o.va || k.th.ap o
      ∃ v : BitVec 2048, (∀ l, l < 64 → vlane v l = r.1) ∧
        s.ran t o.core [(14, .vreg o.vd (BitVec.allOnes 2048) v po), (15, .sreg o.ss (BitVec.ofNat 64 r.2) po)] 0 ∧
        s.onlyCores t :=
  (gives_of_plain rfl hruns rfl (vredEff_plain 14 15 o _ _ _ 0)).imp fun _ ht =>
    ⟨_, fun _ hl => vlane_vecOf _ hl, ht⟩

theorem ite_slt_swap_eq_ite_le (a b : Word32) : (if b.slt a then b else a) = if a.toInt ≤ b.toInt then a else b := by
  rw [ite_slt_eq_ite_le]
  split_ifs with h1 h2 h2
  · exact BitVec.eq_of_toInt_eq (by omega)
  · rfl
  · rfl
  · omega

theorem imin_value (a b : Word32) :
    (if b.slt a then b else a, (0 : FFlags)) = (if a.toInt ≤ b.toInt then a else b, 0) := by rw [ite_slt_swap_eq_ite_le]

/-! ### Moves -/

section
variable {o : VOp} {x : CtxId} {s : State}

theorem vland_plain (lat : Nat) (r : Fin 32) (m v : BitVec 2048) (po : Bool) (reads : List (Loc × Nat)) :
    ({ lands := [(lat, .vreg r m v po)], reads := reads } : Eff).Plain := ⟨⟨rfl, rfl, rfl⟩, rfl, rfl⟩

theorem sel_gives (hruns : s.runs o.core x (encV 0x25 2 o) = true) :
    Gives (.sel o) s fun t =>
      let k := s.found o.core
      ∃ v : BitVec 2048,
        (∀ l, l < 64 → vlane v l = if k.th.active o l then vlane (k.th.v o.va) l else vlane (k.th.v o.vb) l) ∧
        s.ran t o.core [(2, .vreg o.vd (BitVec.allOnes 2048) v (k.th.vp o.va || k.th.vp o.vb || k.th.ap o))] 0 ∧
        s.onlyCores t :=
  (gives_of_plain rfl hruns rfl (vland_plain _ _ _ (vecOf _) _ _)).imp fun _ ht =>
    ⟨_, fun _ hl => vlane_vecOf _ hl, ht⟩

theorem get_gives (hruns : s.runs o.core x (encV 0x25 3 o) = true) :
    Gives (.get o) s fun t =>
      let k := s.found o.core
      s.ran t o.core [(3, .sreg o.ss ((vlane (k.th.v o.va) (o.imm.toNat % 64)).setWidth 64) (k.th.vp o.va))] 0 ∧
      s.onlyCores t :=
  gives_of_plain rfl hruns rfl (sland_plain _ _ _ _ [_])

theorem put_gives (hruns : s.runs o.core x (encV 0x25 4 o) = true) :
    Gives (.put o) s fun t =>
      let k := s.found o.core
      ∃ m v : BitVec 2048,
        (∀ l, l < 64 → vlane m l = if l = o.imm.toNat % 64 then 0xFFFFFFFF else 0) ∧
        vlane v (o.imm.toNat % 64) = (k.th.s o.ss).setWidth 32 ∧
        s.ran t o.core [(2, .vreg o.vd m v (k.th.sp o.ss || k.th.vp o.vd))] 0 ∧ s.onlyCores t := by
  refine (gives_of_plain rfl hruns rfl (vland_plain _ _ (laneMask _) (vecOf _) _ _)).imp fun _ ht =>
    ⟨_, _, fun l hl => ?_, vlane_vecOf _ (Nat.mod_lt _ (by decide)), ht⟩
  rw [vlane_laneMask _ hl]
  simp only [beq_iff_eq]

end

/-- Settles O22: the lane functions are `lanes_gives`, the packing conversions `vpack_gives`, the reductions
`vred_gives`, and the moves follow. -/
theorem vectorConversionsReductionsMoves : Obligations.VectorConversionsReductionsMoves := by
  unfold Obligations.VectorConversionsReductionsMoves
  intro lanes field pack draw red va
  have hlanes {mk : VOp → Instr} {op fn lat : Nat} {f : Core → VOp → Nat → Word32 × FFlags} {po : Core → VOp → Bool}
      {reads : VOp → List (Loc × Nat)}
      (hexec : ∀ o s, exec (mk o) s =
        ok (issue o.core (encV op fn o) (fun _ _ k => vres lat o k (f k o) (po k o) (reads o)) s)) :
      lanes mk op fn lat f po := fun o x s hruns => lanes_gives (hexec o s) hruns rfl
  have hpack {mk : VOp → Instr} {fn lat wd n : Nat} {f : Core → VOp → Nat → Nat × FFlags} (hn : 0 < n)
      (hfit : 64 * wd * n ≤ 2048)
      (hexec : ∀ o s, exec (mk o) s =
        ok (issue o.core (encV 0x23 fn o) (fun _ _ k => vpack lat wd (64 * wd * (o.imm.toNat % n)) o k (f k o)) s)) :
      pack mk fn lat wd n f := vpack_gives hn hfit hexec
  have hred {mk : VOp → Instr} {fn latV latS : Nat} {ident : Word32} {sgn : Bool}
      {g f : Word32 → Word32 → Word32 × FFlags}
      (hexec : ∀ o s, exec (mk o) s =
        ok (issue o.core (encV 0x24 fn o) (fun _ _ k => vred latV latS ident sgn o k g) s))
      (hfun : ∀ a b, g a b = f a b) : red mk fn latV latS ident sgn f := vred_gives hexec hfun
  clear_value lanes pack red
  exact ⟨hlanes fun _ _ => rfl, hlanes fun _ _ => rfl, hpack (by decide) (by decide) fun _ _ => rfl,
    hlanes fun _ _ => rfl, hpack (by decide) (by decide) fun _ _ => rfl, hlanes fun _ _ => rfl,
    hpack (by decide) (by decide) fun _ _ => rfl, hlanes fun _ _ => rfl,
    hpack (by decide) (by decide) fun _ _ => rfl, hlanes fun _ _ => rfl, hred (fun _ _ => rfl) fun _ _ => rfl,
    hred (fun _ _ => rfl) fun _ _ => rfl, hred (fun _ _ => rfl) fun _ _ => rfl, hred (fun _ _ => rfl) fun _ _ => rfl,
    hred (fun _ _ => rfl) vmax_value, hred (fun _ _ => rfl) imin_value, fun _ _ _ hruns => fargmax_gives hruns,
    hlanes fun _ _ => rfl, hlanes fun _ _ => rfl, hlanes fun _ _ => rfl, hlanes fun _ _ => rfl,
    fun _ _ _ hruns => sel_gives hruns, fun _ _ _ hruns => get_gives hruns, fun _ _ _ hruns => put_gives hruns⟩

end Sys2Proof.Machine
end

section
/-! PROOF. Vector memory, mask streams and quantised moments (06_hj1_baseline.md R167; 07_hj2_contract.md R195 to R203;
16_stochastic.md R464 to R469; 17_learning.md R512). -/

namespace Sys2Proof.Machine

/-! ### Bytes -/

/-- Byte `b` of the little-endian bytes of a number. -/
theorem getElem?_leBytes {n b : Nat} (hb : b < n) (v : Nat) :
    (leBytes n v)[b]? = some (BitVec.ofNat 8 (v / 2 ^ (8 * b))) := by
  induction n generalizing v b with
  | zero => omega
  | succ n ih =>
    rw [leBytes]
    cases b with
    | zero => simp
    | succ b =>
      have hdiv : v / 256 / 2 ^ (8 * b) = v / 2 ^ (8 * (b + 1)) := by
        rw [Nat.div_div_eq_div_mul, Nat.mul_add, Nat.pow_add, Nat.mul_comm]
      rw [List.getElem?_cons_succ, ih (by omega), hdiv]

theorem length_leBytes (n v : Nat) : (leBytes n v).length = n := by
  induction n generalizing v with
  | zero => rfl
  | succ n ih => rw [leBytes, List.length_cons, ih]

section
variable {α : Type} {w : Nat} {f : Nat → List α} (hlen : ∀ l, (f l).length = w)
include hlen

theorem length_flatMap_range (n : Nat) : ((List.range n).flatMap f).length = w * n := by
  induction n with
  | zero => rfl
  | succ n ih =>
    rw [List.range_succ, List.flatMap_append, List.length_append, ih, List.flatMap_singleton, hlen, Nat.mul_succ]

/-- An element of one of the parts, all of one length, that a list is joined from. -/
theorem getElem?_flatMap_range {n l b : Nat} (hl : l < n) (hb : b < w) :
    ((List.range n).flatMap f)[w * l + b]? = (f l)[b]? := by
  induction n with
  | zero => omega
  | succ n ih =>
    rw [List.range_succ, List.flatMap_append, List.flatMap_singleton]
    have hcount := length_flatMap_range hlen n
    obtain rfl | hlt := Nat.eq_or_lt_of_le (Nat.le_of_lt_succ hl)
    · rw [List.getElem?_append_right (by omega), hcount, Nat.add_sub_cancel_left]
    · have hbound : w * l + b < w * n := by
        calc w * l + b < w * (l + 1) := by rw [Nat.mul_succ]; omega
          _ ≤ w * n := Nat.mul_le_mul_left _ hlt
      rw [List.getElem?_append_left (by omega), ih hlt]

end

/-! ### Vector memory -/

section
variable {o : VOp} {x : CtxId} {s : State}

theorem vecTrap_eq_none {k : Core} {n : Nat} (hclean : k.th.sp o.ss = false) (hbound : vaddr o k + n ≤ 0x300000)
    (halign : vaddr o k % 64 = 0) : vecTrap o k n = none := by
  unfold vecTrap
  simp only [hclean, Bool.false_eq_true, if_false, not_lt.2 hbound, halign, ne_eq, not_true_eq_false]

theorem laneFlags_zero (act : Nat → Bool) (n : Nat) : laneFlags act (fun _ => 0) n = 0 := by
  induction n with
  | zero => rfl
  | succ n ih => rw [laneFlags, ih, ite_self, BitVec.or_self]

theorem vld_gives (hruns : s.runs o.core x (encV 0x28 0 o) = true) (hclean : (s.found o.core).th.sp o.ss = false)
    (hbound : vaddr o (s.found o.core) + 256 ≤ 0x300000) (halign : vaddr o (s.found o.core) % 64 = 0) :
    Gives (.vld o) s fun t =>
      let k := s.found o.core
      let a := vaddr o k
      let q := k.viewAt (k.th.cyc + 2)
      ∃ m v, LanesHold k o (fun l => BitVec.ofNat 32 (leNat (q.rd (a + 4 * l) 4))) m v ∧
        s.ran t o.core [(5, .vreg o.vd m v (q.marked a 256 || k.th.ap o || mergePoison k o))] 0 ∧ s.onlyCores t := by
  let k := s.found o.core
  let q := k.viewAt (k.th.cyc + 2)
  let f (l : Nat) : Word32 := BitVec.ofNat 32 (leNat (q.rd (vaddr o k + 4 * l) 4))
  refine (gives_of_plain (e := { vresEff 5 o k (fun l => (f l, 0)) (q.marked (vaddr o k) 256) [(Loc.s o.ss, 0)] with
    banks := vbanks (vaddr o k) 256 }) rfl hruns ?_ ⟨⟨rfl, rfl, rfl⟩, rfl, rfl⟩).imp fun t ht =>
    ⟨_, _, lanesHold_vecOf k o f, ?_⟩
  · simp only [vecTrap_eq_none hclean hbound halign]
    rfl
  · rw [← laneFlags_zero (k.th.active o) 64]
    exact ht

/-- The bytes of VST: those of the active lanes. -/
def vstBytes (o : VOp) (k : Core) : List (Option Byte) :=
  (List.range 64).flatMap (fun l =>
    (leBytes 4 (vlane (k.th.v o.va) l).toNat).map (fun b => if k.th.active o l then some b else none))

theorem length_vstBytes (o : VOp) (k : Core) : (vstBytes o k).length = 256 :=
  length_flatMap_range (w := 4) (fun l => by rw [List.length_map, length_leBytes]) 64

theorem getElem?_vstBytes (o : VOp) (k : Core) {l b : Nat} (hl : l < 64) (hb : b < 4) :
    (vstBytes o k)[4 * l + b]? = some (if k.th.active o l
      then some ((vlane (k.th.v o.va) l).extractLsb' (8 * b) 8) else none) := by
  have hbyte : BitVec.ofNat 8 ((vlane (k.th.v o.va) l).toNat / 2 ^ (8 * b)) =
      (vlane (k.th.v o.va) l).extractLsb' (8 * b) 8 := by
    apply BitVec.eq_of_toNat_eq
    rw [BitVec.extractLsb'_toNat, BitVec.toNat_ofNat, Nat.shiftRight_eq_div_pow]
  rw [vstBytes, getElem?_flatMap_range (w := 4) (fun l => by rw [List.length_map, length_leBytes]) hl hb,
    List.getElem?_map, getElem?_leBytes hb, hbyte]
  rfl

theorem vst_gives (hruns : s.runs o.core x (encV 0x29 0 o) = true) (hclean : (s.found o.core).th.sp o.ss = false)
    (hbound : vaddr o (s.found o.core) + 256 ≤ 0x300000) (halign : vaddr o (s.found o.core) % 64 = 0) :
    Gives (.vst o) s fun t =>
      let k := s.found o.core
      ∃ bs : List (Option Byte), bs.length = 256 ∧
        (∀ l b, l < 64 → b < 4 → bs[4 * l + b]? = some (if k.th.active o l
          then some ((vlane (k.th.v o.va) l).extractLsb' (8 * b) 8) else none)) ∧
        s.ran t o.core [(3, .scratch (vaddr o k) bs (k.th.vp o.va || k.th.ap o))] 0 ∧ s.onlyCores t := by
  let k := s.found o.core
  refine (gives_of_plain (e := { lands := [(3, .scratch (vaddr o k) (vstBytes o k) (k.th.vp o.va || k.th.ap o))]
                                 reads := predRead o ++ [(Loc.v o.va, 0), (Loc.s o.ss, 0)]
                                 banks := vbanks (vaddr o k) 256 }) rfl hruns ?_ ⟨⟨rfl, rfl, rfl⟩, rfl, rfl⟩).imp
    fun _ ht => ⟨_, length_vstBytes o k, fun _ _ hl hb => getElem?_vstBytes o k hl hb, ht⟩
  simp only [vecTrap_eq_none hclean hbound halign]
  rfl

/-! ### Mask streams -/

/-- Block `c` of stream `m` has been taken, and core `k` owns the stream. -/
def State.streamTaken (s : State) (x : CtxId) (m : Nat) (c : Word64) (k : CoreId) : State :=
  ((s.modCtx x (fun g => { g with streams := sset (0, none) g.streams m (c + 1, some k) })).modJob x
    (fun j => { j with blocks := j.blocks + 1 })).inc (pCTX x) 0xF80

theorem State.streamTaken_cores (s : State) (x : CtxId) (m : Nat) (c : Word64) (k : CoreId) :
    (s.streamTaken x m c k).cores = s.cores := by
  simp only [State.streamTaken, State.inc_cores, State.modJob_cores, State.modCtx_cores]

theorem State.streamTaken_mem (s : State) (x : CtxId) (m : Nat) (c : Word64) (k : CoreId) :
    (s.streamTaken x m c k).mem = s.mem := by
  simp only [State.streamTaken, State.inc_mem, State.modJob_mem, State.modCtx_mem]

theorem State.stream_streamTaken (s : State) (x : CtxId) (m : Nat) (c : Word64) (k : CoreId) :
    sget (0, none) ((s.streamTaken x m c k).ctx x).streams m = (c + 1, some k) := by
  have hctxs : (s.streamTaken x m c k).ctxs = (s.modCtx x (fun g =>
      { g with streams := sset (0, none) g.streams m (c + 1, some k) })).ctxs := by
    simp only [State.streamTaken, State.inc_ctxs, State.modJob_ctxs]
  rw [State.ctx_congr hctxs, State.ctx_modCtx_same]
  exact sget_sset_same ..

/-- The effect of a VMASK that takes the stream's block `c`. -/
def vmaskEff (o : VOp) (x : CtxId) (c : Word64) (lands : List (Nat × LandVal)) (reads : List (Loc × Nat)) : Eff :=
  { lands := lands, reads := reads, onState := fun s => s.streamTaken x (o.imm.toNat % 64) c o.core }

/-- An instruction with this effect has run, and its core owns the stream, whose next block comes then. -/
theorem gives_of_vmask {i : Instr} {w : Nat} {f : State → CtxId → Core → IRes} {c : Word64}
    {lands : List (Nat × LandVal)} {reads : List (Loc × Nat)} (hexec : exec i s = ok (issue o.core w f s))
    (hruns : s.runs o.core x w = true)
    (hres : f (s.modCore o.core Core.settle) x (s.found o.core) = .go (vmaskEff o x c lands reads)) :
    Gives i s fun t => s.ran t o.core lands 0 ∧
      sget (0, none) (t.ctx x).streams (o.imm.toNat % 64) = (c + 1, some o.core) ∧ t.mem = s.mem := by
  obtain ⟨t, ht, hfinish⟩ := State.finish_straight (s.modCore o.core Core.settle) o.core x
    (e := vmaskEff o x c lands reads) ⟨rfl, rfl, rfl⟩
  have honly : s.onlyCores t := State.onlyCores_of_settled ht.frame
  refine ⟨t.streamTaken x (o.imm.toNat % 64) c o.core, ?_, State.ran_congr (ht.ran rfl) (State.streamTaken_cores ..),
    State.stream_streamTaken .., ?_⟩
  · rw [exec_of_go hexec hruns hres, hfinish]
    rfl
  · rw [State.streamTaken_mem, honly]

/-- A VMASK of a stream that is free or its core's own. -/
theorem vmask_eq_go {lands : (Nat → Nat) → List (Nat × LandVal)} {reads : List (Loc × Nat)}
    (hown : (sget (0, none) (s.ctx x).streams (o.imm.toNat % 64)).2 = none ∨
      (sget (0, none) (s.ctx x).streams (o.imm.toNat % 64)).2 = some o.core) :
    vmask o (s.modCore o.core Core.settle) x (fun d => { lands := lands d, reads := reads }) =
      let c := (sget (0, none) (s.ctx x).streams (o.imm.toNat % 64)).1
      let key := streamKey (s.ctx x) x (o.imm.toNat % 64)
      .go (vmaskEff o x c (lands (maskDraw key.1 key.2 c)) reads) := by
  have hctx : (s.modCore o.core Core.settle).ctx x = s.ctx x := rfl
  unfold vmask
  dsimp only
  rw [hctx]
  generalize sget (0, none) (s.ctx x).streams (o.imm.toNat % 64) = g at hown ⊢
  obtain ⟨c, own⟩ := g
  have hfree : (own.isSome && own != some o.core) = false := by
    obtain rfl | rfl : own = none ∨ own = some o.core := hown
    · rfl
    · simp
  simp only [hfree, Bool.false_eq_true, if_false]
  rfl

/-- A VMASK of another core's stream. -/
theorem vmask_eq_trap {f : (Nat → Nat) → Eff} {c : CoreId} (hc : c ≠ o.core)
    (hown : (sget (0, none) (s.ctx x).streams (o.imm.toNat % 64)).2 = some c) :
    vmask o s x f = .trap stMASK_STREAM_OWNER 0 := by
  unfold vmask
  dsimp only
  generalize sget (0, none) (s.ctx x).streams (o.imm.toNat % 64) = g at hown ⊢
  obtain ⟨b, own⟩ := g
  obtain rfl : own = some c := hown
  have hother : ((some c).isSome && some c != some o.core) = true := by simpa using hc
  simp only [hother, if_true]

theorem vmaskMask_gives (hruns : s.runs o.core x (encV 0x27 0 o) = true)
    (hown : (sget (0, none) (s.ctx x).streams (o.imm.toNat % 64)).2 = none ∨
      (sget (0, none) (s.ctx x).streams (o.imm.toNat % 64)).2 = some o.core) :
    Gives (.vmaskMask o) s fun t =>
      let k := s.found o.core
      let n := o.imm.toNat % 64
      let g := sget (0, none) (s.ctx x).streams n
      let key := streamKey (s.ctx x) x n
      (∃ m v, BitsHold k o (fun l => decide (maskDraw key.1 key.2 g.1 l < (k.th.vb o l).toNat % 65536)) m v ∧
        s.ran t o.core [(6, .preg (pfld o.vd) m v (k.th.vbp o || k.th.ap o || (o.pe && !o.pz && k.th.pp (pfld o.vd))))] 0) ∧
      sget (0, none) (t.ctx x).streams n = (g.1 + 1, some o.core) ∧ t.mem = s.mem :=
  (gives_of_vmask rfl hruns (vmask_eq_go hown)).imp fun _ ht => ⟨⟨_, _, bitsHold_predOf _ o _, ht.1⟩, ht.2⟩

theorem vmaskDraw_gives (hruns : s.runs o.core x (encV 0x27 1 o) = true)
    (hown : (sget (0, none) (s.ctx x).streams (o.imm.toNat % 64)).2 = none ∨
      (sget (0, none) (s.ctx x).streams (o.imm.toNat % 64)).2 = some o.core) :
    Gives (.vmaskDraw o) s fun t =>
      let k := s.found o.core
      let n := o.imm.toNat % 64
      let g := sget (0, none) (s.ctx x).streams n
      let key := streamKey (s.ctx x) x n
      (∃ m v, LanesHold k o (fun l => BitVec.ofNat 32 (maskDraw key.1 key.2 g.1 l)) m v ∧
        s.ran t o.core [(6, .vreg o.vd m v (k.th.ap o || mergePoison k o))] 0) ∧
      sget (0, none) (t.ctx x).streams n = (g.1 + 1, some o.core) ∧ t.mem = s.mem :=
  (gives_of_vmask rfl hruns (vmask_eq_go hown)).imp fun _ ht => ⟨⟨_, _, lanesHold_vecOf _ o _, ht.1⟩, ht.2⟩

/-! ### Quantised moments -/

theorem momqLd_gives (hruns : s.runs o.core x (encV 0x2B 0 o) = true) (hclean : (s.found o.core).th.sp o.ss = false)
    (hbound : vaddr o (s.found o.core) + 192 ≤ 0x300000) (halign : vaddr o (s.found o.core) % 64 = 0) :
    Gives (.momqLd o) s fun t =>
      let k := s.found o.core
      let q := k.viewAt (k.th.cyc + 2)
      let byte (i : Nat) : Nat := ((q.rd (vaddr o k) 192).getD i 0).toNat
      ∃ m1 v1 m2 v2 p1 p2 fl,
        LanesHold k o (fun l => (bs8Load (byte l) (byte (64 + l)) (byte 128)).1) m1 v1 ∧
        LanesHold k o (fun l => (bs8Load (byte l) (byte (64 + l)) (byte 128)).2) m2 v2 ∧
        s.ran t o.core [(7, .vreg o.vd m1 v1 p1), (7, .vreg (rfld (o.vd.val + 1)) m2 v2 p2)] fl ∧ s.onlyCores t := by
  let k := s.found o.core
  let q := k.viewAt (k.th.cyc + 2)
  let byte (i : Nat) : Nat := ((q.rd (vaddr o k) 192).getD i 0).toNat
  let f (l : Nat) := bs8Load (byte l) (byte (64 + l)) (byte 128)
  let po := q.marked (vaddr o k) 192 || k.th.ap o
  let vd1 := rfld (o.vd.val + 1)
  refine (gives_of_plain (e := {
      lands := [(7, .vreg o.vd (vmaskOf o (k.th.active o)) (vecOf (fun l => if k.th.active o l then (f l).1 else 0))
          (po || (merges o && k.th.vp o.vd))),
        (7, .vreg vd1 (vmaskOf o (k.th.active o)) (vecOf (fun l => if k.th.active o l then (f l).2 else 0))
          (po || (merges o && k.th.vp vd1)))]
      flags := if byte 128 = 0xFF then laneFlags (k.th.active o) (fun _ => fNV) 64 else 0
      reads := predRead o ++ [(Loc.s o.ss, 0)]
      banks := vbanks (vaddr o k) 192 }) rfl hruns ?_ ⟨⟨rfl, rfl, rfl⟩, rfl, rfl⟩).imp fun _ ht =>
    ⟨_, _, _, _, _, _, _, lanesHold_vecOf k o fun l => (f l).1, lanesHold_vecOf k o fun l => (f l).2, ht⟩
  simp only [vecTrap_eq_none hclean hbound halign]
  rfl

theorem momqSt_gives (hruns : s.runs o.core x (encV 0x2B 1 o) = true) (hclean : (s.found o.core).th.sp o.ss = false)
    (hbound : vaddr o (s.found o.core) + 192 ≤ 0x300000) (halign : vaddr o (s.found o.core) % 64 = 0) :
    Gives (.momqSt o) s fun t =>
      let k := s.found o.core
      let va1 := rfld (o.va.val + 1)
      let dr (l : Nat) : Nat := (vlane (k.th.v o.vc) l).toNat
      let b := bs8Store (fun l => vlane (k.th.v o.va) l) (fun l => vlane (k.th.v va1) l)
        (fun l => if o.sr then some (dr l % 65536) else none) (fun l => if o.sr then some (dr l / 65536) else none)
      s.ran t o.core [(5, .scratch (vaddr o k) (b.1.map some) (k.th.vp o.va || k.th.vp va1 || (o.sr && k.th.vp o.vc)))]
        (if b.2 then fNV else 0) ∧ s.onlyCores t := by
  let k := s.found o.core
  let va1 := rfld (o.va.val + 1)
  let dr (l : Nat) : Nat := (vlane (k.th.v o.vc) l).toNat
  let b := bs8Store (fun l => vlane (k.th.v o.va) l) (fun l => vlane (k.th.v va1) l)
    (fun l => if o.sr then some (dr l % 65536) else none) (fun l => if o.sr then some (dr l / 65536) else none)
  refine gives_of_plain (e := {
      lands := [(5, .scratch (vaddr o k) (b.1.map some) (k.th.vp o.va || k.th.vp va1 || (o.sr && k.th.vp o.vc)))]
      flags := if b.2 then fNV else 0
      reads := [(Loc.v o.va, 0), (Loc.v va1, 0), (Loc.s o.ss, 0)] ++ (if o.sr then [(Loc.v o.vc, 0)] else [])
      banks := vbanks (vaddr o k) 192 }) rfl hruns ?_ ⟨⟨rfl, rfl, rfl⟩, rfl, rfl⟩
  simp only [vecTrap_eq_none hclean hbound halign]
  rfl

theorem momqUpd_gives (hruns : s.runs o.core x (encV 0x2B 2 o) = true) :
    Gives (.momqUpd o) s fun t =>
      let k := s.found o.core
      let vd1 := rfld (o.vd.val + 1)
      let r (l : Nat) := momqLane ((k.th.s o.ss).setWidth 32) ((k.th.s o.ss).extractLsb' 32 32) (vlane (k.th.v o.va) l)
        (vlane (k.th.v o.vd) l) (vlane (k.th.v vd1) l)
      let po := k.th.vp o.va || k.th.sp o.ss || k.th.vp o.vd || k.th.vp vd1 || k.th.ap o
      ∃ m1 v1 m2 v2, LanesHold k o (fun l => (r l).1) m1 v1 ∧ LanesHold k o (fun l => (r l).2.1) m2 v2 ∧
        s.ran t o.core [(9, .vreg o.vd m1 v1 po), (9, .vreg vd1 m2 v2 po)]
          (laneFlags (k.th.active o) (fun l => (r l).2.2) 64) ∧ s.onlyCores t := by
  let k := s.found o.core
  let vd1 := rfld (o.vd.val + 1)
  let r (l : Nat) := momqLane ((k.th.s o.ss).setWidth 32) ((k.th.s o.ss).extractLsb' 32 32) (vlane (k.th.v o.va) l)
    (vlane (k.th.v o.vd) l) (vlane (k.th.v vd1) l)
  let po := k.th.vp o.va || k.th.sp o.ss || k.th.vp o.vd || k.th.vp vd1 || k.th.ap o
  exact (gives_of_plain (e := {
      lands := [(9, .vreg o.vd (vmaskOf o (k.th.active o)) (vecOf (fun l => if k.th.active o l then (r l).1 else 0)) po),
        (9, .vreg vd1 (vmaskOf o (k.th.active o)) (vecOf (fun l => if k.th.active o l then (r l).2.1 else 0)) po)]
      flags := laneFlags (k.th.active o) (fun l => (r l).2.2) 64
      reads := predRead o ++ [(Loc.v o.va, 0), (Loc.v o.vd, 0), (Loc.v vd1, 0), (Loc.s o.ss, 0)] })
    rfl hruns rfl ⟨⟨rfl, rfl, rfl⟩, rfl, rfl⟩).imp fun _ ht =>
    ⟨_, _, _, _, lanesHold_vecOf k o fun l => (r l).1, lanesHold_vecOf k o fun l => (r l).2.1, ht⟩

end

/-- Settles O23: vector memory by its bytes, the mask streams by their owner and block, the moments by their lane
functions. -/
theorem vectorMemoryMasksMoments : Obligations.VectorMemoryMasksMoments := by
  unfold Obligations.VectorMemoryMasksMoments
  exact ⟨fun _ _ _ hruns hclean hbound halign => vld_gives hruns hclean hbound halign,
    fun _ _ _ hruns hclean hbound halign => vst_gives hruns hclean hbound halign,
    fun _ _ _ hruns hown => vmaskMask_gives hruns hown, fun _ _ _ hruns hown => vmaskDraw_gives hruns hown,
    fun _ _ _ _ hruns hc hown hend => gives_of_trap rfl hruns (vmask_eq_trap hc hown) hend,
    fun _ _ _ hruns hclean hbound halign => momqLd_gives hruns hclean hbound halign,
    fun _ _ _ hruns hclean hbound halign => momqSt_gives hruns hclean hbound halign,
    fun _ _ _ hruns => momqUpd_gives hruns⟩

end Sys2Proof.Machine
end

section
/-! PROOF. The stream instructions of a core, and the end of its blocking waits (06_hj1_baseline.md R171, R172, R174;
08_streams.md R224 to R235). -/

namespace Sys2Proof.Machine

/-! ### Channels and threads of a core that has issued -/

theorem Core.chan_modChan_same (k : Core) (ch : Nat) (f : Channel → Channel) :
    (k.modChan ch f).chan ch = f (k.chan ch) := sget_smod_same ..

theorem Core.chan_modChan_ne (k : Core) {ch i : Nat} (f : Channel → Channel) (h : i ≠ ch) :
    (k.modChan ch f).chan i = k.chan i := sget_smod_ne _ _ _ h

theorem Core.chan_congr {k k' : Core} (h : k'.chans = k.chans) (i : Nat) : k'.chan i = k.chan i := by
  rw [Core.chan, h]; rfl

/-- What a thread is once an instruction that raises no flag has issued. -/
theorem Core.thread_issued (k : Core) {e : Eff} (hflags : e.flags = 0) :
    (k.issued e).th = { k.th.push e.lands with pc := k.th.pc + 8 } := by
  have hraise (t : Thread) : t.raiseFlags 0 = t := by simp [Thread.raiseFlags]
  rw [Core.issued, hflags, hraise]

section
variable {s t : State} {c : CoreId} {n : Nat} {e : Eff}

/-- The thread of a core on which an instruction has issued whose own change of the core leaves the thread. -/
theorem State.Passed.after
    (h : ((s.modCore c Core.settle).modCore c (fun k => e.onCore (k.issued e))).Passed c n t)
    (hcore : (e.onCore ((s.found c).issued e)).th = ((s.found c).issued e).th) (hflags : e.flags = 0) :
    (t.core c).th = (s.found c).after n e.lands := by
  rw [h.thread, hcore, Core.thread_issued _ hflags]
  rfl

end

/-! ### The end of a wait -/

/-- A blocking wait of core `c` has ended after `n` cycles with these results: its thread and its bank accesses alone
have changed, and cycles were counted on its page. -/
structure State.Woken (s : State) (c : CoreId) (n : Nat) (lands : List (Nat × LandVal)) (t : State) : Prop where
  frame : s.onlyCores t
  core : ∃ b, t.core c = { s.core c with th := (s.core c).woken n lands, banks := b }
  others : ∀ e, e ≠ c.val → t.core e = s.core e
  reg : ∀ {q k}, (q * 4096 + k < pCORE c * 4096 + 0xF00 ∨ pCORE c * 4096 + 0xF14 < q * 4096 + k) →
    t.reg q k = s.reg q k

section
variable {s t : State} {c : CoreId} {n : Nat} {lands : List (Nat × LandVal)}

theorem State.woken_endWait (s : State) (c : CoreId) (n : Nat) (ls : List (Nat × LandVal)) :
    s.Woken c n (ls.map (fun l => (l.1 - 1, l.2))) (s.endWait c n ls) := by
  have hpassed := s.passed_coreCycles c n
  refine ⟨?_, ?_, fun e he => ?_, fun hq => hpassed.reg hq⟩
  · have hframe : s.coreCycles c n = _ := hpassed.frame
    exact congrArg (fun u : State => { u with cores := (s.endWait c n ls).cores }) hframe
  · obtain ⟨b, hb⟩ := hpassed.core
    refine ⟨b, ?_⟩
    rw [State.endWait, State.core_modCore_same, hb]
    rfl
  · rw [State.endWait, State.core_modCore_ne _ _ he, hpassed.others e he]

theorem State.Woken.thread (h : s.Woken c n lands t) : (t.core c).th = (s.core c).woken n lands := by
  obtain ⟨b, hb⟩ := h.core
  rw [hb]

theorem State.Woken.chans (h : s.Woken c n lands t) : (t.core c).chans = (s.core c).chans := by
  obtain ⟨b, hb⟩ := h.core
  rw [hb]

end

/-! ### What a wait for credits gives -/

section
variable {h : Channel} {d : Desc} {ds : List Desc} {n : Nat} {fail : Bool}

theorem Channel.waitGives_nil (hqueue : h.queue = []) : h.waitGives n fail = some waitFails := by
  rw [Channel.waitGives, hqueue]

theorem Channel.waitGives_fails (hqueue : h.queue = d :: ds) (hfail : fail = true ∨ d.capacity < n) :
    h.waitGives n fail = some waitFails := by
  unfold Channel.waitGives
  simp only [hqueue, hfail, if_true]

theorem Channel.waitGives_credits (hqueue : h.queue = d :: ds) (hfail : ¬(fail = true ∨ d.capacity < n))
    (hcredits : n ≤ h.credits) : h.waitGives n fail = some (BitVec.ofNat 64 h.credits) := by
  unfold Channel.waitGives
  simp only [hqueue, hfail, hcredits, if_true, if_false]

theorem Channel.waitGives_waits (hqueue : h.queue = d :: ds) (hfail : ¬(fail = true ∨ d.capacity < n))
    (hcredits : h.credits < n) : h.waitGives n fail = none := by
  unfold Channel.waitGives
  simp only [hqueue, hfail, if_false, Nat.not_le.2 hcredits]

/-- Credits handed back to a head descriptor. -/
theorem Channel.ack_cons (hqueue : h.queue = d :: ds) (n : Nat) :
    (h.ack n).credits = h.credits - n ∧ (h.ack n).overAck = (h.overAck || decide (h.credits < n)) ∧
      (h.ack n).queue = h.queue := by
  unfold Channel.ack
  simp only [hqueue, and_self, and_true]
  omega

end

/-! ### The instructions -/

section
variable {o : COp} {x : CtxId} {ch : Fin 8} {s : State}

/-- The effect of STR.POST of a descriptor. -/
def strPostEff (o : COp) (x : CtxId) (ch : Fin 8) (taken : Bool) (d : Desc) : Eff :=
  { lands := [(3, .sreg o.sd (if taken then 1 else 0) false)]
    reads := [(Loc.s o.sa, 0)]
    onCore := fun k => if taken then k.modChan ch (fun h => h.post x d) else k }

theorem strPost_gives (hruns : s.runs o.core x (encC 0x50 o) = true) (hphys : (s.ctx x).phys o.ch = some ch)
    (hclean : (s.found o.core).th.sp o.sa = false) (hbound : ((s.found o.core).th.s o.sa).toNat + 64 ≤ 0x300000)
    (halign : ((s.found o.core).th.s o.sa).toNat % 64 = 0)
    (hmark : ((s.found o.core).viewAt ((s.found o.core).th.cyc + 1)).marked ((s.found o.core).th.s o.sa).toNat 64 = false)
    (hfree : ((s.found o.core).chan ch).queue = [] ∨ ((s.found o.core).chan ch).ctx = some x) :
    Gives (.strPost o) s fun t =>
      let k := s.found o.core
      let q := k.viewAt (k.th.cyc + 1)
      let h := k.chan ch
      let h' := (t.core o.core).chan ch
      (t.core o.core).th = k.after 1 [(3, .sreg o.sd (if h.queue.length < 4 then 1 else 0) false)] ∧
      (h.queue.length < 4 → h'.queue = h.queue ++ [parseDesc (q.rd (k.th.s o.sa).toNat 64)]) ∧
      (h.queue = [] → h'.head = .setup ∧ h'.ctx = some x) ∧
      (h.queue ≠ [] → h'.head = h.head ∧ h'.credits = h.credits) ∧ (4 ≤ h.queue.length → h' = h) ∧
      (∀ i, i ≠ ch.val → (t.core o.core).chan i = k.chan i) ∧ (∀ e, e ≠ o.core.val → t.core e = s.core e) ∧
      s.onlyCores t := by
  let k := s.found o.core
  let d := parseDesc ((k.viewAt (k.th.cyc + 1)).rd (k.th.s o.sa).toNat 64)
  let h := k.chan ch
  have hmine : ¬((!h.queue.isEmpty) = true ∧ h.ctx ≠ some x) := by
    rintro ⟨hqueue, hctx⟩
    rcases hfree with hempty | hown
    · simp [h, k, hempty] at hqueue
    · exact hctx hown
  obtain ⟨t, ht, hexec⟩ := gives_of_no_target (i := .strPost o) (e := strPostEff o x ch (decide (h.queue.length < 4)) d)
    rfl hruns (by
      simp only [State.ctx_congr (State.modCore_ctxs ..), hphys, hclean, Bool.false_eq_true, if_false,
        Nat.not_lt.2 hbound, halign, ne_eq, not_true_eq_false, hmark]
      exact if_neg hmine) rfl rfl
  have hchan (i : Nat) : (t.core o.core).chan i =
      (if h.queue.length < 4 then k.modChan ch (fun h => h.post x d) else k).chan i := by
    rw [Core.chan_congr ht.chans]
    simp only [strPostEff, decide_eq_true_eq]
    split <;> rfl
  refine ⟨t, hexec, ?_, fun hroom => ?_, fun hempty => ?_, fun hne => ?_, fun hfull => ?_, fun i hi => ?_,
    ht.elsewhere, State.onlyCores_of_settled ht.frame⟩
  · rw [ht.after _ rfl]
    · simp only [strPostEff, decide_eq_true_eq]
      rfl
    · simp only [strPostEff]
      split <;> rfl
  · rw [hchan, if_pos hroom, Core.chan_modChan_same, Channel.post]
    split
    · next hempty => rw [List.isEmpty_iff.1 hempty]; rfl
    · rfl
  · have hroom : h.queue.length < 4 := by rw [show h.queue = [] from hempty]; decide
    rw [hchan, if_pos hroom, Core.chan_modChan_same, Channel.post, if_pos (List.isEmpty_iff.2 hempty)]
    exact ⟨rfl, rfl⟩
  · rw [hchan]
    split
    · rw [Core.chan_modChan_same, Channel.post, if_neg (by rw [List.isEmpty_iff]; exact hne)]
      exact ⟨rfl, rfl⟩
    · exact ⟨rfl, rfl⟩
  · rw [hchan, if_neg (Nat.not_lt.2 hfull)]
  · rw [hchan]
    split
    · exact Core.chan_modChan_ne _ _ hi
    · rfl

/-- A STR.WAIT that is met gives its value at once. -/
theorem strWait_gives (hruns : s.runs o.core x (encC 0x51 o) = true) (hphys : (s.ctx x).phys o.ch = some ch)
    {v : Word64} (hmet : ((s.found o.core).chan ch).waitGives o.imm.toNat false = some v) :
    Gives (.strWait o) s fun t => s.ran t o.core [(2, .sreg o.sd v false)] 0 ∧ s.onlyCores t := by
  refine gives_of_plain (e := { lands := [_] }) rfl hruns ?_ (sland_plain _ _ _ _ [])
  simp only [State.ctx_congr (State.modCore_ctxs ..), hphys, hmet]

/-- The effect of an instruction that begins to wait. -/
def waitEff (w : Wait) : Eff := { onCore := fun k => { k with th := { k.th with wait := some w } } }

/-- What a core that begins to wait holds. -/
theorem State.Passed.waits {t : State} {c : CoreId} {w : Wait}
    (h : ((s.modCore c Core.settle).modCore c (fun k => (waitEff w).onCore (k.issued (waitEff w)))).Passed c 1 t) :
    (t.core c).th = { (s.found c).after 1 [] with wait := some w } := by
  have hthread := Core.thread_issued (s.found c) (e := waitEff w) rfl
  rw [h.thread, waitEff]
  dsimp only
  rw [← waitEff, hthread]
  rfl

/-- A STR.WAIT that is not met waits. -/
theorem strWait_waits (hruns : s.runs o.core x (encC 0x51 o) = true) (hphys : (s.ctx x).phys o.ch = some ch)
    (hmet : ((s.found o.core).chan ch).waitGives o.imm.toNat false = none) :
    Gives (.strWait o) s fun t =>
      let k := s.found o.core
      (t.core o.core).th = { k.after 1 [] with wait := some (.strWait o.sd ch o.imm.toNat false) } ∧
      (t.core o.core).chans = k.chans ∧ s.onlyCores t := by
  obtain ⟨t, ht, hexec⟩ := gives_of_no_target (i := .strWait o) (e := waitEff (.strWait o.sd ch o.imm.toNat false))
    rfl hruns (by simp only [State.ctx_congr (State.modCore_ctxs ..), hphys, hmet]; rfl) rfl rfl
  exact ⟨t, hexec, ht.waits, ht.chans, State.onlyCores_of_settled ht.frame⟩

/-- The wait for credits that a program's other tenants' runs may lengthen counts it first. -/
theorem strWaitComplete_gives {c : CoreId} {waited n : Nat} {sd : Fin 32} {fail : Bool} {v : Word64}
    (hlive : s.waitLive c = true) (hwait : (s.core c).th.wait = some (.strWait sd ch n fail))
    (hmet : ((s.core c).chan ch).waitGives n fail = some v) :
    Gives (.strWaitComplete c waited) s fun t =>
      (t.core c).th = (s.core c).woken waited [(1, .sreg sd v false)] ∧ (t.core c).chans = (s.core c).chans ∧
      (∀ e, e ≠ c.val → t.core e = s.core e) ∧ t = { s with cores := t.cores, regs := t.regs, ctxs := t.ctxs } := by
  obtain ⟨u, hu, hexec⟩ : ∃ u : State, u = { s with ctxs := u.ctxs } ∧ exec (.strWaitComplete c waited) s =
      .next ((u.endWait c waited [(2, .sreg sd v false)]).inc (pCORE c) (0xF40 + 0x10 * ch.val) waited) := by
    have hexec : exec (.strWaitComplete c waited) s = execStrWaitComplete c waited s := rfl
    rw [hexec, execStrWaitComplete]
    simp only [hlive, Bool.not_true, Bool.false_eq_true, if_false, hwait, hmet]
    split
    · split
      · exact ⟨_, rfl, rfl⟩
      · exact ⟨s, rfl, rfl⟩
    · exact ⟨s, rfl, rfl⟩
  have hwoken := u.woken_endWait c waited [(2, .sreg sd v false)]
  generalize u.endWait c waited [(2, .sreg sd v false)] = t at hwoken hexec
  have hold (e : Nat) : u.core e = s.core e := by rw [hu]; rfl
  have hnew (e : Nat) : (t.inc (pCORE c) (0xF40 + 0x10 * ch.val) waited).core e = t.core e :=
    State.core_congr (State.inc_cores ..) e
  refine ⟨_, hexec, ?_, ?_, fun e he => ?_, ?_⟩
  · rw [hnew, hwoken.thread, hold]
    rfl
  · rw [hnew, hwoken.chans, hold]
  · rw [hnew, hwoken.others e he, hold]
  · have hframe : t = _ := hwoken.frame
    rw [State.inc_frame, hframe, hu]

theorem strAck_gives (hruns : s.runs o.core x (encC 0x52 o) = true) (hphys : (s.ctx x).phys o.ch = some ch) :
    Gives (.strAck o) s fun t => s.ran t o.core [(2, .credits ch o.imm.toNat)] 0 ∧ s.onlyCores t := by
  refine gives_of_plain (e := { lands := [_] }) rfl hruns ?_ ⟨⟨rfl, rfl, rfl⟩, rfl, rfl⟩
  simp only [State.ctx_congr (State.modCore_ctxs ..), hphys]

/-- The effect of STR.STAT of a channel with this status word. -/
def strStatEff (o : COp) (ch : Fin 8) (v : Word64) : Eff :=
  { lands := [(3, .sreg o.sd v false)]
    onCore := fun k => k.modChan ch (fun h => { h with overAck := false }) }

theorem strStat_gives (hruns : s.runs o.core x (encC 0x53 o) = true) (hphys : (s.ctx x).phys o.ch = some ch) :
    Gives (.strStat o) s fun t =>
      let k := s.found o.core
      (t.core o.core).th = k.after 1 [(3, .sreg o.sd (k.chan ch).word false)] ∧
      (t.core o.core).chan ch = { k.chan ch with overAck := false } ∧
      (∀ i, i ≠ ch.val → (t.core o.core).chan i = k.chan i) ∧ s.onlyCores t := by
  obtain ⟨t, ht, hexec⟩ := gives_of_no_target (i := .strStat o)
    (e := strStatEff o ch ((s.found o.core).chan ch).word) rfl hruns
    (by simp only [State.ctx_congr (State.modCore_ctxs ..), hphys]; rfl) rfl rfl
  have hchan (i : Nat) : (t.core o.core).chan i =
      ((s.found o.core).modChan ch (fun h => { h with overAck := false })).chan i := Core.chan_congr ht.chans i
  refine ⟨t, hexec, ht.after rfl rfl, ?_, fun i hi => ?_, State.onlyCores_of_settled ht.frame⟩
  · rw [hchan, Core.chan_modChan_same]
  · rw [hchan, Core.chan_modChan_ne _ _ hi]

end

/-- A stream instruction on a channel that is not granted traps. -/
theorem stream_traps {o : COp} {x : CtxId} {s : State} (hphys : (s.ctx x).phys o.ch = none)
    (hend : (s.ctx x).endWith = none) :
    ∀ e ∈ [(0x50, Instr.strPost o), (0x51, .strWait o), (0x52, .strAck o), (0x53, .strStat o)],
      s.runs o.core x (encC e.1 o) = true →
      Gives e.2 s fun t => (t.ctx x).state = .ending ∧ (t.ctx x).endWith = some stCHANNEL_DENIED := by
  have hfound : ((s.modCore o.core Core.settle).ctx x).phys o.ch = none := hphys
  intro e he hruns
  simp only [List.mem_cons, List.not_mem_nil, or_false] at he
  rcases he with rfl | rfl | rfl | rfl
  all_goals exact gives_of_trap rfl hruns (info := 0) (by simp only [hfound]) hend

/-- Settles O28: each instruction by the queue and the credits of its channel (`Channel.waitGives`), and the end of its wait by
`State.Woken`. -/
theorem streamInstructions : Obligations.StreamInstructions := by
  unfold Obligations.StreamInstructions
  refine ⟨fun _ _ _ _ hruns hphys hclean hbound halign hmark hfree =>
      strPost_gives hruns hphys hclean hbound halign hmark hfree,
    fun _ _ _ _ hruns hphys => ⟨fun hempty => strWait_gives hruns hphys (Channel.waitGives_nil hempty),
      fun _ _ hqueue hfail => strWait_gives hruns hphys (Channel.waitGives_fails hqueue (.inr hfail)),
      fun _ _ hqueue hcap hcredits => strWait_gives hruns hphys
        (Channel.waitGives_credits hqueue (by simpa using hcap) hcredits),
      fun _ _ hqueue hcap hcredits => strWait_waits hruns hphys
        (Channel.waitGives_waits hqueue (by simpa using hcap) hcredits)⟩,
    fun c waited n sd ch fail d ds s hlive hwait hqueue hmet => strWaitComplete_gives hlive hwait ?_,
    fun _ _ _ _ hruns hphys => strAck_gives hruns hphys, fun _ _ _ n hqueue => Channel.ack_cons hqueue n,
    fun _ _ _ _ hruns hphys => strStat_gives hruns hphys, fun _ _ _ hphys hend => stream_traps hphys hend⟩
  split
  · next hfail => exact Channel.waitGives_fails hqueue hfail
  · next hfail => exact Channel.waitGives_credits hqueue hfail ((or_assoc.2 hmet).resolve_left hfail)

end Sys2Proof.Machine
end

section
/-! PROOF. The synchronisation instructions of a core, the sweep and the hazard trap (06_hj1_baseline.md R173 to R177;
07_hj2_contract.md R206 to R218; 18_sharing.md R533). -/

namespace Sys2Proof.Machine

/-! ### What landing leaves of a thread -/

/-- Results have landed in a thread: registers, tiles and their poison, and the gang, may have changed. -/
structure Thread.Filled (t t' : Thread) : Prop where
  frame : t' = { t with
    sregs := t'.sregs, vregs := t'.vregs, pregs := t'.pregs, spo := t'.spo, vpo := t'.vpo, ppo := t'.ppo
    tiles := t'.tiles, tpo := t'.tpo, ganged := t'.ganged }

section
variable {t t' t'' : Thread}

theorem Thread.Filled.refl (t : Thread) : t.Filled t := ⟨rfl⟩

theorem Thread.Filled.trans (h : t.Filled t') (h' : t'.Filled t'') : t.Filled t'' where
  frame := h'.frame.trans (congrArg (fun u : Thread => { u with
    sregs := t''.sregs, vregs := t''.vregs, pregs := t''.pregs, spo := t''.spo, vpo := t''.vpo, ppo := t''.ppo
    tiles := t''.tiles, tpo := t''.tpo, ganged := t''.ganged }) h.frame)

theorem Thread.Filled.lands (h : t.Filled t') : t'.lands = t.lands := by rw [h.frame]
theorem Thread.Filled.wait (h : t.Filled t') : t'.wait = t.wait := by rw [h.frame]
theorem Thread.Filled.halted (h : t.Filled t') : t'.halted = t.halted := by rw [h.frame]
theorem Thread.Filled.pc (h : t.Filled t') : t'.pc = t.pc := by rw [h.frame]
theorem Thread.Filled.cyc (h : t.Filled t') : t'.cyc = t.cyc := by rw [h.frame]

end

theorem Thread.filled_setTrow (t : Thread) (arr tile row : Nat) (v : BitVec 1024) (po : Bool) :
    t.Filled (t.setTrow arr tile row v po) := ⟨rfl⟩

theorem Thread.filled_commit (arr tile : Nat) (fmt : Fin 4) (acc : Bool) (pass : List Int) (po : BitVec 32) (n : Nat)
    (t : Thread) : t.Filled (t.commit arr tile fmt acc pass po n) := by
  induction n generalizing t with
  | zero => exact .refl t
  | succ n ih =>
    unfold Thread.commit
    dsimp only
    refine Thread.Filled.trans ?_ (ih _)
    exact t.filled_setTrow ..

/-- One result lands in the thread. -/
theorem Core.filled_land (k : Core) (l : Landing) : k.th.Filled (k.land l).th := by
  unfold Core.land
  split
  case h_1 => split <;> exact ⟨rfl⟩
  case h_6 => exact List.foldlRecOn (motive := k.th.Filled) _ _ (.refl _) fun t h _ _ => h.trans (t.filled_setTrow _ _ _ _ _)
  case h_7 => exact Thread.filled_commit ..
  all_goals exact ⟨rfl⟩

/-- Results have landed on a core: what of its thread is neither a register nor a tile nor a result in flight stands. -/
theorem Core.thread_landUpTo (n fuel : Nat) (k : Core) :
    (k.landUpTo n fuel).th.wait = k.th.wait ∧ (k.landUpTo n fuel).th.halted = k.th.halted := by
  induction fuel generalizing k with
  | zero => exact ⟨rfl, rfl⟩
  | succ fuel ih =>
    unfold Core.landUpTo
    split
    · exact ⟨rfl, rfl⟩
    split
    · next l ls _ _ =>
      have hfilled := Core.filled_land { k with th := { k.th with lands := ls } } l
      exact ⟨(ih _).1.trans hfilled.wait, (ih _).2.trans hfilled.halted⟩
    · exact ⟨rfl, rfl⟩

theorem Core.wait_settle (k : Core) : k.settle.th.wait = k.th.wait := (Core.thread_landUpTo _ _ k).1

theorem Core.halted_drain (k : Core) : k.drain.th.halted = k.th.halted := (Core.thread_landUpTo _ _ _).2

/-- Where every result is due, all land. -/
theorem Core.lands_landUpTo {n : Nat} (fuel : Nat) (k : Core) (hfuel : k.th.lands.length ≤ fuel)
    (hdue : ∀ l ∈ k.th.lands, l.cyc ≤ n) : (k.landUpTo n fuel).th.lands = [] := by
  induction fuel generalizing k with
  | zero => exact List.length_eq_zero_iff.1 (Nat.le_zero.1 hfuel)
  | succ fuel ih =>
    unfold Core.landUpTo
    split
    · assumption
    · next l ls hlands =>
      rw [hlands] at hfuel hdue
      rw [if_pos (hdue l List.mem_cons_self)]
      have hfilled := (Core.filled_land { k with th := { k.th with lands := ls } } l).lands
      refine ih _ ?_ ?_
      · rw [hfilled]
        exact Nat.le_of_succ_le_succ hfuel
      · rw [hfilled]
        exact fun q hq => hdue q (List.mem_cons_of_mem _ hq)

theorem foldl_max_ge {α : Type} (f : α → Nat) (ls : List α) (m : Nat) :
    m ≤ ls.foldl (fun m l => max m (f l)) m ∧ ∀ l ∈ ls, f l ≤ ls.foldl (fun m l => max m (f l)) m := by
  induction ls generalizing m with
  | nil => simp
  | cons a ls ih =>
    obtain ⟨hm, hls⟩ := ih (max m (f a))
    simp only [List.foldl_cons, List.mem_cons, forall_eq_or_imp]
    exact ⟨by omega, by omega, hls⟩

/-- Once a core has drained, nothing is in flight. -/
theorem Core.lands_drain (k : Core) : k.drain.th.lands = [] :=
  Core.lands_landUpTo _ _ le_rfl (foldl_max_ge Landing.cyc k.th.lands k.th.cyc).2

/-! ### A core that can issue -/

section
variable {s : State} {c : CoreId}

/-- A core that can issue waits for nothing. -/
theorem State.waits_of_canIssue (h : s.canIssue c = true) :
    (s.found c).th.wait = none ∧ (s.found c).emitWait = none := by
  have hcore : (s.core c).th.wait = none ∧ (s.core c).emitWait = none := by
    unfold State.canIssue at h
    dsimp only at h
    split at h
    · cases h
    · simp only [Bool.and_eq_true, Option.isNone_iff_eq_none] at h
      exact ⟨h.1.1.1.1.1.1.2, h.1.1.2⟩
  exact ⟨(Core.wait_settle _).trans hcore.1, (Core.landed_settle _).emitWait.trans hcore.2⟩

theorem State.canIssue_of_halted (h : (s.core c).th.halted = true) : s.canIssue c = false := by
  unfold State.canIssue
  dsimp only
  split
  · rfl
  · simp [h]

theorem State.canIssue_of_runs {x : CtxId} {w : Nat} (h : s.runs c x w = true) : s.canIssue c = true :=
  ((s.runs_iff c x w).1 h).1

/-- What a core holds once an instruction that does not jump has issued and its cycles have passed. -/
theorem State.Passed.found {t : State} {f : Core → Core} {n : Nat}
    (h : ((s.modCore c Core.settle).modCore c f).Passed c n t) :
    ∃ b, t.core c = { f (s.found c) with
      th := { (f (s.found c)).th with cyc := (f (s.found c)).th.cyc + n }, banks := b } := by
  have hfound : (s.modCore c Core.settle).core c = s.found c := State.core_modCore_same ..
  obtain ⟨b, hb⟩ := h.core
  rw [State.core_modCore_same, hfound] at hb
  exact ⟨b, hb⟩

/-- An instruction of one cycle that changes the machine as well has run where that change leaves the cores. -/
theorem gives_of_straight {i : Instr} {x : CtxId} {w : Nat} {f : State → CtxId → Core → IRes} {e : Eff}
    (hexec : exec i s = ok (issue c w f s)) (hruns : s.runs c x w = true)
    (hres : f (s.modCore c Core.settle) x (s.found c) = .go e) (he : e.Straight) (hcore : e.onCore = id) :
    ∃ t, s.onlyCores t ∧ s.ran t c e.lands e.flags ∧ exec i s = .next (e.onState t) ∧
      ∀ {q k}, (q * 4096 + (k + 4) < pCORE c * 4096 + 0xF00 ∨ pCORE c * 4096 + 0xF14 < q * 4096 + k) →
        t.reg64 q k = s.reg64 q k := by
  obtain ⟨t, ht, hfinish⟩ := State.finish_straight (s.modCore c Core.settle) c x he
  exact ⟨t, State.onlyCores_of_settled ht.frame, ht.ran (by rw [hcore]; rfl),
    by rw [exec_of_go hexec hruns hres, hfinish], fun hq => (ht.reg64 hq).trans (State.reg64_congr rfl _ _)⟩

end

/-! ### Barriers, ends and traps -/

section
variable {o : YOp} {x : CtxId} {s : State}

theorem bar_gives (hruns : s.runs o.core x (encY 0x60 o) = true) (hid : o.id8.toNat < 64)
    (hdefined : s.barDefined x o.core o.id8.toNat = true) :
    Gives (.bar o) s fun t =>
      (t.core o.core).th = { (s.found o.core).after 1 [] with wait := some (.bar o.sd ⟨o.id8.toNat, hid⟩ false none) } ∧
      s.onlyCores t := by
  have hplace : (s.modCore o.core Core.settle).barDefined x o.core o.id8.toNat = true := hdefined
  obtain ⟨t, ht, hexec⟩ := gives_of_no_target (i := .bar o) (e := waitEff (.bar o.sd ⟨o.id8.toNat, hid⟩ false none))
    rfl hruns (by simp only [dif_pos hid, hplace, if_true]; rfl) rfl rfl
  exact ⟨t, hexec, ht.waits, State.onlyCores_of_settled ht.frame⟩

theorem bar_traps (hruns : s.runs o.core x (encY 0x60 o) = true)
    (hundef : s.barDefined x o.core o.id8.toNat = false) (hend : (s.ctx x).endWith = none) :
    Gives (.bar o) s fun t => (t.ctx x).state = .ending ∧ (t.ctx x).endWith = some stBARRIER_UNDEF := by
  have hplace : (s.modCore o.core Core.settle).barDefined x o.core o.id8.toNat = false := hundef
  refine gives_of_trap rfl hruns (info := 0) ?_ hend
  simp only [hplace, Bool.false_eq_true, if_false]
  split <;> rfl

/-! ### Fences and halts -/

/-- Is a result in flight a write of scratch? -/
def Landing.toScratch (l : Landing) : Bool := match l.val with | .scratch .. => true | _ => false

theorem Core.fenceScratch_eq (k : Core) : k.fenceScratch =
    (k.th.lands.filter Landing.toScratch).foldl Core.land
      { k with th := { k.th with lands := k.th.lands.filter (fun l => !l.toScratch) } } := rfl

/-- A write of scratch lands: the thread stands. -/
theorem Core.thread_land_of_toScratch (k : Core) {l : Landing} (h : l.toScratch = true) : (k.land l).th = k.th := by
  obtain ⟨n, q, v⟩ := l
  cases v
  case scratch => rfl
  all_goals exact absurd h Bool.false_ne_true

theorem Core.thread_foldl_land (ls : List Landing) (h : ∀ l ∈ ls, l.toScratch = true) (k : Core) :
    (ls.foldl Core.land k).th = k.th :=
  List.foldlRecOn (motive := fun q : Core => q.th = k.th) ls _ rfl fun q hq l hl =>
    (Core.thread_land_of_toScratch q (h l hl)).trans hq

/-- A fence lands the writes of scratch alone: of the thread only they are gone. -/
theorem Core.thread_fenceScratch (k : Core) :
    k.fenceScratch.th = { k.th with lands := k.th.lands.filter (fun l => !l.toScratch) } := by
  rw [Core.fenceScratch_eq]
  exact Core.thread_foldl_land _ (fun l hl => (List.mem_filter.1 hl).2) _

/-- The writes of scratch that a fence lands leave it as a read sees it that comes after all of them. -/
theorem Core.scratch_fence (T : Nat) (ls : List Landing) (hdue : ∀ l ∈ ls, l.cyc ≤ T) (k q : Core)
    (h : k.scratch = q.scratch) :
    ((ls.filter Landing.toScratch).foldl Core.land k).scratch = (ls.foldl (fun q l => match l.val with
      | .scratch a bs po =>
        if l.cyc ≤ T then { q with scratch := putBytes q.scratch a bs, marks := q.markWrite a bs po } else q
      | _ => q) q).scratch := by
  induction ls generalizing k q with
  | nil => exact h
  | cons l ls ih =>
    have hrest : ∀ l ∈ ls, l.cyc ≤ T := fun p hp => hdue p (List.mem_cons_of_mem _ hp)
    have hl : l.cyc ≤ T := hdue l List.mem_cons_self
    obtain ⟨n, m, v⟩ := l
    rw [List.foldl_cons]
    cases v
    case scratch a bs po =>
      rw [List.filter_cons_of_pos rfl, List.foldl_cons]
      refine ih hrest _ _ ?_
      dsimp only at hl ⊢
      rw [if_pos hl]
      exact congrArg (fun m => putBytes m a bs) h
    all_goals
      rw [List.filter_cons_of_neg (by simp [Landing.toScratch])]
      exact ih hrest _ _ h

theorem fence_gives (hruns : s.runs o.core x (encY 0x66 o) = true) :
    Gives (.fence o) s fun t =>
      let k := s.found o.core
      (t.core o.core).th.pc = k.th.pc + 8 ∧ (t.core o.core).th.cyc = k.th.cyc + 3 ∧
      (∀ l ∈ (t.core o.core).th.lands, ∀ a bs p, l.val ≠ .scratch a bs p) ∧
      (∀ T, (∀ l ∈ k.th.lands, l.cyc ≤ T) → ∀ a n, (t.core o.core).rd a n = (k.viewAt T).rd a n) ∧ s.onlyCores t := by
  obtain ⟨t, ht, hexec⟩ := gives_of_no_target (i := .fence o) (e := { busy := 3, onCore := Core.fenceScratch })
    rfl hruns rfl rfl rfl
  obtain ⟨b, hb⟩ := ht.found
  refine ⟨t, hexec, ?_, ?_, fun l hl a bs p hval => ?_, fun T hT a n => ?_, State.onlyCores_of_settled ht.frame⟩
  · rw [hb]
    dsimp only
    rw [Core.thread_fenceScratch]
    rfl
  · rw [hb]
    dsimp only
    rw [Core.thread_fenceScratch]
    rfl
  · rw [hb] at hl
    dsimp only at hl
    rw [Core.thread_fenceScratch] at hl
    have hnot := (List.mem_filter.1 hl).2
    simp [Landing.toScratch, hval] at hnot
  · have hscratch : (t.core o.core).scratch = ((s.found o.core).viewAt T).scratch := by
      rw [hb]
      exact Core.scratch_fence T _ hT _ _ rfl
    rw [Core.rd, Core.rd, hscratch]

theorem halt_gives (hruns : s.runs o.core x (encY 0x67 o) = true) :
    Gives (.halt o) s fun t =>
      (t.core o.core).th.halted = true ∧ (t.core o.core).th.lands = [] ∧ t.canIssue o.core = false ∧
      t.reg (pCORE o.core) 0x804 = 0 ∧ s.onlyCores t := by
  obtain ⟨t, ht, hexec⟩ := gives_of_no_target (i := .halt o)
    (e := { onCore := fun k => { k with th := { k.th with halted := true } }
            onState := fun s => (s.setReg (pCORE o.core) 0x804 0).modCore o.core Core.drain }) rfl hruns rfl rfl rfl
  have hcore : ((t.setReg (pCORE o.core) 0x804 0).modCore o.core Core.drain).core o.core = (t.core o.core).drain :=
    State.core_modCore_same ..
  have hhalted : (((t.setReg (pCORE o.core) 0x804 0).modCore o.core Core.drain).core o.core).th.halted = true := by
    rw [hcore, Core.halted_drain, ht.thread]
  refine ⟨_, hexec, hhalted, ?_, State.canIssue_of_halted hhalted, State.reg_setReg_same .., ?_⟩
  · exact (congrArg (fun k : Core => k.th.lands) hcore).trans (Core.lands_drain _)
  · have honly : s.onlyCores t := State.onlyCores_of_settled ht.frame
    exact congrArg (fun u : State => { u with
      cores := ((t.setReg (pCORE o.core) 0x804 0).modCore o.core Core.drain).cores
      regs := ((t.setReg (pCORE o.core) 0x804 0).modCore o.core Core.drain).regs }) honly

/-! ### TRAP -/

/-- An error that is not fatal enters the log where there is room. -/
theorem State.log_detect_contained (s : State) (st : BitVec 16) (b i : Nat) (x : Option CtxId) (n : Nat)
    (hroom : s.log.queue.length < 64) :
    ∃ e ∈ (s.detect cCONTAINED st b i x n).log.queue, e.status = st ∧ e.cls = cCONTAINED ∧ e.ctx = x ∧
      e.info = BitVec.ofNat 64 n := by
  have hlog : (s.inc pERR (0xF00 + 8 * cCONTAINED.toNat)).log.queue.length < 64 := hroom
  unfold State.detect
  simp only [show ¬cCONTAINED = cFATAL by decide, if_false, hlog, if_true]
  exact ⟨_, List.mem_append_right _ (List.mem_singleton_self _), rfl, rfl, rfl, rfl⟩

theorem State.log_stopContext (s : State) (x : CtxId) (st : BitVec 16) : (s.stopContext x st).log = s.log := by
  rw [State.stopContext_eq, State.modCtx_log, (s.stopped_coresStopped x st).frame]

theorem trap_gives (hruns : s.runs o.core x (encY 0x68 o) = true) (hend : (s.ctx x).endWith = none)
    (hroom : s.log.queue.length < 64) :
    Gives (.trap o) s fun t =>
      (t.ctx x).state = .ending ∧ (t.ctx x).endWith = some stSW_TRAP ∧
      ∃ e ∈ t.log.queue, e.status = stSW_TRAP ∧ e.cls = cCONTAINED ∧ e.ctx = some x ∧
        e.info = BitVec.ofNat 64 ((s.found o.core).th.pc.toNat + fld o.imm 0 16 * 2 ^ 32) := by
  let u := s.modCore o.core Core.settle
  have hcore : u.core o.core = s.found o.core := State.core_modCore_same ..
  have hexec : exec (.trap o) s = .next (u.trap o.core x stSW_TRAP (fld o.imm 0 16 * 2 ^ 32)) := by
    have h : exec (.trap o) s =
      ok (issue o.core (encY 0x68 o) (fun _ _ _ => .trap stSW_TRAP (fld o.imm 0 16 * 2 ^ 32)) s) := rfl
    rw [h, State.issue_of_runs _ hruns]
    rfl
  obtain ⟨hstate, hwith⟩ := State.ctx_trap u o.core (x := x) stSW_TRAP (fld o.imm 0 16 * 2 ^ 32) hend
  refine ⟨_, hexec, hstate, hwith, ?_⟩
  rw [State.trap, State.log_stopContext, hcore]
  exact State.log_detect_contained _ _ _ _ _ _ hroom

/-! ### EMIT and YIELD -/

/-- An emission enters a core's queue, or waits where it is full (R207). -/
def Core.emit (k : Core) (q : EmitEntry) : Core :=
  if k.emitq.length < 16 then { k with emitq := k.emitq ++ [q] } else { k with emitWait := some q }

theorem Core.emit_thread (k : Core) (q : EmitEntry) : (k.emit q).th = k.th := by
  unfold Core.emit
  split <;> rfl

theorem emit_gives (hruns : s.runs o.core x (encY 0x69 o) = true) (hcur : (s.epsCtx x).cur ≠ none) :
    let k := s.found o.core
    let q : EmitEntry := { ctx := x, slot := (k.th.s o.sa).setWidth 8, token := (k.th.s o.sb).setWidth 32
                           draft := Fin.ofNat 16 (fld o.imm 0 4), last := bit o.imm 4
                           poison := k.th.sp o.sa || k.th.sp o.sb }
    Gives (.emit o) s fun t =>
      (t.core o.core).th = k.after 1 [] ∧
      (t.core o.core).emitq = (if k.emitq.length < 16 then k.emitq ++ [q] else k.emitq) ∧
      (t.core o.core).emitWait = (if k.emitq.length < 16 then none else some q) ∧ s.onlyCores t := by
  intro k q
  have hsome : ((s.modCore o.core Core.settle).epsCtx x).cur.isNone = false := by
    have h : (s.modCore o.core Core.settle).epsCtx x = s.epsCtx x := rfl
    rw [h]
    simpa [Option.isSome_iff_ne_none] using hcur
  obtain ⟨t, ht, hexec⟩ := gives_of_no_target (i := .emit o)
    (e := { reads := [(.s o.sa, 0), (.s o.sb, 0)], onCore := fun k => k.emit q })
    rfl hruns (by simp only [hsome, Bool.false_eq_true, if_false]; rfl) rfl rfl
  obtain ⟨-, hemit⟩ := State.waits_of_canIssue (State.canIssue_of_runs hruns)
  obtain ⟨b, hb⟩ := ht.found
  have hissued (e : Eff) : (k.issued e).emitq = k.emitq := rfl
  refine ⟨t, hexec, ht.after (Core.emit_thread ..) rfl, ?_, ?_, State.onlyCores_of_settled ht.frame⟩
  · rw [hb]
    dsimp only [Core.emit]
    rw [hissued]
    split <;> rfl
  · rw [hb]
    dsimp only [Core.emit]
    rw [hissued]
    split
    · exact hemit
    · rfl

/-- The effect of YIELD. -/
def yieldEff (n : Nat) (pass : Bool) : Eff :=
  { busy := n, onCore := fun k => if pass then { k with th := { k.th with wait := some .yield } } else k }

theorem yield_gives (hruns : s.runs o.core x (encY 0x6A o) = true) :
    Gives (.yield o) s fun t =>
      let k := s.found o.core
      (t.core o.core).th = { k.after (1 + k.longest) [] with
        wait := if (s.ctx x).state = .preempting then some .yield else none } ∧ s.onlyCores t := by
  obtain ⟨t, ht, hexec⟩ := gives_of_no_target (i := .yield o)
    (e := yieldEff (1 + (s.found o.core).longest) ((s.ctx x).state == .preempting)) rfl hruns rfl rfl rfl
  obtain ⟨hwait, -⟩ := State.waits_of_canIssue (State.canIssue_of_runs hruns)
  have hthread := Core.thread_issued (s.found o.core)
    (e := yieldEff (1 + (s.found o.core).longest) ((s.ctx x).state == .preempting)) rfl
  refine ⟨t, hexec, ?_, State.onlyCores_of_settled ht.frame⟩
  rw [ht.thread]
  by_cases hpass : (s.ctx x).state = .preempting
  · simp only [yieldEff, hpass, beq_self_eq_true, if_true] at hthread ⊢
    rw [hthread]
    rfl
  · have hbeq : ((s.ctx x).state == .preempting) = false := beq_eq_false_iff_ne.2 hpass
    simp only [yieldEff, hbeq, Bool.false_eq_true, if_false, hpass] at hthread ⊢
    rw [hthread, ← hwait]
    rfl

end

end Sys2Proof.Machine
end

section
/-! PROOF. Locks, the sentinel's sweep and its trap, and with them the synchronisation instructions (18_sharing.md R533
to R537; 07_hj2_contract.md R210, R217, R218). -/

namespace Sys2Proof.Machine

/-! ### Locks -/

section
variable (s t : State)

theorem State.lock_congr {s t : State} (h : t.locks = s.locks) (m : Nat) : t.lock m = s.lock m := by
  rw [State.lock, h]; rfl

theorem State.lock_modLock_same (n : Nat) (f : Lock → Lock) : (s.modLock n f).lock n = f (s.lock n) := sget_smod_same ..

theorem State.lock_modLock_ne {n m : Nat} (f : Lock → Lock) (h : m ≠ n) : (s.modLock n f).lock m = s.lock m :=
  sget_smod_ne _ _ _ h

/-- Arming the lease channel writes its registers, and a channel that is set again may fire again. -/
theorem State.armLease_cases : s.armLease = s ∨ (∃ n v, s.armLease = s.setTmr n 0x10 v) ∨
    ∃ n e v, s.armLease = (s.setCmp n e).setTmr n 0x10 v := by
  unfold State.armLease
  split
  · exact .inl rfl
  dsimp only
  split
  · exact .inr (.inl ⟨_, _, rfl⟩)
  · exact .inr (.inr ⟨_, _, _, rfl⟩)

theorem State.setTmr_frame (n o : Nat) (v : Word32) : s.setTmr n o v = { s with regs := (s.setTmr n o v).regs } := rfl

theorem State.setCmp_frame (n : Nat) (e : BitVec 48) :
    s.setCmp n e = { s with regs := (s.setCmp n e).regs, pw := (s.setCmp n e).pw } := by
  let u := s.setTmr n 4 (e.setWidth 32)
  have hframe : u.setTmr n 8 (BitVec.ofNat 32 (e.toNat / 2 ^ 32)) = { s with regs := (s.setCmp n e).regs } :=
    (u.setTmr_frame n 8 _).trans (congrArg (fun v : State => { v with regs := (s.setCmp n e).regs }) (s.setTmr_frame ..))
  exact congrArg (fun v : State => { v with pw := (s.setCmp n e).pw }) hframe

theorem State.armLease_frame : s.armLease = { s with regs := s.armLease.regs, pw := s.armLease.pw } := by
  obtain h | ⟨n, v, h⟩ | ⟨n, e, v, h⟩ := s.armLease_cases
  · rw [h]
  · rw [h]
    exact s.setTmr_frame n 0x10 v
  · rw [h]
    exact ((s.setCmp n e).setTmr_frame n 0x10 v).trans
      (congrArg (fun u : State => { u with regs := ((s.setCmp n e).setTmr n 0x10 v).regs }) (s.setCmp_frame n e))

theorem State.armLease_cores : s.armLease.cores = s.cores := by rw [s.armLease_frame]

theorem State.armLease_locks : s.armLease.locks = s.locks := by rw [s.armLease_frame]

end

section
variable {o : YOp} {x : CtxId} {s : State}

/-- The effect of a lock operation that gives a status and changes the machine by `f`. -/
def lockEff (o : YOp) (st : BitVec 16) (f : State → State) : Eff :=
  { lands := [(1, .sreg o.sd (st.setWidth 64) false)], onState := f }

theorem lockEff_straight (o : YOp) (st : BitVec 16) (f : State → State) : (lockEff o st f).Straight := ⟨rfl, rfl, rfl⟩

theorem lockAcq_denied (hruns : s.runs o.core x (encY 0x61 o) = true)
    (hmay : s.lockMay o.id8.toNat (s.ctx x).tenant = false) :
    Gives (.lockAcq o) s fun t =>
      s.ran t o.core [(1, .sreg o.sd (stLOCK_DENIED.setWidth 64) false)] 0 ∧ s.onlyCores t := by
  have hmay' : (s.modCore o.core Core.settle).lockMay o.id8.toNat ((s.modCore o.core Core.settle).ctx x).tenant = false :=
    hmay
  refine gives_of_plain (e := lockEff o stLOCK_DENIED id) rfl hruns ?_ ⟨lockEff_straight .., rfl, rfl⟩
  simp only [hmay', Bool.not_false, if_true]
  rfl

theorem lockAcq_again (hruns : s.runs o.core x (encY 0x61 o) = true)
    (hmay : s.lockMay o.id8.toNat (s.ctx x).tenant = true) (hholds : s.holdsLock x o.id8.toNat = true) :
    Gives (.lockAcq o) s fun t =>
      s.ran t o.core [(1, .sreg o.sd 0 false)] 0 ∧
      t.lock o.id8.toNat = { s.lock o.id8.toNat with expiry := s.expiryOf (s.leaseOf x o.imm) } ∧
      (∀ m, m ≠ o.id8.toNat → t.lock m = s.lock m) ∧
      t = { s with cores := t.cores, regs := t.regs, locks := t.locks, pw := t.pw } := by
  have hmay' : (s.modCore o.core Core.settle).lockMay o.id8.toNat ((s.modCore o.core Core.settle).ctx x).tenant = true :=
    hmay
  have hholds' : (s.modCore o.core Core.settle).holdsLock x o.id8.toNat = true := hholds
  obtain ⟨t, honly, hran, hexec, -⟩ := gives_of_straight (i := .lockAcq o)
    (e := lockEff o stOK (fun s => s.setLease o.id8.toNat (s.leaseOf x o.imm))) rfl hruns
    (by simp only [hmay', hholds', Bool.not_true, Bool.false_eq_true, if_false, if_true]; rfl) (lockEff_straight ..) rfl
  have hlock (m : Nat) : t.lock m = s.lock m := State.lock_congr (by rw [honly]) m
  have hexpiry : t.expiryOf (t.leaseOf x o.imm) = s.expiryOf (s.leaseOf x o.imm) := by rw [honly]; rfl
  let u := t.modLock o.id8.toNat (fun l => { l with expiry := t.expiryOf (t.leaseOf x o.imm) })
  have hset (m : Nat) : u.armLease.lock m = u.lock m := State.lock_congr u.armLease_locks m
  refine ⟨u.armLease, hexec, State.ran_congr hran u.armLease_cores, ?_, fun m hm => ?_, ?_⟩
  · rw [hset, State.lock_modLock_same, hlock, hexpiry]
  · rw [hset, State.lock_modLock_ne _ _ hm, hlock]
  · rw [u.armLease_cores, u.armLease_locks]
    exact u.armLease_frame.trans (congrArg (fun v : State => { v with
      locks := u.locks, regs := u.armLease.regs, pw := u.armLease.pw }) honly)

theorem lockAcq_below (hruns : s.runs o.core x (encY 0x61 o) = true)
    (hmay : s.lockMay o.id8.toNat (s.ctx x).tenant = true) (hholds : s.holdsLock x o.id8.toNat = false)
    (hhigher : s.locks.any (fun e => decide (o.id8.toNat < e.1) && e.2.owner == some x) = true) :
    Gives (.lockAcq o) s fun t =>
      s.ran t o.core [(1, .sreg o.sd (stORDER.setWidth 64) false)] 0 ∧
      t.reg64 pSCH 0xF30 = s.reg64 pSCH 0xF30 + 1 ∧ s.onlyCores t := by
  have hmay' : (s.modCore o.core Core.settle).lockMay o.id8.toNat ((s.modCore o.core Core.settle).ctx x).tenant = true :=
    hmay
  have hholds' : (s.modCore o.core Core.settle).holdsLock x o.id8.toNat = false := hholds
  obtain ⟨t, honly, hran, hexec, hreg⟩ := gives_of_straight (i := .lockAcq o)
    (e := lockEff o stORDER (fun s => s.inc pSCH 0xF30)) rfl hruns
    (by simp only [hmay', hholds', Bool.not_true, Bool.false_eq_true, if_false, State.modCore_locks, hhigher, if_true]; rfl)
    (lockEff_straight ..) rfl
  refine ⟨_, hexec, State.ran_congr hran (State.inc_cores ..), ?_, ?_⟩
  · have hcount : (t.inc pSCH 0xF30).reg64 pSCH 0xF30 = t.reg64 pSCH 0xF30 + 1 := State.reg64_inc_same ..
    exact hcount.trans (by rw [hreg (by simp only [pSCH, pCORE]; omega)])
  · exact congrArg (fun u : State => { u with regs := (t.inc pSCH 0xF30).regs }) honly

theorem lockAcq_waits (hruns : s.runs o.core x (encY 0x61 o) = true)
    (hmay : s.lockMay o.id8.toNat (s.ctx x).tenant = true) (hholds : s.holdsLock x o.id8.toNat = false)
    (hhigher : s.locks.any (fun e => decide (o.id8.toNat < e.1) && e.2.owner == some x) = false) :
    Gives (.lockAcq o) s fun t =>
      (t.core o.core).th = { (s.found o.core).after 1 [] with
        wait := some (.lock o.sd ⟨o.id8.toNat, o.id8.isLt⟩ o.imm true) } ∧
      t.lock o.id8.toNat = { s.lock o.id8.toNat with
        waiters := (s.lock o.id8.toNat).waiters ++ [(x, o.core, o.imm)] } ∧
      t = { s with cores := t.cores, regs := t.regs, locks := t.locks } := by
  have hmay' : (s.modCore o.core Core.settle).lockMay o.id8.toNat ((s.modCore o.core Core.settle).ctx x).tenant = true :=
    hmay
  have hholds' : (s.modCore o.core Core.settle).holdsLock x o.id8.toNat = false := hholds
  let w : Wait := .lock o.sd ⟨o.id8.toNat, o.id8.isLt⟩ o.imm true
  let f (l : Lock) : Lock := { l with waiters := l.waiters ++ [(x, o.core, o.imm)] }
  obtain ⟨t, ht, hexec⟩ := gives_of_no_target (i := .lockAcq o)
    (e := { waitEff w with onState := fun s => s.modLock o.id8.toNat f }) rfl hruns
    (by simp only [hmay', hholds', Bool.not_true, Bool.false_eq_true, if_false, State.modCore_locks, hhigher]; rfl) rfl rfl
  have honly : s.onlyCores t := State.onlyCores_of_settled ht.frame
  have hlock : t.lock o.id8.toNat = s.lock o.id8.toNat := State.lock_congr (by rw [honly]) _
  have hwaits : (t.core o.core).th = { (s.found o.core).after 1 [] with wait := some w } := State.Passed.waits ht
  refine ⟨t.modLock o.id8.toNat f, hexec, hwaits, ?_, ?_⟩
  · rw [State.lock_modLock_same, hlock]
  · exact congrArg (fun u : State => { u with locks := (t.modLock o.id8.toNat f).locks }) honly

theorem lockRel_gives (hruns : s.runs o.core x (encY 0x62 o) = true) (hholds : s.holdsLock x o.id8.toNat = true) :
    Gives (.lockRel o) s fun t =>
      s.ran t o.core [(1, .sreg o.sd 0 false)] 0 ∧
      t.lock o.id8.toNat = { s.lock o.id8.toNat with owner := none, expiry := none, broken := false } ∧
      ∀ m, m ≠ o.id8.toNat → t.lock m = s.lock m := by
  have hholds' : (s.modCore o.core Core.settle).holdsLock x o.id8.toNat = true := hholds
  let f (l : Lock) : Lock := { l with owner := none, expiry := none, broken := false }
  obtain ⟨t, honly, hran, hexec, -⟩ := gives_of_straight (i := .lockRel o)
    (e := lockEff o stOK (fun s => (s.modLock o.id8.toNat f).armLease)) rfl hruns
    (by simp only [hholds', if_true]; rfl) (lockEff_straight ..) rfl
  have hlock (m : Nat) : t.lock m = s.lock m := State.lock_congr (by rw [honly]) m
  let u := t.modLock o.id8.toNat f
  have hset (m : Nat) : u.armLease.lock m = u.lock m := State.lock_congr u.armLease_locks m
  refine ⟨u.armLease, hexec, State.ran_congr hran u.armLease_cores, ?_, fun m hm => ?_⟩
  · rw [hset, State.lock_modLock_same, hlock]
  · rw [hset, State.lock_modLock_ne _ _ hm, hlock]

theorem lockRel_traps (hruns : s.runs o.core x (encY 0x62 o) = true) (hholds : s.holdsLock x o.id8.toNat = false)
    (hend : (s.ctx x).endWith = none) :
    Gives (.lockRel o) s fun t => (t.ctx x).state = .ending ∧ (t.ctx x).endWith = some stLOCK_NOT_OWNER := by
  have hholds' : (s.modCore o.core Core.settle).holdsLock x o.id8.toNat = false := hholds
  exact gives_of_trap rfl hruns (info := 0) (by simp only [hholds', Bool.false_eq_true, if_false]) hend

/-- EMIT without a step traps. -/
theorem emit_traps (hruns : s.runs o.core x (encY 0x69 o) = true) (hcur : (s.epsCtx x).cur = none)
    (hend : (s.ctx x).endWith = none) :
    Gives (.emit o) s fun t => (t.ctx x).state = .ending ∧ (t.ctx x).endWith = some stEMIT_NO_STEP := by
  have hcur' : ((s.modCore o.core Core.settle).epsCtx x).cur = none := hcur
  exact gives_of_trap rfl hruns (info := 0) (by simp only [hcur', Option.isNone_none, if_true]) hend

end

/-! ### The sentinel -/

theorem sentinelSweep_gives {c : CoreId} {s : State} (hsentinel : (s.core c).th.sentinel = true)
    (hctx : (s.core c).ctx ≠ none) (hparked : (s.core c).parked = false) (hhalted : (s.core c).th.halted = false)
    (hdue : 20 * ((s.core c).th.sweeps + 1) ≤ (s.core c).th.cyc) :
    Gives (.sentinelSweep c) s fun t =>
      t.core c = { s.core c with th := { (s.core c).th with sweeps := (s.core c).th.sweeps + 1 } } ∧
      t.reg64 (pCORE c) 0xF38 = s.reg64 (pCORE c) 0xF38 + 1 ∧ t.reg64 (pCORE c) 0xF08 = s.reg64 (pCORE c) 0xF08 + 1 ∧
      s.onlyCores t := by
  let u := (s.inc (pCORE c) 0xF08).inc (pCORE c) 0xF38
  let f (k : Core) : Core := { k with th := { k.th with sweeps := k.th.sweeps + 1 } }
  have hexec : exec (.sentinelSweep c) s = .next (u.modCore c f) := by
    have h : exec (.sentinelSweep c) s = execSentinelSweep c s := rfl
    rw [h, execSentinelSweep]
    simp only [hsentinel, Option.isSome_iff_ne_none.2 hctx, hparked, hhalted, hdue, Bool.not_false, and_self, if_true,
      State.frozen, one_ne_zero, if_false]
    rfl
  have hframe : u = { s with regs := u.regs } := ((s.inc (pCORE c) 0xF08).inc_frame (pCORE c) 0xF38 1).trans
    (congrArg (fun v : State => { v with regs := u.regs }) (s.inc_frame (pCORE c) 0xF08 1))
  have hcore : u.core c = s.core c := by rw [hframe]; rfl
  have hreg (o : Nat) : (u.modCore c f).reg64 (pCORE c) o = u.reg64 (pCORE c) o := State.reg64_congr (State.modCore_regs ..) _ _
  refine ⟨u.modCore c f, hexec, ?_, ?_, ?_, ?_⟩
  · rw [State.core_modCore_same, hcore]
  · rw [hreg]
    have hcount : u.reg64 (pCORE c) 0xF38 = (s.inc (pCORE c) 0xF08).reg64 (pCORE c) 0xF38 + 1 := State.reg64_inc_same ..
    rw [hcount, State.reg64_inc_ne _ _ (by omega)]
  · rw [hreg]
    exact (State.reg64_inc_ne _ _ (by omega)).trans (State.reg64_inc_same ..)
  · exact congrArg (fun v : State => { v with cores := (u.modCore c f).cores }) hframe

/-- A register that an instruction reads at once while its only pending result has not landed is a hazard. -/
theorem Core.hazard_ne_none {k : Core} {e : Eff} {n q r : Nat} {v : LandVal} {reads : List (Loc × Nat)}
    (hsentinel : k.th.sentinel = true) (hlands : k.th.lands = [⟨n, q, v⟩]) (hloc : v.loc = some (.s r)) (hr : r ≠ 0)
    (hlate : k.th.cyc < n) (hreads : e.reads = (.s r, 0) :: reads) : k.hazard e ≠ none := by
  have hmeets : (Loc.s r).meets (.s r) = true := by simp [Loc.meets, hr]
  have hkeeps (ps : List (Loc × Nat)) (m : Nat) : ∃ p, ps.foldl (fun m q =>
      if q.1.meets (.s r) ∧ k.th.cyc + 0 < q.2 then some (max (m.getD 0) (q.2 - (k.th.cyc + 0))) else m) (some m) = some p :=
    List.foldlRecOn (motive := fun w : Option Nat => ∃ p, w = some p) ps _ ⟨m, rfl⟩ fun w hw q _ => by
      split
      · exact ⟨_, rfl⟩
      · exact hw
  have hlate' : k.th.cyc + 0 < n := hlate
  unfold Core.hazard Core.pendingLocs
  simp only [hsentinel, Bool.not_true, Bool.false_eq_true, if_false, hlands, List.filterMap_cons, List.filterMap_nil, hloc,
    Option.map_some, List.singleton_append, List.foldl_cons, hreads, List.findSome?_cons, hmeets, hlate', and_self,
    if_true]
  obtain ⟨p, hp⟩ := hkeeps _ (max ((none : Option Nat).getD 0) (n - (k.th.cyc + 0)))
  rw [hp]
  simp

/-- A hazard ends the context. -/
theorem State.ctx_trapHazard (s : State) (c : CoreId) {x : CtxId} (h : Loc × Bool × Nat)
    (hend : (s.ctx x).endWith = none) :
    ((s.trapHazard c x h).ctx x).state = .ending ∧ ((s.trapHazard c x h).ctx x).endWith = some stHAZARD := by
  unfold State.trapHazard
  dsimp only
  refine State.ctx_trap _ c stHAZARD 0 ?_
  rw [State.ctx, State.raise_ctxs, State.inc_ctxs, State.setReg_ctxs, State.setReg_ctxs, State.setReg_ctxs]
  exact hend

theorem add_hazard {o : SOp} {x : CtxId} {n q : Nat} {v : Word64} {p : Bool} {s : State} (hcan : s.canIssue o.core = true)
    (hctx : (s.found o.core).ctx = some x) (hcode : (s.ctx x).inCode o.core (s.found o.core).th.pc = true)
    (hlegal : legalWord (encS 0x02 0 o) = true) (hsentinel : (s.found o.core).th.sentinel = true) (hra : o.ra ≠ 0)
    (hlands : (s.found o.core).th.lands = [⟨n, q, .sreg o.ra v p⟩]) (hlate : (s.found o.core).th.cyc < n)
    (hend : (s.ctx x).endWith = none) :
    Gives (.add o) s fun t => (t.ctx x).state = .ending ∧ (t.ctx x).endWith = some stHAZARD := by
  obtain ⟨e, hres, hreads⟩ : ∃ e : Eff, aluRes 1 o (fun a b => a + b) (s.found o.core) = .go e ∧
      e.reads = (Loc.s o.ra, 0) :: (if o.i then [] else [(Loc.s o.rb, 0)]) := ⟨_, rfl, rfl⟩
  obtain ⟨h, hhazard⟩ := Option.ne_none_iff_exists'.1
    (Core.hazard_ne_none hsentinel hlands rfl (fun h => hra (Fin.ext h)) hlate hreads)
  have hcore : (s.modCore o.core Core.settle).core o.core = s.found o.core := State.core_modCore_same ..
  have hplace : (s.modCore o.core Core.settle).ctx x = s.ctx x := rfl
  have hexec : exec (.add o) s = .next ((s.modCore o.core Core.settle).trapHazard o.core x h) := by
    have hadd : exec (.add o) s = ok (issue o.core (encS 0x02 0 o) (fun _ _ k => aluRes 1 o (fun a b => a + b) k) s) := rfl
    rw [hadd]
    unfold issue
    simp only [hcan, if_true, hcore, hctx, hplace, hcode, hlegal, Bool.not_true, Bool.false_eq_true, if_false, hres,
      hhazard]
  exact ⟨_, hexec, State.ctx_trapHazard _ _ h hend⟩

/-- Settles O29: each instruction by what its effect does to locks, cores and queues once its core has gone on
(`gives_of_straight`), and the hazard by the one result in flight (`Core.hazard_ne_none`). -/
theorem synchronisationInstructions : Obligations.SynchronisationInstructions := by
  unfold Obligations.SynchronisationInstructions
  exact ⟨fun _ _ _ hruns => ⟨fun hid hdefined => bar_gives hruns hid hdefined, fun hundef hend => bar_traps hruns hundef hend⟩,
    fun _ _ _ hruns => ⟨fun hmay => lockAcq_denied hruns hmay, fun hmay hholds => lockAcq_again hruns hmay hholds,
      fun hmay hholds hhigher => lockAcq_below hruns hmay hholds hhigher,
      fun hmay hholds hhigher => lockAcq_waits hruns hmay hholds hhigher⟩,
    fun _ _ _ hruns => ⟨fun hholds => lockRel_gives hruns hholds, fun hholds hend => lockRel_traps hruns hholds hend⟩,
    fun _ _ _ hruns => fence_gives hruns, fun _ _ _ hruns => halt_gives hruns,
    fun _ _ _ hruns hend hroom => trap_gives hruns hend hroom,
    fun _ _ _ hruns => ⟨fun hcur hend => emit_traps hruns hcur hend, fun hcur => emit_gives hruns hcur⟩,
    fun _ _ _ hruns => yield_gives hruns,
    fun _ _ hsentinel hctx hparked hhalted hdue => sentinelSweep_gives hsentinel hctx hparked hhalted hdue,
    fun _ _ _ _ _ _ _ hcan hctx hcode hlegal hsentinel hra hlands hlate hend =>
      add_hazard hcan hctx hcode hlegal hsentinel hra hlands hlate hend⟩

end Sys2Proof.Machine
end

section
/-! PROOF. What sending a message leaves, and the fabric instructions of a core (12_fabric_transport.md R346 to R368;
06_hj1_baseline.md R173, R174). -/

namespace Sys2Proof.Machine

/-! ### Frames out -/

/-- A register of neither the fabric's page nor a link's. -/
def OffFabric (q k : Nat) : Prop := q ≠ pFAB ∧ q < 0xF0 ∧ k < 0x1000

theorem State.reg_inc_offFabric (s : State) {p o n q k : Nat} (hp : p = pFAB ∨ 0xF0 ≤ p) (ho : o < 0xFFC)
    (hq : OffFabric q k) : (s.inc p o n).reg q k = s.reg q k := by
  unfold OffFabric at hq
  exact State.reg_inc_of_apart _ _ (by simp only [pFAB] at hp hq; omega)

/-- Frames have been put on links or taken from waiting, and messages into this chip's own inbox; what has been sent has
been counted. -/
structure State.Launched (s t : State) : Prop where
  frame : t = { s with
    regs := t.regs, out := t.out, links := t.links
    fab := { s.fab with inbox := t.fab.inbox, mcWait := t.fab.mcWait } }
  reg {q k : Nat} (hq : OffFabric q k) : t.reg q k = s.reg q k

section
variable {s t u : State}

theorem State.Launched.refl (s : State) : s.Launched s := ⟨rfl, fun _ => rfl⟩

theorem State.Launched.trans (h : s.Launched t) (h' : t.Launched u) : s.Launched u where
  frame := h'.frame.trans (congrArg (fun v : State => { v with
    regs := u.regs, out := u.out, links := u.links
    fab := { v.fab with inbox := u.fab.inbox, mcWait := u.fab.mcWait } }) h.frame)
  reg hq := (h'.reg hq).trans (h.reg hq)

theorem State.launched_inc (s : State) {p o : Nat} (n : Nat) (hp : p = pFAB ∨ 0xF0 ≤ p) (ho : o < 0xFFC) :
    s.Launched (s.inc p o n) := ⟨rfl, fun hq => s.reg_inc_offFabric hp ho hq⟩

theorem State.launched_count (s : State) {o : Nat} (ho : o < 0xFFC) : s.Launched (s.inc pFAB o) :=
  s.launched_inc 1 (Or.inl rfl) ho

theorem State.launched_modLink (s : State) (l : Nat) (f : Link → Link) : s.Launched (s.modLink l f) :=
  ⟨rfl, fun _ => rfl⟩

theorem State.launched_putFrame (s : State) (l : LinkId) (f : Frame) : s.Launched (s.putFrame l f) :=
  ⟨rfl, fun _ => rfl⟩

theorem State.launched_pushFrame (s : State) (l v : Nat) (src : Option (LinkId × Fin 8)) (f : Frame) :
    s.Launched (s.pushFrame l v src f) := ⟨rfl, fun _ => rfl⟩

theorem State.launched_creditBack (s : State) (src : Option (LinkId × Fin 8)) (lines : Nat) :
    s.Launched (s.creditBack src lines) := by
  unfold State.creditBack
  split
  · exact .refl s
  · exact s.launched_modLink ..

theorem State.launched_sendHead {l : LinkId} {v : Fin 8} {n : Nat} (ht : s.sendHead l v = some (n, t)) :
    s.Launched t := by
  unfold State.sendHead at ht
  dsimp only at ht
  split at ht
  · cases ht
  split at ht
  · cases ht
  split at ht
  · cases ht
  rw [Option.some.injEq, Prod.mk.injEq] at ht
  obtain ⟨-, rfl⟩ := ht
  have hsent (f : Link → Link) (g : Frame) (n : Nat) :
      s.Launched ((((s.modLink l f).putFrame l g).inc (pLNK l) 0xF00).inc (pLNK l) 0xF10 n) :=
    ((s.launched_modLink l f).trans (State.launched_putFrame _ l g)).trans
      ((State.launched_inc _ 1 (Or.inr (Nat.le_add_right ..)) (by decide)).trans
        (State.launched_inc _ n (Or.inr (Nat.le_add_right ..)) (by decide)))
  split
  · exact hsent _ _ _
  · exact (hsent _ _ _).trans (State.launched_creditBack ..)

theorem State.launched_sendVc (l : LinkId) (v : Fin 8) (fuel spent : Nat) (s : State) :
    s.Launched (s.sendVc l v fuel spent) := by
  induction fuel generalizing spent s with
  | zero => exact .refl s
  | succ fuel ih =>
    unfold State.sendVc
    split
    · exact .refl s
    split
    · exact .refl s
    · next hhead => exact (State.launched_sendHead hhead).trans (ih _ _)

theorem State.launched_sendRounds (l : LinkId) (fuel : Nat) (s : State) : s.Launched (s.sendRounds l fuel) := by
  induction fuel generalizing s with
  | zero => exact .refl s
  | succ fuel ih =>
    unfold State.sendRounds
    exact (List.foldlRecOn (motive := s.Launched) _ _ (.refl s) fun t h v _ => h.trans (t.launched_sendVc l v _ _)).trans
      (ih _)

theorem State.launched_pump (s : State) (l : LinkId) : s.Launched (s.pump l) := s.launched_sendRounds l _

theorem State.launched_mcPump (waits keep : List (Option LinkId × Frame)) (s : State) :
    s.Launched (s.mcPump waits keep) := by
  induction waits generalizing keep s with
  | nil => exact ⟨rfl, fun _ => rfl⟩
  | cons w waits ih =>
    unfold State.mcPump
    dsimp only
    split
    · have hkids := List.foldlRecOn (motive := s.Launched) (childLinks (s.tree (fld w.2.route 0 12)))
        (fun s (l : LinkId) => (s.pushFrame l 3 (w.1.map (fun x => (x, 3))) w.2).pump l) (.refl s)
        fun t h l _ => h.trans ((t.launched_pushFrame ..).trans (State.launched_pump _ l))
      refine State.Launched.trans ?_ (ih _ _)
      refine State.Launched.trans ?_ (State.launched_creditBack ..)
      split
      · exact hkids.trans (State.launched_count _ (by decide))
      · exact hkids
    · exact ih _ _

theorem State.launched_launch (s : State) (m : Message) (vc : Fin 8) : s.Launched (s.launch m vc) := by
  have hout : s.Launched (s.emitOut (.msg m vc)) := ⟨rfl, fun _ => rfl⟩
  have hinbox (t : State) : t.Launched { t with fab := { t.fab with inbox := t.fab.inbox ++ [m] } } :=
    ⟨rfl, fun _ => rfl⟩
  unfold State.launch
  dsimp only
  split
  · split
    · exact hout
    have hown : s.Launched (if bit ((s.emitOut (.msg m vc)).tree m.dest.toNat) 5 then
        { s.emitOut (.msg m vc) with fab := { (s.emitOut (.msg m vc)).fab with
          inbox := (s.emitOut (.msg m vc)).fab.inbox ++ [m] } } else s.emitOut (.msg m vc)) := by
      split
      · exact hout.trans (hinbox _)
      · exact hout
    split
    · exact hown
    · exact hown.trans (State.launched_mcPump ..)
  · split
    · exact hout.trans (hinbox _)
    · exact hout.trans ((State.launched_modLink ..).trans (State.launched_pump ..))

theorem State.launched_transmit (s : State) (m : Message) (vc : Fin 8) : s.Launched (s.transmit m vc) := by
  unfold State.transmit
  split
  · exact s.launched_launch m vc
  · exact .refl s

theorem State.launched_sendPlain (s : State) (m : Message) (vc : Fin 8) : s.Launched (s.sendPlain m vc) :=
  (s.launched_count (by decide)).trans (State.launched_transmit ..)

theorem State.launched_tackTo (s : State) (m : Message) (st : BitVec 16) : s.Launched (s.tackTo m st) := by
  unfold State.tackTo
  dsimp only
  split
  · exact (s.launched_count (by decide)).trans (State.launched_sendPlain ..)
  · exact s.launched_sendPlain ..

end

/-! ### Held messages -/

/-- Messages have been numbered, held and sent: one that was held still is, though it may have been sent by now. -/
structure State.Sent (s t : State) : Prop where
  frame : t = { s with
    regs := t.regs, out := t.out, links := t.links
    fab := { s.fab with inbox := t.fab.inbox, mcWait := t.fab.mcWait, held := t.fab.held, mseq := t.fab.mseq } }
  reg {q k : Nat} (hq : OffFabric q k) : t.reg q k = s.reg q k
  held : ∀ h ∈ s.fab.held, ∃ h' ∈ t.fab.held, h'.msg = h.msg ∧ h'.sender = h.sender

section
variable {s t u : State}

theorem State.Sent.refl (s : State) : s.Sent s := ⟨rfl, fun _ => rfl, fun h hh => ⟨h, hh, rfl, rfl⟩⟩

theorem State.Sent.trans (h : s.Sent t) (h' : t.Sent u) : s.Sent u where
  frame := h'.frame.trans (congrArg (fun v : State => { v with
    regs := u.regs, out := u.out, links := u.links
    fab := { v.fab with inbox := u.fab.inbox, mcWait := u.fab.mcWait, held := u.fab.held, mseq := u.fab.mseq } }) h.frame)
  reg hq := (h'.reg hq).trans (h.reg hq)
  held g hg := by
    obtain ⟨g1, hg1, hmsg1, hby1⟩ := h.held g hg
    obtain ⟨g2, hg2, hmsg2, hby2⟩ := h'.held g1 hg1
    exact ⟨g2, hg2, hmsg2.trans hmsg1, hby2.trans hby1⟩

theorem State.Launched.fab (h : s.Launched t) :
    t.fab = { s.fab with inbox := t.fab.inbox, mcWait := t.fab.mcWait } := congrArg State.fab h.frame

theorem State.Launched.sent (h : s.Launched t) : s.Sent t where
  frame := h.frame.trans (congrArg (fun f : Fab => { s with
    regs := t.regs, out := t.out, links := t.links, fab := f }) (by rw [h.fab]))
  reg := h.reg
  held g hg := ⟨g, by rw [h.fab]; exact hg, rfl, rfl⟩

theorem State.Sent.cores (h : s.Sent t) : t.cores = s.cores := by rw [h.frame]
theorem State.Sent.ctxs (h : s.Sent t) : t.ctxs = s.ctxs := by rw [h.frame]
theorem State.Sent.pods (h : s.Sent t) : t.fab.pods = s.fab.pods := by rw [h.frame]
theorem State.Sent.windows (h : s.Sent t) : t.fab.windows = s.fab.windows := by rw [h.frame]

/-- A message has been marked as sent. -/
theorem State.sent_mark (s : State) (f : Held → Held) (hf : ∀ h, (f h).msg = h.msg ∧ (f h).sender = h.sender) :
    s.Sent { s with fab := { s.fab with held := s.fab.held.map f } } where
  frame := rfl
  reg _ := rfl
  held h hh := ⟨f h, List.mem_map_of_mem hh, hf h⟩

theorem State.sent_sendWaiting (s : State) (dest : BitVec 12) : s.Sent (s.sendWaiting dest) := by
  refine List.foldlRecOn (motive := s.Sent) _ _ (.refl s) fun t h g _ => ?_
  split
  · refine h.trans (State.Sent.trans (State.sent_mark t _ fun q => ?_)
      ((State.launched_count _ (by decide)).trans (State.launched_transmit ..)).sent)
    split <;> exact ⟨rfl, rfl⟩
  · exact h

/-- A message that is not for a tree is numbered, held and sent. -/
theorem State.sendMsg_eq (s : State) {m : Message} (hmc : m.mc = false) (vc : Fin 8) (by_ : Sender) :
    s.sendMsg m vc by_ =
      let n := sget 0 s.fab.mseq m.dest.toNat % mseqCircle + 1
      let h : Held := { msg := { m with mseq := BitVec.ofNat 48 n }, vc := vc, sender := by_, sent := false, tries := 0
                        norecv := false, refused := false, first := s.pw.aonTime, cancelled := false }
      (n, ({ s with fab := { s.fab with
        mseq := sset 0 s.fab.mseq m.dest.toNat n, held := s.fab.held ++ [h] } }).sendWaiting m.dest) := by
  unfold State.sendMsg
  simp only [hmc, Bool.false_eq_true, if_false]
  rfl

theorem State.sent_sendMsg (s : State) (m : Message) (vc : Fin 8) (by_ : Sender) : s.Sent (s.sendMsg m vc by_).2 := by
  by_cases hmc : m.mc = true
  · have hseq (n : Nat) : s.Sent { s with fab := { s.fab with mseq := sset 0 s.fab.mseq (4096 + m.dest.toNat % 64) n } } :=
      ⟨rfl, fun _ => rfl, fun h hh => ⟨h, hh, rfl, rfl⟩⟩
    unfold State.sendMsg
    simp only [hmc, if_true]
    exact (hseq _).trans ((State.launched_count _ (by decide)).trans (State.launched_transmit ..)).sent
  · rw [s.sendMsg_eq (Bool.not_eq_true _ ▸ hmc)]
    have hadd (n : Nat) (h : Held) : s.Sent { s with fab := { s.fab with
        mseq := sset 0 s.fab.mseq m.dest.toNat n, held := s.fab.held ++ [h] } } :=
      ⟨rfl, fun _ => rfl, fun g hg => ⟨g, List.mem_append_left _ hg, rfl, rfl⟩⟩
    exact (hadd _ _).trans (State.sent_sendWaiting _ m.dest)

/-- A message that is not for a tree is held once it is sent, with its number. -/
theorem State.held_sendMsg (s : State) {m : Message} (hmc : m.mc = false) (vc : Fin 8) (by_ : Sender) :
    ∃ h ∈ (s.sendMsg m vc by_).2.fab.held,
      h.msg = { m with mseq := BitVec.ofNat 48 (sget 0 s.fab.mseq m.dest.toNat % mseqCircle + 1) } ∧ h.sender = by_ := by
  rw [s.sendMsg_eq hmc]
  refine (State.sent_sendWaiting _ m.dest).held { msg := _, vc := vc, sender := by_, sent := false, tries := 0
                                                  norecv := false, refused := false, first := s.pw.aonTime
                                                  cancelled := false } ?_
  exact List.mem_append_right _ (List.mem_singleton_self _)

end

/-! ### FAB.SEND and FAB.RECV -/

section
variable {o : YOp} {x : CtxId} {d : List Byte} {s : State}

/-- The effect of a fabric instruction whose check fails. -/
def fabFailEff (o : YOp) (st : BitVec 16) : Eff :=
  { lands := [(1, .sreg o.sd (st.setWidth 64) false)], reads := [(Loc.s o.sa, 0)] }

theorem fabFailEff_plain (o : YOp) (st : BitVec 16) : (fabFailEff o st).Plain := ⟨⟨rfl, rfl, rfl⟩, rfl, rfl⟩

theorem fabSend_fails (hruns : s.runs o.core x (encY 0x64 o) = true) (hdesc : fabDesc (s.found o.core) o = .inr d)
    {st : BitVec 16} (hcheck : sendCheck (s.ctx x) o.core d = some st) :
    Gives (.fabSend o) s fun t => s.ran t o.core [(1, .sreg o.sd (st.setWidth 64) false)] 0 ∧ s.onlyCores t := by
  refine gives_of_plain (e := fabFailEff o st) rfl hruns ?_ (fabFailEff_plain o st)
  simp only [hdesc, State.ctx_congr (State.modCore_ctxs ..), hcheck]
  rfl

/-- What FAB.SEND does after its core has gone on: the message is sent, and the core waits for its outcome. -/
def State.fabSent (s : State) (o : YOp) (x : CtxId) (d : List Byte) : State :=
  let m := s.sendFrom o.core x d
  let r := s.sendMsg m.1 m.2 (.core o.core x)
  r.2.modCore o.core (fun k => { k with th := { k.th with
    wait := some (.fabSend o.sd m.1.dest (BitVec.ofNat 48 r.1) none false) } })

theorem fabSend_gives (hruns : s.runs o.core x (encY 0x64 o) = true) (hdesc : fabDesc (s.found o.core) o = .inr d)
    (hcheck : sendCheck (s.ctx x) o.core d = none) :
    Gives (.fabSend o) s fun t =>
      let k := s.found o.core
      let dest := BitVec.ofNat 12 (lef d 2 2)
      let n := BitVec.ofNat 48 (sget 0 s.fab.mseq dest.toNat % (2 ^ 48 - 1) + 1)
      (t.core o.core).th = { k.after 1 [] with wait := some (.fabSend o.sd dest n none false) } ∧
      ∃ h ∈ t.fab.held, h.msg.dest = dest ∧ h.msg.mseq = n ∧ h.msg.kind = 0x01 ∧ h.msg.sctx = x ∧
        h.msg.tag = BitVec.ofNat 16 (lef d 6 2) ∧ h.msg.payload = k.rd (lef d 8 4) (lef d 0xC 4) ∧
        h.sender = .core o.core x := by
  obtain ⟨t, ht, hexec⟩ := gives_of_no_target (i := .fabSend o)
    (e := { reads := [(Loc.s o.sa, 0)], onState := fun s => s.fabSent o x d }) rfl hruns
    (by simp only [hdesc, State.ctx_congr (State.modCore_ctxs ..), hcheck]; rfl) rfl rfl
  have hfab : t.fab = s.fab := by
    have honly : s.onlyCores t := State.onlyCores_of_settled ht.frame
    rw [honly]
  have hrd : (t.core o.core).rd (lef d 8 4) (lef d 0xC 4) = (s.found o.core).rd (lef d 8 4) (lef d 0xC 4) := by
    obtain ⟨b, hb⟩ := ht.found
    rw [hb]
    rfl
  have hsent := t.sent_sendMsg (t.sendFrom o.core x d).1 (t.sendFrom o.core x d).2 (.core o.core x)
  obtain ⟨h, hheld, hmsg, hsender⟩ := t.held_sendMsg (m := (t.sendFrom o.core x d).1) rfl (t.sendFrom o.core x d).2
    (.core o.core x)
  refine ⟨t.fabSent o x d, hexec, ?_, h, hheld, ?_, ?_, ?_, ?_, ?_, ?_, hsender⟩
  · have hcore : (t.fabSent o x d).core o.core = { t.core o.core with th := { (t.core o.core).th with
        wait := some (.fabSend o.sd (BitVec.ofNat 12 (lef d 2 2))
          (BitVec.ofNat 48 (sget 0 s.fab.mseq (BitVec.ofNat 12 (lef d 2 2)).toNat % (2 ^ 48 - 1) + 1)) none false) } } := by
      rw [State.fabSent, State.core_modCore_same, State.core_congr hsent.cores, t.sendMsg_eq rfl, ← hfab]
      rfl
    rw [hcore, ht.after rfl rfl]
  · rw [hmsg]; rfl
  · rw [hmsg, hfab]; rfl
  · rw [hmsg]; rfl
  · rw [hmsg]; rfl
  · rw [hmsg]; rfl
  · rw [hmsg]; exact hrd

theorem fabRecv_fails (hruns : s.runs o.core x (encY 0x65 o) = true) (hdesc : fabDesc (s.found o.core) o = .inr d)
    {st : BitVec 16} (hcheck : recvCheck (s.ctx x) o.core d = some st) :
    Gives (.fabRecv o) s fun t => s.ran t o.core [(1, .sreg o.sd (st.setWidth 64) false)] 0 ∧ s.onlyCores t := by
  refine gives_of_plain (e := fabFailEff o st) rfl hruns ?_ (fabFailEff_plain o st)
  simp only [hdesc, State.ctx_congr (State.modCore_ctxs ..), hcheck]
  rfl

theorem fabRecv_gives (hruns : s.runs o.core x (encY 0x65 o) = true) (hdesc : fabDesc (s.found o.core) o = .inr d)
    (hcheck : recvCheck (s.ctx x) o.core d = none) :
    Gives (.fabRecv o) s fun t =>
      (t.core o.core).th = { (s.found o.core).after 1 [] with
        wait := some (.fabRecv o.sd (bit (d.getD 0 0) 0) (BitVec.ofNat 12 (lef d 2 2)) (BitVec.ofNat 16 (lef d 6 2))
          (lef d 8 4) (lef d 0xC 4) none) } ∧ s.onlyCores t := by
  let w : Wait := .fabRecv o.sd (bit (d.getD 0 0) 0) (BitVec.ofNat 12 (lef d 2 2)) (BitVec.ofNat 16 (lef d 6 2))
    (lef d 8 4) (lef d 0xC 4) none
  obtain ⟨t, ht, hexec⟩ := gives_of_no_target (i := .fabRecv o) (e := { waitEff w with reads := [(Loc.s o.sa, 0)] })
    rfl hruns (by simp only [hdesc, State.ctx_congr (State.modCore_ctxs ..), hcheck]; rfl) rfl rfl
  have hwaits : (t.core o.core).th = { (s.found o.core).after 1 [] with wait := some w } := State.Passed.waits ht
  exact ⟨t, hexec, hwaits, State.onlyCores_of_settled ht.frame⟩

end

section
variable {c : CoreId} {waited : Nat} {s : State}

theorem fabSendComplete_gives {sd : Fin 32} {dest : BitVec 12} {q : BitVec 48} {st : BitVec 16} {re : Bool}
    (hlive : s.waitLive c = true) (hwait : (s.core c).th.wait = some (.fabSend sd dest q (some st) re)) :
    Gives (.fabSendComplete c waited) s fun t =>
      (t.core c).th = (s.core c).woken waited [(0, .sreg sd (st.setWidth 64) false)] ∧
      (∀ e, e ≠ c.val → t.core e = s.core e) ∧ s.onlyCores t := by
  have hwoken := s.woken_endWait c waited [(1, .sreg sd (st.setWidth 64) false)]
  refine ⟨_, ?_, hwoken.thread, hwoken.others, hwoken.frame⟩
  have hexec : exec (.fabSendComplete c waited) s = execFabSendComplete c waited s := rfl
  rw [hexec, execFabSendComplete]
  simp only [hlive, Bool.not_true, Bool.false_eq_true, if_false, hwait]

theorem fabRecvComplete_gives {n a cap : Nat} {sd : Fin 32} {any : Bool} {src from_ : BitVec 12} {tag st : BitVec 16}
    (hlive : s.waitLive c = true)
    (hwait : (s.core c).th.wait = some (.fabRecv sd any src tag a cap (some (st, n, from_)))) :
    Gives (.fabRecvComplete c waited) s fun t =>
      (t.core c).th = (s.core c).woken waited
        [(0, .sreg sd (BitVec.ofNat 64 (st.toNat + n * 2 ^ 16 + from_.toNat * 2 ^ 48)) false)] ∧
      (∀ e, e ≠ c.val → t.core e = s.core e) ∧ s.onlyCores t := by
  have hwoken := s.woken_endWait c waited
    [(1, .sreg sd (BitVec.ofNat 64 (st.toNat + n * 2 ^ 16 + from_.toNat * 2 ^ 48)) false)]
  refine ⟨_, ?_, hwoken.thread, hwoken.others, hwoken.frame⟩
  have hexec : exec (.fabRecvComplete c waited) s = execFabRecvComplete c waited s := rfl
  rw [hexec, execFabRecvComplete]
  simp only [hlive, Bool.not_true, Bool.false_eq_true, if_false, hwait]

end

/-- Settles O30: a failing check gives its status (`fabFailEff`), a send is held by the transport (`State.held_sendMsg`), and
a receive is posted. -/
theorem fabricInstructions : Obligations.FabricInstructions := by
  unfold Obligations.FabricInstructions
  exact ⟨fun _ _ _ _ hruns hdesc => ⟨fun _ hcheck => fabSend_fails hruns hdesc hcheck,
      fun hcheck => fabSend_gives hruns hdesc hcheck⟩,
    fun _ _ _ _ hruns hdesc => ⟨fun _ hcheck => fabRecv_fails hruns hdesc hcheck,
      fun hcheck => fabRecv_gives hruns hdesc hcheck⟩,
    fun _ _ _ _ _ _ _ _ hlive hwait => fabSendComplete_gives hlive hwait,
    fun _ _ _ _ _ _ _ _ _ _ _ _ hlive hwait => fabRecvComplete_gives hlive hwait⟩

end Sys2Proof.Machine
end

section
/-! PROOF. Arrivals, completions and stalls of barriers, and the messages of pod barriers (08_streams.md R243 to R247;
12_fabric_transport.md R347 to R350). -/

namespace Sys2Proof.Machine

/-! ### Barriers of a context -/

theorem State.bar_congr {s t : State} (h : t.ctxs = s.ctxs) (x b : Nat) : t.bar x b = s.bar x b := by
  rw [State.bar, State.ctx_congr h]
  rfl

theorem State.bar_modBar_same (s : State) (x b : Nat) (f : Barrier → Barrier) :
    (s.modBar x b f).bar x b = f (s.bar x b) := by
  rw [State.bar, State.modBar, State.ctx_modCtx_same]
  exact sget_smod_same ..

theorem State.bar_modBar_ne (s : State) {x b y q : Nat} (f : Barrier → Barrier) (h : y ≠ x ∨ q ≠ b) :
    (s.modBar x b f).bar y q = s.bar y q := by
  by_cases hy : y = x
  · subst hy
    rw [State.bar, State.modBar, State.ctx_modCtx_same]
    exact sget_smod_ne _ _ _ (h.resolve_left (fun hne => hne rfl))
  · rw [State.bar, State.modBar, State.ctx_modCtx_ne _ _ hy]
    rfl

/-- What every barrier keeps when one changes. -/
theorem State.bar_modBar_keeps {α : Type} (g : Barrier → α) (s : State) (x b y q : Nat) {f : Barrier → Barrier}
    (hf : ∀ k, g (f k) = g k) : g ((s.modBar x b f).bar y q) = g (s.bar y q) := by
  by_cases h : y = x ∧ q = b
  · obtain ⟨rfl, rfl⟩ := h
    rw [State.bar_modBar_same, hf]
  · rw [State.bar_modBar_ne _ _ (by omega)]

theorem State.modBar_frame (s : State) (x b : Nat) (f : Barrier → Barrier) :
    s.modBar x b f = { s with ctxs := (s.modBar x b f).ctxs } := rfl

/-- Only the contexts' places have changed. -/
def State.onlyCtxs (s t : State) : Prop := t = { s with ctxs := t.ctxs }

theorem State.barFirst_cases (s : State) (x b : Nat) (eps : Bool) :
    s.barFirst x b eps = s ∨
      s.barFirst x b eps = s.modBar x b (fun k => if k.first.isSome then k else { k with first := some s.pw.aonTime }) := by
  unfold State.barFirst
  split
  · exact Or.inl rfl
  · exact Or.inr rfl

/-- Taking the time of the first arrival leaves whatever of a barrier does not depend on it. -/
theorem State.bar_barFirst_keeps {α : Type} (g : Barrier → α) (s : State) (x b y q : Nat) (eps : Bool)
    (hg : ∀ k a, g { k with first := a } = g k) : g ((s.barFirst x b eps).bar y q) = g (s.bar y q) := by
  obtain h | h := s.barFirst_cases x b eps
  · rw [h]
  · rw [h]
    refine State.bar_modBar_keeps g s x b y q fun k => ?_
    split
    · rfl
    · exact hg ..

theorem State.barFirst_frame (s : State) (x b : Nat) (eps : Bool) :
    s.barFirst x b eps = { s with ctxs := (s.barFirst x b eps).ctxs } := by
  obtain h | h := s.barFirst_cases x b eps
  · rw [h]
  · rw [h]; rfl

/-! ### What the messages of a pod barrier leave -/

/-- Messages of pod barriers have been sent and releases have come: who has arrived at a barrier stands. -/
structure State.PodTold (s t : State) : Prop where
  frame : t = { s with regs := t.regs, out := t.out, links := t.links, fab := t.fab, ctxs := t.ctxs }
  reg {q k : Nat} (hq : OffFabric q k) : t.reg q k = s.reg q k
  arrived (x b : Nat) : (t.bar x b).arrived = (s.bar x b).arrived

section
variable {s t u : State}

theorem State.PodTold.refl (s : State) : s.PodTold s := ⟨rfl, fun _ => rfl, fun _ _ => rfl⟩

theorem State.PodTold.trans (h : s.PodTold t) (h' : t.PodTold u) : s.PodTold u where
  frame := h'.frame.trans (congrArg (fun v : State => { v with
    regs := u.regs, out := u.out, links := u.links, fab := u.fab, ctxs := u.ctxs }) h.frame)
  reg hq := (h'.reg hq).trans (h.reg hq)
  arrived x b := (h'.arrived x b).trans (h.arrived x b)

theorem State.Sent.podTold (h : s.Sent t) : s.PodTold t where
  frame := h.frame.trans (congrArg₂ (fun f c => { s with
    regs := t.regs, out := t.out, links := t.links, fab := f, ctxs := c }) (congrArg State.fab h.frame).symm h.ctxs.symm)
  reg := h.reg
  arrived x b := by rw [State.bar_congr h.ctxs]

theorem State.podTold_modBar (s : State) (x b : Nat) {f : Barrier → Barrier} (hf : ∀ k, (f k).arrived = k.arrived) :
    s.PodTold (s.modBar x b f) :=
  ⟨rfl, fun _ => rfl, fun y q => State.bar_modBar_keeps Barrier.arrived s x b y q hf⟩

theorem State.podTold_setPod (s : State) (gid b : Nat) (p : Pod) : s.PodTold (s.setPod gid b p) :=
  ⟨rfl, fun _ => rfl, fun _ _ => rfl⟩

theorem State.podTold_podReleased (s : State) (gid b : Nat) :
    s.PodTold (s.podReleased gid b) ∧ (s.podReleased gid b).fab = s.fab := by
  unfold State.podReleased
  split
  · exact ⟨s.podTold_modBar _ b fun _ => rfl, rfl⟩
  · exact ⟨.refl s, rfl⟩

/-- The release of a pod barrier has been sent to its chips. -/
theorem State.podTold_releases (s : State) (cs : List (BitVec 12)) (gid b : Nat) :
    let t := cs.foldl (fun s c =>
      if c.toNat = s.myAddr then s.podReleased gid b
      else (s.sendMsg (s.barMsg 0x05 c.toNat gid b) 0 (.engine 0x0D 0)).2) s
    s.PodTold t ∧ t.fab.pods = s.fab.pods := by
  refine List.foldlRecOn (motive := fun t => s.PodTold t ∧ t.fab.pods = s.fab.pods) cs _ ⟨.refl s, rfl⟩ fun t h c _ => ?_
  obtain ⟨htold, hpods⟩ := h
  split
  · obtain ⟨hrel, hfab⟩ := t.podTold_podReleased gid b
    exact ⟨htold.trans hrel, by rw [hfab, hpods]⟩
  · have hsent := t.sent_sendMsg (t.barMsg 0x05 c.toNat gid b) 0 (.engine 0x0D 0)
    exact ⟨htold.trans hsent.podTold, hsent.pods.trans hpods⟩

/-- What a pod barrier holds once a chip has arrived. -/
def Pod.with (p : Pod) (chip : BitVec 12) (now : BitVec 48) : Pod :=
  { arrived := if p.arrived.contains chip then p.arrived else p.arrived ++ [chip], first := some (p.first.getD now) }

theorem Pod.contains_with (p : Pod) (chip c : BitVec 12) (now : BitVec 48) :
    (p.with chip now).arrived.contains c = (p.arrived.contains c || c == chip) := by
  unfold Pod.with
  dsimp only
  split
  · next h =>
    by_cases hc : c = chip
    · subst hc
      rw [h, beq_self_eq_true, Bool.or_true]
    · rw [beq_false_of_ne hc, Bool.or_false]
  · rw [List.contains_append, List.contains_cons, List.contains_nil, Bool.or_false]

theorem State.podArrive_eq (s : State) (gid b : Nat) (chip : BitVec 12) :
    s.podArrive gid b chip =
      if (s.podChips gid).isEmpty = false ∧
          (s.podChips gid).all (fun c => (s.pod gid b).arrived.contains c || c == chip) = true then
        (s.podChips gid).foldl (fun s c =>
          if c.toNat = s.myAddr then s.podReleased gid b
          else (s.sendMsg (s.barMsg 0x05 c.toNat gid b) 0 (.engine 0x0D 0)).2) (s.setPod gid b {})
      else s.setPod gid b ((s.pod gid b).with chip s.pw.aonTime) := by
  simp only [← Pod.contains_with _ _ _ s.pw.aonTime, ← Bool.not_eq_true']
  rfl

theorem State.podTold_podArrive (s : State) (gid b : Nat) (chip : BitVec 12) : s.PodTold (s.podArrive gid b chip) := by
  rw [State.podArrive_eq]
  split
  · exact (s.podTold_setPod gid b {}).trans (State.podTold_releases _ _ gid b).1
  · exact s.podTold_setPod ..

theorem State.pod_setPod_same (s : State) (gid b : Nat) (p : Pod) : (s.setPod gid b p).pod gid b = p :=
  sget_sset_same ..

/-- A chip that is not the last is recorded with those that have arrived before. -/
theorem State.pod_podArrive (s : State) (gid b : Nat) (chip : BitVec 12)
    (h : (s.podChips gid).all (fun c => (s.pod gid b).arrived.contains c || c == chip) = false ∨ s.podChips gid = []) :
    chip ∈ ((s.podArrive gid b chip).pod gid b).arrived ∧
      ∀ c ∈ (s.pod gid b).arrived, c ∈ ((s.podArrive gid b chip).pod gid b).arrived := by
  have hnot : ¬((s.podChips gid).isEmpty = false ∧
      (s.podChips gid).all (fun c => (s.pod gid b).arrived.contains c || c == chip) = true) := by
    rintro ⟨hne, hall⟩
    obtain h | h := h
    · rw [hall] at h; cases h
    · rw [h] at hne; cases hne
  have hin (c : BitVec 12) : c ∈ ((s.podArrive gid b chip).pod gid b).arrived ↔
      ((s.pod gid b).arrived.contains c || c == chip) = true := by
    rw [State.podArrive_eq, if_neg hnot, State.pod_setPod_same, ← Pod.contains_with _ _ _ s.pw.aonTime,
      List.contains_iff_mem]
  refine ⟨(hin chip).2 (by simp), fun c hc => (hin c).2 ?_⟩
  rw [List.contains_iff_mem.2 hc]
  rfl

/-- The last chip releases all, and the pod barrier begins again. -/
theorem State.pod_podArrive_last (s : State) (gid b : Nat) (chip : BitVec 12)
    (hall : (s.podChips gid).all (fun c => (s.pod gid b).arrived.contains c || c == chip) = true)
    (hne : s.podChips gid ≠ []) : ((s.podArrive gid b chip).pod gid b).arrived = [] := by
  have hlast : (s.podChips gid).isEmpty = false := by
    rw [Bool.eq_false_iff, ne_eq, List.isEmpty_iff]
    exact hne
  have hpods := ((s.setPod gid b {}).podTold_releases (s.podChips gid) gid b).2
  rw [State.podArrive_eq, if_pos ⟨hlast, hall⟩, State.pod, hpods]
  exact congrArg Pod.arrived (State.pod_setPod_same ..)

theorem State.podTold_podCheck (s : State) (x : CtxId) (b : Nat) : s.PodTold (s.podCheck x b) := by
  unfold State.podCheck
  dsimp only
  split
  · exact .refl s
  split
  · exact .refl s
  have hmark := s.podTold_modBar x b (f := fun k => { k with sent := true }) fun _ => rfl
  split
  · exact hmark.trans (State.podTold_podArrive ..)
  · exact hmark.trans (State.sent_sendMsg _ _ 0 _).podTold

theorem State.podCheck_of_alone {s : State} {x : CtxId} {b : Nat} (h : (s.bar x b).chips = 0) : s.podCheck x b = s := by
  rw [State.podCheck, if_pos (Or.inl h)]

end

/-! ### A core arrives -/

section
variable {c : CoreId} {x : CtxId} {s : State}

/-- A fold over changes none of which applies leaves the state. -/
theorem State.foldl_if_none {α : Type} (l : List α) (p : State → α → Prop) [∀ s a, Decidable (p s a)]
    (f : State → α → State) (s : State) (h : ∀ a ∈ l, ¬p s a) :
    l.foldl (fun s a => if p s a then f s a else s) s = s :=
  List.foldlRecOn (motive := fun t => t = s) l _ rfl fun t ht a ha => by
    rw [ht, if_neg (h a ha)]

/-- The barrier of a core's context with the core among those that have arrived. -/
def State.barArrived (s : State) (x : CtxId) (b : Nat) (c : CoreId) : State :=
  (s.modBar x b (fun k => { k with arrived := if k.arrived.contains c then k.arrived else k.arrived ++ [c] })).barFirst
    x b false

theorem State.barArrived_frame (s : State) (x : CtxId) (b : Nat) (c : CoreId) :
    s.barArrived x b c = { s with ctxs := (s.barArrived x b c).ctxs } :=
  State.barFirst_frame ..

theorem State.chips_barArrived (s : State) (x : CtxId) (b : Nat) (c : CoreId) :
    ((s.barArrived x b c).bar x b).chips = (s.bar x b).chips := by
  rw [State.barArrived, State.bar_barFirst_keeps Barrier.chips _ _ _ _ _ _ fun _ _ => rfl, State.bar_modBar_same]

theorem State.mem_barArrived (s : State) (x : CtxId) (b : Nat) (c : CoreId) :
    c ∈ ((s.barArrived x b c).bar x b).arrived := by
  rw [State.barArrived, State.bar_barFirst_keeps Barrier.arrived _ _ _ _ _ _ fun _ _ => rfl, State.bar_modBar_same]
  dsimp only
  split
  · next h => exact List.contains_iff_mem.1 h
  · exact List.mem_append_right _ (List.mem_singleton_self c)

theorem State.coreArrive_of_live {b : Nat} (hlive : (s.bar x b).aborted = false) (hend : (s.bar x b).ended = none) :
    s.coreArrive x b c = (s.barArrived x b c).podCheck x b := by
  unfold State.coreArrive
  simp only [hlive, hend, Bool.false_eq_true, if_false]
  rfl

theorem State.trnOn_congr {s t : State} {j : Nat} (hj : j < 8)
    (h : ∀ {q k}, OffFabric q k → t.reg q k = s.reg q k) (x : Nat) : t.trnOn j x = s.trnOn j x := by
  have hreg : t.trnCfg j = s.trnCfg j := h (by unfold OffFabric; simp only [pTRN, pFAB]; omega)
  rw [State.trnOn, hreg]
  rfl

theorem barArrival_gives {sd : Fin 32} {b : Fin 64} (hctx : (s.core c).ctx = some x)
    (hwait : (s.core c).th.wait = some (.bar sd b false none)) (hclosed : (s.core c).closed x = true)
    (hlive : (s.bar x b).aborted = false) (hend : (s.bar x b).ended = none)
    (hoff : ∀ j, j < 8 → s.trnOn j x = false) :
    Gives (.barArrival c) s fun t =>
      c ∈ (t.bar x b).arrived ∧ (t.core c).th.wait = some (.bar sd b true none) ∧
      (∀ e, e ≠ c.val → t.core e = s.core e) ∧
      ((s.bar x b).chips = 0 → t = { s with cores := t.cores, ctxs := t.ctxs }) := by
  let w : Wait := .bar sd b true none
  let u := s.modCore c (fun k => { k with th := { k.th with wait := some w } })
  let v := u.barArrived x b c
  have hframe := u.barArrived_frame x b c
  have htold : v.PodTold (v.podCheck x b) := v.podTold_podCheck x b
  have hvregs : v.regs = u.regs := (congrArg State.regs hframe :)
  have hvcores : v.cores = u.cores := (congrArg State.cores hframe :)
  have hstill (j : Nat) (hj : j < 8) : (v.podCheck x b).trnOn j x = false := by
    have hregs : v.regs = s.regs := hvregs.trans (State.modCore_regs ..)
    rw [State.trnOn_congr hj (s := s) (fun hq => (htold.reg hq).trans (State.reg_congr hregs ..)), hoff j hj]
  have hcores : (v.podCheck x b).cores = u.cores := by
    rw [htold.frame]
    exact hvcores
  refine ⟨v.podCheck x b, ?_, ?_, ?_, fun e he => ?_, fun halone => ?_⟩
  · have hexec : exec (.barArrival c) s = execBarArrival c s := rfl
    rw [hexec, execBarArrival]
    simp only [hctx, hwait, hclosed, if_true]
    have harrive : u.coreArrive x b c = v.podCheck x b := State.coreArrive_of_live hlive hend
    change ok ((List.finRange 8).foldl _ (u.coreArrive x b c)) = _
    rw [harrive]
    refine congrArg ok ?_
    exact State.foldl_if_none _ (fun (s : State) (j : Fin 8) => s.trnOn j x = true) (fun s j => s.trnSettle j) _
      fun j _ => by rw [hstill j j.isLt]; exact Bool.false_ne_true
  · rw [htold.arrived]
    exact u.mem_barArrived x b c
  · rw [State.core_congr hcores, State.core_modCore_same]
  · rw [State.core_congr hcores, State.core_modCore_ne _ _ he]
  · rw [State.podCheck_of_alone ((u.chips_barArrived x b c).trans halone), hvcores]
    exact hframe

end

end Sys2Proof.Machine
end

section
/-! PROOF. Pod barriers' messages, and how a barrier completes or stalls (08_streams.md R245 to R247;
12_fabric_transport.md R349, R350, R370). -/

namespace Sys2Proof.Machine

/-! ### A new windowed message -/

section
variable {m : Message} {s : State}

theorem State.windowOf_boot (s : State) (m : Message) : (s.windowOf m).2.boot = m.bootId := by
  unfold State.windowOf
  dsimp only
  split
  · split
    · assumption
    · rfl
  · rfl

/-- The window that keeps an outcome for a message new to it. -/
def Window.kept (w : Window) (n : Nat) (st : BitVec 16) : Window :=
  { w with h := n, outs := (sset none w.outs n (some st)).filter (fun e => decide (mseqBelow e.1 n < 1024)) }

theorem Window.outs_kept (w : Window) (n : Nat) (st : BitVec 16) : sget none (w.kept n st).outs n = some st := by
  have hn : mseqBelow n n < 1024 := by
    rw [mseqBelow, Nat.add_sub_cancel_left, Nat.mod_self]
    decide
  rw [Window.kept, sget_filter_of_kept _ _ fun _ => decide_eq_true hn, sget_sset_same]

/-- A state whose window of a message holds an outcome for it records that outcome. -/
theorem State.recorded_of_window {t : State} {st : BitVec 16} {w : Window}
    (hwin : sget none t.fab.windows (t.windowOf m).1 = some w) (hboot : w.boot = m.bootId)
    (houts : sget none w.outs m.mseq.toNat = some st) : t.recorded m st := by
  have hw : (t.windowOf m).2 = w := by
    unfold State.windowOf at hwin ⊢
    dsimp only at hwin ⊢
    rw [hwin]
    exact if_pos hboot
  rw [State.recorded, hw, houts]

/-- The state in which an engine takes a message new to its window. -/
def State.takes (s : State) (m : Message) : State :=
  { s with fab := { s.fab with inbox := s.fab.inbox.erase m } }.setWindow (s.windowOf m).1 (s.windowOf m).2

/-- A message new to its window is taken as `f` says, its outcome is kept, and it is acknowledged. -/
theorem State.windowedE_of_new {f : State → State} {st : BitVec 16} (hnew : s.newTo m = true) (hmc : m.mc = false)
    (hf : (f (s.takes m)).eps = s.eps) :
    ∃ t, s.windowedE m (fun s => .accept st (f s)) = t ∧ t.recorded m st ∧
      ∃ w, ((f (s.takes m)).setWindow (s.windowOf m).1 w).Launched t := by
  have hnew' := hnew
  unfold State.newTo at hnew'
  simp only [Bool.and_eq_true, Bool.or_eq_true, beq_iff_eq, Bool.not_eq_true'] at hnew'
  obtain ⟨⟨⟨hon, habort⟩, hheld⟩, hfresh⟩ := hnew'
  let w := ((s.windowOf m).2).kept m.mseq.toNat st
  let u := (f (s.takes m)).setWindow (s.windowOf m).1 w
  let t := (u.inc pFAB 0xF08).tackTo m st
  have hwindowed : s.windowed m (fun s => .accept st (f s)) = t := by
    have hon' : bit (({ s with fab := { s.fab with inbox := s.fab.inbox.erase m } } : State).reg pFAB 0x800) 0 = true := hon
    have hwin : ({ s with fab := { s.fab with inbox := s.fab.inbox.erase m } } : State).windowOf m = s.windowOf m := rfl
    unfold State.windowed
    simp only [habort, hon', hwin, hfresh, hmc, Bool.not_true, Bool.false_eq_true, or_self, if_false, if_true, not_true_eq_false,
      false_and]
    rfl
  have hlaunched : u.Launched t := (u.launched_count (by decide)).trans (State.launched_tackTo ..)
  have heps : t.eps = s.eps := by
    rw [hlaunched.frame]
    exact hf
  refine ⟨t, ?_, ?_, w, hlaunched⟩
  · unfold State.windowedE
    simp only [hwindowed, heps, List.isEmpty_iff.1 hheld, List.length_nil, State.epsRelease]
  · have hkey : (t.windowOf m).1 = (s.windowOf m).1 := rfl
    refine State.recorded_of_window (w := w) ?_ (s.windowOf_boot m) (Window.outs_kept ..)
    have hwindows : t.fab.windows = u.fab.windows := by rw [hlaunched.fab]
    rw [hkey, hwindows]
    exact sget_sset_same none (f (s.takes m)).fab.windows (s.windowOf m).1 (some w)

theorem barArrive_gives (hnew : s.newTo m = true) (hmc : m.mc = false) :
    let gid := hdr m 0x24 2
    let b := hdr m 0x28 4 % 64
    Gives (.barArrive m) s fun t =>
      t.recorded m stOK ∧
      (((s.podChips gid).all (fun c => (s.pod gid b).arrived.contains c || c == m.src) = false ∨ s.podChips gid = []) →
        m.src ∈ (t.pod gid b).arrived ∧ ∀ c ∈ (s.pod gid b).arrived, c ∈ (t.pod gid b).arrived) ∧
      ((s.podChips gid).all (fun c => (s.pod gid b).arrived.contains c || c == m.src) = true → s.podChips gid ≠ [] →
        (t.pod gid b).arrived = []) := by
  intro gid b
  have htold := (s.takes m).podTold_podArrive gid b m.src
  have heps : ((s.takes m).podArrive gid b m.src).eps = s.eps := by
    rw [htold.frame]
    rfl
  obtain ⟨t, hexec, hrec, w, hlaunched⟩ :=
    State.windowedE_of_new (f := fun s => s.podArrive gid b m.src) (st := stOK) hnew hmc heps
  have hpod : t.pod gid b = ((s.takes m).podArrive gid b m.src).pod gid b := by
    rw [State.pod, hlaunched.fab]
    rfl
  refine ⟨t, congrArg ok hexec, hrec, fun hnot => ?_, fun hall hne => ?_⟩
  · rw [hpod]
    exact (s.takes m).pod_podArrive gid b m.src hnot
  · rw [hpod]
    exact (s.takes m).pod_podArrive_last gid b m.src hall hne

/-- A release reaches a barrier: it counts where this chip's arrival has been sent and the barrier is under way. -/
def Barrier.release (k : Barrier) : Barrier := { k with released := k.sent && k.ended.isNone }

theorem barRelease_gives {x : CtxId} (hnew : s.newTo m = true) (hmc : m.mc = false)
    (hpod : s.podCtx (hdr m 0x24 2) (hdr m 0x28 4 % 64) = some x)
    (hsent : (s.bar x (hdr m 0x28 4 % 64)).sent = true) (hend : (s.bar x (hdr m 0x28 4 % 64)).ended = none) :
    let b := hdr m 0x28 4 % 64
    Gives (.barRelease m) s fun t =>
      t.recorded m stOK ∧ t.bar x b = { s.bar x b with released := true } ∧ t.cores = s.cores := by
  intro b
  have hpod' : (s.takes m).podCtx (hdr m 0x24 2) b = some x := hpod
  have hrel : (s.takes m).podReleased (hdr m 0x24 2) b =
      (s.takes m).modBar x b Barrier.release := by
    rw [State.podReleased, hpod']
    rfl
  obtain ⟨t, hexec, hrec, w, hlaunched⟩ :=
    State.windowedE_of_new (f := fun s => s.podReleased (hdr m 0x24 2) b) (st := stOK) hnew hmc (by rw [hrel]; rfl)
  rw [hrel] at hlaunched
  have hcounts : ((s.bar x b).sent && (s.bar x b).ended.isNone) = true := by
    rw [hsent, hend]
    rfl
  refine ⟨t, congrArg ok hexec, hrec, ?_, ?_⟩
  · have hctxs : t.ctxs = ((s.takes m).modBar x b Barrier.release).ctxs := (congrArg State.ctxs hlaunched.frame :)
    rw [State.bar_congr hctxs]
    exact (State.bar_modBar_same ..).trans (congrArg (fun r => { s.bar x b with released := r }) hcounts)
  · rw [hlaunched.frame]
    rfl

end

/-! ### A barrier's status reaches its cores -/

/-- The status of a barrier reaches a thread that waits for it. -/
def Thread.told (t : Thread) (b : Nat) (st : BitVec 16) : Thread :=
  match t.wait with
  | some (.bar sd q true none) => if q.val = b then { t with wait := some (.bar sd q true (some st)) } else t
  | _ => t

/-- Threads of a context have been told the status of a barrier, those that run and those that are saved. -/
structure State.Told (s : State) (x : CtxId) (t : State) : Prop where
  frame : t = { s with cores := t.cores, ctxs := t.ctxs }
  place (y : Nat) : t.ctx y = { s.ctx y with saves := (t.ctx y).saves }

section
variable {s t u : State} {x : CtxId}

theorem State.Told.refl (s : State) (x : CtxId) : s.Told x s := ⟨rfl, fun _ => rfl⟩

theorem State.Told.trans (h : s.Told x t) (h' : t.Told x u) : s.Told x u where
  frame := h'.frame.trans (congrArg (fun v : State => { v with cores := u.cores, ctxs := u.ctxs }) h.frame)
  place y := (h'.place y).trans (congrArg (fun g : Ctx => { g with saves := (u.ctx y).saves }) (h.place y))

theorem State.told_modThread (s : State) (c : CoreId) (x : CtxId) (f : Thread → Thread) : s.Told x (s.modThread c x f) := by
  unfold State.modThread
  split
  · exact ⟨rfl, fun _ => rfl⟩
  · refine ⟨rfl, fun y => ?_⟩
    by_cases hy : y = x.val
    · rw [hy, State.ctx_modCtx_same]
    · rw [State.ctx_modCtx_ne _ _ hy]

theorem State.Told.bar (h : s.Told x t) (y b : Nat) : t.bar y b = s.bar y b := by
  rw [State.bar, h.place]
  rfl

theorem State.barTell_eq (s : State) (x : CtxId) (b : Nat) (st : BitVec 16) (c : CoreId) :
    s.barTell x b st c = s.modThread c x (fun t => t.told b st) := rfl

/-- What the cores of a list have once they have been told, those that run the context at least. -/
theorem State.told_barTells (l : List CoreId) (b : Nat) (st : BitVec 16) (s : State) (x : CtxId) :
    s.Told x (l.foldl (fun s c => s.barTell x b st c) s) :=
  List.foldlRecOn (motive := s.Told x) l _ (.refl s x) fun t h c _ => h.trans (t.told_modThread c x _)

/-- A core that waits for a barrier, told its status. -/
def Core.told (k : Core) (b : Nat) (st : BitVec 16) : Core := { k with th := k.th.told b st }

theorem Thread.told_of_answered {t : Thread} {sd : Fin 32} {q : Fin 64} {at_ : Bool} {st' : BitVec 16}
    (h : t.wait = some (.bar sd q at_ (some st'))) (b : Nat) (st : BitVec 16) : t.told b st = t := by
  rw [Thread.told, h]
  cases at_ <;> rfl

theorem Thread.told_cases (t : Thread) (b : Nat) (st : BitVec 16) :
    t.told b st = t ∨ ∃ sd q, (t.told b st).wait = some (.bar sd q true (some st)) := by
  unfold Thread.told
  split
  · next sd q _ =>
    by_cases hq : q.val = b
    · exact Or.inr ⟨sd, q, by rw [if_pos hq]⟩
    · exact Or.inl (if_neg hq)
  · exact Or.inl rfl

theorem Thread.told_told (t : Thread) (b : Nat) (st : BitVec 16) : (t.told b st).told b st = t.told b st := by
  obtain h | ⟨sd, q, h⟩ := t.told_cases b st
  · rw [h, h]
  · exact Thread.told_of_answered h b st

theorem State.core_barTell (s : State) {x : CtxId} {c e : CoreId} (hctx : (s.core e).ctx = some x) (b : Nat)
    (st : BitVec 16) :
    (s.barTell x b st c).core e = if e = c then (s.core e).told b st else s.core e := by
  rw [State.barTell_eq, State.modThread]
  split
  · rw [State.core_modCore]
    by_cases h : e = c
    · subst h
      rw [if_pos rfl, if_pos rfl]
      rfl
    · rw [if_neg h, if_neg (fun hv => h (Fin.ext hv))]
  · next hnot =>
    have h : e ≠ c := by
      rintro rfl
      exact hnot hctx
    rw [if_neg h, State.core_congr (State.modCtx_cores ..)]

theorem State.core_barTells {x : CtxId} {e : CoreId} (b : Nat) (st : BitVec 16) (l : List CoreId) (s : State)
    (hctx : (s.core e).ctx = some x) :
    (l.foldl (fun s c => s.barTell x b st c) s).core e = if e ∈ l then (s.core e).told b st else s.core e := by
  induction l generalizing s with
  | nil => rfl
  | cons c l ih =>
    have hstep := s.core_barTell hctx b st (c := c)
    rw [List.foldl_cons, ih _ (by rw [hstep]; split <;> exact hctx), hstep]
    by_cases hc : e = c
    · rw [if_pos hc, if_pos (List.mem_cons.2 (Or.inl hc))]
      split
      · exact congrArg (fun t : Thread => { s.core e with th := t }) (Thread.told_told ..)
      · rfl
    · rw [if_neg hc]
      exact if_congr (by rw [List.mem_cons, or_iff_right hc]) rfl rfl

end

/-! ### A barrier of this chip completes -/

section
variable {s : State} {x : CtxId} {b : Fin 64} {c : CoreId}

/-- Which engines take part in a barrier is in their registers. -/
theorem State.barEngines_congr {s t : State} (h : t.regs = s.regs) (x b : Nat) : t.barEngines x b = s.barEngines x b := by
  cases s
  cases t
  cases h
  rfl

theorem State.isStepBar_of_no_engines (h : s.barEngines x b = []) : s.isStepBar x b = false := by
  unfold State.barEngines at h
  rw [List.append_eq_nil_iff, List.append_eq_nil_iff] at h
  obtain ⟨⟨hstep, -⟩, -⟩ := h
  rw [Bool.eq_false_iff]
  intro hstep'
  rw [if_pos hstep'] at hstep
  cases hstep

theorem State.anlBar_of_no_engines (h : s.barEngines x b = []) (a : Fin 32) :
    ¬(s.anlOn a x = true ∧ bit (s.anlBar a) 14 = true ∧ fld (s.anlBar a) 8 6 = b) := by
  unfold State.barEngines at h
  rw [List.append_eq_nil_iff, List.append_eq_nil_iff] at h
  obtain ⟨-, hanl⟩ := h
  rintro ⟨hon, hbar, hnum⟩
  have hnot := List.filter_eq_nil_iff.1 (List.map_eq_nil_iff.1 hanl) a (List.mem_finRange a)
  rw [hon, hbar, hnum] at hnot
  simp at hnot

/-- With no engine taking part, what the engines tie to a completed barrier changes the annealer's channels alone. -/
theorem State.barHooks_of_no_engines (hnone : s.barEngines x b = []) (hoff : ∀ j, j < 8 → s.trnOn j x = false) :
    s.barHooks x b = { s with anl := (s.barHooks x b).anl } := by
  have hjobs (f : State → Fin 8 → State) :
      (List.finRange 8).foldl (fun (s : State) (j : Fin 8) => if !s.trnOn j x then s else f s j) s = s :=
    List.foldlRecOn (motive := fun t => t = s) _ _ rfl fun t ht j _ => by
      rw [ht, hoff j j.isLt]
      rfl
  let trigs := (List.finRange 32).foldl (fun (s : State) (c : Fin 32) =>
    if s.anlOn c x ∧ bit (s.anlBar c) 6 ∧ fld (s.anlBar c) 0 6 = b then s.modAnl c (fun a => { a with trig := a.trig + 1 })
    else s) s
  have htrigs : trigs = { s with anl := trigs.anl } :=
    List.foldlRecOn (motive := fun t : State => t = { s with anl := t.anl }) _ _ rfl fun t ht a _ => by
      split
      · exact congrArg (fun v : State => { v with anl := (t.modAnl a (fun a => { a with trig := a.trig + 1 })).anl }) ht
      · exact ht
  have howed : trigs.anlOwed x b = trigs := by
    have hnone' : trigs.barEngines x b = [] := by
      rw [htrigs]
      exact hnone
    exact State.foldl_if_none _ _ _ _ fun a _ h => State.anlBar_of_no_engines hnone' a h.2
  have hhooks : s.barHooks x b = trigs := by
    unfold State.barHooks
    simp only [State.isStepBar_of_no_engines hnone, Bool.false_eq_true, if_false, hjobs]
    exact howed
  rw [hhooks]
  exact htrigs

/-- The cores that have arrived are told a status, and the barrier begins anew. -/
def State.barEnded (s : State) (x : CtxId) (b : Nat) (st : BitVec 16) : State :=
  ((s.bar x b).arrived.foldl (fun s c => s.barTell x b st c) s).modBar x b Barrier.fresh

theorem State.barDone_of_no_engines (hend : (s.bar x b).ended = none) (hlive : (s.bar x b).aborted = false)
    (halone : (s.bar x b).chips = 0) (hwhole : s.barWhole x b = true) (hnone : s.barEngines x b = [])
    (hoff : ∀ j, j < 8 → s.trnOn j x = false) :
    s.barDone x b = { s.barEnded x b stOK with anl := (s.barDone x b).anl } := by
  have htold := State.told_barTells (s.bar x b).arrived b stOK s x
  have hregs : (s.barEnded x b stOK).regs = s.regs := by
    rw [State.barEnded, State.modBar, State.modCtx_regs, htold.frame]
  have hnone' : (s.barEnded x b stOK).barEngines x b = [] := (State.barEngines_congr hregs x b).trans hnone
  have hoff' (j : Nat) (hj : j < 8) : (s.barEnded x b stOK).trnOn j x = false :=
    (State.trnOn_congr hj (fun _ => State.reg_congr hregs ..) x).trans (hoff j hj)
  have hdone : s.barDone x b = (s.barEnded x b stOK).barHooks x b := by
    unfold State.barDone
    simp only [hend, hlive, halone, hwhole, Option.isSome_none, Bool.false_eq_true, if_true, Bool.not_true, or_self,
      if_false, ne_eq, not_true_eq_false, false_and]
    rfl
  rw [hdone]
  exact State.barHooks_of_no_engines hnone' hoff'

/-- A barrier that has completed leaves its context running, and a core that waits for it with OK. -/
theorem State.barDone_leaves {sd : Fin 32} (hin : c ∈ (s.bar x b).arrived) (hctx : (s.core c).ctx = some x)
    (hwait : (s.core c).th.wait = some (.bar sd b true none)) {v : State}
    (hdone : v = { s.barEnded x b stOK with anl := v.anl }) :
    v.core c = { s.core c with th := { (s.core c).th with wait := some (.bar sd b true (some stOK)) } } ∧
      v.bar x b = (s.bar x b).fresh ∧ v.regs = s.regs ∧ v.waitLive c = s.waitLive c := by
  have htold := State.told_barTells (s.bar x b).arrived b stOK s x
  have hcore := State.core_barTells b stOK (s.bar x b).arrived s hctx
  rw [if_pos hin] at hcore
  have hbar : (s.barEnded x b stOK).bar x b = (s.bar x b).fresh := by
    rw [State.barEnded, State.bar_modBar_same, htold.bar]
  have hstate : ((s.barEnded x b stOK).ctx x).state = (s.ctx x).state := by
    rw [State.barEnded, State.modBar, State.ctx_modCtx_same, htold.place]
  have hregs : (s.barEnded x b stOK).regs = s.regs := (congrArg State.regs htold.frame :)
  have hpw : (s.barEnded x b stOK).pw = s.pw := (congrArg State.pw htold.frame :)
  have hvcores : v.cores = (s.barEnded x b stOK).cores := (congrArg State.cores hdone :)
  have hvctxs : v.ctxs = (s.barEnded x b stOK).ctxs := (congrArg State.ctxs hdone :)
  have hvregs : v.regs = (s.barEnded x b stOK).regs := (congrArg State.regs hdone :)
  have hvpw : v.pw = (s.barEnded x b stOK).pw := (congrArg State.pw hdone :)
  have hvcore : v.core c = { s.core c with th := { (s.core c).th with wait := some (.bar sd b true (some stOK)) } } := by
    rw [State.core_congr hvcores, State.barEnded, State.modBar, State.core_congr (State.modCtx_cores ..), hcore, Core.told,
      Thread.told, hwait]
    simp only [if_true]
  have hvstate : (v.ctx x).state = (s.ctx x).state := by rw [State.ctx_congr hvctxs, hstate]
  have hvdom : v.domOn (dCore c) = s.domOn (dCore c) := by
    rw [State.domOn, State.dom, hvpw, hpw]
    rfl
  refine ⟨hvcore, (State.bar_congr hvctxs ..).trans hbar, hvregs.trans hregs, ?_⟩
  rw [State.waitLive, State.waitLive, hvcore]
  simp only [hctx, hvstate, hvdom]

/-- A core whose BAR has its status goes on. -/
theorem State.barWake_gives {n : Nat} {sd : Fin 32} {st : BitVec 16} (hctx : (s.core c).ctx = some x)
    (hwait : (s.core c).th.wait = some (.bar sd b true (some st))) (hlive : s.waitLive c = true) :
    let t := s.barWake c x b n
    (t.core c).th = (s.core c).woken n [(0, .sreg sd (st.setWidth 64) false)] ∧ t.ctxs = s.ctxs ∧
      t.reg64 (pCORE c) 0xFD8 = s.reg64 (pCORE c) 0xFD8 + 1 := by
  have hwake : s.barWake c x b n =
      ((s.endWait c n [(1, .sreg sd (st.setWidth 64) false)]).inc (pCORE c) 0xFD0 n).inc (pCORE c) 0xFD8 := by
    rw [State.barWake, hwait]
    simp only [hctx, hlive, and_self, if_true]
  have hwoken := s.woken_endWait c n [(1, .sreg sd (st.setWidth 64) false)]
  have hctxs : (s.endWait c n [(1, .sreg sd (st.setWidth 64) false)]).ctxs = s.ctxs := by rw [hwoken.frame]
  intro t
  rw [show t = _ from hwake]
  refine ⟨?_, ?_, ?_⟩
  · rw [State.core_congr (State.inc_cores ..), State.core_congr (State.inc_cores ..)]
    exact hwoken.thread
  · rw [State.inc_ctxs, State.inc_ctxs, hctxs]
  · refine (State.reg64_inc_same ..).trans ?_
    rw [State.reg64_inc_ne _ _ (by omega), State.reg64, hwoken.reg (by omega), hwoken.reg (by omega)]
    rfl

theorem barComplete_gives {n : Nat} {sd : Fin 32} (hend : (s.bar x b).ended = none)
    (hlive : (s.bar x b).aborted = false) (halone : (s.bar x b).chips = 0) (hwhole : s.barWhole x b = true)
    (hnone : s.barEngines x b = []) (hoff : ∀ j, j < 8 → s.trnOn j x = false) (hin : c ∈ (s.bar x b).arrived)
    (hctx : (s.core c).ctx = some x) (hwait : (s.core c).th.wait = some (.bar sd b true none))
    (hwaits : s.waitLive c = true) :
    Gives (.barComplete x b [(c, n)]) s fun t =>
      (t.core c).th = (s.core c).woken n [(0, .sreg sd 0 false)] ∧ (t.bar x b).arrived = [] ∧
      (t.bar x b).cores = (s.bar x b).cores ∧ t.reg64 (pCORE c) 0xFD8 = s.reg64 (pCORE c) 0xFD8 + 1 := by
  have hexec : exec (.barComplete x b [(c, n)]) s = ok ((s.barDone x b).barWake c x b n) := rfl
  obtain ⟨hcore, hbar, hregs, hlives⟩ := State.barDone_leaves hin hctx hwait
    (State.barDone_of_no_engines hend hlive halone hwhole hnone hoff)
  generalize s.barDone x b = v at hexec hcore hbar hregs hlives
  obtain ⟨hthread, hctxs, hcount⟩ := State.barWake_gives (s := v) (x := x) (b := b) (n := n) (by rw [hcore]; exact hctx)
    (by rw [hcore]) (hlives.trans hwaits)
  refine ⟨_, hexec, ?_, ?_, ?_, ?_⟩
  · rw [hthread, hcore]
    rfl
  · rw [State.bar_congr hctxs, hbar]
    rfl
  · rw [State.bar_congr hctxs, hbar]
    rfl
  · rw [hcount, State.reg64_congr hregs]

end

/-! ### A barrier stalls -/

section
variable {s : State} {x : CtxId} {b : Fin 64} {c : CoreId}

theorem State.engAgain_frame (s : State) (x : CtxId) (b : Nat) :
    s.engAgain x b = { s with eps := (s.engAgain x b).eps, trn := (s.engAgain x b).trn } := by
  refine List.foldlRecOn (motive := fun t : State => t = { s with eps := t.eps, trn := t.trn }) _ _ ?_ fun t ht j _ => ?_
  · split <;> rfl
  · split
    · exact congrArg (fun v : State => { v with trn := smod {} t.trn j (fun t => { t with arrived := false }) }) ht
    · exact ht

theorem State.barTurn_frame (s : State) (x b : Nat) : s.barTurn x b = { s with ctxs := (s.barTurn x b).ctxs } := by
  unfold State.barTurn
  dsimp only
  split <;> rfl

/-- A barrier that ends early has told the cores that have arrived, and writes no register. -/
theorem State.barEnd_keeps (s : State) (x : CtxId) (b : Nat) (st : BitVec 16) :
    (s.barEnd x b st).regs = s.regs ∧
      (s.barEnd x b st).cores = ((s.bar x b).arrived.foldl (fun s c => s.barTell x b st c) s).cores := by
  have htold := State.told_barTells (s.bar x b).arrived b st s x
  unfold State.barEnd
  dsimp only
  rw [State.barTurn_frame, State.engAgain_frame]
  exact ⟨(congrArg State.regs htold.frame :), rfl⟩

/-- A stall is recorded and logged, and the cores that wait learn it. -/
theorem State.barStalled_gives {sd : Fin 32} (hin : c ∈ (s.bar x b).arrived) (hctx : (s.core c).ctx = some x)
    (hwait : (s.core c).th.wait = some (.bar sd b true none)) (chip core : Nat) :
    let t := s.barStalled x b chip core
    (t.core c).th.wait = some (.bar sd b true (some stSTALLED)) ∧
      t.reg pFAB 0x808 = BitVec.ofNat 32 (chip + core * 2 ^ 12 + 2 ^ 31) ∧
      t.reg64 pFAB 0xF70 = s.reg64 pFAB 0xF70 + 1 ∧ t.reg64 pERR 0xF08 = s.reg64 pERR 0xF08 + 1 := by
  intro t
  have ht : t = s.barStalled x b chip core := rfl
  clear_value t
  unfold State.barStalled at ht
  generalize BitVec.ofNat 32 (chip + core * 2 ^ 12 + 2 ^ 31) = v at ht ⊢
  generalize chip + core * 2 ^ 12 = info at ht
  dsimp only at ht
  generalize hu : (s.setReg pFAB 0x808 v).inc pFAB 0xF70 = u at ht
  have hucores : u.cores = s.cores := by rw [← hu, State.inc_cores, State.setReg_cores]
  have huctxs : u.ctxs = s.ctxs := by rw [← hu, State.inc_ctxs, State.setReg_ctxs]
  have hstored : u.reg pFAB 0x808 = v := by
    rw [← hu, State.reg_inc_of_apart _ _ (by decide), State.reg_setReg_same]
  have hcount : u.reg64 pFAB 0xF70 = s.reg64 pFAB 0xF70 + 1 := by
    rw [← hu]
    refine (State.reg64_inc_same ..).trans ?_
    rw [State.reg64, State.reg_setReg_ne _ _ (by decide), State.reg_setReg_ne _ _ (by decide)]
    rfl
  have herrors : u.reg64 pERR 0xF08 = s.reg64 pERR 0xF08 := by
    rw [← hu, State.reg64_inc_ne _ _ (by decide), State.reg64, State.reg_setReg_ne _ _ (by decide),
      State.reg_setReg_ne _ _ (by decide)]
    rfl
  have hdetected := u.reg64_detect_contained stSTALLED 0x0D 0 (some x) info
  have hpage (k : Nat) := u.reg_detect_of_page cCONTAINED stSTALLED 0x0D 0 (some x) info (q := pFAB) (k := k) (by decide)
  have hwcores := u.detect_cores cCONTAINED stSTALLED 0x0D 0 (some x) info
  have hwctxs := u.detect_ctxs cCONTAINED stSTALLED 0x0D 0 (some x) info
  generalize u.detect cCONTAINED stSTALLED 0x0D 0 (some x) info = w at *
  obtain ⟨hregs, hcores⟩ := w.barEnd_keeps x b stSTALLED
  have hwcore : w.core c = s.core c := State.core_congr (hwcores.trans hucores) c
  have hwbar : w.bar x b = s.bar x b := State.bar_congr (hwctxs.trans huctxs) x b
  rw [ht]
  refine ⟨?_, ?_, ?_, ?_⟩
  · rw [State.core_congr hcores, hwbar, State.core_barTells _ _ _ _ (hwcore ▸ hctx), if_pos hin, hwcore, Core.told,
      Thread.told, hwait]
    simp only [if_true]
  · rw [State.reg_congr hregs, hpage, hstored]
  · rw [State.reg64_congr hregs, State.reg64, hpage, hpage, ← hcount]
    rfl
  · rw [State.reg64_congr hregs, hdetected, herrors]

theorem barrierStall_gives {sd : Fin 32} (hend : (s.bar x b).ended = none) (halone : (s.bar x b).chips = 0)
    (hover : s.wdogOver (s.bar x b).first = true) (hwhole : s.barWhole x b = false) (hin : c ∈ (s.bar x b).arrived)
    (hctx : (s.core c).ctx = some x) (hwait : (s.core c).th.wait = some (.bar sd b true none)) :
    Gives (.barrierStall x b) s fun t =>
      (t.core c).th.wait = some (.bar sd b true (some stSTALLED)) ∧ fld (t.reg pFAB 0x808) 0 12 = s.myAddr % 4096 ∧
      t.reg64 pFAB 0xF70 = s.reg64 pFAB 0xF70 + 1 ∧ t.reg64 pERR 0xF08 = s.reg64 pERR 0xF08 + 1 := by
  obtain ⟨htold, hrecord, hcounts⟩ := State.barStalled_gives hin hctx hwait s.myAddr (s.lateCore x b)
  refine ⟨s.barStalled x b s.myAddr (s.lateCore x b), ?_, htold, ?_, hcounts⟩
  · have hexec : exec (.barrierStall x b) s = execBarrierStall x b s := rfl
    rw [hexec, execBarrierStall]
    simp only [halone, hend, hover, hwhole, Option.isNone_none, Bool.not_false, and_self, if_true]
  · rw [hrecord]
    simp only [fld, BitVec.toNat_ofNat]
    omega

end

/-- Settles O32: arrivals and releases by what messages leave (`State.PodTold`), completion and stall by what the cores are
told (`State.core_barTells`), and the pod messages by the window that takes them (`State.windowedE_of_new`). -/
theorem barriers : Obligations.Barriers := by
  unfold Obligations.Barriers
  refine ⟨fun _ _ _ _ _ hctx hwait hclosed hlive hend hoff => barArrival_gives hctx hwait hclosed hlive hend hoff,
    fun _ _ _ _ _ _ hend hlive halone hwhole hnone hoff hin hctx hwait hwaits =>
      barComplete_gives hend hlive halone hwhole hnone hoff hin hctx hwait hwaits,
    fun _ _ _ _ _ hend halone hover hwhole hin hctx hwait =>
      barrierStall_gives hend halone hover hwhole hin hctx hwait,
    fun x b s hover => ⟨s, ?_, rfl⟩,
    fun _ _ hnew hmc => barArrive_gives hnew hmc,
    fun _ _ _ hnew hmc hpod hsent hend => barRelease_gives hnew hmc hpod hsent hend⟩
  have hexec : exec (.barrierStall x b) s = execBarrierStall x b s := rfl
  rw [hexec, execBarrierStall]
  simp only [hover, Bool.false_eq_true, false_and, and_false, if_false]

end Sys2Proof.Machine
end

section
/-! PROOF. What blocks' accesses to memory and to records leave, whatever their hint, and what a completion leaves
(09_stacked_memory.md R271 to R274; 10_tiers_quotas.md; 22_host_interface.md R603 to R605). -/

namespace Sys2Proof.Machine

/-! ### Accesses with any hint -/

/-- An access with clean codes has been made: beside what an access changes, the AON time stands. -/
structure State.Fetched (s t : State) : Prop where
  accessed : s.Accessed t
  time : t.pw.aonTime = s.pw.aonTime

section
variable {s t u : State}

theorem State.Fetched.refl (s : State) : s.Fetched s := ⟨.refl s, rfl⟩

theorem State.Fetched.trans (h : s.Fetched t) (h' : t.Fetched u) : s.Fetched u :=
  ⟨h.accessed.trans h'.accessed, h'.time.trans h.time⟩

theorem State.Fetched.ctxs (h : s.Fetched t) : t.ctxs = s.ctxs := by rw [h.accessed.frame]
theorem State.Fetched.cores (h : s.Fetched t) : t.cores = s.cores := by rw [h.accessed.frame]
theorem State.Fetched.ques (h : s.Fetched t) : t.ques = s.ques := by rw [h.accessed.frame]
theorem State.Fetched.chk (h : s.Fetched t) : t.chk = s.chk := h.accessed.chk

theorem State.fetched_mem (s : State) (m : Mem) : s.Fetched { s with mem := m } := ⟨s.accessed_mem m, rfl⟩

theorem State.fetched_usedFree (s : State) : s.Fetched s.usedFree := ⟨s.accessed_usedFree, rfl⟩

/-- Counting on a page of the memories. -/
theorem State.fetched_inc (s : State) {p o : Nat} (n : Nat) (hp : 0xD0 ≤ p) (ho : 0xF00 ≤ o) (ho' : o + 4 < 0x1000) :
    s.Fetched (s.inc p o n) := ⟨s.accessed_inc n (.inl hp) ho ho', rfl⟩

theorem State.fetched_mem_inc (s : State) (k : Nat) {o : Nat} (n : Nat) (ho : 0xF00 ≤ o) (ho' : o + 4 < 0x1000) :
    s.Fetched (s.inc (pMEM k) o n) := s.fetched_inc n (Nat.le_add_right ..) ho ho'

theorem State.fetched_hcc_inc (s : State) (sl : Nat) {o : Nat} (n : Nat) (ho : 0xF00 ≤ o) (ho' : o + 4 < 0x1000) :
    s.Fetched (s.inc (pHCC sl) o n) := s.fetched_inc n (by simp only [pHCC]; omega) ho ho'

theorem State.aonTime_wakeOne (s : State) (d : Nat) : (s.wakeOne d).pw.aonTime = s.pw.aonTime := by
  unfold State.wakeOne
  dsimp only
  repeat' split
  all_goals rfl

theorem State.fetched_wakeDom (s : State) (d : Nat) : s.Fetched (s.wakeDom d) := by
  refine ⟨s.accessed_wakeDom d, ?_⟩
  unfold State.wakeDom
  split
  · rfl
  · exact foldl_keeps (fun s => s.pw.aonTime) State.wakeOne State.aonTime_wakeOne _ s

theorem State.fetched_wakeFor (s : State) (pa : Nat) : s.Fetched (s.wakeFor pa) := by
  unfold State.wakeFor
  dsimp only
  split
  · exact .refl s
  · exact s.fetched_wakeDom _

theorem State.fetched_wakeSet (s : State) (n : Nat) : s.Fetched (s.wakeSet n) :=
  List.foldlRecOn (motive := s.Fetched) _ _ (.refl s) fun t h d _ => h.trans (t.fetched_wakeDom d)

theorem State.fetched_writeBack (s : State) (line : Nat) (bs : List Byte) (p : Bool) :
    s.Fetched (s.writeBack line bs p) := ⟨s.accessed_writeBack line bs p, rfl⟩

theorem State.fetched_fetchLine (s : State) (line src : Nat) : s.Fetched (s.fetchLine line .clean src).2.2 := by
  refine ⟨(s.fetchLine_clean line src).2.2, ?_⟩
  unfold State.fetchLine
  dsimp only
  split <;> rfl

theorem State.fetched_evict (s : State) (sl set w : Nat) : s.Fetched (s.evict sl set w) := by
  refine ⟨s.accessed_evict sl set w, ?_⟩
  unfold State.evict
  split
  · split <;> rfl
  · rfl

theorem State.fetched_allocate {line part : Nat} {bs : List Byte} {d k p : Bool}
    (h : s.allocate line part bs d k p = some t) : s.Fetched t := by
  obtain ⟨w, u, l, hvictim, -, -, -, rfl⟩ := State.allocate_some h
  have hu : s.Fetched u := by
    have hstate := s.victim_state (sliceSet s.grouped (64 * line)).1 (sliceSet s.grouped (64 * line)).2
      (s.wayMask (sliceSet s.grouped (64 * line)).1 part)
    rw [hvictim] at hstate
    obtain rfl | rfl := hstate
    · exact .refl _
    · exact s.fetched_usedFree
  exact (hu.trans (u.fetched_evict ..)).trans (State.fetched_mem _ _)

theorem State.fetched_effHint (s : State) (sl : Nat) (h : Hint) (write mayWrite : Bool) :
    s.Fetched (s.effHint sl h write mayWrite).2 := by
  unfold State.effHint
  split
  · exact s.fetched_hcc_inc sl 1 (by decide) (by decide)
  · exact .refl s

theorem State.fetched_touch (s : State) (sl set w : Nat) (l : HccLine) (keep : Bool) :
    s.Fetched (s.touch sl set w l keep) := ⟨s.accessed_touch sl set w l keep, rfl⟩

theorem State.fetched_setWay (s : State) (sl set w : Nat) (l : Option HccLine) : s.Fetched (s.setWay sl set w l) :=
  s.fetched_mem _

theorem State.fetched_allocated (h : s.Fetched t) (line part : Nat) (bs : List Byte) (d k p : Bool) :
    s.Fetched (match t.allocate line part bs d k p with | some u => u | none => t) := by
  split
  · next hu => exact h.trans (State.fetched_allocate hu)
  · exact h

theorem State.fetched_lineRead (s : State) (line : Nat) (hint : Hint) (part : Nat) (mayWrite : Bool) :
    s.Fetched (s.lineRead line hint part mayWrite .clean .clean).2.2 := by
  have hstart (sl : Nat) : s.Fetched ((s.heatUp sl line).effHint sl hint false mayWrite).2 :=
    (s.fetched_mem _).trans (State.fetched_effHint ..)
  unfold State.lineRead
  dsimp only
  generalize (sliceSet s.grouped (64 * line)).1 = sl, (sliceSet s.grouped (64 * line)).2 = set
  have hu := hstart sl
  generalize (s.heatUp sl line).effHint sl hint false mayWrite = e at hu ⊢
  cases hfind : e.2.findWay sl set line with
  | some p =>
    obtain ⟨w, l⟩ := p
    simp only [State.hccCheck]
    have hhit := hu.trans (e.2.fetched_hcc_inc sl (o := 0xF00) 1 (by decide) (by decide))
    split
    · exact hhit.trans (State.fetched_touch ..)
    · exact hhit
    · exact hhit.trans (State.fetched_touch ..)
    · refine State.Fetched.trans ?_ (State.fetched_setWay ..)
      split
      · exact hhit.trans (State.fetched_hcc_inc _ sl 1 (by decide) (by decide))
      · exact hhit
  | none =>
    have hmiss := (hu.trans (e.2.fetched_hcc_inc sl (o := 0xF08) 1 (by decide) (by decide))).trans
      (State.fetched_fetchLine _ line 0)
    dsimp only
    split
    · exact State.fetched_allocated hmiss ..
    · exact hmiss

theorem State.fetched_lineWrite (s : State) (line lo : Nat) (bs : List Byte) (po : Bool) (hint : Hint) (part : Nat)
    (mayWrite : Bool) : s.Fetched (s.lineWrite line lo bs po hint part mayWrite .clean .clean) := by
  have hstart (sl : Nat) : s.Fetched ((s.heatUp sl line).effHint sl hint true mayWrite).2 :=
    (s.fetched_mem _).trans (State.fetched_effHint ..)
  unfold State.lineWrite
  dsimp only
  generalize (sliceSet s.grouped (64 * line)).1 = sl, (sliceSet s.grouped (64 * line)).2 = set
  have hu := hstart sl
  generalize (s.heatUp sl line).effHint sl hint true mayWrite = e at hu ⊢
  cases hfind : e.2.findWay sl set line with
  | some p =>
    obtain ⟨w, l⟩ := p
    simp only [State.hccCheck]
    have hhit := hu.trans (e.2.fetched_hcc_inc sl (o := 0xF10) 1 (by decide) (by decide))
    split
    · exact hhit.trans (State.fetched_touch ..)
    · exact hhit.trans (State.fetched_touch ..)
    · exact hhit.trans (State.fetched_setWay ..)
    · exact hhit.trans (State.fetched_setWay ..)
  | none =>
    dsimp only
    have hmiss := hu.trans (e.2.fetched_hcc_inc sl (o := 0xF18) 1 (by decide) (by decide))
    generalize e.2.inc (pHCC sl) 0xF18 = m at hmiss ⊢
    have hold : s.Fetched (if bs.length == 64 then (bs, false, m) else m.fetchLine line .clean 0).2.2 := by
      split
      · exact hmiss
      · exact hmiss.trans (State.fetched_fetchLine _ line 0)
    generalize (if bs.length == 64 then (bs, false, m) else m.fetchLine line .clean 0) = o at hold ⊢
    split
    · next halloc =>
      split at halloc
      · exact hold.trans (State.fetched_allocate halloc)
      · cases halloc
    · exact hold.trans (State.fetched_writeBack ..)

theorem State.fetched_memRd (hint : Hint) (part : Nat) (mayWrite : Bool) (fuel : Nat) (s : State) (a n : Nat) :
    s.Fetched (s.memRd hint part mayWrite fuel a n).2.2 := by
  induction fuel generalizing s a n with
  | zero => exact .refl s
  | succ fuel ih =>
    unfold State.memRd
    split
    · exact .refl s
    split
    · exact .refl s
    · exact ((s.fetched_wakeFor a).trans (State.fetched_lineRead ..)).trans (ih ..)

theorem State.fetched_memWr (hint : Hint) (part : Nat) (mayWrite po : Bool) (fuel : Nat) (s : State) (a : Nat)
    (bs : List Byte) : s.Fetched (s.memWr hint part mayWrite po fuel a bs) := by
  induction fuel generalizing s a bs with
  | zero => exact .refl s
  | succ fuel ih =>
    unfold State.memWr
    split
    · exact .refl s
    · exact ((s.fetched_wakeFor a).trans (State.fetched_lineWrite ..)).trans (ih ..)

theorem State.fetched_devRead (s : State) (part a n : Nat) : s.Fetched (s.devRead part a n).2.2 :=
  State.fetched_memRd ..

theorem State.fetched_devWrite (s : State) (part a : Nat) (bs : List Byte) (po : Bool) :
    s.Fetched (s.devWrite part a bs po) := State.fetched_memWr ..

end

/-! ### Records -/

/-- A record has been read or written. -/
structure State.Recorded (s t : State) : Prop where
  frame : t = { s with mem := t.mem, pw := t.pw, regs := t.regs, free := t.free, tier := t.tier }
  time : t.pw.aonTime = s.pw.aonTime
  reg {q k : Nat} (hq : Uncounted q k) : t.reg q k = s.reg q k

section
variable {s t u : State}

theorem State.Recorded.refl (s : State) : s.Recorded s := ⟨rfl, rfl, fun _ => rfl⟩

theorem State.Recorded.trans (h : s.Recorded t) (h' : t.Recorded u) : s.Recorded u where
  frame := h'.frame.trans (congrArg (fun v : State => { v with
    mem := u.mem, pw := u.pw, regs := u.regs, free := u.free, tier := u.tier }) h.frame)
  time := h'.time.trans h.time
  reg hq := (h'.reg hq).trans (h.reg hq)

theorem State.Fetched.recorded (h : s.Fetched t) : s.Recorded t where
  frame := h.accessed.frame.trans (congrArg (fun w => { s with
    mem := t.mem, pw := t.pw, regs := t.regs, free := t.free, tier := w }) (congrArg State.tier h.accessed.frame).symm)
  time := h.time
  reg := h.accessed.reg

theorem State.recorded_poolHit (s : State) (n : Nat) : s.Recorded (s.poolHit n) := ⟨rfl, rfl, fun _ => rfl⟩

theorem State.recorded_recRead (s : State) (rn : Nat) (bankB : Bool) (hint : Hint) (part : Nat) (mayWrite : Bool)
    (off n : Nat) : s.Recorded (s.recRead rn bankB hint part mayWrite off n).2.2 := by
  unfold State.recRead
  generalize n / 64 + 2 = fuel
  induction fuel generalizing s off n with
  | zero => exact .refl s
  | succ fuel ih =>
    unfold State.recRd
    split
    · exact .refl s
    split
    · exact .refl s
    · refine State.Recorded.trans ?_ (ih ..)
      split
      · exact s.recorded_poolHit rn
      · exact (State.fetched_memRd ..).recorded

theorem State.recorded_recWrite (s : State) (rn : Nat) (bankB : Bool) (hint : Hint) (part : Nat) (po : Bool) (off : Nat)
    (bs : List Byte) : s.Recorded (s.recWrite rn bankB hint part po off bs) := by
  unfold State.recWrite
  generalize bs.length / 64 + 2 = fuel
  induction fuel generalizing s off bs with
  | zero => exact .refl s
  | succ fuel ih =>
    unfold State.recWr
    split
    · exact .refl s
    split
    · exact .refl s
    · refine State.Recorded.trans ?_ (ih ..)
      split
      · exact State.Recorded.trans (s.fetched_mem _).recorded (State.recorded_poolHit _ rn)
      · exact (State.fetched_memWr ..).recorded

theorem State.recorded_bankFor (s : State) (x : CtxId) (r : Rec) : s.Recorded (s.bankFor x r).2 := by
  unfold State.bankFor
  split
  · exact .refl s
  dsimp only
  split
  · exact .refl s
  · exact s.fetched_usedFree.recorded

end

/-! ### Completions -/

/-- Completions have gone out: queues and their registers have changed, and interrupts may be pending. -/
structure State.Completed (s t : State) : Prop where
  frame : t = { s with regs := t.regs, out := t.out, dmaWait := t.dmaWait, msixPend := t.msixPend, ques := t.ques }
  reg {q k : Nat} (hq : 0x80 ≤ q) : t.reg q k = s.reg q k

section
variable {s t u : State}

theorem State.Completed.refl (s : State) : s.Completed s := ⟨rfl, fun _ => rfl⟩

theorem State.Completed.trans (h : s.Completed t) (h' : t.Completed u) : s.Completed u where
  frame := h'.frame.trans (congrArg (fun v : State => { v with
    regs := u.regs, out := u.out, dmaWait := u.dmaWait, msixPend := u.msixPend, ques := u.ques }) h.frame)
  reg hq := (h'.reg hq).trans (h.reg hq)

theorem State.Completed.ctxs (h : s.Completed t) : t.ctxs = s.ctxs := by rw [h.frame]
theorem State.Completed.cores (h : s.Completed t) : t.cores = s.cores := by rw [h.frame]
theorem State.Completed.chk (h : s.Completed t) : t.chk = s.chk := by rw [h.frame]

theorem State.completed_dmaOut (s : State) (o : Output) : s.Completed (s.dmaOut o) := by
  refine ⟨?_, fun _ => s.reg_dmaOut o ..⟩
  unfold State.dmaOut
  split <;> rfl

theorem State.completed_setReg (s : State) {p o : Nat} (v : Word32) (hp : p < 0x80) (ho : o < 0x1000) :
    s.Completed (s.setReg p o v) :=
  ⟨rfl, fun hq => State.reg_setReg_ne _ _ (by omega)⟩

theorem State.completed_inc (s : State) {p o : Nat} (n : Nat) (hp : p < 0x80) (ho : o < 0xFFC) :
    s.Completed (s.inc p o n) :=
  ⟨rfl, fun hq => State.reg_inc_of_apart _ _ (by omega)⟩

theorem State.completed_signalVec (s : State) (v : Byte) : s.Completed (s.signalVec v) := by
  unfold State.signalVec
  split
  · exact ⟨rfl, fun _ => rfl⟩
  · exact (s.completed_inc 1 (by decide) (by decide)).trans (State.completed_dmaOut ..)

theorem State.completed_modQue (s : State) (q : Nat) (f : Que → Que) : s.Completed (s.modQue q f) := ⟨rfl, fun _ => rfl⟩

theorem State.completed_putCompletion (s : State) (q : Fin 64) (e : QEntry) (d : QDone) (dup : Bool) :
    s.Completed (s.putCompletion q e d dup) := by
  have hq : pQUE q < 0x80 := by simp only [pQUE]; omega
  have hput (u : State) (o : Output) (v : Word32) : u.Completed
      (((u.dmaOut o).inc pHIF 0xF18 32).setReg (pQUE q) 0x808 v) :=
    ((u.completed_dmaOut o).trans (State.completed_inc _ 32 (by decide) (by decide))).trans
      (State.completed_setReg _ v hq (by decide))
  unfold State.putCompletion
  dsimp only
  split
  · exact (hput s _ _).trans (State.completed_signalVec ..)
  · exact hput s _ _

theorem State.completed_completeEntry (s : State) (q : Fin 64) (e : QEntry) (st : BitVec 16) (result : List Byte) :
    s.Completed (s.completeEntry q e st result) := by
  unfold State.completeEntry
  exact List.foldlRecOn (motive := s.Completed) _ _
    ((s.completed_modQue q _).trans (State.completed_putCompletion ..)) fun t h f _ => h.trans (State.completed_putCompletion ..)

theorem State.completed_completeRunning (s : State) (q : Fin 64) (cid : Word64) (st : BitVec 16) (result : List Byte) :
    s.Completed (s.completeRunning q cid st result) := by
  unfold State.completeRunning
  split
  · exact .refl s
  · exact (s.completed_modQue q _).trans (State.completed_completeEntry ..)

end

end Sys2Proof.Machine
end

section
/-! PROOF. The end of a program leaves where every context stands and how it is configured, whatever it does to locks,
barriers, collectives, episodes, annealer channels and learner jobs (18_sharing.md R523). -/

namespace Sys2Proof.Machine

/-! ### Where contexts stand -/

/-- The placements of the contexts and their CTX_CFG, which the end of a program reads once its effects are done. -/
def standsOf (ctxs : SMap Ctx) (regs : SMap Word32) : (Nat → List Place) × (CtxId → Word32) :=
  (fun x => (sget {} ctxs x).place, fun x => sget (regReset (pCTX x) 0x100) regs (pCTX x * 4096 + 0x100))

abbrev State.stands (s : State) : (Nat → List Place) × (CtxId → Word32) := standsOf s.ctxs s.regs

section
variable {s t : State}

theorem State.stands_of (hctx : ∀ x, (t.ctx x).place = (s.ctx x).place)
    (hreg : ∀ x : CtxId, t.reg (pCTX x) 0x100 = s.reg (pCTX x) 0x100) : t.stands = s.stands :=
  Prod.ext (funext hctx) (funext hreg)

theorem State.stands_of_regs (hctx : t.ctxs = s.ctxs)
    (hreg : ∀ x : CtxId, t.reg (pCTX x) 0x100 = s.reg (pCTX x) 0x100) : t.stands = s.stands :=
  State.stands_of (fun x => by rw [State.ctx_congr hctx]) hreg

theorem State.place_of_stands (h : t.stands = s.stands) (x : Nat) : (t.ctx x).place = (s.ctx x).place :=
  congrFun (congrArg Prod.fst h) x

theorem State.ctxValid_of_stands (h : t.stands = s.stands) (x : CtxId) : t.ctxValid x = s.ctxValid x :=
  congrArg (bit · 6) (congrFun (congrArg Prod.snd h) x)

theorem State.Recorded.stands (h : s.Recorded t) : t.stands = s.stands :=
  State.stands_of_regs (by rw [h.frame]) fun _ => h.reg (.inl (by decide))

theorem State.Completed.stands (h : s.Completed t) : t.stands = s.stands :=
  State.stands_of_regs (by rw [h.frame]) fun _ => h.reg (Nat.le_add_right ..)

theorem State.Sent.stands (h : s.Sent t) : t.stands = s.stands :=
  State.stands_of_regs h.ctxs fun x => h.reg (by unfold OffFabric; simp only [pCTX, pFAB]; omega)

theorem State.Signalled.stands (h : s.Signalled t) : t.stands = s.stands :=
  State.stands_of_regs (by rw [h.noted]) fun x => h.reg (by simp only [pCTX, pHIF]; omega)

end

/-! ### Registers, events and records -/

section
variable (s : State)

theorem State.setReg_stands {p o : Nat} (v : Word32) (h : p * 4096 + o < 0x80 * 4096 ∨ 0xC0 * 4096 ≤ p * 4096 + o) :
    (s.setReg p o v).stands = s.stands :=
  State.stands_of_regs rfl fun x => State.reg_setReg_ne _ _ (by simp only [pCTX]; omega)

theorem State.setReg64_stands {p o : Nat} (v : Word64)
    (h : p * 4096 + (o + 4) < 0x80 * 4096 ∨ 0xC0 * 4096 ≤ p * 4096 + o) : (s.setReg64 p o v).stands = s.stands :=
  State.stands_of_regs rfl fun x => State.reg_setReg64_ne _ _ (by
    simp only [pCTX]
    obtain h | h := h
    · right; omega
    · left; omega)

theorem State.inc_stands {p o : Nat} (n : Nat) (h : p * 4096 + (o + 4) < 0x80 * 4096 ∨ 0xC0 * 4096 ≤ p * 4096 + o) :
    (s.inc p o n).stands = s.stands := s.setReg64_stands _ h

theorem State.raise_stands (p b : Nat) : (s.raise p b).stands = s.stands :=
  ((State.Signalled.refl s).raise p b).stands

theorem State.detect_stands (cls : BitVec 2) (st : BitVec 16) (b i : Nat) (x : Option CtxId) (n : Nat) :
    (s.detect cls st b i x n).stands = s.stands :=
  State.stands_of_regs (State.detect_ctxs ..) fun y =>
    State.reg_detect_of_page _ _ _ _ _ _ _ (by simp only [pERR, pCTX]; omega)

theorem State.detectOpen_stands (cls : BitVec 2) (st : BitVec 16) (b i : Nat) (x : Option CtxId) :
    (s.detectOpen cls st b i x).stands = s.stands := State.detect_stands ..

theorem State.usedFree_stands : s.usedFree.stands = s.stands := rfl

theorem State.modCore_stands (c : Nat) (f : Core → Core) : (s.modCore c f).stands = s.stands := rfl

theorem State.modCtx_stands (x : Nat) {f : Ctx → Ctx} (hf : ∀ g, (f g).place = g.place) :
    (s.modCtx x f).stands = s.stands := by
  refine State.stands_of (fun y => ?_) fun _ => rfl
  by_cases hy : y = x
  · rw [hy, State.ctx_modCtx_same, hf]
  · rw [State.ctx_modCtx_ne _ _ hy]

theorem State.modThread_stands (c : CoreId) (x : CtxId) (f : Thread → Thread) :
    (s.modThread c x f).stands = s.stands := by
  unfold State.modThread
  split
  · rfl
  · exact s.modCtx_stands x fun _ => rfl

theorem State.modJob_stands (x : Nat) (f : Job → Job) : (s.modJob x f).stands = s.stands := rfl

theorem State.sendMsg_stands (m : Message) (vc : Fin 8) (by_ : Sender) : (s.sendMsg m vc by_).2.stands = s.stands :=
  (s.sent_sendMsg m vc by_).stands

theorem State.sendWaiting_stands (dest : BitVec 12) : (s.sendWaiting dest).stands = s.stands :=
  (s.sent_sendWaiting dest).stands

theorem State.sendPlain_stands (m : Message) (vc : Fin 8) : (s.sendPlain m vc).stands = s.stands :=
  (s.launched_sendPlain m vc).sent.stands

theorem State.completeRunning_stands (q : Fin 64) (cid : Word64) (st : BitVec 16) (result : List Byte) :
    (s.completeRunning q cid st result).stands = s.stands := (s.completed_completeRunning q cid st result).stands

theorem State.devWrite_stands (part a : Nat) (bs : List Byte) (po : Bool) : (s.devWrite part a bs po).stands = s.stands :=
  (s.fetched_devWrite part a bs po).recorded.stands

theorem State.recRead_stands (rn : Nat) (bankB : Bool) (hint : Hint) (part : Nat) (mayWrite : Bool) (off n : Nat) :
    (s.recRead rn bankB hint part mayWrite off n).2.2.stands = s.stands := (s.recorded_recRead ..).stands

theorem State.recWrite_stands (rn : Nat) (bankB : Bool) (hint : Hint) (part : Nat) (po : Bool) (off : Nat)
    (bs : List Byte) : (s.recWrite rn bankB hint part po off bs).stands = s.stands := (s.recorded_recWrite ..).stands

theorem State.bankFor_stands (x : CtxId) (r : Rec) : (s.bankFor x r).2.stands = s.stands := (s.recorded_bankFor x r).stands

end

theorem foldl_stands {α : Type} {f : State → α → State} (h : ∀ s a,
    (f s a).stands = s.stands) (l : List α) (s : State) :
    (l.foldl f s).stands = s.stands := foldl_keeps State.stands f h l s

/-- As `foldl_stands`, for a step named by an equation. -/
theorem foldl_stands_of_eq {α : Type} {f : State → α → State} (h : ∀ s a t,
    f s a = t → t.stands = s.stands) (l : List α)
    (s : State) : (l.foldl f s).stands = s.stands := foldl_stands (fun s a => h s a _ rfl) l s

theorem foldl_snd_stands {α β : Type} {f : β × State → α → β × State} (h : ∀ p a, (f p a).2.stands = p.2.stands)
    (l : List α) (p : β × State) : (l.foldl f p).2.stands = p.2.stands := foldl_keeps (fun p => p.2.stands) f h l p

/-! ### What the end of a program does -/

theorem State.modCounts_stands (s : State) (x : Nat) (f : Counts → Counts) : (s.modCounts x f).stands = s.stands := rfl

theorem State.modHeld_stands (s : State) (dest : BitVec 12) (mseq : BitVec 48) (f : Held → Held) :
    (s.modHeld dest mseq f).stands = s.stands := rfl

theorem State.cancelSend_stands (s : State) (dest : BitVec 12) (mseq : BitVec 48) (keep : Bool) :
    (s.cancelSend dest mseq keep).stands = s.stands := by
  unfold State.cancelSend
  refine (State.sendWaiting_stands ..).trans ((State.sendPlain_stands ..).trans ((State.inc_stands _ 1 (by decide)).trans ?_))
  split <;> rfl

theorem State.retire_stands (s : State) (c : CoreId) (ch : Fin 8) (second : Bool) (st : BitVec 16) :
    (s.retire c ch second st).stands = s.stands := by
  grind [State.retire, State.modCore_stands, State.modThread_stands, State.modCounts_stands, State.inc_stands,
    State.raise_stands,
    State.setReg_stands]

theorem State.abortChan_stands (s : State) (c : CoreId) (ch : Fin 8) (a : Nat) :
    (s.abortChan c ch a).stands = s.stands := by
  fun_induction State.abortChan <;> grind [State.retire_stands]

theorem State.abortChans_stands (s : State) (c : CoreId) (x : CtxId) : (s.abortChans c x).stands = s.stands := by
  refine foldl_stands (fun s e => ?_) _ _
  grind [foldl_stands, State.abortChan_stands]

theorem State.modMdl_stands (s : State) (m : Nat) (f : Mdl → Mdl) : (s.modMdl m f).stands = s.stands := rfl

theorem State.modBank_stands (s : State) (m : Nat) (b : Bool) (f : Bank → Bank) :
    (s.modBank m b f).stands = s.stands := rfl

theorem State.hashed_stands (s : State) (n : Nat) : (s.hashed n).stands = s.stands :=
  State.inc_stands _ _ (by decide)

theorem State.settleBanks_stands (s : State) (m : Nat) : (s.settleBanks m).stands = s.stands := by
  grind [State.settleBanks, State.modBank_stands]

theorem State.modLock_stands (s : State) (n : Nat) (f : Lock → Lock) : (s.modLock n f).stands = s.stands := rfl

theorem State.armLease_stands (s : State) : s.armLease.stands = s.stands := by
  refine State.stands_of_regs (by rw [s.armLease_frame]) fun x => ?_
  unfold State.armLease
  split
  · rfl
  next n hn =>
  have hlt : n < 8 := List.mem_range.1 (List.mem_of_find?_eq_some hn)
  have hset (u : State) {o : Nat} (v : Word32) (ho : o < 0x20) : (u.setTmr n o v).reg (pCTX x) 0x100 = u.reg (pCTX x) 0x100 :=
    State.reg_setReg_ne _ _ (by simp only [pCTX, pAON]; omega)
  dsimp only
  split
  · exact hset _ _ (by decide)
  · exact (hset _ _ (by decide)).trans ((hset _ _ (by decide)).trans (hset _ _ (by decide)))

theorem State.breakLock_stands (s : State) (n : Nat) (why : BitVec 3) : (s.breakLock n why).stands = s.stands := by
  unfold State.breakLock
  split
  · rfl
  · exact (State.armLease_stands _).trans (((State.raise_stands _ pSCH 16).trans (State.inc_stands _ 1 (by decide))).trans
      (State.modLock_stands ..))

theorem State.breakLocksOf_stands (s : State) (x : CtxId) : (s.breakLocksOf x).stands = s.stands := by
  grind [State.breakLocksOf, foldl_stands, State.modLock_stands, State.breakLock_stands]

theorem State.chkWatch_stands (s : State) {f : State → State} (hf : ∀ s, (f s).stands = s.stands) :
    (s.chkWatch f).stands = s.stands :=
  (s.signalled_chkWatch f).stands.trans (hf s)

theorem State.stageEntry_stands (s : State) (kind : Nat) (ctx : Byte) (body : List Byte) (slot : Option Nat) :
    (s.stageEntry kind ctx body slot).stands = s.stands := rfl

theorem State.stageAll_stands (s : State) (a : Nat) : (s.stageAll a).stands = s.stands := by
  fun_induction State.stageAll <;> grind [State.stageEntry_stands]

theorem State.stage_stands (s : State) : s.stage.stands = s.stands :=
  State.stageAll_stands ..

theorem State.ringDrop_stands (s : State) : s.ringDrop.stands = s.stands := by
  grind [State.ringDrop, State.inc_stands, State.raise_stands, State.setReg64_stands]

theorem State.regionDigest_stands (s : State) (x : CtxId) (b : Binding) : (s.regionDigest x b).2.stands = s.stands := by
  grind [State.regionDigest, State.bankFor_stands, State.recRead_stands, State.hashed_stands, State.usedFree_stands]

theorem State.roleDigest_stands (s : State) (x : CtxId) (bs : List Binding) (out : Bool) :
    (s.roleDigest x bs out).2.stands = s.stands := by
  grind [State.roleDigest, foldl_snd_stands, State.regionDigest_stands]

theorem State.newInterval_stands (s : State) (x : CtxId) : (s.newInterval x).stands = s.stands := rfl

theorem State.sealOne_stands (s : State) (x : CtxId) (final : Bool) (st : BitVec 16) :
    (s.sealOne x final st).stands = s.stands := by
  grind [State.sealOne, State.chkWatch_stands, State.ringDrop_stands, State.roleDigest_stands, State.inc_stands,
    State.devWrite_stands,
    State.setReg64_stands, State.modJob_stands, State.setReg_stands, State.stage_stands, State.newInterval_stands]

theorem State.sealDue_stands (s : State) (x : CtxId) : (s.sealDue x).stands = s.stands := by
  unfold State.sealDue
  split
  · exact State.modJob_stands ..
  · exact State.sealOne_stands ..

theorem State.spanAdd_stands (s : State) (x : CtxId) (slot : Fin 16) (v num : Word64) (dig : List Byte)
    (poison : Bool) : (s.spanAdd x slot v num dig poison).stands = s.stands := by
  grind [State.spanAdd, State.modJob_stands, State.sealOne_stands, State.sealDue_stands]

theorem State.spanEnd_stands (s : State) (x : CtxId) (g : Fin 128) (num : Word64) (poison : Bool) :
    (s.spanEnd x g num poison).stands = s.stands := by
  unfold State.spanEnd
  split
  · rfl
  · exact (State.spanAdd_stands ..).trans (State.modJob_stands ..)

theorem State.sealFinal_stands (s : State) (x : CtxId) (st : BitVec 16) : (s.sealFinal x st).stands = s.stands := by
  unfold State.sealFinal
  exact (State.modJob_stands ..).trans ((State.sealOne_stands ..).trans
    ((foldl_stands (fun s e => State.spanAdd_stands s x _ _ _ _ _) _ _).trans (State.modJob_stands ..)))

theorem State.chainAdd_stands (s : State) (x : CtxId) (r : List Byte) (tokens : Nat) :
    (s.chainAdd x r tokens).stands = s.stands := rfl

theorem State.modBar_stands (s : State) (x b : Nat) (f : Barrier → Barrier) : (s.modBar x b f).stands = s.stands :=
  s.modCtx_stands x fun _ => rfl

theorem State.barTurn_stands (s : State) (x b : Nat) : (s.barTurn x b).stands = s.stands := by
  grind [State.barTurn, State.modBar_stands]

theorem State.barFirst_stands (s : State) (x b : Nat) (eps : Bool) : (s.barFirst x b eps).stands = s.stands := by
  obtain h | h := s.barFirst_cases x b eps
  · rw [h]
  · rw [h]
    exact State.modBar_stands ..

theorem State.setPod_stands (s : State) (gid b : Nat) (p : Pod) : (s.setPod gid b p).stands = s.stands := rfl

theorem State.podReleased_stands (s : State) (gid b : Nat) : (s.podReleased gid b).stands = s.stands := by
  unfold State.podReleased
  split
  · exact State.modBar_stands ..
  · rfl

theorem State.podArrive_stands (s : State) (gid b : Nat) (chip : BitVec 12) :
    (s.podArrive gid b chip).stands = s.stands := by
  grind [State.podArrive, foldl_stands, State.setPod_stands, State.podReleased_stands, State.sendMsg_stands]

theorem State.podCheck_stands (s : State) (x : CtxId) (b : Nat) : (s.podCheck x b).stands = s.stands := by
  grind [State.podCheck, State.modBar_stands, State.podArrive_stands, State.sendMsg_stands]

theorem State.engArrive_stands (s : State) (x : CtxId) (b : Nat) (e : Engine) :
    (s.engArrive x b e).stands = s.stands := by
  grind [State.engArrive, State.barTurn_stands, State.modBar_stands, State.podCheck_stands, State.barFirst_stands]

theorem State.sendBarAbort_stands (s : State) (dest : BitVec 12) (gid chip b : Nat) (st : BitVec 16) :
    (s.sendBarAbort dest gid chip b st).stands = s.stands :=
  State.sendPlain_stands ..

theorem State.barsEnd_stands (s : State) (x : CtxId) : (s.barsEnd x).stands = s.stands := by
  refine (State.modCtx_stands _ x (f := fun g => { g with bars := [] }) fun _ => rfl).trans
    (foldl_stands (fun s e => ?_) _ s)
  grind [foldl_stands, State.setPod_stands, State.sendBarAbort_stands]

theorem State.setBreg64_stands (s : State) (n p o : Nat) (v : Word64) : (s.setBreg64 n p o v).stands = s.stands :=
  State.stands_of_regs rfl fun x => by
    have h (u : State) {o : Nat} (w : Word32) : (u.setBreg n p o w).reg (pCTX x) 0x100 = u.reg (pCTX x) 0x100 :=
      sget_sset_ne' _ _ _ _ (by simp only [bankKey, pCTX]; omega)
    exact (h _ _).trans (h _ _)

theorem State.modGroup_stands (s : State) (g : Nat) (f : EGroup → EGroup) : (s.modGroup g f).stands = s.stands := rfl

theorem State.modEpsCtx_stands (s : State) (x : Nat) (f : EpsCtx → EpsCtx) : (s.modEpsCtx x f).stands = s.stands := rfl

theorem State.engRead_stands (s : State) (x tid off n : Nat) : (s.engRead x tid off n).2.2.stands = s.stands := by
  grind [State.engRead, State.recRead_stands]

theorem State.engWrite_stands (s : State) (h : Hint) (x tid off : Nat) (bs : List Byte) (poison : Bool) :
    (s.engWrite h x tid off bs poison).stands = s.stands := by
  grind [State.engWrite, State.recWrite_stands]

theorem State.engCopy_stands (s : State) (h : Hint) (x src dst a a6 a7 : Nat) :
    (s.engCopy h x src dst a a6 a7).stands = s.stands := by
  fun_induction State.engCopy <;> grind [State.engRead_stands, State.engWrite_stands]

theorem State.setEpisode_stands (s : State) (i : Nat) (e : Option Episode) : (s.setEpisode i e).stands = s.stands := rfl

theorem State.modEpisode_stands (s : State) (i : Nat) (f : Episode → Episode) :
    (s.modEpisode i f).stands = s.stands := rfl

theorem State.epsEvent_stands (s : State) (kind cause : Nat) (st : BitVec 16) (e : Episode) :
    (s.epsEvent kind cause st e).stands = s.stands := by
  grind [State.epsEvent, State.inc_stands, State.raise_stands, State.setReg64_stands, State.devWrite_stands]

theorem State.eventOf_stands (s : State) (i kind : Nat) (st : BitVec 16) : (s.eventOf i kind st).stands = s.stands := by
  unfold State.eventOf
  split
  · exact State.epsEvent_stands ..
  · rfl

theorem State.queueRec_stands (s : State) (i : Nat) (reward : Word32) (final : Bool) :
    (s.queueRec i reward final).stands = s.stands := by
  grind [State.queueRec, State.modEpisode_stands, State.raise_stands]

theorem State.freeEpisode_stands (s : State) (i : Nat) : (s.freeEpisode i).stands = s.stands := by
  grind [State.freeEpisode, State.setEpisode_stands]

theorem State.endEpisode_stands (s : State) (i : Nat) (fin : BitVec 2) (st : BitVec 16) :
    (s.endEpisode i fin st).stands = s.stands := by
  grind [State.endEpisode, State.modGroup_stands, State.modEpisode_stands, State.eventOf_stands, State.inc_stands,
    State.freeEpisode_stands,
    State.queueRec_stands]

theorem State.setCredit_stands (s : State) (t n : Nat) : (s.setCredit t n).stands = s.stands :=
  State.setBreg64_stands ..

theorem State.epsSend_stands (s : State) (kind dest g flags : Nat) (num ver : Word64) (payload : List Byte) :
    (s.epsSend kind dest g flags num ver payload).stands = s.stands :=
  State.sendMsg_stands ..

theorem State.startHusk_stands (s : State) (i : Nat) (e : Episode) (slot : Fin 256) :
    (s.startHusk i e slot).stands = s.stands := by
  refine foldl_stands (fun s e => ?_) _ _
  grind [foldl_stands, State.modGroup_stands, State.epsSend_stands]

theorem State.pauseEpisode_stands (s : State) (i : Nat) (causes : BitVec 3) :
    (s.pauseEpisode i causes).stands = s.stands := by
  grind [State.pauseEpisode, State.modEpisode_stands, State.inc_stands, State.queueRec_stands, State.startHusk_stands]

theorem State.commitSlot_stands (s : State) (g : Nat) (ver : Word64) (poison : Bool) (emits : List EmitRec)
    (t : StepSlot) : (s.commitSlot g ver poison emits t).2.stands = s.stands := by
  grind [State.commitSlot, State.inc_stands, State.setCredit_stands, State.epsEvent_stands, State.engWrite_stands,
    State.modEpisode_stands,
    State.setBreg64_stands]

theorem State.commitSlots_stands (s : State) (g : Nat) (ver : Word64) (poison : Bool) (emits : List EmitRec)
    (a : List StepSlot) : (s.commitSlots g ver poison emits a).2.stands = s.stands := by
  fun_induction State.commitSlots <;> grind [State.commitSlot_stands]

theorem State.applySlot_stands (s : State) (g : Nat) (ver : Word64) (slot k : Nat) :
    (s.applySlot g ver slot k).stands = s.stands := by
  grind [State.applySlot, foldl_stands, State.engCopy_stands, State.modGroup_stands]

theorem State.applyCommit_stands (s : State) (g : Fin 128) (num ver : Word64) (poison : Bool)
    (bytes : List Byte) : (s.applyCommit g num ver poison bytes).stands = s.stands := by
  grind [State.applyCommit, foldl_stands, State.applySlot_stands, State.spanEnd_stands]

theorem State.commitStep_stands (s : State) (g : Fin 128) : (s.commitStep g).stands = s.stands := by
  grind [State.commitStep, foldl_stands, State.commitSlots_stands, State.inc_stands, State.raise_stands,
    State.chainAdd_stands, State.epsSend_stands, State.modGroup_stands, State.applyCommit_stands, State.engWrite_stands,
    State.endEpisode_stands, State.pauseEpisode_stands]

theorem State.commitDue_stands (s : State) (a : Nat) : (s.commitDue a).stands = s.stands := by
  fun_induction State.commitDue <;> grind [State.commitStep_stands]

theorem State.epsCtxEnd_stands (s : State) (x : CtxId) (st : BitVec 16) : (s.epsCtxEnd x st).stands = s.stands := by
  grind [State.epsCtxEnd, foldl_stands, State.modGroup_stands, State.setCredit_stands,
    State.modEpsCtx_stands, State.endEpisode_stands, State.settleBanks_stands, State.commitDue_stands]

theorem State.modAnl_stands (s : State) (c : Nat) (f : AnlCh → AnlCh) : (s.modAnl c f).stands = s.stands := rfl

theorem State.anlArrive_stands (s : State) (c : Fin 32) : (s.anlArrive c).stands = s.stands := by
  grind [State.anlArrive, State.modAnl_stands, State.engArrive_stands]

theorem State.anlStatus_stands (s : State) (c : Fin 32) (st : BitVec 16) : (s.anlStatus c st).stands = s.stands :=
  State.setReg_stands _ _ (by simp only [pANL]; omega)

theorem State.endRun_stands (s : State) (c : Fin 32) (st : BitVec 16) : (s.endRun c st).stands = s.stands := by
  grind [State.endRun, State.anlStatus_stands, State.inc_stands, State.raise_stands, State.modAnl_stands,
    State.anlArrive_stands]

theorem State.anlWrite_stands (s : State) (c off : Nat) (bs : List Byte) : (s.anlWrite c off bs).stands = s.stands := by
  grind [State.anlWrite, State.recWrite_stands]

theorem State.endRunStatus_stands (s : State) (c : Fin 32) (st : BitVec 16) : (s.endRunStatus c st).stands = s.stands :=
  (State.endRun_stands ..).trans (State.anlWrite_stands ..)

theorem State.anlAbort_stands (s : State) (c : Fin 32) : (s.anlAbort c).stands = s.stands := by
  grind [State.anlAbort, State.endRunStatus_stands]

theorem State.anlCtxEnd_stands (s : State) (x : CtxId) : (s.anlCtxEnd x).stands = s.stands := by
  refine foldl_stands (fun s e => ?_) _ _
  grind [foldl_stands, State.modAnl_stands, State.anlAbort_stands]

theorem State.clxRd_stands (s : State) (rn part : Nat) (rw : Bool) (a a5 a6 : Nat) :
    (s.clxRd rn part rw a a5 a6).2.stands = s.stands := by
  fun_induction State.clxRd <;> grind [State.recRead_stands]

theorem State.clxRead_stands (s : State) (x tid off n : Nat) : (s.clxRead x tid off n).2.stands = s.stands := by
  grind [State.clxRead, State.clxRd_stands]

theorem State.clxWr_stands (s : State) (rn part a a4 : Nat) (a5 : List (Byte × Bool)) :
    (s.clxWr rn part a a4 a5).stands = s.stands := by
  fun_induction State.clxWr <;> grind [State.recWrite_stands]

theorem State.clxWrite_stands (s : State) (x tid off : Nat) (ps : List (Byte × Bool)) :
    (s.clxWrite x tid off ps).stands = s.stands := by
  grind [State.clxWrite, State.clxWr_stands]

theorem State.modColl_stands (s : State) (g : Fin 64) (cseq : Word32) (f : Coll → Coll) :
    (s.modColl g cseq f).stands = s.stands := rfl

theorem State.readBlock_stands (s : State) (c : Coll) (dst : Bool) (b : Nat) :
    (s.readBlock c dst b).2.stands = s.stands :=
  State.clxRead_stands ..

theorem State.writeBlock_stands (s : State) (c : Coll) (dst : Bool) (b : Nat) (ps : List (Byte × Bool)) :
    (s.writeBlock c dst b ps).stands = s.stands := by
  grind [State.writeBlock, State.clxWrite_stands, State.modColl_stands]

theorem State.takeCks_stands (s : State) (c : Coll) (a a3 : Nat) (a4 : List (Nat × Nat × Nat × Nat)) :
    (s.takeCks c a a3 a4).2.stands = s.stands := by
  fun_induction State.takeCks <;> grind [State.readBlock_stands]

theorem State.clxSend_stands (s : State) (kind dest : Nat) (g : Fin 64) (rank : Nat) (cseq : Word32)
    (off : Nat) (payload : List Byte) (marks : List Bool) (tag final : Nat) :
    (s.clxSend kind dest g rank cseq off payload marks tag final).stands = s.stands :=
  State.sendMsg_stands ..

theorem State.sendCollAbort_stands (s : State) (dest : BitVec 12) (g : Fin 64) (rank : Nat) (cseq : Word32)
    (st : BitVec 16) : (s.sendCollAbort dest g rank cseq st).stands = s.stands :=
  State.sendPlain_stands ..

theorem State.collReport_stands (s : State) (g : Fin 64) (cseq : Word32) (x : CtxId) (by_ : Poster)
    (st : BitVec 16) (rank present : Nat) : (s.collReport g cseq x by_ st rank present).stands = s.stands := by
  unfold State.collReport
  grind [State.inc_stands, State.raise_stands, State.setReg_stands, State.detect_stands, State.completeRunning_stands]

theorem State.serveLate_stands (s : State) (c : Coll) (late : Nat) : (s.serveLate c late).stands = s.stands := by
  unfold State.serveLate
  exact (foldl_stands (fun s i => (State.clxSend_stands ..).trans (State.inc_stands _ _ (by decide))) _ _).trans
    (State.clxRead_stands ..)

theorem State.collEnd_stands (s : State) (c : Coll) (st : BitVec 16) (rank : Nat) :
    (s.collEnd c st rank).stands = s.stands := by
  have hserve := foldl_stands_of_eq fun s q t (ht : State.serveLate s c q = t) => ht ▸ State.serveLate_stands s c q
  unfold State.collEnd
  extract_lets _ _ _ u
  have hu : u.stands = s.stands := (State.collReport_stands ..).trans (State.modJob_stands ..)
  split
  · exact (hserve ..).trans hu
  · exact hu

theorem State.relayAbort_stands (s : State) (g : Fin 64) (cseq : Word32) (st : BitVec 16) (rank : Nat)
    (but_ : Option (BitVec 12)) : (s.relayAbort g cseq st rank but_).stands = s.stands := by
  refine foldl_stands (fun s e => ?_) _ _
  grind [foldl_stands, State.sendCollAbort_stands]

theorem State.collFail_stands (s : State) (c : Coll) (st : BitVec 16) (rank : Nat) :
    (s.collFail c st rank).stands = s.stands := by
  grind [State.collFail, State.collEnd_stands, State.relayAbort_stands, State.sendCollAbort_stands]

theorem State.sendRun_stands (s : State) (c : Coll) (peer off via relay a : Nat) (a7 : List (Byte × Bool)) :
    (s.sendRun c peer off via relay a a7).stands = s.stands := by
  fun_induction State.sendRun <;> grind [State.clxSend_stands]

theorem State.sendTransfer_stands (s : State) (c : Coll) (peer off : Nat) (ps : List (Byte × Bool)) :
    (s.sendTransfer c peer off ps).stands = s.stands := by
  grind [State.sendTransfer, foldl_stands, State.sendRun_stands]

theorem State.readBlocks_stands (s : State) (c : Coll) (dst : Bool) (a : List Nat) :
    (s.readBlocks c dst a).2.stands = s.stands := by
  fun_induction State.readBlocks <;> grind [State.readBlock_stands]

theorem State.freeRun_stands (s : State) (w a : Nat) (a3 : List (Byte × Bool)) :
    (s.freeRun w a a3).2.stands = s.stands := by
  fun_induction State.freeRun <;> grind [State.usedFree_stands]

theorem State.ownBlock_stands (s : State) (c : Coll) (b : Nat) : (s.ownBlock c b).2.stands = s.stands := by
  grind [State.ownBlock, State.readBlock_stands, State.inc_stands, State.modCounts_stands, State.detectOpen_stands,
    State.raise_stands,
    State.freeRun_stands, State.writeBlock_stands]

theorem State.ownBlocks_stands (s : State) (c : Coll) (a : List Nat) : (s.ownBlocks c a).2.stands = s.stands := by
  fun_induction State.ownBlocks <;> grind [State.ownBlock_stands]

theorem State.startStage_stands (s : State) (c : Coll) (st : CollStage) : (s.startStage c st).stands = s.stands := by
  grind [State.startStage, foldl_stands, State.ownBlocks_stands, State.collFail_stands,
    State.readBlocks_stands, State.inc_stands, State.modColl_stands, State.sendTransfer_stands]

theorem State.takeBlocks_stands (s : State) (c : Coll) (e : Exch) (a : List Nat) (a4 : List (Byte × Bool)) :
    (s.takeBlocks c e a a4).stands = s.stands := by
  fun_induction State.takeBlocks <;> grind [State.readBlock_stands, State.writeBlock_stands]

theorem State.endStage_stands (s : State) (c : Coll) (st : CollStage) : (s.endStage c st).stands = s.stands := by
  refine foldl_stands (fun s e => ?_) _ _
  grind [foldl_stands, State.takeBlocks_stands, State.modColl_stands]

theorem State.startData_stands (s : State) (c : Coll) : (s.startData c).stands = s.stands := by
  grind [State.startData, State.inc_stands, State.modJob_stands, State.takeCks_stands, State.modColl_stands,
    State.readBlock_stands,
    State.writeBlock_stands]

theorem State.collTurn_stands {s t : State} (ht : s.collTurn = some t) : t.stands = s.stands := by
  unfold State.collTurn at ht
  split at ht
  · next hfound =>
    obtain ⟨c, -, hc⟩ := List.exists_of_findSome?_eq_some hfound
    grind [State.collEnd_stands, State.startStage_stands, State.endStage_stands]
  · grind [State.startData_stands, Option.map_eq_some_iff]

theorem State.goAt_stands (s : State) (g : Fin 64) (cseq : Word32) (present rcounts : List Nat) :
    (s.goAt g cseq present rcounts).stands = s.stands := by
  grind [State.goAt, State.modColl_stands, State.inc_stands]

theorem State.decideRound_stands (s : State) (r : Round) : (s.decideRound r).stands = s.stands := by
  grind [State.decideRound, foldl_stands, State.collEnd_stands, State.relayAbort_stands, State.goAt_stands,
    State.clxSend_stands]

theorem State.roundTurn_stands (s : State) {t} (ht : (s.roundTurn) = some t) : t.stands = s.stands := by
  grind [State.roundTurn, State.decideRound_stands]

theorem State.clxRun_stands (a : Nat) (a1 : State) : (State.clxRun a a1).stands = a1.stands := by
  fun_induction State.clxRun <;> grind [State.collTurn_stands, State.roundTurn_stands]

theorem State.clxGo_stands (s : State) : s.clxGo.stands = s.stands :=
  State.clxRun_stands ..

theorem State.collAbortAll_stands (s : State) (p : Coll → Bool) : (s.collAbortAll p).stands = s.stands := by
  unfold State.collAbortAll
  exact (State.clxGo_stands _).trans (foldl_stands (fun s c => State.collFail_stands s c _ _) _ _)

theorem State.modTrn_stands (s : State) (j : Nat) (f : TrnJob → TrnJob) : (s.modTrn j f).stands = s.stands := rfl

theorem State.trnCtxEnd_stands (s : State) (x : CtxId) : (s.trnCtxEnd x).stands = s.stands := by
  refine foldl_stands (fun s e => ?_) _ _
  grind [foldl_stands, State.modTrn_stands, State.setReg_stands]

theorem State.endEffects_stands (s : State) (x : CtxId) (st : BitVec 16) : (s.endEffects x st).stands = s.stands := by
  grind [State.endEffects, foldl_stands, State.modCtx_stands, State.abortChans_stands,
    State.breakLocksOf_stands, State.cancelSend_stands, State.barsEnd_stands, State.collAbortAll_stands,
    State.trnCtxEnd_stands,
    State.anlCtxEnd_stands, State.epsCtxEnd_stands]


end Sys2Proof.Machine
end

section
/-! PROOF. Binding a context to a queue, killing its program, and dispatching it (18_sharing.md R517, R523, R524). -/

namespace Sys2Proof.Machine

/-! ### Binding -/

/-- CTX_CFG holds what its mask lets through of a write. -/
theorem State.reg_store_ctxCfg (s : State) (x : CtxId) (v : Word32) :
    (s.store (pCTX x) 0x100 v).reg (pCTX x) 0x100 = v &&& 0x73F7F := by
  obtain ⟨row, hrow, hacc, hmask⟩ : ∃ row, regRow (blockType (pCTX x)) 0x100 = some row ∧ row.acc = .rwl ∧
      row.mask = 0x73F7F := by
    have hblock : ∀ x : CtxId, blockType (pCTX x) = blockType (pCTX 0) := by decide
    rw [hblock]
    exact ⟨_, rfl, rfl, rfl⟩
  rw [State.reg_store_same _ v hrow, RegRow.stored, hacc, hmask]
  rfl

/-- Does another VALID context have the queue that a CTX_CFG names? -/
def State.queTaken (s : State) (x : CtxId) (v : Word32) : Bool :=
  (List.range 64).any (fun y => y != x.val && s.ctxValid y && fld (s.reg (pCTX y) 0x100) 8 6 == fld v 8 6)

theorem State.queTaken_iff (s : State) (x : CtxId) (v : Word32) : s.queTaken x v = true ↔
    ∃ y, y < 64 ∧ y ≠ x.val ∧ s.ctxValid y = true ∧ fld (s.reg (pCTX y) 0x100) 8 6 = fld v 8 6 := by
  simp only [State.queTaken, List.any_eq_true, List.mem_range, Bool.and_eq_true, bne_iff_ne, ne_eq, beq_iff_eq, and_assoc]

section
variable {r : Requester} {x : CtxId} {v : Word32} {s : State}

theorem exec_ctxValidSet (v : Word32) (hadm : s.admits r (pCTX x) 0x100 = true) :
    ∃ g, exec (.ctxValidSet r x v) s = .next (({ s with pages := g } : State).ctxCfg x v) := by
  obtain ⟨g, hw⟩ := State.write_of_admits_frame (by decide) (fun s => s.ctxCfg x v) hadm
  exact ⟨g, congrArg Host.Outcome.next hw⟩

/-- What a context that is bound to its queue becomes. -/
def Ctx.bound (g : Ctx) : Ctx := if g.loaded then g else { g with state := .idle }

theorem State.ctxCfg_free (hvalid : bit v 6 = true) (hfree : s.queTaken x v = false) :
    s.ctxCfg x v = ((s.setReg (pCTX x) 0x810 0).store (pCTX x) 0x100 v).modCtx x Ctx.bound := by
  have hfree' : ((List.range 64).any fun y =>
      y != x.val && s.ctxValid y && fld (s.reg (pCTX y) 0x100) 8 6 == fld v 8 6) = false := hfree
  unfold State.ctxCfg
  simp only [hfree', hvalid, Bool.false_eq_true, and_false, if_false, if_true]
  rfl

theorem State.ctxCfg_taken (hvalid : bit v 6 = true) (htaken : s.queTaken x v = true) (hnot : s.ctxValid x = false) :
    s.ctxCfg x v =
      (s.setReg (pCTX x) 0x810 (stQUEUE_IN_USE.setWidth 32)).store (pCTX x) 0x100 (setBit v 6 false) := by
  have htaken' : ((List.range 64).any fun y =>
      y != x.val && s.ctxValid y && fld (s.reg (pCTX y) 0x100) 8 6 == fld v 8 6) = true := htaken
  have hnot' : (s.setReg (pCTX x) 0x810 (stQUEUE_IN_USE.setWidth 32)).ctxValid x = false := by
    rw [State.ctxValid, State.reg_setReg_ne _ _ (by omega)]
    exact hnot
  unfold State.ctxCfg
  simp only [htaken', hvalid, hnot', and_self, Bool.false_eq_true, if_false, if_true]

theorem ctxValidSet_binds (hadm : s.admits r (pCTX x) 0x100 = true) (hvalid : bit v 6 = true)
    (hfree : ∀ y, y < 64 → y ≠ x.val → s.ctxValid y = true → fld (s.reg (pCTX y) 0x100) 8 6 ≠ fld v 8 6) :
    Gives (.ctxValidSet r x v) s fun t =>
      t.reg (pCTX x) 0x100 = v &&& 0x73F7F ∧ t.reg (pCTX x) 0x810 = 0 ∧ (∀ y, y ≠ x.val → t.ctx y = s.ctx y) ∧
      t.ctx x = (if (s.ctx x).loaded = true then s.ctx x else { s.ctx x with state := .idle }) ∧
      t = { s with regs := t.regs, pages := t.pages, ctxs := t.ctxs } := by
  obtain ⟨g, hexec⟩ := exec_ctxValidSet v hadm
  have hnone : s.queTaken x v = false := by
    rw [Bool.eq_false_iff, ne_eq, s.queTaken_iff]
    rintro ⟨y, hy, hne, hval, hque⟩
    exact hfree y hy hne hval hque
  rw [State.ctxCfg_free (s := { s with pages := g }) hvalid hnone] at hexec
  let w := ({ s with pages := g } : State).setReg (pCTX x) 0x810 0
  have hstore : w.store (pCTX x) 0x100 v = _ := w.store_frame ..
  have hctxs : (w.store (pCTX x) 0x100 v).ctxs = s.ctxs := by rw [hstore]; rfl
  refine ⟨_, hexec, ?_, ?_, fun y hy => ?_, ?_, ?_⟩
  · rw [State.reg_congr (State.modCtx_regs ..)]
    exact w.reg_store_ctxCfg x v
  · rw [State.reg_congr (State.modCtx_regs ..)]
    exact (State.reg_store_ne _ _ (by omega)).trans (State.reg_setReg_same ..)
  · rw [State.ctx_modCtx_ne _ _ hy]
    exact State.ctx_congr hctxs y
  · rw [State.ctx_modCtx_same]
    exact congrArg Ctx.bound (State.ctx_congr hctxs x)
  · have hpages : ((w.store (pCTX x) 0x100 v).modCtx x Ctx.bound).pages = g := w.store_pages ..
    rw [hpages]
    exact congrArg (fun u : State => { u with ctxs := ((w.store (pCTX x) 0x100 v).modCtx x Ctx.bound).ctxs }) hstore

theorem ctxValidSet_refuses (hadm : s.admits r (pCTX x) 0x100 = true) (hvalid : bit v 6 = true)
    (htaken : ∃ y, y < 64 ∧ y ≠ x.val ∧ s.ctxValid y = true ∧ fld (s.reg (pCTX y) 0x100) 8 6 = fld v 8 6)
    (hnot : s.ctxValid x = false) :
    Gives (.ctxValidSet r x v) s fun t =>
      t.ctxValid x = false ∧ t.reg (pCTX x) 0x810 = stQUEUE_IN_USE.setWidth 32 ∧
      t = { s with regs := t.regs, pages := t.pages } := by
  obtain ⟨g, hexec⟩ := exec_ctxValidSet v hadm
  rw [State.ctxCfg_taken (s := { s with pages := g }) hvalid ((s.queTaken_iff x v).2 htaken) hnot] at hexec
  let w := ({ s with pages := g } : State).setReg (pCTX x) 0x810 (stQUEUE_IN_USE.setWidth 32)
  refine ⟨w.store (pCTX x) 0x100 (setBit v 6 false), hexec, ?_, ?_, ?_⟩
  · rw [State.ctxValid, State.reg_store_ctxCfg, bit, BitVec.getLsbD_and,
      show (setBit v 6 false).getLsbD 6 = bit (setBit v 6 false) 6 from rfl, bit_setBit v (by decide)]
    rfl
  · rw [State.reg_store_ne _ _ (by omega)]
    exact State.reg_setReg_same ..
  · have hpages : (w.store (pCTX x) 0x100 (setBit v 6 false)).pages = g := w.store_pages ..
    rw [hpages]
    exact w.store_frame ..

end

/-! ### KILL -/

section
variable {r : Requester} {x : CtxId} {s : State}

theorem exec_kill (hadm : s.admits r (pCTX x) 0x804 = true) :
    ∃ g, exec (.kill r x) s = .next (({ s with pages := g } : State).ctxKill x) := by
  obtain ⟨g, hw⟩ := State.write_of_admits_frame (by decide) (fun s => s.ctxKill x) hadm
  exact ⟨g, congrArg Host.Outcome.next hw⟩

/-- What the cores of a context hold once they have stopped with a status. -/
theorem State.coresStopped_leaves (s : State) (x : CtxId) (st : BitVec 16) :
    (∀ p ∈ (s.ctx x).place, (s.coresStopped x st).reg (pCORE p.core) 0x804 = st.setWidth 32) ∧
      ∀ c, (s.core c).ctx ≠ some x → (s.coresStopped x st).core c = s.core c := by
  have hcores (l : List Place) (t : State) (c : Nat) (hc : (t.core c).ctx ≠ some x) :
      (l.foldl (fun s (p : Place) => (s.setReg (pCORE p.core) 0x804 (st.setWidth 32)).modCore p.core
        (fun k => if k.ctx = some x then k.drain else k)) t).core c = t.core c :=
    List.foldlRecOn (motive := fun u : State => u.core c = t.core c) l _ rfl fun u hu p _ => by
      rw [State.core_modCore]
      split
      · next h =>
        have hsame : (u.setReg (pCORE p.core) 0x804 (st.setWidth 32)).core p.core = t.core c := h ▸ hu
        rw [hsame, if_neg hc]
      · exact hu
  refine ⟨fun p hp => ?_, fun c hc => hcores _ s c hc⟩
  unfold State.coresStopped
  generalize (s.ctx x).place = l at hp
  induction l generalizing s with
  | nil => cases hp
  | cons q l ih =>
    rw [List.foldl_cons]
    by_cases hin : p ∈ l
    · exact ih _ hin
    · obtain rfl := (List.mem_cons.1 hp).resolve_right hin
      refine List.foldlRecOn (motive := fun u : State => u.reg (pCORE p.core) 0x804 = st.setWidth 32) l _
        ((State.reg_congr (State.modCore_regs ..) ..).trans (State.reg_setReg_same ..)) fun u hu q hq => ?_
      rw [State.reg_congr (State.modCore_regs ..)]
      by_cases hsame : q.core = p.core
      · rw [hsame, State.reg_setReg_same]
      · have hne : q.core.val ≠ p.core.val := fun h => hsame (Fin.ext h)
        rw [State.reg_setReg_ne _ _ (by simp only [pCORE]; omega), hu]

theorem kill_gives (hadm : s.admits r (pCTX x) 0x804 = true) (hloaded : (s.ctx x).loaded = true) :
    Gives (.kill r x) s fun t =>
      t.ctx x = { s.ctx x with state := .ending, endWith := some ((s.ctx x).endWith.getD stKILLED) } ∧
      (∀ p ∈ (s.ctx x).place, t.reg (pCORE p.core) 0x804 = stKILLED.setWidth 32) ∧
      (∀ y, y ≠ x.val → t.ctx y = s.ctx y) ∧ (∀ c, (s.core c).ctx ≠ some x → t.core c = s.core c) ∧
      t = { s with regs := t.regs, pages := t.pages, ctxs := t.ctxs, cores := t.cores } := by
  obtain ⟨g, hexec⟩ := exec_kill hadm
  let u : State := { s with pages := g }
  have hkill : u.ctxKill x = u.stopContext x stKILLED := if_pos hloaded
  rw [show ({ s with pages := g } : State).ctxKill x = _ from hkill, State.stopContext_eq] at hexec
  have hframe := (u.stopped_coresStopped x stKILLED).frame
  obtain ⟨hregs, hcores⟩ := u.coresStopped_leaves x stKILLED
  generalize u.coresStopped x stKILLED = v at hexec hframe hregs hcores
  have hctxs : v.ctxs = s.ctxs := (congrArg State.ctxs hframe :)
  refine ⟨_, hexec, ?_, fun p hp => ?_, fun y hy => ?_, fun c hc => ?_, ?_⟩
  · rw [State.ctx_modCtx_same, State.ctx_congr hctxs]
  · rw [State.reg_congr (State.modCtx_regs ..)]
    exact hregs p hp
  · rw [State.ctx_modCtx_ne _ _ hy, State.ctx_congr hctxs]
  · rw [State.core_congr (State.modCtx_cores ..)]
    exact hcores c hc
  · rw [State.modCtx_pages, show v.pages = g from (congrArg State.pages hframe :)]
    exact congrArg (fun w : State => { w with ctxs := (v.modCtx x fun g =>
      { g with state := .ending, endWith := some (g.endWith.getD stKILLED) }).ctxs }) hframe

theorem kill_idle (hadm : s.admits r (pCTX x) 0x804 = true) (hidle : (s.ctx x).loaded = false) :
    Gives (.kill r x) s fun t => t = { s with pages := t.pages } := by
  obtain ⟨g, hexec⟩ := exec_kill hadm
  have hkill : ({ s with pages := g } : State).ctxKill x = { s with pages := g } :=
    if_neg (by rw [show (({ s with pages := g } : State).ctx x).loaded = false from hidle]; exact Bool.false_ne_true)
  exact ⟨_, hexec.trans (congrArg Host.Outcome.next hkill), rfl⟩

end

/-! ### Dispatch -/

/-- Cores of a context have taken its threads again. -/
structure State.Resumed (s t : State) : Prop where
  frame : t = { s with
    cores := t.cores, locks := t.locks, regs := t.regs, out := t.out, links := t.links, fab := t.fab }
  reg {q k : Nat} (hq : OffFabric q k) : t.reg q k = s.reg q k

/-- A core runs a context, and is not parked. -/
def Core.runsFor (k : Core) (x : CtxId) : Prop := k.ctx = some x ∧ k.parked = false

section
variable {s t u : State}

theorem State.Resumed.refl (s : State) : s.Resumed s := ⟨rfl, fun _ => rfl⟩

theorem State.Resumed.trans (h : s.Resumed t) (h' : t.Resumed u) : s.Resumed u where
  frame := h'.frame.trans (congrArg (fun v : State => { v with
    cores := u.cores, locks := u.locks, regs := u.regs, out := u.out, links := u.links, fab := u.fab }) h.frame)
  reg hq := (h'.reg hq).trans (h.reg hq)

theorem State.resumed_modCore (s : State) (c : Nat) (f : Core → Core) : s.Resumed (s.modCore c f) := ⟨rfl, fun _ => rfl⟩

theorem State.resumed_modLock (s : State) (n : Nat) (f : Lock → Lock) : s.Resumed (s.modLock n f) := ⟨rfl, fun _ => rfl⟩

theorem State.Sent.resumed (h : s.Sent t) : s.Resumed t where
  frame := h.frame.trans (congrArg₂ (fun c (p : SMap Lock × Fab) => { s with
    cores := c, locks := p.1, regs := t.regs, out := t.out, links := t.links, fab := p.2 }) h.cores.symm
    (congrArg₂ Prod.mk (congrArg State.locks h.frame) (congrArg State.fab h.frame)).symm)
  reg := h.reg

theorem State.sent_reissue (s : State) (dest : BitVec 12) (mseq : BitVec 48) : s.Sent (s.reissue dest mseq) := by
  refine State.Sent.trans (s.sent_mark _ fun h => ?_) (State.sent_sendWaiting _ dest)
  split <;> exact ⟨rfl, rfl⟩

/-- A core that takes a thread of its context again runs it, and no other core has changed its context. -/
theorem State.resumeCore_leaves (s : State) (x : CtxId) (c : CoreId) :
    s.Resumed (s.resumeCore x c) ∧
      ∀ d, ((s.core d).runsFor x ∨ d = c.val) → ((s.resumeCore x c).core d).runsFor x := by
  have hset (u : State) (t : Thread) (hu : s.Resumed u) (hcores : u.cores = s.cores) :
      let v := u.modCore c (fun k => { k with ctx := some x, th := t, parked := false, banks := [] })
      s.Resumed v ∧ ∀ d, ((s.core d).runsFor x ∨ d = c.val) → (v.core d).runsFor x := by
    refine ⟨hu.trans (u.resumed_modCore ..), fun d hd => ?_⟩
    rw [State.core_modCore]
    split
    · exact ⟨rfl, rfl⟩
    · next hne =>
      rw [State.core_congr hcores]
      exact hd.resolve_right hne
  unfold State.resumeCore
  dsimp only
  split
  · exact hset _ _ (.refl s) rfl
  · exact hset _ _ (s.resumed_modLock ..) rfl
  · next d q _ => exact hset _ _ (s.sent_reissue d q).resumed (s.sent_reissue d q).cores
  · exact hset _ _ (.refl s) rfl

theorem State.resumeCores_leaves (l : List Place) (s : State) (x : CtxId) :
    let t := l.foldl (fun s p => s.resumeCore x p.core) s
    s.Resumed t ∧ ∀ d, ((s.core d).runsFor x ∨ ∃ p ∈ l, d = p.core.val) → (t.core d).runsFor x := by
  induction l generalizing s with
  | nil => exact ⟨.refl s, fun d hd => hd.resolve_right (by simp)⟩
  | cons p l ih =>
    obtain ⟨hstep, hruns⟩ := s.resumeCore_leaves x p.core
    obtain ⟨hrest, hruns'⟩ := ih (s.resumeCore x p.core)
    refine ⟨hstep.trans hrest, fun d hd => hruns' d ?_⟩
    obtain hd | ⟨q, hq, rfl⟩ := hd
    · exact Or.inl (hruns d (Or.inl hd))
    · obtain rfl | hq := List.mem_cons.1 hq
      · exact Or.inl (hruns _ (Or.inr rfl))
      · exact Or.inr ⟨q, hq, rfl⟩

theorem State.dispatchNow_gives (s : State) (x : CtxId) :
    let t := s.dispatchNow x
    (t.ctx x).state = .running ∧ (∀ y, y ≠ x.val → t.ctx y = s.ctx y) ∧
      (∀ p ∈ (s.ctx x).place, (t.core p.core).ctx = some x ∧ (t.core p.core).parked = false) ∧
      t.reg64 pSCH 0xF00 = s.reg64 pSCH 0xF00 + 1 ∧ t.mem = s.mem := by
  intro t
  obtain ⟨hresumed, hruns⟩ := State.resumeCores_leaves (s.ctx x).place s x
  have ht : t = s.dispatchNow x := rfl
  clear_value t
  rw [State.dispatchNow] at ht
  generalize (s.ctx x).place.foldl (fun s p => s.resumeCore x p.core) s = u at hresumed hruns ht
  have huctxs : u.ctxs = s.ctxs := (congrArg State.ctxs hresumed.frame :)
  have hcores : t.cores = u.cores := by
    rw [ht, State.inc_cores, State.setReg_cores, State.setReg_cores, State.modCtx_cores]
  have hctxs (y : Nat) : t.ctx y = (u.modCtx x fun g =>
      { g with state := .running, saves := [], preemptFor := none, late := false }).ctx y :=
    State.ctx_congr (by rw [ht, State.inc_ctxs, State.setReg_ctxs, State.setReg_ctxs]) y
  refine ⟨?_, fun y hy => ?_, fun p hp => ?_, ?_, ?_⟩
  · rw [hctxs, State.ctx_modCtx_same]
  · rw [hctxs, State.ctx_modCtx_ne _ _ hy, State.ctx_congr huctxs]
  · rw [State.core_congr hcores]
    exact hruns _ (Or.inr ⟨p, hp, rfl⟩)
  · rw [ht]
    refine (State.reg64_inc_same ..).trans ?_
    have hkeeps (k : Nat) (hk : k < 0x1000) : OffFabric pSCH k := ⟨by decide, by decide, hk⟩
    have hx := x.isLt
    rw [State.reg64, State.reg_setReg_ne _ _ (by simp only [pSCH, pCTX]; omega),
      State.reg_setReg_ne _ _ (by simp only [pSCH, pCTX]; omega),
      State.reg_setReg_ne _ _ (by simp only [pSCH, pCTX]; omega),
      State.reg_setReg_ne _ _ (by simp only [pSCH, pCTX]; omega), State.reg_congr (State.modCtx_regs ..),
      State.reg_congr (State.modCtx_regs ..), hresumed.reg (hkeeps _ (by decide)), hresumed.reg (hkeeps _ (by decide))]
    rfl
  · rw [ht, State.inc_mem, State.setReg_mem, State.setReg_mem, State.modCtx_mem, hresumed.frame]

theorem dispatch_gives {x : CtxId} (hfree : s.coresFree x = true)
    (hfirst : ∀ y : CtxId, y ≠ x → s.coresFree y = true → (s.ctx y).shares (s.ctx x) = true → s.before y x = false)
    (hon : s.coresOn x = true) :
    Gives (.dispatch x) s fun t =>
      (t.ctx x).state = .running ∧ (∀ y, y ≠ x.val → t.ctx y = s.ctx y) ∧
      (∀ p ∈ (s.ctx x).place, (t.core p.core).ctx = some x ∧ (t.core p.core).parked = false) ∧
      t.reg64 pSCH 0xF00 = s.reg64 pSCH 0xF00 + 1 ∧ t.mem = s.mem := by
  have hnone : ((List.finRange 64).any fun (y : CtxId) =>
      y != x && s.coresFree y && (s.ctx y).shares (s.ctx x) && s.before y x) = false := by
    rw [List.any_eq_false]
    intro y _ hy
    simp only [Bool.and_eq_true, bne_iff_ne, ne_eq] at hy
    obtain ⟨⟨⟨hne, hcores⟩, hshares⟩, hbefore⟩ := hy
    rw [hfirst y hne hcores hshares] at hbefore
    cases hbefore
  refine ⟨s.dispatchNow x, ?_, s.dispatchNow_gives x⟩
  have hexec : exec (.dispatch x) s = ok (s.tryDispatch x) := rfl
  rw [hexec, State.tryDispatch]
  simp only [hfree, hnone, hon, Bool.not_true, Bool.false_eq_true, if_false, if_true]

theorem dispatch_waits {x : CtxId} (hfree : s.coresFree x = false) : Gives (.dispatch x) s fun t => t = s := by
  refine ⟨s, ?_, rfl⟩
  have hexec : exec (.dispatch x) s = ok (s.tryDispatch x) := rfl
  rw [hexec, State.tryDispatch]
  simp only [hfree, Bool.not_false, if_true]

end

end Sys2Proof.Machine
end

section
/-! PROOF. Loading a program and ending it (18_sharing.md R518, R520, R523; 07_hj2_contract.md R177, R220). -/

namespace Sys2Proof.Machine

/-! ### What a command is told -/

/-- Every entry of a command's number in the window of a queue has completed with a status. -/
def State.told (s : State) (q : Nat) (cid : Word64) (st : BitVec 16) : Prop :=
  ∀ w ∈ (s.que q).window, w.1 = cid → ∃ d, w.2 = some d ∧ d.status = st

section
variable {s : State} {q : Fin 64} {e : QEntry} {st : BitVec 16} {res : List Byte}

theorem State.que_modQue_same (s : State) (q : Nat) (f : Que → Que) : (s.modQue q f).que q = f (s.que q) :=
  sget_smod_same ..

theorem State.que_congr {s t : State} (h : t.ques = s.ques) (q : Nat) : t.que q = s.que q := by
  rw [State.que, h]
  rfl

theorem State.putCompletion_ques (s : State) (q : Nat) (e : QEntry) (d : QDone) (dup : Bool) :
    (s.putCompletion q e d dup).ques = s.ques := by
  unfold State.putCompletion
  dsimp only
  split
  · rw [State.signalVec_ques, State.setReg_ques, State.inc_ques, State.dmaOut_ques]
  · rw [State.setReg_ques, State.inc_ques, State.dmaOut_ques]

/-- What a queue's window keeps of a completion. -/
def Que.done (k : Que) (cid : Word64) (d : QDone) : Que :=
  { k with dups := k.dups.filter (fun f => f.cid != cid)
           window := k.window.map (fun w => if w.1 = cid then (w.1, some d) else w) }

theorem State.told_completeEntry (s : State) (q : Nat) (e : QEntry) (st : BitVec 16) (res : List Byte) :
    (s.completeEntry q e st res).told q e.cid st := by
  let d : QDone := { status := st, op := e.op, result := slice res 0 16 }
  have hques : (s.completeEntry q e st res).ques = (s.modQue q (fun k => k.done e.cid d)).ques :=
    List.foldlRecOn (motive := fun t : State => t.ques = (s.modQue q (fun k => k.done e.cid d)).ques) _ _
      (State.putCompletion_ques ..) fun t ht f _ => (t.putCompletion_ques q f d true).trans ht
  intro w hw hcid
  rw [State.que_congr hques, State.que_modQue_same] at hw
  obtain ⟨v, -, rfl⟩ := List.mem_map.1 hw
  by_cases h : v.1 = e.cid
  · exact ⟨d, by rw [if_pos h], rfl⟩
  · rw [if_neg h] at hcid
    exact absurd hcid h

/-- A running command that completes is told its status. -/
theorem State.told_completeRunning (hrun : e ∈ (s.que q).running) :
    (s.completeRunning q e.cid st res).told q e.cid st := by
  obtain ⟨f, hf⟩ := Option.isSome_iff_exists.1 (List.find?_isSome.2 ⟨e, hrun, beq_self_eq_true e.cid⟩ :
    ((s.que q).running.find? (fun f => f.cid == e.cid)).isSome)
  have hcid : f.cid = e.cid := eq_of_beq (List.find?_some hf :)
  unfold State.completeRunning
  rw [hf, ← hcid]
  exact State.told_completeEntry _ q f st res

theorem State.running_beginEntry (s : State) (q : Nat) (e : QEntry) :
    ((s.beginEntry q e).que q).running = (s.que q).running ++ [e] :=
  congrArg Que.running (State.que_modQue_same s q (fun k =>
    { k with fetched := k.fetched.tail, running := k.running ++ [e] }))

/-- A command that has begun, and completes in a state with the same queues, contexts and cores. -/
theorem State.completes_begun {u : State} (hques : u.ques = (s.beginEntry q e).ques) (hctxs : u.ctxs = s.ctxs)
    (hcores : u.cores = s.cores) :
    let t := u.completeRunning q e.cid st []
    t.told q e.cid st ∧ t.ctxs = s.ctxs ∧ t.cores = s.cores := by
  have hrun : e ∈ (u.que q).running := by
    rw [State.que_congr hques, s.running_beginEntry]
    exact List.mem_append_right _ (List.mem_singleton_self e)
  have hdone := u.completed_completeRunning q e.cid st []
  exact ⟨State.told_completeRunning hrun, hdone.ctxs.trans hctxs, hdone.cores.trans hcores⟩

end

/-! ### What examining an image leaves -/

/-- An image has been read and examined, or bound inputs have been hashed: no context, core or queue has changed. -/
structure State.Examined (s t : State) : Prop where
  frame : t = { s with mem := t.mem, pw := t.pw, regs := t.regs, free := t.free, tier := t.tier, chk := t.chk }
  time : t.pw.aonTime = s.pw.aonTime
  reg {q k : Nat} (hk : k < 0xF00) : t.reg q k = s.reg q k

section
variable {s t u : State}

theorem State.Examined.refl (s : State) : s.Examined s := ⟨rfl, rfl, fun _ => rfl⟩

theorem State.Examined.trans (h : s.Examined t) (h' : t.Examined u) : s.Examined u where
  frame := h'.frame.trans (congrArg (fun v : State => { v with
    mem := u.mem, pw := u.pw, regs := u.regs, free := u.free, tier := u.tier, chk := u.chk }) h.frame)
  time := h'.time.trans h.time
  reg hk := (h'.reg hk).trans (h.reg hk)

theorem State.Examined.ctxs (h : s.Examined t) : t.ctxs = s.ctxs := by rw [h.frame]
theorem State.Examined.cores (h : s.Examined t) : t.cores = s.cores := by rw [h.frame]
theorem State.Examined.ques (h : s.Examined t) : t.ques = s.ques := by rw [h.frame]

theorem State.Recorded.examined (h : s.Recorded t) : s.Examined t where
  frame := h.frame.trans (congrArg (fun c => { s with
    mem := t.mem, pw := t.pw, regs := t.regs, free := t.free, tier := t.tier, chk := c })
    (congrArg State.chk h.frame).symm)
  time := h.time
  reg hk := h.reg (.inl hk)

theorem State.Fetched.examined (h : s.Fetched t) : s.Examined t := h.recorded.examined

theorem State.examined_inc (s : State) {o : Nat} (n : Nat) (ho : 0xF00 ≤ o) (ho' : o < 0xFFC) :
    s.Examined (s.inc pSIG o n) :=
  ⟨rfl, rfl, fun hk => State.reg_inc_ne _ _ (by omega) (by omega)⟩

theorem State.examined_devkeyOk (s : State) : s.Examined s.devkeyOk.2 := by
  unfold State.devkeyOk
  split
  · exact .refl s
  · exact ⟨rfl, rfl, fun _ => rfl⟩

theorem State.examined_regionDigest (s : State) (x : CtxId) (b : Binding) : s.Examined (s.regionDigest x b).2 := by
  unfold State.regionDigest
  split
  · split
    · exact ((s.recorded_bankFor x _).trans (State.recorded_recRead ..)).examined.trans
        (State.examined_inc _ _ (by decide) (by decide))
    · exact s.fetched_usedFree.examined
  · exact s.fetched_usedFree.examined

theorem State.examined_roleDigest (s : State) (x : CtxId) (bs : List Binding) (out : Bool) :
    s.Examined (s.roleDigest x bs out).2 := by
  unfold State.roleDigest
  dsimp only
  split
  · exact .refl s
  · exact List.foldlRecOn (motive := fun a : List Byte × State => s.Examined a.2) _ _ (.refl s) fun a h b _ =>
      h.trans (a.2.examined_regionDigest x b)

/-- An image that is refused has been examined; one that is not begins a program once it has been. -/
theorem State.loadImage_cases (s : State) (x : CtxId) (q : Fin 64) (cid : Word64) (addr : Nat) :
    (∃ st, (s.loadImage x q cid addr).1 = some st ∧ s.Examined (s.loadImage x q cid addr).2) ∨
      ((s.loadImage x q cid addr).1 = none ∧ ∃ u im binds, s.Examined u ∧
        (s.loadImage x q cid addr).2 = u.beginProgram x q cid im binds) := by
  have hkey := s.examined_devkeyOk
  have hread (v : State) (h : s.Examined v) (a n : Nat) : s.Examined (v.devRead v.sysPart a n).2.2 :=
    h.trans (v.fetched_devRead ..).examined
  have hhash (v : State) (h : s.Examined v) (n : Nat) : s.Examined ((v.hashed n).inc pSIG 0xF08) :=
    h.trans ((v.examined_inc n (by decide) (by decide)).trans (State.examined_inc _ 1 (by decide) (by decide)))
  unfold State.loadImage
  dsimp only
  generalize s.devkeyOk = k at hkey ⊢
  split
  · exact .inl ⟨_, rfl, hkey⟩
  split
  · exact .inl ⟨_, rfl, hkey⟩
  have hhead := hread _ hkey addr 64
  generalize k.2.devRead k.2.sysPart addr 64 = d at hhead ⊢
  split
  · exact .inl ⟨_, rfl, hhead⟩
  have hbody := hread _ hhead addr (lef d.1 0x24 4)
  generalize d.2.2.devRead d.2.2.sysPart addr (lef d.1 0x24 4) = b at hbody ⊢
  have hsig := hhash _ hbody (b.1.take (lef d.1 0x24 4 - 64)).length
  generalize (b.2.2.hashed (b.1.take (lef d.1 0x24 4 - 64)).length).inc pSIG 0xF08 = v at hsig ⊢
  split
  · exact .inl ⟨_, rfl, hsig.trans (v.examined_inc 1 (by decide) (by decide))⟩
  split
  · exact .inl ⟨_, rfl, hsig⟩
  next im _ =>
  split
  · exact .inl ⟨_, rfl, hsig⟩
  have hbinds (a : Nat) := hread _ hsig a 1024
  generalize (v.reg64 pCHK 0x108).toNat % 2 ^ 40 / 65536 * 65536 + 0x400 * x.val = a
  have hbinds := hbinds a
  generalize v.devRead v.sysPart a 1024 = w at hbinds ⊢
  split
  · exact .inl ⟨_, rfl, hbinds⟩
  · refine .inr ⟨rfl, w.2.2, im, (bindEntries w.1).map (fun e => e.1), hbinds, ?_⟩
    dsimp only

end

/-! ### A program begins -/

/-- What an image's placement, segments and descriptors do to cores. -/
structure State.Filled (s t : State) : Prop where
  frame : t = { s with cores := t.cores }

theorem State.Filled.refl (s : State) : s.Filled s := ⟨rfl⟩

theorem State.Filled.trans {s t u : State} (h : s.Filled t) (h' : t.Filled u) : s.Filled u :=
  ⟨h'.frame.trans (congrArg (fun v : State => { v with cores := u.cores }) h.frame)⟩

section
variable {s t : State}

theorem State.Filled.ctxs (h : s.Filled t) : t.ctxs = s.ctxs := by rw [h.frame]
theorem State.Filled.ques (h : s.Filled t) : t.ques = s.ques := by rw [h.frame]
theorem State.Filled.regs (h : s.Filled t) : t.regs = s.regs := by rw [h.frame]
theorem State.Filled.chk (h : s.Filled t) : t.chk = s.chk := by rw [h.frame]

end

theorem State.filled_modCores {α : Type} (l : List α) (c : α → Nat) (f : α → Core → Core) (s : State) :
    s.Filled (l.foldl (fun s a => s.modCore (c a) (f a)) s) :=
  List.foldlRecOn (motive := s.Filled) l _ (.refl s) fun _ h _ _ => h.trans ⟨rfl⟩

/-- The registers of a context's latched seed have been written. -/
theorem State.seed_leaves (s : State) (x : CtxId) :
    let t := (List.range 4).foldl (fun (s : State) i =>
      s.setReg (pCTX x) (0x8A0 + 4 * i) (s.reg (pCTX x) (0x880 + 4 * i))) s
    t = { s with regs := t.regs } ∧ t.reg (pCTX x) 0x100 = s.reg (pCTX x) 0x100 := by
  refine List.foldlRecOn (motive := fun t : State => t = { s with regs := t.regs } ∧
    t.reg (pCTX x) 0x100 = s.reg (pCTX x) 0x100) _ _ ⟨rfl, rfl⟩ fun t h i _ => ?_
  obtain ⟨hframe, hreg⟩ := h
  refine ⟨congrArg (fun v : State => { v with regs := (t.setReg (pCTX x) (0x8A0 + 4 * i)
    (t.reg (pCTX x) (0x880 + 4 * i))).regs }) hframe, ?_⟩
  rw [State.reg_setReg_ne _ _ (by omega), hreg]

theorem State.job_modJob_same (s : State) (x : Nat) (f : Job → Job) : (s.modJob x f).job x = f (s.job x) :=
  sget_smod_same ..

/-- The job of a program that has begun, its inputs hashed. -/
theorem State.newInterval_job (s : State) (x : CtxId) :
    ((s.newInterval x).job x).live = (s.job x).live ∧ ((s.newInterval x).job x).jobId = (s.job x).jobId := by
  unfold State.newInterval
  dsimp only
  rw [State.job_modJob_same]
  exact ⟨rfl, rfl⟩

theorem State.beginProgram_gives (s : State) (x : CtxId) (q : Fin 64) (cid : Word64) (im : Image)
    (binds : List Binding) :
    let t := s.beginProgram x q cid im binds
    (t.ctx x).state = .ready ∧ (t.ctx x).begun = true ∧ (t.ctx x).loadCmd = some (q, cid) ∧
      (t.ctx x).cfg = s.reg (pCTX x) 0x100 ∧ (t.ctx x).readyAt = s.pw.aonTime ∧ (t.job x).live = true ∧
      (t.job x).jobId = cid ∧ t.ques = s.ques ∧ ∀ y, y ≠ x.val → t.ctx y = s.ctx y := by
  intro t
  have ht : t = s.beginProgram x q cid im binds := rfl
  clear_value t
  unfold State.beginProgram at ht
  extract_lets place seed s1 saves s2 s3 s4 s5 _ s6 at ht
  let s7 := (s6.roleDigest x binds false).2
  let job : Job := { live := true, jobId := cid, image := im.digest
                     inDigest := (s6.roleDigest x binds false).1, binds := binds }
  let s8 := s7.modJob x (fun _ => job)
  have ht : t = (s8.newInterval x).wakeSet x := ht
  obtain ⟨hseed, hcfg⟩ := s.seed_leaves x
  have hseed : s1 = { s with regs := s1.regs } := hseed
  have hcfg : s1.reg (pCTX x) 0x100 = s.reg (pCTX x) 0x100 := hcfg
  clear_value s1
  have hfilled : s2.Filled s5 :=
    ((State.filled_modCores im.segs (fun g => g.core) (fun g k => k.zeroScratch g.base g.bytes) s2).trans
      (State.filled_modCores im.descs (fun d => d.1)
        (fun d k => k.wrScratch k.th.cyc d.2.1 (d.2.2.map some) false) s3)).trans
      (State.filled_modCores place (fun p => p.1.core) (fun p k =>
        { k with pstore := ssets 0 k.pstore p.1.codeBase p.2 }) s4)
  have hdigest : s6.Examined s7 := s6.examined_roleDigest x binds false
  have hwoken : (s8.newInterval x).Fetched t := ht ▸ State.fetched_wakeSet ..
  have hs6ctxs : s6.ctxs = s2.ctxs := hfilled.ctxs
  have hs6ques : s6.ques = s2.ques := hfilled.ques
  have hs1ctxs : s1.ctxs = s.ctxs := (congrArg State.ctxs hseed :)
  have hs1ques : s1.ques = s.ques := (congrArg State.ques hseed :)
  have htime : s1.pw.aonTime = s.pw.aonTime := by rw [hseed]
  have hbegun : s8.job x = job := State.job_modJob_same ..
  have hctxs : t.ctxs = s2.ctxs := hwoken.ctxs.trans (hdigest.ctxs.trans hs6ctxs)
  have hques : t.ques = s.ques := hwoken.ques.trans (hdigest.ques.trans (hs6ques.trans hs1ques))
  have hjob : t.job x = (s8.newInterval x).job x := congrArg (fun c : Chk => (sget {} c.jobs x : Job)) hwoken.chk
  obtain ⟨hlive, hid⟩ := s8.newInterval_job x
  have hctx : t.ctx x = s2.ctx x := State.ctx_congr hctxs x
  refine ⟨?_, ?_, ?_, ?_, ?_, ?_, ?_, hques, fun y hy => ?_⟩
  · rw [hctx, State.ctx_modCtx_same]
  · rw [hctx, State.ctx_modCtx_same]
  · rw [hctx, State.ctx_modCtx_same]
  · rw [hctx, State.ctx_modCtx_same]
    exact hcfg
  · rw [hctx, State.ctx_modCtx_same]
    exact htime
  · rw [hjob, hlive, hbegun]
  · rw [hjob, hid, hbegun]
  · rw [State.ctx_congr hctxs, State.ctx_modCtx_ne _ _ hy]
    exact State.ctx_congr hs1ctxs y

/-! ### LOAD -/

section
variable {q : Fin 64} {e : QEntry} {x : CtxId} {s : State}

/-- What LOAD does with an entry that it may begin. -/
theorem exec_load (hbegin : s.mayBegin q 1 = some e) :
    exec (.load q) s = ok (
      match s.queCtx q with
      | none => (s.beginEntry q e).completeRunning q e.cid stCTX_INVALID []
      | some x =>
        if (s.ctx x).state = .free then (s.beginEntry q e).completeRunning q e.cid stCTX_INVALID []
        else if (s.ctx x).state ≠ .idle then (s.beginEntry q e).completeRunning q e.cid stCTX_BUSY []
        else match (s.beginEntry q e).loadImage x q e.cid (e.image.toNat % 2 ^ 40) with
          | (some st, s) => s.completeRunning q e.cid st []
          | (none, s) => s) := by
  have hexec : exec (.load q) s = execLoad q s := rfl
  have hque : (s.beginEntry q e).queCtx q = s.queCtx q := by
    have hreg (y : CtxId) : (s.beginEntry q e).reg (pCTX y) 0x100 = s.reg (pCTX y) 0x100 :=
      State.reg_inc_of_apart _ _ (by simp only [pQUE, pCTX]; omega)
    simp only [State.queCtx, State.ctxValid, hreg]
  rw [hexec, execLoad]
  simp only [hbegin, hque]
  rfl

theorem load_waits (hbegin : s.mayBegin q 1 = none) : Gives (.load q) s fun t => t = s := by
  refine ⟨s, ?_, rfl⟩
  have hexec : exec (.load q) s = execLoad q s := rfl
  rw [hexec, execLoad, hbegin]

theorem load_invalid (hbegin : s.mayBegin q 1 = some e) (hque : s.queCtx q = none) :
    Gives (.load q) s fun t => t.told q e.cid stCTX_INVALID ∧ t.ctxs = s.ctxs ∧ t.cores = s.cores :=
  ⟨_, by rw [exec_load hbegin, hque], State.completes_begun rfl rfl rfl⟩

theorem load_busy (hbegin : s.mayBegin q 1 = some e) (hque : s.queCtx q = some x) (hloaded : (s.ctx x).loaded = true) :
    Gives (.load q) s fun t => t.told q e.cid stCTX_BUSY ∧ t.ctxs = s.ctxs ∧ t.cores = s.cores := by
  rw [Ctx.loaded, Bool.and_eq_true, bne_iff_ne, bne_iff_ne] at hloaded
  obtain ⟨hfree, hidle⟩ := hloaded
  refine ⟨_, ?_, State.completes_begun rfl rfl rfl⟩
  rw [exec_load hbegin, hque]
  simp only [hfree, hidle, ne_eq, not_false_eq_true, if_true, if_false]

/-- LOAD of a context that may take a program is the examination of its image. -/
theorem exec_load_image (hbegin : s.mayBegin q 1 = some e) (hque : s.queCtx q = some x)
    (hidle : (s.ctx x).state = .idle) :
    exec (.load q) s = ok (match (s.beginEntry q e).loadImage x q e.cid (e.image.toNat % 2 ^ 40) with
      | (some st, s) => s.completeRunning q e.cid st []
      | (none, s) => s) := by
  rw [exec_load hbegin, hque]
  simp only [hidle, reduceCtorEq, ne_eq, not_true_eq_false, if_false]

theorem load_fails {st : BitVec 16} (hbegin : s.mayBegin q 1 = some e) (hque : s.queCtx q = some x)
    (hidle : (s.ctx x).state = .idle)
    (himage : ((s.beginEntry q e).loadImage x q e.cid (e.image.toNat % 2 ^ 40)).1 = some st) :
    Gives (.load q) s fun t => t.told q e.cid st ∧ t.ctxs = s.ctxs ∧ t.cores = s.cores := by
  have hexec := exec_load_image hbegin hque hidle
  obtain ⟨st', -, hexam⟩ | ⟨hnone, -⟩ := (s.beginEntry q e).loadImage_cases x q e.cid (e.image.toNat % 2 ^ 40)
  · generalize (s.beginEntry q e).loadImage x q e.cid (e.image.toNat % 2 ^ 40) = l at hexec himage hexam
    obtain ⟨o, u⟩ := l
    obtain rfl : o = some st := himage
    exact ⟨_, hexec, State.completes_begun hexam.ques hexam.ctxs hexam.cores⟩
  · rw [hnone] at himage
    cases himage

theorem load_begins (hbegin : s.mayBegin q 1 = some e) (hque : s.queCtx q = some x)
    (hidle : (s.ctx x).state = .idle)
    (himage : ((s.beginEntry q e).loadImage x q e.cid (e.image.toNat % 2 ^ 40)).1 = none) :
    Gives (.load q) s fun t =>
      (t.ctx x).state = .ready ∧ (t.ctx x).begun = true ∧ (t.ctx x).loadCmd = some (q, e.cid) ∧
      (t.ctx x).cfg = s.reg (pCTX x) 0x100 ∧ (t.ctx x).readyAt = s.pw.aonTime ∧ (t.job x).live = true ∧
      (t.job x).jobId = e.cid ∧ (t.que q).running = (s.que q).running ++ [e] ∧ ∀ y, y ≠ x.val → t.ctx y = s.ctx y := by
  have hexec := exec_load_image hbegin hque hidle
  obtain ⟨st, hsome, -⟩ | ⟨-, u, im, binds, hexam, hbegun⟩ :=
    (s.beginEntry q e).loadImage_cases x q e.cid (e.image.toNat % 2 ^ 40)
  · rw [hsome] at himage
    cases himage
  · obtain ⟨hstate, hbeg, hcmd, hcfg, hready, hlive, hid, hques, hothers⟩ := u.beginProgram_gives x q e.cid im binds
    generalize u.beginProgram x q e.cid im binds = v at *
    have hload : (s.beginEntry q e).loadImage x q e.cid (e.image.toNat % 2 ^ 40) = (none, v) := Prod.ext himage hbegun
    rw [hload] at hexec
    have hreg : u.reg (pCTX x) 0x100 = s.reg (pCTX x) 0x100 := (hexam.reg (by decide)).trans
      (State.reg_inc_of_apart _ _ (by simp only [pQUE, pCTX]; omega))
    refine ⟨_, hexec, hstate, hbeg, hcmd, hcfg.trans hreg, hready.trans hexam.time, hlive, hid, ?_, fun y hy => ?_⟩
    · rw [State.que_congr (hques.trans hexam.ques), s.running_beginEntry]
    · exact (hothers y hy).trans (State.ctx_congr hexam.ctxs y)

end

/-! ### The end of a program -/

section
variable {x : CtxId} {s : State}

/-- Cores have been freed of a context: no other thing has changed. -/
theorem State.zeroCores_leave (l : List Place) (s : State) (x : CtxId) :
    let t := l.foldl (fun s p => s.zeroCore x p) s
    s.Filled t ∧ ∀ d, ((s.core d).ctx ≠ some x ∨ ∃ p ∈ l, d = p.core.val) → (t.core d).ctx ≠ some x := by
  induction l generalizing s with
  | nil => exact ⟨.refl s, fun d hd => hd.resolve_right (by simp)⟩
  | cons p l ih =>
    have hzero (k : Core) (n a : Nat) : (k.zeroStore n a).ctx = k.ctx := rfl
    have hscratch (segs : List Seg) (k : Core) :
        (segs.foldl (fun (k : Core) g => k.zeroScratch g.base g.bytes) k).ctx = k.ctx :=
      foldl_keeps Core.ctx (fun (k : Core) g => k.zeroScratch g.base g.bytes) (fun k g => by
        unfold Core.zeroScratch
        rfl) segs k
    have hstep (d : Nat) (hd : (s.core d).ctx ≠ some x ∨ d = p.core.val) : ((s.zeroCore x p).core d).ctx ≠ some x := by
      unfold State.zeroCore
      dsimp only
      rw [State.core_modCore]
      split
      · split
        · simp
        · next hnot => exact hnot
      · next hne => exact hd.resolve_right hne
    obtain ⟨hrest, hfree⟩ := ih (s.zeroCore x p)
    refine ⟨State.Filled.trans ⟨rfl⟩ hrest, fun d hd => hfree d ?_⟩
    obtain hd | ⟨r, hr, rfl⟩ := hd
    · exact Or.inl (hstep d (Or.inl hd))
    · obtain rfl | hr := List.mem_cons.1 hr
      · exact Or.inl (hstep _ (Or.inr rfl))
      · exact Or.inr ⟨r, hr, rfl⟩

/-- What a context is once its program has ended. -/
def Ctx.ended (g : Ctx) (valid : Bool) (st : BitVec 16) : Ctx :=
  { g with state := if valid then .idle else .free, endStatus := st, endWith := none, place := [], segs := [], bars := []
           preemptFor := none, late := false, loadCmd := none, saves := [], begun := false }

/-- A context has no wake set any more. -/
def State.unwoken (s : State) (x : CtxId) : State := { s with pw := { s.pw with wsets := sset 0 s.pw.wsets x 0 } }

/-- A program's context and cores once its end has had its effects and its FINAL receipt is sealed. -/
def State.released (s : State) (x : CtxId) (st : BitVec 16) : State :=
  let u := (s.ctx x).place.foldl (fun s p => s.zeroCore x p) (s.dropRetries x)
  (u.unwoken x).modCtx x (fun g => g.ended ((u.unwoken x).ctxValid x) st)

theorem State.endProgram_eq (s : State) (x : CtxId) (st : BitVec 16) :
    s.endProgram x st =
      let u := (s.endEffects x st).sealFinal x st
      match (u.ctx x).loadCmd with
      | some (q, cid) => (u.released x st).completeRunning q cid st
          (leBytes 8 (u.reg64 pCHK 0x810 - 1).toNat ++ leBytes 8 ((u.job x).rseq - 1).toNat)
      | none => u.released x st := rfl

/-- A completion, where there is one, leaves contexts, cores and jobs. -/
theorem State.endProgram_leaves (s : State) (x : CtxId) (st : BitVec 16) :
    let u := (s.endEffects x st).sealFinal x st
    (s.endProgram x st).ctxs = (u.released x st).ctxs ∧ (s.endProgram x st).cores = (u.released x st).cores ∧
      (s.endProgram x st).chk = (u.released x st).chk := by
  rw [State.endProgram_eq]
  dsimp only
  generalize (s.endEffects x st).sealFinal x st = u
  split
  · next q cid _ =>
    have hdone := (u.released x st).completed_completeRunning q cid st
      (leBytes 8 (u.reg64 pCHK 0x810 - 1).toNat ++ leBytes 8 ((u.job x).rseq - 1).toNat)
    exact ⟨hdone.ctxs, hdone.cores, hdone.chk⟩
  · exact ⟨rfl, rfl, rfl⟩

theorem State.released_gives (s : State) (x : CtxId) (st : BitVec 16) :
    (s.released x st).ctx x = (s.ctx x).ended (s.ctxValid x) st ∧ (s.released x st).chk = s.chk ∧
      ∀ p ∈ (s.ctx x).place, ((s.released x st).core p.core).ctx ≠ some x := by
  obtain ⟨hfilled, hfree⟩ := State.zeroCores_leave (s.ctx x).place (s.dropRetries x) x
  unfold State.released
  dsimp only
  generalize (s.ctx x).place.foldl (fun s p => s.zeroCore x p) (s.dropRetries x) = u at hfilled hfree ⊢
  have hctxs : u.ctxs = s.ctxs := hfilled.ctxs
  have hregs : u.regs = s.regs := hfilled.regs
  have hchk : u.chk = s.chk := hfilled.chk
  have hwctxs : (u.unwoken x).ctxs = s.ctxs := by rw [← hctxs, State.unwoken]
  have hwregs : (u.unwoken x).regs = s.regs := by rw [← hregs, State.unwoken]
  have hvalid : (u.unwoken x).ctxValid x = s.ctxValid x := by
    rw [State.ctxValid, State.reg_congr hwregs]
    rfl
  refine ⟨?_, ?_, fun p hp => ?_⟩
  · rw [State.ctx_modCtx_same, hvalid, State.ctx_congr hwctxs]
  · rw [State.modCtx_chk, ← hchk, State.unwoken]
  · have hwcores : (u.unwoken x).cores = u.cores := by rw [State.unwoken]
    rw [State.core_congr (State.modCtx_cores ..), State.core_congr hwcores]
    exact hfree _ (Or.inr ⟨p, hp, rfl⟩)

theorem State.job_sealFinal (s : State) (x : CtxId) (st : BitVec 16) : ((s.sealFinal x st).job x).live = false := by
  unfold State.sealFinal
  dsimp only
  rw [State.job_modJob_same]

theorem programEnd_gives {st : BitVec 16} (hdue : s.endDue x = some st) :
    Gives (.programEnd x) s fun t =>
      (t.ctx x).state = (if s.ctxValid x = true then .idle else .free) ∧ (t.ctx x).endStatus = st ∧
      (t.ctx x).place = [] ∧ (t.ctx x).begun = false ∧ (t.job x).live = false ∧
      ∀ p ∈ (s.ctx x).place, (t.core p.core).ctx ≠ some x := by
  obtain ⟨hctxs, hcores, hchk⟩ := s.endProgram_leaves x st
  have hstands : ((s.endEffects x st).sealFinal x st).stands = s.stands :=
    (State.sealFinal_stands ..).trans (State.endEffects_stands ..)
  have hdead := (s.endEffects x st).job_sealFinal x st
  generalize (s.endEffects x st).sealFinal x st = u at hctxs hcores hchk hstands hdead
  obtain ⟨hctx, hkept, hfree⟩ := u.released_gives x st
  have hend : (s.endProgram x st).ctx x = (u.ctx x).ended (s.ctxValid x) st := by
    rw [State.ctx_congr hctxs, hctx, State.ctxValid_of_stands hstands]
  refine ⟨s.endProgram x st, ?_, ?_, ?_, ?_, ?_, ?_, fun p hp => ?_⟩
  · have hexec : exec (.programEnd x) s = execProgramEnd x s := rfl
    rw [hexec, execProgramEnd, hdue]
  · rw [hend]; rfl
  · rw [hend]; rfl
  · rw [hend]; rfl
  · rw [hend]; rfl
  · rw [State.job, hchk, hkept]
    exact hdead
  · rw [State.core_congr hcores]
    exact hfree p (by rw [State.place_of_stands hstands]; exact hp)

theorem programEnd_waits (hdue : s.endDue x = none) : Gives (.programEnd x) s fun t => t = s := by
  refine ⟨s, ?_, rfl⟩
  have hexec : exec (.programEnd x) s = execProgramEnd x s := rfl
  rw [hexec, execProgramEnd, hdue]

end

/-- Settles O50: each command by what it leaves of contexts, cores and queues; the end of a program keeps the placements and
CTX_CFG that it reads last (`State.endEffects_stands`, `State.sealFinal_stands`). -/
theorem contextsAndPrograms : Obligations.ContextsAndPrograms := by
  unfold Obligations.ContextsAndPrograms
  exact ⟨fun _ _ _ _ hadm hvalid => ⟨fun hfree => ctxValidSet_binds hadm hvalid hfree,
      fun htaken hnot => ctxValidSet_refuses hadm hvalid htaken hnot⟩,
    fun _ _ _ => ⟨fun hbegin => load_waits hbegin, fun hbegin hque => load_invalid hbegin hque,
      fun _ hbegin hque hloaded => load_busy hbegin hque hloaded,
      fun _ _ hbegin hque hidle himage => load_fails hbegin hque hidle himage,
      fun _ hbegin hque hidle himage => load_begins hbegin hque hidle himage⟩,
    fun _ _ _ hadm => ⟨fun hloaded => kill_gives hadm hloaded, fun hidle => kill_idle hadm hidle⟩,
    fun _ _ => ⟨fun _ hdue => programEnd_gives hdue, fun hdue => programEnd_waits hdue⟩,
    fun _ _ => ⟨fun hfree hfirst hon => dispatch_gives hfree hfirst hon, fun hfree => dispatch_waits hfree⟩⟩

end Sys2Proof.Machine
end
